-- ==== Sys2Proof/Word.lean ====
section
/-!
DEFINITION. The machine's number types and the plain-data table that State is built from.
-/
namespace Sys2Proof

/-- One byte of a packet, a payload or a memory. -/
abbrev Byte := BitVec 8
/-- A 16-bit field: a tag, an opcode, a device ID. -/
abbrev Half := BitVec 16
/-- A 32-bit register (R14). -/
abbrev Word := BitVec 32
/-- A 64-bit value: TIME, a stamp, a unique_id. -/
abbrev DWord := BitVec 64

/-- A table from numbers to records, as plain data: keys strictly rising when it is built by `Tab.set`; a key that is
not listed has the reset record its reader names. -/
abbrev Tab (α : Type) := List (Nat × α)

end Sys2Proof
end

