-- ==== Sys2Proof/Types.lean ====
section
/-!
DEFINITION. The names the commands of the block are written with: the operands of `Sys2Proof.Instr`. Plain data, no
meaning.
-/
namespace Sys2Proof

/-- Host A or host B, two logical masters with equal rights (R34). Also names host port A or B. -/
inductive HostId where
  | a
  | b
  deriving DecidableEq, Repr

/-- The four variants of Table — Horduisk variants (R1). -/
inductive Variant where
  | hk32f
  | hk32b
  | hk16f
  | hk16l
  deriving DecidableEq, Repr

/-- The transport a command packet arrives on (R34, R226, R243). `svc 0` is the instance on the service port, `svc (1 + n)`
the instance on port Pn while it is in UFP_SWAPPED. -/
inductive Via where
  | localPort (h : HostId)
  | trunk (n : Nat) (origin : Half)
  | svc (inst : Nat)
  deriving DecidableEq, Repr

/-- A command packet as a transport delivered it (R217). `delivered` is the number of bytes the transport delivered;
the opcode stands in the command's own constructor, or in `opcode` where the packet is carried as bytes. -/
structure Packet where
  via       : Via
  delivered : Nat
  tag       : Half
  paramLen  : Half
  destId    : Half
  srcHost   : Half
  flags     : Half
  crc       : Word
  params    : List Byte
  deriving DecidableEq, Repr

/-- What the CC balls of a port show (R42, R44): Rd on one pin or on both. Ra alone is not an attach. -/
inductive CcSeen where
  | cc1
  | cc2
  | both
  deriving DecidableEq, Repr

/-- Where an instrument attaches in a port's tree: the Type-C port itself, or a port of a hub (R50, R61). -/
inductive At where
  | root
  | hub (addr hport : Nat)
  deriving DecidableEq, Repr

/-- Result of one wire transaction on an endpoint (R110). -/
inductive Txn where
  | data (toggleMatches : Bool) (bytes : List Byte)
  | ack
  | nak
  | nyet
  | stall
  | error
  deriving DecidableEq, Repr

/-- Result of one enumeration control transfer (R50, R51): its data stage, a STALL, or a failure after the retries. -/
inductive EnumReply where
  | done (bytes : List Byte)
  | stall
  | failed
  deriving DecidableEq, Repr

/-- A change a hub reports on one of its ports (R78 step 8). -/
inductive HubChange where
  | connect
  | disconnect
  deriving DecidableEq, Repr

/-- What a hub reports besides connect changes (R64, code 0x0109). -/
inductive HubGone where
  | removed
  | overCurrent
  | disabledByHub
  deriving DecidableEq, Repr

/-- What TRANSACTION_RESULT carries: the result of a transaction on a context, the result of a split step, one that the source
of a handed-off migration finishes (R139 step 6; `split` is the offset of a complete-split), an entry not run, the reply to
an enumeration request, the answer of a stored instrument to the verification of R78 step 5, or the answers to the
GetPortStatus and GET_STATUS of R71 and R72: whether a hub's port has resumed, whether an instrument is the one that
woke. -/
inductive TxnRes where
  | ctx (epid : Nat) (r : Txn)
  | startSplit (epid : Nat) (r : Txn)
  | completeSplit (epid : Nat) (offset : Nat) (r : Txn)
  | late (epid : Nat) (split : Option Nat) (r : Txn)
  | notRun (epid : Nat)
  | enum (port : Nat) (loc : At) (r : EnumReply)
  | verify (port addr : Nat) (answer : Option (List Byte × Nat)) (changes : List (Nat × HubChange))
  | portStatus (port hub hport : Nat) (resumed : Bool)
  | devStatus (port addr : Nat) (waking : Bool)
  deriving DecidableEq, Repr

/-- One host access to the mailbox RAM in one mailbox cycle (R551, R553): a read, or a write of a value. -/
inductive MbxOp where
  | read (addr : Nat)
  | write (addr : Nat) (v : Word)
  deriving DecidableEq, Repr

/-- What reaches the mailbox array in one cycle: an access of each port, a ring read of the control island through the
port of that ring's host, and the port whose access arrived later (R551). -/
structure MbxCycle where
  portA : Option MbxOp
  portB : Option MbxOp
  ring  : Option (HostId × Nat)
  later : HostId
  deriving DecidableEq, Repr

/-- A READ of some words (R235); a READ of a queue window that is not ready asserts BUSY_N (R236). -/
structure ReadBurst where
  words : Nat
  ready : Bool
  deriving DecidableEq, Repr

/-- A WRITE of words; without `room` it finds the 16-word write buffer full (R235, R236). -/
structure WriteBurst where
  words : List Word
  room  : Bool
  deriving DecidableEq, Repr

/-- What the Ledger reads at a recompute (R148): device power in mW, the twelve sensors' 1 s averages in 0.1 °C, each
engine's measured power in mW, the measured TE and PG power in mW and the transactions run in the last second. -/
structure LedgerMeas where
  dMw     : Int
  temps   : List Int
  engMw   : List Int
  tePgMw  : Int
  txns    : Nat
  deriving DecidableEq, Repr

/-- How a unit test or a port calibration ended (R169, R171, R558). `column` is the failing column the march found. -/
inductive TestEnd where
  | pass (us : Nat)
  | fail (us : Nat)
  | column (us col : Nat) (repeatPasses : Bool)
  | calibrated (ccTrim isnsTrim : BitVec 8)
  | calRange
  deriving DecidableEq, Repr

/-- What a scrub of a protected memory found (R205, R549, R550). -/
inductive ScrubFound where
  | passDone
  | corrected (addr : Nat)
  | uncorrectable (addr : Nat)
  deriving DecidableEq, Repr

/-- The content of an uncorrectable control SRAM word (Table — Uncorrectable control SRAM words). -/
inductive CtrlContent where
  | context (epid : Nat)
  | schedule
  | header (queue index : Nat)
  | code
  | mboterData
  | opRecord (h : HostId) (tag : Half)
  deriving DecidableEq, Repr

/-- What the control SRAM scrub, or a read, found in a bank (R549, R550), or a parity error of a head or tail header register (R212). `column`: the
column 0-71 of the bit that was corrected (R548). -/
inductive CtrlFound where
  | headerParity (queue index : Nat)
  | corrected (addr column : Nat)
  | uncorrectable (addr : Nat) (c : CtrlContent)
  deriving DecidableEq, Repr

/-- What the Peat store scrub found (R205). -/
inductive PeatFound where
  | passDone
  | corrected (addr : Nat)
  | uncorrectable (addr : Nat)
  deriving DecidableEq, Repr

/-- The Draxinto header fields of a received frame that its meaning uses (R306), and its destination MAC address (R303, R304): the
device ID in it, or `none` for the broadcast address. -/
structure FrameHdr where
  cls    : Nat
  replay : Bool
  src    : Half
  dst    : Half
  hops   : Nat
  queue  : Nat
  seqn   : Half
  mac    : Option Half := none
  deriving DecidableEq, Repr

/-- A KEEPALIVE payload (Table — KEEPALIVE payload). -/
structure KeepAlive where
  id       : Half
  trunk    : Nat
  ring     : Bool
  blocked  : Bool
  kindling : Bool
  accepts  : Bool
  locked   : Bool
  uid      : DWord
  freedA   : Half
  freedB   : Half
  freedC   : Half
  topoSeq  : Half
  deriving DecidableEq, Repr

/-- One trunk's entry of a TOPOLOGY record. -/
structure TopoLink where
  nbId  : Half
  state : Nat
  ring  : Bool
  deriving DecidableEq, Repr

/-- A TOPOLOGY record (Table — TOPOLOGY payload). -/
structure Topo where
  id        : Half
  seqn      : Half
  uid       : DWord
  withdrawn : Bool
  kindling  : Bool
  links     : List TopoLink
  deriving DecidableEq, Repr

/-- A TOPOLOGY frame: its record and the hops of its header (R308, R316). -/
structure TopoFrame where
  hops : Nat
  topo : Topo
  deriving DecidableEq, Repr

/-- A queue item: its header fields and payload (R177), the payload banks its extents touch (R469), for a COMMAND item
the transport it is tied to (R245), for a REPLY item the service class of its command (R309), and for an item of a middle in
the Peat store the serial number of its spill extent (R181). -/
structure Item where
  typ     : Nat
  flags   : BitVec 8
  source  : Word
  stamp   : DWord
  payload : List Byte
  banks   : List Nat
  via     : Option Via
  cls     : Nat := 2
  ext     : Nat := 0
  deriving DecidableEq, Repr

/-- Why a PHY's link counts as down (R300, R301): it reports no link; SGMII in-band status gives another speed or half duplex, or a
1000BASE-X partner advertises no full duplex; it did not answer three consecutive MDIO reads. -/
inductive PhyDown where
  | noLink
  | mode
  | noAnswer
  deriving DecidableEq, Repr

/-- The link of a trunk goes down, or counts as down. -/
structure LinkDown where
  trunk : Nat
  why   : PhyDown
  deriving DecidableEq, Repr

/-- What has arrived of a frame that is in transit: its type, credit flag, header and payload (R307). -/
structure Passing where
  type    : Nat
  credit  : Bool
  hdr     : FrameHdr
  payload : List Byte
  deriving DecidableEq, Repr

/-- Why a trunk discards a received frame (R304, R307). A wrong FCS of a frame in transit comes with what has arrived of it. -/
inductive Discard where
  | fcs (passing : Option Passing)
  | dest
  | etherType
  | vlan
  | version
  | type
  | headerCrc
  | pause
  deriving DecidableEq, Repr

/-- Which of the HK32's PD messages a GoodCRC answers (R346, R361). -/
inductive PdSent where
  | sourceCaps
  | accept
  | acceptSwap
  | swap
  | other
  deriving DecidableEq, Repr

/-- The PD messages the HK32 sends on SOP (R340). -/
inductive PdMsg where
  | sourceCaps
  | request
  | accept
  | wait
  | reject
  | psRdy
  | notSupported
  | sinkCaps
  | drSwap
  | softReset
  | vdmAck
  | vdmNak
  | discIdentity
  | discSvids
  | discModes
  | enterMode
  | exitMode
  deriving DecidableEq, Repr

/-- The partner's answer to a request of the HK32 (R340, R288). -/
inductive PdAnswer where
  | accept
  | wait
  | reject
  deriving DecidableEq, Repr

/-- The swaps the HK32 rejects (R340). -/
inductive PdSwapKind where
  | prSwap
  | frSwap
  | vconnSwap
  deriving DecidableEq, Repr

/-- The structured VDM requests of R366. -/
inductive VdmReq where
  | identity
  | svids
  | modes (svid : BitVec 16)
  | enterMode (svid : BitVec 16)
  | attention
  deriving DecidableEq, Repr

/-- A VDM response: ACK, NAK or BUSY (R367). -/
inductive VdmAns where
  | ack
  | nak
  | busy
  deriving DecidableEq, Repr

/-- A CAN frame on the wire (R404, R422), with the ns of TIME since the edge of its start of frame (R427) and what it beat in arbitration:
a send object, or 128 the reference message. -/
structure CanFrame where
  ide  : Bool
  id   : BitVec 29
  rtr  : Bool
  fdf  : Bool
  brs  : Bool
  esi  : Bool
  dlc  : BitVec 4
  data : List Byte
  ago  : Nat
  lost : Option Nat := none
  deriving DecidableEq, Repr

/-- A bus error of a channel (R415, R416, R430, R431, R432), as ISO 11898-1 tells errors apart. `sending`: the send object, or 128 the
reference message, when the channel was sending; `lost`: one that had lost arbitration before. `ago`: ns of TIME since the start of
frame. `passiveDominant`: a dominant bit was seen in a passive error flag; `stuffArb`: a stuff error in arbitration by a recessive stuff
bit that was read dominant; `flags`: how many further times 8 is counted (a bit error in an error or overload flag, a dominant bit after
it, each 8 dominant bits more). `tdc`: the loop delay measured in the frame. -/
structure CanErr where
  sending     : Option Nat
  lost        : Option Nat := none
  ago         : Nat := 0
  ackError    : Bool := false
  passiveDominant : Bool := false
  stuffArb    : Bool := false
  flags       : Nat := 0
  dataPhase   : Bool := false
  bitInData   : Bool := false
  errorFrame  : Bool := true
  tdc         : Option Nat := none
  deriving DecidableEq, Repr

/-- What the ROM finds in an image slot at start (R493, R498). -/
inductive SlotFound where
  | noAnswer
  | empty
  | badFormat
  | badSignature
  | valid (version ucode : Word)
  deriving DecidableEq, Repr

/-- What a cold start meets outside the logic die (R201, R497): whether the OTP passes its check, whether a reference is
ready on XTAL_IN and on CLKIN_ALT, whether the Peat store initialises, what each slot holds, and the offsets of the
Lichen records whose CRC fails (R556). `banks` and `islands` are the memory units, by r of R560 with 24 for none, and the islands
that do not report ready within their steps (R467). -/
structure StartEnv where
  otpOk   : Bool
  xtal    : Bool
  clkAlt  : Bool
  peatOk  : Bool
  slot0   : SlotFound
  slot1   : SlotFound
  badRecords : List Nat
  banks      : List Nat := []
  islands    : List Nat := []
  deriving DecidableEq, Repr

/-- Which result a slot verify found (R495, R296): 0 valid, 1 bad signature, 2 bad format. -/
inductive VerifyEnd where
  | valid
  | badSignature
  | badFormat
  deriving DecidableEq, Repr

/-- What asserts a logic-die reset (R398, R524): RESET_N of any length, or any other cause. -/
inductive ResetCause where
  | resetN
  | other
  deriving DecidableEq, Repr

/-- Which merged event an interval belongs to (R122, R433, R336, R440, R485). -/
inductive MergeKind where
  | epService (port : Nat)
  | canObjects (ch : Nat)
  | frameErrors (trunk : Nat)
  | topologyChanged
  | ppsGlitch
  | faultRepeat (source : Nat)
  deriving DecidableEq, Repr

/-- What the power die senses at a FET check (R387): VSNS in 100 mV, and whether PRAIL15_SNS is at least 14.25 V. -/
structure FetSense where
  vsns   : Nat
  good15 : Bool
  deriving DecidableEq, Repr

/-- A unit that a test, an evacuation or a wake step names (R166, R467): an engine, a payload bank, a control bank, or
an island by its code of Table — Island codes. -/
inductive TUnit where
  | engine (e : Nat)
  | payload (b : Nat)
  | control (b : Nat)
  deriving DecidableEq, Repr

/-- Why a re-plan runs: its priority row of Table — Re-plan triggers (R126). -/
inductive Replan where
  | fault
  | ledger
  | feed
  | evacuation
  | admission
  | hint
  | periodic
  deriving DecidableEq, Repr

/-- An address or a context index in quarantine (R53, R58). -/
inductive Quiet where
  | addr (a : Nat)
  | index (i : Nat)
  deriving DecidableEq, Repr

end Sys2Proof
end

