-- ==== Sys2Proof/Syntax.lean ====
section
/-!
DEFINITION. The commands of the block, one constructor per row of spec/opcode_table.json. A docstring's text is the
row's own summary.
-/
namespace Sys2Proof

/-- The commands the block takes from outside: a host command packet, an access of a register, an event on a pin or a
wire, or the expiry of a timer of the block. -/
inductive Instr where
  -- Host commands: a packet that carries the opcode (R217).
  /-- DEV_IDENTIFY (R271): Command that returns DEV_CAP0, DEV_CAP1, the device ID, power state, life cycle, Mboter version, Peat store size and unique_id. -/
  | devIdentify (p : Packet)
  /-- DEV_STATUS (R271): Command that returns the power state, Kindling cause, boot count, fault summary, temperatures, feeds and islands off. -/
  | devStatus (p : Packet)
  /-- DEV_SET_ID (R272): Command that stores a new device ID in the Lichen island and announces the new MAC address on the trunks. -/
  | devSetId (p : Packet)
  /-- DEV_ECHO (R271): Command that returns its parameters unchanged. -/
  | devEcho (p : Packet)
  /-- OP_ABORT (R263): Command that decides the abort of a named command of the same host through one compare-and-set on its state word. -/
  | opAbort (p : Packet)
  /-- OP_QUERY (R223): Command that returns the completion record of a tag for either host. -/
  | opQuery (p : Packet)
  /-- DEV_WARM_RESTART (R273): Configuration command that warm-restarts the lockstep cores while ports, schedules and trunks keep running. -/
  | devWarmRestart (p : Packet)
  /-- HOST_BIND (R226): Command that binds or releases the sender's host on the transport the command arrived on and sets its watchdog. -/
  | hostBind (p : Packet)
  /-- SEM_TAKE (R259): Command that takes every semaphore of a mask or none of them. -/
  | semTake (p : Packet)
  /-- SEM_GIVE (R259): Command that releases the masked semaphores that the sender holds. -/
  | semGive (p : Packet)
  /-- DEV_POWER_STATE (R456): Configuration command that requests DOZE or HIBERNATE, or a wake from DOZE, through the entry handshake. -/
  | devPowerState (p : Packet)
  /-- PORT_ENABLE (R276): Command that takes the masked ports from DISABLED to UNATTACHED, or refuses if any of them is shed. -/
  | portEnable (p : Packet)
  /-- PORT_DISABLE (R276): Command that disables the masked ports, frees their trees and clears the shed flag and any latch. -/
  | portDisable (p : Packet)
  /-- PORT_STATUS (R275): Command that returns the bus state, speed, flags, owner, counts and measurements of one port. -/
  | portStatus (p : Packet)
  /-- PORT_BUS_RESET (R276): Command that frees the tree of a RUNNING or ERROR port and resets and enumerates it again. -/
  | portBusReset (p : Packet)
  /-- PORT_SUSPEND (R67): Command that suspends a whole tree or one hub port, deferred while enumeration runs. -/
  | portSuspend (p : Packet)
  /-- PORT_RESUME (R70): Command that resumes a suspended tree or hub port by driving K or clearing PORT_SUSPEND at the hub. -/
  | portResume (p : Packet)
  /-- PORT_POWER_CYCLE (R385): Command that clears a latch-off, holds both paths open for off_time and then returns the port to UNATTACHED. -/
  | portPowerCycle (p : Packet)
  /-- PORT_SET_POLICY (R54): Command that sets the enumeration policy, owner and timers of a port. -/
  | portSetPolicy (p : Packet)
  /-- TREE_LIST (R274): Command that returns tree records of a port in ascending address order. -/
  | treeList (p : Packet)
  /-- EP_LIST (R277): Command that lists allocated contexts of a port with their state and reason. -/
  | epList (p : Packet)
  /-- EP_BIND (R278): Command that binds a context to a queue with a class, interval and phase after the admission tests of R101 and R104. -/
  | epBind (p : Packet)
  /-- EP_UNBIND (R119): Command that unbinds a context and releases its load. -/
  | epUnbind (p : Packet)
  /-- EP_CONTROL (R279): Command that runs a control transfer as class C on a control context. -/
  | epControl (p : Packet)
  /-- EP_WRITE (R280): Command that sends data on an unbound bulk OUT context from inline data or a source queue. -/
  | epWrite (p : Packet)
  /-- EP_READ (R280): Command that reads data from an unbound bulk IN context into the event or a destination queue. -/
  | epRead (p : Packet)
  /-- EP_STATE (R82): Command that returns the 64-byte image of a context. -/
  | epState (p : Packet)
  /-- Q_CONFIG (R282): Command that configures a data queue, acting as a disable followed by an enable. -/
  | qConfig (p : Packet)
  /-- Q_STATUS (R281): Command that returns the status, counts, spill and reserve of a queue. -/
  | qStatus (p : Packet)
  /-- Q_FLUSH (R200): Command that discards every item of a queue in one MI cycle. -/
  | qFlush (p : Packet)
  /-- Q_REPLAY (R210): Command that delivers or discards the flagged items of a queue in HELD. -/
  | qReplay (p : Packet)
  /-- BUDGET_SET (R284): Configuration command that writes the Ledger settings whose valid bits are set. -/
  | budgetSet (p : Packet)
  /-- BUDGET_STATUS (R285): Command that returns the Ledger steps, pressures, powers and capacity. -/
  | budgetStatus (p : Packet)
  /-- PLACE_HINT (R129): Configuration command that sets or removes one placement affinity. -/
  | placeHint (p : Packet)
  /-- PLACE_PIN (R130): Configuration command that pins an endpoint group to an engine or removes the pin. -/
  | placePin (p : Packet)
  /-- PLACE_REPORT (R286): Command that reports engines, group placement or honoured affinities. -/
  | placeReport (p : Packet)
  /-- PD_SET_CAPS (R288): Command that sets the configured maximum, Rp current and tWAIT of a port. -/
  | pdSetCaps (p : Packet)
  /-- PD_STATUS (R287): Command that returns the contract state of a port or the service port. -/
  | pdStatus (p : Packet)
  /-- PD_DR_SWAP (R361): Command that sends DR_Swap on a port and completes with the swap outcome. -/
  | pdDrSwap (p : Packet)
  /-- PD_HARD_RESET (R358): Command that sends a Hard Reset on a port or joins one already running. -/
  | pdHardReset (p : Packet)
  /-- PD_DISCOVER (R367): Command that sends one Discover request as DFP and returns the response. -/
  | pdDiscover (p : Packet)
  /-- PD_ALTMODE (R368): Command that enters or exits the Timebase alternate mode. -/
  | pdAltmode (p : Packet)
  /-- CAN_CONFIG (R290): Command that sets the mode, owner and bit timing of a CAN channel. -/
  | canConfig (p : Packet)
  /-- CAN_OBJ_CONFIG (R419): Command that configures one message object of a channel. -/
  | canObjConfig (p : Packet)
  /-- CAN_FILTER_SET (R425): Command that writes filter elements of a channel. -/
  | canFilterSet (p : Packet)
  /-- CAN_SEND (R426): Command that writes a frame into a send object and requests its send. -/
  | canSend (p : Packet)
  /-- CAN_STATUS (R289): Command that returns the state and counters of a channel. -/
  | canStatus (p : Packet)
  /-- CAN_TIME_MASTER (R428): Command that starts or stops the channel as a potential time master. -/
  | canTimeMaster (p : Packet)
  /-- TRK_CONFIG (R302): Configuration command that sets a trunk's interface, flags, EtherType and credits and saves them in the Lichen island. -/
  | trkConfig (p : Packet)
  /-- TRK_STATUS (R291): Command that returns the link, neighbour and counters of a trunk. -/
  | trkStatus (p : Packet)
  /-- TRK_ROUTE (R317): Configuration command that adds, removes or clears static routes. -/
  | trkRoute (p : Packet)
  /-- TRK_DISCOVER (R291): Command that reports the devices and topology of the trunk network. -/
  | trkDiscover (p : Packet)
  /-- TIME_SET (R293): Configuration command that sets or offsets TIME as a step and sets the step threshold. -/
  | timeSet (p : Packet)
  /-- TIME_GET (R292): Command that returns TIME, the grid count and the lock flags. -/
  | timeGet (p : Packet)
  /-- TIME_STATUS (R292): Command that returns the PPS state, errors, slew and grid offset. -/
  | timeStatus (p : Packet)
  /-- FLT_READ (R294): Command that returns fault source records. -/
  | fltRead (p : Packet)
  /-- FLT_ACK (R481): Command that acknowledges a fault source and may return its isolated unit to service. -/
  | fltAck (p : Packet)
  /-- FLT_FORCE (R484): Configuration command that pulses, holds or releases an injected fault. -/
  | fltForce (p : Packet)
  /-- ASH_READ (R294): Command that returns bytes of the Ash log. -/
  | ashRead (p : Packet)
  /-- TEST_RUN (R168): Configuration command that requests evacuation and test of an engine or SRAM bank. -/
  | testRun (p : Packet)
  /-- CAL_RUN (R171): Configuration command that calibrates CC thresholds and current-sense offsets of named ports. -/
  | calRun (p : Packet)
  /-- TEST_STATUS (R295): Command that returns the test state and last pass of units. -/
  | testStatus (p : Packet)
  /-- FW_STAGE (R496): Configuration command that erases, writes or verifies an image slot. -/
  | fwStage (p : Packet)
  /-- FW_ACTIVATE (R506): Configuration command that activates a slot by warm restart and engine update, or by cold start. -/
  | fwActivate (p : Packet)
  /-- FW_STATUS (R296): Command that returns the update state and slot statuses. -/
  | fwStatus (p : Packet)
  /-- SEC_LIFECYCLE (R298): Configuration command that advances the life cycle and zeroises the key store. -/
  | secLifecycle (p : Packet)
  /-- SEC_KEY (R510): Configuration command that loads, erases or queries a key store slot. -/
  | secKey (p : Packet)
  /-- SEC_PROVISION (R299): Command that writes one OTP provisioning field once. -/
  | secProvision (p : Packet)
  -- Register and queue fast-path accesses.
  /-- QUE_POP_HDR0_READ (R186): Owner read that removes the head item, makes it the claimed item, or returns the empty or retry header. -/
  | quePopHdr0Read (h : HostId) (q : Nat) (b : ReadBurst)
  /-- QUE_POP_DATA_READ (R186): Read that returns the next payload word of the claimed item. -/
  | quePopDataRead (h : HostId) (q : Nat) (b : ReadBurst)
  /-- QUE_PUSH_HDR_WRITE (R188): Write that starts a host push, or sets push_refused when the queue is full or the header is invalid. -/
  | quePushHdrWrite (h : HostId) (q : Nat) (v : Word)
  /-- QUE_PUSH_DATA_WRITE (R188): Write of the next payload word of a push; the last one commits the item. -/
  | quePushDataWrite (h : HostId) (q : Nat) (vs : List Word)
  /-- HOSTX_DOORBELL_WRITE (R238): Write that sets ring producer indices and makes Mboter read and enter the new command packets. -/
  | hostxDoorbellWrite (port blk : HostId) (v : Word)
  /-- HOSTX_HEARTBEAT_WRITE (R227): Write of beat that counts as activity for a locally bound host. -/
  | hostxHeartbeatWrite (port blk : HostId) (v : Word)
  /-- HOSTX_CTRL_WRITE (R237): Write of port_enable that starts or stops reading of the host's rings. -/
  | hostxCtrlWrite (port blk : HostId) (v : Word)
  /-- SEM_TAKEN_READ (R257): Read of SEM_TAKEn by a locally bound host that acquires the semaphore if it is free. -/
  | semTakenRead (port blk : HostId) (n : Nat) (ready tie : Bool)
  /-- SEM_TAKEN_WRITE (R258): Write of SEM_TAKEn that releases the semaphore if the writer holds it. -/
  | semTakenWrite (port blk : HostId) (n : Nat) (v : Word)
  /-- STATUS_SQC_WRITE (R520): Write to a STATUS register with a seq field that clears the SQC fields the written sequence covers. -/
  | statusSqcWrite (h : HostId) (addr : Nat) (v : Word)
  /-- FLT_FORCEK_WRITE (R531): Write that holds or releases the force bits of fault sources. -/
  | fltForcekWrite (h : HostId) (k : Nat) (v : Word)
  /-- FLT_PULSE_WRITE (R484): Write that pulses one injected occurrence of a source. -/
  | fltPulseWrite (h : HostId) (v : Word)
  /-- FLT_ACKW_WRITE (R531): Write that acknowledges a source as FLT_ACK does, with optional return. -/
  | fltAckwWrite (h : HostId) (v : Word)
  /-- STOK_CTRL_REPLAN (R535): Write of replan that requests a re-plan at priority 7. -/
  | stokCtrlReplan (h : HostId) (v : Word)
  /-- MEMC_CTRL_SCRUB_NOW (R536): Write of scrub_now that starts a Peat store scrub pass. -/
  | memcCtrlScrubNow (h : HostId) (v : Word)
  /-- CAN_CTRL_ABORT_ALL (R542): Write of abort_all that requests abort on every send object of a channel. -/
  | canCtrlAbortAll (h : HostId) (ch : Nat) (v : Word)
  /-- CAN_SEND_REQUEST_WRITE (R426): Owner write of send_request that starts the send of an object. -/
  | canSendRequestWrite (h : HostId) (ch obj : Nat)
  /-- CAN_ABORT_REQUEST_WRITE (R426): Owner write of abort_request that ends a pending send before its next start of frame. -/
  | canAbortRequestWrite (h : HostId) (ch obj : Nat)
  /-- CAN_OBJECT_LOCK_READ (R420): Read of word 0 of a receive object that locks it to the reading host and starts tLOCK. -/
  | canObjectLockRead (h : HostId) (ch obj : Nat)
  /-- CAN_RELEASE_WORD_READ (R420): Read of the release word by the holding host that ends the lock and clears new_data and overrun. -/
  | canReleaseWordRead (h : HostId) (ch obj : Nat)
  /-- LICH_CONFIG_WRITE (R526): Write to a LICH CONFIG register that is queued for the Lichen island. -/
  | lichConfigWrite (h : HostId) (k : Nat) (v : Word)
  /-- LICH_WRITE_APPLIED (R526): A queued LICH write takes effect within two slow edges. -/
  | lichWriteApplied
  /-- MAILBOX_ACCESS (R553): Host access to the mailbox RAM, including unaligned rotation and same-cycle write merging. -/
  | mailboxAccess (c : MbxCycle)
  /-- XSPI_UNKNOWN_COMMAND (R234): An xSPI command byte other than READ or WRITE is ignored and raises HOST_DECODE. -/
  | xspiUnknownCommand (h : HostId) (cmd : Byte)
  /-- REGISTER_WRITE (R518): Write to a register without behaviour of its own, subject to class, lock, range and ownership rules. -/
  | registerWrite (h : HostId) (addr : Nat) (b : WriteBurst)
  -- Port bus events and timers.
  /-- CC_RD_SEEN (R42): A sink termination appears on CC of an unattached port and debounce starts. -/
  | ccRdSeen (p : Nat) (cc : CcSeen)
  /-- CC_RD_LOST (R42): Rd disappears before tCCDEBOUNCE and the port returns to UNATTACHED. -/
  | ccRdLost (p : Nat)
  /-- TCCDEBOUNCE_EXPIRES (R42): Rd stays stable for tCCDEBOUNCE, the orientation is recorded and the low path closes. -/
  | tccdebounceExpires (p : Nat)
  /-- TPDDEBOUNCE_EXPIRES (R42): A CC detach lasts tPDDEBOUNCE and the port opens both paths and frees its tree. -/
  | tpddebounceExpires (p : Nat)
  /-- POWER_GOOD (R381): Power-good of a ramping path asserts after tPG_FILTER and the bus or PD machine advances. -/
  | powerGood (p : Nat)
  /-- POWER_GOOD_LOST (R381): A condition of power-good fails for tPG_FILTER, power-good deasserts and the path stays on. -/
  | powerGoodLost (p vsns : Nat)
  /-- PULLUP_SEEN (R42): A D+ or D- pull-up appears and connect debounce starts. -/
  | pullupSeen (p : Nat)
  /-- PULLUP_LOST (R42): The pull-up is lost during debounce and tCONNECT restarts. -/
  | pullupLost (p : Nat)
  /-- TCONNECT_EXPIRES (R42): No pull-up appears within tCONNECT and the port enters POWER_ONLY. -/
  | tconnectExpires (p : Nat)
  /-- TATTDB_EXPIRES (R42): The pull-up is stable for tATTDB, speed is sampled and the reset starts at the root or a hub port. -/
  | tattdbExpires (p : Nat) (loc : At) (dplus : Bool)
  /-- CHIRP_K_DETECTED (R47): An instrument chirps K for at least 1.0 ms during root reset and the PLU answers with chirp KJ. -/
  | chirpKDetected (p us : Nat)
  /-- TRSTROOT_EXPIRES (R42): The root reset ends, SOF starts at the detected speed and the port enters ENUMERATING. -/
  | trstrootExpires (p : Nat)
  /-- TRSTRCY_EXPIRES (R50): Reset recovery elapses and the first enumeration request is issued. -/
  | trstrcyExpires (p : Nat) (loc : At) (hubSpeed : Nat)
  /-- TSETADDR_EXPIRES (R50): Recovery after SET_ADDRESS elapses and the device descriptor is read at the new address. -/
  | tsetaddrExpires (p : Nat) (loc : At)
  /-- TCTRL_EXPIRES (R51): An enumeration control transfer exceeds tCTRL and the attempt ends. -/
  | tctrlExpires (p : Nat) (loc : At)
  /-- TENUM_RETRY_EXPIRES (R51): The pause between enumeration attempts ends and the instrument is reset again. -/
  | tenumRetryExpires (p : Nat) (loc : At)
  /-- TADDR_QUIET_EXPIRES (R53): The quarantine of a freed address or context index ends. -/
  | taddrQuietExpires (p : Nat) (what : Quiet)
  /-- ROOT_BABBLE (R42): The root port babbles and the port is reset or, the second time within 10 s, put into ERROR. -/
  | rootBabble (p : Nat)
  /-- REMOTE_WAKE_K (R71): An instrument drives remote wake K on a suspended root port and the HK32 drives resume K. -/
  | remoteWakeK (p : Nat)
  /-- TRESUME_EXPIRES (R70): Resume K ends, SOF restarts at the next grid boundary and tRSMRCY starts. -/
  | tresumeExpires (p : Nat)
  /-- TRSMRCY_EXPIRES (R70): Resume recovery ends and periodic polling restarts. -/
  | trsmrcyExpires (p hub hport : Nat)
  /-- HUB_PORT_CONNECT_CHANGE (R61): A hub reports a connect change and the new instrument is debounced, reset and enumerated. -/
  | hubPortConnectChange (p hub hport : Nat)
  /-- HUB_PORT_DISCONNECT_CHANGE (R61): A hub reports a disconnect and the subtree below that port is freed. -/
  | hubPortDisconnectChange (p hub hport : Nat) (why : HubGone)
  -- Microframes, queues and the Stoker.
  /-- MICROFRAME_BOUNDARY (R85): A grid boundary: SOF on every port, committed sublists run, handoffs and grid slew applied. -/
  | microframeBoundary
  /-- SUBLIST_COMMIT (R29): A TE commits a group's sublist for the next microframe. -/
  | sublistCommit (te p g : Nat)
  /-- TRANSACTION_RESULT (R110): A transaction result and IN data reach the TE, which updates the context, retries, queues items and advances transfers and enumeration. -/
  | transactionResult (r : TxnRes)
  /-- QUEUE_REFILL_DONE (R181): A refill from the spill extents reaches the head after header plausibility checks. -/
  | queueRefillDone (q : Nat) (bad : List Nat)
  /-- STOKER_REPLAN (R126): The Stoker re-plans every tREPLAN or on a trigger, issuing migrations and retrying waiting admissions. -/
  | stokerReplan (why : Replan)
  /-- MIGRATION_READY (R139): A migration target has loaded all images and deltas and reports ready for a boundary. -/
  | migrationReady (p g : Nat)
  /-- MIGRATION_DRAIN_MARKER (R144): The source's drain marker arrives and the target releases its held pushes. -/
  | migrationDrainMarker (p g : Nat)
  /-- COLD_TAKEOVER_READY (R146): The target of a cold takeover reports ready and runs the group from the next boundary. -/
  | coldTakeoverReady (p g : Nat)
  /-- ENGINE_NO_ACK (R146): An engine fails to acknowledge two consecutive crossings and its groups are taken over cold. -/
  | engineNoAck (te : Nat)
  /-- LEDGER_RECOMPUTE (R148): Every 1 ms the Ledger recomputes D, H, the pressures and takes the steps of its orders. -/
  | ledgerRecompute (m : LedgerMeas)
  /-- LEDGER_MEASUREMENT_ELAPSED (R153): The 100 ms measurement after a step ends and the Ledger may take another step. -/
  | ledgerMeasurementElapsed
  /-- TRELAX_EXPIRES (R155): p_heat stays low for tRELAX and the last heat step or stretch stage is undone. -/
  | trelaxExpires
  /-- TSHED_EXPIRES (R160): Renegotiations end or tSHED expires and ports are powered off while p_feed is positive. -/
  | tshedExpires
  /-- FEED_LIMIT_SHED_TICK (R161): While a feed is at its current limit one port is shed per 1 ms. -/
  | feedLimitShedTick
  /-- TRESTORE_EXPIRES (R162): Feeds have been unchanged for tRESTORE with p_feed non-positive and restoring starts. -/
  | trestoreExpires
  /-- SHED_RESTORE_TICK (R162): Every 100 ms one shed or renegotiated port is restored in descending rank. -/
  | shedRestoreTick
  /-- EVACUATION_RETRY_TICK (R168): Every 1 s the conditions of a deferred evacuation are checked again. -/
  | evacuationRetryTick
  /-- EVACUATION_TIMEOUT (R168): The conditions have not held within 60 s and the request ends with TIMEOUT or the rotation skips the unit. -/
  | evacuationTimeout
  /-- ROTATION_TICK (R170): The background rotation schedules the test or calibration of the next unit within tTEST_ROT. -/
  | rotationTick (u : Option TUnit) (port : Nat)
  /-- TEST_COMPLETE (R169): A unit test ends and the unit returns to service or is isolated. -/
  | testComplete (r : TestEnd)
  /-- PAYLOAD_BANK_IDLE_OFF (R454): A payload bank without an extent for 100 ms is turned off. -/
  | payloadBankIdleOff (b : Nat)
  /-- ACTIVE_SET_SHRINK (R546): Words in use fit half of k-1 banks for 1 s and the active set shrinks by one bank. -/
  | activeSetShrink
  /-- PEAT_SCRUB (R205): The background scrub reads protected Peat store blocks and corrects or reports errors. -/
  | peatScrub (f : PeatFound)
  /-- CTRL_SRAM_SCRUB (R550): The background scrub reads control SRAM and queues banks with a failing column. -/
  | ctrlSramScrub (f : CtrlFound)
  -- Hosts and the service function.
  /-- THOSTWD_EXPIRES (R231): A bound host is silent for tHOSTWD and loses its binding. -/
  | thostwdExpires (h : HostId)
  /-- TSEMLOSS_EXPIRES (R261): tSEMLOSS after a binding loss expires and the host's semaphores are released. -/
  | tsemlossExpires (h : HostId)
  /-- SVC_COMMAND_SETUP (R245): The setup stage of a vendor COMMAND request arrives and is stalled if its wLength is out of range. -/
  | svcCommandSetup (inst wLength : Nat)
  /-- SVC_COMMAND_STATUS_STAGE (R245): The status stage of COMMAND is ACKed when the packet enters the command queue, or NAKed while it is full. -/
  | svcCommandStatusStage (inst : Nat) (bytes : List Byte)
  /-- SVC_STANDARD_REQUEST (R244): A USB chapter 9 request to the service function is answered. -/
  | svcStandardRequest (inst : Nat) (setup : List Byte)
  /-- SVC_BUS_RESET (R246): A bus reset of a service function instance discards uncommitted commands and restarts partly sent items. -/
  | svcBusReset (inst : Nat)
  /-- SVC_BULK_OUT_RECORD (R248): A bulk OUT record is taken as a push to an OUT data queue of the bound host. -/
  | svcBulkOutRecord (inst : Nat) (record : List Byte)
  /-- SVC_BULK_IN_ACK (R247): The last packet of an item is ACKed on bulk IN and the item leaves its queue. -/
  | svcBulkInAck (inst : Nat)
  /-- SVC_INTERRUPT_IN_POLL (R249): The interrupt IN endpoint returns a changed pending report or NAKs. -/
  | svcInterruptInPoll (inst : Nat)
  /-- SVC_SUSPEND (R250): The upstream host suspends a service function instance. -/
  | svcSuspend (inst : Nat)
  -- Trunks.
  /-- TRUNK_PHY_LINK_UP (R314): The PHY reports link and the neighbour state enters PROBING. -/
  | trunkPhyLinkUp (n : Nat)
  /-- TRUNK_PHY_LINK_DOWN (R314): The PHY reports no link and the neighbour state enters DOWN. -/
  | trunkPhyLinkDown (d : LinkDown)
  /-- TPHYRST_EXPIRES (R301): tPHYRST after reset release ends and the first MDIO access is made. -/
  | tphyrstExpires (n : Nat) (answers : Bool)
  /-- TRUNK_PHY_LINK_TIMEOUT (R301): The PHY reports no link within 5 s of reset and TRK_PHY is raised. -/
  | trunkPhyLinkTimeout (n : Nat)
  /-- TKEEPALIVE_TICK (R313): Every tKEEPALIVE a KEEPALIVE is sent on each active trunk. -/
  | tkeepaliveTick
  /-- KEEPALIVE_RECEIVED (R314): A valid KEEPALIVE arrives, returning credits and advancing the neighbour state. -/
  | keepaliveReceived (n : Nat) (ka : KeepAlive)
  /-- KEEPALIVE_TIMEOUT (R314): No valid keepalive for 4 × tKEEPALIVE and the neighbour is LOST. -/
  | keepaliveTimeout (n : Nat)
  /-- TLINK_HOLD_EXPIRES (R314): The least time in LOST ends and keepalives may re-establish the link. -/
  | tlinkHoldExpires (n : Nat)
  /-- TSETTLE_EXPIRES (R319): The lower-ID end waited tSETTLE without record change and unblocks its link. -/
  | tsettleExpires (n : Nat)
  /-- TOPOLOGY_RECEIVED (R316): A TOPOLOGY record arrives, is forwarded if newer and the routes are recomputed. -/
  | topologyReceived (n : Nat) (f : TopoFrame)
  /-- TTOPO_REFRESH_TICK (R316): Every tTOPO_REFRESH the device floods its own TOPOLOGY record. -/
  | ttopoRefreshTick
  /-- TTOPO_AGE_EXPIRES (R316): A record not refreshed for tTOPO_AGE is removed. -/
  | ttopoAgeExpires (id : Half)
  /-- COMMAND_FRAME_RECEIVED (R240): A COMMAND frame arrives and is executed, forwarded or held for queue space. -/
  | commandFrameReceived (n : Nat) (f : FrameHdr) (bytes : List Byte)
  /-- REPLY_FRAME_RECEIVED (R242): A REPLY frame arrives and enters the sender's reply queue or is forwarded. -/
  | replyFrameReceived (n : Nat) (f : FrameHdr) (bytes : List Byte)
  /-- EVENT_FRAME_RECEIVED (R330): An EVENT frame is admitted in sequence into the host's event queue or forwarded. -/
  | eventFrameReceived (n : Nat) (f : FrameHdr) (item : Item)
  /-- DELIVERY_FRAME_RECEIVED (R329): A DELIVERY item is admitted in sequence into its IN queue or forwarded. -/
  | deliveryFrameReceived (n : Nat) (f : FrameHdr) (item : Item)
  /-- CREDIT_RECORD_RECEIVED (R329): A queue credit record arrives and admitted items leave the origin queue. -/
  | creditRecordReceived (n : Nat) (f : FrameHdr) (admitted : Half) (window : Nat) (reset : Bool)
  /-- TIME_FRAME_RECEIVED (R333): A TIME frame arrives from a neighbour and is compared without changing TIME. -/
  | timeFrameReceived (n : Nat) (src : Half) (ns : DWord) (locked aligned : Bool)
  /-- TE2E_RETRY_EXPIRES (R329): No credit progress for tE2E_RETRY and unadmitted items are sent again. -/
  | te2eRetryExpires (q : Nat)
  /-- TCREDIT_EXPIRES (R328): tCREDIT after an admission expires and a credit frame is sent. -/
  | tcreditExpires (q : Nat)
  /-- OLD_MAC_WINDOW_END (R305): 10 ms after an ID change frames to the old MAC address are no longer accepted. -/
  | oldMacWindowEnd
  -- Power contracts.
  /-- TCAPS_REPEAT_EXPIRES (R346): Source_Capabilities is sent again, or after nCAPS sends the port stops offering. -/
  | tcapsRepeatExpires (p : Nat)
  /-- GOODCRC_RECEIVED (R346): A GoodCRC to Source_Capabilities or Accept arrives and the matching timer starts. -/
  | goodcrcReceived (p : Nat) (msg : PdSent)
  /-- TSENDER_EXPIRES (R346): No Request within tSENDER and the HK32 sends a Hard Reset. -/
  | tsenderExpires (p : Nat)
  /-- REQUEST_RECEIVED (R349): A Request is judged and answered with Accept, Wait or Reject. -/
  | requestReceived (p : Nat) (rdo : Word)
  /-- TSRC_TRANS_EXPIRES (R354): tSRC_TRANS after the Accept ends and the voltage transition starts or PS_RDY is sent. -/
  | tsrcTransExpires (p : Nat)
  /-- GAP_DELAY_EXPIRES (R383): 20 µs after the low gate is off the high-path ramp starts. -/
  | gapDelayExpires (p : Nat)
  /-- VSNS_STEPDOWN_REACHED (R383): VSNS falls to 5.25 V in STEPDOWN and the low path ramps. -/
  | vsnsStepdownReached (p : Nat)
  /-- TSTEPDOWN_EXPIRES (R355): VBUS does not fall to 5.25 V within tSTEPDOWN and a Hard Reset follows. -/
  | tstepdownExpires (p : Nat)
  /-- CC_NO_RD_IN_TRANSITION (R357): Rd is absent for 1 ms during a transition and both paths open at once. -/
  | ccNoRdInTransition (p : Nat)
  /-- SOFT_RESET_RECEIVED (R340): A Soft_Reset is accepted and a new offer or Request follows. -/
  | softResetReceived (p : Nat)
  /-- HARD_RESET_RECEIVED (R358): A Hard Reset from the partner starts or joins the Hard Reset sequence. -/
  | hardResetReceived (p : Nat)
  /-- TPS_HARDRESET_EXPIRES (R358): tPS_HARDRESET ends, both paths open and the data role returns to DFP. -/
  | tpsHardresetExpires (p : Nat)
  /-- VSNS_SAFE0V_REACHED (R358): VSNS falls to 0.8 V and tSRC_RECOVER starts or the swap proceeds. -/
  | vsnsSafe0vReached (p : Nat)
  /-- TSAFE0V_EXPIRES (R359): VBUS has not reached 0.8 V within tSAFE0V, BLEED_SLOW is raised and the FET check armed. -/
  | tsafe0vExpires (p : Nat)
  /-- TSRC_RECOVER_EXPIRES (R358): Recovery at vSafe0V ends and the low path closes again. -/
  | tsrcRecoverExpires (p : Nat)
  /-- GET_SOURCE_CAP_RECEIVED (R340): Get_Source_Cap is answered by resending Source_Capabilities. -/
  | getSourceCapReceived (p : Nat)
  /-- GET_SINK_CAP_RECEIVED (R340): Get_Sink_Cap is answered with Sink_Capabilities or Not_Supported. -/
  | getSinkCapReceived (p : Nat)
  /-- DR_SWAP_RECEIVED (R361): A partner DR_Swap is answered with Accept, Wait or Reject, starting or ending a swap. -/
  | drSwapReceived (p : Nat)
  /-- PR_SWAP_RECEIVED (R340): A PR_Swap, FR_Swap or VCONN_Swap is rejected. -/
  | prSwapReceived (p : Nat) (kind : PdSwapKind)
  /-- PD_UNSUPPORTED_MESSAGE (R340): An unlisted or extended PD message is answered Not_Supported. -/
  | pdUnsupportedMessage (p : Nat)
  /-- PD_RESPONSE_RECEIVED (R288): Accept, Wait or Reject answers a request of the HK32 such as its DR_Swap. -/
  | pdResponseReceived (p : Nat) (ans : PdAnswer)
  /-- TWAIT_EXPIRES (R348): tWAIT after a Wait ends and the HK32 sends its request again. -/
  | twaitExpires (p : Nat)
  /-- SOURCE_CAPABILITIES_RECEIVED (R371): Partner Source_Capabilities on the service port or a swapped port is answered with a Request. -/
  | sourceCapabilitiesReceived (p : Nat) (pdo : Word)
  /-- PS_RDY_RECEIVED (R372): PS_RDY from the source completes the service port contract. -/
  | psRdyReceived (p : Nat)
  /-- SWAP_PARTNER_SOURCE_SEEN (R362): Partner Rp and VBUS are stable for tCCDEBOUNCE and the service function connects. -/
  | swapPartnerSourceSeen (p : Nat)
  /-- TSWAP_ATTACH_EXPIRES (R363): The partner does not source within tSWAP_ATTACH and the port returns to UNATTACHED. -/
  | tswapAttachExpires (p : Nat)
  /-- SWAPPED_VBUS_LOST (R364): In UFP_SWAPPED VSNS falls below 3.5 V or partner Rp is lost and the port returns to UNATTACHED. -/
  | swappedVbusLost (p : Nat)
  /-- SWAPPED_HR_RD_TIMEOUT (R364): No Rd appears within 2 s after a Hard Reset in UFP_SWAPPED and the port enters UNATTACHED. -/
  | swappedHrRdTimeout (p : Nat)
  /-- TSVC_DFP_EXPIRES (R365): The service port has been DFP for tSVC_DFP and the HK32 sends DR_Swap. -/
  | tsvcDfpExpires
  /-- VDM_REQUEST_RECEIVED (R366): A structured VDM request is answered with ACK or NAK. -/
  | vdmRequestReceived (p : Nat) (req : VdmReq)
  /-- VDM_RESPONSE_RECEIVED (R367): A response to PD_DISCOVER or PD_ALTMODE arrives and completes the command. -/
  | vdmResponseReceived (p : Nat) (ans : VdmAns) (vdos : List Word)
  /-- TVDM_EXPIRES (R367): No Discover or Exit Mode response within tVDM. -/
  | tvdmExpires (p : Nat)
  /-- TVDM_ENTER_EXPIRES (R368): No Enter Mode response within tVDM_ENTER. -/
  | tvdmEnterExpires (p : Nat)
  /-- EXIT_MODE_RECEIVED (R370): The partner sends Exit Mode and Timebase signalling stops. -/
  | exitModeReceived (p : Nat)
  /-- PRAIL15_LOW (R342): The 15 V rail is below 14.0 V for 1 ms and the 15 V PDO is withdrawn. -/
  | prail15Low
  /-- PRAIL15_RESTORED (R342): The 15 V rail stays good for 1 s and the 15 V PDO returns to the offers. -/
  | prail15Restored
  /-- SVC_VBUS_PRESENT (R372): SVC_VBUS crosses 4.0 V with no feed and the dead-battery start begins. -/
  | svcVbusPresent (rp : Nat)
  /-- SVC_CAPS_WAIT_EXPIRES (R372): No Source_Capabilities within 500 ms and the Rp level alone decides the start. -/
  | svcCapsWaitExpires
  /-- SVC_GATE_OVERLOAD (R373): SVC_GATE is at its limit for 10 ms and opens. -/
  | svcGateOverload
  /-- SVC_GATE_RECLOSE (R373): 2 s after an overload SVC_GATE closes again. -/
  | svcGateReclose
  -- Power path.
  /-- TFAULT_REACHED (R379): A port's time at limit reaches tFAULT and both paths open and latch. -/
  | tfaultReached (p : Nat)
  /-- TRAMP_PG_EXPIRES (R382): A ramping path has no power-good within tRAMP_PG and latches. -/
  | trampPgExpires (p vsns : Nat)
  /-- TFET_CHECK_EXPIRES (R387): Unexpected VBUS persists for tFET_CHECK and the port is isolated. -/
  | tfetCheckExpires (p : Nat) (vsns : FetSense)
  /-- PRAIL5_LOW (R390): The 5 V rail is below 4.50 V for 1 ms and low-path ports latch with cause rail. -/
  | prail5Low (mv : Nat)
  /-- PRAIL5_RESTORED (R390): The 5 V rail is good for 1 s and latches with cause rail clear. -/
  | prail5Restored (mv : Nat)
  /-- FEED_VOLTAGE_PRESENT (R392): Fn_VSNS is at least 9.0 V for 1 ms and the feed enters WAITING. -/
  | feedVoltagePresent (f : HostId) (mv : Nat)
  /-- FEED_VOLTAGE_LOST (R392): Fn_VSNS is below 8.5 V for 100 µs and the feed opens and enters ABSENT. -/
  | feedVoltageLost (f : HostId) (mv : Nat)
  /-- SEAT_DEBOUNCE_COMPLETE (R396): Both seating pins low for tSEAT: the board is seated and the insertion counter increments. -/
  | seatDebounceComplete
  /-- SEAT_PIN_HIGH (R396): A seating pin high for 20 µs is a removal that opens both feeds. -/
  | seatPinHigh (seat1 seat2 : Bool)
  /-- BULK_PRECHARGED (R392): BULK_SNS reaches 95 % of the feed and the main gate ramps. -/
  | bulkPrecharged (f : HostId)
  /-- FEED_GATE_ON (R392): The main gate reaches 9 V and the feed enters ON. -/
  | feedGateOn (f : HostId) (mv : Nat)
  /-- TPRECHARGE_EXPIRES (R392): Pre-charge does not complete within tPRECHARGE and the feed enters RETRY. -/
  | tprechargeExpires (f : HostId) (bulkMv : Nat)
  /-- FEED_LIMIT_REACHED (R392): Feed current reaches its limit and the feed enters LIMIT. -/
  | feedLimitReached (f : HostId) (ma : Nat)
  /-- FEED_LIMIT_LEFT (R392): Feed current below 90 % of the limit for 1 ms returns the feed to ON. -/
  | feedLimitLeft (f : HostId) (ma : Nat)
  /-- TFAULT_FEED_EXPIRES (R392): The feed stays at limit for tFAULT_FEED and opens into RETRY. -/
  | tfaultFeedExpires (f : HostId) (ma : Nat)
  /-- REVERSE_CURRENT_DETECTED (R392): Reverse feed current above 0.5 A for 10 µs opens the main path. -/
  | reverseCurrentDetected (f : HostId) (ma : Nat)
  /-- TRETRY_FEED_EXPIRES (R392): tRETRY_FEED ends and the feed returns to WAITING. -/
  | tretryFeedExpires (f : HostId)
  /-- LOGIC_DIE_RESET (R398): A logic-die reset asserts and the power die freezes the port switches and starts tHOLD. -/
  | logicDieReset (cause : ResetCause)
  /-- THOLD_EXPIRES (R400): tHOLD ends before the logic die takes control and the OTP safe state applies. -/
  | tholdExpires
  -- CAN.
  /-- CAN_INTEGRATION_COMPLETE (R408): 11 consecutive recessive bits bring the channel to ERROR_ACTIVE or into reception. -/
  | canIntegrationComplete (ch : Nat)
  /-- CAN_FRAME_RECEIVED (R422): A valid frame passes the filters, is stored in an object and pushed into its queue. -/
  | canFrameReceived (ch : Nat) (f : CanFrame)
  /-- CAN_REFERENCE_MESSAGE_RECEIVED (R429): A reference message of higher priority makes the channel a standby master. -/
  | canReferenceMessageReceived (ch : Nat) (ide : Bool) (id : BitVec 29)
  /-- CAN_ERROR_DETECTED (R430): A bus error updates the error counters and may change state, warning, fall-back or duplicate-ID status. -/
  | canErrorDetected (ch : Nat) (e : CanErr)
  /-- CAN_BUS_OFF_RECOVERY (R408): 128 occurrences of 11 recessive bits return the channel to ERROR_ACTIVE. -/
  | canBusOffRecovery (ch : Nat)
  /-- CAN_SEND_COMPLETE (R426): A send ends with its result, stamp and new_data. -/
  | canSendComplete (ch obj result : Nat) (ago : Nat) (tdcMeasured : Option Nat)
  /-- TLOCK_EXPIRES (R420): The lock of a receive object expires and a held frame is written into it. -/
  | tlockExpires (ch obj : Nat)
  /-- CAN_CYCLE_START (R428): A basic cycle starts and a reference message is queued. -/
  | canCycleStart (ch : Nat)
  -- Plant time.
  /-- PPS_EDGE (R441): A marking edge on PPS_IN is captured and, if valid, steps or slews TIME. -/
  | ppsEdge (capture : DWord)
  /-- TPPS_MISS_EXPIRES (R443): No valid edge for tPPS_MISS: LOCKED enters HOLDOVER, ACQUIRING enters FREE_RUNNING. -/
  | tppsMissExpires
  /-- THOLDOVER_TIMEOUT (R443): HOLDOVER lasts tHOLDOVER and the state becomes FREE_RUNNING. -/
  | tholdoverTimeout
  /-- TF_SAVE_TICK (R445): While LOCKED, f is saved in the Lichen island every tF_SAVE. -/
  | tfSaveTick
  /-- PLANT_SECOND_CROSSING (R449): TIME crosses a whole second: PPS_OUT, TIME frames, Timebase frame and Lichen copy reload. -/
  | plantSecondCrossing
  /-- REF_CLOCK_FAILURE (R439): XTAL_IN stops or deviates and the reference switches to CLKIN_ALT. -/
  | refClockFailure
  /-- XTAL32_FAILURE (R586): XTAL32 does not start or stops and the Lichen island runs from the fallback clock. -/
  | xtal32Failure
  -- Islands, power states and supplies.
  /-- ISLAND_ENTRY_ANSWER (R457): An island answers AGREE, DELAY or REFUSE during the entry handshake. -/
  | islandEntryAnswer (busy : Bool)
  /-- ENTRY_DELAY_EXPIRES (R457): The wait named by a DELAY ends and the island is asked again. -/
  | entryDelayExpires
  /-- TENTRY_EXPIRES (R457): The entry exceeds tENTRY and ends with TIMEOUT. -/
  | tentryExpires
  /-- WAKE_TRIGGER (R466): A wake trigger in DOZE or HIBERNATE starts the wake order, or is recorded if disabled. -/
  | wakeTrigger (code : Nat)
  /-- WAKE_AFTER_EXPIRES (R466): wake_after_s expires and the device wakes. -/
  | wakeAfterExpires
  /-- WAKE_STEP_READY (R465): A wake step reports ready and the next step runs. -/
  | wakeStepReady (lostPayload : List (Nat × Nat × Word)) (lostControl : List (Nat × CtrlContent))
  /-- WAKE_STEP_LIMIT_EXPIRES (R467): A wake step does not report ready within its limit and is handled by its failure row. -/
  | wakeStepLimitExpires (unit elapsedUs : Nat)
  /-- WAKE_RETRY_TICK (R467): With no reference ready the Lichen island retries the wake every 10 s. -/
  | wakeRetryTick
  /-- SUPPLY_RAIL_LOST (R472): A supply rail is missing or lost and its islands go off. -/
  | supplyRailLost (code : Nat)
  /-- SUPPLY_RAIL_STABLE (R472): A rail has been back in range for 10 ms and its islands are woken. -/
  | supplyRailStable (code : Nat)
  -- Faults and logs.
  /-- LOCKSTEP_MISMATCH (R33): The lockstep cores' outputs differ and LOCKSTEP is raised. -/
  | lockstepMismatch
  /-- MBOTER_WATCHDOG_EXPIRES (R474): Mboter does not service its watchdog for 50 ms. -/
  | mboterWatchdogExpires
  /-- SENSOR_DIVERGENCE (R474): A die sensor differs from the median by more than 15 °C for 100 ms and is left out of T_hot. -/
  | sensorDivergence (k : Nat)
  /-- DIE_LINK_CHECK_FAILURE (R474): A crossing between the dies fails its check twice and is repeated. -/
  | dieLinkCheckFailure
  /-- ASH_LOG_DRAIN (R489): At each slow edge the Lichen island writes one entry from the Ash log buffer. -/
  | ashLogDrain
  /-- CFG_PARITY_CHECK (R522): Every 1 ms the CONFIG registers are checked and locked registers repaired. -/
  | cfgParityCheck (upset : Option (Nat × Word))
  -- Start, update and security.
  /-- COLD_START (R497): Reset release: the ROM reads OTP, runs the wake steps, selects and checks a slot and starts Mboter or Kindling mode. -/
  | coldStart (env : StartEnv)
  /-- MBOTER_READY (R32): Mboter reports ready; deferred work resumes, ports recover or start and held events are delivered. -/
  | mboterReady (failed : List Nat)
  /-- MBOTER_START_TIMEOUT (R501): Mboter is not ready within 300 ms of start, the start fails and the logic die restarts. -/
  | mboterStartTimeout
  /-- WARM_RESTART_TIMEOUT (R505): A reloaded Mboter is not ready within 300 ms and the cores restart from the previous slot. -/
  | warmRestartTimeout
  /-- BOOT_COUNTER_CLEAR (R500): Mboter has been ready for 60 s without an L4 action; the counter clears and the slot is confirmed. -/
  | bootCounterClear
  /-- RESET_N_LONG_HOLD (R500): RESET_N stays low for 1 s and the boot counter clears. -/
  | resetNLongHold
  /-- FLASH_ERASE_COMPLETE (R496): A slot erase completes or exceeds 30 s. -/
  | flashEraseComplete (inTime : Bool)
  /-- FLASH_VERIFY_COMPLETE (R495): A slot verify ends with valid, bad signature or bad format. -/
  | flashVerifyComplete (r : VerifyEnd) (version ucode compat : Word)
  /-- OTP_WRITE_COMPLETE (R509): An OTP life-cycle or provisioning write completes. -/
  | otpWriteComplete
  /-- TAMPER_N_LOW (R511): TAMPER_N low for 1 µs zeroises the key store and raises TAMPER. -/
  | tamperNLow
  /-- ZEROISATION_READBACK (R511): The key store read-back passes or repeats the zeroisation. -/
  | zeroisationReadback (zero : Bool)
  -- Further events.
  /-- OFF_TIME_EXPIRES (R385): The off_time of PORT_POWER_CYCLE ends, the port enters UNATTACHED and the command completes. -/
  | offTimeExpires (p : Nat)
  /-- PWRON2PWRGOOD_WAIT_EXPIRES (R60): The wait of 2 × bPwrOn2PwrGood ms after setting PORT_POWER on a hub's ports ends and the status change context is created. -/
  | pwron2pwrgoodWaitExpires (p hub : Nat)
  /-- PORT_AT_LIMIT (R378): The port current reaches ilim, regulation holds the gate below full drive, at_limit sets and tFAULT starts counting. -/
  | portAtLimit (p : Nat)
  /-- PORT_LIMIT_LEFT (R379): The port current stays below 90 % of ilim for 1 ms and the fault timer resets. -/
  | portLimitLeft (p : Nat)
  /-- SERVICE_PORT_DETACH (R230): The service port is detached, its service function instance ends and a host bound to it loses its binding with cause 3. -/
  | servicePortDetach
  /-- SVC_RESUME (R250): The upstream host resumes a suspended service function instance, or the HK32's remote wake K completes, and the instance sends again. -/
  | svcResume (inst : Nat)
  /-- TAMPER_N_RELEASED (R511): TAMPER_N returns high, tamper_low clears and SEC_KEY is no longer LOCKED for that reason. -/
  | tamperNReleased
  /-- CAN_PROTOCOL_EXCEPTION (R407): In classic or listen-only classic mode the channel samples FDF recessive, takes the protocol exception and returns to integration. -/
  | canProtocolException (ch : Nat)
  /-- NEW_VOLTAGE_NOT_GOOD (R591): 275 ms after the Accept of a transition without a path change, power-good has not asserted and a Hard Reset with cause 3 is sent. -/
  | newVoltageNotGood (p : Nat)
  /-- EVENT_MERGE_INTERVAL_END (R122): The rate-limit interval of a merged event ends and the merged EP_SERVICE, CAN_OBJECTS, FRAME_ERRORS, TOPOLOGY_CHANGED, PPS_GLITCH or repeat FAULT_RAISED is posted. -/
  | eventMergeIntervalEnd (kind : MergeKind)
  /-- RECEIVED_FRAME_DISCARDED (R304): A trunk frame with wrong FCS, destination, EtherType, VLAN tag, version, undefined type or bad header CRC is discarded and counted. -/
  | receivedFrameDiscarded (n : Nat) (why : Discard)
  /-- EGRESS_FRAME_END (R324): A frame finishes on a trunk egress, credits are charged and the next waiting frame by class priority starts. -/
  | egressFrameEnd (n : Nat)
  /-- POWER_DIE_POWER_ON (R18): The first source appears and the power die starts from VDD_PD, with locks and register values at their power-on reset. -/
  | powerDiePowerOn
  /-- LOSS_OF_ALL_SOURCES (R488): VDD_PD and SVC_VBUS are both absent and the power die, Lichen island, Ash log, boot counter and stored records are lost. -/
  | lossOfAllSources
  /-- UNHANDLED_CORE_EXCEPTION (R501): The core raises an exception it cannot handle before Mboter reports ready and the start fails. -/
  | unhandledCoreException
  /-- EVACUATION_COPY_COMPLETE (R167): The copy of a payload or control bank's content to the other banks completes and the bank's test can start. -/
  | evacuationCopyComplete
  deriving DecidableEq, Repr

end Sys2Proof
end

