-- ==== Sys2Proof/Decode.lean ====
section
/-!
DEFINITION. The opcode table's words. No row of spec/opcode_table.json gives bits, so no word spells a command
(notes/assumptions/6.md).
-/
namespace Sys2Proof

def decodeTableWord (_nbits _w : Nat) : Option Instr := none

end Sys2Proof
end

