-- ==== Sys2Proof/Config.lean ====
section
/-!
DEFINITION. What the spec leaves free. Each is an opaque function of the counter `State.free`, so that nothing can be
proved of a value (notes/assumptions/3.md).
-/
namespace Sys2Proof.Config

/-- The data of a mailbox read that collides with a write: undefined in all 32 bits (R551). -/
opaque freeWord : Nat → BitVec 32
/-- Which free payload extent the queue manager takes (R545): the number of its first group of eight words. -/
opaque freeExtent : Nat → Nat
/-- Which engine's or instrument's Nat the spec does not give: a measured value that no operand carries. -/
opaque freeNat : Nat → Nat

end Sys2Proof.Config
end

