-- ==== Sys2Proof/Machine/State.lean ====
section
/-!
DEFINITION. The state of the HK32 as plain data, with State.reset. A field's default is its reset value: the spec's
where the spec gives one, else the value the named log entry gives (notes/assumptions/2.md). The record that a table
does not list is the record with every default (Machine/Ops.lean reads it so).
-/
namespace Sys2Proof.Machine

/-- Reasons the machine stops. No row of the table stops it: every address that no block holds reads 0 and raises
HOST_DECODE (R516), and an unpowered block ignores what reaches it. -/
inductive Fault where
  /-- Raised by no meaning. Safe. -/
  | unused
  deriving DecidableEq, Repr

/-- Reasons a command has no meaning. -/
inductive Refusal where
  /-- The arm of a command whose meaning is not written yet. Safe: nothing is claimed of it. -/
  | notModelled (mnemonic : String)
  deriving DecidableEq, Repr

/-! ### What leaves the device -/

/-- Something the block puts on a ball or a wire, or returns to a host read. The list of them is the model's own field:
it records what the spec says is sent, newest first (notes/assumptions/4.md). -/
inductive Out where
  /-- A host register or memory read returned this value (R234); `busy`: BUSY_N marked it without effect (R236). -/
  | readData (h : HostId) (addr : Nat) (v : Word) (busy : Bool)
  /-- BUSY_N of a port gave the conflict pulse (R551). -/
  | busyPulse (h : HostId)
  /-- BUSY_N marked a WRITE that found the port's write buffer full (R236). -/
  | busyWrite (h : HostId)
  /-- A reply packet on the bulk IN stream of an instance with no bound host, or in a REPLY frame (R228, R240). -/
  | reply (via : Via) (bytes : List Byte)
  /-- The bytes of a bulk IN record, and the end of a transfer, `zlp` with a zero-length packet (R247). -/
  | bulkIn (inst : Nat) (record : List Byte)
  | bulkInEnd (inst : Nat) (zlp : Bool)
  /-- The pending report of the interrupt IN endpoint (R249); `none` is a NAK. -/
  | pendingReport (inst : Nat) (report : Option (List Nat))
  /-- The handshake or data stage of a control request to the service function (R244, R245). -/
  | svcData (inst : Nat) (bytes : List Byte)
  | svcStall (inst : Nat)
  | svcNak (inst : Nat)
  | svcAck (inst : Nat)
  /-- Remote wake K driven by an instance (R250). -/
  | svcRemoteWake (inst : Nat)
  /-- The bytes of a trunk frame, from the destination MAC address to the FCS (R303). -/
  | frame (trunk : Nat) (bytes : List Byte)
  /-- Tn_PHYRST_N (R301). -/
  | phyReset (trunk : Nat) (low : Bool)
  /-- An MDIO access to a register of a PHY: a write of a value, or a read (R301). -/
  | mdio (trunk reg : Nat) (write : Option Half)
  /-- What a port presents on CC (R42). -/
  | cc (port : Nat) (present : Nat)
  /-- A port's root reset, K, SOF start and stop, chirp answer (R42, R47, R70). -/
  | busReset (port : Nat)
  | busK (port : Nat)
  | sofStart (port : Nat)
  | sofStop (port : Nat)
  | chirpKJ (port : Nat)
  /-- SOF with its frame number (R85 to R87). -/
  | sof (port : Nat) (frameNo : Nat)
  /-- The keep-alive EOP that a low-speed port sends in place of SOF (R48). -/
  | lsEop (port : Nat)
  /-- A control request to an instrument or a hub, as its 8 setup bytes (R50, R60, R67). -/
  | usbRequest (port addr : Nat) (setup : List Byte)
  /-- A transaction on the wire of a context: OUT data, or an IN token (R107). -/
  | usbOut (epid : Nat) (payload : List Byte)
  | usbIn (epid : Nat)
  | usbPing (epid : Nat)
  /-- A PD message of the HK32 on a port, 32 for the service port; a Source_Capabilities or Request carries its words. -/
  | pd (port : Nat) (msg : PdMsg) (words : List Word)
  /-- Hard Reset signalling (R358). -/
  | pdHardReset (port : Nat)
  /-- One Timebase frame on Pn_SBU for a whole second (R369): the widths in ms of the pulses of slots 0 to 42. -/
  | sbuFrame (port : Nat) (pulses : List Nat)
  /-- Pn_SBU goes high-impedance (R370). -/
  | sbuHighZ (port : Nat)
  /-- A CAN frame offered for arbitration (R426, R428). -/
  | canSend (ch obj : Nat) (ident : Word) (classic : Bool) (data : List Byte)
  | canReference (ch : Nat) (ident : Word) (cycle : Nat)
  /-- CANn_STB (R405). -/
  | canStb (ch : Nat) (high : Bool)
  /-- PPS_OUT rises or falls (R449). -/
  | ppsOut (high : Bool)
  /-- RAIL_EN (R462). -/
  | railEn (high : Bool)
  deriving DecidableEq, Repr

/-! ### The chip, OTP, the device as a whole -/

/-- What is fixed when the part is made and fitted: variant (R1), unique_id (R6), SDRAM fitted in MiB (R201), and the
fused column repairs as (memory r, column) (R557). -/
structure Part where
  variant : Variant := .hk32f
  uid     : DWord := 0
  peatMib : Nat := 4096
  fuses   : List (Nat × Nat) := []
  deriving DecidableEq, Repr

/-- An OTP write in progress: a provisioning field and value, or a life-cycle target (R509, R512). -/
inductive OtpWrite where
  | field (f : Nat) (v : Word)
  | lifeCycle (target : Nat)
  deriving DecidableEq, Repr

/-- OTP: the life cycle (R508) and the nine provisioning fields, `none` while unwritten (R299, R512). `live` holds the
fields as the last cold start read them, since a written field takes effect there. -/
structure Fields where
  usbVid        : Option Half := none
  usbPid        : Option Half := none
  timebaseSvid  : Option Half := none
  holdTime      : Option Nat := none
  safeState     : Option Nat := none
  bootThreshold : Option Nat := none
  essential     : Option Word := none
  disabled      : Option Word := none
  defaultId     : Option Half := none
  deriving DecidableEq, Repr

structure Otp where
  lifeCycle : Nat := 0
  fields    : Fields := {}
  live      : Fields := {}
  writing   : Option OtpWrite := none
  deriving DecidableEq, Repr

/-- The power states of R451. -/
inductive PowerState where
  | run
  | trim
  | doze
  | hibernate
  | service
  | kindling
  deriving DecidableEq, Repr

/-- Where the lockstep cores are (R497, R502, R505): the logic die unpowered or held in reset, the ROM before it has
chosen a slot, the ROM in Kindling mode, Mboter loaded and not ready, Mboter ready, a warm restart in progress, a wake
in progress. -/
inductive Phase where
  | off
  | reset
  | kindling
  | starting
  | ready
  | warm
  | waking
  deriving DecidableEq, Repr

/-- The device: its power state, the cores' phase, the ID in use (R311), whether it withdrew under R312, the old MAC's ID
while it is still accepted (R305), nanoseconds since the last cold start (R529) and since the power die started (for the
windows of R42, R127, R408, R432, R477), Mboter's version and the islands off (R529). -/
structure Dev where
  power      : PowerState := .run
  phase      : Phase := .reset
  id         : Half := 0
  withdrawn  : Bool := false
  oldMac     : Option Half := none
  upNs       : Nat := 0
  monoNs     : Nat := 0
  version    : Word := 0
  islandsOff : BitVec 21 := 0
  peatHeld   : Bool := false
  lastL4     : Option Nat := none
  resetLow   : Bool := false
  deriving DecidableEq, Repr

/-- A running warm restart (R505): the slot loaded, the slot that ran before, whether the fall-back has been taken, and
whether it belongs to FW_ACTIVATE mode 0 (R506). -/
structure Warm where
  slot     : Nat
  before   : Nat
  fellBack : Bool := false
  update   : Bool := false
  deriving DecidableEq, Repr

/-- An entry into DOZE or HIBERNATE in progress (R457): its target, wake settings, the command's host and tag, the index
in the asking order, the islands that agreed, the ports it suspended, the ports that the PD island powered off, and whether a
DELAY is being waited for. -/
structure Entry where
  target     : Nat
  wakeEnable : Nat
  wakeAfter  : Nat
  host       : HostId
  tag        : Half
  asked      : Nat := 0
  agreed     : List Nat := []
  suspended  : List Nat := []
  portsOff   : List Nat := []
  delayed    : Bool := false
  deriving DecidableEq, Repr

/-- A wake in progress (R465): the step 1 to 6, the state it left, its trigger code, whether CLKIN_ALT has been tried, and whether
every island but LI and PD went off since it began (R467). -/
structure Wake where
  step  : Nat
  left  : PowerState
  cause : Nat
  alt   : Bool := false
  cold  : Bool := false
  deriving DecidableEq, Repr

/-- The power manager (R455 to R467, R472). `retry`: no reference was ready, and the Lichen island retries (R467).
`missing`: bit code − 1 for a rail of Table — Rails and their islands; `rising`: rails that are back, whose islands wake from step 1,
and `railStep` the step of that wake, 0 with none (R472). -/
structure Power where
  entry      : Option Entry := none
  wake       : Option Wake := none
  wakeEnable : Nat := 0
  wakeAfter  : Nat := 0
  wakeCause  : Nat := 0
  dozeTrees  : List Nat := []
  missing    : BitVec 8 := 0
  rising     : BitVec 8 := 0
  railStep   : Nat := 0
  retry      : Bool := false
  deriving DecidableEq, Repr

/-! ### The Lichen island -/

/-- An Ash log entry (Table — Ash log entry). -/
structure AshEntry where
  time      : DWord
  source    : Half
  sub       : Nat
  level     : Nat
  injected  : Bool
  escalated : Bool
  kind      : Nat
  detail    : Word
  deriving DecidableEq, Repr

/-- The Ash log: the ring of 764 entries by index, its header counters (R488) and the buffer of 16 (R489). -/
structure Ash where
  writeOffset : Nat := 64
  wraps       : Word := 0
  lost        : Word := 0
  ring        : Tab AshEntry := []
  buffer      : List AshEntry := []
  deriving DecidableEq, Repr

/-- The saved or running settings of one trunk (TRK_CONFIG, R302, R323). -/
structure TrunkCfg where
  iface     : Nat := 1
  ring      : Bool := false
  accept    : Bool := true
  etherType : Half := 0x88B5
  credA     : Nat := 32
  credB     : Nat := 64
  credC     : Nat := 128
  deriving DecidableEq, Repr

/-- The records of Lichen retained SRAM (R555), the queue of writes to the LICH block (R526), and whether the Ash log's header
failed its check and the next START record is followed by one of cause 0xFF (R490). -/
structure Lichen where
  bootCount  : Nat := 0
  preferred  : Nat := 0
  onTrial    : Bool := false
  trialPrev  : Nat := 0
  kindling   : Nat := 0
  sleepSeq   : Half := 0
  insertions : Word := 0
  storedId   : Option Half := none
  timeCopy   : Option DWord := none
  fXtal      : Option Int := none
  fAlt       : Option Int := none
  trunks     : Tab TrunkCfg := []
  evtRec     : Option (Tab (BitVec 8)) := none
  scratch    : Tab Word := []
  repairs    : List (Nat × Nat) := []
  writeQ     : List (Nat × Word) := []
  slowFallback : Bool := false
  ashLost    : Bool := false
  ash        : Ash := {}
  deriving DecidableEq, Repr

/-! ### Hosts, commands and semaphores -/

/-- The completion record of a command (R223); `result` is kept for the last 64. -/
structure DoneRec where
  tag    : Half
  opcode : Half
  status : Half
  cseq   : Word
  result : Option (List Byte)
  deriving DecidableEq, Repr

/-- What the device keeps of one host: its binding (R226), watchdog and semaphore timer (R227, R231), ring indices
(R238), completion sequence and records (R220, R223), held events (R198), the count of R233's SEM_RELEASED and the
forwarded commands whose reply slot is reserved, by tag and destination (R242). -/
structure HostRec where
  bound       : Option Via := none
  lostCause   : Nat := 0
  wdMs        : Nat := 100
  semTimer    : Bool := false
  prodN       : BitVec 8 := 0
  prodU       : BitVec 8 := 0
  consN       : BitVec 8 := 0
  consU       : BitVec 8 := 0
  heldN       : Bool := false
  heldU       : Bool := false
  cseq        : Word := 0
  done        : List DoneRec := []
  heldEvents  : List Item := []
  lostEvents  : Nat := 0
  paused      : Bool := false
  forced      : Nat := 0
  fwd         : List (Half × Half) := []
  deriving DecidableEq, Repr

/-- A command packet that reached the device and that Mboter has not taken: in a ring slot already named by a doorbell,
in a trunk's receive buffer, or behind a status stage, while Mboter is not ready or has no room (R39, R197, R273, R332).
`urgent` chooses Q1 or Q3 (R238, R245);
`credit` is the class of the link credit that a COMMAND frame holds while it waits. -/
structure Arrival where
  opcode : Nat
  urgent : Bool
  pkt    : Packet
  credit : Option Nat := none
  deriving DecidableEq, Repr

/-- An accepted command that has not reached its final status (R223): `started` false while it waits in its queue
(R262). `bound`: its host was bound when it was accepted. `counts`: it has force and started during the present hold of
SEM0 (R233). `unit` is the key of what it changes (R269), `args` are the numbers its handler keeps. -/
structure Op where
  host     : HostId
  via      : Via
  tag      : Half
  opcode   : Half
  flags    : Half
  params   : List Byte
  bound    : Bool
  started  : Bool := false
  counts   : Bool := false
  unit     : Nat := 0
  args     : List Nat := []
  deriving DecidableEq, Repr

/-- One semaphore: its owner (0 free, 1 A, 2 B) and the host that lost the last tie (R260). -/
structure Sem where
  owner : Nat := 0
  loser : HostId := .a
  deriving DecidableEq, Repr

/-! ### Ports -/

/-- Table — Port bus states, in table order. -/
inductive Bus where
  | disabled
  | unattached
  | attachWait
  | powering
  | connectWait
  | powerOnly
  | connectDebounce
  | resetting
  | enumerating
  | running
  | suspended
  | resuming
  | recovering
  | error
  | latchedOff
  | ufpSwapped
  deriving DecidableEq, Repr

/-- Enumeration policy fields (Table — Enumeration policy fields), the timers in ms. -/
structure Policy where
  mode       : Nat := 0
  classes    : List Nat := [0, 0, 0, 0]
  hsEnable   : Bool := true
  remoteWake : Bool := true
  tConnect   : Nat := 2000
  tCtrl      : Nat := 500
  tRetry     : Nat := 100
  deriving DecidableEq, Repr

/-- An instrument of a tree: the fields of its tree record (R65), the configuration descriptors it gave (R50), the
current alternate setting of each interface (R58), its hub data (R60), and whether its ATTACH was posted (R66). -/
structure Inst where
  addr       : Nat
  parent     : Nat
  parentPort : Nat
  depth      : Nat
  speed      : Nat
  hub        : Bool
  multiTT    : Bool := false
  rwCapable  : Bool := false
  selfPow    : Bool := false
  resumed    : Bool := false
  held       : Bool := false
  ttAddr     : Nat := 0
  ttPort     : Nat := 0
  vid        : Half := 0
  pid        : Half := 0
  bcd        : Half := 0
  cls        : Nat := 0
  cfg        : Nat := 0
  ifCount    : Nat := 0
  ctxCount   : Nat := 0
  firstIdx   : Nat := 0
  maxPower   : Nat := 0
  firstClass : Nat := 0
  serial     : Word := 0
  attachSeq  : Word := 0
  posted     : Bool := false
  configs    : List (List Byte) := []
  alts       : List (Nat × Nat) := []
  mps0       : Nat := 8
  hubPorts   : Nat := 0
  pwrGood    : Nat := 0
  deriving DecidableEq, Repr

/-- Where an enumeration attempt stands between its timers (R50). -/
inductive JobPhase where
  | debounce
  | reset
  | recovery
  | request
  | setAddrWait
  | retryWait
  | queued
  deriving DecidableEq, Repr

/-- An enumeration in progress (R50, R51): where, its speed, depth and translator, the step of Table — Enumeration
sequence and the request within it, the attempts that ended, the address taken, what has been read, and whether the
instrument is reset at once, without a debounce (R78 step 7). -/
structure Job where
  loc     : At
  speed   : Nat
  depth   : Nat
  ttAddr  : Nat := 0
  ttPort  : Nat := 0
  phase   : JobPhase := .debounce
  step    : Nat := 1
  sub     : Nat := 0
  fails   : Nat := 0
  addr    : Nat := 0
  dev     : List Byte := []
  configs : List (List Byte) := []
  langId  : Nat := 0
  serial  : Word := 0
  chosen  : Option Nat := none
  direct  : Bool := false
  deriving DecidableEq, Repr

/-- A resume in progress (R70 to R73): where, who asked, whether K has ended (at a hub port: the hub has reported the end),
and whether it is the recovery of R78. -/
structure Resume where
  loc      : At
  byHost   : Bool
  byInst   : Bool
  kDone    : Bool := false
  recovery : Bool := false
  deriving DecidableEq, Repr

/-- The scan for the waking instrument after tRSMRCY (R72): the resume, the hub ports and instruments that have not answered,
the hub ports that report a change, and the instruments that answered as the one that woke. -/
structure Scan where
  w       : Resume
  hubs    : List (Nat × Nat) := []
  insts   : List Nat := []
  changed : List (Nat × Nat) := []
  waking  : List Nat := []
  deriving DecidableEq, Repr

/-- Table — Port switch states. -/
inductive Sw where
  | off
  | loRamp
  | loOn
  | hiRamp
  | hiOn
  | gap
  | stepdown
  | latched
  | isolated
  deriving DecidableEq, Repr

/-- Table — PD states. -/
inductive Pd where
  | noContract
  | negotiating
  | contract
  | transition
  | hardReset
  | swapped
  deriving DecidableEq, Repr

/-- Where a transition (Accept sent, tSRC_TRANS running, voltage moving), a Hard Reset or a swap stands (R354, R358, R362,
R364). `gone` is a detach in a transition until tPDDEBOUNCE, `goneSafe0` its wait in UNATTACHED for vSafe0V (R357). -/
inductive PdSub where
  | none
  | accepted
  | timing
  | moving
  | hrWaitOpen
  | hrWaitSafe0
  | hrRecover
  | hrClosing
  | swapWaitSafe0
  | swapWaitSource
  | swapWaitCaps
  | swapDone
  | backWaitSafe0
  | swHrWaitRd
  | swHrRecover
  | gone
  | goneSafe0
  deriving DecidableEq, Repr

/-- The capabilities of PD_SET_CAPS (R288): 5 V current code, 15 V PDO, Rp code, tWAIT in ms. -/
structure Caps where
  amp5  : Nat := 0
  en15  : Bool := false
  rp    : Nat := 0
  tWait : Nat := 100
  deriving DecidableEq, Repr

/-- A request of the HK32 that waits for the partner (R288, R367, R368). -/
inductive PdAsk where
  | swap
  | discover (req : Nat)
  | altSvids
  | altModes
  | enter
  | exit
  deriving DecidableEq, Repr

/-- The contract layer of a port, or of the service port (R346, R371). Voltages are codes: 0 none, 1 5 V, 2 15 V. `ams`: a message
sequence of the port itself runs, for the Rp level of R345. -/
structure PdRec where
  st        : Pd := .noContract
  caps      : Caps := {}
  sent5     : Option Nat := none
  sent15    : Bool := false
  volt      : Nat := 0
  opMa      : Nat := 0
  newVolt   : Nat := 0
  newMa     : Nat := 0
  tSender   : Bool := false
  wait      : Bool := false
  rejected  : Bool := false
  ufp       : Bool := false
  sends     : Nat := 0
  quiet     : Bool := false
  resets    : Nat := 0
  sub       : PdSub := .none
  ask       : Option PdAsk := none
  askSent   : Bool := false
  swapTries : Nat := 0
  alt       : Bool := false
  altObj    : Option Nat := none
  modesNew  : Bool := false
  offerDue  : Bool := false
  ams       : Bool := false
  deriving DecidableEq, Repr

/-- One downstream port: the bus machine (R42) with the speed its pull-up showed (R46) and a pull-up that shows while
the PLU is gated (R459), tree and enumeration, the switch
(R383), the contract layer (R346), its budget fields (R151, R160) and calibration (R538). -/
structure Port where
  bus       : Bus := .disabled
  rd        : Option CcSeen := none
  cc2       : Bool := false
  accessory : Bool := false
  speed     : Nat := 3
  found     : Nat := 1
  pullUp    : Bool := false
  chirped   : Bool := false
  policy    : Policy := {}
  owner     : Nat := 0
  tree      : List Inst := []
  jobs      : List Job := []
  attachSeq : Word := 0
  fails     : Nat := 0
  partials  : Nat := 0
  babbleAt  : Option Nat := none
  suspHub   : List (Nat × Nat) := []
  suspAsk   : List At := []
  resume    : Option Resume := none
  hubResumes : List Resume := []
  scans     : List Scan := []
  verify    : List Nat := []
  verified  : Nat := 0
  reEnum    : Nat := 0
  logicRst  : Bool := false
  quietAddr : List Nat := []
  quietIdx  : List Nat := []
  svcEps    : List Nat := []
  svcReason : Nat := 0
  svcOpen   : Bool := false
  sw        : Sw := .off
  pg        : Bool := false
  atLimit   : Bool := false
  held      : Bool := false
  lastFault : Nat := 0
  latchRail : Bool := false
  fetArmed  : Bool := true
  vbusMv    : Nat := 0
  currMa    : Nat := 0
  pd        : PdRec := {}
  weight    : Nat := 0
  prior     : Nat := 0
  shed      : Bool := false
  reneg     : Bool := false
  renegRun  : Bool := false
  rank      : Nat := 128
  ccTrim    : BitVec 8 := 0
  isnsTrim  : BitVec 8 := 0
  calAt     : Word := 0
  calTemp   : Option Int := none
  calBad    : Bool := false
  calibrating : Bool := false
  deriving DecidableEq, Repr

/-! ### Contexts and transfers -/

/-- A waiting EP_BIND (R119): queue, class, interval_exp, phase, and its host and tag. -/
structure WaitBind where
  queue : Nat
  cls   : Nat
  exp   : Nat
  phase : Nat
  host  : HostId
  tag   : Half
  deriving DecidableEq, Repr

/-- An endpoint context (R82). `retry`: the retries of R111 that are owed; `retryAt`: the microframe in which retries run. `slotAt`: the last slot that was
served or counted in skipped. `moving`: admitted, and not due before the handoff of R136. `splitAt`: the microframe of the last start-split (R114). `late`: its image missed the cache, and it is
prepared one microframe later (R84). `recovering` and `xerr` are the deferral causes of R121 and R111; the other causes are
conditions of the port, the queue and the Ledger (Machine/Contexts.lean). `seen` is the service
state and reason that EP_SERVICE has counted (R122). -/
structure Ctx where
  addr      : Nat
  ep        : Nat
  dirIn     : Bool
  type      : Nat
  speed     : Nat
  active    : Bool := true
  devOwned  : Bool := false
  maxPacket : Nat
  mult      : Nat := 0
  bInterval : Nat := 0
  derived   : Nat := 0
  iface     : Nat := 0
  alt       : Nat := 0
  ttAddr    : Nat := 0
  ttPort    : Nat := 0
  cls       : Nat := 3
  bound     : Bool := false
  halted    : Bool := false
  exp       : Nat := 0
  stretch   : Nat := 0
  queue     : Nat := 0
  refuse    : Nat := 0
  recovering : Bool := false
  short     : Bool := false
  xerr      : Bool := false
  wait      : Option WaitBind := none
  phase     : Nat := 0
  nextDue   : Word := 0
  toggle    : Bool := false
  ping      : Bool := false
  split     : Nat := 0
  splitAt   : Word := 0
  late      : Bool := false
  errCount  : Nat := 0
  retry     : Nat := 0
  retryAt   : Option Word := none
  slotAt    : Option Word := none
  moving    : Bool := false
  nakRun    : Nat := 0
  lastDone  : Word := 0
  served    : Word := 0
  skipped   : Word := 0
  errors    : Word := 0
  held      : Option Item := none
  seen      : Nat × Nat := (0, 0)
  deriving DecidableEq, Repr

/-- The kind of a class C transfer (R277). -/
inductive XferKind where
  | control
  | write
  | read
  deriving DecidableEq, Repr

/-- A class C transfer (R269, R279, R280): its context and command, setup packet, what is left and what has moved. -/
structure Xfer where
  handle  : Nat
  epid    : Nat
  kind    : XferKind
  host    : HostId
  tag     : Half
  setup   : List Byte
  out     : List Byte
  got     : List Byte
  left    : Nat
  moved   : Nat
  queue   : Nat
  stage   : Nat
  flag    : Bool
  nakMs   : Nat
  nakAt   : Option Nat
  gaps    : Nat
  errs    : Nat
  started : Bool
  sent    : Bool := false
  deriving DecidableEq, Repr

/-! ### Queues and memories -/

/-- The route states of R208. -/
inductive QState where
  | disabled
  | flow
  | flight
  | held
  | replay
  deriving DecidableEq, Repr

/-- A host push in progress (R188): its length and the data so far. -/
structure Push where
  len  : Nat
  data : List Byte
  deriving DecidableEq, Repr

/-- A queue pair's two ends (R327 to R331): as sender X, the last sequence known admitted, the items sent after it since X last
began to send again, the window, the class in use (R310), whether a credit record has come, and the items sent at any time and not
known admitted (`out`); as receiver O, the last admitted sequence, the items admitted since the last credit
record, the window granted then, and whether the next record carries the reset flag. -/
structure Pair where
  admitted : Half := 0
  sent     : Nat := 0
  window   : Nat := 0
  cls      : Nat := 2
  heard    : Bool := false
  out      : Nat := 0
  inAdm    : Half := 0
  since    : Nat := 0
  granted  : Nat := 0
  fresh    : Bool := true
  deriving DecidableEq, Repr

/-- One of the 64 queues (R172 to R190). `mid` is the middle; it lies in spill extents when `spillMib` is not 0: `extNo` is the
serial number of the current one and `extFill` how far it is written (R181). -/
structure Queue where
  st       : QState := .disabled
  isL      : Bool := false
  out      : Bool := false
  owner    : HostId := .a
  depth    : Nat := 1024
  spillMib : Nat := 0
  flight   : Nat := 0
  auto     : Bool := true
  srcDev   : Half := 0
  srcQ     : Nat := 0
  head     : List Item := []
  mid      : List Item := []
  tail     : List Item := []
  extNo    : Nat := 0
  extFill  : Nat := 0
  claimed  : Item := { typ := 0, flags := 0, source := 0, stamp := 0, payload := [], banks := [], via := none }
  readPos  : Nat := 0
  push     : Option Push := none
  full     : Bool := false
  drops    : Word := 0
  reserve  : Nat := 0
  rate     : Nat := 0
  rateAt   : Nat := 0
  replayed : Nat := 0
  pair     : Pair := {}
  deriving DecidableEq, Repr

/-- The state of an SRAM bank (R560): 0 in service, 1 off, 2 evacuating or testing, 3 isolated; `lost`: no extent until a
test passes (R469); its last test result and pass time (R295). -/
structure Bank where
  st     : Nat := 0
  lost   : Bool := false
  result : Nat := 0
  passAt : Word := 0
  ready  : Bool := true
  deriving DecidableEq, Repr

/-- Payload SRAM (R544 to R546): the banks, the size k of the active set, the bank an evacuation takes out of it, and the canary
words of each bank (R468). -/
structure Pool where
  banks : Tab Bank := []
  k     : Nat := 16
  skip  : Option Nat := none
  canary : Tab (List Word) := []
  deriving DecidableEq, Repr

/-- Control SRAM (R548 to R550). `saved`: the head and the tail of each queue as the MI island saved them before HIBERNATE (R458).
`columns`: the corrected errors of the last second, by 72 times the bank plus the column, with their time; `words`: the uncorrectable ones, by
bank. -/
structure Ctrl where
  banks   : Tab Bank := []
  corr    : Word := 0
  uncorr  : Word := 0
  addr    : Nat := 0
  rebuild : Bool := false
  saved   : Tab (List Item × List Item) := []
  columns : List (Nat × Nat) := []
  words   : List (Nat × Nat) := []
  deriving DecidableEq, Repr

/-- The mailbox array's conflict registers (R551, R560), and the ring words whose read by the control island is undefined. -/
structure Mbx where
  reader : HostId := .a
  pulsed : HostId := .a
  offset : Nat := 0
  count  : Word := 0
  torn   : List Nat := []
  deriving DecidableEq, Repr

/-- The SDRAM controller (R201, R206, R536). `st`: 0 absent, 1 initialising, 2 active, 3 self-refresh, 4 failed. -/
structure Peat where
  st        : Nat := 0
  mib       : Nat := 0
  held      : Bool := false
  eccAddr   : Word := 0
  corr      : Word := 0
  uncorr    : Word := 0
  scrubbing : Bool := false
  ashMirror : Ash := {}
  recBad    : Bool := false
  deriving DecidableEq, Repr

/-! ### The Stoker and the Ledger -/

/-- A transfer engine (R286, R540); `loadA` and `loadAll` are the peaks that TE_LOAD shows. -/
structure Engine where
  gated    : Bool := false
  clock    : Nat := 0
  isolated : Bool := false
  evac     : Bool := false
  testing  : Bool := false
  newCode  : Bool := false
  ucode    : Word := 0
  txns     : Word := 0
  missed   : Word := 0
  mw       : Word := 0
  loadA    : Nat := 0
  loadAll  : Nat := 0
  result   : Nat := 0
  passAt   : Word := 0
  deriving DecidableEq, Repr

/-- A migration (R139): group code, source and target, the boundaries since the order, whether the target is ready, and
whether it has been handed off and waits for the drain marker, with the pushes that the target holds (R144). `late`: the result
in hand is one that the source finishes. -/
structure Mig where
  group  : Nat
  src    : Nat
  dst    : Nat
  age    : Nat := 0
  ready  : Bool := false
  handed : Bool := false
  late   : Bool := false
  pushes : List (Nat × Item) := []
  deriving DecidableEq, Repr

/-- A cold takeover that is not ready (R146): the group and the engine that LIST_MISSED names (R475). -/
structure Cold where
  group : Nat
  src   : Nat
  deriving DecidableEq, Repr

/-- A migration order that waits (R126, R127): priority 1 to 7, group, target. -/
structure Order where
  prio  : Nat
  group : Nat
  dst   : Nat
  deriving DecidableEq, Repr

/-- A pin (R130) and an affinity (R129). -/
structure Pin where
  group : Nat
  eng   : Nat
  allow : Bool
  deriving DecidableEq, Repr
structure Aff where
  kind   : Nat
  weight : Nat
  opA    : Word
  opB    : Word
  deriving DecidableEq, Repr

/-- A sublist a TE committed for the next microframe (R28, R29): periodic then acyclic entries. -/
structure Sublist where
  group    : Nat
  te       : Nat
  periodic : List Nat
  acyclic  : List Nat
  deriving DecidableEq, Repr

/-- The Stoker's tables (R123 to R147). `cache`: the class B and C contexts in control SRAM (R84). `moved`: the engine that a
group left when step 1 consolidated (R128). `rotNext`: the unit that the rotation takes next (R170). -/
structure Stoker where
  place     : Tab Nat := []
  unplaced  : List Nat := []
  engines   : Tab Engine := []
  pins      : List Pin := []
  affs      : List Aff := []
  migs      : List Mig := []
  orders    : List Order := []
  migTimes  : List Nat := []
  colds     : List Cold := []
  lists     : List Sublist := []
  rr        : Tab Nat := []
  cache     : List Nat := []
  moved     : Tab Nat := []
  rotNext   : Nat := 0
  choice    : Option HostId := none
  /-- The model's own: what the loads of TE_LOAD were last computed from. -/
  shape     : List (List Nat) := []
  deriving DecidableEq, Repr

/-- The Ledger (R148 to R163). Settings carry the defaults of Table — Ledger settings; powers are in mW, tSHED in ms,
tRESTORE in s, tRELAX in 0.1 s, tTEST_ROT in h, theta_ja in 0.1 °C/W. -/
structure Ledger where
  feedA     : Nat := 250
  feedB     : Nat := 250
  shared    : Bool := false
  theta     : Nat := 65
  portW     : Nat := 240
  overheadW : Nat := 10
  tShed     : Nat := 500
  tRestore  : Nat := 5
  tRelax    : Nat := 20
  tRot      : Nat := 24
  heat      : Nat := 0
  feedStep  : Nat := 0
  stretchH  : Nat := 0
  stretchF  : Nat := 0
  dMw       : Int := 0
  hMw       : Int := 0
  tHot      : Int := 0
  tEncl     : Int := 0
  pHeat     : Int := 0
  pFeed     : Int := 0
  eTxnPj    : Nat := 0
  measuring : Bool := false
  tShedRun  : Bool := false
  feedLimit : Bool := false
  feedMoved : Bool := false
  restoring : Bool := false
  sensorsOut : List Nat := []
  temps     : List Int := []
  hotN      : Bool := false
  due       : List (List Byte) := []
  deriving DecidableEq, Repr

/-- Who asked for a unit test (R166). -/
inductive TestFor where
  | run (host : HostId) (tag : Half)
  | rotation
  | update (tag : Half)
  | column
  | ackReturn (source : Nat)
  deriving DecidableEq, Repr

/-- A test or evacuation (R166 to R169): its unit, who asked, its stage: 0 waiting for its conditions, 1 evacuating,
2 testing, and the spare that takes an engine's class A groups. -/
structure Test where
  unit  : TUnit
  who   : TestFor
  stage : Nat := 0
  spare : Option Nat := none
  deriving DecidableEq, Repr

/-- The running CAL_RUN or rotation calibration (R171), and those that wait for it in order: their ports and their command. -/
structure Cal where
  ports   : List Nat
  done    : Word := 0
  bad     : Word := 0
  who     : Option (HostId × Half) := none
  after   : List (List Nat × Option (HostId × Half)) := []
  deriving DecidableEq, Repr

/-! ### Faults -/

/-- One fault source (R474, R480): its level, unacknowledged mark, occurrences, active sub-codes, isolation, injection and
force bit, the uptime of its last occurrence, the repeat's rate limit (R485), and the sub-codes whose condition is real and not an
injection's (R484). -/
structure Flt where
  level    : Nat := 0
  unack    : Bool := false
  count    : Word := 0
  sub      : Nat := 0
  active   : List Nat := []
  isolated : Bool := false
  injected : Bool := false
  force    : Bool := false
  atS      : Word := 0
  limited  : Bool := false
  pendingRep : Bool := false
  detail   : Word := 0
  real     : List Nat := []
  deriving DecidableEq, Repr

/-- What reaches the fault collector: an occurrence with its source, sub-code, detail and injected mark, an occurrence
that is raised at L4 in place of its base level (R549), or the end of the active condition of a source's sub-code (R480,
R483). -/
inductive FltIn where
  | raise (source sub : Nat) (detail : Word) (injected : Bool)
  | raiseL4 (source sub : Nat)
  | clear (source sub : Nat)
  deriving DecidableEq, Repr

/-! ### CAN -/

/-- A message object (Table — Message object). `sofAt` is the stamp of the last attempt of the send in hand (R426); `hold` is the hold slot
of R421 with the frame's stamp and filter element; `after` is the outcome of a CAN_SEND that ended in a warm restart (R409). -/
structure CanObj where
  newData  : Bool := false
  overrun  : Bool := false
  lock     : Option HostId := none
  expired  : Bool := false
  dir      : Nat := 0
  single   : Bool := false
  busy     : Bool := false
  abort    : Bool := false
  retry    : Nat := 0
  attempts : Nat := 0
  errored  : Nat := 0
  queue    : Nat := 0
  ident    : Word := 0
  frame    : Word := 0
  stamp    : DWord := 0
  result   : Nat := 0
  filter   : Nat := 0
  data     : Tab Word := []
  hold     : Option (CanFrame × DWord × Nat) := none
  op       : Option (HostId × Half) := none
  sofAt    : Option DWord := none
  after    : Option (HostId × Half × Nat) := none
  deriving DecidableEq, Repr

/-- The time master role of a channel (R428, R429): identifier and extended flag are `ident`, the cycle in µs, whether it
is active, the cycles since a higher-priority reference message, and the cycle count of a reference message that is queued. -/
structure TimeMaster where
  ident  : Word
  prio   : Nat
  cycle  : Nat
  active : Bool := true
  quietCycles : Nat := 0
  due    : Option Nat := none
  deriving DecidableEq, Repr

/-- One CAN channel (R405 to R434, R542). `heard`: in LISTEN_ONLY, 11 recessive bits have passed (R408); `ssp`: the secondary sample
point in mtq (R414); `oldFilters`: the elements before each CAN_FILTER_SET since the last frame, with its moment (R425). -/
structure Can where
  st       : Nat := 0
  mode     : Nat := 0
  owner    : Nat := 0
  tdc      : Bool := false
  fallEn   : Bool := false
  stbOff   : Bool := false
  nPre     : Nat := 1
  nT1      : Nat := 63
  nT2      : Nat := 16
  nSjw     : Nat := 16
  dPre     : Nat := 2
  dT1      : Nat := 31
  dT2      : Nat := 8
  dSjw     : Nat := 8
  tdcOff   : Nat := 0
  fallCnt  : Nat := 8
  warnLim  : Nat := 96
  txc      : Nat := 0
  rxc      : Nat := 0
  fallen   : Bool := false
  alone    : Bool := false
  warning  : Bool := false
  tdcRun   : Bool := false
  measured : Nat := 0
  ssp      : Nat := 0
  heard    : Bool := false
  oldFilters : List (Nat × Tab (Word × Word)) := []
  dataErrs : Nat := 0
  ackErrs  : Nat := 0
  bitErrs  : List (Nat × Nat) := []
  dupSeen  : List (Word × Nat) := []
  dupId    : Word := 0
  offTimes : List Nat := []
  offHeld  : Bool := false
  rx       : Word := 0
  tx       : Word := 0
  errFr    : Word := 0
  master   : Option TimeMaster := none
  objs     : Tab CanObj := []
  filters  : Tab (Word × Word) := []
  evObjs   : List Nat := []
  evOpen   : Bool := false
  isolated : Bool := false
  deriving DecidableEq, Repr

/-! ### Time -/

/-- The states of Table — PPS states. -/
inductive Pps where
  | free
  | acquiring
  | locked
  | holdover
  deriving DecidableEq, Repr

/-- The time unit (R435 to R449) and the grid (R85 to R91). `acc` is the fractional accumulator in units of 10^-9 ns;
`gridHalf` is the grid offset in half ns, so that the 12.5 ns of R89 is exact. `second` is the whole second whose crossing has been
served, `lastPulse` the moment of the last PPS_OUT pulse and `high` the level of the ball, `stepLog` the steps of the last second with
the moments of the power die's count, and `noCopy` that TIME started at 0 for want of a copy (R448, R449). `sofLast` and `offLast` are
the SOF time and the off-grid mark of the microframe before, for its late results, one of which is being taken while `late` is set
(R36, R116, R139). -/
structure Time where
  now       : DWord := 0
  acc       : Int := 0
  r         : Int := 0
  f         : Int := 0
  pps       : Pps := .free
  good      : Nat := 0
  lastEdge  : Option DWord := none
  moved     : Int := 0
  threshold : Nat := 1000
  lastErr   : Int := 0
  capture   : DWord := 0
  steps     : Word := 0
  glitches  : Nat := 0
  glitchOpen : Bool := false
  alt       : Bool := false
  set       : Bool := false
  gridOn    : Bool := false
  g         : Word := 0
  m         : Nat := 0
  gridHalf  : Int := 0
  stepped   : Bool := false
  stepBy    : Int := 0
  sofLast   : DWord := 0
  offLast   : Bool := false
  late      : Bool := false
  lastPulse : Option Nat := none
  high      : Bool := false
  second    : Nat := 0
  noCopy    : Bool := false
  stepLog   : List (Nat × Int) := []
  holdSince : Option Nat := none
  deriving DecidableEq, Repr

/-! ### Feeds, seating, rails, the service port -/

/-- Table — Feed states. -/
inductive FeedState where
  | absent
  | waiting
  | precharge
  | on
  | limit
  | retry
  deriving DecidableEq, Repr

/-- One input feed (R392): state, whether tRETRY_FEED runs, whether the main gate ramps, its isolation, the voltage that its last
event carried, and whether that lies in range. -/
structure Feed where
  st       : FeedState := .absent
  mv       : Nat := 0
  retry    : Bool := false
  ramping  : Bool := false
  isolated : Bool := false
  present  : Bool := false
  deriving DecidableEq, Repr

/-- Seating (R396), box rails (R342, R390), feed sharing (R394), what is known of BULK_SNS in mV while no feed gives (R403), and the
ports whose PORT_HOLD_EXPIRED waits for the logic die, with the safe state (R400). -/
structure Board where
  seated  : Bool := false
  pin1    : Bool := false
  pin2    : Bool := false
  rail5   : Bool := true
  rail15  : Bool := true
  bulkMv  : Nat := 0
  share   : Bool := false
  tHold   : Bool := false
  expired : Bool := false
  holdDue : List (Nat × Nat) := []
  deriving DecidableEq, Repr

/-- The service port as a sink (R371 to R373): VBUS present, Rp code, contract current, SVC_GATE, its limit, an overload
pause, its PD record, and the current and capability mismatch bit of its last Request. -/
structure Svc where
  vbus    : Bool := false
  rp      : Nat := 0
  caps    : Bool := false
  ma      : Nat := 0
  gate    : Bool := false
  limitMa : Nat := 0
  pause   : Bool := false
  pd      : PdRec := { ufp := true }
  offerMa : Nat := 0
  mismatch : Bool := false
  waited   : Bool := false
  deriving DecidableEq, Repr

/-- One instance of the service function (R243 to R250). `sending` is the item on bulk IN, with its queue; queue 64 is the
buffer of replies. `rr` is where the round robin of data queues goes on. `sent` counts the bytes of the bulk IN transfer in
progress. -/
structure Instance where
  attached : Bool := false
  addr     : Nat := 0
  config   : Nat := 0
  suspended : Bool := false
  rwEnable : Bool := false
  first    : Bool := true
  setupLen : Option Nat := none
  sending  : Option (Nat × Item) := none
  rr       : Nat := 8
  report   : List Nat := [0, 0, 0, 0]
  replies  : List Item := []
  halts    : List Nat := []
  sent     : Nat := 0
  deriving DecidableEq, Repr

/-! ### Trunks -/

/-- Table — Neighbour states. -/
inductive Nb where
  | off
  | down
  | probing
  | blocked
  | up
  | lost
  deriving DecidableEq, Repr

/-- A frame that waits on a trunk's egress or is being sent (R324): class, credit units, 0 for a type that uses none, its Draxinto
header and payload, whether it goes to the broadcast address, and for a frame in transit the trunk whose receive buffer it occupies
until it has left (R323). `bad`: a frame forwarded cut-through whose FCS proved wrong (R307). -/
structure Egress where
  cls   : Nat
  units : Nat
  body  : List Byte
  bcast : Bool := false
  back  : Option Nat := none
  bad   : Bool := false
  deriving DecidableEq, Repr

/-- One trunk (R300, R313, R323, R541). `credits`: the receive units per class granted since the neighbour last entered BLOCKED
(R302). -/
structure Trunk where
  cfg       : TrunkCfg := {}
  st        : Nb := .off
  nbId      : Half := 0
  nbUid     : DWord := 0
  nbTrunk   : Nat := 0
  nbRing    : Bool := false
  nbBlocked : Bool := false
  nbAccepts : Bool := true
  run       : Nat := 0
  missed    : Nat := 0
  heard     : Bool := false
  holdOver  : Bool := false
  loop      : Bool := false
  kaSeq     : Half := 0
  grant     : List Nat := [0, 0, 0]
  nbFreed   : List Half := [0, 0, 0]
  freed     : List Half := [0, 0, 0]
  freedKa   : List Half := [0, 0, 0]
  credits   : List Nat := [32, 64, 128]
  tx        : Word := 0
  rx        : Word := 0
  hdrErrs   : Word := 0
  fcsErrs   : Word := 0
  discards  : Word := 0
  egress    : List Egress := []
  sending   : Option Egress := none
  errCount  : Nat := 0
  errWhat   : Nat := 0
  errOpen   : Bool := false
  phyBad    : Bool := false
  isolated  : Bool := false
  deriving DecidableEq, Repr

/-- The receiving end at this device of the event pair of a device X (R327): X's ID, the host, and the pair. -/
structure EvPair where
  dev  : Half
  host : HostId
  pair : Pair := {}
  deriving DecidableEq, Repr

/-- The network as this device knows it: its record sequence, the records it holds of the other devices (R316), static
routes (trunk, destination, class mask), the frame sequences of commands and of replies (R309), the receiving ends of event pairs,
TOPOLOGY_CHANGED's rate limit and the IDs of conflicts already raised (R312). -/
structure Net where
  seqn    : Half := 0
  recs    : List Topo := []
  routes  : List (Nat × Half × Nat) := []
  cmdSeq  : Half := 0
  replySeq : Half := 0
  evPairs : List EvPair := []
  tcOpen  : Bool := false
  tcWait  : Bool := false
  conflict : List Half := []
  deriving DecidableEq, Repr

/-! ### Firmware and security -/

/-- One image slot (R493 to R496): status 0 empty, 1 written, 2 valid, 3 invalid; version, microcode version and
ucode_compat of the last verify; the bytes programmed since the last erase, whether one was programmed twice (R496), whether the slot
was erased so that its content is known, and whether its image passed at a start and is unchanged since. -/
structure Slot where
  st      : Nat := 0
  version : Word := 0
  ucode   : Word := 0
  compat  : Word := 0
  bytes   : List Host.Cell := []
  spoilt  : Bool := false
  known   : Bool := false
  passed  : Bool := false
  deriving DecidableEq, Repr

/-- What FW_STAGE or FW_ACTIVATE is doing (R296). -/
inductive FwBusy where
  | idle
  | erasing (slot : Nat) (host : HostId) (tag : Half)
  | verifying (slot : Nat) (host : HostId) (tag : Half)
  | restarting (slot : Nat) (host : HostId) (tag : Half)
  | updating (host : HostId) (tag : Half)
  | mixed
  deriving DecidableEq, Repr

/-- Image slots, the running slot, the running microcode version, what is in progress, and a cold start that FW_ACTIVATE
mode 1 has ordered (R507). -/
structure Fw where
  slot0   : Slot := {}
  slot1   : Slot := {}
  running : Nat := 0
  ucode   : Word := 0
  busy    : FwBusy := .idle
  updated : Nat := 0
  coldDue : Bool := false
  deriving DecidableEq, Repr

/-- The key store and TAMPER_N (R510, R511, R554): keys by slot, 64 bytes each. -/
structure Sec where
  keys      : Tab (List Byte) := []
  zeroising : Bool := false
  tamperLow : Bool := false
  deriving DecidableEq, Repr

/-! ### Registers shared by every block -/

/-- The sequence of a STATUS register and its set SQC bits with the sequence that set each (R519). -/
structure Sqc where
  seqn : BitVec 8 := 0
  bits : List (Nat × BitVec 8) := []
  deriving DecidableEq, Repr

/-! ### The whole machine -/

/-- The state of the block. -/
structure State where
  /-- Commands that wait, first in, first out: the queue of the model of a block. -/
  pending  : List Instr := []
  /-- The model's own: how many free values have been used (notes/assumptions/3.md). -/
  free     : Nat := 0
  /-- The model's own: what the block sent, newest first. -/
  wire     : List Out := []
  part     : Part := {}
  otp      : Otp := {}
  dev      : Dev := {}
  power    : Power := {}
  warm     : Option Warm := none
  lich     : Lichen := {}
  hostA    : HostRec := {}
  hostB    : HostRec := {}
  arrivals : List Arrival := []
  ops      : List Op := []
  lastA    : Bool × Bool := (false, false)
  sems     : Tab Sem := []
  ports    : Tab Port := []
  ctxs     : Tab Ctx := []
  xfers    : List Xfer := []
  queues   : Tab Queue := []
  pool     : Pool := {}
  ctrl     : Ctrl := {}
  /-- Mailbox RAM (R237, R543): bytes by host address, 0x2_0000 to 0x2_DFFF. -/
  mail     : List Host.Cell := []
  mbx      : Mbx := {}
  peat     : Peat := {}
  stok     : Stoker := {}
  ledger   : Ledger := {}
  test     : Option Test := none
  testQ    : List Test := []
  cal      : Option Cal := none
  flts     : Tab Flt := []
  fltLast  : Word := 0
  /-- In-band fault events that wait for Mboter, with the hosts that EVT_CFG8 named (R485): 1 A, 2 B, 3 both. -/
  fltWait  : List (Nat × Item) := []
  /-- Occurrences and ends that reach the fault collector at the end of the command that makes them (R480). -/
  fltIn    : List FltIn := []
  cans     : Tab Can := []
  time     : Time := {}
  feedA    : Feed := {}
  feedB    : Feed := {}
  board    : Board := {}
  svc      : Svc := {}
  insts    : Tab Instance := []
  trunks   : Tab Trunk := []
  net      : Net := {}
  fw       : Fw := {}
  sec      : Sec := {}
  /-- CONFIG registers by host address; an unlisted one holds its reset value (R518). -/
  cfg      : Tab Word := []
  /-- The power die's copy of the CONFIG registers with a lock field (R523). -/
  cfgCopy  : Tab Word := []
  /-- CONFIG registers whose parity does not match (R522). -/
  cfgBad   : List Nat := []
  /-- Host writes to CONFIG registers of a gated island, held until it wakes (R26). -/
  cfgHeld  : List (HostId × Nat × Word) := []
  /-- STATUS registers of gated islands by host address, as they were captured (R26). -/
  regHeld  : Tab Word := []
  /-- STATUS registers' sequences by host address (R519). -/
  sqc      : Tab Sqc := []
  deriving DecidableEq, Repr

/-- The block right after power-on: the power die started, the logic die's reset released and the ROM not yet past its
first step, so that COLD_START is the next thing that happens. Every field is at its default (notes/assumptions/2.md). -/
def State.reset : State := {}

end Sys2Proof.Machine
end

