-- ==== Sys2Proof/Machine/Tab.lean ====
section
/-!
DEFINITION. Reading and writing the tables of State, byte order, and the CRC of packets and records.
-/
namespace Sys2Proof.Machine

/-- The record listed under `k`, if any. -/
def tfind {α : Type} (k : Nat) : Tab α → Option α
  | [] => none
  | (j, a) :: r => if j = k then some a else tfind k r

/-- The record listed under `k`, or the given reset record. -/
def tget {α : Type} (t : Tab α) (d : α) (k : Nat) : α := (tfind k t).getD d

/-- The table with `v` under `k`, keys rising. -/
def tset {α : Type} (t : Tab α) (k : Nat) (v : α) : Tab α :=
  match t with
  | [] => [(k, v)]
  | (j, a) :: r => if k < j then (k, v) :: (j, a) :: r else if k = j then (k, v) :: r else (j, a) :: tset r k v

/-- The table without `k`. -/
def tdel {α : Type} (t : Tab α) (k : Nat) : Tab α := t.filter (fun e => e.1 != k)

/-- The numbers below `n`, rising: the indices of the units of a kind. -/
def upTo (n : Nat) : List Nat := List.range n

/-! ### Bytes: little-endian (R14) -/

/-- The `n` low bytes of a number, least significant first. -/
def leBytes : Nat → Nat → List Byte
  | 0, _ => []
  | n + 1, v => BitVec.ofNat 8 v :: leBytes n (v / 256)

/-- One byte, two, four and eight bytes of a number. -/
def u8 (v : Nat) : List Byte := leBytes 1 v
def u16 (v : Nat) : List Byte := leBytes 2 v
def u32 (v : Nat) : List Byte := leBytes 4 v
def u64 (v : Nat) : List Byte := leBytes 8 v

/-- Two's complement of a signed value in `n` bytes. -/
def sBytes (n : Nat) (v : Int) : List Byte := leBytes n (v % (256 ^ n : Nat)).toNat

/-- The number that bytes spell, least significant first. -/
def leNat : List Byte → Nat
  | [] => 0
  | b :: r => b.toNat + 256 * leNat r

/-- The `n`-byte field at offset `off`; bytes beyond the list read 0. -/
def field (bs : List Byte) (off n : Nat) : Nat := leNat ((bs.drop off).take n)

/-- One byte at an offset. -/
def byteAt (bs : List Byte) (off : Nat) : Nat := field bs off 1

/-- A signed `n`-byte field. -/
def sField (bs : List Byte) (off n : Nat) : Int :=
  let v := field bs off n
  if v < 256 ^ n / 2 then (v : Int) else (v : Int) - (256 ^ n : Nat)

/-- Bit `i` of a number. -/
def bitOf (v i : Nat) : Bool := v / 2 ^ i % 2 = 1

/-- The indices below `n` whose bit is set. -/
def bitsOf (n v : Nat) : List Nat := (upTo n).filter (bitOf v)

/-- The mask with the listed bits set. -/
def maskOf : List Nat → Nat
  | [] => 0
  | i :: r => if bitOf (maskOf r) i then maskOf r else maskOf r + 2 ^ i

/-- A list padded with zero bytes to a multiple of 4 (R265). -/
def pad4 (bs : List Byte) : List Byte := bs ++ List.replicate ((4 - bs.length % 4) % 4) 0

/-- 1 for true. -/
def b2n (b : Bool) : Nat := if b then 1 else 0

/-! ### CRC-32C (R219) -/

/-- One bit of the bit-reflected division by 0x1EDC_6F41. -/
def crcBit (c : Word) : Word := if c.getLsbD 0 then (c >>> 1) ^^^ 0x82F63B78#32 else c >>> 1

/-- The CRC register after one byte. -/
def crcByte (c : Word) (b : Byte) : Word :=
  crcBit (crcBit (crcBit (crcBit (crcBit (crcBit (crcBit (crcBit (c ^^^ b.setWidth 32))))))))

/-- CRC-32C with initial value and final XOR 0xFFFF_FFFF. -/
def crc32c (bs : List Byte) : Word := bs.foldl crcByte 0xFFFFFFFF#32 ^^^ 0xFFFFFFFF#32

/-! ### CRC-32 of IEEE 802.3 (R303) -/

/-- One bit of the bit-reflected division by 0x04C1_1DB7. -/
def fcsBit (c : Word) : Word := if c.getLsbD 0 then (c >>> 1) ^^^ 0xEDB88320#32 else c >>> 1
def fcsByte (c : Word) (b : Byte) : Word :=
  fcsBit (fcsBit (fcsBit (fcsBit (fcsBit (fcsBit (fcsBit (fcsBit (c ^^^ b.setWidth 32))))))))
/-- The FCS of a frame's bytes. -/
def crc32 (bs : List Byte) : Word := bs.foldl fcsByte 0xFFFFFFFF#32 ^^^ 0xFFFFFFFF#32

/-! ### Saturating and wrapping counters -/

/-- A 32-bit count that saturates. -/
def satAdd (c : Word) (n : Nat) : Word :=
  if c.toNat + n < 2 ^ 32 then BitVec.ofNat 32 (c.toNat + n) else 0xFFFFFFFF#32

/-- The smaller of a number and a limit. -/
def sat (lim n : Nat) : Nat := if n < lim then n else lim

/-- Whether every element of a list satisfies a check, or any does, by structural recursion on the list. -/
def allOf {α : Type} (f : α → Bool) (l : List α) : Bool := l.all f
def anyOf {α : Type} (f : α → Bool) (l : List α) : Bool := l.any f

/-- A list in the order of `lt`, equal elements in their order of appearance. -/
def insertBy {α : Type} (lt : α → α → Bool) (a : α) : List α → List α
  | [] => [a]
  | b :: r => if lt a b then a :: b :: r else b :: insertBy lt a r
def sortBy {α : Type} (lt : α → α → Bool) (l : List α) : List α := l.foldl (fun acc a => insertBy lt a acc) []

/-- Applies an operation for each element in turn. -/
def foldS {σ α : Type} (l : List α) (f : α → σ → σ) (s : σ) : σ := l.foldl (fun t a => f a t) s

end Sys2Proof.Machine
end

