-- ==== Sys2Proof/Machine/Variants.lean ====
section
/-!
DEFINITION. What a variant has: Table — Horduisk variants (R1), the capability registers (R6) and present units (R2).
-/
namespace Sys2Proof.Machine

/-- The unit counts of a variant (R1). -/
def Variant.ports : Variant → Nat
  | .hk32f => 32 | .hk32b => 32 | .hk16f => 16 | .hk16l => 16
def Variant.engines : Variant → Nat
  | .hk32f => 12 | .hk32b => 12 | .hk16f => 8 | .hk16l => 6
def Variant.cans : Variant → Nat
  | .hk32f => 8 | .hk32b => 0 | .hk16f => 4 | .hk16l => 0
def Variant.trunks : Variant → Nat
  | .hk32f => 4 | .hk32b => 4 | .hk16f => 2 | .hk16l => 2
/-- Largest Peat store in MiB. -/
def Variant.peatMax : Variant → Nat
  | .hk32f => 4096 | .hk32b => 4096 | .hk16f => 2048 | .hk16l => 0
/-- Context indices per port (R59). -/
def Variant.indices : Variant → Nat
  | .hk32f => 4096 | .hk32b => 4096 | .hk16f => 4096 | .hk16l => 1024
/-- Whether the variant supports the Timebase alternate mode. -/
def Variant.timebase : Variant → Bool
  | .hk32f => true | .hk32b => false | .hk16f => true | .hk16l => false
/-- DEV_CAP0 and DEV_CAP1 (R6). -/
def Variant.cap0 : Variant → Word
  | .hk32f => 0x0020C899#32 | .hk32b => 0x0020C08A#32 | .hk16f => 0x0010845B#32 | .hk16l => 0x00106044#32
def Variant.cap1 : Variant → Word
  | .hk32f => 0x00040080#32 | .hk32b => 0x00040080#32 | .hk16f => 0x00020040#32 | .hk16l => 0x00000010#32

/-- Counts of the part at hand. -/
def State.nPorts (s : State) : Nat := Variant.ports s.part.variant
def State.nEngines (s : State) : Nat := Variant.engines s.part.variant
def State.nCans (s : State) : Nat := Variant.cans s.part.variant
def State.nTrunks (s : State) : Nat := Variant.trunks s.part.variant
def State.nIndices (s : State) : Nat := Variant.indices s.part.variant

/-- Present units are numbered from 0 (R2). -/
def State.hasPort (s : State) (p : Nat) : Bool := p < s.nPorts
def State.hasEngine (s : State) (e : Nat) : Bool := e < s.nEngines
def State.hasCan (s : State) (c : Nat) : Bool := c < s.nCans
def State.hasTrunk (s : State) (n : Nat) : Bool := n < s.nTrunks

/-- The HK16L has no SDRAM controller (R10). -/
def State.hasSdram (s : State) : Bool := s.part.variant != .hk16l

/-- The Peat store is in use: fitted, initialised and not lost (R201). -/
def State.peatInUse (s : State) : Bool := s.peat.st == 2 || s.peat.st == 3

end Sys2Proof.Machine
end

