-- ==== Sys2Proof/Machine/Ops.lean ====
section
/-!
DEFINITION. The named operations every meaning is written with: reading and writing one unit's record, sequence-clear
bits, what is sent, free values, the register addresses, and CONFIG registers with their parity and lock copy.
-/
namespace Sys2Proof.Machine

/-! ### Records of units -/

/-- The outcome that ends every meaning: the block goes on. -/
abbrev Res := Host.Outcome State Fault Refusal

def State.port (s : State) (p : Nat) : Port := tget s.ports {} p
def setPort (p : Nat) (r : Port) (s : State) : State := { s with ports := tset s.ports p r }
def modPort (p : Nat) (f : Port → Port) (s : State) : State := setPort p (f (s.port p)) s

def State.ctx (s : State) (e : Nat) : Option Ctx := tfind e s.ctxs
def setCtx (e : Nat) (c : Ctx) (s : State) : State := { s with ctxs := tset s.ctxs e c }
def modCtx (e : Nat) (f : Ctx → Ctx) (s : State) : State :=
  match s.ctx e with
  | some c => setCtx e (f c) s
  | none => s

def State.host (s : State) (h : HostId) : HostRec :=
  match h with
  | .a => s.hostA
  | .b => s.hostB
def setHost (h : HostId) (r : HostRec) (s : State) : State :=
  match h with
  | .a => { s with hostA := r }
  | .b => { s with hostB := r }
def modHost (h : HostId) (f : HostRec → HostRec) (s : State) : State := setHost h (f (s.host h)) s

def State.feed (s : State) (h : HostId) : Feed :=
  match h with
  | .a => s.feedA
  | .b => s.feedB
def setFeed (h : HostId) (r : Feed) (s : State) : State :=
  match h with
  | .a => { s with feedA := r }
  | .b => { s with feedB := r }
def modFeed (h : HostId) (f : Feed → Feed) (s : State) : State := setFeed h (f (s.feed h)) s

def State.engine (s : State) (e : Nat) : Engine := tget s.stok.engines {} e
def setEngine (e : Nat) (r : Engine) (s : State) : State :=
  { s with stok := { s.stok with engines := tset s.stok.engines e r } }
def modEngine (e : Nat) (f : Engine → Engine) (s : State) : State := setEngine e (f (s.engine e)) s

def State.pbank (s : State) (b : Nat) : Bank := tget s.pool.banks {} b
def modPbank (b : Nat) (f : Bank → Bank) (s : State) : State :=
  { s with pool := { s.pool with banks := tset s.pool.banks b (f (s.pbank b)) } }
def State.cbank (s : State) (b : Nat) : Bank := tget s.ctrl.banks {} b
def modCbank (b : Nat) (f : Bank → Bank) (s : State) : State :=
  { s with ctrl := { s.ctrl with banks := tset s.ctrl.banks b (f (s.cbank b)) } }

def State.can (s : State) (c : Nat) : Can := tget s.cans {} c
def setCan (c : Nat) (r : Can) (s : State) : State := { s with cans := tset s.cans c r }
def modCan (c : Nat) (f : Can → Can) (s : State) : State := setCan c (f (s.can c)) s
def Can.obj (r : Can) (k : Nat) : CanObj := tget r.objs {} k
def modObj (c k : Nat) (f : CanObj → CanObj) (s : State) : State :=
  modCan c (fun r => { r with objs := tset r.objs k (f (r.obj k)) }) s

def State.trunk (s : State) (n : Nat) : Trunk := tget s.trunks {} n
def setTrunk (n : Nat) (r : Trunk) (s : State) : State := { s with trunks := tset s.trunks n r }
def modTrunk (n : Nat) (f : Trunk → Trunk) (s : State) : State := setTrunk n (f (s.trunk n)) s

def State.inst (s : State) (i : Nat) : Instance := tget s.insts {} i
def modInst (i : Nat) (f : Instance → Instance) (s : State) : State :=
  { s with insts := tset s.insts i (f (s.inst i)) }

def State.flt (s : State) (k : Nat) : Flt := tget s.flts {} k
def setFlt (k : Nat) (r : Flt) (s : State) : State := { s with flts := tset s.flts k r }
def modFlt (k : Nat) (f : Flt → Flt) (s : State) : State := setFlt k (f (s.flt k)) s

def State.sem (s : State) (n : Nat) : Sem := tget s.sems {} n
def setSem (n : Nat) (r : Sem) (s : State) : State := { s with sems := tset s.sems n r }

/-- The slot records of the firmware store. -/
def State.slot (s : State) (k : Nat) : Slot := if k = 0 then s.fw.slot0 else s.fw.slot1
def modSlot (k : Nat) (f : Slot → Slot) (s : State) : State :=
  if k = 0 then { s with fw := { s.fw with slot0 := f s.fw.slot0 } }
  else { s with fw := { s.fw with slot1 := f s.fw.slot1 } }

/-- Small record updates. -/
def modStok (f : Stoker → Stoker) (s : State) : State := { s with stok := f s.stok }
def modLedger (f : Ledger → Ledger) (s : State) : State := { s with ledger := f s.ledger }
def modLich (f : Lichen → Lichen) (s : State) : State := { s with lich := f s.lich }
def modDev (f : Dev → Dev) (s : State) : State := { s with dev := f s.dev }
def modTime (f : Time → Time) (s : State) : State := { s with time := f s.time }
def modNet (f : Net → Net) (s : State) : State := { s with net := f s.net }
def modFw (f : Fw → Fw) (s : State) : State := { s with fw := f s.fw }
def modPower (f : Power → Power) (s : State) : State := { s with power := f s.power }
def modBoard (f : Board → Board) (s : State) : State := { s with board := f s.board }
def modSvc (f : Svc → Svc) (s : State) : State := { s with svc := f s.svc }
def modPeat (f : Peat → Peat) (s : State) : State := { s with peat := f s.peat }
def modPd (p : Nat) (f : PdRec → PdRec) (s : State) : State := modPort p (fun r => { r with pd := f r.pd }) s

/-- The other host. -/
def hOther : HostId → HostId
  | .a => .b
  | .b => .a
/-- Host A is 0 and host B is 1 where the spec codes a host (R178). -/
def hCode : HostId → Nat
  | .a => 0
  | .b => 1
/-- Owner codes: 0 none, 1 A, 2 B (R252, R306). -/
def hOwner : HostId → Nat
  | .a => 1
  | .b => 2
def hostOf (code : Nat) : HostId := if code = 0 then .a else .b

/-! ### What is sent, and free values -/

/-- Records one thing the block sends. -/
def emit (o : Out) (s : State) : State := { s with wire := o :: s.wire }

/-- Records several, the first sent first. -/
def emitAll (os : List Out) (s : State) : State := foldS os emit s

/-- Moves past a free value that has been used. -/
def useFree (s : State) : State := { s with free := s.free + 1 }

/-! ### Sequence clear (R519, R520) -/

def State.sq (s : State) (a : Nat) : Sqc := tget s.sqc {} a

/-- The register's sequence after the listed SQC fields are set in one cycle: one increment (R519). -/
def sqcSet (bits : List Nat) (r : Sqc) : Sqc :=
  { seqn := r.seqn + 1,
    bits := bits.map (fun b => (b, r.seqn + 1)) ++ r.bits.filter (fun e => !bits.contains e.1) }

/-- A write of `v` clears each field the written sequence covers (R520). -/
def sqcClear (v : Word) (r : Sqc) : Sqc :=
  { r with bits := r.bits.filter fun e => !(v.getLsbD e.1 && decide ((BitVec.setWidth 8 (v >>> 24) - e.2).toNat < 128)) }

/-- Sets SQC fields of the STATUS register at host address `a`. -/
def setSqc (a : Nat) (bits : List Nat) (s : State) : State :=
  { s with sqc := tset s.sqc a (sqcSet bits (s.sq a)) }

/-- A seq that counts changes: one increment, no field (R519, R531). -/
def bumpSeq (a : Nat) (s : State) : State := setSqc a [] s

/-- Whether an SQC field is set. -/
def State.sqBit (s : State) (a i : Nat) : Bool := (s.sq a).bits.any (fun e => e.1 == i)

/-- seq in [31:24] and the set SQC fields of the listed bit numbers, as a register shows them. -/
def State.sqWord (s : State) (a : Nat) : Nat :=
  (s.sq a).seqn.toNat * 2 ^ 24 + maskOf ((s.sq a).bits.map (·.1))

/-! ### Addresses (R515, R529 to R542) -/

def aDevId : Nat := 0x00000
def aDevState : Nat := 0x00004
def aDevIslands : Nat := 0x0000C
def aDevTemp : Nat := 0x00024
def aHost (h : HostId) : Nat := 0x01000 + 0x1000 * hCode h
def aHostBind (h : HostId) : Nat := aHost h
def aHostOrigin (h : HostId) : Nat := aHost h + 4
def aHostCtrl (h : HostId) : Nat := aHost h + 8
def aRing (h : HostId) : Nat := aHost h + 0x14
def aSemOwner (h : HostId) (k : Nat) : Nat := aHost h + 0x20 + 4 * k
def aEvtCfg (n : Nat) : Nat := 0x03000 + 4 * n
def aEvtPend (h : HostId) (k : Nat) : Nat := 0x03400 + 0x40 * hCode h + 4 * k
def aFltStatus : Nat := 0x04000
def aFltLast : Nat := 0x04004
def aFltPolicy : Nat := 0x04008
def aFltUnack (k : Nat) : Nat := 0x04040 + 4 * k
def aFltActive (k : Nat) : Nat := 0x04080 + 4 * k
def aPwrmState : Nat := 0x05000
def aPwrmRails : Nat := 0x05004
def aPwrmGuard : Nat := 0x05010
def aFeedCfg (f : HostId) : Nat := 0x05040 + 4 * hCode f
def aFeedStatus : Nat := 0x05048
def aSeat : Nat := 0x0504C
def aLich : Nat := 0x06000
def aScratch (k : Nat) : Nat := 0x06020 + 4 * k
def aTimeState : Nat := 0x07008
def aPpsCfg : Nat := 0x07010
def aStok : Nat := 0x08000
def aStokEngines : Nat := 0x08008
def aMemc : Nat := 0x09000
def aSram : Nat := 0x0A000
def aMbxConflict : Nat := 0x0A010
def aSec : Nat := 0x0B000
def aSecGuard : Nat := 0x0B010
def aTrk (n : Nat) : Nat := 0x0C000 + 0x400 * n
def aTe (e : Nat) : Nat := 0x0D000 + 0x100 * e
def aQue (q : Nat) : Nat := 0x10000 + 0x100 * q
def aQueStatus (q : Nat) : Nat := aQue q + 0x40
def aCan (c : Nat) : Nat := 0x14000 + 0x400 * c
def aPort (p : Nat) : Nat := 0x18000 + 0x200 * p
def aPortPd (p : Nat) : Nat := aPort p + 4
def aPwrCfg (p : Nat) : Nat := aPort p + 0x100
def aPwrStatus (p : Nat) : Nat := aPort p + 0x104
def aPortCal (p : Nat) : Nat := aPort p + 0x108

/-! ### CONFIG registers (R518, R522 to R524) -/

/-- The reset value of the CONFIG register at an address. -/
def cfgReset (a : Nat) : Word :=
  if 0x03000 ≤ a ∧ a < 0x03400 then (if a = aEvtCfg 8 then 0x33#32 else 0x13#32)
  else if 0x18000 ≤ a ∧ a < 0x1C000 then BitVec.ofNat 32 (10 * 2 ^ 16 + 20)
  else if a = aFeedCfg .a ∨ a = aFeedCfg .b then BitVec.ofNat 32 (40 * 2 ^ 16 + 20 * 2 ^ 8 + 20)
  else if a = aHostCtrl .a ∨ a = aHostCtrl .b then 100#32
  else 0#32

/-- The stored value of a CONFIG register. -/
def State.cfgAt (s : State) (a : Nat) : Word := tget s.cfg (cfgReset a) a

/-- Whether a CONFIG register has a lock field (R524). -/
def hasLock (a : Nat) : Bool :=
  a == aFltPolicy || a == aPwrmGuard || a == aSecGuard || a == aFeedCfg .a || a == aFeedCfg .b ||
  (decide (0x18000 ≤ a) && decide (a < 0x1C000))

/-- An accepted write: the value is stored, its parity is recomputed, and the power die's copy follows (R522, R523). -/
def setCfg (a : Nat) (v : Word) (s : State) : State :=
  { s with cfg := tset s.cfg a v, cfgBad := s.cfgBad.filter (· != a),
           cfgCopy := if hasLock a then tset s.cfgCopy a v else s.cfgCopy }

/-- A field of a CONFIG register. -/
def State.cfgField (s : State) (a lo n : Nat) : Nat := (s.cfgAt a).toNat / 2 ^ lo % 2 ^ n

/-! ### Fields of the configuration that other chapters read -/

/-- EVT_CFGn: pin, inband and route (R530). -/
def State.evPin (s : State) (n : Nat) : Bool := (s.cfgAt (aEvtCfg n)).getLsbD 5
def State.evInband (s : State) (n : Nat) : Bool := (s.cfgAt (aEvtCfg n)).getLsbD 4
def State.evRoute (s : State) (n : Nat) : Nat := s.cfgField (aEvtCfg n) 0 3
/-- ilim in 50 mA and tFAULT in ms of a port (R403). -/
def State.ilim (s : State) (p : Nat) : Nat := s.cfgField (aPwrCfg p) 0 7

/-- Whether the ports, engines and queues are served: Mboter reports ready. -/
def State.ready (s : State) : Bool := s.dev.phase == .ready

/-- Whether any source holds the power die up (R18). -/
def State.powered (s : State) : Bool := s.dev.phase != .off

/-- The time unit has its clock: the logic die is out of reset, and in a wake at its last step (R435). -/
def State.timeOn (s : State) : Bool :=
  match s.dev.phase with
  | .off => false | .reset => false
  | .waking => (match s.power.wake with | some w => w.step == 6 | none => false)
  | _ => true

/-- A rail of Table — Rails and their islands is missing, or back and its islands not yet awake (R472). -/
def State.railOut (s : State) (code : Nat) : Bool := s.power.missing.getLsbD (code - 1)
def State.noRail (s : State) (code : Nat) : Bool := s.railOut code || s.power.rising.getLsbD (code - 1)

/-- The PHYs of the ports and of the service port have their supply (R452, R472). -/
def State.phyRails (s : State) : Bool := !(s.noRail 5 || s.noRail 6)

/-- Codes of the power states (R451). -/
def PowerState.code : PowerState → Nat
  | .run => 0 | .trim => 1 | .doze => 2 | .hibernate => 3 | .service => 4 | .kindling => 5

end Sys2Proof.Machine
end

