-- ==== Sys2Proof/Machine/Queue.lean ====
section
/-!
DEFINITION. The queue manager on one queue: where an item lives (R180 to R184, R544 to R546), a full class S queue (R193
to R195), the flight window (R209), full (R196), pop and refill (R186 to R191), and GAP items.
-/
namespace Sys2Proof.Machine

/-- A NONE header of length 0 and stamp 0 (R191). -/
def noneItem : Item := { typ := 0, flags := 0, source := 0, stamp := 0, payload := [], banks := [], via := none }

end Sys2Proof.Machine

namespace Sys2Proof
open Sys2Proof.Machine

/-! ### What an item says of itself -/

/-- The replay flag (R208) and the items that carry it. -/
def Item.isReplay (i : Item) : Bool := i.flags.getLsbD 1
/-- Stored size of an item (R211), 64-byte extents of its payload (R180). -/
def Item.size (i : Item) : Nat := 16 + (i.payload.length + 15) / 16 * 16
def Item.extents (i : Item) : Nat := (i.payload.length + 63) / 64
def Item.isGap (i : Item) : Bool := i.typ == 2
def Item.gapCount (i : Item) : Nat := field i.payload 0 4
def Item.gapCause (i : Item) : Nat := byteAt i.payload 4
def Item.gapFirst (i : Item) : DWord := BitVec.ofNat 64 (field i.payload 8 8)
def Item.gapLast (i : Item) : DWord := BitVec.ofNat 64 (field i.payload 16 8)
/-- What one item counts for in a GAP item: a GAP item its own count, any other item 1 (R209). -/
def Item.covers (i : Item) : Nat := if i.isGap then i.gapCount else 1
def Item.firstStamp (i : Item) : DWord := if i.isGap then i.gapFirst else i.stamp
def Item.lastStamp (i : Item) : DWord := if i.isGap then i.gapLast else i.stamp
/-- Header word 0, as QUE_POP_HDR0 returns it. -/
def Item.hdr0 (i : Item) : Word :=
  BitVec.ofNat 32 (i.flags.toNat * 2 ^ 24 + i.typ % 16 * 2 ^ 16 + i.payload.length)
/-- The 16-byte header (R177). -/
def Item.header (i : Item) : List Byte :=
  u16 i.payload.length ++ u8 (i.typ % 16) ++ [i.flags] ++ u32 i.source.toNat ++ u64 i.stamp.toNat

end Sys2Proof

namespace Sys2Proof.Machine

/-- A queue as a cold start leaves it: Q0 to Q7 with the roles of R172, the others disabled (R174); a
class L queue with nothing bound has a reserve of 1 (R196). -/
def queueInit (v : Variant) (q : Nat) : Queue :=
  if q < 4 then { st := .flow, isL := true, owner := if q < 2 then .a else .b, depth := 256, reserve := 1 }
  else if q < 6 then { st := .flow, isL := true, owner := hostOf (q % 2), depth := 4096, reserve := 1 }
  else if q < 8 then { st := .flow, isL := true, owner := hostOf (q % 2), depth := if v = .hk16l then 8192 else 262144,
                       spillMib := if v = .hk16l then 0 else 16, reserve := 1 }
  else {}

def State.queue (s : State) (q : Nat) : Queue := tget s.queues (queueInit s.part.variant q) q
def setQueue (q : Nat) (r : Queue) (s : State) : State := { s with queues := tset s.queues q r }
def modQueue (q : Nat) (f : Queue → Queue) (s : State) : State := setQueue q (f (s.queue q)) s

/-- Every item of a queue in order of arrival (R180), and how many there are. -/
def Queue.items (r : Queue) : List Item := r.head ++ r.mid ++ r.tail
def Queue.count (r : Queue) : Nat := r.head.length + r.mid.length + r.tail.length
def Queue.isEmpty (r : Queue) : Bool := r.count == 0

def Queue.flagged (r : Queue) : Nat := (r.items.filter Item.isReplay).length

def sumBy {α : Type} (f : α → Nat) (l : List α) : Nat := l.foldl (fun n a => n + f a) 0

/-- A queue's middle lies in spill extents when it has a quota and a Peat store is in use (R182, R201). -/
def State.spills (s : State) (r : Queue) : Bool := r.spillMib != 0 && s.peatInUse

/-! ### Spill extents (R181) -/

/-- Different spill extents that a middle lies in; each is 64 KiB. -/
def extCount : Nat → List Item → Nat
  | _, [] => 0
  | last, i :: rest => (if i.ext = last then 0 else 1) + extCount i.ext rest
def Queue.exts (r : Queue) : Nat := match r.mid with | [] => 0 | i :: rest => 1 + extCount i.ext rest
/-- Bytes that can still be written into the current spill extent. -/
def Queue.extRoom (r : Queue) : Nat :=
  match r.mid.getLast? with
  | some i => if i.ext = r.extNo then 65536 - r.extFill else 0
  | none => 0
/-- Spill space in use in KiB, the quota that is free, and whether what is linked lies within the quota (R174, R181). -/
def State.spillKib (s : State) (r : Queue) : Nat := if s.spills r then 64 * r.exts else 0
def Queue.spillFree (r : Queue) : Nat := r.spillMib * 1048576 - 65536 * r.exts + r.extRoom
def Queue.inQuota (r : Queue) : Bool := decide (65536 * r.exts ≤ r.spillMib * 1048576)

/-- An item enters a middle in spill extents, and its payload extents are freed: one that does not end within the current extent
goes into a new one (R181, R216). -/
def Queue.spill (r : Queue) (i : Item) : Queue :=
  if i.size ≤ r.extRoom then
    { r with mid := r.mid ++ [{ i with ext := r.extNo, banks := [] }], extFill := r.extFill + i.size }
  else { r with mid := r.mid ++ [{ i with ext := r.extNo + 1, banks := [] }], extNo := r.extNo + 1, extFill := i.size }

/-! ### Payload extents (R182, R545) -/

/-- Payload extents that a queue holds in payload SRAM. -/
def State.sramExtents (s : State) (r : Queue) : Nat :=
  sumBy Item.extents r.head + sumBy Item.extents r.tail + (if s.spills r then 0 else sumBy Item.extents r.mid)

/-- Payload banks in service, lowest first, less the one being evacuated (R545, R546). -/
def State.servicePool (s : State) : List Nat :=
  (upTo 16).filter fun b => (s.pbank b).st < 2 && !(s.pbank b).lost && s.pool.skip != some b
def State.poolCap (s : State) : Nat := 6143 * s.servicePool.length

/-- Extents in use beyond the 64 that each queue keeps reserved, over every queue but `q` (R182), and all extents in use. -/
def State.poolOthers (s : State) (q : Nat) : Nat := sumBy (fun e => if e.1 = q then 0 else s.sramExtents e.2 - 64) s.queues
def State.poolUsed (s : State) : Nat := sumBy (fun e => s.sramExtents e.2) s.queues

/-- Whether free payload extents exist for an item of queue `q` that stands as `r` says (R182). -/
def State.hasExtents (s : State) (q : Nat) (r : Queue) (i : Item) : Bool :=
  let n := s.sramExtents r + i.extents
  decide (n ≤ 64) || decide (s.poolOthers q + (n - 64) ≤ s.poolCap - 64 * 64)

/-- The eight banks of an extent that starts at word `8 * k` in the numbering of the active set (R545). -/
def extentAt (active : List Nat) (k : Nat) : List Nat := (upTo 8).map fun i => active.getD ((8 * k + i) % active.length) 0
/-- Where an extent starts: which of the free ones is taken is the queue manager's choice, a free value, among those that lie
in the banks of the queue's hint where there are any (R129). -/
def extentStart (active : List Nat) (hint free : Nat) : Nat :=
  let good := (upTo active.length).filter fun k => (extentAt active k).all (bitOf hint)
  if hint = 0xFFFF then Config.freeExtent free
  else (good[Config.freeExtent free % good.length]?).getD (Config.freeExtent free)

/-- The banks that an item's extents touch: each extent is eight words in the numbering of the active set (R545). -/
def extentBanks (active : List Nat) (hint words free : Nat) : Nat → List Nat
  | 0 => []
  | n + 1 =>
    let w := if words < 8 then words else 8
    (((extentAt active (extentStart active hint free)).take w) ++ extentBanks active hint (words - w) (free + 1) n).eraseDups

/-- The bank mask of a queue's QUEUE_BANKS affinity of highest weight (R129). -/
def State.bankHint (s : State) (q : Nat) : Nat :=
  let l := s.stok.affs.filter fun a => a.kind == 5 && a.opA.toNat == q
  match l.foldl (fun (best : Option Aff) a => match best with
    | some b => if b.weight < a.weight then some a else best
    | none => some a) none with
  | some a => a.opB.toNat
  | none => 0xFFFF

def State.placeItem (s : State) (q : Nat) (i : Item) : Item :=
  { i with banks := extentBanks (s.servicePool.take s.pool.k) (s.bankHint q) ((i.payload.length + 7) / 8) s.free i.extents }

/-! ### Head, middle and tail -/

/-- Moves tail items to the head while the middle is empty and the head has room (R180). -/
def Queue.fill (r : Queue) : Queue :=
  if r.mid.isEmpty then
    { r with head := r.head ++ r.tail.take (16 - r.head.length), tail := r.tail.drop (16 - r.head.length) }
  else r

/-- Refills the head to 16 from the middle when it holds 8 or fewer (R181). -/
def Queue.refill (r : Queue) : Queue :=
  if r.head.length ≤ 8 then
    ({ r with head := r.head ++ r.mid.take (16 - r.head.length), mid := r.mid.drop (16 - r.head.length) } : Queue).fill
  else r

/-- What follows when items left a queue: a middle in payload SRAM refills the head at once (R182), the tail fills a head without
a middle before it (R180). -/
def Queue.settle (spills : Bool) (r : Queue) : Queue := if spills then r.fill else r.refill.fill

/-- While the Peat store is in self-refresh no item enters or leaves a middle in it (R183). -/
def State.midShut (s : State) (r : Queue) : Bool := s.spills r && s.peat.st == 3

/-- Moves the oldest items of an over-full tail to the middle. What the middle cannot take, because it is shut or the quota is
used up, stays in the tail (notes/assumptions/150.md). -/
def State.overflow (s : State) (r : Queue) : Queue :=
  let more := r.tail.take (r.tail.length - 16)
  let rest := r.tail.drop (r.tail.length - 16)
  if s.spills r then
    let r1 := more.foldl Queue.spill { r with tail := rest }
    if s.midShut r || more.isEmpty || !r1.inQuota then r else r1
  else { r with mid := r.mid ++ more, tail := rest }

/-- Adds an item: into the tail, and on toward the head or the middle (R180). -/
def State.addItem (s : State) (r : Queue) (i : Item) : Queue := s.overflow ({ r with tail := r.tail ++ [i] } : Queue).fill

/-- Adds an item directly into the middle, behind the items of the tail (R182). -/
def Queue.addMid (r : Queue) (i : Item) : Queue := (r.tail ++ [i]).foldl Queue.spill { r with tail := [] }

/-- Changes the item at a place, and takes one away, wherever they lie; an item in a spill extent stays in it. -/
def Queue.setAt (r : Queue) (n : Nat) (i : Item) : Queue :=
  let h := r.head.length
  let m := r.mid.length
  if n < h then { r with head := r.head.set n i }
  else if n < h + m then { r with mid := r.mid.set (n - h) { i with ext := (r.mid.getD (n - h) i).ext } }
  else { r with tail := r.tail.set (n - h - m) i }
def Queue.removeAt (r : Queue) (n : Nat) : Queue :=
  let h := r.head.length
  let m := r.mid.length
  if n < h then { r with head := r.head.eraseIdx n }
  else if n < h + m then { r with mid := r.mid.eraseIdx (n - h) }
  else { r with tail := r.tail.eraseIdx (n - h - m) }
/-- The item at a place lies in the middle. -/
def Queue.inMid (r : Queue) (n : Nat) : Bool := decide (r.head.length ≤ n ∧ n < r.head.length + r.mid.length)

/-- A queue's items with where each lies: 0 the head, 1 the middle, 2 the tail. -/
def Queue.placed (r : Queue) : List (Nat × Item) := r.head.map (fun i => (0, i)) ++ r.mid.map (fun i => (1, i)) ++ r.tail.map fun i => (2, i)
def Queue.ofPlaced (r : Queue) (l : List (Nat × Item)) : Queue :=
  let part (k : Nat) : List Item := (l.filter fun x => x.1 == k).map fun x => x.2
  { r with head := part 0, mid := part 1, tail := part 2 }

/-! ### GAP items (R194, R195) -/

/-- A GAP item (R194): count, cause, first and last stamp, source of the last item covered. -/
def gapItem (source : Word) (count cause : Nat) (first last : DWord) : Item :=
  { typ := 2, flags := 0, source := source, stamp := first,
    payload := u32 (sat 0xFFFFFFFF count) ++ u8 cause ++ [0, 0, 0] ++ u64 first.toNat ++ u64 last.toNat,
    banks := [], via := none }

/-- A merge of a dropped item into a GAP item (R195). -/
def gapMerge (g i : Item) : Item :=
  { gapItem i.source (g.gapCount + i.covers) g.gapCause g.gapFirst i.lastStamp with flags := g.flags, ext := g.ext }

/-- Items that enter a queue in FLIGHT or HELD carry the replay flag, GAP items too (R208). -/
def Queue.entryFlags (r : Queue) : BitVec 8 := if r.st = .flight ∨ r.st = .held then 2 else 0

/-- A new GAP item for one dropped item. -/
def gapNew (flags : BitVec 8) (cause : Nat) (i : Item) : Item :=
  { gapItem i.source i.covers cause i.firstStamp i.lastStamp with flags := flags, ext := i.ext }

/-- Replaces each run of marked items by one GAP item of `cause` at its place (R195, R469). -/
def gapRuns (flags : BitVec 8) (cause : Nat) : Option (Nat × Item) → List (Bool × Nat × Item) → List (Nat × Item)
  | none, [] => []
  | some g, [] => [g]
  | none, (bad, i) :: r =>
    if bad then gapRuns flags cause (some (i.1, gapNew flags cause i.2)) r else i :: gapRuns flags cause none r
  | some g, (bad, i) :: r =>
    if bad then gapRuns flags cause (some (g.1, gapMerge g.2 i.2)) r else g :: i :: gapRuns flags cause none r

/-- Loses the marked items of a queue: each run of them gives way to one GAP item. -/
def State.gapMarked (s : State) (marks : List Bool) (cause : Nat) (r : Queue) : Queue :=
  (r.ofPlaced (gapRuns r.entryFlags cause none (marks.zip r.placed))).settle (s.spills r)

/-- Loses the items of a queue that `bad` names, by where they lie and what they are. -/
def State.gapOut (s : State) (bad : Nat × Item → Bool) (cause : Nat) (r : Queue) : Queue := s.gapMarked (r.placed.map bad) cause r

/-- One GAP item in place of all the items that `bad` names, where the first of them stood (R208). -/
def gapOne (bad : Item → Bool) (cause : Nat) : Option Item → List (Nat × Item) → List (Nat × Item)
  | _, [] => []
  | none, i :: r =>
    if bad i.2 then
      (i.1, (r.filter fun x => bad x.2).foldl (fun g x => gapMerge g x.2) (gapNew 0 cause i.2)) :: gapOne bad cause (some i.2) r
    else i :: gapOne bad cause none r
  | some g, i :: r => if bad i.2 then gapOne bad cause (some g) r else i :: gapOne bad cause (some g) r

/-! ### Admission -/

/-- Stores an item that can be stored. -/
def State.store (s : State) (q : Nat) (r : Queue) (i : Item) : Queue :=
  if s.spills r && !s.midShut r && !s.hasExtents q r i then r.addMid i else s.addItem r (s.placeItem q i)

/-- Whether an item can be stored at all: extents and room outside a shut middle, or spill quota (R182, R183, R193). -/
def State.canStore (s : State) (q : Nat) (r : Queue) (i : Item) : Bool :=
  if s.midShut r then
    s.hasExtents q r i && (decide (r.tail.length < 16) || r.mid.isEmpty && decide (r.head.length + r.tail.length < 32))
  else if s.spills r then
    let t := s.store q r i
    t.inQuota && decide (t.tail.length ≤ 16)
  else s.hasExtents q r i

/-- An item of one payload extent. -/
def smallItem : Item := { noneItem with payload := [0] }

/-- full (R190, R196): class S, the reserved slot is in use, for want of a slot or of space; class L, with its hysteresis of 16;
either class, head and tail full before a shut middle (R183). -/
def State.fullNow (s : State) (q : Nat) (r : Queue) : Bool :=
  let slots := r.depth - r.count
  if s.midShut r && decide (32 ≤ r.head.length + r.tail.length) then true
  else if !r.isL then
    decide (r.depth ≤ r.count) ||
      ((match r.items.getLast? with | some g => g.isGap && (g.gapCause == 1 || g.gapCause == 2) | none => false) &&
        !s.canStore q r smallItem)
  else if r.full then
    !(decide (r.reserve + 16 ≤ slots) && (!s.spills r || decide (r.reserve * 4096 + 16 * 4096 ≤ r.spillFree)) &&
      (s.spills r || s.hasExtents q r smallItem))
  else
    decide (slots ≤ r.reserve) || (s.spills r && decide (r.spillFree ≤ r.reserve * 4096)) ||
      (!s.spills r && !s.hasExtents q r smallItem)

/-- What a push did to the queue: its record, the QUE_STATUS fields set, and the cause of a new GAP item. -/
structure Pushed where
  q      : Queue
  bits   : List Nat
  newGap : Option Nat

/-- The arriving item of a full class S queue is dropped: merged into a newest GAP item of cause 1 or 2, else covered by a
new GAP item in the reserved slot (R193, R195). A GAP item in a shut middle cannot change (R183). An arriving GAP item, of a trunk
delivery, brings its own count and last stamp into the merge and adds 1 to QUE_DROPS: a DESIGN CHOICE (notes/assumptions/178.md). -/
def State.dropNewest (s : State) (r : Queue) (i : Item) : Pushed :=
  let fresh : Pushed := { q := { s.addItem r (gapNew r.entryFlags 1 i) with drops := satAdd r.drops 1 }, bits := [10], newGap := some 1 }
  match r.items.getLast? with
  | some g =>
    if g.isGap && (g.gapCause == 1 || g.gapCause == 2) && !(s.midShut r && r.inMid (r.count - 1)) then
      { q := { r.setAt (r.count - 1) (gapMerge g i) with drops := satAdd r.drops 1 }, bits := [], newGap := none }
    else fresh
  | none => fresh

/-- Drops the oldest item after a GAP item of cause 2 at the head, into that GAP item or a new one (R209); nothing in a shut
middle can be dropped (R183). The Nat counts for QUE_DROPS, the Boolean tells that a new GAP item was made. -/
def State.dropOldest (s : State) (r : Queue) : Option (Queue × Nat × Bool) :=
  let shut (n : Nat) : Bool := s.midShut r && r.inMid n
  let done (t : Queue) (i : Item) (new : Bool) : Queue × Nat × Bool :=
    ({ t.settle (s.spills r) with drops := satAdd r.drops (b2n (!i.isGap)) }, b2n (!i.isGap), new)
  match r.items with
  | [] => none
  | g :: rest =>
    if g.isGap && g.gapCause == 2 then
      match rest with
      | i :: _ => if shut 0 || shut 1 then none else some (done ((r.setAt 0 (gapMerge g i)).removeAt 1) i false)
      | [] => none
    else if shut 0 then none else some (done (r.setAt 0 (gapNew r.entryFlags 2 g)) g true)

/-- The flight window: drops oldest items until the arriving item is within the window and can be stored (R209). The
Booleans tell that a new GAP item was made, and whether the item can be stored now. Before a shut middle a full tail gains
nothing by a drop. -/
def State.makeRoom (s : State) (q : Nat) (i : Item) (window : Nat) : Nat → Queue → Bool → Queue × Bool × Bool
  | 0, r, g => (r, g, s.canStore q r i)
  | n + 1, r, g =>
    let ok := s.canStore q r i
    if decide (r.count < window) && (ok || s.midShut r && !r.mid.isEmpty && decide (16 ≤ r.tail.length)) then (r, g, ok)
    else match s.dropOldest r with
      | none => (r, g, ok)
      | some (t, _, new) => s.makeRoom q i window n t (g || new)

/-- A push into a queue under its class and route state (R193, R196, R208, R209). -/
def State.pushInto (s : State) (q : Nat) (r : Queue) (i0 : Item) : Pushed :=
  let i := { i0 with flags := i0.flags ||| r.entryFlags }
  if r.st = .disabled then { q := r, bits := [], newGap := none }
  else if r.isL then { q := s.store q r i, bits := [], newGap := none }
  else if r.st = .flight then
    let window := if r.flight = 0 then r.depth else r.flight
    match s.makeRoom q i window (r.count + 1) r false with
    | (r', g, true) => { q := s.store q r' i, bits := if g then [10] else [], newGap := if g then some 2 else none }
    | (r', false, false) => s.dropNewest r' i
    | (r', true, false) => { s.dropNewest r' i with bits := [10], newGap := some 2 }
  else if decide (r.count < r.depth - 1) && s.canStore q r i then { q := s.store q r i, bits := [], newGap := none }
  else s.dropNewest r i

/-! ### Pop -/

/-- What a pop returned: the header shown, whether an item left the queue, whether the queue was found empty. -/
structure Popped where
  q        : Queue
  shown    : Item
  took     : Option Item
  underrun : Bool

/-- A pop of a queue in HELD starts its replay (R208). -/
def Queue.opened (r : Queue) : Queue := { r with st := if r.st = .held then .replay else r.st }

/-- A pop of the head (R186), of an empty head before a middle in spill extents (R187), of an empty queue (R191). A middle in
payload SRAM refills at once, so that its head is never found empty (R182). After the NONE header of R187 the claimed item is
the one before: a DESIGN CHOICE (notes/assumptions/151.md). -/
def State.popFrom (s : State) (r0 : Queue) : Popped :=
  let r := if s.spills r0 then r0 else r0.settle false
  match r.head with
  | i :: rest =>
    let r1 : Queue := { r.opened with head := rest, claimed := i, readPos := 0,
                                      replayed := if r.opened.st = .replay then r.replayed + 1 else r.replayed }
    { q := r1.settle (s.spills r), shown := i, took := some i, underrun := false }
  | [] =>
    if !r.mid.isEmpty then
      { q := r.opened, shown := { noneItem with flags := 4 }, took := none, underrun := false }
    else
      let i := { r.claimed with flags := r.claimed.flags ||| 8 }
      { q := { r.opened with readPos := 0 }, shown := i, took := none, underrun := true }

/-- REPLAY ends when the middle is empty and no flagged item is left (R208). -/
def Queue.replayDone (r : Queue) : Bool := r.st == .replay && r.mid.isEmpty && r.flagged == 0

/-! ### Registers of the queue window (R190, R539) -/

def QState.code : QState → Nat
  | .disabled => 0 | .flow => 1 | .flight => 2 | .held => 3 | .replay => 4

/-- QUE_STATUS of a queue (R190). -/
def State.queStatus (s : State) (q : Nat) : Word :=
  let r := s.queue q
  BitVec.ofNat 32 (s.sqWord (aQueStatus q) + r.st.code * 2 ^ 21 + b2n r.isL * 2 ^ 20 + b2n r.out * 2 ^ 19 +
    hCode r.owner * 2 ^ 18 + b2n r.isEmpty * 2 ^ 15 + b2n r.full * 2 ^ 14 + b2n (!r.mid.isEmpty) * 2 ^ 13 +
    b2n (r.head.isEmpty && !r.mid.isEmpty) * 2 ^ 12 + q % 64)

end Sys2Proof.Machine
end

