-- ==== Sys2Proof/Machine/Net.lean ====
section
/-!
DEFINITION. The trunk network as this device sees it: its own TOPOLOGY record, routes (R316 to R320), the choice of R125,
link egress with class priority and credits (R323, R324), and the sending side of queue pairs and replies (R309, R310,
R327 to R329).
-/
namespace Sys2Proof.Machine

/-! ### Topology and routes -/

/-- Codes of Table — Neighbour states. -/
def Nb.code : Nb → Nat
  | .off => 0 | .down => 1 | .probing => 2 | .blocked => 3 | .up => 4 | .lost => 5

/-- Link code of TRK_STATUS byte 0 (Table — Neighbour states). -/
def Nb.link : Nb → Nat
  | .off => 0 | .down => 0 | .probing => 1 | .blocked => 2 | .up => 1 | .lost => 1

/-- The neighbour is recorded in BLOCKED and UP; frames are accepted there (R319). -/
def Nb.linked (b : Nb) : Bool := b == .blocked || b == .up

/-- This device's own TOPOLOGY record (Table — TOPOLOGY payload). -/
def State.ownTopo (s : State) : Topo :=
  { id := s.dev.id, seqn := s.net.seqn, uid := s.part.uid, withdrawn := false,
    kindling := s.dev.phase == .kindling,
    links := (upTo s.nTrunks).map fun n =>
      let t := s.trunk n
      { nbId := t.nbId, state := t.st.code, ring := t.cfg.ring } }

/-- Every record the device goes by: its own and those it holds. -/
def State.allTopo (s : State) : List Topo := s.ownTopo :: s.net.recs.filter (fun r => !r.withdrawn)

/-- A link that both ends report in one state: the lower end, its trunk, the higher end, and whether both ends are ring
members (R317, R319, R322). Its key is (lower end, its trunk). -/
structure Edge where
  lo   : Half
  port : Nat
  hi   : Half
  ring : Bool
  deriving DecidableEq, Repr

/-- The links of a record by trunk number. -/
def numbered (r : Topo) : List (Nat × TopoLink) := (upTo r.links.length).zip r.links

/-- Every link that both its ends report in a state. -/
def edges (recs : List Topo) (code : Nat) : List Edge :=
  (recs.map fun r => (numbered r).filterMap fun e =>
    if e.2.state == code && decide (r.id.toNat < e.2.nbId.toNat) then
      match (recs.find? fun x => x.id == e.2.nbId).bind fun x => x.links.find? fun l => l.nbId == r.id && l.state == code with
      | some l => some { lo := r.id, port := e.1, hi := e.2.nbId, ring := e.2.ring && l.ring }
      | none => none
    else none).flatten

/-- Neighbours of a device over links. -/
def linkedTo (es : List Edge) (u : Half) : List Half :=
  es.filterMap fun e => if e.lo == u then some e.hi else if e.hi == u then some e.lo else none

/-- One more ring of a breadth-first search: the distances found so far and the newest ring. -/
def spread (es : List Edge) : Nat → Nat → List Half → List (Half × Nat) → List (Half × Nat)
  | 0, _, _, seen => seen
  | fuel + 1, d, frontier, seen =>
    let next := ((frontier.map (linkedTo es)).flatten.filter (fun v => !seen.any (fun x => x.1 == v))).eraseDups
    if next.isEmpty then seen else spread es fuel (d + 1) next (seen ++ next.map (fun v => (v, d + 1)))

/-- Distances in hops over links from a device, at most 255 (R318). -/
def distances (es : List Edge) (u : Half) : List (Half × Nat) := spread es (sat 255 es.length) 0 [u] [(u, 0)]

def hopsTo (es : List Edge) (u v : Half) : Option Nat := ((distances es u).find? (fun e => e.1 == v)).map (fun e => e.2)

/-- Whether a link would close, or lies in, a cycle of the other links. -/
def inCycle (es : List Edge) (e : Edge) : Bool := (hopsTo (es.erase e) e.lo e.hi).isSome

/-- The order of keys: the lower end's ID, then its trunk (R319). -/
def keyLt (a b : Edge) : Bool := decide (a.lo.toNat < b.lo.toNat) || (a.lo == b.lo && decide (a.port < b.port))

/-- The link with the lowest, or the highest, key. -/
def pickKey (lowest : Bool) (es : List Edge) : Option Edge :=
  es.foldl (fun b e => match b with
    | none => some e
    | some x => if (if lowest then keyLt e x else keyLt x e) then some e else some x) none

/-- Hops to `dst` when the first link is trunk `n`, which both ends must report UP (R317). -/
def State.hopsVia (s : State) (dst : Half) (n : Nat) : Option Nat :=
  let t := s.trunk n
  let both := s.net.recs.any fun r => r.id == t.nbId && !r.withdrawn && r.links.any fun l => l.nbId == s.dev.id && l.state == 4
  if t.st == .up && both && s.net.recs.any (fun r => r.id == dst && !r.withdrawn) then (hopsTo (edges (s.net.recs.filter fun r => !r.withdrawn) 4) t.nbId dst).map (fun d => d + 1) else none

/-- The computed route: shortest in hops, lowest trunk on a tie, at most 255 links (R317, R318). -/
def State.computedRoute (s : State) (dst : Half) : Option (Nat × Nat) :=
  (upTo s.nTrunks).foldl (fun best n =>
    match s.hopsVia dst n, best with
    | some h, none => if h ≤ 255 then some (n, h) else none
    | some h, some (m, k) => if h < k then some (n, h) else some (m, k)
    | none, b => b) none

/-- The trunk a ROUTE_PREFER affinity names for a host whose origin device is `dst` (R129, R317). -/
def State.preferred (s : State) (dst : Half) : Option Nat :=
  [HostId.a, HostId.b].foldl (fun acc h =>
    match acc, (s.host h).bound with
    | some n, _ => some n
    | none, some (.trunk _ o) =>
      if o = dst then
        ((s.stok.affs.filter fun a => a.kind == 6 && a.opA.toNat == hCode h && (s.hopsVia dst a.opB.toNat).isSome).foldl
          (fun (best : Option Aff) a => match best with
            | some b => if b.weight < a.weight then some a else some b
            | none => some a) none).map (·.opB.toNat)
      else none
    | none, _ => none) none

/-- The trunk on which a frame of a class leaves for a device: a static route whose trunk is UP, else a preferred trunk,
else the computed route (R317). DEDUCED: a static route stands above a preference (notes/assumptions/7.md). -/
def State.route (s : State) (dst : Half) (cls : Nat) : Option Nat :=
  match s.net.routes.find? (fun r => r.2.1 == dst && bitOf r.2.2 cls && (s.trunk r.1).st == .up) with
  | some r => some r.1
  | none => if dst = 0 then none else match s.preferred dst with
    | some n => some n
    | none => (s.computedRoute dst).map (·.1)

/-- No record of the destination, no path over UP links, or one of more than 255 links: a static route makes no destination
reachable (R318). -/
def State.unreachable (s : State) (dst : Half) : Bool := dst == 0 || (s.computedRoute dst).isNone

/-! ### Whether a host's route stands -/

/-- The delivery route of a bound host is usable: its transport, and for a trunk host a route to its origin (R207). -/
def State.hostReachable (s : State) (h : HostId) : Bool :=
  match (s.host h).bound with
  | some (.trunk _ o) => !s.unreachable o
  | some _ => true
  | none => false

/-- The eligible host that the Stoker chooses for a source routed to "either" (R125). The hops of a trunk host are those of its
computed route; one without a computed route counts as 0 hops away, a DESIGN CHOICE (notes/assumptions/158.md). -/
def State.eitherHost (s : State) : HostId :=
  let loc (h : HostId) : Bool := match (s.host h).bound with | some (.trunk _ _) => false | _ => true
  let hops (h : HostId) : Nat := match (s.host h).bound with
    | some (.trunk _ o) => match s.computedRoute o with | some e => e.2 | none => 0
    | _ => 0
  match s.hostReachable .a, s.hostReachable .b with
  | true, false => .a
  | false, true => .b
  | false, false => s.stok.choice.getD .a
  | true, true => if loc .a then .a else if loc .b then .b else if hops .b < hops .a then .b else .a

/-- Keeps the choice current (R125). -/
def updateChoice (s : State) : State :=
  if s.hostReachable .a || s.hostReachable .b then modStok (fun k => { k with choice := some s.eitherHost }) s else s

/-! ### Egress (R303, R306, R323, R324) -/

/-- A Draxinto header without its CRC, then its CRC (R306). -/
def draxHeader (type cls : Nat) (credit replay : Bool) (src dst : Half) (hops queue : Nat) (seqn : Half) : List Byte :=
  let h := u8 (0x10 + type) ++ u8 (cls + 4 * b2n credit + 8 * b2n replay) ++ u16 src.toNat ++ u16 dst.toNat ++
    u8 hops ++ u8 0 ++ u8 queue ++ u8 0 ++ u16 seqn.toNat
  h ++ u32 (crc32c h).toNat

/-- Credit units of a frame: Ethernet header, Draxinto header and payload padded to 46 bytes, FCS (R303, R323). -/
def frameUnits (body : Nat) : Nat := (14 + (if body < 46 then 46 else body) + 4 + 255) / 256

/-- The next waiting frame of a class: the first, when the neighbour's grant covers it; a type without link credits does not wait
for one that lacks them. Frames of a class leave in order, so the items of a queue do (R310, R323, R329). Data frames leave on a link
that is UP; those that wait when it becomes BLOCKED wait on (R314, R319; notes/assumptions/174.md). -/
def Trunk.nextOf (t : Trunk) (c : Nat) : Option Egress :=
  let first := t.egress.find? fun e => e.cls == c && e.units != 0
  t.egress.find? fun e => e.cls == c &&
    (e.units == 0 || (t.st == .up && first == some e && decide (e.units ≤ t.grant.getD c 0)))

/-- Class A frames go before class B frames, and those before class C frames (R324). -/
def egressNext (t : Trunk) : Option (Egress × List Egress) :=
  ((t.nextOf 0).or ((t.nextOf 1).or (t.nextOf 2))).map fun e => (e, t.egress.erase e)

/-- The MAC address of a device (R303). -/
def macOf (id : Half) : List Byte := [0x02, 0, 0, 0] ++ (u16 id.toNat).reverse

/-- The frame on the wire: addresses, EtherType, header and payload padded to 46 bytes, and the FCS, inverted on a frame whose FCS
proved wrong as it passed (R303, R307). The neighbour's address is known while it is recorded. -/
def State.frameBytes (s : State) (n : Nat) (e : Egress) : List Byte :=
  let t := s.trunk n
  let dst := if e.bcast || !t.st.linked then List.replicate 6 0xFF#8 else macOf t.nbId
  let h := dst ++ macOf s.dev.id ++ (u16 t.cfg.etherType.toNat).reverse ++ e.body ++ List.replicate (46 - e.body.length) 0#8
  h ++ u32 (if e.bad then ~~~crc32 h else crc32 h).toNat

/-- A frame starts on a trunk; it is not interrupted (R324). -/
def beginFrame (n : Nat) (e : Egress) (s : State) : State :=
  modTrunk n (fun t => { t with sending := some e, tx := t.tx + 1 }) (emit (.frame n (s.frameBytes n e)) s)

def startEgress (n : Nat) (s : State) : State :=
  match (s.trunk n).sending, egressNext (s.trunk n) with
  | none, some (e, rest) => beginFrame n e (modTrunk n (fun t => { t with egress := rest }) s)
  | _, _ => s

/-- Puts a frame on a trunk's egress and starts it if the link is idle. -/
def enqueueEgress (n : Nat) (e : Egress) (s : State) : State :=
  startEgress n (modTrunk n (fun t => { t with egress := t.egress ++ [e] }) s)

/-- A class A frame in transit is forwarded cut-through: the egress is idle and the neighbour's class A grant covers 17 units. Its
own units are charged when it ends (R324). -/
def State.cutsThrough (s : State) (n cls : Nat) : Bool :=
  cls == 0 && (s.trunk n).sending.isNone && decide (17 ≤ (s.trunk n).grant.getD 0 0)

/-- Sends a frame that originates here toward a device, if a route exists; data frames go on a link that the device treats as UP
(R319). -/
def sendRouted (type cls : Nat) (credit replay : Bool) (dst : Half) (queue : Nat) (seqn : Half) (payload : List Byte)
    (s : State) : State :=
  match s.route dst cls with
  | some n =>
    let body := draxHeader type cls credit replay s.dev.id dst 0 queue seqn ++ payload
    enqueueEgress n { cls := cls, units := frameUnits body.length, body := body } s
  | none => s

/-- The sequences of COMMAND and of REPLY frames, each counted per source device (R309). -/
def nextCmdSeq (s : State) : State := modNet (fun t => { t with cmdSeq := t.cmdSeq + 1 }) s
def nextReplySeq (s : State) : State := modNet (fun t => { t with replySeq := t.replySeq + 1 }) s
/-- A REPLY frame toward a device. -/
def sendReply (cls : Nat) (dst : Half) (bytes : List Byte) (s : State) : State :=
  nextReplySeq (sendRouted 2 cls false false dst 0 (s.net.replySeq + 1) bytes s)

/-! ### Delivery of queues over trunks -/

/-- The origin device to which a queue's items go by trunk, if its owner is bound by trunk (R327). -/
def State.pairDest (s : State) (r : Queue) : Option Half :=
  match (s.host r.owner).bound with
  | some (.trunk _ o) => some o
  | _ => none

/-- The class of a data queue's DELIVERY frames now (R310). -/
def State.deliveryClass (s : State) (q : Nat) (r : Queue) : Nat :=
  let feeds c := s.ctxs.any (fun e => e.2.bound && e.2.queue == q && e.2.cls == c)
  let can := s.cans.any (fun e => e.2.objs.any (fun o => o.2.dir == 1 && o.2.queue == q))
  if r.st == .replay then 2 else if feeds 0 then 0 else if feeds 1 || can then 1 else 2

/-- Items that have come to the front of the queue and may leave: the head where the middle is spilled (R326). -/
def State.frontItems (s : State) (r : Queue) : List Item := if s.spills r && !r.mid.isEmpty then r.head else r.items

/-- Removes the first item: from the head, with the refill that follows where the middle is in payload SRAM (R182). -/
def State.dropFront (s : State) (r : Queue) : Queue :=
  match r.head with
  | _ :: rest => ({ r with head := rest } : Queue).settle (s.spills r)
  | [] => r

/-- A queue delivers in FLOW and REPLAY only (R208). -/
def Queue.delivers (r : Queue) : Bool := r.st == .flow || r.st == .replay

/-- Removes the items that a credit record shows admitted, counting those delivered in REPLAY. -/
def State.admitItems (s : State) : Nat → Queue → Queue
  | 0, r => r
  | n + 1, r =>
    s.admitItems n (s.dropFront { r with replayed := if r.st == .replay then r.replayed + 1 else r.replayed })

/-- Sends items of a pair against the window that the receiver granted (R328, R329). The class changes once no item that was sent,
before the pair began again too, waits for its admission (R310). -/
def pumpPair (q : Nat) (dst : Half) : Nat → State → State
  | 0, s => s
  | fuel + 1, s =>
    let r0 := s.queue q
    let cls := if 8 ≤ q then s.deliveryClass q r0 else 1
    let out := sat r0.count r0.pair.out
    let r := { r0 with pair := { r0.pair with out := out, cls := if out = 0 then cls else r0.pair.cls } }
    match (s.frontItems r)[r.pair.sent]? with
    | some i =>
      if r.delivers && decide (r.pair.sent < r.pair.window) && (s.route dst r.pair.cls).isSome &&
          (r.rate == 0 || r.st != .replay || decide (r.rateAt ≤ s.dev.monoNs)) then
        let sq := r.pair.admitted + BitVec.ofNat 16 (r.pair.sent + 1)
        let r' := { r with pair := { r.pair with sent := r.pair.sent + 1, out := if out ≤ r.pair.sent then r.pair.sent + 1 else out },
                           rateAt := if r.rate = 0 then 0 else s.dev.monoNs + i.size * 1000000 / r.rate }
        pumpPair q dst fuel (sendRouted (if 8 ≤ q then 4 else 3) r.pair.cls false i.isReplay dst q sq
          (i.header ++ i.payload) (setQueue q r' s))
      else s
    | none => s

/-- A reply waits to leave as a REPLY frame (R240); the slot it held becomes free. -/
def pumpReplies (q : Nat) (dst : Half) : Nat → State → State
  | 0, s => s
  | fuel + 1, s =>
    let r := s.queue q
    match r.head with
    | i :: _ =>
      if r.delivers && (s.route dst 2).isSome then
        let r1 := s.dropFront { r with replayed := if r.st == .replay then r.replayed + 1 else r.replayed }
        pumpReplies q dst fuel (sendReply i.cls dst i.payload (setQueue q r1 s))
      else s
    | [] => s

/-- Sends what a queue may send over a trunk; in a reduced state the device originates no delivery (R334). -/
def pump (q : Nat) (s : State) : State :=
  let r := s.queue q
  if r.out || decide (q < 4) || s.dev.phase == .kindling || s.dev.power == .service then s
  else match s.pairDest r with
    | some dst =>
      if dst = 0 then s
      else if q < 6 then pumpReplies q dst r.count s else pumpPair q dst r.count s
    | none => s

/-! ### Credit to origin queues (R328) -/

/-- The body of a queue credit record. -/
def creditBody (admitted : Half) (window : Nat) (reset : Bool) : List Byte :=
  u16 admitted.toNat ++ u16 window ++ u8 (b2n reset) ++ [0, 0, 0]

/-- The window that a receiving queue can grant one pair: 256 for class S; for class L within the free slots and the free
spill quota, beside what other pairs into it still hold, and none while it is full (R328). -/
def State.window (s : State) (r : Queue) (others : Nat) : Nat :=
  if !r.isL then 256
  else if r.full then 0
  else
    let room := r.depth - r.count - r.reserve - others
    let spill := if s.spills r then r.spillFree / 4112 - others else room
    sat 256 (if room < spill then room else spill)

/-- The device originates no delivery and grants no queue credit: Kindling mode and SERVICE (R334, R335). -/
def State.reduced (s : State) : Bool := s.dev.phase == .kindling || s.dev.power == .service

/-- Sends a credit record for IN data queue `q` to the device it takes from; the reset flag stays until a record leaves (R331). -/
def sendCredit (q : Nat) (s : State) : State :=
  let r := s.queue q
  if r.srcDev = 0 || s.reduced then s
  else
    let w := s.window r 0
    let p := { r.pair with since := 0, granted := w, fresh := r.pair.fresh && (s.route r.srcDev 0).isNone }
    let s1 := setQueue q { r with pair := p } s
    sendRouted 4 0 true false r.srcDev r.srcQ 0 (creditBody p.inAdm w r.pair.fresh) s1

/-- Windows that the event pairs into a host's event queue still hold, less one device's. -/
def State.evGranted (s : State) (h : HostId) (dev : Half) : Nat :=
  sumBy (fun e => if e.host == h && e.dev != dev then e.pair.granted - e.pair.since else 0) s.net.evPairs

/-- Sends a credit record for the event pair of device `dev` and host `h`. -/
def sendEvCredit (h : HostId) (dev : Half) (s : State) : State :=
  match (if s.reduced then none else s.net.evPairs.find? fun e => e.host == h && e.dev == dev) with
  | none => s
  | some e =>
    let w := s.window (s.queue (6 + hCode h)) (s.evGranted h dev)
    let p := { e.pair with since := 0, granted := w, fresh := e.pair.fresh && (s.route dev 0).isNone }
    let s1 := modNet (fun t => { t with evPairs := t.evPairs.map fun x =>
      if x.host == h && x.dev == dev then { x with pair := p } else x }) s
    sendRouted 4 0 true false dev (6 + hCode h) 0 (creditBody p.inAdm w e.pair.fresh) s1

/-- After the free space of a receiving queue grew, the pairs into it are granted again. -/
def creditAgain (q : Nat) (s : State) : State :=
  if q = 6 ∨ q = 7 then
    foldS (s.net.evPairs.filter fun e => e.host == hostOf (q % 2) && e.pair.granted == e.pair.since)
      (fun e t => sendEvCredit e.host e.dev t) s
  else if (s.queue q).srcDev != 0 && (s.queue q).isL && (s.queue q).pair.granted == (s.queue q).pair.since then sendCredit q s
  else s

end Sys2Proof.Machine
end

