-- ==== Sys2Proof/Machine/Events.lean ====
section
/-!
DEFINITION. Events (R486, R530, R198), pushes into queues with the events of R199, route changes of queues (R207, R208),
and the marks that lower layers leave for the fault collector.
-/
namespace Sys2Proof.Machine

/-! ### Payloads -/

/-- An 8-byte event: code, byte 2, byte 3, bytes 4 to 7. -/
def ev8 (code b2 b3 w : Nat) : List Byte := u16 code ++ u8 b2 ++ u8 b3 ++ u32 w

/-- A signed 32-bit detail. -/
def s32 (v : Int) : Nat := (v % 4294967296).toNat

/-! ### Pins -/

/-- Sets the pending bit of event source `src` for a host (R486, R530). -/
def pinEvent (src : Nat) (h : HostId) (s : State) : State := setSqc (aEvtPend h (src / 16)) [src % 16] s

/-- The hosts to which EVT_CFG routes a source (R486, R125). -/
def State.routed (s : State) (src : Nat) : List HostId :=
  match s.evRoute src with
  | 1 => [.a]
  | 2 => [.b]
  | 3 => [.a, .b]
  | 4 => [s.eitherHost]
  | _ => []

def pinRouted (src : Nat) (s : State) : State :=
  if s.evPin src then foldS (s.routed src) (pinEvent src) s else s

/-- IRQ_N of a host is low while any pending bit is set (R530); in a reset it is released (R491). -/
def State.irqLow (s : State) (h : HostId) : Bool :=
  s.dev.phase != .off && s.dev.phase != .reset && (upTo 16).any fun k => !(s.sq (aEvtPend h k)).bits.isEmpty

/-! ### A changed queue, fixed queues -/

/-- The codes of Table — Queue event codes that a change of the stored items causes. -/
def queueEvents (old new : Queue) (newGap : Option Nat) : List (Nat × Nat × Nat) :=
  (if old.isEmpty && !new.isEmpty then [(0x0300, 0, 1)] else []) ++
  (if !old.full && new.full then [(0x0301, b2n new.isL, new.count)] else []) ++
  (match newGap with | some c => [(0x0302, c, 0)] | none => [])

/-- An instance with a bound host in USB suspend drives remote wake when a reply or event item arrives (R250). -/
def wakeInstance (q : Nat) (s : State) : State :=
  match (s.host (hostOf (q % 2))).bound with
  | some (.svc i) => if (s.inst i).suspended && (s.inst i).rwEnable then emit (.svcRemoteWake i) s else s
  | _ => s

/-- Stores a queue's new record with full recomputed (R190, R196), and answers the events of the change. -/
def storeQueue (q : Nat) (new : Queue) (newGap : Option Nat) (s : State) : State × List (Nat × Nat × Nat) :=
  let old := s.queue q
  let s1 := setQueue q new s
  let new' := { new with full := s1.fullNow q new }
  (setQueue q new' s, queueEvents old new' newGap)

/-- A push into Q0 to Q7, which signal by pin only (R199), the stamp kept (R330). -/
def pushKept (q : Nat) (i : Item) (s : State) : State :=
  let p := s.pushInto q (s.queue q) i
  let (s1, evs) := storeQueue q p.q p.newGap { s with free := s.free + i.extents }
  let s2 := if evs.isEmpty then s1 else pinRouted (168 + q) s1
  pump q (if decide (4 ≤ q) then wakeInstance q s2 else s2)

/-- A push of an EVENT, REPLY or COMMAND item, stamped as it enters the tail (R179). -/
def pushFixed (q : Nat) (i : Item) (s : State) : State := pushKept q { i with stamp := s.time.now } s

/-! ### In-band events -/

/-- An EVENT item of source EVn (R178). -/
def eventItem (src : Nat) (payload : List Byte) : Item :=
  { noneItem with typ := 3, source := BitVec.ofNat 32 (0x40000000 + src), payload := payload }

/-- Writes held events, then resumes paused sources with EVENTS_LOST once 1,024 slots are free (R198). -/
def drainHeld (h : HostId) : Nat → State → State
  | 0, s => s
  | fuel + 1, s =>
    let q := s.queue (6 + hCode h)
    let r := s.host h
    match r.heldEvents with
    | i :: rest =>
      if q.full then s else drainHeld h fuel (pushFixed (6 + hCode h) i (setHost h { r with heldEvents := rest } s))
    | [] =>
      if !r.paused ∨ q.full ∨ q.depth - q.count < 1024 then s
      else
        let s1 := pushFixed (6 + hCode h) (eventItem 0 (ev8 0x0307 0 (hCode h) r.lostEvents))
          (setHost h { r with lostEvents := 0, paused := false } s)
        if s.evPin 0 then pinEvent 0 h s1 else s1

/-- An in-band event enters the host's event queue, is held, or is not posted: with 256 held the sources pause (R198). -/
def storeEvent (h : HostId) (i : Item) (s : State) : State :=
  let r := s.host h
  if r.paused then setHost h { r with lostEvents := sat 0xFFFFFFFF (r.lostEvents + 1) } s
  else if (s.queue (6 + hCode h)).full || !r.heldEvents.isEmpty then
    setHost h { r with heldEvents := r.heldEvents ++ [i], paused := decide (256 ≤ r.heldEvents.length + 1) } s
  else pushFixed (6 + hCode h) i s

/-- Whether Mboter, or the ROM in Kindling mode, can post in band now (R485, R334). -/
def State.posting (s : State) : Bool := s.dev.phase == .ready || s.dev.phase == .kindling

/-- The in-band part of an event: at once, or held until Mboter reports ready (R485). -/
def deliverEvent (h : HostId) (i : Item) (s : State) : State :=
  if s.posting then storeEvent h i s else { s with fltWait := s.fltWait ++ [(hOwner h, i)] }

/-- Posts an event of source EVn under EVT_CFGn (R486). -/
def post (src : Nat) (payload : List Byte) (s : State) : State :=
  let s1 := pinRouted src s
  if s.evInband src then foldS (s.routed src) (fun h => deliverEvent h (eventItem src payload)) s1 else s1

/-- Posts an event with a fixed target (R486). -/
def postTo (src : Nat) (h : HostId) (payload : List Byte) (s : State) : State :=
  deliverEvent h (eventItem src payload) (if s.evPin src then pinEvent src h s else s)

/-! ### Data queues -/

/-- Posts queue events of a queue: Q8 to Q63 in band, the fixed queues by pin (R199). -/
def postQueue (q : Nat) (evs : List (Nat × Nat × Nat)) (s : State) : State :=
  if q < 8 then (if evs.isEmpty then s else pinRouted (168 + q) s)
  else foldS evs (fun e => post (168 + q) (ev8 e.1 q e.2.1 e.2.2)) s

/-- A pop found the queue empty: underrun, and Q_UNDERRUN where it sets from 0 (R190, R191, R199). -/
def markUnderrun (q : Nat) (s : State) : State :=
  let s1 := setSqc (aQueStatus q) [11] s
  if s.sqBit (aQueStatus q) 11 then s1 else postQueue q [(0x0306, 0, 0)] s1

/-- Stores a queue's new record, posts its events, and lets what waits on the queue go on. -/
def putQueue (q : Nat) (new : Queue) (newGap : Option Nat) (s : State) : State :=
  let old := s.queue q
  let (s1, evs) := storeQueue q new newGap s
  let s2 := pump q (postQueue q evs s1)
  if old.full && !(s2.queue q).full then creditAgain q s2 else s2

/-- full of every queue follows what the other queues and the Peat store leave it (R183, R190, R196). -/
def refreshFull (s : State) : State :=
  foldS (s.queues.map fun e => e.1) (fun q t =>
    let r := t.queue q
    if r.full = t.fullNow q r then t else putQueue q r none t) s

/-- Pushes an item into any queue (R193, R196, R208, R209). -/
def pushItem (q : Nat) (i : Item) (s : State) : State :=
  if q < 8 then pushKept q i s
  else
    let p := s.pushInto q (s.queue q) i
    let s1 := if p.bits.isEmpty then s else setSqc (aQueStatus q) p.bits s
    putQueue q p.q p.newGap { s1 with free := s1.free + i.extents }

/-- REPLAY ends (R208). -/
def replayCheck (q : Nat) (s : State) : State :=
  let r := s.queue q
  if r.replayDone then
    pump q (postQueue q [(0x0305, 0, r.replayed)] (setQueue q { r with st := .flow, rate := 0, rateAt := 0 } s))
  else s

/-- Drops oldest items while a class S queue in FLIGHT holds more than its window (R209). -/
def State.trimFlight (s : State) (window : Nat) : Nat → Queue → Bool → Queue × Bool
  | 0, r, g => (r, g)
  | n + 1, r, g =>
    if r.count ≤ window then (r, g)
    else match s.dropOldest r with
      | none => (r, g)
      | some (t, _, new) => s.trimFlight window n t (g || new)

/-- The route of a queue is lost (R208, R209). -/
def enterFlight (q : Nat) (s : State) : State :=
  let r := s.queue q
  if r.out || r.st == .disabled || r.st == .flight then s
  else
    let r1 := { r with st := .flight, pair := { r.pair with sent := 0 } }
    let (r2, g) := if r.isL then (r1, false) else s.trimFlight (if r.flight = 0 then r.depth else r.flight) r.count r1 false
    let s1 := postQueue q [(0x0303, 0, r.count)] (setQueue q r1 s)
    if g then putQueue q r2 (some 2) (setSqc (aQueStatus q) [10] s1) else putQueue q r2 none s1

/-- The route of a queue is restored (R208); Q4 to Q7 replay by themselves (R207). -/
def restoreRoute (q : Nat) (s : State) : State :=
  let r := s.queue q
  if r.st != .flight then s
  else
    let st := if decide (q < 8) || r.auto then QState.replay else QState.held
    let s1 := postQueue q [(0x0304, st.code, r.flagged)] (setQueue q { r with st := st, replayed := 0 } s)
    replayCheck q (pump q s1)

/-- The queues whose route is the binding of a host: its fixed Q4 to Q7 and the IN data queues it owns (R207). -/
def State.routeQueues (s : State) (h : HostId) : List Nat :=
  [4 + hCode h, 6 + hCode h] ++
  ((upTo 64).filter fun q => decide (8 ≤ q) && (s.queue q).owner == h && !(s.queue q).out && (s.queue q).st != .disabled)

def flightHost (h : HostId) (s : State) : State := foldS (s.routeQueues h) enterFlight s
def restoreHost (h : HostId) (s : State) : State := foldS (s.routeQueues h) restoreRoute s

/-- After the routes changed: queues of trunk hosts follow UNREACHABLE (R207, R318), and X sends again what was not
admitted (R329); the choice of R125 is renewed. -/
def followRoutes (s : State) : State :=
  let one (h : HostId) (t : State) : State :=
    match (t.host h).bound with
    | some (.trunk _ o) => if t.unreachable o then flightHost h t else restoreHost h t
    | _ => t
  updateChoice (one .b (one .a s))

/-- Queue `q`'s unadmitted items are sent again (R329). -/
def resend (q : Nat) (s : State) : State :=
  let r := s.queue q
  pump q (setQueue q { r with pair := { r.pair with sent := 0 } } s)

/-! ### The Ash log's buffer (R488, R489) -/

/-- An entry passes to the Lichen island; one that finds 16 entries waiting is lost. -/
def ashPut (e : AshEntry) (s : State) : State :=
  modLich (fun l =>
    if 16 ≤ l.ash.buffer.length then { l with ash := { l.ash with lost := satAdd l.ash.lost 1 } }
    else { l with ash := { l.ash with buffer := l.ash.buffer ++ [e] } }) s

/-- TIME at an occurrence, 0 if it was never set; the Lichen island's copy while the time unit is off (R448, R488). -/
def State.ashTime (s : State) : DWord :=
  if s.timeOn then (if s.time.set then s.time.now else 0) else s.lich.timeCopy.getD 0

/-- A record of Table — Ash log records. -/
def ashRecord (code detail : Nat) (s : State) : State :=
  ashPut { time := s.ashTime, source := BitVec.ofNat 16 code, sub := 0, level := 0, injected := false, escalated := false,
           kind := 3, detail := BitVec.ofNat 32 detail } s

/-! ### The power state (R455, R473) -/

def powerEvent (code a b w : Nat) (s : State) : State := post 6 (ev8 code a b w) s

/-- A change of power state: POWER_STATE, and state_change of DEV_STATE. -/
def setPower (new : PowerState) (cause : Nat) (s : State) : State :=
  if s.dev.power == new then s
  else powerEvent 0x0060 new.code s.dev.power.code cause (setSqc aDevState [8] (modDev (fun d => { d with power := new }) s))

/-! ### Marks for the fault collector (R480) -/

/-- An occurrence reaches the collector. -/
def raise (source sub : Nat) (s : State) : State := { s with fltIn := s.fltIn ++ [.raise source sub 0 false] }
def raiseAt (source sub : Nat) (detail : Word) (s : State) : State :=
  { s with fltIn := s.fltIn ++ [.raise source sub detail false] }
/-- The condition of an active fault ends (R483). -/
def clearFlt (source sub : Nat) (s : State) : State := { s with fltIn := s.fltIn ++ [.clear source sub] }

end Sys2Proof.Machine
end

