-- ==== Sys2Proof/Machine/Cmd.lean ====
section
/-!
DEFINITION. Commands (R217 to R224, R242, R256, R262, R263, R267, R269): acceptance, replies, completion, records, order,
and how a packet from any transport comes to run.
-/
namespace Sys2Proof.Machine

/-! ### Status codes (R225) -/

def stOk : Nat := 0x0000
def stAccepted : Nat := 0x0001
def stAlready : Nat := 0x0002
def stDeferred : Nat := 0x0003
def stBadOpcode : Nat := 0x0010
def stBadParam : Nat := 0x0011
def stBadCheck : Nat := 0x0012
def stAbsent : Nat := 0x0013
def stSemBusy : Nat := 0x0014
def stNotOwner : Nat := 0x0015
def stBudget : Nat := 0x0016
def stCapacity : Nat := 0x0017
def stAborted : Nat := 0x0018
def stTimeout : Nat := 0x0019
def stLocked : Nat := 0x001A
def stKindling : Nat := 0x001B
def stUnreach : Nat := 0x001C
def stUnsupp : Nat := 0x001D

/-! ### Semaphores -/

/-- The mask of semaphores that a host holds (R226, R259). -/
def State.semMask (s : State) (h : HostId) : Nat :=
  maskOf ((upTo 32).filter fun n => (s.sem n).owner == hOwner h)
def State.sem0 (s : State) (h : HostId) : Bool := (s.sem 0).owner == hOwner h

/-- Changes the owner of a semaphore; the sequence of its group advances on every change (R239). A new hold of SEM0 starts
the count of R233 anew. -/
def setOwner (n owner : Nat) (s : State) : State :=
  if (s.sem n).owner = owner then s
  else
    let s1 := setSem n { s.sem n with owner := owner } s
    let s2 := bumpSeq (aSemOwner .b (n / 8)) (bumpSeq (aSemOwner .a (n / 8)) s1)
    if n = 0 then
      { s2 with hostA := { s2.hostA with forced := 0 }, hostB := { s2.hostB with forced := 0 },
                ops := s2.ops.map fun o => { o with counts := false } }
    else s2

/-! ### Commands as handlers see them -/

/-- An accepted command. -/
structure Cmd where
  host   : HostId
  via    : Via
  tag    : Half
  opcode : Nat
  flags  : Half
  params : List Byte

/-- What a handler answers: the final status with its result, ACCEPTED or DEFERRED_LOAD with the key of what it changes
and what it keeps, or ACCEPTED with the completion at once. -/
inductive Ans where
  | final (status : Nat) (result : List Byte)
  | running (status unit : Nat) (args : List Nat)
  | event (status : Nat) (result : List Byte)

/-- What *Command reference* says of an opcode: its length (checked unless 0 is given), whether the units it names are
present, the owners of the resources it changes, whether a parameter is invalid, and what it does. -/
structure CmdSpec where
  len     : Nat
  present : List Byte → State → Bool := fun _ _ => true
  owners  : List Byte → State → List Nat := fun _ _ => []
  bad     : Cmd → State → Bool := fun _ _ => false
  run     : Cmd → State → State × Ans

/-- Reserved fields that must be 0 (R265): offset and length of each. -/
def zeros (bs : List Byte) (fs : List (Nat × Nat)) : Bool := fs.all fun f => field bs f.1 f.2 == 0

/-- Keys of what a command changes (R269). -/
def keyPort (p : Nat) : Nat := 0x100000 + p
def keyCtx (e : Nat) : Nat := 0x200000 + e
def keyObj (c k : Nat) : Nat := 0x400000 + 128 * c + k
def keyUnit (t : Nat) : Nat := 0x600000 + t
def keyDev (n : Nat) : Nat := 0x700000 + n
def keySlot (n : Nat) : Nat := 0x800000 + n

/-- A running command holds a key. -/
def State.busyKey (s : State) (k : Nat) : Bool := s.ops.any fun o => o.started && o.unit == k
/-- What a running CAL_RUN holds: the ports that it names. -/
def keyCal : Nat := keyDev 0xA01
def State.busyPort (s : State) (p : Nat) : Bool :=
  s.busyKey (keyPort p) || s.ops.any fun o => o.started && o.unit == keyCal && (bitsOf 32 (field o.params 0 4)).contains p
def State.opAt (s : State) (k : Nat) : Option Op := s.ops.find? fun o => o.started && o.unit == k
def State.opOf (s : State) (h : HostId) (tag : Half) : Option Op := s.ops.find? fun o => o.host == h && o.tag == tag

/-- The numbers a running command keeps. -/
def setArgs (h : HostId) (tag : Half) (args : List Nat) (s : State) : State :=
  { s with ops := s.ops.map fun o => if o.host == h && o.tag == tag then { o with args := args } else o }

/-! ### Which opcodes are what -/

/-- Configuration commands (Table — Configuration commands) by opcode. -/
def configOps : List Nat :=
  [0x0003, 0x0007, 0x000B, 0x0400, 0x0402, 0x0403, 0x0700, 0x0702, 0x0800, 0x0902, 0x0A00, 0x0A01, 0x0B00, 0x0B01, 0x0B03,
   0x0B04]
/-- Those that need force: the configuration commands and SEC_PROVISION (R221 check 8, R296). -/
def needsForce (op : Nat) : Bool := configOps.contains op || op == 0x0B05
/-- The unbound set of R228. -/
def unboundSet : List Nat := [0x0008, 0x0001, 0x0004, 0x0002]
/-- Every opcode that exists, as last opcode of each group (R271 to R299). -/
def opcodeExists (op : Nat) : Bool :=
  let last := [(0x00, 0x0B), (0x01, 0x08), (0x02, 0x06), (0x03, 0x03), (0x04, 0x04), (0x05, 0x05), (0x06, 0x05), (0x07, 0x03),
    (0x08, 0x02), (0x09, 0x03), (0x0A, 0x02), (0x0B, 0x05)]
  last.any fun e => e.1 == op / 256 && decide (op % 256 ≤ e.2) && op != 0
/-- Opcodes in reduced states (R268). -/
def kindlingOps : List Nat :=
  [0x0001, 0x0002, 0x0004, 0x0005, 0x0006, 0x0008, 0x0009, 0x000A, 0x0701, 0x0900, 0x0903, 0x0B00, 0x0B01, 0x0B02]
def State.offered (s : State) (op : Nat) (params : List Byte) : Bool :=
  if s.dev.phase == .kindling then kindlingOps.contains op
  else if s.dev.power == .service then
    kindlingOps.contains op || op == 0x0801 || (op == 0x0501 && byteAt params 0 == 32)
  else true

/-! ### Packets -/

/-- Header bytes 0 to 11 of a packet (R217). -/
def head12 (opcode : Nat) (p : Packet) : List Byte :=
  u16 opcode ++ u16 p.tag.toNat ++ u16 p.paramLen.toNat ++ u16 p.destId.toNat ++ u16 p.srcHost.toNat ++ u16 p.flags.toNat

def packetBytes (opcode : Nat) (p : Packet) : List Byte := head12 opcode p ++ u32 p.crc.toNat ++ p.params

/-- The packet that delivered bytes spell; in a ring slot only 16 + param_len bytes are the packet (R237). -/
def parsePacket (via : Via) (bytes : List Byte) : Nat × Packet :=
  (field bytes 0 2,
   { via := via, delivered := bytes.length, tag := BitVec.ofNat 16 (field bytes 2 2),
     paramLen := BitVec.ofNat 16 (field bytes 4 2), destId := BitVec.ofNat 16 (field bytes 6 2),
     srcHost := BitVec.ofNat 16 (field bytes 8 2), flags := BitVec.ofNat 16 (field bytes 10 2),
     crc := BitVec.ofNat 32 (field bytes 12 4), params := (bytes.drop 16).take (field bytes 4 2) })

/-- A reply packet (R218). -/
def replyBytes (opcode : Nat) (tag : Half) (status : Nat) (cseq : Word) (result : List Byte) : List Byte :=
  let r := pad4 result
  let h := u16 opcode ++ u16 tag.toNat ++ u16 status ++ u16 r.length ++ u32 cseq.toNat
  h ++ u32 (crc32c (h ++ r)).toNat ++ r

/-- The host that a packet stands for: its port's host, its instance's bound host, else the host src_host names, host A
where it names none (R221 check 4, R245). -/
def State.boundTo (s : State) (v : Via) : Option HostId :=
  if s.hostA.bound == some v then some .a else if s.hostB.bound == some v then some .b else none
def State.senderOf (s : State) (p : Packet) : HostId :=
  match p.via with
  | .localPort h => h
  | .svc i =>
    match [HostId.a, HostId.b].find? (fun h => (s.host h).bound == some (.svc i)) with
    | some h => h
    | none => if p.srcHost = 0x000B#16 then .b else .a
  | .trunk _ _ => if p.srcHost = 0x000B#16 then .b else .a

/-! ### Replies (R222, R228) -/

/-- A REPLY item in the host's reply queue. -/
def replyItem (h : HostId) (urgent : Bool) (bytes : List Byte) : Item :=
  { noneItem with typ := 4, source := BitVec.ofNat 32 (0x50000000 + hCode h), payload := bytes, cls := if urgent then 1 else 2 }

def replyQueue (h : HostId) (urgent : Bool) (bytes : List Byte) (s : State) : State :=
  pushFixed (4 + hCode h) (replyItem h urgent bytes) s

/-- Returns a reply by the transport of the command: the reply queue for a local port or for the host bound there, a REPLY
frame, or the instance's buffer of 16 (R228, R229, R247). -/
def replyVia (via : Via) (h : HostId) (urgent : Bool) (bytes : List Byte) (s : State) : State :=
  if (s.host h).bound == some via then replyQueue h urgent bytes s
  else match via with
  | .localPort g => replyQueue g urgent bytes s
  | .trunk _ o => sendReply (if urgent then 1 else 2) o bytes s
  | .svc i => modInst i (fun r => { r with replies := r.replies ++ [{ replyItem h urgent bytes with stamp := s.time.now }] }) s

/-- Replies unless want_reply is 0 and the status is OK, ACCEPTED or DEFERRED_LOAD (R222). -/
def reply (via : Via) (h : HostId) (bound : Bool) (opcode : Nat) (tag flags : Half) (status : Nat) (cseq : Word)
    (result : List Byte) (s : State) : State :=
  if !flags.getLsbD 0 && (status == stOk || status == stAccepted || status == stDeferred) then s
  else
    let bytes := replyBytes opcode tag status cseq result
    if bound then replyQueue h (flags.getLsbD 2) bytes s else replyVia via h (flags.getLsbD 2) bytes s

/-! ### Final statuses (R220, R223, R267) -/

/-- Keeps the last 1,024 completion records, the result of the last 64. -/
def keepRecords (l : List DoneRec) : List DoneRec :=
  (l.take 64) ++ ((l.drop 64).take 960).map fun r => { r with result := none }

/-- A command of a host reaches a final status: the sequence advances and a record is kept, newest first. -/
def record (h : HostId) (opcode : Nat) (tag : Half) (status : Nat) (result : List Byte) (s : State) : State :=
  modHost h (fun r =>
    { r with cseq := r.cseq + 1,
             done := keepRecords ({ tag := tag, opcode := BitVec.ofNat 16 opcode, status := BitVec.ofNat 16 status,
                                    cseq := r.cseq + 1, result := some (pad4 result) } :: r.done) }) s

/-- The CMD_DONE payload (Table — Completion event payload). -/
def cmdDone (opcode : Nat) (tag : Half) (status : Nat) (cseq : Word) (result : List Byte) : List Byte :=
  let r := (pad4 result).take 224
  u16 0x0010 ++ u16 opcode ++ u16 tag.toNat ++ u16 status ++ u32 cseq.toNat ++ u16 r.length ++ [0, 0] ++ r

/-- Removes a command from the outstanding ones. -/
def dropOp (h : HostId) (tag : Half) (s : State) : State :=
  { s with ops := s.ops.filter fun o => !(o.host == h && o.tag == tag) }

/-- Takes a waiting command's item out of its queue (R231, R263). -/
def takeItem (o : Op) (s : State) : State :=
  let drop (q : Nat) (t : State) : State :=
    let r := t.queue q
    if r.items.any (fun i => field i.payload 2 2 == o.tag.toNat) then
      putQueue q ((r.ofPlaced (r.placed.filter fun x => field x.2.payload 2 2 != o.tag.toNat)).settle false) none t
    else t
  drop (2 * hCode o.host + 1) (drop (2 * hCode o.host) s)

/-- Counts a command with force that started during this hold of SEM0 (R233). -/
def countForced (o : Op) (s : State) : State :=
  if o.counts && s.sem0 o.host then modHost o.host (fun r => { r with forced := sat 255 (r.forced + 1) }) s else s

/-- Ends one outstanding command: a completion event if it has started, its reply if it has not (R38, R231, R267). -/
def endOp (o : Op) (status : Nat) (result : List Byte) (s : State) : State :=
  let s1 := record o.host o.opcode.toNat o.tag status result (countForced o (dropOp o.host o.tag s))
  let cs := (s1.host o.host).cseq
  if o.started then postTo 1 o.host (cmdDone o.opcode.toNat o.tag status cs result) s1
  else reply o.via o.host o.bound o.opcode.toNat o.tag o.flags status cs result (takeItem o s1)

/-- OP_ABORT commands that wait for the outcome of a command (R263, R264). -/
def State.aborters (s : State) (h : HostId) (tag : Half) : List Op :=
  s.ops.filter fun o => o.started && o.opcode == 0x0005#16 && o.host == h && o.args == [tag.toNat]

/-- An OP_ABORT that was decided late replies; it never replied ACCEPTED. -/
def endAborter (status : Nat) (result : List Byte) (o : Op) (s : State) : State :=
  let s1 := record o.host o.opcode.toNat o.tag status result (countForced o (dropOp o.host o.tag s))
  reply o.via o.host o.bound o.opcode.toNat o.tag o.flags status (s1.host o.host).cseq result s1

/-- A running command reaches its final status: completion won over any waiting OP_ABORT (R263, R264). -/
def finishOp (h : HostId) (tag : Half) (status : Nat) (result : List Byte) (s : State) : State :=
  match s.opOf h tag with
  | none => s
  | some o =>
    let s1 := endOp o status result s
    foldS (s.aborters h tag) (endAborter stAlready (u16 status ++ [0, 0] ++ u32 (s1.host h).cseq.toNat)) s1

/-- The abort wins at an abort point: the command ends ABORTED, the first OP_ABORT that waits ends OK (R263, R270). -/
def abortOp (h : HostId) (tag : Half) (result : List Byte) (s : State) : State :=
  match s.opOf h tag with
  | none => s
  | some o =>
    let s1 := endOp o stAborted result s
    match s.aborters h tag with
    | [] => s1
    | a :: rest =>
      foldS rest (endAborter stAlready (u16 stAborted ++ [0, 0] ++ u32 (s1.host h).cseq.toNat)) (endAborter stOk [] a s1)

/-- Ends the command that holds a key, if one does. -/
def finishKey (k status : Nat) (result : List Byte) (s : State) : State :=
  match s.opAt k with
  | some o => finishOp o.host o.tag status result s
  | none => s

/-- An OP_ABORT waits for this command. -/
def State.abortAsked (s : State) (h : HostId) (tag : Half) : Bool := !(s.aborters h tag).isEmpty

/-! ### Starting a command -/

/-- Marks an accepted command started. -/
def markStarted (o : Op) (s : State) : State :=
  { s with ops := s.ops.map fun x =>
      if x.host == o.host && x.tag == o.tag then
        { x with started := true, counts := x.flags.getLsbD 3 && s.sem0 x.host }
      else x }

/-- What a handler's answer does. -/
def answer (o : Op) (a : Ans) (s : State) : State :=
  match a with
  | .final status result =>
    match s.opOf o.host o.tag with
    | some x =>
      let s1 := record o.host o.opcode.toNat o.tag status result (countForced x (dropOp o.host o.tag s))
      reply o.via o.host x.bound o.opcode.toNat o.tag o.flags status (s1.host o.host).cseq result s1
    | none => s
  | .running status unit args =>
    let s1 := { s with ops := s.ops.map fun x =>
      if x.host == o.host && x.tag == o.tag then { x with unit := unit, args := args } else x }
    if o.opcode = 0x0005#16 ∨ o.opcode = 0x0901#16 then s1
    else reply o.via o.host o.bound o.opcode.toNat o.tag o.flags status 0 [] s1
  | .event status result =>
    finishOp o.host o.tag status result (reply o.via o.host o.bound o.opcode.toNat o.tag o.flags stAccepted 0 [] s)

/-- Mboter starts an accepted command; SEM0 is checked again for a configuration command and SEC_PROVISION (R256, R296). While its host
is bound on another transport, a command is not executed, whenever it was accepted (R226, R229). -/
def startOp (c : CmdSpec) (o : Op) (s : State) : State :=
  let s1 := markStarted o (takeItem o s)
  let b := (s.host o.host).bound
  if needsForce o.opcode.toNat && !s.sem0 o.host then answer o (.final stSemBusy []) s1
  else if b.isSome && b != some o.via then answer o (.final stLocked []) s1
  else
    let (s2, a) := c.run { host := o.host, via := o.via, tag := o.tag, opcode := o.opcode.toNat, flags := o.flags,
                           params := o.params } s1
    answer o a s2

/-- An ordered command may start once no earlier ordered command of its host is outstanding (R262); `ops` is in order of
acceptance. -/
def State.mayStart (s : State) (o : Op) : Bool :=
  !o.flags.getLsbD 1 ||
    (((s.ops.takeWhile fun x => !(x.host == o.host && x.tag == o.tag)).filter
      fun x => x.host == o.host && x.flags.getLsbD 1).isEmpty)

/-- A claim of a resource that has got another owner since the claim was accepted: the first claim taken from the queues wins
(R253). -/
def claimLost (c : Cmd) (owner : Nat) : Bool := !c.flags.getLsbD 3 && owner != 0 && owner != hOwner c.host

/-! ### Acceptance (R221) -/

/-- Checks 4 to 12 for a packet that is for this device: the status of the first that fails. -/
def State.acceptStatus (s : State) (op : Nat) (c : Option CmdSpec) (h : HostId) (p : Packet) : Option Nat :=
  let names := if p.srcHost = 0x000A#16 then some HostId.a else if p.srcHost = 0x000B#16 then some HostId.b else none
  let trunkShut := match p.via with | .trunk n _ => !(s.trunk n).cfg.accept | _ => false
  let force := p.flags.getLsbD 3
  let cmd : Cmd := { host := h, via := p.via, tag := p.tag, opcode := op, flags := p.flags, params := p.params }
  let rom : Bool := match p.via with | .trunk _ _ => s.dev.phase == .kindling | _ => false
  if rom then some stKindling
  else if trunkShut then some stNotOwner
  else if names != some h then some stBadParam
  else if (s.host h).bound.isSome && (s.host h).bound != some p.via then some stLocked
  else if (s.host h).bound.isNone && !unboundSet.contains op then some stNotOwner
  else match c with
  | none => some stBadOpcode
  | some c =>
    if !s.offered op p.params then some stKindling
    else if p.flags.toNat / 16 != 0 || (s.opOf h p.tag).isSome || (op == 0x0005 && p.flags.getLsbD 1) ||
      (needsForce op && !force) then some stBadParam
    else if force && !s.sem0 h then some stSemBusy
    else if !c.present p.params s then some stAbsent
    else if !force && (c.owners p.params s).any (fun o => o != 0 && o != hOwner h) then some stNotOwner
    else if p.params.length < c.len || c.bad cmd s then some stBadParam
    else none

/-- A packet that fails a check ends with its status; check 2 also raises CMD_CRC (R221). -/
def refuse (op : Nat) (h : HostId) (p : Packet) (status : Nat) (s : State) : State :=
  let s0 := if status = stBadCheck then raise 139 1 s else s
  let s1 := record h op p.tag status [] s0
  reply p.via h false op p.tag p.flags status (s1.host h).cseq [] s1

/-- A command that still owes its reply: it has not started, or its reply waits for its outcome (R222, R263). -/
def Op.owesReply (o : Op) : Bool := !o.started || o.opcode == 0x0005#16 || o.opcode == 0x0901#16
/-- Whether Q4 or Q5 can reserve one more reply slot (R197, R222). -/
def State.replySlot (s : State) (h : HostId) : Bool :=
  let q := s.queue (4 + hCode h)
  decide (q.count + (s.host h).fwd.length + (s.ops.filter fun o => o.host == h && o.owesReply).length + q.reserve < q.depth)

/-- A packet for another device is forwarded once a reply slot is reserved; without a route the forwarding device replies
UNREACHABLE, which is no completion (R242). A packet that came over a trunk keeps its own reply path. -/
def forward (op : Nat) (h : HostId) (p : Packet) (s : State) : State :=
  let cls := if p.flags.getLsbD 2 then 1 else 2
  if s.unreachable p.destId then reply p.via h false op p.tag p.flags stUnreach 0 [] s
  else
    let s1 := nextCmdSeq (sendRouted 1 cls false false p.destId 0 (s.net.cmdSeq + 1) (packetBytes op p) s)
    modHost h (fun r => { r with fwd := r.fwd ++ [(p.tag, p.destId)] }) s1

/-- Where an accepted command waits: Q1 or Q3 when urgent (R35, R238). -/
def cmdQueue (h : HostId) (urgent : Bool) : Nat := 2 * hCode h + b2n urgent

/-- Room for one more command in a command queue (R39). -/
def State.cmdRoom (s : State) (q : Nat) : Bool := !(s.queue q).full

/-- Mboter takes a command of a host: the next choice between the two hosts' queues of its urgency falls to the other (R224). -/
def takenFrom (h : HostId) (urgent : Bool) (s : State) : State :=
  { s with lastA := if urgent then (s.lastA.1, h == .a) else (h == .a, s.lastA.2) }
/-- No accepted command waits that could start (R224). -/
def State.noneWaits (s : State) : Bool := s.ops.all fun x => x.started || !s.mayStart x

/-- An accepted command becomes outstanding. -/
def newOp (op : Nat) (h : HostId) (p : Packet) (s : State) : Op :=
  { host := h, via := p.via, tag := p.tag, opcode := BitVec.ofNat 16 op, flags := p.flags, params := p.params,
    bound := (s.host h).bound == some p.via }

/-- A COMMAND item (R178). -/
def commandItem (op : Nat) (h : HostId) (p : Packet) : Item :=
  { noneItem with typ := 5, source := BitVec.ofNat 32 (0x50000000 + hCode h), payload := packetBytes op p, via := some p.via }

/-- Acceptance of a packet (R221). `q`: enter the command into this queue for Mboter to take (R238, R245); `none`: Mboter
takes it at once, unless it must wait on order or behind another (R224, R262; notes/assumptions/8.md). -/
def enter (op : Nat) (c : Option CmdSpec) (q : Option Nat) (p : Packet) (s : State) : State :=
  let h := s.senderOf p
  if p.paramLen.toNat % 4 != 0 || decide (240 < p.paramLen.toNat) || p.delivered != 16 + p.paramLen.toNat ||
      p.params.length != p.paramLen.toNat then refuse op h p stBadParam s
  else if crc32c (head12 op p ++ p.params) != p.crc then refuse op h p stBadCheck s
  else if p.destId = 0 then refuse op h p stBadParam s
  else if p.destId != 0xFFFF#16 && p.destId != s.dev.id then forward op h p s
  else match s.acceptStatus op c h p, c with
  | some st, _ => refuse op h p st s
  | none, none => refuse op h p stBadOpcode s
  | none, some c =>
    let o := newOp op h p s
    let s1 := { s with ops := s.ops ++ [o] }
    match q with
    | some q => pushFixed q (commandItem op h p) s1
    | none =>
      if s1.mayStart o && s.noneWaits then startOp c o (takenFrom h (p.flags.getLsbD 2) s1)
      else pushFixed (cmdQueue h (p.flags.getLsbD 2)) (commandItem op h p) s1

/-- port_enable of HOSTx_CTRL (R237). -/
def State.portEnable (s : State) (h : HostId) : Bool := (s.cfgAt (aHostCtrl h)).getLsbD 16

/-- Whether the transport can bring a packet to Mboter or the ROM now: a local port while it is enabled, an instance while it is
attached; in Kindling mode and SERVICE state the service function is the only command transport (R237, R243), beside trunk packets
that the ROM answers or forwards (R334). -/
def State.hears (s : State) (v : Via) : Bool :=
  match s.dev.phase, v with
  | .ready, .localPort h => s.dev.power != .service && s.dev.power != .hibernate && s.portEnable h
  | .ready, .trunk _ _ => s.dev.power != .service
  | .kindling, .localPort _ => false
  | .kindling, .trunk _ _ => true
  | .ready, .svc i => (s.inst i).attached
  | .kindling, .svc i => (s.inst i).attached
  | _, _ => false

/-- A local ring of a host that is bound elsewhere: its commands are not executed (R229). -/
def State.bellRefused (s : State) (v : Via) : Bool :=
  match v with
  | .localPort h => (s.host h).bound.isSome && (s.host h).bound != some v
  | _ => false

/-- An earlier packet of the same transport still waits: for a local port, of the same ring (R238, R262). -/
def State.behind (s : State) (v : Via) (urgent : Bool) : Bool :=
  s.arrivals.any fun a => a.pkt.via == v && (match v with | .localPort _ => a.urgent == urgent | _ => true)

/-- A packet waits where its transport holds it: while Mboter restarts, in a ring that is not read, while its command queue is
full or no reply slot is free, and behind an earlier packet (R39, R197, R237, R262, R273, R332). -/
def State.mustWait (s : State) (p : Packet) : Bool :=
  let u := p.flags.getLsbD 2
  let h := s.senderOf p
  s.dev.phase == .warm ||
  (match p.via with
   | .localPort g => s.dev.phase == .ready && s.dev.power != .service && !s.portEnable g
   | _ => false) ||
  (s.hears p.via && (!s.replySlot h || !s.cmdRoom (cmdQueue h u) || s.behind p.via u))

/-- A command packet reaches the device. -/
def serve (op : Nat) (c : CmdSpec) (p : Packet) (s : State) : State :=
  if s.bellRefused p.via then
    match p.via with
    | .localPort h => setSqc (aRing h) [3] s
    | _ => s
  else if s.mustWait p then { s with arrivals := s.arrivals ++ [{ opcode := op, urgent := p.flags.getLsbD 2, pkt := p }] }
  else if !s.hears p.via then s
  else enter op (some c) none p s

end Sys2Proof.Machine
end

