-- ==== Sys2Proof/Machine/Hosts.lean ====
section
/-!
DEFINITION. Bindings, semaphores and rings of the two hosts (R226 to R239, R257 to R261).
-/
namespace Sys2Proof.Machine

/-- Binding kind, via and origin fields (Table — HOST_BIND layout). -/
def viaKind : Option Via → Nat
  | none => 0
  | some (.localPort _) => 1
  | some (.trunk _ _) => 2
  | some (.svc _) => 3
def viaNo : Option Via → Nat
  | some (.trunk n _) => n
  | some (.svc i) => i
  | _ => 0
def viaOrigin : Option Via → Nat
  | some (.trunk _ o) => o.toNat
  | _ => 0

/-- A new binding: HOST_BOUND to the other host if it is bound, routes restored, semaphores kept (R226, R233, R207, R261). -/
def bindHost (h : HostId) (v : Via) (wd : Nat) (s : State) : State :=
  let s1 := modHost h (fun r => { r with bound := some v, wdMs := wd, semTimer := false }) s
  let s2 := if (s.host (hOther h)).bound.isSome then
      postTo 2 (hOther h) (ev8 0x0050 (hCode h) (viaKind (some v)) (viaOrigin (some v))) s1
    else s1
  updateChoice (restoreHost h s2)

/-- Frees every semaphore of a host and posts SEM_RELEASED when any was held (R233, R261). -/
def releaseSems (h : HostId) (s : State) : State :=
  let mask := s.semMask h
  let forced := if s.sem0 h then (s.host h).forced else 0
  let s1 := foldS (upTo 32) (fun n t => if bitOf mask n then setOwner n 0 t else t)
    (modHost h (fun r => { r with semTimer := false }) s)
  if mask = 0 then s1 else postTo 246 (hOther h) (ev8 0x0052 (hCode h) forced mask) s1

/-- The commands of a host that are accepted and not started end ABORTED (R231). -/
def endWaiting (h : HostId) (s : State) : State :=
  foldS (s.ops.filter fun o => o.host == h && !o.started) (fun o t => finishOp h o.tag stAborted [] t) s

/-- The commands of a host whose binding is lost reply into its own queues from here on, those that have started and those that end now
(R231). -/
def ownReplies (h : HostId) (keep : Bool) (s : State) : State :=
  { s with ops := s.ops.map fun x => if x.host == h && (x.started || !keep) then { x with bound := true } else x }

/-- A binding is lost (R230, R231); HOST_BINDING_LOST for any cause but release (R474). `keep`: commands that wait are not
affected (R237). -/
def unbindHost (h : HostId) (cause : Nat) (keep : Bool) (s : State) : State :=
  match (s.host h).bound with
  | none => s
  | some _ =>
    let s1 := setSqc (aHostBind h) [17] (modHost h (fun r => { r with bound := none, lostCause := cause }) s)
    let s2 := if cause = 2 then s1 else raise 141 1 s1
    let s3 := if (s.host (hOther h)).bound.isSome then
        postTo 2 (hOther h) (ev8 0x0051 (hCode h) cause (s.host h).cseq.toNat) s2
      else s2
    let s4 := ownReplies h keep (flightHost h s3)
    let s5 := if keep then s4 else endWaiting h s4
    let s6 := if cause = 2 then releaseSems h s5 else modHost h (fun r => { r with semTimer := true }) s5
    updateChoice s6
def loseBinding (h : HostId) (cause : Nat) (s : State) : State := unbindHost h cause false s

/-- A transport that is gone ends the binding on it (R230 cause 3). -/
def loseVia (v : Via) (s : State) : State :=
  let one (h : HostId) (t : State) : State := if (t.host h).bound == some v then loseBinding h 3 t else t
  one .b (one .a s)

/-! ### Rings (R237, R238) -/

/-- Where a ring's slot lies in the mailbox RAM. -/
def slotAddr (h : HostId) (urgent : Bool) (idx : BitVec 8) : Nat :=
  match h, urgent with
  | .a, false => 0x20000 + 256 * (idx.toNat % 64)
  | .a, true => 0x24000 + 256 * (idx.toNat % 16)
  | .b, false => 0x25000 + 256 * (idx.toNat % 64)
  | .b, true => 0x29000 + 256 * (idx.toNat % 16)

end Sys2Proof.Machine
end

