-- ==== Sys2Proof/Machine/Trunks.lean ====
section
/-!
DEFINITION. Trunks: neighbour states, TOPOLOGY, rings, keepalives and credits, frames received, queue pairs at the
receiving side, and the trunk commands (R300 to R337).
-/
namespace Sys2Proof.Machine

/-! ### Events of a trunk (R336) -/

def linkEvent (n code a : Nat) (s : State) : State :=
  post (144 + 2 * n) (ev8 code n a (s.trunk n).nbId.toNat) s

/-- A frame error: FRAME_ERRORS counts the errors of a 10 ms interval and is posted at its end (R336). -/
def frameError (n what : Nat) (s : State) : State :=
  modTrunk n (fun t => { t with errCount := t.errCount + 1, errWhat := if t.errOpen then t.errWhat else what, errOpen := true }) s

/-- The end of the interval of FRAME_ERRORS. -/
def frameErrorsEnd (n : Nat) (s : State) : State :=
  let t := s.trunk n
  if t.errOpen then
    modTrunk n (fun t => { t with errOpen := false, errCount := 0 }) (post (145 + 2 * n) (ev8 0x0704 n t.errWhat t.errCount) s)
  else s

/-- Devices reached over UP links, this one left out, with their hops (R317). -/
def State.known (s : State) : List (Half × Nat) :=
  (distances (edges s.allTopo 4) s.dev.id).filter (fun e => e.1 != s.dev.id)

def postTopology (s : State) : State :=
  let known := (s.allTopo.drop 1).length
  let far := s.known.foldl (fun m e => if m < e.2 then e.2 else m) 0
  post 12 (ev8 0x0705 0 (sat 255 known) far) s

/-- TOPOLOGY_CHANGED, at most once per 10 ms (R336). -/
def topologyChanged (s : State) : State :=
  if s.net.tcOpen then modNet (fun t => { t with tcWait := true }) s
  else postTopology (modNet (fun t => { t with tcOpen := true, tcWait := false }) s)

def topologyIntervalEnd (s : State) : State :=
  if s.net.tcWait then postTopology (modNet (fun t => { t with tcWait := false }) s)
  else modNet (fun t => { t with tcOpen := false }) s

/-! ### What is sent on links -/

/-- Trunks of the device on which frames are accepted (R319). -/
def State.linkedTrunks (s : State) : List Nat := (upTo s.nTrunks).filter fun n => (s.trunk n).st.linked

/-- Sends a frame that uses no link credit, to the broadcast address (R303, R309). -/
def sendPlain (n : Nat) (body : List Byte) (s : State) : State :=
  enqueueEgress n { cls := 0, units := 0, body := body, bcast := true } s

/-- The header and payload of a KEEPALIVE (Table — KEEPALIVE payload). The destination of the types that the receiving neighbour
takes is 0xFFFF (R309). -/
def kaBody (k : KeepAlive) (seqn : Half) : List Byte :=
  draxHeader 5 0 false false k.id 0xFFFF 0 0 seqn ++
    (u16 k.id.toNat ++ u8 k.trunk ++
      u8 (b2n k.ring + 2 * b2n k.blocked + 4 * b2n k.kindling + 8 * b2n k.accepts + 16 * b2n k.locked) ++
      u64 k.uid.toNat ++ u16 k.freedA.toNat ++ u16 k.freedB.toNat ++ u16 k.freedC.toNat ++ u16 k.topoSeq.toNat)
/-- The header and payload of a TOPOLOGY record (Table — TOPOLOGY payload). -/
def topoBody (hops : Nat) (r : Topo) : List Byte :=
  draxHeader 6 0 false false r.id 0xFFFF hops 0 r.seqn ++
    (u16 r.id.toNat ++ u16 r.seqn.toNat ++ u64 r.uid.toNat ++ u8 (b2n r.withdrawn + 2 * b2n r.kindling) ++ u8 r.links.length ++ [0, 0] ++
      r.links.flatMap fun l => u16 l.nbId.toNat ++ u8 l.state ++ u8 (b2n l.ring))
/-- Floods a record on every linked trunk but one (R316). -/
def floodRec (except : Option Nat) (hops : Nat) (r : Topo) (s : State) : State :=
  foldS (s.linkedTrunks.filter fun n => except != some n) (fun n => sendPlain n (topoBody hops r)) s

/-- Floods the device's own record with the next sequence (R316). -/
def flood (s : State) : State :=
  let s1 := modNet (fun t => { t with seqn := t.seqn + 1 }) s
  floodRec none 0 s1.ownTopo s1

/-- The KEEPALIVE of a trunk (Table — KEEPALIVE payload). -/
def State.kaOf (s : State) (n : Nat) : KeepAlive :=
  let t := s.trunk n
  { id := s.dev.id, trunk := n, ring := t.cfg.ring, blocked := t.st == .blocked, kindling := s.dev.phase == .kindling,
    accepts := t.cfg.accept, locked := s.time.pps == .locked, uid := s.part.uid, freedA := t.freed.getD 0 0,
    freedB := t.freed.getD 1 0, freedC := t.freed.getD 2 0, topoSeq := s.net.seqn }

def sendKa (n : Nat) (s : State) : State :=
  sendPlain n (kaBody (s.kaOf n) ((s.trunk n).kaSeq + 1)) (modTrunk n (fun t => { t with kaSeq := t.kaSeq + 1, freedKa := t.freed }) s)

/-- A received frame has left its buffer: its units are free again, and an extra KEEPALIVE is sent when a quarter of the class's
units in force is (R302, R313, R323). -/
def freeCredit (n cls units : Nat) (s : State) : State :=
  let t := s.trunk n
  let freed := t.freed.set cls (t.freed.getD cls 0 + BitVec.ofNat 16 units)
  let s1 := setTrunk n { t with freed := freed } s
  if t.credits.getD cls 0 ≤ 4 * (freed.getD cls 0 - t.freedKa.getD cls 0).toNat then sendKa n s1 else s1

/-! ### Neighbour states (R314) and rings (R319, R320, R322) -/

/-- Sets a neighbour state: state_change in TRK_LINK, and the device floods its record (R316, R541). -/
def setNb (n : Nat) (b : Nb) (s : State) : State :=
  let s1 := setSqc (aTrk n) [13] (modTrunk n (fun t => { t with st := b }) s)
  flood s1

/-- The frames of a lost link's egress leave the buffers that they came in by, and frames that came in by the lost link occupy
no buffer any more (R323). -/
def releaseEgress (n : Nat) (s : State) : State :=
  let t := s.trunk n
  let forget (e : Egress) : Egress := if e.back == some n then { e with back := none } else e
  let s1 := foldS (t.egress ++ t.sending.toList) (fun e u => match e.back with
    | some m => if m = n then u else freeCredit m e.cls e.units u
    | none => u) s
  foldS (upTo s.nTrunks) (fun m u => modTrunk m (fun k => { k with egress := k.egress.map forget, sending := k.sending.map forget }) u) s1

/-- The link leaves BLOCKED or UP, or never was there (R314). -/
def loseLink (n cause : Nat) (b : Nb) (s0 : State) : State :=
  let s := releaseEgress n s0
  let t := s.trunk n
  let s1 := modTrunk n (fun t => { t with run := 0, missed := 0, heard := false, holdOver := false, egress := [], sending := none,
                                          loop := false }) s
  let s2 := if t.st.linked then linkEvent n 0x0701 cause s1 else s1
  setNb n b s2

/-- This device's own end of a link. -/
def State.ownEnd (s : State) (e : Edge) : Option Nat :=
  if e.lo == s.dev.id then some e.port
  else if e.hi == s.dev.id then (upTo s.nTrunks).find? (fun n => (s.trunk n).nbId == e.lo && (s.trunk n).nbTrunk == e.port)
  else none

/-- Makes a blocked link of this device UP (R319, R320). -/
def unblock (n : Nat) (s : State) : State :=
  if (s.trunk n).st == .blocked then startEgress n (setNb n .up (linkEvent n 0x0703 0 s)) else s

/-- Rewrites a link's state in the records that the device holds (R320). -/
def markUp (e : Edge) (recs : List Topo) : List Topo :=
  recs.map fun r =>
    if r.id == e.lo then
      { r with links := (numbered r).map fun x => if x.1 == e.port then { x.2 with state := 4 } else x.2 }
    else if r.id == e.hi then
      { r with links := r.links.map fun l => if l.nbId == e.lo && l.state == 3 then { l with state := 4 } else l }
    else r

/-- R320: a blocked link whose ends the UP links of `before` joined and those of now do not, becomes UP. -/
def repair (before : List Edge) : Nat → State → State
  | 0, s => s
  | fuel + 1, s =>
    let up := edges s.allTopo 4
    match pickKey true ((edges s.allTopo 3).filter fun e => (hopsTo before e.lo e.hi).isSome && (hopsTo up e.lo e.hi).isNone) with
    | none => s
    | some e =>
      let s1 := modNet (fun t => { t with recs := markUp e t.recs }) s
      match s1.ownEnd e with
      | some n => repair before fuel (unblock n s1)
      | none => repair before fuel s1

/-- The other end makes the link UP when its neighbour's record says so (R319). -/
def followPeer (n : Nat) (s : State) : State :=
  let t := s.trunk n
  if t.st == .blocked && s.net.recs.any (fun r => r.id == t.nbId && !r.withdrawn &&
      (numbered r).any (fun l => l.1 == t.nbTrunk && l.2.nbId == s.dev.id && l.2.state == 4)) then unblock n s else s

/-- The links that break the cycles of UP links: of each cycle the link with the highest key (R319). -/
def loopEdges : Nat → List Edge → List Edge
  | 0, _ => []
  | fuel + 1, up => match pickKey false (up.filter (inCycle up)) with
    | none => []
    | some e => e :: loopEdges fuel (up.erase e)

/-- A link of a cycle is blocked at this device's end, with TRK_LOOP (R319). -/
def blockLoop (e : Edge) (s : State) : State :=
  match s.ownEnd e with
  | none => s
  | some n =>
    let s1 := setSqc (aTrk n) [11] (raise (116 + n) 3 s)
    let s2 := post 12 (ev8 0x0707 n n (s.trunk n).nbId.toNat) s1
    setNb n .blocked (linkEvent n 0x0702 0 s2)

/-- The link of each cycle of UP links that has the highest key is blocked at once by its ends (R319). -/
def breakCycle (s : State) : State :=
  let up := edges s.allTopo 4
  foldS (loopEdges up.length up) blockLoop s

/-- A cycle closed by a link that is not flagged at both ends raises TRK_LOOP, once per link (R322). -/
def checkFlags (n : Nat) (s : State) : State :=
  let t := s.trunk n
  let up := edges s.allTopo 4
  let closes := (hopsTo up s.dev.id t.nbId).isSome
  if t.st == .blocked && closes && !t.loop && !(t.cfg.ring && t.nbRing) then
    let s1 := setSqc (aTrk n) [11] (raise (116 + n) 3 (modTrunk n (fun t => { t with loop := true }) s))
    post 12 (ev8 0x0707 n n t.nbId.toNat) s1
  else s

/-- What follows a change of records or of a neighbour state: repair, the peer's decisions, loops, routes, and sending
again on a changed route (R317 to R320, R329, R328). -/
def afterTopology (before : State) (s : State) : State :=
  let s1 := repair (edges before.allTopo 4) (edges s.allTopo 3).length s
  let s2 := foldS (upTo s.nTrunks) followPeer s1
  let s3 := foldS (upTo s.nTrunks) checkFlags (breakCycle s2)
  let s4 := followRoutes s3
  let again (q : Nat) (t : State) : State :=
    let r := t.queue q
    match t.pairDest r with
    | some o => if t.route o r.pair.cls != before.route o r.pair.cls then resend q t else t
    | none => t
  let s5 := foldS (upTo 64) (fun q t => if decide (4 ≤ q) && !(t.queue q).out then again q t else t) s4
  let credit (q : Nat) (t : State) : State :=
    let r := t.queue q
    if r.srcDev != 0 && before.unreachable r.srcDev && !t.unreachable r.srcDev then sendCredit q t else t
  let s6 := foldS (upTo 64) credit s5
  foldS s6.net.evPairs (fun e t =>
    if before.unreachable e.dev && !t.unreachable e.dev then sendEvCredit e.host e.dev t else t) s6

/-- Runs a change of neighbours or records and what follows from it. -/
def withTopology (f : State → State) (s : State) : State := afterTopology s (f s)

/-! ### PHY and neighbour events -/

def trunkPhyLinkUp (n : Nat) (s : State) : State :=
  let t := s.trunk n
  if s.hasTrunk n && t.st == .down && !t.phyBad then
    withTopology (fun s => setNb n .probing (modTrunk n (fun t => { t with run := 0, missed := 0 }) s)) s
  else s

/-- TRK_PHY (R300, R301, R541). -/
def trkPhy (n : Nat) (s : State) : State := setSqc (aTrk n) [12] (raise (116 + n) 4 s)
/-- TRK_PHY for a PHY that keeps its trunk DOWN (R301). -/
def phyFails (n : Nat) (s : State) : State := trkPhy n (modTrunk n (fun t => { t with phyBad := true }) s)

/-- The link is down, or counts as down (R300, R301, R314). -/
def trunkPhyLinkDown (n : Nat) (why : PhyDown) (s : State) : State :=
  if !s.hasTrunk n || (s.trunk n).st == .off then s
  else
    let s1 := if (s.trunk n).st.code ≥ 2 then withTopology (loseLink n 2 .down) s else s
    match why with
    | .noLink => s1
    | .mode => trkPhy n s1
    | .noAnswer => phyFails n s1

/-- Register 0 of a PHY: reset, auto-negotiation enable and restart, at the bits of Clause 22 (notes/assumptions/157.md). -/
def phyStart : Half := 0x9200
/-- The first MDIO access: register 0 is written and register 1 read; a PHY that does not answer is read three times (R301). -/
def tphyrstExpires (n : Nat) (answers : Bool) (s : State) : State :=
  if s.hasTrunk n && (s.trunk n).st != .off then
    let s1 := emit (.mdio n 1 none) (emit (.mdio n 0 (some phyStart)) s)
    if answers then modTrunk n (fun t => { t with phyBad := false }) s1
    else phyFails n (emit (.mdio n 1 none) (emit (.mdio n 1 none) s1))
  else s

def trunkPhyLinkTimeout (n : Nat) (s : State) : State :=
  if s.hasTrunk n && (s.trunk n).st == .down then phyFails n s else s

/-- Keepalives of every active trunk (R313); a period without one from the neighbour counts as missed and ends a run of
consecutive ones (R314). -/
def tkeepaliveTick (s : State) : State :=
  foldS (upTo s.nTrunks) (fun n t =>
    let k := t.trunk n
    if k.st.code ≥ 2 then
      sendKa n (modTrunk n (fun k => { k with missed := if k.heard then 0 else sat 0xFF (k.missed + 1),
                                              run := if k.heard then k.run else 0, heard := false }) t)
    else t) s

def keepaliveTimeout (n : Nat) (s : State) : State :=
  if s.hasTrunk n && (s.trunk n).st.linked then
    withTopology (fun s => loseLink n 1 .lost (raise (116 + n) 2 s)) s
  else s

def tlinkHoldExpires (n : Nat) (s : State) : State :=
  if s.hasTrunk n && (s.trunk n).st == .lost then modTrunk n (fun t => { t with holdOver := true }) s else s

/-- The neighbour's identity in the record of the trunk. -/
def learn (n : Nat) (ka : KeepAlive) (s : State) : State :=
  let t := s.trunk n
  let s1 := modTrunk n (fun t => { t with nbId := ka.id, nbUid := ka.uid, nbTrunk := ka.trunk, nbRing := ka.ring,
                                          nbBlocked := ka.blocked, nbAccepts := ka.accepts }) s
  if t.nbId = ka.id then s1 else bumpSeq (aTrk n + 4) s1

/-- The neighbour is established: full credits, NEIGHBOUR_UP, BLOCKED (R314, R323). The spec does not say how a device
learns its neighbour's units; the model takes its own configured units (notes/assumptions/9.md). -/
def establish (n : Nat) (ka : KeepAlive) (s : State) : State :=
  let s1 := learn n ka s
  let s2 := modTrunk n (fun t => { t with run := 0, missed := 0, grant := [t.cfg.credA, t.cfg.credB, t.cfg.credC],
                                          credits := [t.cfg.credA, t.cfg.credB, t.cfg.credC],
                                          nbFreed := [ka.freedA, ka.freedB, ka.freedC], egress := [], sending := none }) s1
  setNb n .blocked (linkEvent n 0x0700 0 (bumpSeq (aTrk n + 12) s2))

/-- Units that a KEEPALIVE returns (R323). -/
def returnCredit (n : Nat) (ka : KeepAlive) (s : State) : State :=
  let t := s.trunk n
  let f := [ka.freedA, ka.freedB, ka.freedC]
  let grant := (upTo 3).map fun c => t.grant.getD c 0 + (f.getD c 0 - t.nbFreed.getD c 0).toNat
  startEgress n (setTrunk n { t with grant := grant, nbFreed := f } (if grant = t.grant then s else bumpSeq (aTrk n + 12) s))

def keepaliveReceived (n : Nat) (ka : KeepAlive) (s0 : State) : State :=
  if !s0.hasTrunk n then s0
  else
    let s := modTrunk n (fun t => { t with rx := t.rx + 1 }) s0
    let t := s.trunk n
    match t.st with
    | .probing =>
      if t.run + 1 < 4 then modTrunk n (fun t => { t with run := t.run + 1, heard := true }) s
      else withTopology (establish n ka) s
    | .lost =>
      if !t.holdOver then s
      else if t.run + 1 < 4 then modTrunk n (fun t => { t with run := t.run + 1, heard := true }) s
      else withTopology (establish n ka) s
    | .blocked | .up =>
      if t.nbUid != ka.uid then s
      else
        let s1 := modTrunk n (fun t => { t with missed := 0, heard := true, nbRing := ka.ring, nbBlocked := ka.blocked,
                                                nbAccepts := ka.accepts }) s
        let s2 := returnCredit n ka s1
        if t.nbId = ka.id then s2 else withTopology (fun s => flood (learn n ka s)) s2
    | _ => s0

/-- R319: the lower end makes the blocked link with the lowest key that closes no cycle UP. -/
def tsettleExpires (n : Nat) (s : State) : State :=
  let t := s.trunk n
  let up := edges s.allTopo 4
  let free := (edges s.allTopo 3).filter fun e => (hopsTo up e.lo e.hi).isNone
  if s.hasTrunk n && t.st == .blocked && decide (s.dev.id.toNat < t.nbId.toNat) then
    match pickKey true free with
    | some e => if e.lo == s.dev.id && e.port == n then withTopology (unblock n) s else checkFlags n s
    | none => checkFlags n s
  else s

/-! ### TOPOLOGY records (R311, R312, R316) -/

/-- The device withdraws its ID after a conflict (R312). -/
def withdrawId (s : State) : State :=
  flood (setSqc aDevId [16] (modDev (fun d => { d with id := 0, withdrawn := true }) s))

/-- Records with the same ID and another unique_id are in conflict (R312). -/
def checkConflict (r : Topo) (s : State) : State :=
  let own := r.id == s.dev.id && r.uid != s.part.uid
  let held := s.net.recs.any fun x => x.id == r.id && x.uid != r.uid && !x.withdrawn
  if r.id = 0 ∨ r.withdrawn = true ∨ s.net.conflict.contains r.id = true then s
  else if own || held then
    let leave := own && decide (r.uid.toNat < s.part.uid.toNat)
    let s1 := post 12 (ev8 0x0706 0 (b2n leave) r.id.toNat) (raise 154 1 (modNet (fun t => { t with conflict := r.id :: t.conflict }) s))
    if leave then withdrawId s1 else s1
  else s

/-- A record is newer than the one held for its source; a withdrawn record of which none is held withdraws nothing and goes no
further (R316). -/
def State.newer (s : State) (r : Topo) : Bool :=
  match s.net.recs.find? (fun x => x.id == r.id && x.uid == r.uid) with
  | some x => decide (1 ≤ (r.seqn - x.seqn).toNat) && decide ((r.seqn - x.seqn).toNat ≤ 32767)
  | none => !r.withdrawn

def storeRec (r : Topo) (s : State) : State :=
  let rest := s.net.recs.filter fun x => !(x.id == r.id && (x.uid == r.uid || r.withdrawn))
  modNet (fun t => { t with recs := if r.withdrawn then rest else rest ++ [r] }) s

/-- A TOPOLOGY record arrives after some hops; a newer one goes on with one hop more (R308, R316). -/
def topologyReceived (n hops : Nat) (r : Topo) (s0 : State) : State :=
  let s := modTrunk n (fun t => { t with rx := t.rx + 1 }) s0
  if !s.hasTrunk n || !(s.trunk n).st.linked then s0
  else if r.uid == s.part.uid || !s.newer r then s
  else
    let same := s.net.recs.any fun x => x.id == r.id && x.uid == r.uid && x.links == r.links && x.kindling == r.kindling && !r.withdrawn
    let pass (t : State) : State := if hops < 255 then floodRec (some n) (hops + 1) r t else t
    let s1 := withTopology (fun s => storeRec r (checkConflict r (pass s))) s
    if same then s1 else topologyChanged s1

def ttopoAgeExpires (id : Half) (s : State) : State :=
  if s.net.recs.any (fun r => r.id == id) then
    topologyChanged (withTopology (modNet fun t => { t with recs := t.recs.filter (fun r => r.id != id),
                                                            conflict := t.conflict.filter (· != id) }) s)
  else s

/-- A new ID in use: KEEPALIVE with the new MAC address, own record, withdrawn record of the old ID, and the old MAC
address accepted for 10 ms (R272, R305). -/
def setDeviceId (id : Half) (s : State) : State :=
  let old := s.dev.id
  let s1 := modLich (fun l => { l with storedId := some id }) (modDev (fun d => { d with id := id, withdrawn := false }) s)
  if old = id then s1
  else
    let s2 := setSqc aDevId [16] (modDev (fun d => { d with oldMac := some old }) s1)
    let s3 := foldS s2.linkedTrunks sendKa s2
    let gone : Topo := { s.ownTopo with seqn := s.net.seqn + 1, withdrawn := true }
    withTopology (fun t => flood (floodRec none 0 gone t)) s3

/-! ### Frames received -/

/-- A frame in transit as it leaves: one hop more, and the header CRC computed again (R308). -/
def onward (type : Nat) (credit : Bool) (f : FrameHdr) (payload : List Byte) : List Byte :=
  draxHeader type f.cls credit f.replay f.src f.dst (f.hops + 1) f.queue f.seqn ++ payload

/-- A frame in transit leaves on its route with one hop more, cut-through or once it is stored, or is discarded (R308, R318, R324).
It occupies the receive buffer of the trunk it came by until it has left on the other (R323). -/
def forwardFrame (n type : Nat) (credit : Bool) (f : FrameHdr) (payload : List Byte) (s0 : State) : State :=
  let s := modTrunk n (fun t => { t with rx := t.rx + 1 }) s0
  let units := frameUnits (16 + payload.length)
  let drop (t : State) : State := frameError n 4 (modTrunk n (fun k => { k with discards := k.discards + 1 }) (freeCredit n f.cls units t))
  if 255 ≤ f.hops then drop s
  else match s.route f.dst f.cls with
    | none => drop s
    | some m =>
      let e : Egress := { cls := f.cls, units := units, body := onward type credit f payload, back := some n }
      if s.cutsThrough m f.cls then beginFrame m e s else enqueueEgress m e s

/-- A frame that passed cut-through whose FCS proved wrong after its transmission had started ends with an inverted FCS (R307). -/
def passBad (n : Nat) (x : Passing) (s : State) : State :=
  let f := x.hdr
  match s.route f.dst f.cls with
  | some m =>
    if f.hops < 255 && s.cutsThrough m f.cls then
      beginFrame m { cls := f.cls, units := frameUnits (16 + x.payload.length), body := onward x.type x.credit f x.payload, back := some n,
                     bad := true } s
    else s
  | none => s

/-- Counts a received data frame and frees its buffer; frames are accepted on every link in BLOCKED or UP (R319). -/
def takeFrame (n : Nat) (f : FrameHdr) (len : Nat) (s : State) : State :=
  freeCredit n f.cls (frameUnits (16 + len)) (modTrunk n (fun t => { t with rx := t.rx + 1 }) s)

/-- The destination MAC is the device's own, the broadcast address, or for 10 ms the address before a change of the ID (R304,
R305). -/
def State.macOk (s : State) (f : FrameHdr) : Bool :=
  match f.mac with
  | none => true
  | some d => d == s.dev.id || s.dev.oldMac == some d

/-- The frame is for this device: its ID, or the receiving neighbour (R309). -/
def State.forMe (s : State) (f : FrameHdr) : Bool := f.dst == 0xFFFF#16 || (f.dst == s.dev.id && s.dev.id != 0)

def replyFrameReceived (n : Nat) (f : FrameHdr) (bytes : List Byte) (s0 : State) : State :=
  if !s0.hasTrunk n || !(s0.trunk n).st.linked then s0
  else
    if !s0.forMe f then forwardFrame n 2 false f bytes s0
    else
      let s := takeFrame n f bytes.length s0
      let tag := BitVec.ofNat 16 (field bytes 2 2)
      let has (h : HostId) : Bool := (s.host h).fwd.contains (tag, f.src)
      let deliver (h : HostId) : State :=
        let s1 := replyQueue h (f.cls == 1) bytes (modHost h (fun r => { r with fwd := r.fwd.erase (tag, f.src) }) s)
        if field bytes 0 2 = 0x0008 ∧ (field bytes 4 2 = stOk ∨ field bytes 4 2 = stAlready) then
          let s2 := if s1.net.evPairs.any (fun e => e.dev == f.src && e.host == h) then s1
            else modNet (fun t => { t with evPairs := t.evPairs ++ [{ dev := f.src, host := h }] }) s1
          sendEvCredit h f.src s2
        else s1
      if has .a then deliver .a else if has .b then deliver .b else s

/-- The source word of a trunk delivery (R178). -/
def trunkSource (n : Nat) (f : FrameHdr) : Word :=
  BitVec.ofNat 32 (0x30000000 + n % 4 * 2 ^ 22 + f.queue % 64 * 2 ^ 16 + f.src.toNat)

/-- An item admitted in order; any other frame of the pair is discarded (R329). -/
def Pair.admits (p : Pair) (f : FrameHdr) : Bool := f.seqn == p.inAdm + 1 && decide (p.since < p.granted)
def Pair.takeOne (p : Pair) : Pair := { p with inAdm := p.inAdm + 1, since := p.since + 1 }

def eventFrameReceived (n : Nat) (f : FrameHdr) (i : Item) (s0 : State) : State :=
  if !s0.hasTrunk n || !(s0.trunk n).st.linked then s0
  else
    if !s0.forMe f then forwardFrame n 3 false f (i.header ++ i.payload) s0
    else
      let s := takeFrame n f (16 + i.payload.length) s0
      let h := hostOf (f.queue % 2)
      match s.net.evPairs.find? (fun e => e.dev == f.src && e.host == h) with
      | none => s
      | some e =>
        if e.pair.admits f && (f.queue == 6 || f.queue == 7) then
          let s1 := modNet (fun t => { t with evPairs := t.evPairs.map fun x =>
            if x.dev == f.src && x.host == h then { x with pair := x.pair.takeOne } else x }) s
          let s2 := pushKept (6 + hCode h) { i with source := trunkSource n f } s1
          if 32 ≤ e.pair.since + 1 then sendEvCredit h f.src s2 else s2
        else frameError n 3 s

/-- The IN queue that takes the items of a device's queue (R174, R327). -/
def State.pairQueue (s : State) (src : Half) (q : Nat) : Option Nat :=
  (upTo 64).find? fun k => decide (8 ≤ k) && (s.queue k).st != .disabled && !(s.queue k).out && (s.queue k).srcDev == src &&
    (s.queue k).srcQ == q

def deliveryFrameReceived (n : Nat) (f : FrameHdr) (i : Item) (s0 : State) : State :=
  if !s0.hasTrunk n || !(s0.trunk n).st.linked then s0
  else
    let s := takeFrame n f (16 + i.payload.length) s0
    if !s0.forMe f then forwardFrame n 4 false f (i.header ++ i.payload) s0
    else match s.pairQueue f.src f.queue with
      | none => s
      | some q =>
        let r := s.queue q
        if r.pair.admits f then
          let s1 := pushItem q { i with source := trunkSource n f } (setQueue q { r with pair := r.pair.takeOne } s)
          if 32 ≤ r.pair.since + 1 then sendCredit q s1 else s1
        else frameError n 3 s

/-- A queue credit record reaches the origin: admitted items leave the queue and more may be sent (R328, R329). Items that were sent
before the pair began to send again count too. -/
def takeCredit (q : Nat) (admitted : Half) (window : Nat) (reset : Bool) (s : State) : State :=
  let r := s.queue q
  let d := (admitted - r.pair.admitted).toNat
  if reset || !r.pair.heard then
    pump q (setQueue q { r with pair := { r.pair with admitted := admitted, sent := 0, out := 0, window := window, heard := true } } s)
  else if d ≤ r.pair.out then
    let r1 := s.admitItems d r
    replayCheck q (putQueue q { r1 with pair := { r.pair with admitted := admitted, sent := r.pair.sent - d, window := window,
                                                              out := r.pair.out - d } } none s)
  else s

def creditRecordReceived (n : Nat) (f : FrameHdr) (admitted : Half) (window : Nat) (reset : Bool) (s0 : State) : State :=
  if !s0.hasTrunk n || !(s0.trunk n).st.linked then s0
  else
    let s := takeFrame n f 8 s0
    if !s0.forMe f then forwardFrame n 4 true f (creditBody admitted window reset) s0
    else if 6 ≤ f.queue ∧ f.queue < 64 ∧ s.pairDest (s.queue f.queue) = some f.src then
      let s1 := takeCredit f.queue admitted window reset s
      if (f.queue = 6 ∨ f.queue = 7) then drainHeld (hostOf (f.queue % 2)) 257 s1 else s1
    else s

def te2eRetryExpires (q : Nat) (s : State) : State :=
  if q < 64 ∧ 6 ≤ q ∧ 0 < (s.queue q).pair.sent then resend q s else s

def tcreditExpires (q : Nat) (s : State) : State :=
  if q = 6 ∨ q = 7 then
    foldS (s.net.evPairs.filter fun e => e.host == hostOf (q % 2) && decide (0 < e.pair.since))
      (fun e t => sendEvCredit e.host e.dev t) s
  else if q < 64 ∧ 0 < (s.queue q).pair.since then sendCredit q s else s

/-- R333. -/
def timeFrameReceived (n : Nat) (ns : DWord) (locked : Bool) (s0 : State) : State :=
  if !s0.hasTrunk n || !(s0.trunk n).st.linked then s0
  else
    let s := modTrunk n (fun t => { t with rx := t.rx + 1 }) s0
    let own : Int := s.time.now.toNat / 1000000000
    let nb : Int := ns.toNat / 1000000000
    if s.time.pps == .locked && locked && own != nb then post 12 (ev8 0x0708 n n (s32 (nb - own))) s else s

def receivedFrameDiscarded (n : Nat) (why : Discard) (s : State) : State :=
  if !s.hasTrunk n then s
  else match why with
    | .headerCrc => frameError n 1 (raise (116 + n) 1 (modTrunk n (fun t => { t with hdrErrs := t.hdrErrs + 1 }) s))
    | .fcs x =>
      let s1 := frameError n 2 (modTrunk n (fun t => { t with fcsErrs := t.fcsErrs + 1, discards := t.discards + 1 }) s)
      (match x with
       | some x => if (s.trunk n).st.linked && !s.forMe x.hdr && s.macOk x.hdr then passBad n x s1 else s1
       | none => s1)
    | _ => modTrunk n (fun t => { t with discards := t.discards + 1 }) s

/-- A data frame with another destination MAC is discarded and counted (R304). -/
def atMac (n : Nat) (f : FrameHdr) (g : State → State) (s : State) : State :=
  if s.hasTrunk n && !s.macOk f then receivedFrameDiscarded n .dest s else g s

/-- A frame ends on an egress: its units are charged, the buffer that it came in by is free, and the next frame starts (R323,
R324). -/
def egressFrameEnd (n : Nat) (s : State) : State :=
  match (s.trunk n).sending with
  | none => s
  | some e =>
    let s1 := modTrunk n (fun t => { t with sending := none, grant := t.grant.set e.cls (t.grant.getD e.cls 0 - e.units) }) s
    let s2 := match e.back with | some m => freeCredit m e.cls e.units s1 | none => s1
    startEgress n (if e.units = 0 then s2 else bumpSeq (aTrk n + 12) s2)

/-! ### Configuration -/

/-- The trunk is turned off: PHY held in reset, NEIGHBOUR_LOST with cause 3 (R301, R314). -/
def trunkOff (n : Nat) (s : State) : State :=
  if (s.trunk n).st == .off then s else emit (.phyReset n true) (withTopology (loseLink n 3 .off) s)

/-- The trunk is enabled: its PHY leaves reset (R301, R314). -/
def trunkOn (n : Nat) (s : State) : State :=
  if (s.trunk n).st == .off then
    emit (.phyReset n false) (withTopology (fun t => setNb n .down (modTrunk n (fun k => { k with phyBad := false }) t)) s)
  else s

/-- The configuration that TRK_CONFIG names (R291, R302, R323). -/
def trkCfgOf (old : TrunkCfg) (ps : List Byte) : TrunkCfg :=
  let d (v dflt : Nat) : Nat := if v = 0 then dflt else v
  { iface := byteAt ps 1, ring := bitOf (byteAt ps 2) 0, accept := bitOf (byteAt ps 2) 1,
    etherType := if field ps 4 2 = 0 then old.etherType else BitVec.ofNat 16 (field ps 4 2),
    credA := d (byteAt ps 8) 32, credB := d (byteAt ps 9) 64, credC := d (byteAt ps 10) 128 }

def TrunkCfg.units (c : TrunkCfg) : Nat := c.credA + c.credB + c.credC

def trkConfigBad (c : Cmd) (s : State) : Bool :=
  let ps := c.params
  let n := byteAt ps 0
  let new := trkCfgOf (s.trunk n).cfg ps
  let cred v := v != 0 && decide (v < 17)
  !zeros ps [(3, 1), (6, 2), (11, 1)] || decide (2 < byteAt ps 1) || decide (3 < byteAt ps 2) || cred (byteAt ps 8) || cred (byteAt ps 9) ||
    cred (byteAt ps 10) ||
    decide (896 < sumBy (fun k => if k = n then new.units else (s.trunk k).cfg.units) (upTo s.nTrunks))

/-- Applies and saves a trunk's settings (R302, R314). -/
def applyTrk (n : Nat) (new : TrunkCfg) (s : State) : State :=
  let t := s.trunk n
  let s1 := modLich (fun l => { l with trunks := tset l.trunks n new }) (modTrunk n (fun t => { t with cfg := new }) s)
  if new.iface = 0 then trunkOff n s1
  else if t.st == .off then trunkOn n s1
  else if t.cfg.iface != new.iface || t.cfg.etherType != new.etherType then withTopology (loseLink n 2 .down) s1
  else if t.cfg.ring != new.ring then withTopology flood s1
  else s1

def trkConfigCmd : CmdSpec :=
  { len := 12, present := fun ps s => s.hasTrunk (byteAt ps 0), bad := trkConfigBad,
    run := fun c s =>
      let n := byteAt c.params 0
      if (s.trunk n).isolated || (s.flt 81).isolated then (s, .final stLocked [])
      else (applyTrk n (trkCfgOf (s.trunk n).cfg c.params) s, .final stOk []) }

def trkStatusCmd : CmdSpec :=
  { len := 4, present := fun ps s => s.hasTrunk (byteAt ps 0), bad := fun c _ => !zeros c.params [(1, 3)],
    run := fun c s =>
      let t := s.trunk (byteAt c.params 0)
      (s, .final stOk (u8 t.st.link ++ u8 t.st.code ++ u16 t.nbId.toNat ++ u32 t.tx.toNat ++ u32 t.rx.toNat ++
        u32 t.hdrErrs.toNat ++ u32 t.fcsErrs.toNat ++ u16 t.missed ++ [0, 0])) }

/-- Adds classes to a static route, or removes them (R291, R317). -/
def addRoute (n : Nat) (d : Half) (m : Nat) (l : List (Nat × Half × Nat)) : List (Nat × Half × Nat) :=
  if l.any (fun r => r.1 == n && r.2.1 == d) then
    l.map fun r => if r.1 == n && r.2.1 == d then (n, d, maskOf (bitsOf 3 m ++ bitsOf 3 r.2.2)) else r
  else l ++ [(n, d, m)]
def removeRoute (n : Nat) (d : Half) (m : Nat) (l : List (Nat × Half × Nat)) : List (Nat × Half × Nat) :=
  (l.map fun r => if r.1 == n && r.2.1 == d then (n, d, maskOf ((bitsOf 3 r.2.2).filter fun c => !bitOf m c)) else r).filter
    fun r => r.2.2 != 0

def trkRouteCmd : CmdSpec :=
  { len := 8, present := fun ps s => byteAt ps 0 == 2 || s.hasTrunk (byteAt ps 1),
    bad := fun c _ =>
      let ps := c.params
      !zeros ps [(5, 3)] || decide (2 < byteAt ps 0) ||
        (byteAt ps 0 != 2 && (field ps 2 2 == 0 || field ps 2 2 == 0xFFFF || byteAt ps 4 == 0 || decide (7 < byteAt ps 4))),
    run := fun c s =>
      let ps := c.params
      let d := BitVec.ofNat 16 (field ps 2 2)
      let new := match byteAt ps 0 with
        | 0 => addRoute (byteAt ps 1) d (byteAt ps 4) s.net.routes
        | 1 => removeRoute (byteAt ps 1) d (byteAt ps 4) s.net.routes
        | _ => []
      if 256 < new.length then (s, .final stCapacity (u16 s.net.routes.length))
      else (withTopology (modNet fun t => { t with routes := new }) s, .final stOk (u16 new.length)) }

/-- The shape of the network (R291, R322): ring when a blocked link is flagged at both ends, tree when a device has more
than two links, else chain. -/
def State.netShape (s : State) : Nat :=
  let all := edges s.allTopo 4 ++ edges s.allTopo 3
  if (edges s.allTopo 3).any (fun e => e.ring) then 1
  else if s.allTopo.any (fun r => decide (2 < (linkedTo all r.id).length)) then 2 else 0

/-- Devices by rising ID, with hops and the trunk of their route. -/
def State.discovered (s : State) : List (Half × Nat × Nat) :=
  (sortBy (fun a b => decide (a.1.toNat < b.1.toNat)) s.known).filterMap fun e =>
    (s.computedRoute e.1).map fun r => (e.1, e.2, r.1)

def trkDiscoverCmd : CmdSpec :=
  { len := 4, bad := fun c _ => !zeros c.params [(2, 2)],
    run := fun c s =>
      let all := s.discovered
      let out := (all.drop (field c.params 0 2)).take 54
      let far := all.foldl (fun m e => if m < e.2.1 then e.2.1 else m) 0
      let seg := pickKey true (edges s.allTopo 3)
      (s, .event stOk (u16 all.length ++ u8 s.netShape ++ u8 far ++
        u16 (match seg with | some e => e.lo.toNat | none => 0) ++ u8 (match seg with | some e => e.port | none => 0) ++
        u8 out.length ++ (out.map fun e => u16 e.1.toNat ++ u8 e.2.1 ++ u8 e.2.2).flatten)) }

end Sys2Proof.Machine
end

