-- ==== Sys2Proof/Machine/Contexts.lean ====
section
/-!
DEFINITION. Endpoint contexts: EPIDs and groups (R80, R81), intervals and phases (R97 to R100), wire cost and load over the
8,192 residues (R101 to R103), service states and reasons (R117, R118, R138), EP_SERVICE (R122), and the 64-byte image (R82).
-/
namespace Sys2Proof.Machine

/-! ### Names -/

/-- The port of an EPID and its group code port × 8 + group (R80, R81, R266). -/
def epPort (e : Nat) : Nat := e / 4096
def epGroup (e : Nat) : Nat := e / 512
def epid (p i : Nat) : Nat := 4096 * p + i

/-- The contexts of a port, of a group, of an instrument, with their EPIDs. -/
def State.portCtxs (s : State) (p : Nat) : List (Nat × Ctx) := s.ctxs.filter fun e => epPort e.1 == p
def State.groupCtxs (s : State) (g : Nat) : List (Nat × Ctx) := s.ctxs.filter fun e => epGroup e.1 == g
def State.instCtxs (s : State) (p a : Nat) : List (Nat × Ctx) :=
  s.ctxs.filter fun e => epPort e.1 == p && e.2.addr == a

/-- The engine that owns a group (R592); 0xFF stands for none. -/
def State.engineOf (s : State) (g : Nat) : Option Nat := tfind g s.stok.place

/-- Port bus events come from EV32 + n (R64); bus_event of PORT_BUS_STATUS is set (R538). -/
def portEvent (p code addr a b : Nat) (rec : List Byte) (s : State) : State :=
  post (32 + p) (u16 code ++ u8 p ++ u8 addr ++ u8 a ++ u8 b ++ [0, 0] ++ rec) (setSqc (aPort p) [9] s)

/-! ### Intervals (R97) -/

/-- floor(log2 n) for n up to 255. -/
def log2 (n : Nat) : Nat := ((upTo 8).filter fun k => decide (2 ^ k ≤ n)).length - 1

/-- interval_exp from the descriptor (R97). -/
def deriveExp (speed b : Nat) : Nat :=
  let b1 := if b = 0 then 1 else b
  if speed = 2 then sat 8 (sat 16 b1 - 1) else 3 + log2 (sat 255 b1)

/-- The period P in microframes, and the effective period of a class B context (R100). -/
def Ctx.period (c : Ctx) : Nat := 2 ^ c.exp
def Ctx.effPeriod (c : Ctx) : Nat := if c.cls = 1 then 2 ^ (c.exp + c.stretch) else 2 ^ c.exp
/-- The period by which admission counts a context: P for class A, 8 × P for class B (R101). -/
def Ctx.admPeriod (c : Ctx) : Nat := if c.cls = 1 then 8 * 2 ^ c.exp else 2 ^ c.exp
/-- A bound periodic context. -/
def Ctx.periodic (c : Ctx) : Bool := c.bound && c.active && decide (c.cls < 2)

/-- Whether a phase is allowed by the path to the instrument (R99). -/
def Ctx.phaseOk (c : Ctx) (exp p : Nat) : Bool :=
  decide (p < 2 ^ exp) && (c.speed == 2 || (if c.ttAddr = 0 then p % 8 == 0 else decide (p % 8 ≤ 4)))

/-! ### Wire cost (R102, R103) -/

def stuffed (d : Nat) : Nat := (7 * d + 5) / 6
def hsCost (d : Nat) : Nat := 30 + stuffed d
def flCost (d : Nat) : Nat := 14 + stuffed d
def preCost (d : Nat) : Nat := 8 * flCost d + 4

/-- Cost of one transaction of a context on its port's wire, by the speed of the port's root (R102). -/
def Ctx.cost (c : Ctx) (rootSpeed d : Nat) : Nat :=
  if rootSpeed = 2 then hsCost d else if c.speed = 0 ∧ rootSpeed = 1 then preCost d else flCost d

/-- Cost on the translator (R102). -/
def Ctx.ttCost (c : Ctx) : Nat := if c.speed = 0 then preCost c.maxPacket else flCost c.maxPacket

/-- The slots of one due period: offset, transactions, wire cost (R103). -/
def Ctx.slots (c : Ctx) (rootSpeed : Nat) : List (Nat × Nat × Nat) :=
  if c.ttAddr = 0 then [(0, 1 + c.mult, (1 + c.mult) * c.cost rootSpeed c.maxPacket)]
  else
    let ss := hsCost (if c.dirIn then 0 else c.maxPacket)
    let cs := hsCost (if c.dirIn then c.maxPacket else 0)
    [(0, 1, ss), (2, 1, cs), (3, 1, cs), (4, 1, cs)]

/-- Transactions and wire cost at a residue of G mod 8,192, for a period and phase. -/
def slotLoad (slots : List (Nat × Nat × Nat)) (period phase r : Nat) : Nat × Nat :=
  slots.foldl (fun acc o =>
    if (r + 8192 - o.1) % period = phase % period then (acc.1 + o.2.1, acc.2 + o.2.2) else acc) (0, 0)

/-- A context's load at a residue, as admission counts it (R101). -/
def Ctx.admLoad (c : Ctx) (rootSpeed r : Nat) : Nat × Nat := slotLoad (c.slots rootSpeed) c.admPeriod c.phase r
/-- A context's entries at a residue at its present period (R286). -/
def Ctx.entries (c : Ctx) (rootSpeed r : Nat) : Nat := (slotLoad (c.slots rootSpeed) c.effPeriod c.phase r).1

/-- The speed of a port's root as the wire cost sees it. -/
def State.rootSpeed (s : State) (p : Nat) : Nat := (s.port p).speed

/-- A sum over contexts at a residue. -/
def State.sumCtx (s : State) (f : Nat × Ctx → Bool) (g : Nat × Ctx → Nat) : Nat :=
  sumBy g (s.ctxs.filter fun e => e.2.periodic && f e)

/-- Device-wide transactions at a residue (R101). -/
def State.engineSum (s : State) (r : Nat) : Nat :=
  s.sumCtx (fun _ => true) fun e => (e.2.admLoad (s.rootSpeed (epPort e.1)) r).1
/-- Transactions and wire cost of one port at a residue. -/
def State.portCount (s : State) (p r : Nat) : Nat :=
  s.sumCtx (fun e => epPort e.1 == p) fun e => (e.2.admLoad (s.rootSpeed p) r).1
def State.portCost (s : State) (p r : Nat) : Nat :=
  s.sumCtx (fun e => epPort e.1 == p) fun e => (e.2.admLoad (s.rootSpeed p) r).2
/-- The eight residues of a frame. -/
def frameOf (r : Nat) : List Nat := (upTo 8).map fun k => r / 8 * 8 + k

/-- A context on the same translator: per hub if single-TT, per hub port if multi-TT (R101). -/
def sameTT (p : Nat) (c : Ctx) (e : Nat × Ctx) : Bool :=
  epPort e.1 == p && e.2.ttAddr == c.ttAddr && e.2.ttPort == c.ttPort && c.ttAddr != 0
/-- FS cost of a translator in a frame: the transaction counts in the frame of its start-split (R103). -/
def State.ttCost (s : State) (p : Nat) (c : Ctx) (r : Nat) : Nat :=
  s.sumCtx (sameTT p c) fun e =>
    sumBy (fun k => if k % e.2.admPeriod = e.2.phase % e.2.admPeriod then e.2.ttCost else 0) (frameOf r)
/-- Start-splits of a translator in a microframe. -/
def State.ttStarts (s : State) (p : Nat) (c : Ctx) (r : Nat) : Nat :=
  s.sumCtx (sameTT p c) fun e => if r % e.2.admPeriod = e.2.phase % e.2.admPeriod then 1 else 0

/-- The largest value over the 8,192 residues. -/
def peak (f : Nat → Nat) : Nat := (upTo 8192).foldl (fun m r => if m < f r then f r else m) 0

/-- Class A entries, and class A and B entries, of one group at a residue (R286). -/
def State.groupA (s : State) (g r : Nat) : Nat :=
  s.sumCtx (fun e => epGroup e.1 == g && e.2.cls == 0) fun e => e.2.entries (s.rootSpeed (epPort e.1)) r
def State.groupAll (s : State) (g r : Nat) : Nat :=
  s.sumCtx (fun e => epGroup e.1 == g) fun e => e.2.entries (s.rootSpeed (epPort e.1)) r
/-- The same of one engine. -/
def State.teGroups (s : State) (e : Nat) : List Nat := (s.stok.place.filter fun g => g.2 == e).map fun g => g.1
def State.teA (s : State) (e r : Nat) : Nat := sumBy (fun g => s.groupA g r) (s.teGroups e)
def State.teAll (s : State) (e r : Nat) : Nat := sumBy (fun g => s.groupAll g r) (s.teGroups e)
/-- A group carries class A load. -/
def State.hasA (s : State) (g : Nat) : Bool := s.ctxs.any fun e => epGroup e.1 == g && e.2.periodic && e.2.cls == 0

/-- Class A contexts that exist, and their limit (R84, R201). -/
def State.classA (s : State) : Nat := (s.ctxs.filter fun e => e.2.periodic && e.2.cls == 0).length
def State.residency (s : State) : Nat := if s.hasSdram && s.peatInUse then 12288 else 16384

/-- A context's image lies in control SRAM: every context without a Peat store, else the class A contexts and the cached ones
(R84). -/
def State.isResident (s : State) (e : Nat) (c : Ctx) : Bool :=
  !s.peatInUse || (c.periodic && c.cls == 0) || s.stok.cache.contains e
/-- Contexts that PLACE_HINT keeps in the cache: the first 2,048 RESIDENT affinities (R129). -/
def State.kept2048 (s : State) : List Nat := ((s.stok.affs.filter fun a => a.kind == 4).take 2048).map fun a => a.opA.toNat
/-- Control SRAM banks in service. -/
def State.ctrlBanks (s : State) : List Nat := (upTo 8).filter fun k => (s.cbank k).st == 0
/-- Cache entries for classes B and C: 4,096, less what banks out of service take away (R84, R167). Half of control SRAM holds
the 16,384 contexts of R84, the other half everything else (notes/assumptions/138.md). -/
def State.cacheRoomOf (s : State) (banks : Nat) : Nat := sat 4096 (4096 * banks - 16384 - s.classA)
def State.cacheRoom (s : State) : Nat := s.cacheRoomOf s.ctrlBanks.length
/-- An image is fetched from the Peat store into the cache. Which unhinted context gives up its entry when the cache is full is
a free choice. -/
def fetchCtx (e : Nat) (s : State) : State :=
  let keep := s.stok.cache.filter fun k => k != e && (match s.ctx k with | some c => !(c.periodic && c.cls == 0) | none => false)
  let put (l : List Nat) (t : State) : State := { t with stok := { t.stok with cache := l } }
  if keep.length < s.cacheRoom then put (keep ++ [e]) s
  else
    let out := keep.filter fun k => !s.kept2048.contains k
    match out[Config.freeNat s.free % out.length]? with
    | some k => put (keep.filter (· != k) ++ [e]) (useFree s)
    | none => put keep s

/-! ### Service states (R117, R118) -/

/-- The subtree of an instrument is suspended: the whole tree, or at a hub port above it (R67, R69). -/
def underHub (tree : List Inst) (susp : List (Nat × Nat)) : Nat → Nat → Bool
  | 0, _ => false
  | fuel + 1, a =>
    match tree.find? (fun i => i.addr == a) with
    | some i => susp.contains (i.parent, i.parentPort) || underHub tree susp fuel i.parent
    | none => false

def State.suspendedAt (s : State) (p a : Nat) : Bool :=
  let r := s.port p
  r.bus == .suspended || r.bus == .resuming || underHub r.tree r.suspHub 8 a

/-- The steps of each order that are in force (R153): heat steps in order 1 to 5; feed steps in the order 5, 6, 7, 1, 2, 3,
4. -/
def heatHas (l : Ledger) (step : Nat) : Bool := decide (step ≤ 5 ∧ 1 ≤ step ∧ step ≤ l.heat)
def feedOrder : List Nat := [5, 6, 7, 1, 2, 3, 4]
def feedHas (l : Ledger) (step : Nat) : Bool := (feedOrder.take l.feedStep).contains step

/-- Active deferral causes of a bound context, highest first (R118, R138). -/
def State.causes (s : State) (e : Nat) (c : Ctx) : List Nat :=
  let p := epPort e
  let bus := (s.port p).bus
  let queueFull := c.dirIn && (s.queue c.queue).isL && (s.queue c.queue).full
  (if c.recovering then [0x0B] else []) ++
  (if bus == .running || bus == .suspended || bus == .resuming || bus == .recovering || bus == .enumerating then [] else [0x0C]) ++
  (if s.stok.unplaced.contains (epGroup e) then [0x0D] else []) ++
  (if s.suspendedAt p c.addr then [0x08] else []) ++
  (if c.halted then [0x09] else []) ++
  (if c.xerr then [0x0A] else []) ++
  (if queueFull then [0x07] else []) ++
  (if c.cls = 2 ∧ c.devOwned = false then
    (if heatHas s.ledger 4 then [0x01] else []) ++ (if feedHas s.ledger 4 then [0x02] else []) else [])

/-- The reason of a stretched base state: the budget whose order took the step, HEAT when both did, else the engine
shortage of R108 (R156). -/
def State.stretchReason (s : State) (c : Ctx) : Nat :=
  if c.stretch ≤ s.ledger.stretchH then 0x01 else if c.stretch ≤ s.ledger.stretchF then 0x02 else 0x03

/-- Service state and reason of a context (R117, R118). -/
def State.service (s : State) (e : Nat) (c : Ctx) : Nat × Nat :=
  if !c.active then (7, 0)
  else if c.wait.isSome then (6, c.refuse)
  else if !c.bound then (0, c.refuse)
  else match s.causes e c with
    | r :: _ => (5, r)
    | [] => if c.cls = 1 ∧ c.stretch ≠ 0 then (1 + c.stretch, s.stretchReason c) else (1, 0)

/-- A bound context that no cause defers runs its slots; XACT_ERRORS alone keeps them running (R111). -/
def State.runs (s : State) (e : Nat) (c : Ctx) : Bool := (s.causes e c).all fun r => r == 0x0A

/-- The first grid count from `n` on that a phase gives. -/
def slotFrom (n period phase : Nat) : Word := BitVec.ofNat 32 (n + (phase + period - n % period) % period)

/-- The first grid count whose sublist a group's engine has yet to commit (R28, R29). -/
def State.openSlot (s : State) (g : Nat) : Nat := s.time.g.toNat + (if s.stok.lists.any (fun l => l.group == g) then 2 else 1)

/-- The next slot of a phase that can still be prepared for a group (R119). -/
def State.nextDue (s : State) (g period phase : Nat) : Word := slotFrom (s.openSlot g) period phase

/-- Counts every context whose service state or reason changed since it was last seen (R122), for EP_SERVICE. Of several that
change in one step the first is the one with the lowest EPID: a DESIGN CHOICE (notes/assumptions/139.md). -/
def noteService (s : State) : State :=
  foldS s.ctxs (fun x t =>
    match t.ctx x.1 with
    | none => t
    | some c =>
      let v := t.service x.1 c
      if v = c.seen then t
      else
        let due := t.nextDue (epGroup x.1) c.effPeriod c.phase
        let t1 := setCtx x.1 { c with seen := v, nextDue := if c.seen.1 = 5 then due else c.nextDue } t
        modPort (epPort x.1) (fun r =>
          { r with svcEps := if r.svcEps.contains x.1 then r.svcEps else r.svcEps ++ [x.1],
                   svcReason := if r.svcEps.isEmpty then v.2 else r.svcReason }) t1) s

/-- Takes a change of contexts as reported by its command: EP_SERVICE does not count it (R122). -/
def quiet (es : List Nat) (s : State) : State :=
  foldS es (fun e t => match t.ctx e with
    | some c => setCtx e { c with seen := t.service e c } t
    | none => t) s

/-- Posts the merged EP_SERVICE of a port (R122). -/
def postService (p : Nat) (s : State) : State :=
  let r := s.port p
  if r.svcEps.isEmpty then s
  else
    portEvent p 0x0110 0 (sat 255 r.svcEps.length) r.svcReason []
      (modPort p (fun r => { r with svcEps := [], svcReason := 0, svcOpen := true }) s)

/-- Mboter runs, or restarts with its events queued (R32). -/
def State.posts (s : State) : Bool := s.dev.phase == .ready || s.dev.phase == .warm

/-- Posts EP_SERVICE on every port that has a change and whose interval of 1 ms is over; changes before Mboter is ready wait. -/
def flushService (s : State) : State :=
  if s.posts then foldS (upTo s.nPorts) (fun p t => if (t.port p).svcOpen then t else postService p t) s else s

/-- The interval of EP_SERVICE ends. -/
def serviceEnd (p : Nat) (s : State) : State :=
  if (s.port p).svcEps.isEmpty then modPort p (fun r => { r with svcOpen := false }) s else postService p s

/-! ### The image (R82) -/

def Ctx.epByte (c : Ctx) : Nat := c.ep % 16 + 16 * b2n c.dirIn + 32 * (c.type % 4)
def Ctx.modeByte (c : Ctx) : Nat :=
  c.speed % 4 + 4 * (c.cls % 4) + 16 * b2n c.active + 32 * b2n c.devOwned + 64 * b2n c.bound + 128 * b2n c.halted

/-- Total wire cost and transactions per due period (bytes 44 to 47). A split context shows the sum of its start-split and its three
complete-splits: a DESIGN CHOICE (notes/assumptions/184.md). -/
def State.costWord (s : State) (e : Nat) (c : Ctx) : Nat :=
  let sl := c.slots (s.rootSpeed (epPort e))
  sumBy (fun o => o.2.2) sl % 65536 + sumBy (fun o => o.2.1) sl % 16 * 65536

def State.image (s : State) (e : Nat) (c : Ctx) : List Byte :=
  let v := s.service e c
  let x := s.xfers.find? fun x => x.epid == e
  u32 (e % 131072) ++ u8 (c.addr % 128) ++ u8 c.epByte ++ u8 c.modeByte ++ u8 (c.exp % 16 + 16 * (c.stretch % 4)) ++
  u16 (c.maxPacket % 2048 + 2048 * (c.mult % 4)) ++ u8 c.bInterval ++ u8 c.iface ++ u8 c.alt ++ u8 c.ttAddr ++ u8 c.ttPort ++
  u8 (c.queue % 64) ++ u8 v.1 ++ u8 v.2 ++ u16 (c.phase % 1024) ++ u32 c.nextDue.toNat ++
  u8 (b2n c.toggle + 2 * b2n c.ping + 4 * (c.split % 8) + 32 * (c.errCount % 4)) ++
  u8 ((s.engineOf (epGroup e)).getD 15 % 16) ++ u16 (sat 65535 c.nakRun) ++ u32 c.lastDone.toNat ++ u32 c.served.toNat ++
  u32 c.skipped.toNat ++ u32 c.errors.toNat ++ u32 (s.costWord e c) ++
  u32 (match x with | some x => x.handle | none => 0) ++ u32 (match x with | some x => x.left | none => 0) ++
  List.replicate 8 0

/-- The 8-byte entry of EP_LIST (R277). -/
def State.listEntry (s : State) (e : Nat) (c : Ctx) : List Byte :=
  u32 e ++ u8 c.epByte ++ u8 c.modeByte ++ u8 (s.service e c).1 ++ u8 (s.service e c).2

end Sys2Proof.Machine
end

