-- ==== Sys2Proof/Machine/Place.lean ====
section
/-!
DEFINITION. The Stoker: engines and spares (R124, R134), placement (R592), migrations (R126, R127, R139 to R145), cold
takeover (R138, R146), admission (R101 to R106, R135, R136), binding and unbinding, and evacuations (R166 to R168).
-/
namespace Sys2Proof.Machine

/-! ### Engines -/

/-- Present and not isolated (R124). -/
def State.available (s : State) (e : Nat) : Bool := s.hasEngine e && !(s.engine e).isolated
def State.engineList (s : State) : List Nat := (upTo s.nEngines).filter s.available
/-- A class A engine: available, with a group that carries class A load (R134). -/
def State.isA (s : State) (e : Nat) : Bool := s.available e && (s.teGroups e).any s.hasA
def State.aEngines (s : State) : List Nat := s.engineList.filter s.isA
def State.spares (s : State) : List Nat := s.engineList.filter fun e => !s.isA e
def State.capA (s : State) : Nat := (s.engineList.length - 2) * 512

/-- The state code of STOK_ENGINES (R535) and of PLACE_REPORT section 0 (R286). -/
def State.engState2 (s : State) (e : Nat) : Nat :=
  let r := s.engine e
  if !s.hasEngine e || r.isolated then 3 else if r.evac || r.testing then 2 else if r.gated then 1 else 0
def State.engState (s : State) (e : Nat) : Nat :=
  let r := s.engine e
  if !s.hasEngine e then 5 else if r.isolated then 4 else if r.testing then 3 else if r.evac then 2 else if r.gated then 1 else 0

/-- Changes an engine; STOK_ENGINES counts a change of what it shows (R535). -/
def changeEngine (e : Nat) (f : Engine → Engine) (s : State) : State :=
  let s1 := modEngine e f s
  if s1.engState2 e = s.engState2 e then s1 else bumpSeq aStokEngines s1

/-- Groups promised to an engine: by migrations that are not handed off and by orders that wait. -/
def State.inbound (s : State) (e : Nat) : List Nat :=
  ((s.stok.migs.filter fun m => m.dst == e && !m.handed).map fun m => m.group) ++
    (s.stok.orders.filter fun o => o.dst == e).map fun o => o.group
/-- The groups that an engine holds or has been promised. -/
def State.heldGroups (s : State) (e : Nat) : List Nat := (s.teGroups e ++ s.inbound e).eraseDups
/-- Where a group will be once what is promised has happened. -/
def State.destOf (s : State) (g : Nat) : Option Nat :=
  match s.stok.migs.find? (fun m => m.group == g && !m.handed), s.stok.orders.find? (fun o => o.group == g) with
  | some m, _ => some m.dst
  | none, some o => some o.dst
  | none, none => s.engineOf g
/-- Engines that will carry class A load, a group left out of account. -/
def State.plannedA (s : State) (but : Nat) : List Nat :=
  s.engineList.filter fun e => s.stok.place.any fun x => x.1 != but && s.destOf x.1 == some e && s.hasA x.1

/-- A group fits an engine beside what it holds and has been promised: 512 class A entries and 600 entries at every residue
(R130, R146). -/
def State.fits (s : State) (g e : Nat) : Bool :=
  let others := (s.heldGroups e).filter (· != g)
  (upTo 8192).all fun r =>
    decide (sumBy (fun k => s.groupA k r) (g :: others) ≤ 512) && decide (sumBy (fun k => s.groupAll k r) (g :: others) ≤ 600)

/-- The least of a list by a measure, the first on a tie. -/
def leastBy {α : Type} (f : α → Nat) (l : List α) : Option α :=
  l.foldl (fun b a => match b with | some x => if f a < f x then some a else some x | none => some a) none

/-- An engine that may take groups: available, neither leaving service nor under test. -/
def State.takes (s : State) (e : Nat) : Bool := s.available e && !(s.engine e).evac && !(s.engine e).testing

/-- Where a group without class A load goes: the engine not gated with the fewest groups and room, else the lowest gated
engine with room (R592). -/
def State.placeB (s : State) (g : Nat) : Option Nat :=
  let ok := s.engineList.filter fun e => s.takes e && s.fits g e
  match leastBy (fun e => (s.teGroups e).length) (ok.filter fun e => !(s.engine e).gated) with
  | some e => some e
  | none => ok.head?

/-- Where a class A group goes in a cold takeover: the lowest other class A engine that it fits, else the lowest spare that
it fits (R146). -/
def State.placeA (s : State) (g : Nat) : Option Nat :=
  ((s.aEngines.filter fun e => s.takes e && s.fits g e).head?).or ((s.spares.filter fun e => s.takes e && s.fits g e).head?)

/-- Bumps the sequence of TE_MIG_OUT and TE_MIG_IN (R540). -/
def bumpMig (m : Mig) (s : State) : State := bumpSeq (aTe m.dst + 12) (bumpSeq (aTe m.src + 8) s)

/-- Migrations in progress: a handoff completes one, and only the target's held pushes outlast it (R140, R144). -/
def State.moving (s : State) : List Mig := s.stok.migs.filter fun m => !m.handed

/-- The first context of a group, as an event names it. -/
def State.firstEpid (s : State) (g : Nat) : Nat := match s.groupCtxs g with | e :: _ => e.1 | [] => 512 * g

/-- Stoker and Ledger events (R165). -/
def stokEvent (code a b w : Nat) (s : State) : State := post 10 (ev8 code a b w) s

/-- The pin of a group (R130). -/
def State.pinOf (s : State) (g : Nat) : Option Pin := s.stok.pins.find? fun p => p.group == g

/-- PIN_DISPLACED: a pinned group goes to another engine while its pin's is unavailable or evacuated (R131). -/
def pinMoved (g e : Nat) (s : State) : State :=
  match s.pinOf g with
  | some p =>
    if p.eng != e && !s.takes p.eng && (s.engineOf g == some p.eng || (s.engineOf g).isNone) then
      setSqc aStok [10] (stokEvent 0x0402 p.eng e (s.firstEpid g) s)
    else s
  | none => s

/-- Contexts that waited for their group's handoff are due from their next slot (R136). -/
def settle (g : Nat) (s : State) : State :=
  foldS (s.groupCtxs g) (fun x t =>
    if x.2.moving then setCtx x.1 { x.2 with moving := false, nextDue := slotFrom (t.time.g.toNat + 1) x.2.effPeriod x.2.phase } t else t) s

/-- Puts a group on an engine, waking it if it is gated. -/
def putGroup (g e : Nat) (s : State) : State :=
  settle g (modStok (fun k => { k with place := tset k.place g e, unplaced := k.unplaced.filter (· != g) })
    (changeEngine e (fun r => { r with gated := false }) (pinMoved g e s)))

/-! ### Migrations -/

/-- A migration leaves the list: one not handed off ends so, a handed one after its drain marker or with its group. -/
def dropMig (g : Nat) (s : State) : State :=
  match s.stok.migs.find? (fun m => m.group == g) with
  | none => s
  | some m =>
    let s1 := modStok (fun k => { k with migs := k.migs.filter fun x => x.group != g }) s
    if m.handed then s1 else bumpMig m s1

/-- Migrations completed in the last second (R127). -/
def State.migWindow (s : State) : Nat := (s.stok.migTimes.filter fun t => decide (s.dev.monoNs < t + 1000000000)).length

/-- An order can be issued now: the migrations in progress count in the window that they will end in (R127, R145). -/
def State.canIssue (s : State) (o : Order) : Bool :=
  let running := s.moving.length
  s.dev.phase == .ready && decide (running < 4) && (decide (s.migWindow + running < 200) || o.prio == 1) &&
  s.stok.migs.all (fun m => m.group != o.group && (m.handed || (m.dst != o.dst && some m.src != s.engineOf o.group)))

/-- Issues waiting orders, highest priority first (R126). -/
def issueOrders : Nat → State → State
  | 0, s => s
  | fuel + 1, s =>
    let live := s.stok.orders.filter fun o => (s.engineOf o.group).isSome && s.engineOf o.group != some o.dst && s.takes o.dst
    match leastBy (fun o => o.prio) (live.filter s.canIssue) with
    | none => modStok (fun k => { k with orders := live }) s
    | some o =>
      let m : Mig := { group := o.group, src := (s.engineOf o.group).getD 0, dst := o.dst }
      issueOrders fuel (changeEngine o.dst (fun r => { r with gated := false })
        (bumpMig m (modStok (fun k => { k with orders := live.erase o, migs := k.migs ++ [m] }) s)))

/-- Adds an order for a group, one at a time (R145). A move for another reason ends the claim of a consolidated group on the engine
that it left (R128). -/
def addOrder (prio g dst : Nat) (s : State) : State :=
  if s.engineOf g = some dst ∨ s.stok.orders.any (fun o => o.group == g) = true then s
  else modStok (fun k =>
    { k with orders := k.orders ++ [{ prio := prio, group := g, dst := dst }],
             moved := if prio = 2 ∨ tfind g k.moved = some dst then k.moved else tdel k.moved g }) s
/-- The same outside a re-plan: what may be issued is. -/
def order (prio g dst : Nat) (s : State) : State := issueOrders 64 (addOrder prio g dst s)

/-- The pushes that the target of a handed-off migration holds are made, in order (R144). -/
def pushHeld (g : Nat) (s : State) : State :=
  foldS ((s.stok.migs.filter fun m => m.group == g && m.handed).flatMap fun m => m.pushes) (fun x t => pushItem x.1 x.2 t) s

/-- The group's last context is freed: the group holds no engine, and a migration of it is cancelled (R592, R145). The items that a
target holds are of transactions that completed: they enter their queues (R144). -/
def releaseGroup (g : Nat) (s : State) : State :=
  if (s.groupCtxs g).isEmpty then
    modStok (fun k => { k with place := tdel k.place g, unplaced := k.unplaced.filter (· != g), colds := k.colds.filter (·.group != g),
                               orders := k.orders.filter (·.group != g), lists := k.lists.filter (·.group != g),
                               moved := tdel k.moved g }) (dropMig g (pushHeld g s))
  else s

/-- The engine that a group's pin names, where it can take the group (R130). -/
def State.pinned (s : State) (g : Nat) : Option Nat :=
  match s.pinOf g with
  | some p => if s.takes p.eng && s.fits g p.eng then some p.eng else none
  | none => none

/-- Groups in the order of R138: descending shed rank of their port, lower port, lower group. -/
def State.byRank (s : State) (gs : List Nat) : List Nat :=
  sortBy (fun a b => decide ((s.port (b / 8)).rank < (s.port (a / 8)).rank) ||
    ((s.port (b / 8)).rank == (s.port (a / 8)).rank && decide (a < b))) gs

/-- ENGINE_CAPACITY_LOST (R138). -/
def capacityLost (s : State) : State := setSqc aStok [9] (raise 153 1 s)

/-- The first context of a group is allocated (R592, R130). A group that already carries class A load, as after a logic-die
reset, is placed as R146 and R138 place one. A group without class A load for which no engine has room stays on no engine, and
each re-plan tries again: a DESIGN CHOICE (notes/assumptions/140.md). While a warm restart holds placement a group waits for its end
(R32). -/
def claimGroup (g : Nat) (s : State) : State :=
  if s.dev.phase == .warm || (s.engineOf g).isSome || s.stok.unplaced.contains g then s
  else match (s.pinned g).or (if s.hasA g then s.placeA g else s.placeB g) with
    | some e => putGroup g e s
    | none => if s.hasA g then capacityLost (modStok (fun k => { k with unplaced := k.unplaced ++ [g] }) s) else s

/-- A group is taken over without its source (R146, R138, R592). A sublist that the source has committed still runs (R145,
notes/assumptions/141.md). The target starts from the group's contexts as they are: R147 allows a state up to two microframes
old, and 0 is the DESIGN CHOICE of notes/assumptions/142.md. -/
def takeover (src g : Nat) (s : State) : State :=
  let s0 := modStok (fun k => { k with place := tdel k.place g, orders := k.orders.filter (·.group != g) }) s
  let s1 := modStok (fun k => { k with colds := k.colds ++ [{ group := g, src := src }], migTimes := k.migTimes ++ [s.dev.monoNs] }) s0
  match if s.hasA g then s0.placeA g else s0.placeB g with
  | some e => putGroup g e s1
  | none => if s.hasA g then modStok (fun k => { k with unplaced := k.unplaced ++ [g] }) s0 else s0

/-- A migration is abandoned: MIGRATION_ABORTED (R141). The group stays on its source; one whose source has failed meanwhile is taken over
cold (R145, R146). -/
def abandonMig (g : Nat) (s : State) : State :=
  match s.stok.migs.find? (fun m => m.group == g && !m.handed) with
  | none => s
  | some m =>
    let s1 := setSqc aStok [11] (stokEvent 0x0401 m.src m.dst (s.firstEpid g) (dropMig g s))
    if s.available m.src then s1
    else
      let s2 := takeover m.src g s1
      if s1.stok.unplaced.length < s2.stok.unplaced.length then capacityLost s2 else s2

/-- Cold takeover of every group of an engine; a migration to it is abandoned, and one from it is handed off at the next
boundary when its target is ready (R145, R146). Class A groups that fit no engine raise ENGINE_CAPACITY_LOST once (R138). -/
def takeoverAll (e : Nat) (s : State) : State :=
  let toIt := s.moving.filter fun m => m.dst == e
  let s1 := foldS toIt (fun m => abandonMig m.group) s
  let s2 := foldS (s1.byRank (s1.teGroups e)) (fun g t =>
    match t.stok.migs.find? (fun m => m.group == g && !m.handed) with
    | some m =>
      if m.ready then t
      else putGroup g m.dst (dropMig g (modStok (fun k => { k with colds := k.colds ++ [{ group := g, src := e }],
                                                                   migTimes := k.migTimes ++ [t.dev.monoNs] }) t))
    | none => takeover e g t) s1
  if s1.stok.unplaced.length < s2.stok.unplaced.length then capacityLost s2 else s2

/-- Deferred class A groups are placed again as engines return (R138), a pinned one on its engine where that can take it (R130). -/
def replaceUnplaced (s : State) : State :=
  foldS (s.byRank s.stok.unplaced) (fun g t => match (t.pinned g).or (t.placeA g) with
    | some e => putGroup g e t
    | none => t) s

/-- A group's class A load may lie on an engine without breaking the spare rule, what is promised counted (R134). -/
def State.spareRule (s : State) (g e : Nat) : Bool :=
  let a := s.plannedA g
  !s.hasA g || a.contains e || decide (a.length + 3 ≤ s.engineList.length)

/-! ### Reserve of a class L queue (R196) -/

def State.reserveOf (s : State) (q : Nat) : Nat :=
  let r := s.queue q
  if !r.isL then 0
  else
    let ins := peak fun k => s.sumCtx (fun e => e.2.queue == q && e.2.dirIn) fun e => e.2.entries (s.rootSpeed (epPort e.1)) k
    let bulk := (s.ctxs.filter fun e => e.2.bound && e.2.queue == q && e.2.cls == 2 && e.2.dirIn).length
    2 * (ins + 8 * bulk) + 1

/-- Recomputes a queue's reserve (R196). -/
def refreshReserve (q : Nat) (s : State) : State :=
  if q < 8 ∨ (s.queue q).st = .disabled then s else putQueue q { s.queue q with reserve := s.reserveOf q } none s

/-! ### Admission (R101, R104, R105, R135, R136) -/

/-- A context as a bind would make it. -/
def bindAs (c : Ctx) (q cls exp phase : Nat) : Ctx :=
  { c with bound := true, cls := cls, queue := q, exp := exp, phase := phase, refuse := 0, stretch := 0 }

/-- A pin holds a group on an engine that is neither unavailable nor evacuated (R130, R131). -/
def State.pinsTo (s : State) (g e : Nat) : Bool := (s.pinOf g).any (fun p => p.eng == e) && s.takes e

/-- The packing test: where the group goes with the new load, if it can go anywhere (R135). A group stays where it fits
unless its engine would become one class A engine too many (R134). Engines promised class A load count as class A engines. A group that is
pinned to the engine it is on goes nowhere else: a DESIGN CHOICE (notes/assumptions/186.md). -/
def State.packing (s : State) (g : Nat) : Option Nat :=
  let load (x r : Nat) : Nat := sumBy (fun k => s.groupA k r) (g :: (s.heldGroups x).filter (· != g))
  let fitA (x : Nat) : Bool := (upTo 8192).all fun r => decide (load x r ≤ 512)
  let spareMax := s.engineList.length - 2
  match s.engineOf g with
  | none => none
  | some e =>
    let others := s.plannedA g
    let had := decide (2 ≤ ((s.groupCtxs g).filter fun x => x.2.periodic && x.2.cls == 0).length)
    let count := others.length + (if had && !others.contains e then 1 else 0)
    if fitA e && (had || others.contains e || decide (count < spareMax)) then some e
    else if s.pinsTo g e then none
    else match (others.filter fun x => x != e && s.takes x && fitA x).head? with
      | some x => some x
      | none => if count < spareMax then (s.spares.filter fun x => x != e && !others.contains x && s.takes x && fitA x).head? else none

/-- Lowest residue at which a check of the new load fails, over the residues where the context is due. -/
def failsAt (c : Ctx) (rootSpeed : Nat) (ok : Nat → Bool) : Option Nat :=
  (upTo 8192).find? fun r => decide (0 < (c.admLoad rootSpeed r).1) && !ok r

/-- With an engine isolated, the class A load admitted beside context `e` is not below cap_A at residue `r` (R137). -/
def State.shortOfA (s : State) (e r : Nat) : Bool :=
  decide (s.engineList.length < s.nEngines) &&
    decide (s.capA ≤ s.sumCtx (fun x => x.1 != e && x.2.cls == 0) fun x => x.2.entries (s.rootSpeed (epPort x.1)) r)

/-- Why an admission fails: the status, reason code and residue. -/
structure Refused where
  status  : Nat
  reason  : Nat
  residue : Nat

/-- The first failing test for context `e` as `c` says, the new load already counted in `s` (R105, R135, R151). A test that
fails at no residue of its own (packing, an unplaced group, residency, budget, a rebuild of R549) reports residue 0: a DESIGN
CHOICE (notes/assumptions/119.md). -/
def State.firstFail (s : State) (e : Nat) (c : Ctx) : Option Refused :=
  let p := epPort e
  let g := epGroup e
  let root := s.rootSpeed p
  let cap (reason : Nat) (r : Option Nat) : Option Refused := r.map fun k => { status := stCapacity, reason := reason, residue := k }
  let high := root == 2
  let limit := if root = 0 then 150 else 1200
  let engine := cap 3 ((upTo 8192).find? fun r =>
    (decide (0 < (c.admLoad root r).1) && decide (s.capA < s.engineSum r)) || (c.cls == 0 && s.shortOfA e r))
  let group := if c.cls = 0 then cap 3 ((upTo 8192).find? fun r => decide (512 < s.groupA g r)) else none
  let pack := if c.cls = 0 ∧ (s.packing g).isNone = true then cap 3 (some 0) else none
  let lost := if c.cls = 0 ∧ s.stok.unplaced.contains g = true then cap 3 (some 0) else none
  let count := if high then cap 4 (failsAt c root fun r => decide (s.portCount p r ≤ 150)) else none
  let time := cap 4 (failsAt c root fun r =>
    if high then decide (s.portCost p r ≤ 6000) else decide (sumBy (s.portCost p) (frameOf r) ≤ limit))
  let tt := if c.ttAddr = 0 then none else cap 5 (failsAt c root fun r =>
    decide (s.ttCost p c r ≤ 1000) && decide (s.ttStarts p c r ≤ 16))
  let resident := if c.cls = 0 ∧ s.residency < s.classA then cap 6 (some 0) else none
  let budget : Option Refused :=
    if heatHas s.ledger 5 then some { status := stBudget, reason := 1, residue := 0 }
    else if feedHas s.ledger 5 then some { status := stBudget, reason := 2, residue := 0 } else none
  let rebuild : Option Refused := if s.ctrl.rebuild then cap 3 (some 0) else none
  rebuild.or (engine.or (lost.or (group.or (pack.or (count.or (time.or (tt.or (resident.or budget))))))))

/-- The phases that an EP_BIND may take (R99, R104). -/
def Ctx.candidates (c : Ctx) (exp phase : Nat) : List Nat :=
  if phase = 0xFFFF then (upTo (2 ^ exp)).filter (c.phaseOk exp) else [phase]

/-- Admission of a periodic context: the phase with the lowest peak engine load, or the failure at the lowest candidate
phase (R104, R105). peak(p) is the peak of the device-wide engine load over all 8,192 residues with the context at phase p: a
DESIGN CHOICE, as the spec does not define peak (notes/assumptions/143.md). -/
def State.admission (s : State) (e : Nat) (c : Ctx) (q cls exp phase : Nat) : Except Refused Nat :=
  let cand := c.candidates exp phase
  let at_ p := setCtx e (bindAs c q cls exp p) s
  let good := cand.filter fun p => ((at_ p).firstFail e (bindAs c q cls exp p)).isNone
  match leastBy (fun p => peak (at_ p).engineSum) good with
  | some p => .ok p
  | none => match cand.head? with
    | some p => match (at_ p).firstFail e (bindAs c q cls exp p) with
      | some r => .error r
      | none => .error { status := stCapacity, reason := 3, residue := 0 }
    | none => .error { status := stCapacity, reason := 3, residue := 0 }

/-- An admitted bind takes effect; a group that no longer fits its engine is to move: the order waits to be issued (R136, R119). -/
def commitBind (e q cls exp phase : Nat) (s : State) : State :=
  match s.ctx e with
  | none => s
  | some c =>
    let c1 := { bindAs c q cls exp phase with wait := none, nextDue := if cls = 2 then c.nextDue else s.nextDue (epGroup e) (2 ^ exp) phase,
                                              xerr := false, retry := 0, retryAt := none, slotAt := none }
    let s1 := refreshReserve q (setCtx e c1 s)
    if cls = 0 then
      match s1.packing (epGroup e) with
      | some t => if s1.engineOf (epGroup e) = some t then s1 else addOrder 5 (epGroup e) t (modCtx e (fun c => { c with moving := true }) s1)
      | none => s1
    else s1

/-- The result of EP_BIND (R277, R278). -/
def bindResult (phase exp reason residue : Nat) : List Byte := u16 phase ++ u8 exp ++ u8 reason ++ u16 residue ++ [0, 0]

/-- EP_BIND would raise the reserve above half the depth (R196). -/
def State.overReserve (s : State) (e : Nat) (c : Ctx) (q cls exp phase : Nat) : Bool :=
  (s.queue q).isL && decide ((s.queue q).depth < 2 * (setCtx e (bindAs c q cls exp phase) s).reserveOf q)

/-! ### Transfers and unbinding -/

/-- Ends a class C transfer with its result (R113): the completion that *Command reference* gives its kind. -/
def xferResult (x : Xfer) (code : Nat) : List Byte :=
  match x.kind with
  | .control => u8 code ++ u8 0 ++ u16 x.moved ++ (if x.queue = 0 then x.got else [])
  | .write => u8 code ++ u8 (sat 255 x.gaps) ++ u16 0 ++ u32 x.moved
  | .read => u8 code ++ [0, 0, 0] ++ u32 x.moved ++ (if x.queue = 0 then x.got else [])

/-- The command status of a usb_result (Table — Class C results). -/
def xferStatus (code : Nat) : Nat := if code ≤ 1 then stOk else if code = 4 then stTimeout else stAborted

def endXfer (x : Xfer) (code : Nat) (s : State) : State :=
  finishOp x.host x.tag (xferStatus code) (xferResult x code)
    { s with xfers := s.xfers.filter fun y => !(y.host == x.host && y.tag == x.tag) }

/-- A transfer of length 0 that moves no packet: it completes when its turn comes (R269; notes/assumptions/60.md). -/
def Xfer.bare (x : Xfer) : Bool :=
  (x.kind == .read || (x.kind == .write && !x.flag)) && x.left == 0 && x.moved == 0 && !x.started
def endBare (e : Nat) (s : State) : State :=
  foldS ((s.xfers.filter fun x => x.epid == e).takeWhile Xfer.bare) (fun x => endXfer x 0) s

def endXfers (f : Xfer → Bool) (code : Nat) (s : State) : State :=
  let l := s.xfers.filter f
  foldS ((l.map fun x => x.epid).eraseDups) endBare (foldS l (fun x => endXfer x code) s)

/-- A waiting EP_BIND ends (R119). -/
def endWait (e : Nat) (s : State) : State :=
  match s.ctx e with
  | some c => match c.wait with
    | some w => finishOp w.host w.tag stAborted (bindResult w.phase w.exp c.refuse 0) (setCtx e { c with wait := none, refuse := 0 } s)
    | none => s
  | none => s

/-- Unbinds a context and releases its load (R106, R119). -/
def unbind (e : Nat) (s : State) : State :=
  match s.ctx e with
  | none => s
  | some c =>
    let s1 := endWait e s
    if !c.bound then s1
    else
      let s2 := modCtx e (fun c => { c with bound := false, cls := 3, stretch := 0, refuse := 0, xerr := false, retry := 0,
                                            split := 0, late := false, held := none, recovering := false, moving := false }) s1
      refreshReserve c.queue s2

/-- A context is freed (R75, R57): its transfers end, it is unbound, and its index is quarantined. A change of its service state that
the next EP_SERVICE was to report still counts there: a DESIGN CHOICE (notes/assumptions/185.md). -/
def freeCtx (code e : Nat) (s : State) : State :=
  let s1 := unbind e (endXfers (fun x => x.epid == e) code s)
  let s2 := { s1 with ctxs := tdel s1.ctxs e }
  releaseGroup (epGroup e) (modPort (epPort e) (fun r => { r with quietIdx := e % 4096 :: r.quietIdx }) s2)

/-! ### Waiting admissions (R119) -/

/-- Tries a waiting EP_BIND again. -/
def retryWait (e : Nat) (s : State) : State :=
  match s.ctx e with
  | none => s
  | some c => match c.wait with
    | none => s
    | some w => match s.admission e { c with wait := none } w.queue w.cls w.exp w.phase with
      | .error r => setCtx e { c with refuse := r.reason } s
      | .ok p =>
        if s.overReserve e c w.queue w.cls w.exp p then
          quiet [e] (finishOp w.host w.tag stBadParam (bindResult p w.exp 0 0) (setCtx e { c with wait := none, refuse := 0 } s))
        else
          quiet [e] (finishOp w.host w.tag stOk (bindResult p w.exp 0 0) (commitBind e w.queue w.cls w.exp p s))

/-! ### Tests and evacuations (R166 to R169) -/

/-- Type code and index of a unit (R165, R295). -/
def unitType : TUnit → Nat
  | .engine _ => 0 | .payload _ => 1 | .control _ => 2
def unitNo : TUnit → Nat
  | .engine e => e | .payload b => b | .control b => b

/-- A unit is present and not isolated. -/
def State.unitHere (s : State) : TUnit → Bool
  | .engine e => s.hasEngine e
  | .payload b => decide (b < 16)
  | .control b => decide (b < 8)
def State.unitIsolated (s : State) : TUnit → Bool
  | .engine e => (s.engine e).isolated
  | .payload b => (s.pbank b).st == 3
  | .control b => (s.cbank b).st == 3

/-- Extents held in a payload bank, and free extents elsewhere (R167). -/
def State.heldIn (s : State) (b : Nat) : Nat :=
  sumBy (fun e => sumBy (fun i => if i.banks.contains b then i.extents else 0) e.2.items) s.queues

/-- A pin on an engine that forbids evacuation (R131). -/
def State.pinHolds (s : State) (e : Nat) : Bool := s.stok.pins.any fun p => p.eng == e && !p.allow

/-- Steps 4 and 5 keep new evacuations from starting (R158). -/
def State.loadHolds (s : State) : Bool :=
  heatHas s.ledger 4 || heatHas s.ledger 5 || feedHas s.ledger 4 || feedHas s.ledger 5

/-- The conditions of Table — Evacuation conditions. A control bank holds 4,096 contexts' worth of content; the other banks must
hold the contexts that have to stay resident and the half of control SRAM that is not the cache (notes/assumptions/138.md). -/
def State.canEvacuate (s : State) (t : Test) : Bool :=
  s.dev.phase == .ready && !s.loadHolds &&
  match t.unit with
  | .engine e =>
    let others := (s.spares.filter fun x => x != e && s.takes x).length
    !s.pinHolds e && (match t.who with | .rotation => decide (2 ≤ others) | _ => decide (1 ≤ others))
  | .payload b => decide (s.poolUsed ≤ 6143 * (s.servicePool.filter (· != b)).length) && decide (1 ≤ (s.servicePool.filter (· != b)).length)
  | .control b =>
    let must := if s.peatInUse then s.classA else s.ctxs.length
    decide (must + 16384 ≤ 4096 * (s.ctrlBanks.filter (· != b)).length)

/-- The cache shrinks to `room` entries: contexts that PLACE_HINT keeps go last, and which of the others go is a free choice (R129,
R167). -/
def trimCache (room : Nat) (s : State) : State :=
  let l := s.stok.cache
  if l.length ≤ room then s
  else
    let (kept, others) := l.partition s.kept2048.contains
    useFree { s with stok := { s.stok with cache := (kept ++ others.rotateLeft (Config.freeNat s.free % others.length)).take room } }

/-- A unit enters its test once it carries nothing. A bank that FLT_ACK returns stays isolated until it passes (R482). -/
def beginTest (t : Test) (s : State) : State :=
  let s1 := { s with test := some { t with stage := 2 } }
  let shut := match t.who with | .ackReturn _ => true | _ => false
  match t.unit with
  | .engine e => changeEngine e (fun r => { r with evac := false, testing := true }) s1
  | .payload b => if shut then s1 else modPbank b (fun r => { r with st := 2 }) s1
  | .control b => if shut then s1 else let s2 := modCbank b (fun r => { r with st := 2 }) s1; trimCache s2.cacheRoom s2

/-- An evacuated engine whose last group has left starts its test. -/
def engineEmpty (s : State) : State :=
  match s.test with
  | some t => match t.unit with
    | .engine e =>
      if t.stage = 1 ∧ (s.teGroups e).isEmpty = true ∧ s.stok.migs.all (fun m => m.src != e && m.dst != e) = true then beginTest t s else s
    | _ => s
  | none => s

/-- Where a group of an evacuated engine goes: one spare for class A, else under R592 (R167). `spare`: the one that has been
chosen. -/
def State.evacTo (s : State) (g e : Nat) (spare : Option Nat) : Option Nat :=
  let ok := s.engineList.filter fun x => x != e && s.takes x && s.fits g x
  if s.hasA g then (ok.find? fun x => some x == spare).or (ok.filter fun x => !s.isA x && !(s.plannedA g).contains x).head?
  else (leastBy (fun x => (s.teGroups x).length) (ok.filter fun x => !(s.engine x).gated)).or ok.head?

/-- Orders one group of an evacuating engine away, up to a limit of orders. -/
def evacOrder (limit e : Nat) (acc : State × Nat) (g : Nat) : State × Nat :=
  let s := acc.1
  match s.test with
  | none => acc
  | some t =>
    if limit ≤ acc.2 ∨ s.destOf g ≠ some e then acc
    else match s.evacTo g e t.spare with
      | some d =>
        let s1 := if s.hasA g then { s with test := some { t with spare := some d } } else s
        (addOrder 4 g d s1, acc.2 + 1)
      | none => acc

/-- Orders the groups of an evacuating engine away (R126 priority 4), and counts the orders. -/
def evacOrders (limit e : Nat) (acc : State × Nat) : State × Nat := (acc.1.byRank (acc.1.teGroups e)).foldl (evacOrder limit e) acc

/-- Starts the evacuation of the unit of the request at hand (R167). The banks beside a control bank keep what they have room for. -/
def startEvac (t : Test) (s : State) : State :=
  let s1 := { s with test := some { t with stage := 1 } }
  match t.unit with
  | .engine e => engineEmpty (issueOrders 64 (evacOrders 256 e (changeEngine e (fun r => { r with evac := true, gated := false }) s1, 0)).1)
  | .payload b => { s1 with pool := { s1.pool with skip := some b } }
  | .control b => trimCache (s1.cacheRoomOf (s1.ctrlBanks.filter (· != b)).length) s1

/-- The next request that waits is taken up; it starts when its conditions hold (R166, R168). The test of a unit that FLT_ACK
returns needs no evacuation (R482). -/
def nextTest (s : State) : State :=
  match s.test, s.testQ with
  | none, t :: rest =>
    let s1 := { s with test := some t, testQ := rest }
    match t.who with
    | .ackReturn _ => beginTest t s1
    | _ => if s1.canEvacuate t then startEvac t s1 else s1
  | _, _ => s

/-- The request of an update (R166, R506). -/
def Test.isUpdate (t : Test) : Bool := match t.who with | .update _ => true | _ => false

/-- Adds a request (R166). -/
def askTest (t : Test) (s : State) : State := nextTest { s with testQ := s.testQ ++ [t] }

/-- Whether a request made now would start at once. -/
def State.testStarts (s : State) (t : Test) : Bool := s.test.isNone && s.testQ.isEmpty && s.canEvacuate t

/-- The request at hand is over; the unit it named is back in service unless it is isolated. -/
def endTest (s : State) : State := nextTest { s with test := none }

/-- Returns a unit to service. -/
def unitBack (u : TUnit) (s : State) : State :=
  match u with
  | .engine e => changeEngine e (fun r => { r with evac := false, testing := false, isolated := false }) s
  | .payload b =>
    let s1 := modPbank b (fun r => { r with st := 0, lost := false }) s
    if s1.pool.skip = some b then { s1 with pool := { s1.pool with skip := none } } else s1
  | .control b => modCbank b (fun r => { r with st := 0, lost := false }) s

end Sys2Proof.Machine
end

