-- ==== Sys2Proof/Machine/Ports.lean ====
section
/-!
DEFINITION. What a port's bus, switch and contract share: the tree record (R65), freeing a tree (R75, R66), opening, closing
and latching a path (R383 to R386), releasing a contract (R346, R370), pre-emption (R269), and entry into UNATTACHED,
DISABLED and LATCHED_OFF (R42).
-/
namespace Sys2Proof.Machine

/-! ### Fault sources (R474) -/

def srcPath (p : Nat) : Nat := p
def srcPd (p : Nat) : Nat := 32 + p
def srcTe (e : Nat) : Nat := 64 + e
def srcPbank (b : Nat) : Nat := 84 + b
def srcCbank (b : Nat) : Nat := 100 + b
def srcCan (c : Nat) : Nat := 108 + c
def srcFeed (f : HostId) : Nat := 120 + hCode f

/-! ### Codes -/

/-- State codes of Table — Port bus states (R275). -/
def Bus.code : Bus → Nat
  | .disabled => 0 | .unattached => 1 | .attachWait => 2 | .powering => 3 | .connectWait => 4 | .powerOnly => 5
  | .connectDebounce => 6 | .resetting => 7 | .enumerating => 8 | .running => 9 | .suspended => 10 | .resuming => 11
  | .recovering => 12 | .error => 13 | .latchedOff => 14 | .ufpSwapped => 15

/-- State codes of Table — Port switch states. -/
def Sw.code : Sw → Nat
  | .off => 0 | .loRamp => 1 | .loOn => 2 | .hiRamp => 3 | .hiOn => 4 | .gap => 5 | .stepdown => 6 | .latched => 7
  | .isolated => 8

/-- State codes of Table — PD states. -/
def Pd.code : Pd → Nat
  | .noContract => 0 | .negotiating => 1 | .contract => 2 | .transition => 3 | .hardReset => 4 | .swapped => 5

/-- Currents of PD_SET_CAPS: the 5 V PDO and Rp (R287, R151). -/
def pdo5Ma : Nat → Nat | 0 => 900 | 1 => 1500 | _ => 3000
def rpMa : Nat → Nat | 0 => 500 | 1 => 1500 | _ => 3000
/-- Volts of a voltage code (R374). -/
def volts : Nat → Nat | 1 => 5 | 2 => 15 | _ => 0

/-- The bus states in which the port is powered: VBUS on or ramping (R42). -/
def Bus.powered : Bus → Bool
  | .powering | .connectWait | .powerOnly | .connectDebounce | .resetting | .enumerating | .running | .suspended | .resuming
  | .recovering | .error => true
  | _ => false

/-- The bus states whose tree has SOF (R42). -/
def Bus.hasSof : Bus → Bool
  | .enumerating | .running => true
  | _ => false

/-- Path codes of R401: 1 low, 2 high, for the path a switch state drives. -/
def Sw.path : Sw → Nat
  | .hiRamp | .hiOn => 2
  | _ => 1

/-! ### What the board presents -/

/-- VBUS in mV and the current in mA that VSNS and ISNS show: the spec states no value (notes/assumptions/3.md). -/
def State.senses (s : State) : Nat × Nat := (Config.freeNat s.free % 65536, Config.freeNat (s.free + 1) % 65536)

/-- Reads VSNS and the current sense of a port. -/
def measure (p : Nat) (s : State) : State :=
  modPort p (fun r => { r with vbusMv := s.senses.1, currMa := s.senses.2 }) { s with free := s.free + 2 }

/-! ### Events -/

/-- A power path event of a port on EV96 + n (R401). -/
def pathEvent (p code a b : Nat) (s : State) : State :=
  post (96 + p) (u16 code ++ u8 p ++ u8 0 ++ u8 a ++ u8 b ++ [0, 0]) s

/-- A contract event: EV64 + n for a port, EV4 for the service port, port 32 (R374). -/
def pdEvent (p code a b : Nat) (s : State) : State :=
  let bytes := u16 code ++ u8 p ++ u8 0 ++ u8 a ++ u8 b ++ [0, 0]
  if p = 32 then post 4 bytes s else post (64 + p) bytes (setSqc (aPort p) [8] s)

/-- Feed and seating events (R401): EV242, EV243 and EV244. -/
def feedEvent (f : HostId) (code a w : Nat) (s : State) : State := post (242 + hCode f) (ev8 code (hCode f) a w) s
def boardEvent (code a w : Nat) (s : State) : State := post 244 (ev8 code 0xFF a w) s

/-! ### The tree record (R65) -/

def Inst.flags (i : Inst) : Nat :=
  b2n i.hub + 2 * b2n i.multiTT + 4 * b2n i.rwCapable + 8 * b2n i.selfPow + 16 * b2n i.resumed + 32 * b2n i.held

def Inst.bytes (i : Inst) : List Byte :=
  u8 i.addr ++ u8 i.parent ++ u8 i.parentPort ++ u8 i.depth ++ u8 i.speed ++ u8 i.flags ++ u8 i.ttAddr ++ u8 i.ttPort ++
  u16 i.vid.toNat ++ u16 i.pid.toNat ++ u16 i.bcd.toNat ++ u8 i.cls ++ u8 i.cfg ++ u8 i.ifCount ++ u8 (sat 255 i.ctxCount) ++
  u16 (i.firstIdx % 4096) ++ u8 i.maxPower ++ u8 i.firstClass ++ [0, 0] ++ u32 i.serial.toNat ++ u32 i.attachSeq.toNat

def Port.inst (r : Port) (a : Nat) : Option Inst := r.tree.find? fun i => i.addr == a
def modTree (p a : Nat) (f : Inst → Inst) (s : State) : State :=
  modPort p (fun r => { r with tree := r.tree.map fun i => if i.addr == a then f i else i }) s

/-- Whether an instrument is at or below address `a`. -/
def inSub (tree : List Inst) (a : Nat) : Nat → Nat → Bool
  | 0, _ => false
  | fuel + 1, b =>
    b == a || (match tree.find? (fun i => i.addr == b) with
      | some i => i.parent != 0 && inSub tree a fuel i.parent
      | none => false)
/-- Whether an instrument is at or below port `h` of hub `a`. -/
def belowPort (tree : List Inst) (a h : Nat) : Nat → Nat → Bool
  | 0, _ => false
  | fuel + 1, b =>
    match tree.find? (fun i => i.addr == b) with
    | some i => (i.parent == a && i.parentPort == h) || (i.parent != 0 && belowPort tree a h fuel i.parent)
    | none => false

/-! ### Commands that run on a port (R269) -/

/-- The data role of a port: 0 DFP, 1 UFP. -/
def State.role (s : State) (p : Nat) : Nat := b2n (if p = 32 then s.svc.pd.ufp else (s.port p).pd.ufp)

/-- The completion result of a port's running command that is ended before its own end. -/
def State.endResult (s : State) (p outcome : Nat) (o : Op) : List Byte :=
  if o.opcode = 0x0103#16 ∨ o.opcode = 0x0106#16 then u8 (s.port p).bus.code
  else if o.opcode = 0x0502#16 then u8 outcome ++ u8 (s.role p) else []

/-- A swap of the port has not succeeded yet: the HK32's own waits for its answer or its end, or the partner's has been accepted (R362, R363). -/
def State.swapUnder (s : State) (p : Nat) : Bool :=
  let d := (s.port p).pd
  (match s.opAt (keyPort p) with | some o => o.opcode == 0x0502#16 | none => false) ||
  d.sub == .swapWaitSafe0 || d.sub == .swapWaitSource || d.sub == .swapWaitCaps

/-- Ends the running command of a port ABORTED (Table — Pre-emption). A data role swap that is under way has failed with outcome 3
(R288, R374). -/
def preempt (p : Nat) (s : State) : State :=
  let s1 := if s.swapUnder p then pdEvent p 0x0504 3 0 s else s
  match s.opAt (keyPort p) with
  | some o => finishOp o.host o.tag stAborted (s.endResult p 3 o) s1
  | none => s1

/-- Ends the port's running command if it is the named one. -/
def finishPort (p opcode status : Nat) (result : List Byte) (s : State) : State :=
  match s.opAt (keyPort p) with
  | some o => if o.opcode = BitVec.ofNat 16 opcode then finishOp o.host o.tag status result s else s
  | none => s

/-! ### Freeing instruments (R75) -/

/-- Frees one instrument: DETACH with the last record if it received ATTACH, else a partial enumeration; its contexts, its
transfers, its address. A PORT_RESUME of one of its ports has lost its hub and ends ABORTED (notes/assumptions/133.md). -/
def freeInst (p code : Nat) (i : Inst) (s : State) : State :=
  let s1 := if i.posted then portEvent p 0x0101 i.addr code 0 i.bytes s
    else modPort p (fun r => { r with partials := sat 65535 (r.partials + 1) }) s
  let s2 := foldS (s1.instCtxs p i.addr) (fun e t => freeCtx 5 e.1 t) s1
  let atHub (w : Resume) : Bool := match w.loc with | .hub a _ => a == i.addr | .root => false
  let s3 := if (s.port p).hubResumes.any fun w => atHub w && w.byHost then finishPort p 0x0105 stAborted [] s2 else s2
  modPort p (fun r => { r with tree := r.tree.filter (fun j => j.addr != i.addr), quietAddr := i.addr :: r.quietAddr,
                               suspHub := r.suspHub.filter (fun x => x.1 != i.addr),
                               hubResumes := r.hubResumes.filter (fun w => !atHub w),
                               verify := r.verify.filter (· != i.addr) }) s3

/-- Ends an enumeration that is under way: its address is freed and it counts as partial once it has been reset. -/
def dropJob (p : Nat) (j : Job) (s : State) : State :=
  modPort p (fun r =>
    { r with jobs := r.jobs.filter (fun k => k.loc != j.loc),
             quietAddr := if j.addr = 0 ∨ (r.inst j.addr).isSome then r.quietAddr else j.addr :: r.quietAddr,
             partials := if j.phase == .queued || j.phase == .debounce || (r.inst j.addr).isSome then r.partials
               else sat 65535 (r.partials + 1) }) s

/-- Deepest first, then lower address. -/
def deepFirst (l : List Inst) : List Inst :=
  sortBy (fun a b => decide (b.depth < a.depth) || (a.depth == b.depth && decide (a.addr < b.addr))) l

/-- Frees the instruments and enumerations of a port that satisfy a check on addresses and hub ports. -/
def freeWhere (p code : Nat) (f : Inst → Bool) (g : At → Bool) (s : State) : State :=
  let r := s.port p
  foldS (deepFirst (r.tree.filter f)) (freeInst p code) (foldS (r.jobs.filter fun j => g j.loc) (dropJob p) s)

/-- Frees the whole tree of a port. -/
def freeTree (p code : Nat) (s : State) : State :=
  modPort p (fun r => { r with suspAsk := [], resume := none, hubResumes := [], scans := [], suspHub := [], verify := [], speed := 3, fails := 0 })
    (freeWhere p code (fun _ => true) (fun _ => true) s)

/-- Frees the subtree of an instrument. -/
def freeSub (p code a : Nat) (s : State) : State :=
  let t := (s.port p).tree
  freeWhere p code (fun i => inSub t a 8 i.addr)
    (fun l => match l with | .hub h _ => inSub t a 8 h | .root => false) s

/-- Frees what lies below one port of a hub. -/
def freeBelow (p code hub hport : Nat) (s : State) : State :=
  let t := (s.port p).tree
  freeWhere p code (fun i => belowPort t hub hport 8 i.addr)
    (fun l => match l with | .hub h k => (h == hub && k == hport) || belowPort t hub hport 8 h | .root => false) s

/-! ### The contract layer at rest -/

def setWeight (p w : Nat) (s : State) : State := modPort p (fun r => { r with weight := w }) s

/-- The weight without a contract: 5 V × the Rp current, in mW (R151). -/
def Port.rpWeight (r : Port) : Nat := 5 * rpMa r.pd.caps.rp

/-- The Timebase mode ends: Pn_SBU goes high-impedance (R370). -/
def altExit (p cause : Nat) (s : State) : State :=
  if (s.port p).pd.alt then
    pdEvent p 0x0508 cause 0 (emit (.sbuHighZ p) (modPd p (fun d => { d with alt := false }) s))
  else s

/-- The contract is released and the layer returns to state 0, keeping only the capabilities (R346). -/
def releasePd (p : Nat) (s : State) : State :=
  setWeight p 0 (modPd p (fun d => { caps := d.caps }) (altExit p 4 s))

/-- An instance of the service function ends; replies of commands that it took stay in its stream (R230, R246, R251). -/
def endInstance (i : Nat) (s : State) : State :=
  if (s.inst i).attached then modInst i (fun r => { replies := r.replies }) (loseVia (.svc i) s) else s

/-! ### Switches -/

def Sw.active : Sw → Bool
  | .loRamp | .loOn | .hiRamp | .hiOn | .gap | .stepdown => true
  | _ => false

/-- An order to open both paths (R383). -/
def openPaths (p : Nat) (s : State) : State :=
  if (s.port p).sw.active then
    modPort p (fun r => { r with sw := .off, pg := false, atLimit := false, fetArmed := false }) s
  else s

/-- What every departure from a port's powered states does but for VBUS: commands end, tree, instance and contract go. -/
def leaveBus (p code : Nat) (s : State) : State :=
  modPort p (fun r => { r with pullUp := false }) (releasePd p (endInstance (1 + p) (freeTree p code (preempt p s))))

/-- The PLU of a port is gated: DOZE, or an entry that its PG island has agreed to (R453, R459). -/
def State.pluGated (s : State) (p : Nat) : Bool :=
  s.dev.power == .doze || (match s.power.entry with | some e => e.agreed.contains (0x10 + p / 8) | none => false)

/-- The switch latches or is isolated, and the bus machine enters LATCHED_OFF (R384). A FET check that was armed on open paths
stays armed (R387). -/
def latchOff (p : Nat) (sw : Sw) (last : Nat) (rail : Bool) (s : State) : State :=
  modPort p (fun r => { r with bus := .latchedOff, sw := sw, pg := false, atLimit := false, fetArmed := r.fetArmed && !r.sw.active,
                               lastFault := if last = 0 then r.lastFault else last, latchRail := rail, held := false })
    (leaveBus p 2 s)

/-- PRAIL5_SNS is below 4.75 V: while RAIL5_LOST stands, what it reads at a moment is a measurement (notes/assumptions/3.md). -/
def State.rail5Low (s : State) : Bool := !s.board.rail5 && decide (Config.freeNat s.free % 65536 < 4750)

/-- An order to close the low path: no effect on a latched or isolated port, a latch with cause rail while PRAIL5_SNS is below
4.75 V (R386, R390). -/
def closeLow (p : Nat) (s : State) : State :=
  if (s.port p).sw != .off then s
  else
    let t := if s.board.rail5 then s else useFree s
    if s.rail5Low then latchOff p .latched 0 true t
    else modPort p (fun r => { r with sw := .loRamp, pg := false, fetArmed := false }) t

/-- The PG island of a port is isolated or without its supply: commands that power or reset the port return LOCKED (R472, R476). -/
def State.pgIsolated (s : State) (p : Nat) : Bool := (s.flt (76 + p / 8)).isolated || !s.phyRails

/-- The service function attaches: usb_vid and usb_pid are written (R243, R513). -/
def State.provisioned (s : State) : Bool := s.otp.live.usbVid.isSome && s.otp.live.usbPid.isSome

/-! ### UNATTACHED and DISABLED -/

/-- The service function attaches at an instance whose PHY has its supply (R243, R452, R472). -/
def State.svcUp (s : State) : Bool := s.provisioned && s.phyRails

/-- A sink termination on CC of a port in UNATTACHED (R42, R44). -/
def seeRd (p : Nat) (s : State) : State :=
  let r := s.port p
  match r.rd with
  | some .both => if r.accessory then s else portEvent p 0x010A 0 0 0 [] (modPort p (fun r => { r with accessory := true }) s)
  | some cc => modPort p (fun r => { r with bus := .attachWait, cc2 := cc == .cc2 }) s
  | none => s

/-- The port presents Rp and waits for a sink; Rd that is still there starts the debounce (R42). -/
def toUnattached (p : Nat) (s : State) : State :=
  seeRd p (emit (.cc p 1) (modPort p (fun r => { r with bus := .unattached, cc2 := false }) s))

/-- PORT_DISABLE's transition (R42), also taken by a port that is shed (R160). A latch clears at once (R385). -/
def toDisabled (p : Nat) (s : State) : State :=
  let s1 := openPaths p (leaveBus p 1 s)
  let s2 := if (s1.port p).sw = .latched then
      pathEvent p 0x0327 2 0 (modPort p (fun r => { r with sw := .off, latchRail := false }) s1)
    else s1
  emit (.cc p 0) (modPort p (fun r => { r with bus := .disabled, rd := none, cc2 := false, accessory := false }) s2)

/-- A root-port detach: both paths open, the tree and the contract go (R42, R75). After a detach in a transition, Rd that has come
back attaches again once VSNS has read 0.8 V or less; that reading is what arms the FET check (R357, R387). -/
def detachPort (p : Nat) (s : State) : State :=
  let r := s.port p
  let gone := r.pd.sub == .gone
  let s1 := modPort p (fun x => { x with rd := if gone then x.rd else none, accessory := false }) (openPaths p (leaveBus p 0 s))
  if gone && !r.fetArmed then
    emit (.cc p 1) (modPort p (fun x => { x with bus := .unattached, cc2 := false, pd := { x.pd with sub := .goneSafe0 } }) s1)
  else toUnattached p s1

end Sys2Proof.Machine
end

