-- ==== Sys2Proof/Machine/Enum.lean ====
section
/-!
DEFINITION. Enumeration (R50 to R63): addresses and context runs, descriptors, the choice of a configuration, the steps of
Table — Enumeration sequence, failures, hubs, and what a host's SET_CONFIGURATION and SET_INTERFACE change (R57, R58).
Enumeration runs at the level of control transfers (notes/assumptions/20.md).
-/
namespace Sys2Proof.Machine

/-! ### Descriptors (R52, R58) -/

structure EpDesc where
  addr : Nat
  attr : Nat
  mps  : Nat
  intv : Nat
  deriving DecidableEq, Repr

structure IfDesc where
  num   : Nat
  alt   : Nat
  cls   : Nat
  proto : Nat
  eps   : List EpDesc
  deriving DecidableEq, Repr

structure CfgDesc where
  value  : Nat
  attrs  : Nat
  power  : Nat
  ifs    : List IfDesc
  deriving DecidableEq, Repr

/-- Cuts a configuration into its descriptors; `none` where a bLength is wrong. -/
def cutDescs : Nat → List Byte → Option (List (List Byte))
  | 0, bs => if bs.isEmpty then some [] else none
  | fuel + 1, bs =>
    if bs.isEmpty then some []
    else
      let n := byteAt bs 0
      if n < 2 ∨ bs.length < n then none
      else match cutDescs fuel (bs.drop n) with
        | some r => some (bs.take n :: r)
        | none => none

/-- One interface or endpoint descriptor added to the interfaces so far, newest first; `none` where it is invalid. -/
def addDesc (acc : Option (List IfDesc)) (d : List Byte) : Option (List IfDesc) :=
  match acc with
  | none => none
  | some ifs =>
    if byteAt d 1 = 4 then
      (if d.length = 9 then some ({ num := byteAt d 2, alt := byteAt d 3, cls := byteAt d 5, proto := byteAt d 7, eps := [] } :: ifs)
       else none)
    else if byteAt d 1 = 5 then
      (match ifs with
       | i :: r =>
         if d.length < 7 then none
         else some ({ i with eps := i.eps ++ [{ addr := byteAt d 2, attr := byteAt d 3, mps := field d 4 2, intv := byteAt d 6 }] } :: r)
       | [] => none)
    else some ifs

/-- A whole configuration; `none` where a bLength or bDescriptorType is wrong (R52). -/
def parseCfg (bs : List Byte) : Option CfgDesc :=
  if byteAt bs 0 != 9 || byteAt bs 1 != 2 || bs.length != field bs 2 2 then none
  else match cutDescs bs.length bs with
    | none => none
    | some ds => match (ds.drop 1).foldl addDesc (some []) with
      | some ifs => some { value := byteAt bs 5, attrs := byteAt bs 7, power := byteAt bs 8, ifs := ifs.reverse }
      | none => none

def CfgDesc.main (c : CfgDesc) : List IfDesc := c.ifs.filter fun i => i.alt == 0
def CfgDesc.epCount (c : CfgDesc) : Nat := (c.ifs.map fun i => i.eps.length).foldl (· + ·) 0
/-- More than 32 interfaces, or more than 30 endpoints in one alternate setting (R52). -/
def CfgDesc.tooLarge (c : CfgDesc) : Bool :=
  decide (32 < c.main.length) || c.ifs.any (fun i => decide (30 < i.eps.length))
/-- The multi-TT alternate setting of a hub, if the configuration offers it (R60). -/
def CfgDesc.multiTT (c : CfgDesc) : Option IfDesc := c.ifs.find? fun i => i.alt != 0 && i.proto == 2

/-! ### Addresses and context runs (R53, R58) -/

/-- Addresses in use on a port. -/
def Port.usedAddrs (r : Port) : List Nat := r.tree.map (·.addr) ++ (r.jobs.map (·.addr)).filter (· != 0)

/-- The lowest free address that is not in quarantine, else the lowest free one (R53). -/
def Port.freeAddr (r : Port) : Option Nat :=
  let all := (upTo 128).filter fun a => a != 0 && !r.usedAddrs.contains a
  ((all.filter fun a => !r.quietAddr.contains a).head?).or all.head?

/-- The lowest run of `n` indices at or above `i` that avoids the listed ones. -/
def findRun (taken : List Nat) (limit n : Nat) : Nat → Nat → Option Nat
  | 0, _ => none
  | fuel + 1, i =>
    if limit < i + n then none
    else match (taken.filter fun k => decide (i ≤ k ∧ k < i + n)) with
      | [] => some i
      | ks => findRun taken limit n fuel (ks.foldl (fun m k => if m < k then k else m) 0 + 1)

/-- Indices of a port that cannot be allocated: in use, in quarantine, or kept for a hub's status change context. -/
def State.takenIdx (s : State) (p : Nat) : List Nat :=
  let hubs := (s.port p).tree.filter fun i => i.hub && i.cfg != 0
  (s.portCtxs p).map (fun e => e.1 % 4096) ++ (s.port p).quietIdx ++
    hubs.flatMap fun i => (upTo i.ctxCount).map fun k => i.firstIdx + k

/-- Contexts that hubs in their set-up will still create (R60). -/
def State.owedCtxs (s : State) : Nat :=
  sumBy (fun p => sumBy (fun i => if i.hub && i.cfg != 0 then i.ctxCount - (s.instCtxs p i.addr).length else 0) (s.port p).tree)
    (upTo s.nPorts)

/-- The lowest run of indices for `n` contexts (R58), within the device-wide limit that holds without a Peat store (R201). -/
def State.freeRun (s : State) (p n : Nat) : Option Nat :=
  if !s.peatInUse && decide (16384 < s.ctxs.length + s.owedCtxs + n) then none else findRun (s.takenIdx p) s.nIndices n 4097 0

/-! ### Contexts (R58, R63) -/

/-- The default control context of an instrument. -/
def controlCtx (i : Inst) : Ctx :=
  { addr := i.addr, ep := 0, dirIn := false, type := 0, devOwned := true, speed := i.speed, maxPacket := i.mps0, ttAddr := i.ttAddr,
    ttPort := i.ttPort }

/-- The context of one endpoint descriptor. -/
def epCtx (i : Inst) (f : IfDesc) (e : EpDesc) : Ctx :=
  { addr := i.addr, ep := e.addr % 16, dirIn := bitOf e.addr 7, type := e.attr % 4, speed := i.speed, active := f.alt == 0,
    maxPacket := e.mps % 2048, mult := e.mps / 2048 % 4, bInterval := e.intv, derived := deriveExp i.speed e.intv,
    exp := deriveExp i.speed e.intv, iface := f.num, alt := f.alt, ttAddr := i.ttAddr, ttPort := i.ttPort }

def CfgDesc.ctxs (i : Inst) (c : CfgDesc) : List Ctx := c.ifs.flatMap fun f => f.eps.map (epCtx i f)

/-- Allocates contexts at rising indices from `idx`, placing each group they open (R592). -/
def addCtxs (p idx : Nat) (cs : List Ctx) (s : State) : State :=
  (cs.foldl (fun acc c => (claimGroup (epGroup (epid p acc.2)) (quiet [epid p acc.2] (setCtx (epid p acc.2) c acc.1)), acc.2 + 1))
    (s, idx)).1

/-! ### Requests -/

/-- A setup packet. -/
def setup (rt req value index len : Nat) : List Byte := u8 rt ++ u8 req ++ u16 value ++ u16 index ++ u16 len

/-- The request that a job runs at its step (R50, R60), with the address it goes to. -/
def Job.request (j : Job) : Nat × List Byte :=
  let total := field (j.configs.getD (j.sub / 2) []) 2 2
  match j.step with
  | 1 => (0, setup 0x80 6 0x0100 0 (if j.speed = 2 then 64 else 8))
  | 2 => (0, setup 0 5 j.addr 0 0)
  | 4 => (j.addr, setup 0x80 6 0x0100 0 18)
  | 5 => (j.addr, setup 0x80 6 (0x0200 + j.sub / 2) 0 (if j.sub % 2 = 0 then 9 else total))
  | 6 => if j.sub = 0 then (j.addr, setup 0x80 6 0x0300 0 255)
         else (j.addr, setup 0x80 6 (0x0300 + byteAt j.dev 16) j.langId 255)
  | 8 => (j.addr, setup 0 9 (byteAt (j.configs.getD (j.chosen.getD 0) []) 5) 0 0)
  | _ =>
    if j.sub = 0 then (j.addr, setup 0xA0 6 0x2900 0 71)
    else if j.sub = 1 then (j.addr, setup 1 11 1 0 0)
    else (j.addr, setup 0x23 3 8 (j.sub - 1) 0)

/-- Replaces a job. -/
def setJob (p : Nat) (j : Job) (s : State) : State :=
  modPort p (fun r => { r with jobs := r.jobs.map fun k => if k.loc == j.loc then j else k }) s
def State.jobAt (s : State) (p : Nat) (l : At) : Option Job := (s.port p).jobs.find? fun j => j.loc == l

/-- Moves a job to a step and sends that step's request. -/
def ask (p : Nat) (j : Job) (step sub : Nat) (s : State) : State :=
  let j1 := { j with step := step, sub := sub, phase := .request }
  emit (.usbRequest p j1.request.1 j1.request.2) (setJob p j1 s)

/-! ### Where an instrument sits -/

/-- Depth, translator address and port below a hub's port (R62, R63). -/
def Port.below (r : Port) (speed : Nat) : At → Nat × Nat × Nat
  | .root => (0, 0, 0)
  | .hub a h =>
    match r.inst a with
    | some i =>
      if speed = 2 then (i.depth + 1, 0, 0)
      else if i.speed = 2 then (i.depth + 1, a, if i.multiTT then h else 0)
      else (i.depth + 1, i.ttAddr, i.ttPort)
    | none => (0, 0, 0)

/-- The current available to an instrument in mA (R56): the contract's operating current, else the Rp current, at the root
(notes/assumptions/21.md). -/
def Port.available (r : Port) : At → Nat
  | .root => if r.pd.volt = 0 then rpMa r.pd.caps.rp else r.pd.opMa
  | .hub a _ => match r.inst a with
    | some i => if i.selfPow then 500 else 100
    | none => 100

/-! ### The end of an attempt (R51, R56) -/

/-- The debounce at a hub port ends: SetPortFeature(PORT_RESET) to the hub (R49). -/
def resetBelow (p hub hport : Nat) (j : Job) (s : State) : State :=
  emit (.usbRequest p hub (setup 0x23 3 4 hport 0)) (setJob p { j with phase := .reset } s)

/-- Below one hub enumerations run one at a time, in port number order (R61): starts the next that waits. One that R78 resets
through its parent starts with the reset. -/
def nextJob (p : Nat) (l : At) (s : State) : State :=
  match l with
  | .root => s
  | .hub a _ =>
    let port : At → Nat | .hub _ h => h | .root => 0
    let mine := (s.port p).jobs.filter fun j => match j.loc with | .hub b _ => b == a | .root => false
    if mine.any (fun j => j.phase != .queued) then s
    else match leastBy (fun j => port j.loc) mine with
      | some j => if j.direct then resetBelow p a (port j.loc) j s else setJob p { j with phase := .debounce } s
      | none => s

/-- Whether the port, or what lies below one hub port, is being enumerated (R67). -/
def State.enumerating (s : State) (p : Nat) (l : At) : Bool :=
  let r := s.port p
  match l with
  | .root => r.bus == .enumerating || !r.jobs.isEmpty
  | .hub a h => r.jobs.any fun j => match j.loc with
    | .hub b k => (b == a && k == h) || belowPort r.tree a h 8 b
    | .root => r.bus == .enumerating

/-- SET_FEATURE(DEVICE_REMOTE_WAKEUP) to the instruments of a subtree that declare it, when the port's bit allows (R68). -/
def askWake (p : Nat) (f : Inst → Bool) (s : State) : State :=
  if (s.port p).policy.remoteWake then
    foldS ((s.port p).tree.filter fun i => f i && i.rwCapable && i.cfg != 0) (fun i => emit (.usbRequest p i.addr (setup 0 3 1 0 0))) s
  else s

/-- A suspend takes effect (R67). -/
def doSuspend (p : Nat) (l : At) (s : State) : State :=
  match l with
  | .root => portEvent p 0x0106 0 0 0 [] (emit (.sofStop p) (modPort p (fun r => { r with bus := .suspended }) (askWake p (fun _ => true) s)))
  | .hub a h =>
    let t := (s.port p).tree
    let s1 := emit (.usbRequest p a (setup 0x23 3 2 h 0)) (askWake p (fun i => belowPort t a h 8 i.addr) s)
    portEvent p 0x0106 0 a h [] (modPort p (fun r => { r with suspHub := (a, h) :: r.suspHub.filter (· != (a, h)) }) s1)

/-- The hub port that a suspend names still exists. -/
def State.hasLoc (s : State) (p : Nat) : At → Bool
  | .root => true
  | .hub a _ => ((s.port p).inst a).isSome

/-- A deferred suspend takes effect once the enumeration it waited for is over; on a port that reached ERROR, or whose hub has
left, it ends LOCKED (R67, R276). -/
def deferredSuspend (p : Nat) (s : State) : State :=
  foldS (s.port p).suspAsk (fun l t =>
    if t.enumerating p l then t
    else
      let t1 := modPort p (fun r => { r with suspAsk := r.suspAsk.filter (· != l) }) t
      if (t1.port p).bus == .running && t1.hasLoc p l then finishPort p 0x0104 stOk [] (doSuspend p l t1)
      else finishPort p 0x0104 stLocked [] t1) s

/-- An enumeration is over: the next one below that hub starts, and a deferred suspend takes effect. -/
def endJob (p : Nat) (l : At) (s : State) : State :=
  deferredSuspend p (nextJob p l (modPort p (fun r => { r with jobs := r.jobs.filter fun j => j.loc != l }) s))

/-- The port reaches RUNNING or ERROR; PORT_BUS_RESET completes there (R274). -/
def rootEnds (p : Nat) (b : Bus) (s : State) : State :=
  finishPort p 0x0103 stOk (u8 b.code) (modPort p (fun r => { r with bus := b }) s)

/-- Frees what an attempt took. -/
def freeAttempt (p : Nat) (j : Job) (s : State) : State :=
  if ((s.port p).inst j.addr).isSome && j.addr != 0 then
    modPort p (fun r => { r with jobs := j :: r.jobs.filter fun k => k.loc != j.loc }) (freeSub p 1 j.addr s)
  else if j.addr = 0 then s
  else modPort p (fun r => { r with quietAddr := j.addr :: r.quietAddr }) s

/-- The last attempt failed: ENUM_FAILED, and the root port enters ERROR or the hub port is disabled (R51, R56). An instrument whose
ATTACH was posted, a hub that fails in its set-up, is no partial enumeration (R66). -/
def enumFailed (p : Nat) (j : Job) (step cause : Nat) (posted : Bool) (s : State) : State :=
  let s1 := portEvent p 0x0103 j.addr step cause []
    (modPort p (fun r => { r with partials := if posted then r.partials else sat 65535 (r.partials + 1) }) s)
  match j.loc with
  | .root => endJob p .root (rootEnds p .error s1)
  | .hub a h => endJob p (.hub a h) (emit (.usbRequest p a (setup 0x23 1 1 h 0)) s1)

/-- An attempt ends (R51, R64). Causes: 1 TIMEOUT, 2 STALL, 3 DESC_INVALID, 4 DESC_TOO_LARGE, 5 POWER. -/
def attemptFails (p : Nat) (j : Job) (cause : Nat) (s : State) : State :=
  let posted := match (s.port p).inst j.addr with | some i => j.addr != 0 && i.posted | none => false
  let s1 := freeAttempt p j s
  let n := j.fails + 1
  let s2 := if j.loc == .root then modPort p (fun r => { r with fails := n, bus := if r.bus == .running then .enumerating else r.bus }) s1 else s1
  if cause = 5 ∨ 3 ≤ n then enumFailed p j j.step cause posted s2
  else setJob p { loc := j.loc, speed := j.speed, depth := j.depth, ttAddr := j.ttAddr, ttPort := j.ttPort, phase := .retryWait, fails := n } s2

/-- The abort of PORT_BUS_RESET between steps: the address is freed, the port enters ERROR, no ENUM_FAILED (R270). -/
def abortReset (p : Nat) (s : State) : State :=
  match s.opAt (keyPort p) with
  | some o =>
    let s1 := modPort p (fun r => { r with bus := .error }) (freeTree p 1 s)
    abortOp o.host o.tag (u8 Bus.error.code) s1
  | none => s

/-- Whether an OP_ABORT waits for the PORT_BUS_RESET that runs this root enumeration. -/
def State.resetAborted (s : State) (p : Nat) (j : Job) : Bool :=
  j.loc == .root && (match s.opAt (keyPort p) with
    | some o => o.opcode == 0x0103#16 && s.abortAsked o.host o.tag
    | none => false)

/-! ### The instrument (R50 steps 7 to 10) -/

/-- The instrument of a job, before any configuration. -/
def Job.inst (j : Job) : Inst :=
  { addr := j.addr, parent := match j.loc with | .root => 0 | .hub a _ => a,
    parentPort := match j.loc with | .root => 0 | .hub _ h => h,
    depth := j.depth, speed := j.speed, hub := byteAt j.dev 4 == 9, ttAddr := j.ttAddr, ttPort := j.ttPort,
    vid := BitVec.ofNat 16 (field j.dev 8 2), pid := BitVec.ofNat 16 (field j.dev 10 2),
    bcd := BitVec.ofNat 16 (field j.dev 12 2), cls := byteAt j.dev 4, serial := j.serial, configs := j.configs,
    mps0 := if byteAt j.dev 7 = 0 then 8 else byteAt j.dev 7 }

/-- Posts ATTACH with the tree record; the root port enters RUNNING (R42, R50 step 10, R65). -/
def attach (p : Nat) (i : Inst) (s : State) : State :=
  let sq := (s.port p).attachSeq + 1
  let i1 := { i with attachSeq := sq, posted := true }
  let s1 := modPort p (fun r => { r with attachSeq := sq, tree := r.tree.filter (fun k => k.addr != i.addr) ++ [i1] }) s
  let s2 := portEvent p 0x0100 i.addr 0 0 i1.bytes s1
  if i.parent = 0 then rootEnds p .running s2 else s2

/-- The instrument stays in the Address state with its default control context only: HOLD, a tier too deep, or no run of
indices (R55, R58, R62). -/
def attachBare (p : Nat) (i : Inst) (held : Bool) (s : State) : State :=
  match s.freeRun p 1 with
  | some k =>
    let i1 := { i with held := held, ctxCount := 1, firstIdx := k }
    attach p i1 (addCtxs p k [controlCtx i1] s)
  | none => attach p { i with held := held } s

/-- What an instrument shows of a configuration. -/
def Inst.configure (i : Inst) (c : CfgDesc) : Inst :=
  { i with cfg := c.value, ifCount := c.main.length, maxPower := c.power, rwCapable := bitOf c.attrs 5, selfPow := bitOf c.attrs 6,
           firstClass := match c.ifs.find? (fun f => f.num == 0 && f.alt == 0) with | some f => f.cls | none => 0,
           alts := c.main.map fun f => (f.num, 0), held := false }

/-- The address of the hub above, for RESOURCE_LIMIT. -/
def hubAbove : At → Nat | .root => 0 | .hub a _ => a

/-- No run of indices is long enough: the instrument stays in the Address state with its default control context (R58). -/
def noRun (p : Nat) (j : Job) (s : State) : State :=
  endJob p j.loc (attachBare p j.inst false (portEvent p 0x0104 j.addr 2 (hubAbove j.loc) [] s))

/-- Step 8 is complete: contexts and ATTACH (R58); a hub goes on with its set-up (R60). A run that was free at step 7 and is
not now sends the instrument back to the Address state. -/
def configured (p : Nat) (j : Job) (c : CfgDesc) (s : State) : State :=
  let i := j.inst.configure c
  let n := 1 + c.epCount
  match s.freeRun p n with
  | none => noRun p j (emit (.usbRequest p j.addr (setup 0 9 0 0 0)) s)
  | some k =>
    let i1 := { i with ctxCount := n, firstIdx := k }
    if i.hub then ask p j 9 0 (attach p i1 (addCtxs p k [controlCtx i1] s))
    else endJob p j.loc (attach p i1 (addCtxs p k (controlCtx i1 :: c.ctxs i1) s))

/-- A configuration matches the class list: each used class in alternate 0 of some interface (R55). -/
def classMatch (classes : List Nat) (c : CfgDesc) : Bool :=
  (classes.filter (· != 0)).all fun k => c.main.any fun f => f.cls == k

/-- Step 7: the choice of a configuration (R55, R56, R60, R62), and the run of context indices that it needs (R58). An
instrument with no configuration has none that qualifies, so that the attempt ends with cause POWER: a DESIGN CHOICE, as the
spec names no outcome for bNumConfigurations = 0 (notes/assumptions/134.md). -/
def chooseConfig (p : Nat) (j : Job) (s : State) : State :=
  let r := s.port p
  let hub := byteAt j.dev 4 == 9
  let parsed := j.configs.map parseCfg
  let fits : Option CfgDesc → Bool | some c => decide (2 * c.power ≤ r.available j.loc) | none => false
  let qual : Option CfgDesc → Bool | some c => hub || r.policy.mode != 1 || classMatch r.policy.classes c | none => false
  let idx := upTo parsed.length
  let good := idx.filter fun k => qual (parsed.getD k none)
  if hub && decide (5 ≤ j.depth) then
    endJob p j.loc (attachBare p j.inst false (portEvent p 0x0104 j.addr 3 (hubAbove j.loc) [] s))
  else if !hub && (r.policy.mode == 2 || (r.policy.mode == 1 && good.isEmpty)) then
    endJob p j.loc (attachBare p j.inst true s)
  else match (if hub then good.take 1 else good).find? (fun k => fits (parsed.getD k none)) with
    | some k =>
      let n := match parsed.getD k none with | some c => 1 + c.epCount | none => 1
      if (s.freeRun p n).isNone then noRun p j s else ask p { j with chosen := some k } 8 0 s
    | none => attemptFails p { j with step := 7 } 5 s

/-- Step 6 or step 7, once the configurations are held. -/
def afterConfigs (p : Nat) (j : Job) (s : State) : State :=
  if byteAt j.dev 16 = 0 then chooseConfig p { j with step := 7 } s else ask p j 6 0 s

/-- The ports of a hub to power, after its descriptor and its multi-TT setting (R60). -/
def powerPort (p : Nat) (j : Job) (hubPorts k : Nat) (s : State) : State :=
  if k ≤ hubPorts then ask p j 9 (k + 1) s else setJob p { j with step := 10, phase := .setAddrWait } s

/-! ### Replies to requests -/

/-- A descriptor header is right (R52). -/
def headOk (bs : List Byte) (len type : Nat) : Bool := decide (len ≤ bs.length) && byteAt bs 0 == len && byteAt bs 1 == type

/-- The length of a hub descriptor for a number of ports, as USB 2.0 gives it (notes/assumptions/135.md). -/
def hubDescLen (ports : Nat) : Nat := 7 + 2 * (ports / 8 + 1)

/-- The data stage of an enumeration request arrived (R50). -/
def replied (p : Nat) (j : Job) (bs : List Byte) (s : State) : State :=
  match j.step with
  | 1 =>
    if decide (bs.length < 8) || byteAt bs 0 != 18 || byteAt bs 1 != 1 then attemptFails p j 3 s
    else match (s.port p).freeAddr with
      | some a => ask p { j with addr := a, dev := bs } 2 0 s
      | none =>
        let s1 := portEvent p 0x0104 0 1 (hubAbove j.loc) [] (modPort p (fun r => { r with partials := sat 65535 (r.partials + 1) }) s)
        match j.loc with
        | .hub a h => endJob p j.loc (emit (.usbRequest p a (setup 0x23 1 1 h 0)) s1)
        | .root => endJob p .root s1
  | 2 => setJob p { j with step := 3, phase := .setAddrWait } s
  | 4 =>
    if !headOk bs 18 1 then attemptFails p j 3 s
    else
      let j1 := { j with dev := bs.take 18, configs := [] }
      if byteAt bs 17 = 0 then afterConfigs p j1 s else ask p j1 5 0 s
  | 5 =>
    let k := j.sub / 2
    if j.sub % 2 = 0 then
      if !headOk bs 9 2 then attemptFails p j 3 s
      else if 4096 < field bs 2 2 then attemptFails p j 4 s
      else ask p { j with configs := j.configs.take k ++ [bs] } 5 (j.sub + 1) s
    else match parseCfg bs with
      | none => attemptFails p j 3 s
      | some c =>
        if c.tooLarge then attemptFails p j 4 s
        else
          let j1 := { j with configs := j.configs.take k ++ [bs] }
          if k + 1 < sat 8 (byteAt j.dev 17) then ask p j1 5 (j.sub + 1) s else afterConfigs p j1 s
  | 6 =>
    if decide (bs.length < 2) || byteAt bs 1 != 3 || byteAt bs 0 != bs.length then attemptFails p j 3 s
    else if j.sub = 0 then ask p { j with langId := field bs 2 2 } 6 1 s
    else chooseConfig p { j with serial := crc32c bs, step := 7 } s
  | 8 => match parseCfg (j.configs.getD (j.chosen.getD 0) []) with
    | some c => configured p j c s
    | none => attemptFails p j 3 s
  | _ =>
    let multi := match parseCfg (j.configs.getD (j.chosen.getD 0) []) with | some c => j.speed == 2 && c.multiTT.isSome | none => false
    let ports := match (s.port p).inst j.addr with | some i => i.hubPorts | none => 0
    if j.sub = 0 then
      if !headOk bs (hubDescLen (byteAt bs 2)) 0x29 then attemptFails p j 3 s
      else
        let s1 := modTree p j.addr (fun i => { i with hubPorts := byteAt bs 2, pwrGood := byteAt bs 5 }) s
        if multi then ask p j 9 1 s1 else powerPort p j (byteAt bs 2) 1 s1
    else if j.sub = 1 then
      powerPort p j ports 1 (modTree p j.addr (fun i => { i with multiTT := true, alts := [(0, 1)] }) s)
    else powerPort p j ports j.sub s

/-- The result of an enumeration request (R50, R51). The abort of PORT_BUS_RESET is taken between steps (R270). R51 names a
STALL on a request of steps 1 to 5, 6 and 8; a STALL on one of step 9, the hub set-up, ends the attempt with cause STALL too:
a DESIGN CHOICE (notes/assumptions/136.md). So is cause 1, TIMEOUT, for a transfer that failed after its retries with neither a STALL
nor a time-out: the table of causes lists none for it (notes/assumptions/181.md). -/
def enumResult (p : Nat) (l : At) (r : EnumReply) (s : State) : State :=
  match s.jobAt p l with
  | none => s
  | some j =>
    if j.phase != .request then s
    else if s.resetAborted p j then abortReset p s
    else match r with
      | .done bs => replied p j bs s
      | .stall => if j.step = 6 then chooseConfig p { j with step := 7 } s else attemptFails p j 2 s
      | .failed => attemptFails p j 1 s

/-- A context of a hub, whose run begins at `first`: the status change context of the alternate setting in use is polled as class B at
32 microframes, and all belong to the HK32 (R60). Its phase is 0 (notes/assumptions/22.md). -/
def State.hubCtx (s : State) (p first alt : Nat) (x : Ctx) : Ctx :=
  if x.alt = alt then
    { x with active := true, devOwned := true, bound := true, cls := 1, exp := 5, nextDue := s.nextDue (epGroup (epid p first)) 32 0 }
  else { x with active := false, devOwned := true }

/-- The wait after SET_PORT_POWER ends: the status change context is created (R60). -/
def hubReady (p hub : Nat) (s : State) : State :=
  match (s.port p).jobs.find? (fun j => j.addr == hub && j.step == 10), (s.port p).inst hub with
  | some j, some i =>
    match parseCfg (j.configs.getD (j.chosen.getD 0) []) with
    | some c =>
      let alt := match i.alts.find? (fun a => a.1 == 0) with | some a => a.2 | none => 0
      endJob p j.loc (addCtxs p (i.firstIdx + 1) ((c.ctxs i).map (s.hubCtx p (i.firstIdx + 1) alt)) s)
    | none => endJob p j.loc s
  | _, _ => s

/-! ### Starting an enumeration -/

/-- A fresh enumeration at the root: SE0 for tRSTROOT (R42), at the speed that the pull-up showed until a chirp is answered
(R46, R47). -/
def startReset (p : Nat) (s : State) : State :=
  let j : Job := { loc := .root, speed := (s.port p).found, depth := 0, phase := .reset }
  emit (.busReset p) (modPort p (fun r => { r with bus := .resetting, jobs := [j], chirped := false, speed := r.found }) s)

/-- An instrument at a hub port is to be enumerated; `direct`: it is reset without a debounce (R78). -/
def queueBelow (direct : Bool) (p hub hport : Nat) (s : State) : State :=
  match (s.port p).inst hub, s.jobAt p (.hub hub hport) with
  | some i, none =>
    if i.hub then
      nextJob p (.hub hub hport) (modPort p (fun r =>
        { r with jobs := r.jobs ++ [{ loc := .hub hub hport, speed := 1, depth := i.depth + 1, phase := .queued, direct := direct }] }) s)
    else s
  | _, _ => s

/-- A connect change at a hub port (R61). -/
def connectBelow (p hub hport : Nat) (s : State) : State := queueBelow false p hub hport s

/-- The pause between attempts ends and the instrument is reset again (R51). -/
def resetAgain (p : Nat) (j : Job) (s : State) : State :=
  match j.loc with
  | .root => emit (.busReset p) (setJob p { j with phase := .reset } (modPort p (fun r => { r with chirped := false }) s))
  | .hub a h => resetBelow p a h j s

/-- Reset recovery ended: step 1 (R50). A hub reports its port's speed (R49). -/
def firstRequest (p : Nat) (j : Job) (hubSpeed : Nat) (s : State) : State :=
  let r := s.port p
  let speed := match j.loc with | .root => r.speed | .hub _ _ => hubSpeed
  let w := r.below speed j.loc
  ask p { j with speed := speed, depth := w.1, ttAddr := w.2.1, ttPort := w.2.2 } 1 0 s

/-! ### What hosts change through EP_CONTROL (R57, R58) -/

/-- A SET_CONFIGURATION of a host completes: contexts and CONFIGURED (R57). The status change context of a hub stays the HK32's (R60).
Where no run of indices is long enough, RESOURCE_LIMIT is posted and the instrument put back into the Address state without a
CONFIGURED: a DESIGN CHOICE, as R58 speaks of an enumeration (notes/assumptions/183.md). -/
def hostConfigured (p a value : Nat) (s : State) : State :=
  match (s.port p).inst a with
  | none => s
  | some i =>
    let mine := (s.instCtxs p a).filter fun e => e.2.ep != 0
    let s1 := foldS mine (fun e t => freeCtx 6 e.1 t) s
    let show_ (i1 : Inst) (t : State) : State := portEvent p 0x0102 a 0 0 i1.bytes (modTree p a (fun _ => i1) t)
    let bare := { i with cfg := value, ifCount := 0, ctxCount := 1, maxPower := 0, firstClass := 0, rwCapable := false,
                         selfPow := false, alts := [], held := false }
    match i.configs.filterMap parseCfg |>.find? (fun c => c.value == value) with
    | none => show_ bare s1
    | some c =>
      if value = 0 then show_ bare s1
      else match s1.freeRun p c.epCount with
        | none =>
          emit (.usbRequest p a (setup 0 9 0 0 0)) (portEvent p 0x0104 a 2 i.parent [] (modTree p a (fun _ => { bare with cfg := 0 }) s1))
        | some k =>
          let i1 := { i.configure c with ctxCount := 1 + c.epCount }
          let cs := c.ctxs i1
          show_ i1 (addCtxs p k (if i.hub then cs.map (s1.hubCtx p k 0) else cs) s1)

/-- A SET_INTERFACE of a host completes: the active set of contexts changes (R58). -/
def hostInterface (p a iface alt : Nat) (s : State) : State :=
  let s1 := modTree p a (fun i => { i with alts := (iface, alt) :: i.alts.filter fun x => x.1 != iface }) s
  foldS ((s1.instCtxs p a).filter fun e => e.2.iface == iface && !e.2.devOwned) (fun e t =>
    quiet [e.1] (if e.2.alt = alt then modCtx e.1 (fun c => { c with active := true, toggle := false }) t
      else modCtx e.1 (fun c => { c with active := false, toggle := false })
        (unbind e.1 (endXfers (fun x => x.epid == e.1) 6 t)))) s1

end Sys2Proof.Machine
end

