-- ==== Sys2Proof/Machine/PortCmds.lean ====
section
/-!
DEFINITION. The port commands (R274 to R276), resume and remote wake (R70 to R73), recovery after a logic-die reset (R76 to
R78), and the port bus events of the wire and the timers (R42).
-/
namespace Sys2Proof.Machine

/-! ### The ports that a command names -/

/-- A mask names present ports only, and the owners of the ports it names. -/
def maskPresent (ps : List Byte) (s : State) : Bool := (bitsOf 32 (field ps 0 4)).all s.hasPort
def maskOwners (ps : List Byte) (s : State) : List Nat := (bitsOf 32 (field ps 0 4)).map fun p => (s.port p).owner
/-- Byte 0 names a present port, and its owner. -/
def portPresent (ps : List Byte) (s : State) : Bool := s.hasPort (byteAt ps 0) || decide (32 ≤ byteAt ps 0)
def portOwners (ps : List Byte) (s : State) : List Nat := [(s.port (byteAt ps 0)).owner]
def portBad (ps : List Byte) : Bool := decide (32 ≤ byteAt ps 0)

/-! ### PORT_ENABLE and PORT_DISABLE -/

def portEnableCmd : CmdSpec :=
  { len := 4, present := maskPresent, owners := maskOwners,
    run := fun c s =>
      let ps := bitsOf 32 (field c.params 0 4)
      if ps.any (fun p => (s.port p).shed) then (s, .final stBudget [])
      else if ps.any (fun p => (s.port p).sw == .isolated || s.pgIsolated p) then (s, .final stLocked [])
      else
        let todo := ps.filter fun p => (s.port p).bus == .disabled
        if todo.isEmpty then (s, .final stAlready (u32 0))
        else (foldS todo toUnattached s, .final stOk (u32 (maskOf todo))) }

/-- A port disabled by its owner also leaves the shed and the renegotiated set (R162, R276). -/
def disablePort (p : Nat) (s : State) : State :=
  let s1 := modPort p (fun r => { r with shed := false, reneg := false, prior := 0 }) s
  if (s.port p).bus == .disabled then s1 else toDisabled p s1

def portDisableCmd : CmdSpec :=
  { len := 4, present := maskPresent, owners := maskOwners,
    run := fun c s =>
      let todo := (bitsOf 32 (field c.params 0 4)).filter fun p => (s.port p).bus != .disabled || (s.port p).shed
      if todo.isEmpty then (s, .final stAlready (u32 0))
      else (foldS todo disablePort s, .final stOk (u32 (maskOf todo))) }

/-! ### PORT_STATUS and TREE_LIST -/

/-- The policy byte (R274, R275). -/
def Policy.byte (q : Policy) : Nat := q.mode % 4 + 4 * b2n q.hsEnable + 8 * b2n q.remoteWake

/-- Contexts of a port: all, and class A bound (R275, R538). -/
def State.ctxCount (s : State) (p : Nat) : Nat := (s.portCtxs p).length
def State.ctxCountA (s : State) (p : Nat) : Nat := ((s.portCtxs p).filter fun e => e.2.periodic && e.2.cls == 0).length

/-- Table — PORT_STATUS result. -/
def State.portStatus (s : State) (p : Nat) : List Byte :=
  let r := s.port p
  u8 r.bus.code ++ u8 (if r.speed < 3 then r.speed else 0xFF) ++
  u8 (b2n r.shed + 2 * b2n r.reneg + 4 * b2n r.cc2 + 8 * b2n (r.tree.any fun i => i.resumed) + 16 * b2n r.calibrating) ++
  u8 r.owner ++ u8 r.tree.length ++ u8 r.fails ++ u16 r.partials ++ u16 (s.ctxCount p) ++ u16 (s.ctxCountA p) ++
  u32 r.attachSeq.toNat ++ u16 r.vbusMv ++ u16 r.currMa ++ u8 r.policy.byte ++ u8 r.rank ++ [0, 0]

def portStatusCmd : CmdSpec :=
  { len := 4, present := portPresent, bad := fun c _ => portBad c.params || !zeros c.params [(1, 3)],
    run := fun c s =>
      let t := measure (byteAt c.params 0) s
      (t, .final stOk (t.portStatus (byteAt c.params 0))) }

def treeListCmd : CmdSpec :=
  { len := 4, present := portPresent, bad := fun c _ => portBad c.params || !zeros c.params [(2, 2)],
    run := fun c s =>
      let t := sortBy (fun a b => decide (a.addr < b.addr)) (s.port (byteAt c.params 0)).tree
      let got := (t.drop (byteAt c.params 1)).take 7
      (s, .final stOk (u8 t.length ++ u8 got.length ++ [0, 0] ++ got.flatMap Inst.bytes)) }

/-! ### PORT_BUS_RESET -/

def portBusResetCmd : CmdSpec :=
  { len := 4, present := portPresent, owners := portOwners, bad := fun c _ => portBad c.params || !zeros c.params [(1, 3)],
    run := fun c s =>
      let p := byteAt c.params 0
      let r := s.port p
      if (r.bus != .running && r.bus != .error) || s.busyPort p || r.pd.st == .hardReset || s.pgIsolated p then (s, .final stLocked [])
      else (startReset p (freeTree p 1 s), .running stAccepted (keyPort p) []) }

/-! ### PORT_SUSPEND and PORT_RESUME -/

/-- A place in a port's tree: hub address 0 is the whole tree. -/
def atOf (hub hport : Nat) : At := if hub = 0 then .root else .hub hub hport

/-- The location that PORT_SUSPEND and PORT_RESUME name. -/
def suspLoc (ps : List Byte) : At := atOf (byteAt ps 1) (byteAt ps 2)

/-- A hub address names a hub of the tree and one of its ports; the whole tree has hub port 0. -/
def State.locOk (s : State) (p : Nat) (ps : List Byte) : Bool :=
  match suspLoc ps with
  | .root => byteAt ps 2 == 0
  | .hub a h => match (s.port p).inst a with
    | some i => i.hub && decide (1 ≤ h ∧ h ≤ i.hubPorts)
    | none => false

def suspBad (c : Cmd) (s : State) : Bool :=
  portBad c.params || !zeros c.params [(3, 1)] || !s.locOk (byteAt c.params 0) c.params

def portSuspendCmd : CmdSpec :=
  { len := 4, present := portPresent, owners := portOwners, bad := suspBad,
    run := fun c s =>
      let p := byteAt c.params 0
      let l := suspLoc c.params
      let r := s.port p
      let done : Bool := match l with | .root => r.bus == .suspended | .hub a h => r.suspHub.contains (a, h)
      if done then (s, .final stAlready [])
      else if (r.bus != .running && r.bus != .enumerating) || s.busyPort p || r.pd.st == .hardReset then
        (s, .final stLocked [])
      else if s.enumerating p l then
        (modPort p (fun r => { r with suspAsk := r.suspAsk ++ [l] }) s, .running stAccepted (keyPort p) [])
      else (doSuspend p l s, .final stOk []) }

/-- The resume of a tree or of a hub port starts (R70). -/
def startResume (p : Nat) (w : Resume) (s : State) : State :=
  match w.loc with
  | .root => emit (.busK p) (modPort p (fun r => { r with bus := .resuming, resume := some w }) s)
  | .hub a h => emit (.usbRequest p a (setup 0x23 1 2 h 0)) (modPort p (fun r => { r with hubResumes := r.hubResumes ++ [w] }) s)

/-- The resume in progress at a location. -/
def Port.resumeAt (r : Port) : At → Option Resume
  | .root => r.resume
  | .hub a h => r.hubResumes.find? fun w => w.loc == .hub a h
/-- Replaces the resume in progress at a location. -/
def setResume (p : Nat) (w : Resume) (s : State) : State :=
  match w.loc with
  | .root => modPort p (fun r => { r with resume := some w }) s
  | .hub _ _ => modPort p (fun r => { r with hubResumes := r.hubResumes.map fun x => if x.loc == w.loc then w else x }) s

def portResumeCmd : CmdSpec :=
  { len := 4, present := portPresent, owners := portOwners, bad := suspBad,
    run := fun c s =>
      let p := byteAt c.params 0
      let l := suspLoc c.params
      let r := s.port p
      let susp : Bool := match l with | .root => r.bus == .suspended | .hub a h => r.suspHub.contains (a, h)
      match r.resumeAt l with
      | some w =>
        if w.byInst && !s.busyPort p then (setResume p { w with byHost := true } s, .final stOk [])
        else (s, .final stLocked [])
      | none =>
        if !susp then (s, .final stAlready [])
        else if s.busyPort p then (s, .final stLocked [])
        else (startResume p { loc := l, byHost := true, byInst := false } s, .running stAccepted (keyPort p) []) }

/-- A remote wake K on a suspended root port (R71), or during a host resume that still drives K (R73). In DOZE it wakes nothing while
trigger 3 is disabled (R466). -/
def remoteWake (p : Nat) (s : State) : State :=
  let r := s.port p
  if s.dev.power == .doze && !bitOf s.power.wakeEnable 1 then s
  else if r.bus == .suspended then startResume p { loc := .root, byHost := false, byInst := true } s
  else match r.resume with
    | some w => if r.bus == .resuming && !w.kDone && !w.recovery then
        modPort p (fun r => { r with resume := some { w with byInst := true } }) s else s
    | none => s

/-- A hub reports that one of its ports has resumed: the end of a host's resume (R70), else a remote wake below a suspended
port (R71). -/
def hubResumed (p a h : Nat) (s : State) : State :=
  let r := s.port p
  match r.resumeAt (.hub a h) with
  | some w => setResume p { w with kDone := true } s
  | none =>
    if r.suspHub.contains (a, h) then
      modPort p (fun r => { r with hubResumes := r.hubResumes ++ [{ loc := .hub a h, byHost := false, byInst := true, kDone := true }] }) s
    else s

/-- Resume K ends with a low-speed EOP, and SOF restarts (R70). -/
def resumeKEnds (p : Nat) (s : State) : State :=
  match (s.port p).resume with
  | some w => if (s.port p).bus == .resuming && !w.kDone then
      emit (.sofStart p) (emit (.lsEop p) (modPort p (fun r => { r with resume := some { w with kDone := true } }) s)) else s
  | none => s

/-- Whether an instrument lies in the part of the tree that resumes. -/
def Port.within (r : Port) (l : At) (a : Nat) : Bool :=
  match l with
  | .root => true
  | .hub hub h => belowPort r.tree hub h 8 a

/-- Class A and B contexts of a resumed part take their first due slot after now (R70). -/
def freshDue (p : Nat) (l : At) (s : State) : State :=
  foldS ((s.portCtxs p).filter fun e => (s.port p).within l e.2.addr) (fun e t =>
    if e.2.periodic then modCtx e.1 (fun c => { c with nextDue := s.nextDue (epGroup e.1) c.effPeriod c.phase }) t else t) s

/-- RESUMED, and the end of PORT_RESUME (R72, R73, R274). -/
def resumed (p : Nat) (w : Resume) (waker : Nat) (s : State) : State :=
  let cause := if w.byInst then (if w.byHost then 3 else 2) else 1
  let who := if w.byInst then waker else 0
  finishPort p 0x0105 stOk (u8 cause ++ u8 who) (portEvent p 0x0107 0 cause who [] s)

/-- The instrument that a finished scan names: the one at the deepest hub port that reports a change, else one that answered
as waking, else the top of the resumed part. How the answers name it is a DESIGN CHOICE (notes/assumptions/137.md). -/
def Scan.waker (k : Scan) (tree : List Inst) : Nat :=
  let at_ := tree.filter fun i => k.changed.contains (i.parent, i.parentPort)
  let top := tree.find? fun i => match k.w.loc with
    | .root => i.parent == 0
    | .hub a h => i.parent == a && i.parentPort == h
  match deepFirst at_, k.waking, top with
  | i :: _, _, _ => i.addr
  | [], a :: _, _ => a
  | [], [], some i => i.addr
  | [], [], none => 0

/-- A scan goes on: the ports of the hubs first, then GET_STATUS to the instruments whose parent reports no change, then
RESUMED (R72). `asked`: the GET_STATUS requests are out. -/
def scanOn (p : Nat) (k : Scan) (asked : Bool) (s : State) : State :=
  let r := s.port p
  let put (l : List Scan) (t : State) : State := modPort p (fun r => { r with scans := r.scans.filter (fun x => x.w.loc != k.w.loc) ++ l }) t
  if !k.hubs.isEmpty then put [k] s
  else
    let ask := (r.tree.filter fun i => r.within k.w.loc i.addr && !k.changed.contains (i.parent, i.parentPort)).map (·.addr)
    let k1 := if asked then k else { k with insts := ask }
    let s1 := if asked then s else foldS ask (fun a t => emit (.usbRequest p a (setup 0x80 0 0 0 2)) t) s
    if k1.insts.isEmpty then resumed p k1.w (k1.waker r.tree) (put [] s1) else put [k1] s1

/-- The scan for the waking instrument starts: the port status of each hub in the resumed part (R72). -/
def startScan (p : Nat) (w : Resume) (s : State) : State :=
  let r := s.port p
  let ports := (r.tree.filter fun i => i.hub && r.within w.loc i.addr).flatMap fun i => (upTo i.hubPorts).map fun k => (i.addr, k + 1)
  scanOn p { w := w, hubs := ports } false (foldS ports (fun x t => emit (.usbRequest p x.1 (setup 0xA3 0 0 x.2 4)) t) s)

/-- A GetPortStatus answers: a scan that asked takes it, else the hub reports the end of a resume. -/
def portStatusRead (p a h : Nat) (res : Bool) (s : State) : State :=
  match (s.port p).scans.find? fun k => k.hubs.contains (a, h) with
  | some k =>
    scanOn p { k with hubs := k.hubs.filter (· != (a, h)), changed := if res then (a, h) :: k.changed else k.changed } false s
  | none => if res then hubResumed p a h s else s

/-- A GET_STATUS of a scan answers. -/
def devStatusRead (p a : Nat) (waking : Bool) (s : State) : State :=
  match (s.port p).scans.find? fun k => k.insts.contains a with
  | some k => scanOn p { k with insts := k.insts.filter (· != a), waking := if waking then k.waking ++ [a] else k.waking } true s
  | none => s

/-- A request of a scan has taken tCTRL: the oldest that waits counts as answered with no change. -/
def scanTimeout (p : Nat) (s : State) : State :=
  match (s.port p).scans with
  | [] => s
  | k :: _ => match k.hubs, k.insts with
    | x :: _, _ => portStatusRead p x.1 x.2 false s
    | [], a :: _ => devStatusRead p a false s
    | [], [] => s

/-! ### Recovery (R76 to R78) -/

/-- Every instrument is handled: BUS_RESUMED, and the port runs (R78 step 9). -/
def recoveryDone (p : Nat) (s : State) : State :=
  let r := s.port p
  if r.verify.isEmpty && r.logicRst then
    portEvent p 0x0108 0 (sat 255 r.verified) (sat 255 r.reEnum) []
      (modPort p (fun r => { r with logicRst := false, resume := none, verified := 0, reEnum := 0 }) s)
  else s

/-- What step 5 of the verification sends to one instrument (R78). -/
def verifyInst (p : Nat) (i : Inst) (s : State) : State :=
  let s1 := emit (.usbRequest p i.addr (setup 0x80 8 0 0 1)) (emit (.usbRequest p i.addr (setup 0x80 6 0x0100 0 18)) s)
  if i.hub then foldS (upTo i.hubPorts) (fun k t => emit (.usbRequest p i.addr (setup 0xA3 0 0 (k + 1) 4)) t) s1 else s1

/-- Recovery resumed the bus: the verification of step 5 starts, from the root down. -/
def startVerify (p : Nat) (s : State) : State :=
  let order := sortBy (fun a b => decide (a.depth < b.depth) || (a.depth == b.depth && decide (a.addr < b.addr))) (s.port p).tree
  let s1 := modPort p (fun r => { r with bus := .running, resume := none, logicRst := true, verify := order.map (·.addr),
                                         verified := 0, reEnum := 0 }) s
  recoveryDone p (foldS order (verifyInst p) s1)

/-- A hub reports a change on one of its ports (R61, R75, R78 step 8). -/
def hubChange (p hub : Nat) (c : Nat × HubChange) (s : State) : State :=
  match c.2 with
  | .connect => connectBelow p hub c.1 (freeBelow p 0 hub c.1 s)
  | .disconnect => freeBelow p 0 hub c.1 s

/-- The answer of a stored instrument (R78 steps 5 to 8). -/
def verified (p a : Nat) (ans : Option (List Byte × Nat)) (changes : List (Nat × HubChange)) (s : State) : State :=
  let r := s.port p
  match r.inst a with
  | none => s
  | some i =>
    if !r.verify.contains a then s
    else
      let ok := match ans with
        | some (d, cfg) => headOk d 18 1 && field d 8 2 == i.vid.toNat && field d 10 2 == i.pid.toNat &&
            field d 12 2 == i.bcd.toNat && cfg == i.cfg
        | none => false
      if ok then
        let s1 := modTree p a (fun i => { i with resumed := true })
          (modPort p (fun r => { r with verify := r.verify.filter (· != a), verified := r.verified + 1 }) s)
        let s2 := foldS (s1.instCtxs p a) (fun e t =>
          modCtx e.1 (fun c => { c with recovering := false, nextDue := if c.periodic then s.nextDue (epGroup e.1) c.effPeriod c.phase else c.nextDue }) t) s1
        recoveryDone p (foldS changes (hubChange p a) s2)
      else
        let s1 := modPort p (fun r => { r with reEnum := r.reEnum + 1 }) (freeSub p 4 a s)
        if i.parent = 0 then startReset p (recoveryDone p s1)
        else recoveryDone p (queueBelow true p i.parent i.parentPort s1)

/-- A port whose validation fails is reset; the stored instruments leave with code 4 (R42, R76). -/
def recoveryFails (p : Nat) (s : State) : State := startReset p (freeTree p 4 s)

/-- The resumed part runs again: after an instrument's wake the scan finds the waker first (R72). -/
def runsAgain (p : Nat) (w : Resume) (s : State) : State :=
  let s1 := freshDue p w.loc s
  if w.byInst then startScan p w s1 else resumed p w 0 s1

/-- Resume recovery ends (R70, R72, R78). -/
def recoveryEnds (p : Nat) (l : At) (s : State) : State :=
  let r := s.port p
  match l, r.resumeAt l with
  | _, none => s
  | .root, some w =>
    if r.bus != .resuming || !w.kDone then s
    else if w.recovery then startVerify p s
    else runsAgain p w (modPort p (fun r => { r with bus := .running, resume := none }) s)
  | .hub a h, some w =>
    if !w.kDone then s
    else runsAgain p w (modPort p (fun r =>
      { r with suspHub := r.suspHub.filter (· != (a, h)), hubResumes := r.hubResumes.filter (fun x => x.loc != l) }) s)

/-! ### PORT_POWER_CYCLE -/

def portPowerCycleCmd : CmdSpec :=
  { len := 4, present := portPresent, owners := portOwners,
    bad := fun c _ => portBad c.params || !zeros c.params [(2, 2)] || decide (100 < byteAt c.params 1),
    run := fun c s =>
      let p := byteAt c.params 0
      let r := s.port p
      if r.bus == .disabled || r.sw == .isolated || s.busyPort p || s.pgIsolated p then (s, .final stLocked [])
      else
        let s1 := openPaths p (leaveBus p 1 s)
        let s2 := if r.sw == .latched then pathEvent p 0x0327 1 0 s1 else s1
        let s3 := modPort p (fun r => { r with sw := .off, latchRail := false, bus := .latchedOff }) s2
        (s3, .running stAccepted (keyPort p) []) }

/-- off_time ends: UNATTACHED, and the command completes (R385). -/
def offTimeEnds (p : Nat) (s : State) : State :=
  match s.opAt (keyPort p) with
  | some o => if o.opcode = 0x0106#16 then toUnattached p (finishPort p 0x0106 stOk (u8 1) s) else s
  | none => s

/-! ### PORT_SET_POLICY (R54, R45) -/

/-- A timer field: 0, or within its range in its unit. -/
def timerOk (v lo hi : Nat) : Bool := v == 0 || decide (lo ≤ v ∧ v ≤ hi)

def portSetPolicyCmd : CmdSpec :=
  { len := 16, present := portPresent, owners := portOwners,
    bad := fun c _ =>
      let b := byteAt c.params 1
      portBad c.params || b % 4 == 3 || decide (16 ≤ b) || decide (3 < byteAt c.params 2) || !zeros c.params [(3, 1), (14, 2)] ||
      !timerOk (field c.params 8 2) 1 100 || !timerOk (field c.params 10 2) 5 500 || !timerOk (field c.params 12 2) 2 100,
    run := fun c s =>
      let p := byteAt c.params 0
      let b := byteAt c.params 1
      let keep (v unit old : Nat) : Nat := if v = 0 then old else v * unit
      let f (r : Port) : Port :=
        { r with owner := if byteAt c.params 2 = 3 then r.owner else byteAt c.params 2,
                 policy := { mode := b % 4, hsEnable := bitOf b 2, remoteWake := bitOf b 3,
                             classes := [byteAt c.params 4, byteAt c.params 5, byteAt c.params 6, byteAt c.params 7],
                             tConnect := keep (field c.params 8 2) 100 r.policy.tConnect,
                             tCtrl := keep (field c.params 10 2) 10 r.policy.tCtrl,
                             tRetry := keep (field c.params 12 2) 10 r.policy.tRetry } }
      if claimLost c (s.port p).owner then (s, .final stNotOwner []) else (modPort p f s, .final stOk []) }

/-! ### Wire and timer events of the bus (R42, R46, R47) -/

/-- The logic die runs the bus machines: Mboter is ready, in a state with ports (R43, R32: a warm restart leaves the buses
alone). -/
def State.busRuns (s : State) : Bool :=
  (s.dev.phase == .ready || s.dev.phase == .warm) && s.dev.power != .service && s.dev.power != .hibernate

/-- Rd appears; after a detach in a transition it waits for vSafe0V (R42, R357). -/
def ccSeen (p : Nat) (cc : CcSeen) (s : State) : State :=
  let s1 := modPort p (fun r => { r with rd := some cc }) s
  if s.busRuns && (s.port p).bus == .unattached && (s.port p).pd.sub != .goneSafe0 then seeRd p s1 else s1

def ccLost (p : Nat) (s : State) : State :=
  let r := s.port p
  modPort p (fun r => { r with rd := none, accessory := false, bus := if r.bus == .attachWait then .unattached else r.bus }) s
    |> fun t => if r.bus == .attachWait then modPort p (fun r => { r with cc2 := false }) t else t

/-- tCCDEBOUNCE elapsed: the low path closes; the Rp weight counts (R42, R151). -/
def ccDebounced (p : Nat) (s : State) : State :=
  if s.busRuns && (s.port p).bus == .attachWait then
    let s1 := closeLow p (modPort p (fun r => { r with bus := .powering }) s)
    if (s1.port p).bus == .powering then modPort p (fun r => { r with weight := r.rpWeight }) s1 else s1
  else s

/-- A pull-up appears or is lost (R42). While the PLU is gated the port stays where it is, and goes on at the wake (R459). -/
def pullup (p : Nat) (s : State) : State :=
  let b := (s.port p).bus
  if s.busRuns && (b == .connectWait || b == .powerOnly) then
    modPort p (fun r => if s.pluGated p then { r with pullUp := true } else { r with bus := .connectDebounce }) s
  else s
def pullupGone (p : Nat) (s : State) : State :=
  let s1 := modPort p (fun r => { r with pullUp := false }) s
  if s.busRuns && (s.port p).bus == .connectDebounce then modPort p (fun r => { r with bus := .connectWait }) s1 else s1

def connectTimeout (p : Nat) (s : State) : State :=
  if s.busRuns && (s.port p).bus == .connectWait then portEvent p 0x0105 0 0 0 [] (modPort p (fun r => { r with bus := .powerOnly }) s)
  else s

/-- tATTDB elapsed at the root or at a hub port (R42, R46, R49, R61); while the PLU is gated the port waits in CONNECT_WAIT (R459). -/
def debounced (p : Nat) (l : At) (dplus : Bool) (s : State) : State :=
  match l with
  | .root =>
    if s.busRuns && (s.port p).bus == .connectDebounce && s.pluGated p then
      modPort p (fun r => { r with bus := .connectWait, pullUp := true }) s
    else if s.busRuns && (s.port p).bus == .connectDebounce then
      startReset p (modPort p (fun r => { r with found := b2n dplus, fails := 0 }) s)
    else s
  | .hub a h => match s.jobAt p l with
    | some j => if j.phase == .debounce then resetBelow p a h j s else s
    | none => s

/-- The root reset is under way: the first of the port, or one between attempts. -/
def State.rootReset (s : State) (p : Nat) : Bool :=
  (match s.jobAt p .root with | some j => j.phase == .reset | none => false) &&
  ((s.port p).bus == .resetting || (s.port p).bus == .enumerating)

/-- Chirp K of at least 1.0 ms from a full-speed instrument is answered when hs_enable is 1 (R47). -/
def chirpK (p us : Nat) (s : State) : State :=
  let r := s.port p
  if s.rootReset p && r.policy.hsEnable && decide (1000 ≤ us) && r.speed != 0 && !r.chirped then
    emit (.chirpKJ p) (modPort p (fun r => { r with chirped := true }) s)
  else s

/-- The root reset ends: SOF at the speed found (R42, R47). -/
def rootResetEnds (p : Nat) (s : State) : State :=
  match s.jobAt p .root with
  | some j =>
    if s.rootReset p then
      let f (r : Port) : Port := { r with bus := .enumerating, speed := if r.chirped then 2 else r.found }
      setJob p { j with phase := .recovery } (emit (.sofStart p) (modPort p f s))
    else s
  | none => s

/-- Root babble (R42): PORT_ERROR, then a reset with the tree freed and the port's commands ended as on detach (R269), or
ERROR the second time within 10 s. -/
def babble (p : Nat) (s : State) : State :=
  let r := s.port p
  if r.bus != .running then s
  else
    let s1 := portEvent p 0x0109 0 1 0 [] (modPort p (fun r => { r with babbleAt := some s.dev.monoNs }) s)
    let again := match r.babbleAt with | some t => decide (s.dev.monoNs < t + 10000000000) | none => false
    if again then deferredSuspend p (rootEnds p .error s1) else startReset p (freeTree p 1 (preempt p s1))

/-- A disconnect, over-current or a hub that disabled its port (R61, R64, R75). Code 0, removed, stands in the DETACH of every
instrument below, also where the hub cut its port: a DESIGN CHOICE (notes/assumptions/182.md). -/
def belowGone (p hub hport : Nat) (why : HubGone) (s : State) : State :=
  let s1 := match why with
    | .removed => s
    | .overCurrent => portEvent p 0x0109 hub 2 hport [] s
    | .disabledByHub => portEvent p 0x0109 hub 3 hport [] s
  deferredSuspend p (nextJob p (.hub hub hport) (freeBelow p 0 hub hport s1))

end Sys2Proof.Machine
end

