-- ==== Sys2Proof/Machine/Pd.lean ====
section
/-!
DEFINITION. The contract layer (R339 to R375): offers, Requests and their funding, transitions, Hard Reset, data role swap,
VDMs and the Timebase mode, the service port as a sink, and the commands of the power contract group (R287, R288).
-/
namespace Sys2Proof.Machine

/-! ### Records -/

/-- The contract record of a port, or of the service port, port 32. -/
def State.pdOf (s : State) (p : Nat) : PdRec := if p = 32 then s.svc.pd else (s.port p).pd
def modPdOf (p : Nat) (f : PdRec → PdRec) (s : State) : State :=
  if p = 32 then modSvc (fun v => { v with pd := f v.pd }) s else modPd p f s

/-- A downstream port that sends no message: its bus is not powered and not swapped, it has stopped until the next attach, or it has
detached in a transition (R346, R347, R357). -/
def State.pdMute (s : State) (p : Nat) : Bool :=
  decide (p < 32) && ((s.port p).pd.quiet || (s.port p).pd.sub == .gone || !((s.port p).bus.powered || (s.port p).bus == .ufpSwapped))

/-- Sends a PD message, unless the port sends nothing. -/
def pdSend (p : Nat) (m : PdMsg) (words : List Nat) (s : State) : State :=
  if s.pdMute p then s else emit (.pd p m (words.map (BitVec.ofNat 32))) s

/-- The Rp level a powered port advertises, as a code of PD_SET_CAPS byte 3: that of the byte without an explicit contract. In one, 2
(3.0 A, SinkTxOk), and 1 (1.5 A, SinkTxNG) while a message sequence that the HK32 started runs (R345; notes/assumptions/171.md). -/
def State.rpShown (s : State) (p : Nat) : Option Nat :=
  let r := s.port p
  let d := r.pd
  let explicit := d.volt != 0 && (d.st == .negotiating || d.st == .contract || d.st == .transition)
  if !r.bus.powered then none
  else if !explicit then some d.caps.rp
  else if d.ams || (d.ask.isSome && d.askSent) then some 1 else some 2

/-- The VDM header of structured VDM 2.0 (R366): SVID, kind (0 request, 1 ACK, 2 NAK), object position and command
(notes/assumptions/170.md). -/
def vdmHead (svid kind pos cmd : Nat) : Nat := svid * 2 ^ 16 + 2 ^ 15 + 2 ^ 13 + pos * 2 ^ 8 + kind * 2 ^ 6 + cmd

/-- The SVID of Discover Identity and Discover SVIDs, and the command codes. -/
def svidPd : Nat := 0xFF00

/-- A feed is present: in ON or LIMIT (R392). -/
def Feed.gives (f : Feed) : Bool := f.st == .on || f.st == .limit
def State.feedPresent (s : State) : Bool := s.feedA.gives || s.feedB.gives

/-! ### Offers (R343, R344, R353) -/

def pdo5 : Nat → Nat | 0 => 0x1601905A | 1 => 0x16019096 | _ => 0x1601912C
def pdo15 : Nat := 0x0004B12C

/-- The 15 V PDO is in the port's current offer (R344). -/
def State.offers15 (s : State) (p : Nat) : Bool :=
  let r := s.port p
  r.pd.caps.en15 && s.board.rail15 && !r.reneg

/-- Sends Source_Capabilities with the current offer. -/
def sendCaps (p : Nat) (s : State) : State :=
  let r := s.port p
  let with15 := s.offers15 p
  pdSend p .sourceCaps (pdo5 r.pd.caps.amp5 :: (if with15 then [pdo15] else []))
    (modPd p (fun d => { d with sent5 := some d.caps.amp5, sent15 := with15, tSender := false, ams := true }) s)

/-- A new offer (R353). A port that negotiates is sent it in place of the offer before, and one in transition once it is back
in state 2, so that every contract comes to the new capabilities (R162, R288; notes/assumptions/149.md). -/
def newOffer (p : Nat) (s : State) : State :=
  match (s.port p).pd.st with
  | .contract => sendCaps p (modPd p (fun d => { d with st := .negotiating }) s)
  | .negotiating => sendCaps p s
  | .transition => modPd p (fun d => { d with offerDue := true }) s
  | _ => s

/-- State 0 with Source_Capabilities from the first send on (R346). -/
def startCaps (p : Nat) (s : State) : State :=
  sendCaps p (modPd p (fun d => { d with st := .noContract, sub := .none, sends := 1, quiet := false, tSender := false }) s)

/-- tCAPS_REPEAT elapsed (R346). -/
def capsRepeat (p : Nat) (s : State) : State :=
  let d := (s.port p).pd
  if d.st != .noContract || d.quiet || d.sends == 0 then s
  else if 50 ≤ d.sends then pdEvent p 0x0509 1 0 (modPd p (fun d => { d with quiet := true }) s)
  else sendCaps p (modPd p (fun d => { d with sends := d.sends + 1 }) s)

/-! ### Ledger figures that funding needs (R150, R151) -/

/-- The feed budget F in mW, of the feeds that are present. -/
def State.feedBudget (s : State) : Nat :=
  let l := s.ledger
  let a := if s.feedA.gives then [l.feedA] else []
  let b := if s.feedB.gives then [l.feedB] else []
  let fs := a ++ b
  1000 * (if l.shared then sumBy (fun x => x) fs
          else match fs with | [x, y] => if x < y then x else y | [x] => x | _ => 0)

/-- Committed port power: the sum of the weights, in mW. -/
def State.committed (s : State) : Nat := sumBy (fun p => (s.port p).weight) (upTo s.nPorts)

/-- The port funds in mW. -/
def State.funds (s : State) : Int :=
  let left : Int := s.feedBudget - s.ledger.dMw - 1000 * s.ledger.overheadW
  if (1000 * s.ledger.portW : Int) < left then 1000 * s.ledger.portW else left

/-- Step 5 of either order is in force. -/
def State.refusing (s : State) : Bool := heatHas s.ledger 5 || feedHas s.ledger 5

/-! ### Requests (R349 to R352) -/

/-- Why a Request is rejected, if it is: 1 outside the current offer, 2 invalid (R350). The 5 V PDO counts with the smaller of
the current that was sent and the configured maximum (R288, R349). -/
def State.requestBad (s : State) (p pos op mx : Nat) (mismatch : Bool) : Option Nat :=
  let d := (s.port p).pd
  let ma := if pos = 1 then (match d.sent5 with | some a => sat (pdo5Ma a) (pdo5Ma d.caps.amp5) | none => 0)
    else if pos = 2 ∧ d.sent15 = true ∧ s.offers15 p = true then 3000 else 0
  if ma = 0 then some 1
  else if mx < op ∨ (ma < mx ∧ mismatch = false) ∨ ma < op then some 2 else none

def posVolt : Nat → Nat | 1 => 1 | 2 => 2 | _ => 0

/-- A Request arrives (R346, R349). -/
def request (p : Nat) (rdo : Word) (s : State) : State :=
  let d := (s.port p).pd
  if d.st != .negotiating && d.st != .contract then s
  else
    let v := rdo.toNat
    let pos := v / 2 ^ 28
    let op := v / 2 ^ 10 % 1024 * 10
    let mx := v % 1024 * 10
    let s1 := modPd p (fun d => { d with tSender := false }) s
    match s.requestBad p pos op mx (bitOf v 26) with
    | some why =>
      let s2 := modPd p (fun d => { d with wait := false, rejected := true, ams := false }) (pdSend p .reject [] s1)
      pdEvent p 0x0502 why (posVolt pos) (setSqc (aPortPd p) [9] s2)
    | none =>
      let w := volts (posVolt pos) * op
      let now := (s.port p).weight
      let funded := decide (w ≤ now) || (!s.refusing && decide ((s.committed + (w - now) : Int) ≤ s.funds))
      if funded then
        setWeight p (if now < w then w else now)
          (modPd p (fun d => { d with st := .transition, sub := .accepted, newVolt := posVolt pos, newMa := op, wait := false,
                                      rejected := false }) (pdSend p .accept [] s1))
      else
        let reason := if heatHas s.ledger 5 then 1 else 2
        let s2 := modPd p (fun d => { d with wait := true, rejected := false, ams := false }) (pdSend p .wait [] s1)
        if d.wait then s2 else pdEvent p 0x0501 reason (posVolt pos) s2

/-! ### Transitions (R354, R355, R591) -/

/-- The voltage code of the path that is closed. -/
def Sw.volt : Sw → Nat
  | .loOn => 1
  | .hiOn => 2
  | _ => 0

/-- PS_RDY: the contract stands (R346, R351). -/
def psReady (p : Nat) (s : State) : State :=
  let d := (s.port p).pd
  let s1 := modPort p (fun r => { r with renegRun := r.renegRun && d.offerDue, weight := volts d.newVolt * d.newMa }) (pdSend p .psRdy [] s)
  let s2 := modPd p (fun d => { d with st := .contract, sub := .none, volt := d.newVolt, opMa := d.newMa, resets := 0,
                                       offerDue := false, ams := false }) s1
  let s3 := pdEvent p 0x0500 d.newVolt (d.newMa / 100) s2
  if d.offerDue then newOffer p s3 else s3

/-- tSRC_TRANS elapsed: the paths move, or PS_RDY follows at once where the voltage stays. -/
def transStart (p : Nat) (s : State) : State :=
  let r := s.port p
  if r.pd.st != .transition || r.pd.sub != .timing then s
  else
    let s1 := modPd p (fun d => { d with sub := .moving }) s
    if r.sw.volt = r.pd.newVolt then (if r.pg then psReady p s1 else s1)
    else if r.sw = .loOn then modPort p (fun r => { r with sw := .gap, pg := false, atLimit := false }) s1
    else if r.sw = .hiOn then modPort p (fun r => { r with sw := .stepdown, pg := false, atLimit := false }) s1
    else s1

/-! ### Hard Reset (R347, R358 to R360) -/

/-- Ends what a Hard Reset ends: a swap, discovery or mode command of the port (Table — Pre-emption). -/
def hrPreempt (p : Nat) (s : State) : State :=
  match s.opAt (keyPort p) with
  | some o =>
    if o.opcode = 0x0502#16 ∨ o.opcode = 0x0504#16 ∨ o.opcode = 0x0505#16 then
      finishOp o.host o.tag stAborted (if o.opcode = 0x0502#16 then u8 2 ++ u8 (s.role p) else []) s
    else s
  | none => s

/-- nHARDRESET Hard Resets have been sent and no contract has formed since: no further one until the next attach (R347). -/
def State.hrSpent (s : State) (p : Nat) : Bool := decide (2 ≤ (s.port p).pd.resets)

/-- A Hard Reset starts, sent by the HK32 or received; one that is running is joined (R358, R360). A port that has stopped sending stays
so (R346, R347). -/
def hardReset (p : Nat) (sent : Bool) (cause : Nat) (s : State) : State :=
  let d := (s.port p).pd
  if d.st == .hardReset || !(s.port p).bus.powered || d.sub == .gone || (sent && s.hrSpent p) then s
  else
    let s0 := hrPreempt p s
    let s1 := altExit p 3 (if sent then emit (.pdHardReset p) s0 else s0)
    let failed := d.ask == some .swap
    let s2 := modPd p (fun d => { caps := d.caps, st := .hardReset, sub := .hrWaitOpen, volt := d.volt, opMa := d.opMa,
                                  wait := d.wait, rejected := d.rejected, resets := d.resets + b2n sent,
                                  quiet := d.quiet }) s1
    let s3 := pdEvent p 0x0505 (b2n !sent) cause (setSqc (aPortPd p) [8] s2)
    let s4 := freeTree p 1 s3
    if failed then pdEvent p 0x0504 2 0 s4 else s4

/-- tPS_HARDRESET ends: both paths open, the data role is DFP again. -/
def hrOpen (p : Nat) (s : State) : State :=
  let d := (s.port p).pd
  if d.st == .hardReset && d.sub == .hrWaitOpen then
    modPd p (fun d => { d with sub := .hrWaitSafe0, ufp := false, volt := 0, opMa := 0 }) (openPaths p s)
  else s

/-- tSRC_RECOVER elapsed with Rd present: the low path closes (R358 step 4, R364). -/
def srcRecovered (p : Nat) (s : State) : State :=
  let r := s.port p
  if r.rd.isSome && (r.pd.sub == .hrRecover || r.pd.sub == .swHrRecover) then
    let s1 := modPort p (fun r => { r with bus := if r.bus == .recovering then .recovering else .powering, weight := r.rpWeight }) s
    let s2 := closeLow p (modPd p (fun d => { d with st := .hardReset, sub := .hrClosing, ufp := false }) s1)
    s2
  else s

/-- vSafe5V after a Hard Reset: state 0, CONNECT_WAIT, and the commands and renegotiations that wait on it end (R347, R358). -/
def hrEnds (p : Nat) (s : State) : State :=
  let s1 := finishPort p 0x0503 stOk [] (modPort p (fun r => { r with bus := .connectWait, renegRun := false }) s)
  if (s1.port p).pd.quiet then modPd p (fun d => { d with st := .noContract, sub := .none }) s1
  else if s1.hrSpent p then
    pdEvent p 0x0509 2 0 (modPd p (fun d => { d with st := .noContract, sub := .none, quiet := true }) s1)
  else startCaps p s1

/-- Power-good of a port asserts (R381): the switch, the bus and the contract layer advance. -/
def powerGood (p : Nat) (s : State) : State :=
  let r := s.port p
  let up : Option Sw := match r.sw with
    | .loRamp | .loOn => some .loOn
    | .hiRamp | .hiOn => some .hiOn
    | _ => none
  match up with
  | none => s
  | some sw =>
    let s1 := modPort p (fun r => { r with sw := sw, pg := true, atLimit := false }) s
    if r.pd.st == .transition && r.pd.sub == .moving then (if sw.volt = r.pd.newVolt then psReady p s1 else s1)
    else if r.pd.st == .hardReset && r.pd.sub == .hrClosing then hrEnds p s1
    else if r.bus == .powering then startCaps p (modPort p (fun r => { r with bus := .connectWait }) s1)
    else s1

/-! ### Data role swap (R361 to R364) -/

/-- The conditions under which a DR_Swap is accepted or sent on a downstream port: none, Wait or Reject (R361). -/
def State.swapAnswer (s : State) (p : Nat) : PdAnswer :=
  let r := s.port p
  if r.pd.sub == .swapDone then .accept
  else if r.pd.st != .contract || !s.provisioned || r.pd.alt then .reject
  else if r.renegRun then .wait else .accept

/-- Entry into UFP_SWAPPED: step 1 and step 2 (R362). The command that asked for it stays. -/
def enterSwapped (p : Nat) (s : State) : State :=
  let s1 := freeTree p 3 s
  let s2 := modPort p (fun r => { r with bus := .ufpSwapped, weight := 0 }) s1
  openPaths p (modPd p (fun d => { caps := d.caps, st := .swapped, sub := .swapWaitSafe0, ufp := true, ask := d.ask,
                                   askSent := d.askSent, wait := d.wait, rejected := d.rejected }) s2)

/-- The swap back starts: pull-up and Rd go, CC is open (R364). -/
def leaveSwapped (p : Nat) (s : State) : State :=
  emit (.cc p 0) (modPd p (fun d => { d with sub := .backWaitSafe0 }) (endInstance (1 + p) s))

/-- A swap command of a port ends with its outcome (R288); a swap that fails posts DR_SWAP_FAILED. -/
def swapOutcome (p outcome : Nat) (s : State) : State :=
  let st := if outcome = 0 then stOk else if outcome = 4 then stTimeout else stAborted
  let s1 := if outcome = 0 then s else pdEvent p 0x0504 outcome 0 s
  finishPort p 0x0502 st (u8 outcome ++ u8 (s1.role p)) (modPdOf p (fun d => { d with ask := none, askSent := false, swapTries := 0 }) s1)

/-- The port leaves UFP_SWAPPED for UNATTACHED with Rp presented (R363, R364); a PD_HARD_RESET that waits is over (R360). -/
def swappedToUnattached (p : Nat) (s : State) : State :=
  toUnattached p (modPort p (fun r => { r with pd := { caps := r.pd.caps }, rd := none, accessory := false })
    (endInstance (1 + p) (finishPort p 0x0503 stAborted [] s)))

/-- VSNS reached 0.8 V (R358, R362, R364): the FET check is armed, and what waits for vSafe0V goes on. -/
def safe0 (p : Nat) (s : State) : State :=
  let r := s.port p
  let s1 := if r.sw.active then s else modPort p (fun r => { r with fetArmed := true }) s
  match r.pd.sub with
  | .hrWaitSafe0 => setWeight p 0 (modPd p (fun d => { d with sub := .hrRecover }) s1)
  | .swapWaitSafe0 => emit (.cc p 2) (modPd p (fun d => { d with sub := .swapWaitSource }) s1)
  | .backWaitSafe0 =>
    let by_ := b2n (r.pd.ask == some .swap)
    swappedToUnattached p (pdEvent p 0x0503 0 by_ (finishPort p 0x0502 stOk (u8 0 ++ u8 0) s1))
  | .swHrWaitRd => if r.rd.isSome then modPd p (fun d => { d with sub := .swHrRecover }) s1 else s1
  | .goneSafe0 =>
    let s2 := modPd p (fun d => { d with sub := .none }) s1
    if s.busRuns && r.bus == .unattached then seeRd p s2 else s2
  | _ => s1

/-- tSAFE0V elapsed with VBUS above 0.8 V (R359). -/
def safe0Late (p : Nat) (s : State) : State :=
  let r := s.port p
  let s1 := if r.sw.active then s else modPort p (fun r => { r with fetArmed := true }) s
  if r.pd.sub == .hrWaitSafe0 then raise (srcPd p) 2 s1 else s1

/-- Rd returns on a port that a Hard Reset brought back from UFP_SWAPPED (R364). -/
def swappedRd (p : Nat) (s : State) : State :=
  let r := s.port p
  if r.pd.sub == .swHrWaitRd && r.fetArmed then modPd p (fun d => { d with sub := .swHrRecover }) s else s

/-- A Hard Reset on a port in UFP_SWAPPED (R363, R364). -/
def swappedHardReset (p : Nat) (sent : Bool) (cause : Nat) (s : State) : State :=
  let d := (s.port p).pd
  let s0 := if sent then emit (.pdHardReset p) s else s
  let s1 := if d.ask == some .swap || d.sub != .swapDone then swapOutcome p 2 s0 else s0
  let s2 := emit (.cc p 1) (endInstance (1 + p) s1)
  let s3 := pdEvent p 0x0505 (b2n !sent) cause (setSqc (aPortPd p) [8] s2)
  let sub := if d.sub == .swapDone then PdSub.swHrWaitRd else PdSub.hrWaitSafe0
  modPort p (fun r => { r with fetArmed := false, rd := none,
                               pd := { caps := r.pd.caps, st := if d.sub == .swapDone then .swapped else .hardReset, sub := sub,
                                       wait := d.wait, rejected := d.rejected, resets := d.resets + b2n sent } }) s3

/-- A Hard Reset of the sink while the logic die does not run: the power die runs steps 2 to 4 itself, and the port is not
held (R398). -/
def holdHardReset (p : Nat) (s : State) : State :=
  let r := s.port p
  if r.bus == .recovering && r.sw.active && r.pd.st != .hardReset then
    modPort p (fun r => { r with held := false, pd := { caps := r.pd.caps, st := .hardReset, sub := .hrWaitOpen } }) s
  else s

/-- Power-good while the logic die does not run: the switch only, and the end of the power die's own Hard Reset. -/
def holdPowerGood (p : Nat) (s : State) : State :=
  modPort p (fun r =>
    let up : Sw := match r.sw with | .loRamp => .loOn | .hiRamp => .hiOn | x => x
    let on := up == .loOn || up == .hiOn
    { r with sw := up, pg := on, atLimit := if on then false else r.atLimit,
             pd := if on && r.pd.sub == .hrClosing then { caps := r.pd.caps } else r.pd }) s

/-- A CC detach while the logic die does not run: both paths open, and the port is not held (R398). -/
def holdDetach (p : Nat) (s : State) : State :=
  openPaths p (modPort p (fun r => { r with held := false, rd := none, accessory := false, pd := { caps := r.pd.caps }, weight := 0 }) s)

/-- The 15 V rail is lost while the logic die does not run: high-path ports move to the low path as in STEPDOWN (R398). -/
def holdRail15 (s : State) : State :=
  foldS (upTo s.nPorts) (fun p t =>
    match (t.port p).sw with
    | .hiRamp | .hiOn | .gap => modPort p (fun r => { r with sw := .stepdown, pg := false, atLimit := false, held := false }) t
    | _ => t) (raise 146 1 (modBoard (fun b => { b with rail15 := false }) s))

/-- A port in UFP_SWAPPED loses its partner, or the partner never sources (R363, R364): outcome 3 for a swap that has not
succeeded or that a command still waits on. A detach in a Hard Reset that ended the swap ends it (R358). -/
def swappedDetach (p : Nat) (s : State) : State :=
  let d := (s.port p).pd
  if (s.port p).bus != .ufpSwapped then s
  else if d.st == .hardReset || d.sub == .swHrRecover then swappedToUnattached p s
  else match d.sub with
  | .swapWaitSafe0 => swappedToUnattached p (swapOutcome p 3 s)
  | .swapWaitSource => swappedToUnattached p (swapOutcome p 3 s)
  | .swapWaitCaps => swappedToUnattached p (swapOutcome p 3 s)
  | .swapDone => swappedToUnattached p (if d.ask == some .swap then swapOutcome p 3 s else s)
  | _ => s

/-- The partner sources: the service function connects (R362 step 4). -/
def swapSource (p : Nat) (s : State) : State :=
  if (s.port p).bus == .ufpSwapped && (s.port p).pd.sub == .swapWaitSource then
    let s1 := modPd p (fun d => { d with sub := .swapWaitCaps }) s
    if s.svcUp then modInst (1 + p) (fun i => { attached := true, replies := i.replies }) s1 else s1
  else s

/-- tSWAP_ATTACH expires (R363). -/
def swapNoSource (p : Nat) (s : State) : State :=
  if (s.port p).bus == .ufpSwapped && (s.port p).pd.sub == .swapWaitSource then swappedDetach p (pdEvent p 0x050B 0 0 s) else s

/-- No Rd within 2 s of a Hard Reset in UFP_SWAPPED (R364). -/
def swappedNoRd (p : Nat) (s : State) : State :=
  if (s.port p).pd.sub == .swHrWaitRd then swappedToUnattached p s else s

/-- A Hard Reset of the partner, or of PD_HARD_RESET. -/
def anyHardReset (p : Nat) (sent : Bool) (cause : Nat) (s : State) : State :=
  let d := (s.port p).pd
  if (s.port p).bus == .ufpSwapped then
    if d.st == .hardReset || d.sub == .swHrWaitRd || d.sub == .swHrRecover || d.sub == .backWaitSafe0 then s
    else swappedHardReset p sent cause s
  else hardReset p sent cause s

/-! ### Service port (R365, R371 to R373) -/

/-- Posts SERVICE_POWER (R371). -/
def servicePower (kind ma : Nat) (s : State) : State := pdEvent 32 0x050A kind (ma / 100) s

/-- What SVC_VBUS offers: the contract current, or the Rp level without a contract. -/
def Svc.available (v : Svc) : Nat := if v.pd.st == .contract then v.ma else rpMa v.rp

/-- The power die closes SVC_GATE and the logic die starts into SERVICE state, when no feed is present (R372). -/
def closeSvcGate (s : State) : State :=
  let a := s.svc.available
  if s.feedPresent || s.svc.gate || s.svc.pause || !s.svc.vbus then s
  else if a < 1500 then ashRecord 2 a s
  else setPower .service 0 (modDev (fun d => { d with phase := .reset })
    (modSvc (fun v => { v with gate := true, limitMa := sat 2400 a }) s))

/-- The Request for the first PDO on the service port: 0.1 A with a feed, else as much as 2.4 A (R371). -/
def svcRequest (pdo : Word) (s : State) : State :=
  let ma := pdo.toNat % 1024 * 10
  let want := if s.feedPresent then 100 else sat 2400 ma
  let mis := !s.feedPresent && decide (ma < 1500)
  let word := 2 ^ 28 + b2n mis * 2 ^ 26 + 2 ^ 25 + want / 10 * 1024 + want / 10
  pdSend 32 .request [word] (modSvc (fun v => { v with caps := true, offerMa := want, mismatch := mis, pd := { v.pd with st := .negotiating } }) s)

/-- A role change on the service port (R365): as DFP the instance is detached. -/
def svcSwap (s : State) : State :=
  let ufp := !s.svc.pd.ufp
  let by_ := b2n (s.svc.pd.ask == some .swap)
  let s1 := modSvc (fun v => { v with pd := { v.pd with ufp := ufp } }) s
  let s2 := if ufp then modInst 0 (fun i => { i with attached := s.svcUp }) s1 else endInstance 0 s1
  swapOutcome 32 0 (pdEvent 32 0x0503 (b2n ufp) by_ s2)

/-- A Hard Reset on the service port returns it to UFP and ends its contract (R365). -/
def svcHardReset (s : State) : State :=
  let s1 := if s.svc.pd.ask == some .swap then swapOutcome 32 2 s else s
  let s2 := modSvc (fun v => { v with ma := 0, caps := false, pd := { ufp := true, caps := v.pd.caps } }) s1
  pdEvent 32 0x0505 1 5 (modInst 0 (fun i => { i with attached := s.svcUp }) s2)

/-! ### VDMs and the Timebase mode (R366 to R370) -/

/-- bcdDevice: Mboter's version as BCD major.minor (R244). -/
def State.bcdDevice (s : State) : Nat :=
  let bcd (n : Nat) : Nat := n / 10 % 10 * 16 + n % 10
  if s.dev.phase == .kindling then 0 else bcd (s.dev.version.toNat / 2 ^ 24) * 256 + bcd (s.dev.version.toNat / 2 ^ 16 % 256)

/-- The VDOs of Discover Identity (R366). -/
def State.identity (s : State) (p : Nat) : List Nat :=
  let ufp := s.role p == 1
  let vid := match s.otp.live.usbVid with | some v => v.toNat | none => 0
  let pid := match s.otp.live.usbPid with | some v => v.toNat | none => 0
  [(if ufp then 2 ^ 30 else if p = 32 then 0 else 2 ^ 31) + vid, 0, pid * 2 ^ 16 + s.bcdDevice]

/-- The SVID and the command code of a structured VDM request. -/
def vdmReqCode : VdmReq → Nat × Nat
  | .identity => (svidPd, 1)
  | .svids => (svidPd, 2)
  | .modes v => (v.toNat, 3)
  | .enterMode v => (v.toNat, 4)
  | .attention => (svidPd, 6)

/-- A structured VDM request is answered (R366). -/
def vdmRequest (p : Nat) (r : VdmReq) (s : State) : State :=
  let head (kind : Nat) : Nat := vdmHead (vdmReqCode r).1 kind 0 (vdmReqCode r).2
  match r with
  | .attention => s
  | .identity => if s.provisioned then pdSend p .vdmAck (head 1 :: s.identity p) s else pdSend p .vdmNak [head 2] s
  | _ => pdSend p .vdmNak [head 2] s

/-- The command that waits for a VDM ends. -/
def vdmEnd (p status : Nat) (result : List Byte) (s : State) : State :=
  let s1 := modPd p (fun d => { d with ask := none, askSent := false }) s
  match s1.opAt (keyPort p) with
  | some o => if o.opcode = 0x0504#16 ∨ o.opcode = 0x0505#16 then finishOp o.host o.tag status result s1 else s1
  | none => s1

def State.timebaseSvid (s : State) : Nat := match s.otp.live.timebaseSvid with | some v => v.toNat | none => 0

/-- An abort point of PD_ALTMODE, before a request is sent: an OP_ABORT that waits ends the command there (R264, R270). -/
def unlessAborted (p : Nat) (f : State → State) (s : State) : State :=
  match s.opAt (keyPort p) with
  | some o =>
    if s.abortAsked o.host o.tag then abortOp o.host o.tag [] (modPd p (fun d => { d with ask := none, askSent := false }) s) else f s
  | none => f s

/-- Sends Enter Mode with an object position. -/
def enterAt (p k : Nat) (s : State) : State :=
  pdSend p .enterMode [vdmHead s.timebaseSvid 0 k 4] (modPd p (fun d => { d with ask := some .enter, askSent := true }) s)

/-- Starts Enter Mode with the object position found (R368 steps 2 and 3). -/
def sendEnter (p : Nat) (s : State) : State :=
  match (s.port p).pd.altObj with
  | some k => unlessAborted p (enterAt p k) s
  | none => vdmEnd p stOk (u8 1) s

/-- The object position of the first mode VDO of version 0x01 (R368). -/
def modePos (vdos : List Word) : Option Nat :=
  match vdos.findIdx? (fun v => v.toNat % 256 == 1) with
  | some k => some (k + 1)
  | none => none

def vdmCode : VdmAns → Nat | .ack => 0 | .nak => 1 | .busy => 2

/-- SVIDs of a Discover SVIDs response: two in each VDO. -/
def svidsOf (vdos : List Word) : List Nat := vdos.flatMap fun v => [v.toNat / 2 ^ 16, v.toNat % 2 ^ 16]

/-- A VDM response (R367, R368, R370). -/
def vdmResponse (p : Nat) (a : VdmAns) (vdos : List Word) (s : State) : State :=
  let d := (s.port p).pd
  let code := vdmCode a
  match d.ask with
  | some (.discover req) =>
    let got := if a == .ack then vdos.take 6 else []
    let isTb := match s.opAt (keyPort p) with | some o => field o.params 2 2 == s.timebaseSvid | none => false
    let s1 := if req = 2 ∧ a = .ack ∧ isTb = true then modPd p (fun d => { d with modesNew := true, altObj := modePos vdos }) s else s
    vdmEnd p stOk (u8 code ++ u8 got.length ++ [0, 0] ++ got.flatMap fun v => u32 v.toNat) s1
  | some .altSvids =>
    if a == .ack && (svidsOf vdos).contains s.timebaseSvid then
      unlessAborted p (fun t => pdSend p .discModes [vdmHead t.timebaseSvid 0 0 3] (modPd p (fun d => { d with ask := some .altModes }) t)) s
    else vdmEnd p stOk (u8 1) s
  | some .altModes =>
    if a == .ack then sendEnter p (modPd p (fun d => { d with modesNew := true, altObj := modePos vdos }) s)
    else vdmEnd p stOk (u8 1) s
  | some .enter =>
    if a == .ack then vdmEnd p stOk (u8 0) (pdEvent p 0x0507 0 0 (modPd p (fun d => { d with alt := true }) s))
    else vdmEnd p stOk (u8 code) s
  | some .exit => vdmEnd p stOk (u8 code) (if a == .busy then s else altExit p 1 s)
  | _ => s

/-- No response to a Discover or Exit Mode in tVDM (R367, R370). -/
def vdmTimeout (p : Nat) (s : State) : State :=
  match (s.port p).pd.ask with
  | some (.discover _) => vdmEnd p stTimeout [] s
  | some .altSvids => vdmEnd p stTimeout [] s
  | some .altModes => vdmEnd p stTimeout [] s
  | some .exit => vdmEnd p stTimeout [] (altExit p 1 s)
  | _ => s
def enterTimeout (p : Nat) (s : State) : State :=
  if (s.port p).pd.ask == some .enter then vdmEnd p stTimeout [] s else s

/-! ### Commands (R287, R288) -/

def pdPresent (ps : List Byte) (s : State) : Bool := s.hasPort (byteAt ps 0) || decide (32 ≤ byteAt ps 0)
def pdOwners (ps : List Byte) (s : State) : List Nat := if byteAt ps 0 < 32 then [(s.port (byteAt ps 0)).owner] else []

def pdSetCapsCmd : CmdSpec :=
  { len := 8, present := pdPresent, owners := pdOwners,
    bad := fun c _ =>
      let b := byteAt c.params
      decide (32 < b 0) || decide (2 < b 1) || decide (1 < b 2) || decide (2 < b 3) || decide (b 1 < b 3) ||
      !timerOk (b 4) 5 50 || !zeros c.params [(5, 3)] || (b 0 == 32 && !zeros c.params [(1, 3)]),
    run := fun c s =>
      let b := byteAt c.params
      let p := b 0
      let wait (old : Nat) : Nat := if b 4 = 0 then old else 10 * b 4
      if p = 32 then (modSvc (fun v => { v with pd := { v.pd with caps := { v.pd.caps with tWait := wait v.pd.caps.tWait } } }) s, .final stOk [])
      else
        let s1 := modPd p (fun d => { d with caps := { amp5 := b 1, en15 := b 2 == 1, rp := b 3, tWait := wait d.caps.tWait } }) s
        let r := s1.port p
        let s2 := if r.bus.powered && r.pd.st == .noContract then setWeight p r.rpWeight s1 else s1
        (if r.reneg then s2 else newOffer p s2, .final stOk []) }

/-- PD_STATUS (R287). -/
def State.pdStatus (s : State) (p : Nat) : List Byte :=
  let d := s.pdOf p
  let r := s.port p
  let flags := b2n d.wait + 2 * b2n d.rejected + 4 * b2n (p != 32 && r.reneg) + 8 * b2n d.alt
  if p = 32 then
    u8 d.st.code ++ u8 (if d.st == .contract then 1 else 0) ++ u8 (b2n d.ufp) ++ u8 flags ++
    u16 (if d.st == .contract then 5000 else 0) ++ u16 (if d.st == .contract then s.svc.ma else 0) ++ u16 s.senses.1 ++ u16 s.senses.2 ++ u32 0 ++
    u16 0 ++ [0, 0]
  else
    u8 d.st.code ++ u8 d.volt ++ u8 (b2n d.ufp) ++ u8 flags ++ u16 (1000 * volts d.volt) ++ u16 d.opMa ++ u16 r.vbusMv ++
    u16 r.currMa ++ u32 r.weight ++ u16 (if d.alt then s.timebaseSvid else 0) ++ [0, 0]

def pdStatusCmd : CmdSpec :=
  { len := 4, present := pdPresent, bad := fun c _ => decide (32 < byteAt c.params 0) || !zeros c.params [(1, 3)],
    run := fun c s =>
      let p := byteAt c.params 0
      if p = 32 then (useFree (useFree s), .final stOk (s.pdStatus 32))
      else
        let t := measure p s
        (t, .final stOk (t.pdStatus p)) }

/-- PD_HARD_RESET (R288). Where the port sends no message until its next attach, it ends ABORTED with nothing sent (R347, R357;
notes/assumptions/172.md). -/
def pdHardResetCmd : CmdSpec :=
  { len := 4, present := pdPresent, owners := pdOwners, bad := fun c _ => decide (31 < byteAt c.params 0) || !zeros c.params [(1, 3)],
    run := fun c s =>
      let p := byteAt c.params 0
      let r := s.port p
      let s0 := hrPreempt p s
      if s.pgIsolated p || s0.busyPort p then (s0, .final stLocked [])
      else if (!r.bus.powered && r.bus != .ufpSwapped) || r.pd.sub == .gone || (r.bus.powered && r.pd.st != .hardReset && s.hrSpent p) then
        (s0, .event stAborted [])
      else (anyHardReset p true 1 s0, .running stAccepted (keyPort p) []) }

def pdDrSwapCmd : CmdSpec :=
  { len := 4, present := pdPresent, owners := pdOwners, bad := fun c _ => decide (32 < byteAt c.params 0) || !zeros c.params [(1, 3)],
    run := fun c s =>
      let p := byteAt c.params 0
      let mark (t : State) : State := pdSend p .drSwap [] (modPdOf p (fun d => { d with ask := some .swap, askSent := true, swapTries := 0 }) t)
      let free := (s.pdOf p).ask.isNone
      let ok := if p = 32 then s.svc.pd.st == .contract && free else s.swapAnswer p == .accept && free
      if s.busyPort p then (s, .final stLocked [])
      else if ok then (mark s, .running stAccepted (keyPort p) [])
      else (s, .event stAborted (u8 1 ++ u8 (s.role p))) }

/-- Discovery and modes run as DFP in state 2 (R367). -/
def State.vdmReady (s : State) (p : Nat) : Bool := (s.port p).pd.st == .contract && (s.port p).pd.ask.isNone

def pdDiscoverCmd : CmdSpec :=
  { len := 4, present := pdPresent, owners := pdOwners,
    bad := fun c _ => decide (31 < byteAt c.params 0) || decide (2 < byteAt c.params 1),
    run := fun c s =>
      let p := byteAt c.params 0
      let req := byteAt c.params 1
      let msg := match req with | 0 => PdMsg.discIdentity | 1 => PdMsg.discSvids | _ => PdMsg.discModes
      let svid := if req = 2 then field c.params 2 2 else svidPd
      if s.busyPort p then (s, .final stLocked [])
      else if !s.vdmReady p then (s, .event stAborted [])
      else (pdSend p msg [vdmHead svid 0 0 (req + 1)]
              (modPd p (fun d => { d with ask := some (.discover req), askSent := true }) s), .running stAccepted (keyPort p) []) }

def pdAltmodeCmd : CmdSpec :=
  { len := 4, present := pdPresent, owners := pdOwners,
    bad := fun c _ => decide (31 < byteAt c.params 0) || decide (1 < byteAt c.params 1) || !zeros c.params [(2, 2)],
    run := fun c s =>
      let p := byteAt c.params 0
      let d := (s.port p).pd
      let enter := byteAt c.params 1 == 1
      if !Variant.timebase s.part.variant || s.otp.live.timebaseSvid.isNone then (s, .final stUnsupp [])
      else if d.alt == enter then (s, .final stAlready [])
      else if s.busyPort p then (s, .final stLocked [])
      else if !s.vdmReady p then (s, .event stAborted [])
      else if !enter then
        (pdSend p .exitMode [vdmHead s.timebaseSvid 0 (d.altObj.getD 0) 5] (modPd p (fun d => { d with ask := some .exit, askSent := true }) s), .running stAccepted (keyPort p) [])
      else if d.modesNew then
        (match d.altObj with
         | some k => (enterAt p k s, .running stAccepted (keyPort p) [])
         | none => (s, .event stOk (u8 1)))
      else (pdSend p .discSvids [vdmHead svidPd 0 0 2] (modPd p (fun d => { d with ask := some .altSvids, askSent := true }) s), .running stAccepted (keyPort p) []) }

/-! ### Events of the contract layer -/

/-- A GoodCRC arrives (R346, R362). -/
def goodCrc (p : Nat) (m : PdSent) (s : State) : State :=
  let d := s.pdOf p
  match m with
  | .sourceCaps =>
    if p = 32 then s
    else if d.st == .noContract && d.sends != 0 && !d.quiet then modPd p (fun d => { d with st := .negotiating, tSender := true }) s
    else if d.st == .negotiating then modPd p (fun d => { d with tSender := true }) s
    else s
  | .accept => if d.st == .transition && d.sub == .accepted then modPdOf p (fun d => { d with sub := .timing }) s else s
  | .acceptSwap =>
    if p = 32 then svcSwap s
    else if d.sub == .swapDone then leaveSwapped p s
    else if d.st == .contract then enterSwapped p s else s
  | _ => s

/-- No Request, or no answer to a request of the HK32, within tSENDER (R346, R348). -/
def senderTimeout (p : Nat) (s : State) : State :=
  let d := s.pdOf p
  if p != 32 && d.st == .negotiating && d.tSender then hardReset p true 2 s
  else if d.ask == some .swap && d.askSent then swapOutcome p 4 s
  else s

/-- A Soft_Reset: Accept, and a new offer follows, in TRANSITION once the new voltage stands; the sinks, port 32 and a swapped port,
only answer (R340, R346). -/
def softReset (p : Nat) (s : State) : State :=
  let s1 := pdSend p .accept [] s
  if p = 32 then s1
  else
    let r := s.port p
    let back : PdRec → PdRec := fun d => if d.st == .contract || d.st == .negotiating then { d with st := .negotiating, tSender := false } else d
    if !r.bus.powered then s1
    else match r.pd.st with
    | .noContract | .negotiating | .contract => sendCaps p (modPd p back s1)
    | .transition => modPd p (fun d => { d with offerDue := true }) s1
    | .hardReset | .swapped => s1

/-- Get_Source_Cap (R340). -/
def getSourceCap (p : Nat) (s : State) : State :=
  if p = 32 ∨ (s.port p).bus = .ufpSwapped then pdSend p .notSupported [] s
  else if !(s.port p).bus.powered then s
  else if (s.port p).pd.st == .contract then newOffer p s else sendCaps p s

/-- Get_Sink_Cap (R340). -/
def getSinkCap (p : Nat) (s : State) : State :=
  if p = 32 then pdSend p .sinkCaps [0x000190F0] s
  else if (s.port p).bus = .ufpSwapped then pdSend p .sinkCaps [0x0001900A] s
  else pdSend p .notSupported [] s

/-- A DR_Swap of the partner (R361, R364, R365). -/
def drSwap (p : Nat) (s : State) : State :=
  if p = 32 then
    (if s.svc.pd.st == .contract && s.svc.pd.ask.isNone then pdSend 32 .accept [] s else pdSend 32 .reject [] s)
  else match s.swapAnswer p with
    | .accept => pdSend p .accept [] s
    | .wait => pdSend p .wait [] s
    | .reject => pdSend p .reject [] s

/-- The partner answers the HK32's own request (R288, R365, R371). A rejected Request leaves the service port without a contract to the
Rp level (R372 step 4). -/
def pdResponse (p : Nat) (a : PdAnswer) (s : State) : State :=
  let d := s.pdOf p
  if d.ask == some .swap && d.askSent then
    match a with
    | .accept =>
      if p = 32 then svcSwap s
      else if d.sub == .swapDone then leaveSwapped p s
      else enterSwapped p s
    | .reject => swapOutcome p 1 s
    | .wait =>
      match s.opAt (keyPort p) with
      | some o =>
        if s.abortAsked o.host o.tag then
          abortOp o.host o.tag (u8 1 ++ u8 (s.role p)) (modPdOf p (fun d => { d with ask := none, askSent := false }) s)
        else if 10 ≤ d.swapTries then swapOutcome p 4 s
        else modPdOf p (fun d => { d with askSent := false, swapTries := d.swapTries + 1 }) s
      | none => modPdOf p (fun d => { d with askSent := false }) s
  else if p = 32 && d.st == .negotiating then
    if a == .accept then modPdOf 32 (fun d => { d with wait := false, rejected := false }) s
    else
      let s1 := modPdOf 32 (fun d => { d with st := if s.svc.ma = 0 then .noContract else .contract, wait := a == .wait,
                                              rejected := a == .reject }) s
      if a == .reject && s.svc.ma = 0 then closeSvcGate s1 else s1
  else s

/-- tWAIT elapsed: the request that was answered with Wait is sent again (R348, R365, R371). -/
def waitEnds (p : Nat) (s : State) : State :=
  let d := s.pdOf p
  if d.ask == some .swap && !d.askSent then pdSend p .drSwap [] (modPdOf p (fun d => { d with askSent := true }) s)
  else if p = 32 && d.wait then
    pdSend 32 .request [2 ^ 28 + b2n s.svc.mismatch * 2 ^ 26 + 2 ^ 25 + s.svc.offerMa / 10 * 1024 + s.svc.offerMa / 10]
      (modPdOf 32 (fun d => { d with wait := false, st := .negotiating }) s)
  else s

/-- Source_Capabilities of a partner (R340, R362, R371). -/
def capsReceived (p : Nat) (pdo : Word) (s : State) : State :=
  if p = 32 then (if s.svc.vbus then svcRequest pdo s else s)
  else
    let d := (s.port p).pd
    let req (t : State) : State := pdSend p .request [2 ^ 28 + 2 ^ 25 + 10 * 1024 + 10] t
    if d.sub == .swapWaitCaps then
      let s1 := pdEvent p 0x0503 1 (b2n (d.ask == some .swap)) (req (modPd p (fun d => { d with sub := .swapDone }) s))
      swapOutcome p 0 s1
    else if d.sub == .swapDone then req s
    else pdSend p .notSupported [] s

/-- PS_RDY of the source completes the service port contract (R372). -/
def psRdyReceived (p : Nat) (s : State) : State :=
  if p = 32 ∧ s.svc.pd.st = .negotiating then
    closeSvcGate (servicePower 3 s.svc.offerMa
      (modSvc (fun v => { v with ma := v.offerMa, pd := { v.pd with st := .contract, volt := 1, opMa := v.offerMa } }) s))
  else s

/-- The 15 V rail is lost (R342): Hard Resets with cause 4, and new offers without the 15 V PDO. -/
def rail15Lost (s : State) : State :=
  let s1 := raise 146 1 (modBoard (fun b => { b with rail15 := false }) s)
  foldS (upTo s1.nPorts) (fun p t =>
    let r := t.port p
    if r.bus.powered && r.pd.volt == 2 then hardReset p true 4 t
    else if r.pd.sent15 then newOffer p t else t) s1

def rail15Back (s : State) : State :=
  let s1 := clearFlt 146 1 (modBoard (fun b => { b with rail15 := true }) s)
  foldS (upTo s1.nPorts) (fun p t =>
    let r := t.port p
    if r.pd.volt == 1 && t.offers15 p then newOffer p t else t) s1

/-- Rd is absent for 1 ms during a transition (R357); the bus machine takes the detach at tPDDEBOUNCE (`detachPort`). -/
def transDetach (p : Nat) (s : State) : State :=
  let r := s.port p
  if r.pd.st != .transition then s
  else
    let s1 := raise (srcPd p) 1 (pdEvent p 0x0506 (if r.pd.volt = 0 then 1 else r.pd.volt) r.pd.newVolt s)
    modPd p (fun d => { d with sub := .gone }) (releasePd p (openPaths p (modPort p (fun r => { r with rd := none }) s1)))

end Sys2Proof.Machine
end

