-- ==== Sys2Proof/Machine/Power.lean ====
section
/-!
DEFINITION. The power die (R376 to R400): port protection, box rails, feeds and seating.
-/
namespace Sys2Proof.Machine

/-! ### Ports (R378 to R387) -/

/-- A latch or isolation that is reported: its event and its fault (R401, R402). -/
def protect (p : Nat) (sw : Sw) (last code sub path b : Nat) (s : State) : State :=
  raise (srcPath p) sub (pathEvent p code path b (latchOff p sw last false s))

/-- A ramping switch. -/
def Sw.ramps : Sw → Bool
  | .loRamp | .hiRamp => true
  | _ => false
def Sw.isOn : Sw → Bool
  | .loOn | .hiOn => true
  | _ => false

/-- The current reaches ilim (R378), or stays below 90 % of it for 1 ms (R379). -/
def atLimit (p : Nat) (s : State) : State :=
  if (s.port p).sw.ramps || (s.port p).sw.isOn then modPort p (fun r => { r with atLimit := true }) s else s
def limitLeft (p : Nat) (s : State) : State := modPort p (fun r => { r with atLimit := false }) s

/-- The time at limit reaches tFAULT (R379, R383). -/
def faultTime (p : Nat) (s : State) : State :=
  let r := s.port p
  if !r.atLimit then s
  else if r.sw.ramps then protect p .latched 2 0x0323 2 r.sw.path (s.ilim p) s
  else if r.sw.isOn then protect p .latched 1 0x0322 1 r.sw.path (s.ilim p) s
  else s

/-- A ramp without power-good within tRAMP_PG (R382). `vsns` is VSNS in 100 mV. -/
def rampTime (p vsns : Nat) (s : State) : State :=
  let r := s.port p
  if r.sw.ramps then protect p .latched 1 0x0325 3 r.sw.path vsns s else s

/-- A condition of power-good fails for tPG_FILTER (R381). -/
def pgLost (p vsns : Nat) (s : State) : State :=
  let r := s.port p
  if r.pg && r.sw.isOn then
    pathEvent p 0x0326 r.sw.path vsns (setSqc (aPwrStatus p) [11] (modPort p (fun r => { r with pg := false }) s))
  else s

/-- The path that a failed FET check names, if the check fails (R387). -/
def State.fetFails (s : State) (p : Nat) (sense : FetSense) : Option Nat :=
  let r := s.port p
  let vsns := sense.vsns
  match r.sw with
  | .off | .latched =>
    if r.fetArmed && r.bus != .ufpSwapped && decide (8 < vsns) then some (if 100 ≤ vsns then 2 else 1) else none
  | .loOn => if 60 < vsns then some 2 else none
  | .hiOn => if vsns < 140 ∧ sense.good15 = true ∧ r.atLimit = false then some 1 else none
  | _ => none

def fetCheck (p : Nat) (sense : FetSense) (s : State) : State :=
  match s.fetFails p sense with
  | some path => protect p .isolated 3 0x0324 4 path sense.vsns s
  | none => s

/-- 20 µs after the low gate is off, the high path ramps (R383). -/
def gapEnds (p : Nat) (s : State) : State :=
  if (s.port p).sw = .gap then modPort p (fun r => { r with sw := .hiRamp }) s else s

/-- VSNS falls to 5.25 V in STEPDOWN: the low path ramps (R383, R390). -/
def stepdownDone (p : Nat) (s : State) : State :=
  if (s.port p).sw = .stepdown then closeLow p (modPort p (fun r => { r with sw := .off }) s) else s

/-- tSTEPDOWN elapsed (R355): BLEED_SLOW, and a Hard Reset with cause 3 where the contract layer runs. -/
def stepdownLate (p : Nat) (s : State) : State :=
  if (s.port p).sw = .stepdown then
    let s1 := raise (srcPd p) 2 (modPort p (fun r => { r with sw := .off, fetArmed := false }) s)
    if s1.dev.phase == .ready || s1.dev.phase == .warm then hardReset p true 3 s1 else s1
  else s

/-- The new voltage is not good 275 ms after the Accept (R346, R591). -/
def voltageLate (p : Nat) (s : State) : State :=
  let r := s.port p
  if r.pd.st == .transition && r.pd.sub == .moving && !r.pg then hardReset p true 3 s else s

/-! ### The 5 V rail (R390) -/

def rail5Lost (mv : Nat) (s : State) : State :=
  let s1 := raise 145 1 (boardEvent 0x0339 0 mv (modBoard (fun b => { b with rail5 := false }) s))
  foldS (upTo s1.nPorts) (fun p t =>
    match (t.port p).sw with
    | .loRamp | .loOn | .stepdown => latchOff p .latched 0 true t
    | _ => t) s1

def rail5Back (mv : Nat) (s : State) : State :=
  if s.board.rail5 then s
  else
    let s1 := clearFlt 145 1 (boardEvent 0x033A 0 mv (modBoard (fun b => { b with rail5 := true }) s))
    foldS (upTo s1.nPorts) (fun p t =>
      let r := t.port p
      if r.sw == .latched && r.latchRail then
        toUnattached p (modPort p (fun r => { r with sw := .off, latchRail := false }) (pathEvent p 0x0327 3 0 t))
      else t) s1

/-! ### Feeds (R392 to R394) -/

/-- The Ledger's feed pressure now, and with every shed port counted at its prior weight (R159, R162). -/
def State.feedPressure (s : State) : Int := s.committed - s.funds
def State.restoredPressure (s : State) : Int :=
  s.feedPressure + sumBy (fun p => if (s.port p).shed then (s.port p).prior else 0) (upTo s.nPorts)

/-- A feed's gate state changed: the Ledger takes a change of the feeds that are present into account (R148). A restore can
follow where the change makes p_feed 0 or below with every shed port counted at its prior weight, or leaves it there after a change that
did (R162). -/
def feedChanged (s t : State) : State :=
  if t.feedA.gives = s.feedA.gives ∧ t.feedB.gives = s.feedB.gives then t
  else modLedger (fun l => { l with
    feedMoved := decide (t.restoredPressure ≤ 0) && (decide (0 < s.restoredPressure) || l.feedMoved || l.restoring), restoring := false }) t

/-- Whether the Ledger sheds because the one feed that is left is at its limit (R161). -/
def noteLimit (s : State) : State :=
  modLedger (fun l => { l with feedLimit := s.feedA.st == .limit && !s.feedB.gives || s.feedB.st == .limit && !s.feedA.gives }) s

/-- The feeds' voltages are more than 300 mV apart. -/
def State.feedDiff (s : State) : Int := (s.feedA.mv : Int) - s.feedB.mv

/-- While both feeds are ON and their voltages are more than 300 mV apart they cannot share: share_limit, with FEED_SHARE_LIMIT
where it sets (R394). -/
def shareLimit (s : State) : State :=
  let on := s.feedA.st == .on && s.feedB.st == .on && (decide (300 < s.feedDiff) || decide (s.feedDiff < -300))
  let s1 := modBoard (fun b => { b with share := on }) s
  if on && !s.board.share then boardEvent 0x0336 0 (s32 s.feedDiff) s1 else s1

/-- BULK_SNS: with a feed on, the highest of those that give; else what the last pre-charge showed (notes/assumptions/112.md). -/
def State.bulkMv (s : State) : Nat :=
  if s.feedA.gives && s.feedB.gives then (if s.feedA.mv < s.feedB.mv then s.feedB.mv else s.feedA.mv)
  else if s.feedA.gives then s.feedA.mv else if s.feedB.gives then s.feedB.mv else s.board.bulkMv
/-- bulk_good: BULK_SNS is at 95 % or more of the highest present feed (R403). -/
def State.bulkGood (s : State) : Bool :=
  let mv (r : Feed) : Nat := if r.present then r.mv else 0
  let top := if mv s.feedA < mv s.feedB then mv s.feedB else mv s.feedA
  decide (0 < top ∧ 95 * top ≤ 100 * s.bulkMv)

/-- Codes of Table — Feed states. -/
def FeedState.code : FeedState → Nat
  | .absent => 0 | .waiting => 1 | .precharge => 2 | .on => 3 | .limit => 4 | .retry => 5

/-- In HIBERNATE a change of a feed's state is recorded in the Ash log, whether or not it wakes the device; where it raises a fault,
the occurrence is that record (R461; notes/assumptions/163.md). -/
def recordFeed (f : HostId) (st : FeedState) (s : State) : State :=
  if s.dev.power == .hibernate then
    ashPut { time := s.ashTime, source := BitVec.ofNat 16 (120 + hCode f), sub := 0, level := 0, injected := false, escalated := false,
             kind := 0, detail := BitVec.ofNat 32 st.code } s
  else s

/-- A feed's new state; BULK_SNS stands where the last feed that gave left it no more (R403). -/
def setFeedSt (f : HostId) (st : FeedState) (s : State) : State :=
  let s1 := noteLimit (modFeed f (fun r => { r with st := st, ramping := false }) s)
  let s2 := if (s.feed f).gives && !s1.feedA.gives && !s1.feedB.gives then modBoard (fun k => { k with bulkMv := 0 }) s1 else s1
  let s3 := feedChanged s (shareLimit s2)
  if (s.feed f).st = st then s3 else recordFeed f st s3

/-- WAITING to PRECHARGE when the board is seated, the retry timer is not running and the feed is not isolated (R392, R396). -/
def tryFeed (f : HostId) (s : State) : State :=
  let r := s.feed f
  if r.st == .waiting && s.board.seated && !r.retry && !r.isolated then setFeedSt f .precharge s else s

/-- Fn_VSNS is in range: a feed that was absent starts; a feed that is there already shows a new voltage, by which sharing is
judged again (R392, R394). -/
def feedPresentNow (f : HostId) (mv : Nat) (s : State) : State :=
  let s1 := modFeed f (fun r => { r with mv := mv, present := true }) s
  if (s.feed f).st == .absent then tryFeed f (setFeedSt f .waiting s1) else shareLimit s1

/-- BULK_SNS reaches 95 % of the feed: its main gate ramps. -/
def bulkReady (f : HostId) (s : State) : State :=
  if (s.feed f).st == .precharge then
    modBoard (fun b => { b with bulkMv := (95 * (s.feed f).mv + 99) / 100 }) (modFeed f (fun r => { r with ramping := true }) s)
  else s

/-- Fn_VSNS below 8.5 V for 100 µs: FEED_LOST where the feed was starting or on (R392). An isolated feed is held in RETRY (R476). -/
def feedLost (f : HostId) (mv : Nat) (s0 : State) : State :=
  let s := modFeed f (fun r => { r with mv := mv, present := false }) s0
  let r := s0.feed f
  let s1 := if r.isolated then s else setFeedSt f .absent s
  if r.st == .precharge || r.gives then raise (srcFeed f) 1 (feedEvent f 0x0331 0 mv s1)
  else if r.st == .absent then s else s1

/-- A fault of a feed: RETRY with tRETRY_FEED started (R392). -/
def feedFault (f : HostId) (code sub w : Nat) (s : State) : State :=
  raise (srcFeed f) sub (feedEvent f code 0 w (modFeed f (fun r => { r with retry := true }) (setFeedSt f .retry s)))

/-- A feed is on: SVC_GATE opens (R373). The condition of the feed's faults is over. -/
def feedOn (f : HostId) (mv : Nat) (s : State) : State :=
  if (s.feed f).st == .precharge && (s.feed f).ramping then
    let s1 := feedEvent f 0x0330 0 mv (setFeedSt f .on (modFeed f (fun r => { r with mv := mv }) s))
    let s2 := modSvc (fun v => { v with gate := false }) s1
    clearFlt (srcFeed f) 1 (clearFlt (srcFeed f) 2 (clearFlt (srcFeed f) 3 (clearFlt (srcFeed f) 4 s2)))
  else s

/-- The pre-charge does not complete in time (R392). -/
def prechargeLate (f : HostId) (mv : Nat) (s : State) : State :=
  if (s.feed f).st == .precharge then feedFault f 0x0334 4 mv (modBoard (fun b => { b with bulkMv := mv }) s) else s

/-- The current reaches the feed limit: regulated, and reported to the Ledger (R161, R392, R393). -/
def feedLimitOn (f : HostId) (ma : Nat) (s : State) : State :=
  if (s.feed f).st == .on then feedEvent f 0x0332 1 ma (setFeedSt f .limit s) else s

/-- The current has been below 90 % of the limit for 1 ms. -/
def feedLimitOff (f : HostId) (ma : Nat) (s : State) : State :=
  if (s.feed f).st == .limit then feedEvent f 0x0332 0 ma (setFeedSt f .on s) else s

/-- tFAULT_FEED at the limit. -/
def feedOverload (f : HostId) (ma : Nat) (s : State) : State :=
  if (s.feed f).st == .limit then feedFault f 0x0333 3 ma s else s

/-- Reverse current. -/
def feedReverse (f : HostId) (ma : Nat) (s : State) : State :=
  if (s.feed f).gives then feedFault f 0x0335 2 ma s else s

/-- tRETRY_FEED ends (R392). -/
def retryEnds (f : HostId) (s : State) : State :=
  let s1 := modFeed f (fun r => { r with retry := false }) s
  if (s.feed f).st == .retry && !(s.feed f).isolated then tryFeed f (setFeedSt f .waiting s1) else tryFeed f s1

/-! ### Seating (R396) -/

def seatDone (s : State) : State :=
  let s1 := modLich (fun l => { l with insertions := l.insertions + 1 })
    (modBoard (fun b => { b with seated := true, pin1 := true, pin2 := true }) s)
  let s2 := clearFlt 155 1 (boardEvent 0x0337 0 s1.lich.insertions.toNat s1)
  tryFeed .b (tryFeed .a s2)

/-- The levels of the seating pins. A high level is a removal: both feeds open, tRETRY_FEED starts, SEAT_REMOVED (R396); with
neither pin high both are low again, and the debounce runs. -/
def seatHigh (one two : Bool) (s : State) : State :=
  let s1 := modBoard (fun b => { b with seated := b.seated && !one && !two, pin1 := !one, pin2 := !two }) s
  let stop (f : HostId) (t : State) : State :=
    let t1 := modFeed f (fun r => { r with retry := true }) t
    if (t.feed f).st == .precharge || (t.feed f).gives then setFeedSt f .waiting t1 else t1
  if one || two then
    raise 155 1 (boardEvent 0x0338 (b2n one + 2 * b2n two) s1.lich.insertions.toNat (setSqc aSeat [3] (stop .b (stop .a s1))))
  else s1

/-! ### The hold (R398, R400) -/

/-- OTP safe_state and hold_time as the last cold start read them. -/
def State.safeState (s : State) : Nat := s.otp.live.safeState.getD 0

/-- A switch in GAP or STEPDOWN completes its move before it freezes; the ports' paths that are on are held. -/
def holdPorts (s : State) : State :=
  foldS (upTo s.nPorts) (fun p t =>
    modPort p (fun r => { r with held := r.bus.powered && r.sw.isOn }) t) s

/-- The OTP safe state applies to one port. -/
def safePort (safe p : Nat) (s : State) : State :=
  let r := s.port p
  let s1 := if safe = 0 then openPaths p s
    else match r.sw with
      | .hiRamp | .hiOn | .gap => modPort p (fun r => { r with sw := .stepdown, pg := false, atLimit := false }) s
      | _ => s
  modPort p (fun r => { r with held := false }) s1

/-- tHOLD expires before the logic die takes control back: the safe state applies, the Ash log holds the ports, and their events wait
until the logic die is ready. -/
def holdExpires (s : State) : State :=
  if !s.board.tHold then s
  else
    let ps := (upTo s.nPorts).filter fun p => (s.port p).sw.active
    ashRecord 5 (maskOf ps) (foldS (upTo s.nPorts) (safePort s.safeState)
      (modBoard (fun b => { b with tHold := false, expired := true, holdDue := ps.map fun p => (p, s.safeState) }) s))

/-- The logic die is ready: the PORT_HOLD_EXPIRED that waited are posted (R400). -/
def postHolds (s : State) : State :=
  foldS s.board.holdDue (fun x t => pathEvent x.1 0x0328 x.2 0 t) (modBoard (fun b => { b with holdDue := [] }) s)

end Sys2Proof.Machine
end

