-- ==== Sys2Proof/Machine/Ledger.lean ====
section
/-!
DEFINITION. The Ledger (R148 to R163, R285): the recompute, the steps of each order with their predicted savings, feed loss,
shedding and restoring, and BUDGET_SET and BUDGET_STATUS. Powers are in mW, temperatures in 0.1 °C.
-/
namespace Sys2Proof.Machine

/-! ### What a budget reports (R285) -/

/-- The heat step that is fully in force: step 3 only at ×8. -/
def Ledger.heatShown (l : Ledger) : Nat := if l.heat = 3 ∧ l.stretchH < 3 then 2 else l.heat
/-- The feed step that is fully in force; step 6 once every renegotiation has concluded. -/
def Ledger.feedShown (l : Ledger) : Nat :=
  let at_ (k : Nat) : Nat := feedOrder.getD k 0
  match l.feedStep with
  | 0 => 0
  | k + 1 => if (k = 1 ∧ l.tShedRun = true) ∨ (k = 5 ∧ l.stretchF < 3) then at_ (k - 1) else at_ k
/-- The stretch stage in force. -/
def Ledger.stage (l : Ledger) : Nat := if l.stretchH < l.stretchF then l.stretchF else l.stretchH

/-- LEDGER_STEP of a budget whose step or stage changed (R165). -/
def ledgerStep (old : Ledger) (s : State) : State :=
  let l := s.ledger
  let s1 := if old.heat = l.heat ∧ old.stretchH = l.stretchH then s
    else stokEvent 0x0400 0 (l.heatShown + 16 * l.stretchH) (s32 l.pHeat) s
  if old.feedStep = l.feedStep ∧ old.stretchF = l.stretchF ∧ old.tShedRun = l.tShedRun then s1
  else stokEvent 0x0400 1 (l.feedShown + 16 * l.stretchF) (s32 l.pFeed) s1

/-- The same between two recomputes, with p_feed computed anew (R160). -/
def freshStep (old : Ledger) (s : State) : State := ledgerStep old (modLedger (fun l => { l with pFeed := s.feedPressure }) s)

/-! ### Effects of the steps (R154) -/

/-- A step is in force for either budget. -/
def Ledger.has (l : Ledger) (step : Nat) : Bool := heatHas l step || feedHas l step

/-- A class B context with another stretch: it applies at the next slot of the new period (R119), from grid count `n` on. -/
def Ctx.stretched (n : Nat) (c : Ctx) (k : Nat) : Ctx :=
  if c.stretch = k then c else { c with stretch := k, nextDue := slotFrom n (2 ^ (c.exp + k)) c.phase }

/-- The stretch of every class B context is the stage in force; a longer stretch of an engine shortage (R108) stays. -/
def applyStretch (old : Nat) (s : State) : State :=
  let k := s.ledger.stage
  { s with ctxs := s.ctxs.map fun e =>
      (e.1, if e.2.bound && e.2.cls == 1 && (decide (e.2.stretch ≤ old) || decide (e.2.stretch < k)) then e.2.stretched (s.openSlot (epGroup e.1)) k
            else e.2) }

/-- Step 1's plan: spares in falling number that can be emptied of groups without class A load, the moves, and the engines
left empty; a pin holds its group on its engine (R130). It is made on a copy of the state. -/
def State.consolidation (s : State) : List (Nat × Nat) × List Nat :=
  let tryOne (acc : State × List (Nat × Nat) × List Nat) (e : Nat) : State × List (Nat × Nat) × List Nat :=
    let (t, moves, gated) := acc
    if (t.teGroups e).any (fun g => (t.pinOf g).any fun p => p.eng == e) then acc
    else if (t.engine e).gated || (t.engine e).evac || (t.engine e).testing then acc
    else
      let step (a : Option (State × List (Nat × Nat))) (g : Nat) : Option (State × List (Nat × Nat)) :=
        match a with
        | none => none
        | some (u, ms) =>
          match (u.engineList.filter fun x => x != e && u.takes x && !(u.engine x).gated && !gated.contains x && u.fits g x).head? with
          | some x => some (modStok (fun k => { k with place := tset k.place g x }) u, ms ++ [(g, x)])
          | none => none
      match (t.teGroups e).foldl step (some (t, moves)) with
      | some (u, ms) => (u, ms, gated ++ [e])
      | none => acc
  ((s.spares.reverse.foldl tryOne (s, [], [])).2.1, (s.spares.reverse.foldl tryOne (s, [], [])).2.2)

/-- Gates each spare that step 1 has left empty. -/
def gateEmpty (s : State) : State :=
  if s.ledger.has 1 then
    foldS s.spares (fun e t =>
      if (t.teGroups e).isEmpty && !(t.engine e).evac && !(t.engine e).testing && t.stok.migs.all (fun m => m.dst != e) then
        changeEngine e (fun r => { r with gated := true }) t
      else t) s
  else s

/-- A consolidated group remembers the engine that it leaves (R128). -/
def noteMoved (g : Nat) (s : State) : State :=
  match s.engineOf g with
  | some e => if (tfind g s.stok.moved).isSome then s else modStok (fun k => { k with moved := tset k.moved g e }) s
  | none => s

/-- Step 1 (R154, R126 priority 2); during a warm restart it waits until Mboter reports ready (R32). -/
def consolidate (s : State) : State :=
  if s.ready then gateEmpty (foldS s.consolidation.1 (fun m t => order 2 m.1 m.2 (noteMoved m.1 t)) s) else s

/-- The clock that step 2 gives an active engine: 0 480 MHz, 1 240 MHz, 2 120 MHz. -/
def State.lowClock (s : State) (e : Nat) : Nat :=
  let k := peak (s.teAll e)
  if k ≤ 118 then 2 else if k ≤ 268 then 1 else 0
/-- The clock of a migration's target is held until the migration ends (R145). -/
def State.clockHeld (s : State) (e : Nat) : Bool := s.moving.any fun m => m.dst == e
def lowerClocks (s : State) : State :=
  foldS s.engineList (fun e t =>
    if (t.engine e).gated || t.clockHeld e then t else modEngine e (fun r => { r with clock := t.lowClock e }) t) s
def fullClocks (s : State) : State := foldS s.engineList (fun e t => modEngine e (fun r => { r with clock := 0 }) t) s
/-- Undoing step 1: gated engines wake. -/
def ungate (s : State) : State := foldS s.engineList (fun e t => changeEngine e (fun r => { r with gated := false }) t) s

/-- Takes the effect of a step that has just come into force. -/
def takeStep (step : Nat) (s : State) : State :=
  match step with
  | 1 => consolidate s
  | 2 => lowerClocks s
  | _ => s
/-- Undoes a step that neither budget holds any more. -/
def undoStep (step : Nat) (s : State) : State :=
  if s.ledger.has step then s
  else match step with
  | 1 => ungate s
  | 2 => fullClocks s
  | _ => s

/-! ### Savings prediction (R154) -/

/-- Class B transactions per second at a stretch stage (R101 slots over the effective period). -/
def State.rateB (s : State) (stage : Nat) : Nat :=
  sumBy (fun e => 8000 * (sumBy (fun o => o.2.1) (e.2.slots (s.rootSpeed (epPort e.1)))) / 2 ^ (e.2.exp + stage))
    (s.ctxs.filter fun e => e.2.periodic && e.2.cls == 1)
def State.rateA (s : State) : Nat :=
  sumBy (fun e => 8000 * (sumBy (fun o => o.2.1) (e.2.slots (s.rootSpeed (epPort e.1)))) / 2 ^ e.2.exp)
    (s.ctxs.filter fun e => e.2.periodic && e.2.cls == 0)

/-- Measured power of an engine in mW. -/
def engMw (m : LedgerMeas) (e : Nat) : Int := m.engMw.getD e 0

/-- e_txn × transactions per second, in mW; e_txn in pJ. -/
def txnMw (s : State) (perSecond : Nat) : Int := s.ledger.eTxnPj * perSecond / 1000000000

/-- Class C transactions removed per second by step 4: the measured rate less the periodic work and one transaction per
microframe on each port that enumerates. -/
def State.rateC (s : State) (m : LedgerMeas) : Nat :=
  let busy := ((upTo s.nPorts).filter fun p => !(s.port p).jobs.isEmpty).length
  m.txns - s.rateA - s.rateB s.ledger.stage - 8000 * busy

/-- Engines that step 1 in force is emptying: their groups are all on the way to other engines. -/
def State.emptying (s : State) (e : Nat) : Bool :=
  s.ledger.has 1 && !s.isA e && (s.teGroups e).all fun g => s.destOf g != some e
/-- What step 2 saves on the engines that stay on (R154). -/
def State.clockSaving (s : State) (m : LedgerMeas) (off : List Nat) : Int :=
  s.engineList.foldl (fun a e =>
    if (s.engine e).gated || s.emptying e || off.contains e then a
    else a + (match s.lowClock e with | 0 => 0 | 1 => engMw m e * 40 / 100 | _ => engMw m e * 60 / 100)) 0

/-- The predicted saving of a step, or of the next stretch stage of step 3, while the other budget does not hold it yet. -/
def State.saving (s : State) (m : LedgerMeas) (step nextStage : Nat) : Int :=
  if step != 3 && s.ledger.has step then 0
  else match step with
  | 1 => s.consolidation.2.foldl (fun a e => a + (engMw m e - 5)) 0
  | 2 => s.clockSaving m []
  | 3 => if nextStage ≤ s.ledger.stage then 0 else txnMw s (s.rateB s.ledger.stage - s.rateB nextStage)
  | 4 => txnMw s (s.rateC m)
  | _ => 0

/-! ### Heat steps -/

/-- Takes heat steps and stretch stages until their predicted savings cover the pressure (R153); during a warm restart the
order goes no further than step 4 (R32). -/
def takeHeat (m : LedgerMeas) : Nat → Int → State → State
  | 0, _, s => s
  | fuel + 1, need, s =>
    let l := s.ledger
    if need ≤ 0 ∨ (if s.ready then 5 else 4) ≤ l.heat then s
    else
      let stage := decide (l.heat = 3 ∧ l.stretchH < 3) || decide (l.heat = 2)
      let step := if stage then 3 else l.heat + 1
      let k := if l.heat = 2 then 1 else l.stretchH + 1
      let save := if step = 1 ∧ !s.ready then 0 else s.saving m step k
      let s1 := modLedger (fun l => { l with heat := step, stretchH := if stage then k else l.stretchH, measuring := true }) s
      takeHeat m fuel (need - save) (if stage then applyStretch l.stage s1 else takeStep step s1)

/-- tRELAX with p_heat at −0.3 W or below: the last heat step or stage is undone (R155). -/
def relax (s : State) : State :=
  let l := s.ledger
  if -300 < l.pHeat ∨ l.heat = 0 then s
  else
    let s1 :=
      if l.heat = 3 then
        applyStretch l.stage (modLedger (fun l => { l with stretchH := l.stretchH - 1, heat := if l.stretchH ≤ 1 then 2 else 3 }) s)
      else undoStep l.heat (modLedger (fun l => { l with heat := l.heat - 1 }) s)
    ledgerStep l s1

/-! ### Feed loss (R159 to R163) -/

/-- Ports in shed-rank order: rising rank, then falling number (R132). -/
def State.shedOrder (s : State) : List Nat :=
  sortBy (fun a b => decide ((s.port a).rank < (s.port b).rank) || ((s.port a).rank == (s.port b).rank && decide (b < a))) (upTo s.nPorts)

/-- A port holds a contract above 5 V, or has accepted the Request for one (R159). -/
def Port.above5 (r : Port) : Bool :=
  match r.pd.st with
  | .contract | .negotiating => r.pd.volt == 2
  | .transition => r.pd.newVolt == 2
  | _ => false
/-- What renegotiating a port to 5 V is predicted to save. -/
def Port.renegSaving (r : Port) : Int :=
  (r.weight : Int) - 5 * (sat (pdo5Ma r.pd.caps.amp5) (if r.pd.st = .transition then r.pd.newMa else r.pd.opMa))

/-- The shortest run of contracts above 5 V, in shed-rank order, whose savings cover the pressure; all of them where none
does. -/
def chooseReneg (s : State) : List Nat → Int → List Nat
  | [], _ => []
  | p :: r, need => if need ≤ 0 then [] else p :: chooseReneg s r (need - (s.port p).renegSaving)

/-- Renegotiates a port down: it is offered only the 5 V PDO (R159). Its old weight counts until that has concluded (R160). -/
def renegotiate (p : Nat) (s : State) : State :=
  newOffer p (modPort p (fun r => { r with reneg := true, renegRun := true, prior := r.weight }) s)

/-- The feed pressure with each port whose renegotiation has not concluded at its old weight (R160). -/
def State.shedPressure (s : State) : Int :=
  s.feedPressure + (upTo s.nPorts).foldl (fun a p =>
    if (s.port p).renegRun then a + ((s.port p).prior - (s.port p).weight : Int) else a) 0

/-- Powers off one port (R160): PORT_DISABLE's transition and PORT_SHED. -/
def shedPort (p : Nat) (s : State) : State :=
  let w := if (s.port p).renegRun then (s.port p).prior else (s.port p).weight
  pathEvent p 0x0320 0 0 (modPort p (fun r => { r with shed := true, prior := w, renegRun := false }) (toDisabled p s))

/-- Powers off ports in shed-rank order while p_feed is positive (R160). -/
def shedAll (s : State) : State :=
  foldS s.shedOrder (fun p t => if 0 < t.shedPressure ∧ (0 < (t.port p).weight ∨ (t.port p).renegRun = true) then shedPort p t else t) s

/-- Steps 1 to 4 of the feed order, with every port off (R163). -/
def takeFeed (m : LedgerMeas) : Nat → Int → State → State
  | 0, _, s => s
  | fuel + 1, need, s =>
    let l := s.ledger
    if need ≤ 0 ∨ (7 ≤ l.feedStep) then s
    else
      let stage := decide (l.feedStep = 6 ∧ l.stretchF < 3) || decide (l.feedStep = 5)
      let pos := if stage then 6 else l.feedStep + 1
      let step := feedOrder.getD (pos - 1) 0
      let k := if l.feedStep = 5 then 1 else l.stretchF + 1
      let save := s.saving m step k
      let s1 := modLedger (fun l => { l with feedStep := pos, stretchF := if stage then k else l.stretchF, measuring := true }) s
      takeFeed m fuel (need - save) (if stage then applyStretch l.stage s1 else takeStep step s1)

/-- Renegotiations are over: the Ledger sheds, and goes on with the rest of the order once every port is off. -/
def shedNow (s : State) : State :=
  let s1 := modLedger (fun l => { l with tShedRun := false }) s
  if s1.shedPressure ≤ 0 then s1
  else shedAll (modLedger (fun l => { l with feedStep := if l.feedStep < 3 then 3 else l.feedStep }) s1)

/-- The feed order at a recompute (R159, R160, R163); during a warm restart only step 5 (R32). -/
def feedOrderStep (m : LedgerMeas) (s : State) : State :=
  let some_ := (upTo s.nPorts).any fun p => (s.port p).shed || (s.port p).reneg
  if !s.ready then
    (if 0 < s.feedPressure then modLedger (fun l => { l with feedStep := if l.feedStep = 0 then 1 else l.feedStep, restoring := false }) s else s)
  else if s.ledger.tShedRun then
    (if (upTo s.nPorts).any (fun p => (s.port p).renegRun) then s else shedNow s)
  else if 0 < s.feedPressure then
    let s1 := modLedger (fun l => { l with feedStep := if l.feedStep = 0 then 1 else l.feedStep, restoring := false }) s
    let high := s1.shedOrder.filter fun p => (s1.port p).above5 && !(s1.port p).reneg
    match chooseReneg s1 high s1.feedPressure with
    | [] =>
      let s2 := shedNow s1
      if 0 < s2.feedPressure ∧ s2.committed = 0 then
        let s3 := if (s2.flt 144).active.isEmpty then raise 144 1 s2 else s2
        if s3.ledger.measuring then s3 else takeFeed m 8 s3.feedPressure s3
      else s2
    | ps => foldS ps renegotiate (modLedger (fun l => { l with feedStep := if l.feedStep < 2 then 2 else l.feedStep, tShedRun := true }) s1)
  else
    let s1 := if !(s.flt 144).active.isEmpty then clearFlt 144 1 s else s
    if some_ || s1.ledger.feedStep = 0 then s1
    else
      let l := s1.ledger
      undoStep 1 (undoStep 2 (applyStretch l.stage (modLedger (fun l => { l with feedStep := 0, stretchF := 0, restoring := false }) s1)))

/-- Feeds unchanged for tRESTORE after a change that made p_feed 0 or below with every shed port counted at its prior weight
(R162): restoring starts while that still holds. -/
def restoreStart (s : State) : State :=
  if s.ledger.feedMoved && decide (s.restoredPressure ≤ 0) then
    modLedger (fun l => { l with feedMoved := false, restoring := true }) s
  else s

/-- One port is restored, in falling shed rank (R162), not while a warm restart holds placement (R32). A shed port that has latched or
been isolated meanwhile stays as it is. -/
def restoreOne (s : State) : State :=
  if !s.ledger.restoring || !s.ready then s
  else match s.shedOrder.reverse.find? (fun p => (s.port p).shed || (s.port p).reneg) with
  | none => modLedger (fun l => { l with restoring := false }) s
  | some p =>
    let r := s.port p
    let s1 := modPort p (fun r => { r with shed := false, reneg := false, renegRun := false, prior := 0 }) s
    if r.shed && r.bus != .disabled then s1
    else pathEvent p 0x0321 0 0 (if r.shed then toUnattached p s1 else newOffer p s1)

/-- The remaining feed is at its limit: one port is shed per 1 ms (R161). -/
def limitShed (s : State) : State :=
  if !s.ledger.feedLimit then s
  else match s.shedOrder.find? (fun p => decide (0 < (s.port p).weight)) with
  | none => s
  | some p =>
    let l := s.ledger
    freshStep l (shedPort p (modLedger (fun l => { l with feedStep := if l.feedStep < 3 then 3 else l.feedStep, tShedRun := false }) s))

/-! ### The recompute (R148, R152, R157) -/

/-- T_hot over the sensors that are not left out. -/
def hottest (out : List Nat) (temps : List Int) : Int :=
  let ts := ((upTo temps.length).filter fun k => !out.contains k).map fun k => temps.getD k 0
  match ts with
  | [] => 0
  | t :: r => r.foldl (fun a b => if a < b then b else a) t

/-- TE_POWER shows an engine's measured power (R540). -/
def engineMw (m : LedgerMeas) (e : Nat) (s : State) : State :=
  modEngine e (fun r => { r with mw := BitVec.ofInt 32 (m.engMw.getD e 0) }) s

/-- Takes the measurements of a recompute into the Ledger. -/
def measureLedger (m : LedgerMeas) (s : State) : State :=
  let l := s.ledger
  let hot := hottest l.sensorsOut m.temps
  let encl := hot - l.theta * m.dMw / 1000
  let h := (1150 - encl) * 1000 / l.theta
  let p0 := m.dMw - h
  let floor_ : Int := 5 * (hot - 1150)
  let p := if 1150 < hot ∧ p0 < floor_ then floor_ else p0
  modLedger (fun l =>
    { l with temps := m.temps, dMw := m.dMw, tHot := hot, tEncl := encl, hMw := h, pHeat := p,
             eTxnPj := if m.txns = 0 then 0 else (m.tePgMw * 1000000000 / m.txns).toNat,
             hotN := if 1150 ≤ hot then true else if hot < 1130 then false else l.hotN }) s

/-- Predicted power with steps 1 to 4 fully in force (R157): step 2 saves nothing on the engines that step 1 gates, and the
others take the clock that the moved groups leave them. -/
def State.floorPower (s : State) (m : LedgerMeas) : Int :=
  let plan := if s.ledger.has 1 then ([], []) else s.consolidation
  let t := modStok (fun k => { k with place := plan.1.foldl (fun p x => tset p x.1 x.2) k.place }) s
  let clocks := if s.ledger.has 2 then 0 else t.clockSaving m plan.2
  let b := txnMw s (s.rateB s.ledger.stage - s.rateB 3)
  s.ledger.dMw - (s.saving m 1 0 + clocks + b + s.saving m 4 0)

/-- THERMAL_CLASS_A (R157). -/
def thermalCheck (m : LedgerMeas) (s : State) : State :=
  let l := s.ledger
  let bad := decide ((1250 - l.tEncl) * 1000 / l.theta < s.floorPower m) || decide (1250 ≤ l.tHot)
  let on := !(s.flt 143).active.isEmpty
  if bad && !on then raise 143 1 s else if !bad && on then clearFlt 143 1 s else s

/-- The values of a BUDGET_SET: the fields whose valid bit is 1 (R284). -/
def applyBudget (ps : List Byte) (s : State) : State :=
  let f := field ps
  let v := f 0 4
  let pick (i old new : Nat) : Nat := if bitOf v i then new else old
  let s1 := modLedger (fun l =>
    { l with feedA := pick 0 l.feedA (f 4 2), feedB := pick 1 l.feedB (f 6 2),
             shared := if bitOf v 2 then f 8 1 == 1 else l.shared, theta := pick 3 l.theta (f 9 1),
             portW := pick 4 l.portW (f 10 2), overheadW := pick 5 l.overheadW (f 12 1),
             tShed := pick 6 l.tShed (10 * f 14 2), tRestore := pick 7 l.tRestore (f 16 1),
             tRelax := pick 8 l.tRelax (f 17 1), tRot := pick 9 l.tRot (f 18 1) }) s
  if bitOf v 10 then foldS (upTo s.nPorts) (fun p t => modPort p (fun r => { r with rank := byteAt ps (20 + p) }) t) s1 else s1
/-- The values that BUDGET_SET wrote since the last recompute apply (R284). -/
def takeBudgets (s : State) : State := foldS s.ledger.due applyBudget (modLedger (fun l => { l with due := [] }) s)

/-- Every 1 ms (R148). -/
def recompute (m : LedgerMeas) (s0 : State) : State :=
  let s := takeBudgets s0
  let old := s.ledger
  let s1 := applyStretch old.stage (measureLedger m (foldS (upTo s.nEngines) (engineMw m) s))
  let s2 := thermalCheck m s1
  let s3 := if s2.ledger.measuring then s2 else takeHeat m 8 s2.ledger.pHeat s2
  let s4 := feedOrderStep m s3
  let s5 := modLedger (fun l => { l with pFeed := s4.feedPressure }) s4
  let s6 := if s5.ledger.has 2 then lowerClocks s5 else s5
  if s6.ready then gateEmpty (ledgerStep old s6) else ledgerStep old s6

/-- Mboter reports ready after a warm restart: consolidation resumes (R32). -/
def ledgerReady (s : State) : State := if s.ledger.has 1 then consolidate s else s

/-! ### BUDGET_SET and BUDGET_STATUS (R284, R285) -/

def budgetSetCmd : CmdSpec :=
  { len := 52,
    bad := fun c _ =>
      let f := field c.params
      let v := f 0 4
      let on (i : Nat) (ok : Bool) : Bool := !bitOf v i || ok
      decide (2048 ≤ v) || !zeros c.params [(13, 1), (19, 1)] ||
      !(on 0 (decide (f 4 2 ≤ 2000)) && on 1 (decide (f 6 2 ≤ 2000)) && on 2 (decide (f 8 1 ≤ 1)) &&
        on 3 (decide (20 ≤ f 9 1 ∧ f 9 1 ≤ 200)) && on 4 (decide (f 10 2 ≤ 1000)) && on 5 (decide (f 12 1 ≤ 100)) &&
        on 6 (decide (10 ≤ f 14 2 ∧ f 14 2 ≤ 200)) && on 7 (decide (1 ≤ f 16 1 ∧ f 16 1 ≤ 60)) &&
        on 8 (decide (5 ≤ f 17 1 ∧ f 17 1 ≤ 100)) && on 9 (decide (1 ≤ f 18 1 ∧ f 18 1 ≤ 168))),
    run := fun c s => (modLedger (fun l => { l with due := l.due ++ [c.params] }) s, .final stOk []) }

/-- The admitted class A peak, device-wide (R285). -/
def State.peakA (s : State) : Nat :=
  peak fun r => s.sumCtx (fun e => e.2.cls == 0) fun e => e.2.entries (s.rootSpeed (epPort e.1)) r

/-- Table — BUDGET_STATUS result. -/
def State.budgetStatus (s : State) : List Byte :=
  let l := s.ledger
  let mask (f : Port → Bool) : Nat := maskOf ((upTo s.nPorts).filter fun p => f (s.port p))
  u8 l.heatShown ++ u8 l.feedShown ++ u8 l.stage ++ [0] ++ sBytes 4 l.pHeat ++ sBytes 4 l.pFeed ++ sBytes 4 l.dMw ++
  sBytes 4 l.hMw ++ sBytes 2 l.tHot ++ sBytes 2 l.tEncl ++ u32 (s.feedBudget / 1000) ++ u32 s.committed ++ u16 s.capA ++
  u16 s.peakA ++ u8 s.aEngines.length ++ u8 s.spares.length ++
  u8 (s.engineList.filter fun e => (s.engine e).gated).length ++ [0] ++ u32 (mask fun r => r.shed) ++ u32 (mask fun r => r.reneg)

def budgetStatusCmd : CmdSpec := { len := 0, run := fun _ s => (s, .final stOk s.budgetStatus) }

end Sys2Proof.Machine
end

