-- ==== Sys2Proof/Machine/Micro.lean ====
section
/-!
DEFINITION. The microframe: sublists (R28 to R31, R95, R96, R107, R108), the grid boundary (R85 to R91) with the handoff of
migrations (R139, R141), and what a transaction result does (R109 to R116).
-/
namespace Sys2Proof.Machine

/-! ### What a slot sends -/

/-- The TE pops the queue of an interrupt OUT context (R95, R192): GAP items are skipped, an empty queue gives the claimed
item again with underrun set, and an empty head before a middle in spill extents gives nothing. -/
def tePop (q : Nat) : Nat → State → State × Option Item
  | 0, s => (s, none)
  | fuel + 1, s =>
    let r := s.queue q
    let p := s.popFrom r
    match p.took with
    | some i =>
      if i.isGap then tePop q fuel (putQueue q { p.q with claimed := r.claimed } none s)
      else (putQueue q p.q none s, some i)
    | none => if p.underrun then (markUnderrun q (setQueue q p.q s), some r.claimed) else (s, none)

/-- The payload that an OUT slot carries: resent until it is acknowledged (R110), cut to max_packet with an error (R95). -/
def outSlot (e : Nat) (c : Ctx) (s : State) : State × Bool :=
  if c.held.isSome then (s, true)
  else match tePop c.queue ((s.queue c.queue).count + 1) s with
    | (t, none) => (t, false)
    | (t, some i) =>
      let long := decide (c.maxPacket < i.payload.length)
      (modCtx e (fun c => { c with held := some { i with payload := i.payload.take c.maxPacket },
                                   errors := if long then c.errors + 1 else c.errors }) t, true)

/-- The transfer in progress on a context: the first of its transfers (R269). -/
def State.xferAt (s : State) (e : Nat) : Option Xfer := s.xfers.find? fun x => x.epid == e
def setXfer (x : Xfer) (s : State) : State :=
  { s with xfers := s.xfers.map fun y => if y.host == x.host && y.tag == x.tag then x else y }

/-- Steps 4 of the orders delay class C (R154). -/
def State.delaysC (s : State) : Bool := heatHas s.ledger 4 || feedHas s.ledger 4

/-- Whether class C work on a context can run now (R118, R120, R154). -/
def State.xferRuns (s : State) (x : Xfer) (c : Ctx) : Bool :=
  let p := epPort x.epid
  let bus := (s.port p).bus
  let q := s.queue x.queue
  (bus == .running || bus == .enumerating) && c.active && !c.recovering && !s.stok.unplaced.contains (epGroup x.epid) &&
    !s.suspendedAt p c.addr && (c.devOwned || !s.delaysC) && !(x.queue != 0 && x.kind != .write && q.isL && q.full)

/-- What setup byte 0 and wLength say of a control transfer. -/
def Xfer.dataIn (x : Xfer) : Bool := bitOf (byteAt x.setup 0) 7
def Xfer.wLength (x : Xfer) : Nat := field x.setup 6 2

/-- EP_WRITE from a queue takes its items in order, skips GAP items and counts them (R280). -/
def fillXfer (need : Nat) : Nat → Xfer → State → State × Xfer
  | 0, x, s => (s, x)
  | fuel + 1, x, s =>
    if need ≤ x.out.length then (s, x)
    else
      let p := s.popFrom (s.queue x.queue)
      match p.took with
      | some i =>
        let x1 := if i.isGap then { x with gaps := x.gaps + 1 } else { x with out := x.out ++ i.payload }
        fillXfer need fuel x1 (putQueue x.queue p.q none s)
      | none => (s, x)

/-- Prepares the next transaction of a transfer: false while an EP_WRITE waits for its queue, which does not count toward
nak_limit_ms (R280). -/
def prepareXfer (x : Xfer) (c : Ctx) (s : State) : State × Bool :=
  if x.kind == .write && x.queue != 0 && x.stage == 0 && x.left != 0 then
    let need := sat x.left c.maxPacket
    let (t, x1) := fillXfer need ((s.queue x.queue).count + 1) x s
    if x1.out.length < need then (setXfer { x1 with nakAt := none } t, false) else (setXfer { x1 with started := true } t, true)
  else (setXfer { x with started := true } s, true)

/-- The bytes of the next OUT packet of a transfer. -/
def Xfer.chunk (x : Xfer) (mps : Nat) : List Byte := x.out.take (sat x.left mps)

/-- What the next transaction of a transfer puts on the wire. -/
def Xfer.wire (x : Xfer) (c : Ctx) : Out :=
  match x.kind, x.stage with
  | .control, 0 => .usbOut x.epid x.setup
  | .control, 1 => if x.dataIn then .usbIn x.epid else .usbOut x.epid (x.chunk c.maxPacket)
  | .control, _ => if x.dataIn && x.wLength != 0 then .usbOut x.epid [] else .usbIn x.epid
  | .write, _ => .usbOut x.epid (x.chunk c.maxPacket)
  | .read, _ => .usbIn x.epid

/-- Whether the transaction in hand is an IN transaction. -/
def Xfer.inNow (x : Xfer) : Bool :=
  match x.kind, x.stage with
  | .control, 0 => false
  | .control, 1 => x.dataIn
  | .control, _ => !(x.dataIn && x.wLength != 0)
  | .write, _ => false
  | .read, _ => true
/-- The next attempt is a PING: an OUT other than a SETUP, after a NYET (R110). -/
def Xfer.pings (x : Xfer) (c : Ctx) : Bool := c.ping && c.speed == 2 && !x.inNow && (x.kind != .control || x.stage != 0)

/-- An entry of a periodic split that is no start-split and whose sequence is over: it is not run (R114 step 5). -/
def State.splitOver (s : State) (c : Ctx) : Bool := c.periodic && c.ttAddr != 0 && c.split != 1 && c.splitAt != s.time.g

/-- What an entry puts on the wire: complete-splits are IN tokens to the hub (R114). -/
def State.entryOut (s : State) (e : Nat) : Option Out :=
  match s.ctx e with
  | none => none
  | some c =>
    if s.splitOver c then none
    else if c.bound && decide (c.cls ≤ 2) then
      (if c.dirIn || (c.ttAddr != 0 && c.split == 1) then some (.usbIn e)
       else some (.usbOut e (match c.held with | some i => i.payload | none => [])))
    else match s.xferAt e with
      | some x => if c.ttAddr != 0 && c.split == 1 then some (.usbIn e)
        else if x.pings c then some (.usbPing e) else some (x.wire c)
      | none => none

/-! ### Building a sublist (R107, R108) -/

/-- Entries that an engine has committed for the next microframe. -/
def State.teUsed (s : State) (te : Nat) : Nat :=
  sumBy (fun l => if l.te = te then l.periodic.length + l.acyclic.length else 0) s.stok.lists

/-- Entries that an engine's clock leaves room for (R108, R154). -/
def State.teRoom (s : State) (te : Nat) : Nat := 600 / 2 ^ (s.engine te).clock

/-- Class A entries that the groups of an engine other than `g` will still commit for microframe `n`: they keep their room (R108). -/
def State.reservedA (s : State) (te g n : Nat) : Nat :=
  let open_ (k : Nat) : Bool := k != g && s.stok.lists.all fun l => !(l.group == k && l.te == te)
  sumBy (fun k => s.sumCtx (fun e => epGroup e.1 == k && e.2.cls == 0 && !e.2.moving)
    fun e => e.2.entries (s.rootSpeed (epPort e.1)) (n % 8192)) ((s.teGroups te).filter open_)

/-- A due slot passes: it is served, or counts in skipped. -/
def Ctx.pass (c : Ctx) (missed : Nat) : Ctx :=
  { c with nextDue := c.nextDue + BitVec.ofNat 32 c.effPeriod, retry := 0, split := 0, slotAt := some c.nextDue,
           skipped := c.skipped + BitVec.ofNat 32 missed }

/-- A class B context that finds no entry again is stretched (R108). -/
def Ctx.shortAgain (old new : Ctx) : Ctx :=
  if old.short && decide (old.stretch < 3) then new.stretched new.nextDue.toNat (old.stretch + 1) else new

/-- A class B slot that finds no entry: counted, and when the shortage recurs the context is stretched (R108). -/
def Ctx.shortB (c : Ctx) : Ctx := c.shortAgain { c.pass 1 with short := true }

/-- A class B complete-split that finds no entry: the split is given up, and counts like a slot (R108). -/
def Ctx.shortCs (c : Ctx) : Ctx := c.shortAgain { c with split := 0, short := true, skipped := c.skipped + 1 }

/-- A slot of a context is served in microframe `n`: its entries, and a start-split begins the sequence of R114. -/
def serveSlot (n : Nat) (e : Nat) (c : Ctx) (acc : State × List Nat) : State × List Nat :=
  let (s, l) := acc
  let due := decide (c.nextDue.toNat = n)
  let on (x : Ctx) (missed : Nat) : Ctx :=
    { (if due then x.pass missed else { x with split := 0, skipped := x.skipped + BitVec.ofNat 32 missed }) with
        late := false, splitAt := if c.ttAddr = 0 then x.splitAt else BitVec.ofNat 32 n }
  let count := if c.ttAddr = 0 ∧ c.dirIn = true then 1 + c.mult else 1
  if c.dirIn then (setCtx e { on c 0 with short := false } s, l ++ List.replicate count e)
  else match outSlot e c s with
    | (t, true) => (modCtx e (fun c => { on c 0 with short := false }) t, l ++ [e])
    | (t, false) => (modCtx e (fun c => on c 1) t, l)

/-- One context of class `cls` in a sublist being built for microframe `n`. A class B context whose image is not in the cache is
prepared in the next microframe (R84). -/
def placeSlot (te cls n : Nat) (acc : State × List Nat) (e : Nat) : State × List Nat :=
  let (s, l) := acc
  match s.ctx e with
  | none => acc
  | some c =>
    let due := decide (c.nextDue.toNat = n)
    let count := if c.ttAddr = 0 ∧ c.dirIn = true then 1 + c.mult else 1
    let full (k : Nat) : Bool := cls == 1 && decide (600 < s.teUsed te + s.reservedA te (epGroup e) n + l.length + k)
    if !c.periodic || c.cls != cls then acc
    else if c.moving then acc
    else if due || c.late then
      if !s.runs e c then
        (setCtx e (if due then { c.pass 1 with late := false } else { c with late := false, skipped := c.skipped + 1 }) s, l)
      else if !c.late && !s.isResident e c then (setCtx e { c.pass 0 with late := true } (fetchCtx e s), l)
      else if full count then (setCtx e { (if due then c.shortB else c.shortCs) with late := false } s, l)
      else serveSlot n e c acc
    else if c.ttAddr = 0 ∨ c.split ≠ 1 then acc
    else
      let off := (BitVec.ofNat 32 n - c.splitAt).toNat
      if 4 < off then (setCtx e { c with split := 0 } s, l)
      else if off < 2 || !s.runs e c then acc
      else if full 1 then (setCtx e c.shortCs s, l)
      else (s, l ++ [e])

/-- Periodic retries of R111, at the end of the periodic part: one for each transaction that failed; those that find no entry in their
microframe are given up. -/
def placeRetry (te n : Nat) (acc : State × List Nat) (e : Nat) : State × List Nat :=
  let (s, l) := acc
  match s.ctx e with
  | none => acc
  | some c =>
    if !c.periodic || c.retry == 0 then acc
    else if l.contains e || !s.runs e c then (setCtx e { c with retry := 0 } s, l)
    else
      (setCtx e { c with retry := 0, retryAt := some (BitVec.ofNat 32 n) } s,
        l ++ List.replicate (sat (600 - s.teUsed te - s.reservedA te (epGroup e) n - l.length) c.retry) e)

/-- Class C contexts of a group with work, and the entries each may take: a bound bulk IN context up to 8 (R96), one behind a
translator its one split (R115). -/
def State.acyclicWork (s : State) (g : Nat) : List (Nat × Nat × Bool) :=
  (s.groupCtxs g).filterMap fun x =>
    if x.2.bound && x.2.cls == 2 then (if s.runs x.1 x.2 then some (x.1, if x.2.ttAddr = 0 then 8 else 1, false) else none)
    else match s.xferAt x.1 with
      | some y => if s.xferRuns y x.2 then some (x.1, 1, x.2.type == 0) else none
      | none => none

/-- Class C work whose images are not in the cache is prepared in the next microframe (R84). -/
def fetchWork (acc : State × List (Nat × Nat × Bool)) (x : Nat × Nat × Bool) : State × List (Nat × Nat × Bool) :=
  let (s, l) := acc
  match s.ctx x.1 with
  | none => acc
  | some c =>
    if c.late then (setCtx x.1 { c with late := false } s, l ++ [x])
    else if s.isResident x.1 c then (s, l ++ [x])
    else (setCtx x.1 { c with late := true } (fetchCtx x.1 s), l)

/-- The same, starting after the context served first before (R107). -/
def rotateAfter (e : Nat) (l : List (Nat × Nat × Bool)) : List (Nat × Nat × Bool) :=
  (l.filter fun x => decide (e < x.1)) ++ (l.filter fun x => decide (x.1 ≤ e))

/-- With class C delayed, device-owned contexts keep one transaction per port per microframe (R154). -/
def State.acyclicLimit (s : State) (p : Nat) : Nat :=
  if s.delaysC then (if s.stok.lists.any (fun l => l.group / 8 == p && !l.acyclic.isEmpty) then 0 else 1) else 600

/-- Wire cost of one entry of a context, as admission counts it (R102). -/
def State.entryCost (s : State) (e : Nat) : Nat :=
  match s.ctx e with
  | none => 0
  | some c => if c.ttAddr = 0 then c.cost (s.rootSpeed (epPort e)) c.maxPacket else hsCost c.maxPacket
/-- Byte-times of the first 100 µs of a microframe at a port's speed (R101, R171; notes/assumptions/144.md). -/
def State.calWire (s : State) (p : Nat) : Nat := match s.rootSpeed p with | 2 => 6000 | 1 => 150 | _ => 18
/-- Wire time that a port's sublists for microframe `n` take so far, and that the slots due in its other groups will take. -/
def State.wireTaken (s : State) (p g n : Nat) : Nat :=
  let ls := s.stok.lists.filter fun l => l.group / 8 == p && l.group != g
  let open_ (k : Nat) : Bool := k != g && ls.all fun l => l.group != k
  sumBy (fun l => sumBy s.entryCost (l.periodic ++ l.acyclic)) ls +
    sumBy (fun x => if x.2.periodic && x.2.nextDue.toNat == n && open_ (epGroup x.1) then
      (1 + x.2.mult) * s.entryCost x.1 else 0) (s.portCtxs p)
/-- The wire time left for class C on a port that is being calibrated; none is reckoned otherwise (R171). -/
def State.calRoom (s : State) (g n : Nat) (periodic : List Nat) : Option Nat :=
  if (s.port (g / 8)).calibrating then some (s.calWire (g / 8) - s.wireTaken (g / 8) g n - sumBy s.entryCost periodic) else none

/-- Adds the entries of one class C context, up to the engine's room and the wire time of a calibration. -/
def placeAcyclic (room : Nat) (cal : Option Nat) (acc : State × List Nat) (x : Nat × Nat × Bool) : State × List Nat :=
  let (s, l) := acc
  let left : Nat := match cal with
    | none => room - l.length
    | some w => sat (room - l.length) ((w - sumBy s.entryCost l) / (s.entryCost x.1 + (if s.entryCost x.1 = 0 then 1 else 0)))
  if left = 0 then acc
  else match s.ctx x.1 with
  | none => acc
  | some c =>
    if c.bound then (s, l ++ List.replicate (sat left x.2.1) x.1)
    else match s.xferAt x.1 with
      | some y => match prepareXfer y c s with
        | (t, true) => (t, l ++ [x.1])
        | (t, false) => (t, l)
      | none => acc

/-- The microframe that the next sublists are for. -/
def State.nextG (s : State) : Nat := (s.time.g.toNat + 1) % 2 ^ 32

/-- The due slots of a group, and what the first of two engines of a migration has committed for it: nothing yet. -/
def slotEntries (te g : Nat) (s : State) : State × List Nat :=
  let es := (s.groupCtxs g).map fun x => x.1
  es.foldl (placeSlot te 1 s.nextG) (es.foldl (placeSlot te 0 s.nextG) (s, []))

/-- A sublist is committed: its due slots `b` and what it holds of class C work already, then the retries and the class C work that are not
in it yet (R107, R108). -/
def commitEntries (te g : Nat) (acyclic : List Nat) (b : State × List Nat) : State :=
  let n := b.1.nextG
  let r := ((b.1.groupCtxs g).map fun x => x.1).foldl (placeRetry te n) b
  let work := (r.1.acyclicWork g).filter fun x => !acyclic.contains x.1
  let f := (rotateAfter (tget r.1.stok.rr 0xFFFFFFFF g) work).foldl fetchWork (r.1, [])
  let ordered := (f.2.filter fun x => x.2.2) ++ (f.2.filter fun x => !x.2.2)
  let room := sat (r.1.teRoom te - r.1.teUsed te - r.1.reservedA te g n - r.2.length) (r.1.acyclicLimit (g / 8))
  let c := ordered.foldl (placeAcyclic room (f.1.calRoom g n r.2)) (f.1, acyclic)
  modEngine te (fun x => { x with txns := x.txns + BitVec.ofNat 32 (r.2.length + c.2.length) })
    (modStok (fun k =>
      { k with lists := k.lists ++ [{ group := g, te := te, periodic := r.2, acyclic := c.2 }],
               rr := match c.2 with | e :: _ => tset k.rr g e | [] => k.rr }) c.1)

/-- A TE commits a group's sublist for the next microframe: the group's engine does, and the target of its migration; the
target of a cold takeover does once it is ready (R146). The two engines of a migration build the same microframe from the same
images, one from the deltas of the other (R139): whichever commits second commits the same slots, and beside them the retries and the
class C work that came between the two, less what was unbound or has ended (R143). -/
def commitList (te g : Nat) (s : State) : State :=
  let target := s.stok.migs.any fun m => m.group == g && m.dst == te && !m.handed
  if !s.available te || !(s.engineOf g == some te || target) || s.stok.lists.any (fun l => l.group == g && l.te == te) ||
      s.stok.colds.any (fun c => c.group == g) then s
  else match s.stok.lists.find? (fun l => l.group == g) with
    | some l =>
      let work := (s.acyclicWork g).map fun x => x.1
      commitEntries te g (l.acyclic.filter work.contains)
        (s, l.periodic.filter fun e => match s.ctx e with | some c => c.periodic | none => false)
    | none => commitEntries te g [] (slotEntries te g s)

/-! ### The grid boundary -/

/-- Ports that send SOF or keep-alive: the buses that run one, and a bus whose resume K is over (R70, R85). -/
def State.sendsSof (s : State) (p : Nat) : Bool :=
  let r := s.port p
  r.bus.hasSof || (r.bus == .resuming && (match r.resume with | some x => x.kDone | none => false))

/-- TIME reaches a moment that an event marks, and with it the uptime and the Lichen island's copy (R448; notes/assumptions/5.md). -/
def passTo (ns : Nat) (s : State) : State :=
  let d := ns - s.time.now.toNat
  modTime (fun t => { t with now := if t.now.toNat < ns then BitVec.ofNat 64 ns else t.now })
    (modLich (fun l => { l with timeCopy := l.timeCopy.map (· + BitVec.ofNat 64 d) })
      (modDev (fun r => { r with upNs := r.upNs + d, monoNs := r.monoNs + d }) s))

/-- A grid offset in half ns after one more microframe: it has moved toward 0 by 12.5 ns (R89). -/
def slewed (h : Int) : Int := if 25 < h then h - 25 else if h < -25 then h + 25 else 0

/-- The next boundary in units of half a ns of TIME: the grid does not step, so a step since the last boundary moves it; the
microframe in progress is slewed while the grid is unaligned (R89). -/
def Time.boundaryHalf (t : Time) : Int := 2 * (((t.m : Int) + 1) * 125000 + t.stepBy) + slewed t.gridHalf

/-- The SOF time of the microframe in hand (R36, R90). -/
def State.sofTime (s : State) : DWord :=
  BitVec.ofNat 64 ((s.time.m : Int) * 125000 + s.time.gridHalf / 2).toNat

/-- The stamp and off_grid of the microframe in hand, for results of it that come after the next boundary (R139 step 6). -/
def keepStamp (s : State) : State :=
  modTime (fun t => { t with sofLast := s.sofTime, offLast := t.gridHalf != 0 }) s

/-- The boundary after a step, which TIME has reached: M is the index of the nearest grid point, the offset is the distance
from it, and G is renumbered (R89, R91). -/
def renumber (s0 : State) : State :=
  let at_ := s0.time.boundaryHalf
  let s := passTo (at_ / 2).toNat s0
  let (off, k) := if at_ % 250000 < 125000 then (at_ % 250000, at_ / 250000) else (at_ % 250000 - 250000, at_ / 250000 + 1)
  let m := k.toNat
  let g := BitVec.ofNat 32 m
  let s1 := modTime (fun t => { t with m := m, g := g, gridHalf := off, stepped := false, stepBy := 0 }) s
  let shift := g - (s.time.g + 1)
  { s1 with ctxs := s1.ctxs.map fun e =>
      (e.1, if e.2.periodic then
        { e.2 with nextDue := BitVec.ofNat 32 (m + (e.2.phase + e.2.effPeriod - m % e.2.effPeriod) % e.2.effPeriod),
                   splitAt := e.2.splitAt + shift, retryAt := e.2.retryAt.map (· + shift), slotAt := none } else e.2) }

/-- The next boundary of a grid that is not renumbered: G and M rise by 1, an offset moves toward 0 by 12.5 ns, and TIME has
reached the boundary (R85, R89). -/
def nextBoundary (s : State) : State :=
  let h1 := slewed s.time.gridHalf
  let m := s.time.m + 1
  let at_ : Int := (m : Int) * 125000 + h1 / 2
  modTime (fun t => { t with m := m, g := t.g + 1, gridHalf := h1 }) (passTo at_.toNat s)

/-- Sets the pin of a group. -/
def addPin (p : Pin) (s : State) : State :=
  modStok (fun k => { k with pins := p :: k.pins.filter (fun x => x.group != p.group) }) s

/-- The handoff of a migration (R139 step 5). A PLACE_PIN that asked for it sets its pin first, so that the group leaves no
older pin behind (R131). -/
def handOff (m : Mig) (s : State) : State :=
  let done (k : Stoker) : Stoker :=
    { k with migs := k.migs.map (fun x => if x.group == m.group then { x with handed := true } else x),
             migTimes := s.dev.monoNs :: k.migTimes.filter (fun a => decide (s.dev.monoNs < a + 1000000000)) }
  let s1 := bumpMig m (modStok done s)
  match s1.opAt (keyUnit (0x1000 + m.group)) with
  | some o =>
    if o.args.getD 1 0xFF = m.dst then
      let s2 := putGroup m.group m.dst (addPin { group := m.group, eng := m.dst, allow := o.args.getD 2 1 != 0 } s1)
      finishOp o.host o.tag stOk (u8 s2.stok.pins.length) s2
    else putGroup m.group m.dst s1
  | none => putGroup m.group m.dst s1

/-- Migrations at the boundary: a ready one is handed off, one of sixteen boundaries is abandoned (R139, R141); none is handed
off before Mboter reports ready (R32). -/
def migBoundary (s : State) : State :=
  if !s.ready then s
  else foldS s.moving (fun m t =>
    if m.ready && t.available m.dst then handOff m t
    else if 16 ≤ m.age + 1 then abandonMig m.group t
    else { t with stok := { t.stok with migs := t.stok.migs.map fun x => if x.group == m.group then { x with age := x.age + 1 } else x } })
    s

/-- A slot of a bound periodic context that is now and was placed in no sublist counts in skipped (R30, R146), as does one that stretch
leaves out (R82, R100). -/
def Ctx.missed (g : Word) (c : Ctx) : Ctx :=
  if !c.periodic || c.moving then c
  else if c.nextDue == g then c.pass 1
  else if c.cls == 1 && c.stretch != 0 && c.slotAt != some g && g.toNat % c.period == c.phase % c.period then
    { c with skipped := c.skipped + 1 }
  else c
def missSlots (s : State) : State := { s with ctxs := s.ctxs.map fun e => (e.1, e.2.missed s.time.g) }

/-- The slot of a renumbered microframe passes for a context whose next_due it became: nothing counts in skipped (R91). -/
def passSlots (s : State) : State :=
  { s with ctxs := s.ctxs.map fun e =>
      (e.1, if e.2.periodic && !e.2.moving && e.2.nextDue == s.time.g then
        { e.2 with nextDue := e.2.nextDue + BitVec.ofNat 32 e.2.effPeriod, retry := 0 } else e.2) }

/-- Entries that a port without SOF does not run: a periodic slot counts in skipped (R109). -/
def dropEntries (l : List Nat) (s : State) : State :=
  foldS l.eraseDups (fun e t => modCtx e (fun c => { c with skipped := c.skipped + 1 }) t) s

/-- LIST_MISSED for a group that has contexts and no committed sublist (R30); a cold takeover names the lost engine
(R146, R475). -/
def missedList (g : Nat) (s : State) : State :=
  let miss (e : Nat) : State :=
    raiseAt (srcTe e) 1 (BitVec.ofNat 32 g) (setSqc (aTe e) [17] (modEngine e (fun r => { r with missed := satAdd r.missed 1 }) s))
  match s.stok.colds.find? (fun c => c.group == g) with
  | some c => miss c.src
  | none => match s.engineOf g with
    | some e => miss e
    | none => s

/-- The sublist of a group that runs: that of its engine, or one that the source of a cold takeover had committed (R30,
R145). -/
def State.listOf (s : State) (g : Nat) : Option Sublist :=
  s.stok.lists.find? fun l => l.group == g &&
    match s.stok.colds.find? fun c => c.group == g with
    | some c => c.src == l.te
    | none => s.engineOf g == some l.te
/-- Slots of a group that were built into a sublist that does not run count in skipped (R30, R109). -/
def dropBuilt (g : Nat) (s : State) : State :=
  match s.stok.lists.find? fun l => l.group == g with
  | some l => dropEntries l.periodic s
  | none => s

/-- A transaction of the transfer in progress on a context is on the wire, or its result is here (R270). -/
def onWire (e : Nat) (b : Bool) (s : State) : State :=
  match s.xferAt e with
  | some x => setXfer { x with sent := b } s
  | none => s

/-- SOF and the sublists of one port (R28, R86, R87). -/
def runPort (p : Nat) (s : State) : State :=
  let gs := (upTo 8).map fun k => 8 * p + k
  let ls := gs.filterMap s.listOf
  if s.sendsSof p then
    let speed := (s.port p).speed
    let mark : Out := if speed = 0 then .lsEop p else .sof p (s.time.m % 8000 % 2048)
    let frame := if speed == 2 || s.time.m % 8 == 0 then emit mark s else s
    let s1 := foldS gs (fun g t => if (t.groupCtxs g).isEmpty || (t.listOf g).isSome then t else dropBuilt g (missedList g t)) frame
    let entries := ls.flatMap (fun l => l.periodic) ++ ls.flatMap (fun l => l.acyclic)
    foldS entries (fun e t => match t.entryOut e with | some o => emit o (onWire e true t) | none => t) s1
  else foldS gs dropBuilt s

/-- A grid boundary (R85). -/
def boundary (s : State) : State :=
  if !s.time.gridOn then s
  else
    let s1 := migBoundary (if s.time.stepped then renumber (keepStamp s) else nextBoundary (keepStamp s))
    let ran := foldS (upTo s1.nPorts) runPort s1
    let s2 := if s.time.stepped then passSlots ran else missSlots ran
    let s3 := issueOrders 64 (modStok (fun k => { k with lists := [] }) s2)
    engineEmpty (if s3.ready then gateEmpty s3 else s3)

/-! ### Migrations and takeovers -/

/-- The target has committed the group's sublist and is ready for the next boundary (R139 step 3). -/
def migReady (p g : Nat) (s : State) : State :=
  let code := 8 * p + g
  let built (m : Mig) : Bool := s.stok.lists.any fun l => l.group == code && l.te == m.dst
  { s with stok := { s.stok with migs := s.stok.migs.map fun m =>
      if m.group == code && !m.handed && built m then { m with ready := true } else m } }

/-- The drain marker arrives: the held pushes are made in order, and the migration is over (R144). -/
def migDrained (p g : Nat) (s : State) : State :=
  let code := 8 * p + g
  match s.stok.migs.find? (fun m => m.group == code && m.handed) with
  | none => s
  | some m => issueOrders 64 (engineEmpty (foldS m.pushes (fun x t => pushItem x.1 x.2 t) (dropMig code s)))

/-- The target of a cold takeover is ready: the group runs from the next boundary (R146). -/
def coldReady (p g : Nat) (s : State) : State :=
  modStok (fun k => { k with colds := k.colds.filter fun c => c.group != 8 * p + g }) s

/-! ### Transaction results (R110) -/

/-- The stamp of an item: the SOF time of the microframe in which its transaction completed, with off_grid while the grid was unaligned
(R36, R90, R116); and the grid count of that microframe. -/
def State.txnStamp (s : State) : DWord := if s.time.late then s.time.sofLast else s.sofTime
def State.offGrid (s : State) : BitVec 8 :=
  if (if s.time.late then s.time.offLast else s.time.gridHalf != 0) then 1 else 0
def State.txnG (s : State) : Word := if s.time.late then s.time.g - 1 else s.time.g

/-- A DATA item of an endpoint (R178). -/
def State.usbItem (s : State) (e : Nat) (bs : List Byte) : Item :=
  { noneItem with typ := 1, flags := s.offGrid, source := BitVec.ofNat 32 (0x10000000 + e % 131072), stamp := s.txnStamp, payload := bs }

/-- A completed IN transaction's item enters its queue; a target holds it until the drain marker (R144), the source's own late
items do not wait (R139 step 6). -/
def deliver (q e : Nat) (bs : List Byte) (s : State) : State :=
  let i := s.usbItem e bs
  let g := epGroup e
  if s.stok.migs.any (fun m => m.group == g && m.handed && !m.late) then
    { s with stok := { s.stok with migs := s.stok.migs.map fun m =>
        if m.group == g && m.handed then { m with pushes := m.pushes ++ [(q, i)] } else m } }
  else pushItem q i s

/-- A transaction that completed. -/
def Ctx.success (c : Ctx) (g : Word) : Ctx :=
  { c with toggle := !c.toggle, errCount := 0, xerr := false, nakRun := 0, served := c.served + 1, lastDone := g }

/-- A transaction error of a bound context in microframe `g` (R111): one retry in the next microframe where the period is at least 2 and the
transaction was no retry itself, DEFERRED at three. A bound bulk IN context, which has no transfer to end, is DEFERRED with XACT_ERRORS like a periodic one and goes on
being polled: a DESIGN CHOICE (notes/assumptions/145.md). -/
def Ctx.error (c : Ctx) (retries : Bool) (g : Word) : Ctx :=
  let n := sat 3 (c.errCount + 1)
  { c with errors := c.errors + 1, errCount := n, xerr := c.xerr || n == 3, nakRun := 0,
           retry := if decide (3 ≤ n) then 0
             else if retries && c.cls != 2 && c.retryAt != some g && decide (2 ≤ c.period) then c.retry + 1 else c.retry }

def Ctx.nak (c : Ctx) : Ctx := { c with nakRun := sat 0xFFFF (c.nakRun + 1) }

/-- ClearTTBuffer to the translator of a context behind one (R115). -/
def clearTT (e : Nat) (c : Ctx) (s : State) : State :=
  if c.ttAddr = 0 then s
  else emit (.usbRequest (epPort e) c.ttAddr
    (setup 0x23 8 (c.ep + 16 * c.addr + 0x800 * (c.type % 4) + 0x8000 * b2n c.dirIn) (if c.ttPort = 0 then 1 else c.ttPort) 0)) s

/-- An error of a bound context; the third on a bulk context behind a translator clears the translator's buffer (R110, R111,
R115). -/
def boundError (e : Nat) (c : Ctx) (retries : Bool) (s : State) : State :=
  let s1 := setCtx e (c.error retries s.txnG) s
  if c.cls = 2 ∧ c.errCount = 2 then clearTT e c s1 else s1

/-- The data of a hub's status change endpoint, which belongs to the HK32: one bit for the hub and one for each of its ports
that has a change to read (R60, R61, R71). -/
def hubChanges (p a : Nat) (bs : List Byte) (s : State) : State :=
  let bits := (upTo (8 * bs.length)).filter fun k => bitOf (byteAt bs (k / 8)) (k % 8)
  foldS bits (fun k t => emit (.usbRequest p a (if k = 0 then setup 0xA0 0 0 0 4 else setup 0xA3 0 0 k 4)) t) s

/-- The data of a bound IN context: an item of its queue, or for a context of the HK32 the changes of its hub. -/
def takeData (e : Nat) (c : Ctx) (bs : List Byte) (s : State) : State :=
  if c.devOwned then hubChanges (epPort e) c.addr bs s else deliver c.queue e bs s

/-- A result on a bound context (R110). `retries`: R111 allows a retry. -/
def boundResult (e : Nat) (c : Ctx) (r : Txn) (retries : Bool) (s : State) : State :=
  let err := boundError e c retries s
  match r with
  | .data ok bs =>
    if !c.dirIn || decide (c.maxPacket < bs.length) then err
    else if ok then takeData e c bs (setCtx e (c.success s.txnG) s)
    else setCtx e { c with errCount := 0, xerr := false, nakRun := 0 } s
  | .ack => if c.dirIn then err else setCtx e { c.success s.txnG with held := none, ping := false } s
  | .nyet => if c.dirIn || c.speed != 2 then err else setCtx e { c.success s.txnG with held := none, ping := true } s
  | .nak => setCtx e c.nak s
  | .stall => setCtx e { c with halted := true, retry := 0, nakRun := 0 } s
  | .error => err

/-! ### Class C transfers (R113, R279, R280) -/

/-- What an EP_CONTROL that completed its status stage changes (R57, R58, R112). A halted context that a ClearFeature of a host
returns to its base state counts for EP_SERVICE, as R122 lists no exception for it: a DESIGN CHOICE (notes/assumptions/146.md). -/
def watchControl (x : Xfer) (s : State) : State :=
  match s.ctx x.epid with
  | none => s
  | some c =>
    let p := epPort x.epid
    let rt := byteAt x.setup 0
    let req := byteAt x.setup 1
    let value := field x.setup 2 2
    let index := field x.setup 4 2
    if rt = 0 ∧ req = 9 then hostConfigured p c.addr (value % 256) s
    else if rt = 1 ∧ req = 11 then hostInterface p c.addr (index % 256) (value % 256) s
    else if rt = 2 ∧ req = 1 ∧ value = 0 then
      foldS ((s.instCtxs p c.addr).filter fun y =>
          y.2.type != 0 && y.2.active && y.2.ep == index % 16 && y.2.dirIn == bitOf index 7)
        (fun y t => modCtx y.1 (fun c => { c with toggle := false, halted := false }) t) s
    else s

/-- IN data of an EP_CONTROL goes to its data queue in items of up to 4,080 bytes (R279). -/
def flushGot (x : Xfer) (last : Bool) (s : State) : State × Xfer :=
  let one (acc : State × Xfer) : State × Xfer :=
    if x.queue != 0 && (last && !acc.2.got.isEmpty || decide (4080 ≤ acc.2.got.length)) then
      (deliver x.queue x.epid (acc.2.got.take 4080) acc.1, { acc.2 with got := acc.2.got.drop 4080 })
    else acc
  one (one (s, x))

/-- The result code of a control transfer that completed: SHORT when its IN data ended early (R113). -/
def Xfer.endCode (x : Xfer) : Nat := if x.dataIn && decide (x.moved < x.wLength) then 1 else 0

/-- The status stage completed. -/
def endControl (x : Xfer) (s : State) : State := endXfer x x.endCode (watchControl x s)

/-- The transfer moves on: no error and no NAK stand. -/
def Xfer.onward (x : Xfer) : Xfer := { x with errs := 0, nakAt := none }

/-- The context after a completed class C transaction. -/
def okCtx (e : Nat) (toggle ping : Bool) (s : State) : State :=
  modCtx e (fun c => { c with toggle := toggle, ping := ping, errCount := 0, nakRun := 0, served := c.served + 1, lastDone := s.txnG }) s

/-- IN data of a transfer. -/
def xferData (x : Xfer) (c : Ctx) (bs : List Byte) (s : State) : State :=
  let got := bs.take x.left
  let short := decide (bs.length < c.maxPacket)
  let x1 : Xfer := { x.onward with left := x.left - got.length, moved := x.moved + got.length }
  let s1 := okCtx x.epid (!c.toggle) c.ping s
  match x.kind with
  | .control =>
    let done := short || x1.left == 0
    let (s2, x2) := flushGot { x1 with got := x.got ++ got } done s1
    setXfer (if done then { x2 with stage := 2 } else x2) s2
  | _ =>
    let s2 := if x.queue = 0 then s1 else deliver x.queue x.epid got s1
    let x2 := if x.queue = 0 then { x1 with got := x.got ++ got } else x1
    if x2.left = 0 then endXfer x2 0 s2
    else if short && x.flag then endXfer x2 1 s2
    else setXfer x2 s2

/-- An OUT packet of a transfer was taken. -/
def xferSent (x : Xfer) (c : Ctx) (ping : Bool) (s : State) : State :=
  let n := (x.chunk c.maxPacket).length
  let x1 : Xfer := { x.onward with left := x.left - n, moved := x.moved + n, out := x.out.drop n }
  match x.kind, x.stage with
  | .control, 0 => setXfer { x.onward with stage := if x.wLength = 0 then 2 else 1 } (okCtx x.epid true ping s)
  | .control, 1 => setXfer (if x1.left = 0 then { x1 with stage := 2 } else x1) (okCtx x.epid (!c.toggle) ping s)
  | .control, _ => endControl x.onward (okCtx x.epid false ping s)
  | _, 0 =>
    let s1 := okCtx x.epid (!c.toggle) ping s
    if x1.left != 0 then setXfer x1 s1
    else if x.flag && x.left != 0 then setXfer { x1 with stage := 1 } s1
    else endXfer x1 0 s1
  | _, _ => endXfer x.onward 0 (okCtx x.epid (!c.toggle) ping s)

/-- A class C error: retried in the next microframe, and after three the transfer ends; behind a translator ClearTTBuffer
goes to the hub first (R110, R115). -/
def xferError (x : Xfer) (c : Ctx) (s : State) : State :=
  let s1 := modCtx x.epid (fun c => { c with errors := c.errors + 1, errCount := sat 3 (x.errs + 1), nakRun := 0, split := 0 }) s
  if x.errs + 1 < 3 then setXfer { x with errs := x.errs + 1 } s1
  else endXfer x 3 (clearTT x.epid c s1)

/-- A NAK: another attempt in a later microframe, or NAK_TIMEOUT once NAKs have lasted beyond the limit (R113). -/
def xferNak (x : Xfer) (s : State) : State :=
  let s1 := modCtx x.epid (fun c => { c with nakRun := sat 0xFFFF (c.nakRun + 1) }) s
  match x.nakAt with
  | none => setXfer { x with nakAt := some s.dev.monoNs } s1
  | some t =>
    if x.nakMs != 0 && decide (t + x.nakMs * 1000000 < s.dev.monoNs) then endXfer x 4 s1 else setXfer x s1

/-- A result on the transfer in progress (R110, class C). An ACK to a PING lets the OUT follow. -/
def xferResultOf (x : Xfer) (c : Ctx) (r : Txn) (s : State) : State :=
  match r with
  | .data ok bs =>
    if !x.inNow || decide (c.maxPacket < bs.length) then xferError x c s
    else if !ok then setXfer x.onward (modCtx x.epid (fun c => { c with errCount := 0, nakRun := 0 }) s)
    else if x.kind == .control && x.stage == 2 then endControl x.onward (okCtx x.epid false c.ping s)
    else xferData x c bs s
  | .ack =>
    if x.inNow then xferError x c s
    else if x.pings c then setXfer x.onward (modCtx x.epid (fun c => { c with ping := false, errCount := 0, nakRun := 0 }) s)
    else xferSent x c false s
  | .nyet => if x.inNow || c.speed != 2 || x.pings c then xferError x c s else xferSent x c true s
  | .nak => xferNak x s
  | .stall => endXfer x 2 (modCtx x.epid (fun c => { c with nakRun := 0, halted := c.halted || decide (c.type ≠ 0) }) s)
  | .error => xferError x c s

/-- A result reaches the TE for one of its entries. -/
def ctxResult (e : Nat) (r : Txn) (retries : Bool) (s : State) : State :=
  match s.ctx e with
  | none => s
  | some c =>
    if c.bound && decide (c.cls ≤ 2) then boundResult e c r retries s
    else match s.xferAt e with
      | some x => if x.started then xferResultOf x c r s else s
      | none => s

/-! ### Splits (R114, R115) -/

/-- A start-split's result: an ACK starts the complete-splits; a NAK is an error of a periodic split (R114 step 3), and a class
C transaction is tried again (R110). -/
def startSplit (e : Nat) (r : Txn) (s : State) : State :=
  if r == .ack then modCtx e (fun c => { c with split := 1 }) s
  else
    let again := r == .nak && (match s.ctx e with | some c => !c.periodic | none => false)
    ctxResult e (if again then .nak else .error) false (modCtx e (fun c => { c with split := 0 }) s)

/-- A complete-split's result: NYET goes on, at Y + 4 of a periodic split it is an error. -/
def completeSplit (e off : Nat) (r : Txn) (s : State) : State :=
  match s.ctx e with
  | none => s
  | some c =>
    if r == .nyet && (c.cls == 2 || !c.bound || decide (off < 4)) then s
    else ctxResult e (if r == .nyet then .error else r) false (setCtx e { c with split := 0 } s)

/-- An entry that the PLU did not start: periodic work, a retry too, counts in skipped (R109). -/
def notRun (e : Nat) (s : State) : State :=
  modCtx e (fun c => if c.periodic then { c with skipped := c.skipped + 1 } else c) s

/-- A result of the microframe before the last boundary, as the source of a handed-off migration finishes it (R139 step 6): its items do
not wait for the marker, and carry that microframe's stamp (R36, R116). -/
def lateResult (e : Nat) (f : State → State) (s : State) : State :=
  let mark (b : Bool) (t : State) : State := modTime (fun x => { x with late := b }) (modStok (fun k =>
    { k with migs := k.migs.map fun m => if m.group == epGroup e && m.handed then { m with late := b } else m }) t)
  mark false (f (mark true s))

/-- A transfer stands between two transactions, an EP_CONTROL between two stages: a point where it can be aborted (R270).
Transfers that wait behind another have not begun. -/
def State.xferFree (s : State) (x : Xfer) : Bool :=
  match s.xferAt x.epid, s.ctx x.epid with
  | some y, some c =>
    !(y.host == x.host && y.tag == x.tag) ||
      (!x.sent && c.split != 1 && (x.kind != .control || x.stage != 1 || x.moved == 0))
  | _, _ => true

/-- Ends a running transfer between two transactions. The spec states no usb_result for it. -/
def abortXfer (x : Xfer) (s : State) : State :=
  let s1 := { s with xfers := s.xfers.filter fun y => !(y.host == x.host && y.tag == x.tag) }
  endBare x.epid (useFree (abortOp x.host x.tag (xferResult x (Config.freeNat s.free % 256)) s1))

/-- A result of a context's transaction: afterwards an OP_ABORT that waits for the transfer's abort point may win (R264). -/
def afterTxn (e : Nat) (f : State → State) (s : State) : State :=
  let t := endBare e (f (onWire e false s))
  match t.xferAt e with
  | some x => if t.abortAsked x.host x.tag && t.xferFree x then abortXfer x t else t
  | none => t

/-- TRANSACTION_RESULT. -/
def txnResult (r : TxnRes) (s : State) : State :=
  match r with
  | .ctx e t => afterTxn e (ctxResult e t true) s
  | .startSplit e t => afterTxn e (startSplit e t) s
  | .late e none t => afterTxn e (lateResult e (ctxResult e t true)) s
  | .late e (some off) t => afterTxn e (lateResult e (completeSplit e off t)) s
  | .completeSplit e off t => afterTxn e (completeSplit e off t) s
  | .notRun e => afterTxn e (notRun e) s
  | .enum p l t => enumResult p l t s
  | .verify p a ans changes => verified p a ans changes s
  | .portStatus p a h res => portStatusRead p a h res s
  | .devStatus p a waking => devStatusRead p a waking s

end Sys2Proof.Machine
end

