-- ==== Sys2Proof/Machine/EpCmds.lean ====
section
/-!
DEFINITION. Commands of the endpoint, queue and placement groups (R277 to R283, R286, R129, R130), re-planning (R126, R128,
R131), tests, evacuations, rotation and calibration up to the end of a test (R166 to R171, R295).
-/
namespace Sys2Proof.Machine

/-! ### EPIDs as parameters (R59) -/

def epOf (ps : List Byte) : Nat := field ps 0 4
def epPresent (ps : List Byte) (s : State) : Bool := decide (131072 ≤ epOf ps) || s.hasPort (epPort (epOf ps))
def epOwners (ps : List Byte) (s : State) : List Nat := [(s.port (epPort (epOf ps))).owner]
/-- An EPID that names no allocated context is invalid. -/
def State.badEp (s : State) (ps : List Byte) : Bool := decide (131072 ≤ epOf ps) || (s.ctx (epOf ps)).isNone

def queueOwner (s : State) (q : Nat) : Nat := if 8 ≤ q ∧ q < 64 then hOwner (s.queue q).owner else 0

/-- A queue that a CAN receive object feeds (R175). -/
def State.canNames (s : State) (q : Nat) : Bool := s.cans.any fun e => e.2.objs.any fun o => o.2.dir == 1 && o.2.queue == q
/-- A context bound to a queue. -/
def State.boundTo' (s : State) (q : Nat) : Bool := s.ctxs.any fun e => e.2.bound && e.2.queue == q

/-! ### EP_LIST, EP_STATE -/

def epListCmd : CmdSpec :=
  { len := 8, present := epPresent,
    bad := fun c s => decide (131072 ≤ epOf c.params) || decide (s.nIndices ≤ epOf c.params % 4096) || !zeros c.params [(4, 4)],
    run := fun c s =>
      let l := (s.portCtxs (epPort (epOf c.params))).filter fun e => decide (epOf c.params ≤ e.1)
      (s, .final stOk (u8 (l.take 29).length ++ u8 (b2n (decide (29 < l.length))) ++ [0, 0] ++
        ((l.take 29).flatMap fun e => s.listEntry e.1 e.2))) }

def epStateCmd : CmdSpec :=
  { len := 4, present := epPresent, bad := fun c s => s.badEp c.params,
    run := fun c s => match s.ctx (epOf c.params) with
      | some x => (s, .final stOk (s.image (epOf c.params) x))
      | none => (s, .final stBadParam []) }

/-! ### EP_BIND, EP_UNBIND (R278, R119) -/

/-- interval_exp that an EP_BIND asks for. -/
def Ctx.askedExp (c : Ctx) (b : Nat) : Nat := if c.type = 2 then c.exp else if b = 0xFF then c.derived else b

/-- The rules of R93, R98, R99, R173 and R278 on a context that is not isochronous. -/
def bindBad (s : State) (e : Nat) (c : Ctx) (q cls b phase : Nat) : Bool :=
  let r := s.queue q
  let exp := c.askedExp b
  let others := s.ctxs.any fun x => x.1 != e &&
    ((x.2.bound && x.2.queue == q) || (match x.2.wait with | some w => w.queue == q | none => false))
  c.type == 0 || c.devOwned || !c.active || decide (2 < cls) || (c.type == 2 && (cls != 2 || !c.dirIn)) ||
    (c.type == 3 && cls == 2) || decide (q < 8 ∨ 63 < q) || r.st == .disabled || r.out == c.dirIn ||
    (if c.type = 2 then b != 0xFF || phase != 0xFFFF
     else decide (c.derived < exp) || decide (exp < (if c.speed = 2 then 0 else 3)) ||
       (phase != 0xFFFF && !c.phaseOk exp phase)) ||
    (r.out && others)

/-- What EP_BIND does once its parameters are valid. -/
def runBind (cmd : Cmd) (s : State) : State × Ans :=
  let e := epOf cmd.params
  let f := field cmd.params
  let q := f 4 1
  let cls := f 5 1
  let phase := f 8 2
  match s.ctx e with
  | none => (s, .final stBadParam [])
  | some c =>
    let exp := c.askedExp (f 6 1)
    let shown (p : Nat) : List Byte := if c.type = 2 then bindResult 0xFFFF 0xFF 0 0 else bindResult p exp 0 0
    if c.type = 1 then (s, .final stUnsupp [])
    else if c.bound then
      if c.queue = q ∧ c.cls = cls ∧ c.exp = exp ∧ (phase = 0xFFFF ∨ phase = c.phase) then (s, .final stAlready (shown c.phase))
      else (s, .final stLocked [])
    else if c.wait.isSome then (s, .final stLocked [])
    else if cls = 2 then
      if s.overReserve e c q 2 exp 0 then (s, .final stBadParam [])
      else (quiet [e] (commitBind e q 2 exp 0 s), .final stOk (shown 0))
    else match if s.ready then s.admission e c q cls exp phase else .error { status := stCapacity, reason := 3, residue := 0 } with
      | .ok p =>
        if s.overReserve e c q cls exp p then (s, .final stBadParam [])
        else (quiet [e] (issueOrders 64 (commitBind e q cls exp p s)), .final stOk (shown p))
      | .error r =>
        if bitOf (f 7 1) 0 then
          let w : WaitBind := { queue := q, cls := cls, exp := exp, phase := phase, host := cmd.host, tag := cmd.tag }
          (quiet [e] (setCtx e { c with wait := some w, refuse := r.reason } s), .running stAccepted (keyCtx e) [e])
        else (quiet [e] (setCtx e { c with refuse := r.reason } s), .final r.status (bindResult phase exp r.reason r.residue))

def epBindCmd : CmdSpec :=
  { len := 12, present := epPresent, owners := fun ps s => epOwners ps s ++ [queueOwner s (byteAt ps 4)],
    bad := fun c s => s.badEp c.params || decide (1 < byteAt c.params 7) || !zeros c.params [(10, 2)] ||
      (match s.ctx (epOf c.params) with
       | some x => x.type != 1 && bindBad s (epOf c.params) x (byteAt c.params 4) (byteAt c.params 5) (byteAt c.params 6) (field c.params 8 2)
       | none => true),
    run := runBind }

/-- A hub's status change context belongs to the HK32, so EP_UNBIND does not release it (R93). -/
def epUnbindCmd : CmdSpec :=
  { len := 4, present := epPresent, owners := epOwners,
    bad := fun c s => s.badEp c.params ||
      (match s.ctx (epOf c.params) with | some x => x.devOwned && x.bound | none => true),
    run := fun c s =>
      let e := epOf c.params
      match s.ctx e with
      | none => (s, .final stBadParam [])
      | some x =>
        if x.wait.isSome || x.bound then
          (quiet [e] (unbind e (if x.bound then endXfers (fun y => y.epid == e) 6 s else s)), .final stOk [])
        else (s, .final stAlready []) }

/-! ### Transfers (R279, R280) -/

/-- The limits of R269 on a new transfer: eight on a context, one context's at a time on a queue (`q`, 0 for none), 4,096 in all. -/
def State.xferRoom (s : State) (e q : Nat) : Option Nat :=
  if 8 ≤ (s.xfers.filter fun x => x.epid == e).length then some stLocked
  else if q != 0 && s.xfers.any (fun x => x.queue == q && x.epid != e) then some stLocked
  else if 4096 ≤ s.xfers.length then some stCapacity else none

def keyXfer (e : Nat) : Nat := 0x900000 + e

/-- Enters a transfer behind those of its context. -/
def startXfer (c : Cmd) (kind : XferKind) (setup out : List Byte) (left queue : Nat) (flag : Bool) (nakMs : Nat) (s : State) :
    State × Ans :=
  let e := epOf c.params
  match s.xferRoom e queue with
  | some st => (s, .final st [])
  | none =>
    let x : Xfer := { handle := 65536 * hOwner c.host + c.tag.toNat, epid := e, kind := kind, host := c.host, tag := c.tag, setup := setup,
                      out := out, got := [], left := left, moved := 0, queue := queue, stage := 0, flag := flag, nakMs := nakMs,
                      nakAt := none, gaps := 0, errs := 0, started := false }
    if x.bare && s.xfers.all (fun y => y.epid != e) then (s, .event stOk (xferResult x 0))
    else ({ s with xfers := s.xfers ++ [x] }, .running stAccepted (keyXfer e) [e])

/-- A queue that may take a command's IN data: an enabled IN queue of the sender. -/
def State.inQueueOf (s : State) (h : HostId) (q : Nat) : Bool :=
  decide (8 ≤ q ∧ q < 64) && (s.queue q).st != .disabled && !(s.queue q).out && (s.queue q).owner == h

def roundUp4 (n : Nat) : Nat := (n + 3) / 4 * 4

def epControlCmd : CmdSpec :=
  { len := 16, present := epPresent, owners := epOwners,
    bad := fun c s =>
      let ps := c.params
      let rt := byteAt ps 4
      let n := field ps 10 2
      let q := byteAt ps 14
      s.badEp ps || byteAt ps 15 != 0 || (rt == 0 && byteAt ps 5 == 5) ||
      (match s.ctx (epOf ps) with
       | some x => x.type != 0 || (rt / 32 % 4 == 1 && ((s.port (epPort (epOf ps))).tree.any fun i => i.addr == x.addr && i.hub))
       | none => true) ||
      (if bitOf rt 7 then ps.length != 16 || decide ((if q = 0 then 220 else 4096) < n)
       else decide (224 < n) || ps.length != 16 + roundUp4 n) ||
      (q != 0 && !(s.inQueueOf c.host q && !s.boundTo' q && !s.canNames q)),
    run := fun c s =>
      let ps := c.params
      let n := field ps 10 2
      let nak := field ps 12 2
      let out := if bitOf (byteAt ps 4) 7 then [] else (ps.drop 16).take n
      startXfer c .control ((ps.drop 4).take 8) out n (byteAt ps 14) false
        (if nak = 0 then (s.port (epPort (epOf ps))).policy.tCtrl else nak) s }

/-- A bulk context that EP_WRITE or EP_READ may use. -/
def State.bulkFree (s : State) (ps : List Byte) (dirIn : Bool) : Bool :=
  match s.ctx (epOf ps) with
  | some x => x.type == 2 && x.active && !x.bound && x.dirIn == dirIn
  | none => false

def epWriteCmd : CmdSpec :=
  { len := 12, present := epPresent, owners := epOwners,
    bad := fun c s =>
      let ps := c.params
      let n := field ps 4 4
      let q := byteAt ps 8
      let r := s.queue q
      s.badEp ps || decide (1 < byteAt ps 9) || !s.bulkFree ps false ||
      (if q = 0 then decide (228 < n) || ps.length != 12 + roundUp4 n
       else decide (16777215 < n) || !(decide (8 ≤ q ∧ q < 64) && r.st != .disabled && r.isL && r.out && r.owner == c.host) || s.boundTo' q),
    run := fun c s =>
      let ps := c.params
      let n := field ps 4 4
      let q := byteAt ps 8
      startXfer c .write [] (if q = 0 then (ps.drop 12).take n else []) n q (bitOf (byteAt ps 9) 0) (field ps 10 2) s }

def epReadCmd : CmdSpec :=
  { len := 12, present := epPresent, owners := epOwners,
    bad := fun c s =>
      let ps := c.params
      let n := field ps 4 4
      let q := byteAt ps 8
      s.badEp ps || decide (1 < byteAt ps 9) || !s.bulkFree ps true ||
      (if q = 0 then decide (220 < n) else decide (16777215 < n) || !s.inQueueOf c.host q),
    run := fun c s =>
      let ps := c.params
      startXfer c .read [] [] (field ps 4 4) (byteAt ps 8) (bitOf (byteAt ps 9) 0) (field ps 10 2) s }

/-! ### Queues (R281, R282, R200, R210) -/

/-- MiB of the spill region for Q8 to Q63: the Peat store less 72 MiB, less 32 MiB for Q6 and Q7 (R176, R202). -/
def State.spillRegion (s : State) : Nat := if s.peatInUse then s.peat.mib - 72 - 32 else 0
def State.spillTaken (s : State) (but : Nat) : Nat :=
  sumBy (fun e => if 8 ≤ e.1 ∧ e.1 ≠ but then e.2.spillMib else 0) s.queues

/-- A disable of a queue ends the transfers and waiting binds that name it (R269, R282). -/
def endQueueUsers (q : Nat) (s : State) : State :=
  let s1 := endXfers (fun x => x.queue == q) 6 s
  foldS (s1.ctxs.filter fun e => match e.2.wait with | some w => w.queue == q | none => false)
    (fun e t => quiet [e.1] (endWait e.1 t)) s1

def qConfigCmd : CmdSpec :=
  { len := 20, owners := fun ps s => [queueOwner s (byteAt ps 0)],
    bad := fun c s =>
      let f := field c.params
      let n := f 0 1
      let fl := f 1 1
      let src := f 16 2
      decide (n < 8 ∨ 63 < n) || decide (32 ≤ fl) || !zeros c.params [(2, 2), (19, 1)] ||
      decide (f 4 4 < 16 ∨ 16777215 < f 4 4) || (f 12 4 != 0 && (bitOf fl 1 || decide (f 12 4 < 16 ∨ f 4 4 < f 12 4))) ||
      (src != 0 && (bitOf fl 2 || src == 0xFFFF || decide (f 18 1 < 8 ∨ 63 < f 18 1))) ||
      (bitOf fl 1 && s.canNames n) || (f 8 4 != 0 && !s.peatInUse),
    run := fun c s =>
      let f := field c.params
      let n := f 0 1
      let fl := f 1 1
      if claimLost c (queueOwner s n) then (s, .final stNotOwner [])
      else if (s.queue n).st != .disabled && (s.boundTo' n || s.canNames n) then (s, .final stLocked [])
      else if s.spillRegion < s.spillTaken n + f 8 4 then (s, .final stCapacity [])
      else
        let r : Queue := { st := if bitOf fl 0 then .flow else .disabled, isL := bitOf fl 1, out := bitOf fl 2,
                           owner := hostOf (b2n (bitOf fl 3)), auto := bitOf fl 4, depth := f 4 4, spillMib := f 8 4, flight := f 12 4,
                           srcDev := BitVec.ofNat 16 (f 16 2), srcQ := f 18 1, reserve := b2n (bitOf fl 1) }
        let s1 := setQueue n r (endQueueUsers n s)
        (if bitOf fl 0 && r.srcDev != 0 then sendCredit n s1 else s1, .final stOk (u32 (f 4 4) ++ u32 (f 8 4))) }

def qStatusCmd : CmdSpec :=
  { len := 4, bad := fun c _ => decide (63 < byteAt c.params 0) || !zeros c.params [(1, 3)],
    run := fun c s =>
      let q := byteAt c.params 0
      let r := s.queue q
      (s, .final stOk (u32 (s.queStatus q).toNat ++ u32 r.count ++ u32 r.drops.toNat ++ u32 (s.spillKib r) ++
        u32 (if r.isL then r.reserve else 0) ++ u32 r.flagged ++ u64 (match r.items with | i :: _ => i.stamp.toNat | [] => 0))) }

/-- Q_FLUSH (R282). In DOZE it discards what a shut middle holds too, as Q_REPLAY's DISCARD does: R183 is read of items that move, not of
items that are discarded, a DESIGN CHOICE (notes/assumptions/177.md). -/
def qFlushCmd : CmdSpec :=
  { len := 4, owners := fun ps s => [queueOwner s (byteAt ps 0)],
    bad := fun c _ => decide (byteAt c.params 0 < 8 ∨ 63 < byteAt c.params 0) || !zeros c.params [(1, 3)],
    run := fun c s =>
      let q := byteAt c.params 0
      let r := s.queue q
      let st := if r.st = .held ∨ r.st = .replay then QState.flow else r.st
      (putQueue q { r with head := [], mid := [], tail := [], st := st, pair := { r.pair with sent := 0 } } none s,
        .final stOk (u32 r.count)) }

/-- Q_REPLAY's owner: the fixed queues Q4 to Q7 are their host's own (R282). -/
def replayOwner (s : State) (q : Nat) : Nat := if 4 ≤ q ∧ q < 64 then hOwner (s.queue q).owner else 0

/-- The flagged items give way to one GAP item of cause 6 (R208). -/
def discardFlagged (q : Nat) (s : State) : State :=
  let r := s.queue q
  let n := sumBy (fun i => if i.isReplay && !i.isGap then 1 else 0) r.items
  if r.flagged = 0 then putQueue q { r with st := .flow } none s
  else
    putQueue q { (r.ofPlaced (gapOne Item.isReplay 6 none r.placed)).settle (s.spills r) with st := .flow, drops := satAdd r.drops n } (some 6)
      (setSqc (aQueStatus q) [10] s)

def qReplayCmd : CmdSpec :=
  { len := 8, owners := fun ps s => [replayOwner s (byteAt ps 0)],
    bad := fun c s =>
      let q := byteAt c.params 0
      decide (q < 4 ∨ 63 < q) || decide (1 < byteAt c.params 1) || !zeros c.params [(2, 2)] || decide (1000000 < field c.params 4 4) ||
      (s.queue q).st == .disabled,
    run := fun c s =>
      let q := byteAt c.params 0
      let r := s.queue q
      match r.st with
      | .held =>
        let n := u32 r.flagged
        if byteAt c.params 1 = 1 then (discardFlagged q s, .final stOk n)
        else
          (replayCheck q (pump q (setQueue q { r with st := .replay, rate := field c.params 4 4, rateAt := s.dev.monoNs, replayed := 0 } s)),
            .final stOk n)
      | .flight => (s, .final stUnreach [])
      | _ => (s, .final stAlready []) }

/-! ### Placement (R129 to R131, R283, R286) -/

/-- A group code names a port's group; the HK16L has two groups a port (R81). -/
def State.badGroup (s : State) (g : Nat) : Bool := decide (255 < g) || decide (s.nIndices ≤ 512 * (g % 8))

def hintPresent (ps : List Byte) (s : State) : Bool :=
  let a := field ps 4 4
  let b := field ps 8 4
  let grp (g : Nat) : Bool := decide (255 < g) || s.hasPort (g / 8)
  match byteAt ps 0 with
  | 1 => grp a && s.hasEngine b
  | 2 | 3 => grp a && grp b
  | 4 => decide (131072 ≤ a) || s.hasPort (epPort a)
  | 6 => s.hasTrunk b
  | _ => true

def hintBad (ps : List Byte) (s : State) : Bool :=
  let a := field ps 4 4
  let b := field ps 8 4
  decide (byteAt ps 0 = 0 ∨ 6 < byteAt ps 0) || decide (15 < byteAt ps 1) || !zeros ps [(2, 2)] ||
  match byteAt ps 0 with
  | 1 => s.badGroup a
  | 2 | 3 => s.badGroup a || s.badGroup b
  | 4 => b != 0 || (match s.ctx a with | some c => c.cls == 0 && c.bound | none => true)
  | 5 => decide (63 < a) || decide (65535 < b)
  | _ => decide (1 < a)

def placeHintCmd : CmdSpec :=
  { len := 12, present := hintPresent, bad := fun c s => hintBad c.params s,
    run := fun c s =>
      let ps := c.params
      let h : Aff := { kind := byteAt ps 0, weight := byteAt ps 1, opA := BitVec.ofNat 32 (field ps 4 4), opB := BitVec.ofNat 32 (field ps 8 4) }
      let others := s.stok.affs.filter fun x => !(x.kind == h.kind && x.opA == h.opA && x.opB == h.opB)
      let count (t : State) : List Byte := u16 t.stok.affs.length
      if h.weight = 0 then
        let t := modStok (fun k => { k with affs := others }) s
        (if h.kind = 6 then followRoutes t else t, .final stOk (count t))
      else if 1024 ≤ others.length then (s, .final stCapacity (count s))
      else
        let t := modStok (fun k => { k with affs := others ++ [h] }) s
        let u := if h.kind = 6 then followRoutes t else if h.kind = 4 ∧ t.kept2048.contains h.opA.toNat then fetchCtx h.opA.toNat t else t
        (u, .final stOk (count t)) }

/-- A group stays on the engine that a new pin names: an order away is withdrawn and a migration away abandoned, a DESIGN CHOICE
(notes/assumptions/187.md). -/
def stayPut (g : Nat) (s : State) : State :=
  abandonMig g (modStok (fun k => { k with orders := k.orders.filter fun o => o.group != g }) s)

def placePinCmd : CmdSpec :=
  { len := 4,
    present := fun ps s => s.hasPort (byteAt ps 0 / 8) && (byteAt ps 1 == 0xFF || s.hasEngine (byteAt ps 1)),
    bad := fun c s => s.badGroup (byteAt c.params 0) || decide (1 < byteAt c.params 2) || !zeros c.params [(3, 1)],
    run := fun c s =>
      let g := byteAt c.params 0
      let e := byteAt c.params 1
      let allow := bitOf (byteAt c.params 2) 0
      let pins (t : State) : List Byte := u8 t.stok.pins.length
      let pin : Pin := { group := g, eng := e, allow := allow }
      if s.busyKey (keyUnit (0x1000 + g)) then (s, .final stLocked [])
      else if e = 0xFF then
        match s.pinOf g with
        | none => (s, .final stAlready (pins s))
        | some _ =>
          let t := modStok (fun k => { k with pins := k.pins.filter fun p => p.group != g }) s
          (t, .final stOk (pins t))
      else if s.pinOf g == some pin then (s, .final stAlready (pins s))
      else if (s.pinOf g).isNone && decide (64 ≤ s.stok.pins.length) then (s, .final stCapacity (pins s))
      else if !s.fits g e || !s.spareRule g e then (s, .final stCapacity (pins s))
      else if (s.engineOf g).isNone || s.engineOf g == some e || !s.takes e then
        let t := addPin pin (if s.takes e then stayPut g s else s)
        (t, .final stOk (pins t))
      else
        (order 6 g e (modStok (fun k => { k with orders := k.orders.filter fun o => o.group != g }) s),
          .running stAccepted (keyUnit (0x1000 + g)) [g, e, b2n allow]) }

/-- Whether an affinity is honoured now (R129). -/
def State.honoured (s : State) (a : Aff) : Bool :=
  let x := a.opA.toNat
  let y := a.opB.toNat
  match a.kind with
  | 1 => s.engineOf x == some y
  | 2 => (s.engineOf x).isSome && s.engineOf x == s.engineOf y
  | 3 => (s.engineOf x).isSome && (s.engineOf y).isSome && s.engineOf x != s.engineOf y
  | 4 => s.kept2048.contains x && (match s.ctx x with | some c => s.isResident x c | none => false)
  | 5 => (s.queue x).items.all fun i => i.banks.all (bitOf y)
  | _ => match (s.host (hostOf x)).bound with
    | some (.trunk _ o) => s.route o 2 == some y
    | _ => false

def State.reportEngine (s : State) (e : Nat) : List Byte :=
  u8 e ++ u8 (s.engState e) ++ u8 (s.engine e).clock ++ u8 (s.teGroups e).length ++ u16 (peak (s.teA e)) ++ u16 (peak (s.teAll e)) ++
  List.replicate 8 0

def placeReportCmd : CmdSpec :=
  { len := 4, bad := fun c _ => decide (2 < byteAt c.params 0) || !zeros c.params [(2, 2)],
    run := fun c s =>
      let from_ := byteAt c.params 1
      let reply (l : List (List Byte)) : Ans := .final stOk (u8 l.length ++ [0, 0, 0] ++ l.flatten)
      match byteAt c.params 0 with
      | 0 => (s, reply ((((upTo 12).drop from_).take 14).map s.reportEngine))
      | 1 => (s, reply ((((upTo s.nPorts).drop from_).take 29).map fun p =>
          (upTo 8).flatMap fun k => u8 ((s.engineOf (8 * p + k)).getD 0xFF)))
      | _ => (s, reply ((((s.stok.affs.filter s.honoured).drop from_).take 19).map fun a =>
          u8 a.kind ++ u8 a.weight ++ [0, 0] ++ u32 a.opA.toNat ++ u32 a.opB.toNat)) }

/-! ### Re-planning (R126, R128) -/

/-- A group may be moved to an engine for an affinity: no pin, the spare rule, room, and no Ledger step that holds groups
together (R129). -/
def State.mayPlace (s : State) (g e : Nat) : Bool :=
  (s.pinOf g).isNone && s.takes e && s.fits g e && s.spareRule g e && (!s.ledger.has 1 || (s.hasA g && !(s.engine e).gated))

/-- A move for an affinity leaves those of higher or equal weight honoured that are (R129). -/
def State.keepsAffs (s : State) (a : Aff) (g e : Nat) : Bool :=
  let t := modStok (fun k => { k with place := tset k.place g e }) s
  (s.stok.affs.filter fun b => decide (b.kind ≤ 3) && b != a && decide (a.weight ≤ b.weight) && s.honoured b).all t.honoured

/-- The move that an affinity that is not honoured asks for. -/
def State.affMove (s : State) (a : Aff) : Option (Nat × Nat) :=
  let x := a.opA.toNat
  let y := a.opB.toNat
  let may (g e : Nat) : Bool := s.mayPlace g e && s.keepsAffs a g e
  if s.honoured a then none
  else match a.kind with
  | 1 => if (s.engineOf x).isSome && may x y then some (x, y) else none
  | 2 => match s.engineOf x, s.engineOf y with
    | some e, some f => if may y e then some (y, e) else if may x f then some (x, f) else none
    | _, _ => none
  | 3 => match s.engineOf x, s.engineOf y with
    | some e, some _ => ((s.engineList.filter fun k => k != e && may y k).head?).map fun k => (y, k)
    | _, _ => none
  | _ => none

/-- A pinned group that is not on its pin's engine, which can take it again (R131). -/
def State.pinMove (s : State) (p : Pin) : Option (Nat × Nat) :=
  if (s.engineOf p.group).isSome && s.engineOf p.group != some p.eng && s.takes p.eng && s.fits p.group p.eng &&
      s.spareRule p.group p.eng then some (p.group, p.eng) else none

/-- While class A engines number more than available − 2, class A groups of the one with fewest move to the others
(R128, R134); a pin holds its group (R130). -/
def State.spareGroups (s : State) : List Nat :=
  if s.aEngines.length + 2 ≤ s.engineList.length then []
  else match leastBy (fun e => ((s.teGroups e).filter s.hasA).length) s.aEngines with
  | none => []
  | some e => (s.teGroups e).filter fun g => s.hasA g && (s.pinOf g).isNone
def State.spareMove (s : State) (g : Nat) : Option (Nat × Nat) :=
  match s.engineOf g with
  | none => none
  | some e => ((s.aEngines.filter fun x => x != e && s.takes x && s.fits g x).head?).map fun x => (g, x)

/-- A consolidated group goes back once the Ledger has released step 1 (R128). -/
def State.undoMove (s : State) (x : Nat × Nat) : Option (Nat × Nat) :=
  if !s.ledger.has 1 && (s.engineOf x.1).isSome && s.engineOf x.1 != some x.2 && s.takes x.2 && s.fits x.1 x.2 &&
      (s.pinOf x.1).isNone && s.spareRule x.1 x.2 then some x else none

/-- Groups whose admission or pin waits for a move that is not under way (R136, R141). -/
def State.owedMoves (s : State) : List (Nat × Nat) :=
  let idle (g : Nat) : Bool := s.stok.migs.all (fun m => m.group != g) && s.stok.orders.all (fun o => o.group != g)
  (s.stok.place.filterMap fun x =>
    if (s.groupCtxs x.1).any (fun e => e.2.moving) && idle x.1 then (s.packing x.1).map fun t => (x.1, t) else none) ++
  (s.ops.filterMap fun o =>
    if o.started && o.opcode == 0x0403#16 && idle (o.args.getD 0 0) then some (o.args.getD 0 0, o.args.getD 1 0) else none)

/-- A PLACE_PIN whose group holds no engine any more needs no migration: the pin is set. -/
def settlePins (s : State) : State :=
  foldS (s.ops.filter fun o => o.started && o.opcode == 0x0403#16) (fun o t =>
    let g := o.args.getD 0 0
    if (t.engineOf g).isNone || t.engineOf g == some (o.args.getD 1 0) then
      let t1 := addPin { group := g, eng := o.args.getD 1 0, allow := o.args.getD 2 1 != 0 } t
      finishOp o.host o.tag stOk (u8 t1.stok.pins.length) t1
    else t) s

/-- A context that waited for a move that its group no longer needs is due. -/
def settleMoves (s : State) : State :=
  foldS s.stok.place (fun x t => if t.packing x.1 == some x.2 then settle x.1 t else t) s

/-- One move of a re-plan, up to its limit of orders: it is judged with the orders before it given. -/
def planMove (limit prio : Nat) (acc : State × Nat) (m : Option (Nat × Nat)) : State × Nat :=
  match m with
  | some (g, d) => if acc.2 < limit ∧ acc.1.destOf g = acc.1.engineOf g then (addOrder prio g d acc.1, acc.2 + 1) else acc
  | none => acc
def planPin (limit prio : Nat) (acc : State × Nat) (p : Pin) : State × Nat := planMove limit prio acc (acc.1.pinMove p)
def planSpare (limit prio : Nat) (acc : State × Nat) (g : Nat) : State × Nat := planMove limit prio acc (acc.1.spareMove g)
def planUndo (limit prio : Nat) (acc : State × Nat) (x : Nat × Nat) : State × Nat := planMove limit prio acc (acc.1.undoMove x)
def planAff (limit prio : Nat) (acc : State × Nat) (a : Aff) : State × Nat := planMove limit prio acc (acc.1.affMove a)
def planOwed (limit : Nat) (acc : State × Nat) (m : Nat × Nat) : State × Nat := planMove limit 5 acc (some m)

/-- The groups of an evacuation that are not on their way yet. -/
def planEvac (limit : Nat) (acc : State × Nat) : State × Nat :=
  match acc.1.test with
  | some t => (match t.unit with | .engine e => if t.stage = 1 then evacOrders limit e acc else acc | _ => acc)
  | none => acc
/-- The moves that are owed: those of an evacuation, of admissions and of pins that wait (priorities 4 and 5). -/
def planWaiting (limit : Nat) (acc : State × Nat) : State × Nat :=
  let a := planEvac limit acc
  a.1.owedMoves.foldl (planOwed limit) a
/-- The moves of the re-plan itself: pins, the spare rule, a released consolidation, and affinities by falling weight (R128). -/
def planOwn (limit prio : Nat) (acc : State × Nat) : State × Nat :=
  let c := acc.1.stok.pins.foldl (planPin limit prio) acc
  let d := c.1.spareGroups.foldl (planSpare limit prio) c
  let e := d.1.stok.moved.foldl (planUndo limit prio) d
  (sortBy (fun (a b : Aff) => decide (b.weight < a.weight)) e.1.stok.affs).foldl (planAff limit prio) e

/-- Consolidated groups that are back, or hold no engine, need no move. -/
def settleMoved (s : State) : State :=
  modStok (fun k => { k with moved := k.moved.filter fun x => (s.engineOf x.1).isSome && s.engineOf x.1 != some x.2 }) s

/-- A re-plan (R126): waiting admissions, deferred groups, the groups of an evacuation, moves that are owed, pins, the spare
rule, a released consolidation, and affinities. The moves are planned in the order of their priorities, and the orders are issued at the
end, highest first. The periodic one issues at most 8 orders (R128). It starts nothing before
Mboter reports ready (R32). -/
def replan (why : Replan) (s : State) : State :=
  if !s.ready then s
  else
    let prio := match why with
      | .fault => 1 | .ledger => 2 | .feed => 3 | .evacuation => 4 | .admission => 5 | .hint => 6 | .periodic => 7
    let limit := if prio = 7 then 8 else 4096
    let s1 := replaceUnplaced { s with ctrl := { s.ctrl with rebuild := false } }
    let s2 := foldS ((s1.ctxs.map fun e => epGroup e.1).eraseDups) claimGroup s1
    let s3 := settleMoved (settleMoves (settlePins s2))
    let waits := s3.ops.filter fun o => o.started && o.opcode == 0x0201#16
    let s4 := foldS waits (fun o t => retryWait (o.args.getD 0 0) t) s3
    let plan := if prio ≤ 3 then planWaiting limit (planOwn limit prio (s4, 0)) else planOwn limit prio (planWaiting limit (s4, 0))
    issueOrders 64 plan.1

/-! ### Tests (R166 to R171, R295) -/

/-- The unit of a type code and index. -/
def unitOf (t i : Nat) : TUnit := if t = 0 then .engine i else if t = 1 then .payload i else .control i
def keyTest (u : TUnit) : Nat := keyUnit (256 * unitType u + unitNo u)
/-- A test that names a unit is asked for or runs. -/
def State.testing (s : State) (u : TUnit) : Bool :=
  (match s.test with | some t => t.unit == u | none => false) || s.testQ.any fun t => t.unit == u

def testRunCmd : CmdSpec :=
  { len := 4, present := fun ps s => decide (2 < byteAt ps 0) || s.unitHere (unitOf (byteAt ps 0) (byteAt ps 1)),
    bad := fun c _ => decide (2 < byteAt c.params 0) || !zeros c.params [(2, 2)],
    run := fun c s =>
      let u := unitOf (byteAt c.params 0) (byteAt c.params 1)
      let t : Test := { unit := u, who := .run c.host c.tag }
      if s.unitIsolated u || s.testing u then (s, .final stLocked [])
      else
        let st := if s.testStarts t then stAccepted else stDeferred
        (askTest t s, .running st (keyTest u) [unitType u, unitNo u]) }

/-- The first port of the calibration in hand begins. -/
def calMark (s : State) : State :=
  match s.cal with
  | some c => (match c.ports with | p :: _ => modPort p (fun r => { r with calibrating := true }) s | [] => s)
  | none => s
/-- A calibration is over: the one that waits next begins. -/
def calAfter (c : Cal) (s : State) : State :=
  match c.after with
  | (ps, who) :: rest => calMark { s with cal := some { ports := ps, who := who, after := rest } }
  | [] => { s with cal := none }

/-- The next port of a calibration begins. -/
def calNext (s : State) : State :=
  match s.cal with
  | none => s
  | some c =>
    if !c.ports.isEmpty then calMark s
    else match c.who with
    | some (h, tag) => finishOp h tag stOk (u32 c.done.toNat ++ u32 c.bad.toNat) (calAfter c s)
    | none => calAfter c s

/-- Starts a calibration. Ports are calibrated one after another (R171): a command's waits behind that of an earlier command; one
that the rotation runs gives way to it, and goes on after it. -/
def calStart (ps : List Nat) (who : Option (HostId × Half)) (s : State) : State :=
  match s.cal with
  | none => calMark { s with cal := some { ports := ps, who := who } }
  | some c =>
    if c.who.isNone then
      calMark { foldS c.ports (fun p t => modPort p (fun r => { r with calibrating := false }) t) s with
        cal := some { ports := ps, who := who, after := (c.ports, none) :: c.after } }
    else
      { s with cal := some { c with after := (c.after.filter fun x => x.2.isSome) ++ (ps, who) :: c.after.filter fun x => x.2.isNone } }

/-- The rotation calibrates a port, after the ones that it has come to before (R171). -/
def rotateCal (p : Nat) (s : State) : State :=
  match s.cal with
  | none => calStart [p] none s
  | some c =>
    if (c.who.isNone && c.ports.contains p) || c.after.any (fun x => x.2.isNone && x.1.contains p) then s
    else { s with cal := some (if c.who.isNone then { c with ports := c.ports ++ [p] } else { c with after := c.after ++ [([p], none)] }) }

/-- CAL_RUN changes the ports that it names: each has one command that changes it (R269). -/
def calRunCmd : CmdSpec :=
  { len := 4, present := maskPresent, bad := fun _ _ => false,
    run := fun c s =>
      match bitsOf 32 (field c.params 0 4) with
      | [] => (s, .event stOk (List.replicate 8 0))
      | ps =>
        if ps.any s.busyPort then (s, .final stLocked [])
        else (calStart ps (some (c.host, c.tag)) s, .running stAccepted keyCal []) }

/-- One entry of TEST_STATUS. -/
def State.testEntry (s : State) (t i : Nat) : List Byte :=
  let atStage (u : TUnit) (k : Nat) : Bool := match s.test with | some x => x.unit == u && x.stage == k | none => false
  let state (u : TUnit) : Nat :=
    if !s.unitHere u then 4 else if s.unitIsolated u then 3 else if atStage u 2 then 2 else if atStage u 1 then 1 else 0
  let (st, res, at_) :=
    match t with
    | 0 => (state (.engine i), (s.engine i).result, (s.engine i).passAt)
    | 1 => (state (.payload i), (s.pbank i).result, (s.pbank i).passAt)
    | 2 => (state (.control i), (s.cbank i).result, (s.cbank i).passAt)
    | _ => (if !s.hasPort i then 4 else if (s.port i).calibrating then 2 else 0, b2n (s.port i).calBad, (s.port i).calAt)
  u8 i ++ u8 st ++ u8 res ++ [0] ++ u32 at_.toNat

def testStatusCmd : CmdSpec :=
  { len := 4, bad := fun c _ => decide (3 < byteAt c.params 0) || !zeros c.params [(2, 2)],
    run := fun c s =>
      let t := byteAt c.params 0
      let n := match t with | 0 => 12 | 1 => 16 | 2 => 8 | _ => 32
      let l := ((upTo n).drop (byteAt c.params 1)).take 29
      (s, .final stOk (u8 l.length ++ [0, 0, 0] ++ l.flatMap (s.testEntry t))) }

/-- The units of the rotation in index order: engines, payload banks, control banks, then the ports' calibrations (R170,
R171). -/
def State.rotUnits (s : State) : List (Option TUnit × Nat) :=
  ((upTo s.nEngines).map fun e => (some (.engine e), 0)) ++ ((upTo 16).map fun b => (some (.payload b), 0)) ++
    ((upTo 8).map fun b => (some (.control b), 0)) ++ (upTo s.nPorts).map fun p => (none, p)

/-- The first payload bank that lost its content and waits for no test yet (R469). -/
def State.lostBank (s : State) : Option TUnit :=
  ((upTo 16).find? fun b => (s.pbank b).lost && !s.unitIsolated (.payload b) && !s.testing (.payload b)).map .payload

/-- The background rotation comes to a unit, or to a port's calibration: the next one in index order, as it comes to no other
(R170, R171). One turn over all of them is one tTEST_ROT: the ticks are spread evenly over it (notes/assumptions/148.md). A lost payload
bank comes first (R469). -/
def rotation (u : Option TUnit) (port : Nat) (s : State) : State :=
  if s.lostBank.isSome then
    (if u == s.lostBank then foldS s.lostBank.toList (fun x t => askTest { unit := x, who := .rotation } t) s else s)
  else if s.rotUnits[s.stok.rotNext]? = some (u, if u.isSome then 0 else port) then
    let s1 := modStok (fun k => { k with rotNext := (k.rotNext + 1) % s.rotUnits.length }) s
    match u with
    | none => rotateCal port s1
    | some x =>
      if s.unitIsolated x || s.testing x then s1
      else match x with
        | .engine e => if s.pinHolds e then stokEvent 0x0404 0 e 1 s1 else askTest { unit := x, who := .rotation } s1
        | _ => askTest { unit := x, who := .rotation } s1
  else s

/-- Ports whose last calibration was at a T_hot more than 20 °C from the present one are calibrated again (R171). -/
def recalibrate (s : State) : State :=
  if !s.ready then s
  else foldS ((upTo s.nPorts).filter fun p =>
      !(s.port p).calibrating && (match (s.port p).calTemp with
        | some t => decide (200 < t - s.ledger.tHot ∨ 200 < s.ledger.tHot - t)
        | none => false)) rotateCal s

/-- The conditions of a deferred evacuation are checked again (R168). -/
def evacRetry (s : State) : State :=
  match s.test with
  | some t => if t.stage = 0 ∧ s.canEvacuate t then startEvac t s else s
  | none => nextTest s

/-- Why the rotation skips a unit that it could not evacuate (R165): 1 pin, 2 load, 3 budget. -/
def State.skipCause (s : State) (t : Test) : Nat :=
  match t.unit with
  | .engine e => if s.pinHolds e then 1 else if s.loadHolds then 3 else 2
  | _ => if s.loadHolds then 3 else 2

/-- The conditions of the request that has waited longest have not held within 60 s (R168, R170); an update waits without limit. A
request that waits behind another ends likewise: they stand in the order in which they were made. The test of a control bank that a
scrub queued (R550) waits without limit too, and what waits behind it with it: a DESIGN CHOICE (notes/assumptions/180.md). -/
def evacTimeout (s : State) : State :=
  let stop (t : Test) (s1 : State) : State :=
    match t.who with
    | .run h tag => finishOp h tag stTimeout [] s1
    | .rotation => stokEvent 0x0404 (unitType t.unit) (unitNo t.unit) (s.skipCause t) s1
    | _ => s1
  let ends (t : Test) : Bool := match t.who with | .run _ _ => true | .rotation => true | _ => false
  match s.test, s.testQ.find? ends with
  | some t, w =>
    if ends t && t.stage == 0 then stop t (endTest s)
    else (match w with
      | some q => stop q { s with testQ := s.testQ.erase q }
      | none => s)
  | none, some q => stop q { s with testQ := s.testQ.erase q }
  | none, none => s

/-- The copy of a bank's content is complete: its payload extents now lie in the other banks (R167). -/
def evacCopied (s : State) : State :=
  match s.test with
  | some t =>
    if t.stage != 1 then s
    else match t.unit with
      | .engine _ => s
      | .control _ => beginTest t s
      | .payload b =>
        let moved (q : Nat) (i : Item) : Item := if i.banks.contains b then s.placeItem q i else i
        let re (q : Nat) (r : Queue) : Queue :=
          { r with head := r.head.map (moved q), mid := r.mid.map (moved q), tail := r.tail.map (moved q) }
        beginTest t (useFree { s with queues := s.queues.map fun e => (e.1, re e.1 e.2) })
  | none => s

end Sys2Proof.Machine
end

