-- ==== Sys2Proof/Machine/Can.lean ====
section
/-!
DEFINITION. CAN channels (R404 to R434, R289, R290): modes and states, message objects and their lock, reception and filters,
sending, reference messages, errors and events.
-/
namespace Sys2Proof.Machine

/-! ### Events -/

/-- A channel event (R433): from EV128 + 2n. -/
def canEvent (ch code a w : Nat) (s : State) : State := post (128 + 2 * ch) (ev8 code ch a w) s
/-- Both counters as CAN_STATE and CAN_WARNING show them. -/
def Can.counters (r : Can) : Nat := sat 255 r.txc * 256 + sat 255 r.rxc
def canStateEvent (ch : Nat) (s : State) : State := canEvent ch 0x0600 (s.can ch).st (s.can ch).counters s

/-- CAN_OBJECTS over the objects changed (R433): from EV129 + 2n. -/
def postObjects (ch : Nat) (s : State) : State :=
  let l := (s.can ch).evObjs
  if l.isEmpty then s
  else
    post (129 + 2 * ch) (ev8 0x0609 ch (sat 255 l.length) (l.foldl (fun m k => if k < m then k else m) 127))
      (modCan ch (fun r => { r with evObjs := [], evOpen := true }) s)

/-- An object changed: CAN_OBJECTS at once, or when its interval of 100 µs ends. -/
def noteObject (ch k : Nat) (s : State) : State :=
  let s1 := modCan ch (fun r => { r with evObjs := if r.evObjs.contains k then r.evObjs else r.evObjs ++ [k] }) s
  if (s1.can ch).evOpen then s1 else postObjects ch s1

/-- The interval of CAN_OBJECTS ends. -/
def objectsEnd (ch : Nat) (s : State) : State :=
  if (s.can ch).evObjs.isEmpty then modCan ch (fun r => { r with evOpen := false }) s else postObjects ch s

/-! ### Stamps (R427) -/

/-- The CN island's copy of TIME `ago` ns before now: it advances with TIME and follows its slews and steps, so a step since then is taken
out again. -/
def State.stampAt (s : State) (ago : Nat) : DWord :=
  let since := s.time.stepLog.filter fun x => decide (s.dev.monoNs < x.1 + ago)
  BitVec.ofInt 64 ((s.time.now.toNat : Int) - ago - since.foldl (fun n x => n + x.2) 0)

/-! ### States (R406, R408) -/

def Can.listens (r : Can) : Bool := r.mode == 3 || r.mode == 4
/-- The channel is integrated and takes part in the bus. -/
def Can.onBus (r : Can) : Bool := r.st == 2 || r.st == 3
/-- The channel hears frames: it takes part in the bus, or listens and has seen 11 recessive bits (R408). -/
def Can.hears (r : Can) : Bool := r.onBus || (r.st == 5 && r.heard)
/-- The channel sends classic frames only: in mode 2, or fallen back (R406, R417). -/
def Can.classicOnly (r : Can) : Bool := r.fallen || r.mode == 2
/-- CANn_TXD is recessive high while the channel is OFF, and where the logic die does not drive it (R405, R491). -/
def State.txdHigh (s : State) (ch : Nat) : Bool := (s.can ch).st == 0

/-- The channel can be configured or used: neither it nor the CN island is isolated (R476). -/
def State.canIsolated (s : State) (ch : Nat) : Bool := (s.can ch).isolated || (s.flt 80).isolated

/-- CAN_WARNING follows the counters (R430). -/
def updateWarning (ch : Nat) (s : State) : State :=
  let r := s.can ch
  let on := decide (r.warnLim ≤ r.txc ∨ r.warnLim ≤ r.rxc)
  if on == r.warning then s else canEvent ch 0x0601 (b2n on) r.counters (modCan ch (fun r => { r with warning := on }) s)

/-- CANn_STB (R405). -/
def driveStb (ch : Nat) (s : State) : State :=
  let r := s.can ch
  emit (.canStb ch (r.st == 0 && r.stbOff)) s

/-! ### Sending (R426, R417, R428) -/

def Can.pending (r : Can) : List (Nat × CanObj) := r.objs.filter fun e => e.2.dir == 2 && e.2.busy

/-- The identifier of a reference message: its bits [2:0] are the master priority (R428). -/
def TimeMaster.word (m : TimeMaster) : Word := (m.ident &&& 0xFFFFFFF8#32) ||| BitVec.ofNat 32 (m.prio % 8)
/-- The reference message that is queued, with its cycle count. -/
def Can.refDue (r : Can) : Option (Word × Nat) :=
  match r.master with
  | some m => if m.active then m.due.map fun n => (m.word, n) else none
  | none => none

/-- The arbitration field as a number: lower wins. An extended identifier loses to its base part (ISO 11898-1). -/
def arbKey (ident : Word) : Nat :=
  let id := ident.toNat % 2 ^ 29
  if ident.getLsbD 31 then id / 2 ^ 18 * 2 ^ 20 + 2 ^ 19 + id % 2 ^ 18 else id % 2 ^ 11 * 2 ^ 20

/-- Bytes of an object's data words. -/
def CanObj.bytes (o : CanObj) (n : Nat) : List Byte :=
  ((upTo 16).flatMap fun i => u32 (tget o.data 0 i).toNat).take n

/-- The valid data lengths; a length that is none of them counts as the next lower one. -/
def canLens : List Nat := [0, 1, 2, 3, 4, 5, 6, 7, 8, 12, 16, 20, 24, 32, 48, 64]
def validLen (n : Nat) : Nat := (canLens.filter fun k => decide (k ≤ n)).foldl (fun m k => if m < k then k else m) 0
def dlcOf (n : Nat) : Nat := (canLens.filter fun k => decide (k < n)).length
def CanObj.len (o : CanObj) : Nat :=
  let n := validLen (o.frame.toNat % 128)
  if o.ident.getLsbD 30 then n else sat 8 n

/-- What may start next: the pending sends whose abort is not asked for, with their objects, and the reference message as 128. -/
def Can.offers (r : Can) : List (Nat × Word) :=
  ((r.pending.filter fun e => !e.2.abort).map fun e => (e.1, e.2.ident)) ++ (match r.refDue with | some x => [(128, x.1)] | none => [])

/-- Offers what has the highest priority for arbitration (R426); an object goes before a reference message of the same identifier, a
DESIGN CHOICE (notes/assumptions/169.md). -/
def offer (ch : Nat) (s : State) : State :=
  let r := s.can ch
  if !r.onBus || r.listens then s
  else match leastBy (fun e => arbKey e.2 * 256 + e.1) r.offers with
  | none => s
  | some (k, _) =>
    if k = 128 then foldS r.refDue.toList (fun x => emit (.canReference ch x.1 x.2)) s
    else
      let o := r.obj k
      emit (.canSend ch k o.ident (!o.ident.getLsbD 30 || r.classicOnly) (o.bytes o.len)) s

/-- Status of a send's result (R290). -/
def sendStatus (result : Nat) : Nat := if result = 1 then stOk else if result = 2 then stTimeout else stAborted

/-- A start of frame of an object's send: it counts, its stamp is kept, and the frame word shows esi as sent (R418, R426). -/
def attempt (ch k ago : Nat) (s : State) : State :=
  let r := s.can ch
  let esi (o : CanObj) : Word := if o.ident.getLsbD 30 && !r.classicOnly && r.st == 3 then 0x800000#32 else 0#32
  modObj ch k (fun o => { o with attempts := sat 255 (o.attempts + 1), sofAt := some (s.stampAt ago),
                                 frame := (o.frame &&& 0xFF7FFFFF#32) ||| esi o }) s

/-- The result of CAN_SEND as an ended object shows it; one too long for the channel reports no attempts (R417). -/
def CanObj.sendBody (o : CanObj) : List Byte :=
  u64 o.stamp.toNat ++ u8 (if o.result = 6 then 0 else sat 255 o.attempts) ++ [0, 0, 0]

/-- The CAN_SEND of an ended send completes. -/
def finishSend (h : HostId) (tag : Half) (o : CanObj) (s : State) : State :=
  if o.result = 4 ∧ s.abortAsked h tag then abortOp h tag o.sendBody s else finishOp h tag (sendStatus o.result) o.sendBody s

/-- A send ends with its result, its stamp that of the last attempt (R426). While a warm restart runs its CAN_SEND waits (R409). -/
def endSend (ch k result : Nat) (s : State) : State :=
  let o := (s.can ch).obj k
  if !o.busy then s
  else
    let held := s.dev.phase == .warm
    let o1 := { o with busy := false, abort := false, newData := true, result := result, stamp := o.sofAt.getD o.stamp, op := none,
                       after := if held then o.op.map fun x => (x.1, x.2, result) else o.after }
    let s1 := noteObject ch k (modObj ch k (fun _ => o1) s)
    match o.op with
    | some (h, tag) => if held then s1 else finishSend h tag o1 s1
    | none => s1

/-- Mboter reports ready: the CAN_SEND commands whose sends ended meanwhile complete (R409). -/
def sendsReady (s : State) : State :=
  foldS s.cans (fun e t => foldS e.2.objs (fun x u =>
    match x.2.after with
    | some (h, tag, result) =>
      finishSend h tag { x.2 with result := result } (modObj e.1 x.1 (fun o => { o with after := none }) u)
    | none => u) t) s

/-- Ends every pending send. -/
def endSends (ch result : Nat) (f : CanObj → Bool) (s : State) : State :=
  foldS ((s.can ch).pending.filter fun e => f e.2) (fun e t => endSend ch e.1 result t) s

/-- A frame that a channel which sends classic frames only cannot send: longer than 8 bytes in FD format (R417; in mode 2 a DESIGN
CHOICE, notes/assumptions/169.md). -/
def CanObj.tooLong (o : CanObj) : Bool := o.ident.getLsbD 30 && decide (8 < o.len)

/-- A send is requested. -/
def requestSend (ch k : Nat) (op : Option (HostId × Half)) (s : State) : State :=
  let s1 := modObj ch k (fun o => { o with busy := true, abort := false, attempts := 0, errored := 0, op := op, sofAt := none }) s
  if (s1.can ch).classicOnly && ((s1.can ch).obj k).tooLong then endSend ch k 6 s1 else offer ch s1

/-- An abort is requested: it takes effect before the next start of frame, at once where no frame can be on the wire. -/
def requestAbort (ch k : Nat) (s : State) : State :=
  let r := s.can ch
  if !(r.obj k).busy then s
  else if !r.onBus || r.listens then endSend ch k 4 s
  else modObj ch k (fun o => { o with abort := true }) s

/-! ### Off the bus (R408, R269) -/

/-- The channel goes OFF: the counters end, and what was active with them. CAN_ALONE stays until a frame is acknowledged (R431), the
fall-back until a CAN_CONFIG (R417). -/
def canOff (ch : Nat) (s : State) : State :=
  let r := s.can ch
  let s1 := modCan ch (fun r => { r with st := 0, heard := false, txc := 0, rxc := 0, tdcRun := false, offHeld := false, oldFilters := [] }) s
  updateWarning ch (if r.st = 4 then clearFlt (srcCan ch) 2 s1 else s1)

/-- A CAN_CONFIG that takes the channel through OFF ends its fall-back (R417). -/
def endFall (ch : Nat) (s : State) : State :=
  if (s.can ch).fallen then clearFlt (srcCan ch) 3 (modCan ch (fun r => { r with fallen := false }) s) else s

/-- Mode 0: sends end, the time master stops. -/
def canStop (ch : Nat) (s : State) : State :=
  modCan ch (fun r => { r with mode := 0, master := none }) (endFall ch (canOff ch (endSends ch 4 (fun _ => true) s)))

/-- From OFF into the mode that is set. -/
def canStart (ch : Nat) (s : State) : State :=
  modCan ch (fun r => { r with st := if r.mode = 0 then 0 else if r.listens then 5 else 1 }) s

/-- The protocol exception of a classic mode: back to integration, counters unchanged (R407). -/
def protocolException (ch : Nat) (s : State) : State :=
  let r := s.can ch
  if r.mode = 2 ∧ r.onBus = true then modCan ch (fun r => { r with st := 1 }) s
  else if r.mode = 4 ∧ r.hears = true then modCan ch (fun r => { r with heard := false }) s
  else s

/-- Recovery from BUS_OFF, unless it is held (R408). -/
def busOffRecovers (ch : Nat) (s : State) : State :=
  let r := s.can ch
  if r.st = 4 ∧ r.offHeld = false then
    offer ch (updateWarning ch (canStateEvent ch (clearFlt (srcCan ch) 2 (modCan ch (fun r => { r with st := 2, txc := 0, rxc := 0 }) s))))
  else s

/-- Entry into BUS_OFF; the third within 10 s is held (R408). -/
def enterBusOff (ch : Nat) (s : State) : State :=
  let now := s.dev.monoNs
  let times := now :: (s.can ch).offTimes.filter fun t => decide (now < t + 10000000000)
  let held := decide (3 ≤ times.length)
  let s1 := raise (srcCan ch) 2 (modCan ch (fun r => { r with st := 4, offTimes := times, offHeld := held, master := none }) s)
  let s2 := endSends ch 5 (fun _ => true) s1
  if held then canEvent ch 0x0606 3 0 s2 else s2

/-- The state follows the counters (R408). -/
def followCounters (ch : Nat) (s : State) : State :=
  let r := s.can ch
  let s1 := updateWarning ch s
  if !r.onBus then s1
  else if 255 < r.txc then enterBusOff ch s1
  else
    let st := if 127 < r.txc ∨ 127 < r.rxc then 3 else 2
    if st = r.st then s1 else canStateEvent ch (modCan ch (fun r => { r with st := st }) s1)

/-- 11 consecutive recessive bits: ERROR_ACTIVE, from which counters that a protocol exception left above 127 lead on; a listening
channel receives from then on (R407, R408). -/
def integrated (ch : Nat) (s : State) : State :=
  if (s.can ch).st = 1 then
    offer ch (followCounters ch (canStateEvent ch (modCan ch (fun r => { r with st := 2 }) s)))
  else if (s.can ch).st = 5 then modCan ch (fun r => { r with heard := true }) s
  else s

/-! ### Errors (R416, R417, R430 to R432) -/

/-- The channel falls back to classic. -/
def fallBack (ch : Nat) (s : State) : State :=
  let s1 := modCan ch (fun r => { r with fallen := true }) s
  endSends ch 6 CanObj.tooLong (raise (srcCan ch) 3 (canEvent ch 0x0602 (s1.can ch).fallCnt 0 s1))

/-- A data-phase error counts toward fall-back (R416). -/
def dataError (ch : Nat) (s : State) : State :=
  let s1 := modCan ch (fun r => { r with dataErrs := r.dataErrs + 1 }) s
  let r := s1.can ch
  if r.mode = 1 ∧ r.fallEn = true ∧ r.fallen = false ∧ r.fallCnt ≤ r.dataErrs then fallBack ch s1 else s1

/-- An acknowledgement error on a frame of identifier `ident`: an object's or the reference message (R431). -/
def ackError (ch : Nat) (ident : Word) (s : State) : State :=
  let s1 := modCan ch (fun r => { r with ackErrs := r.ackErrs + 1 }) s
  let r := s1.can ch
  if r.ackErrs = 16 ∧ r.alone = false then
    raise (srcCan ch) 1 (canEvent ch 0x0603 16 (ident.toNat % 2 ^ 29) (modCan ch (fun r => { r with alone := true }) s1))
  else s1

/-- An acknowledged frame ends the run. -/
def acknowledged (ch : Nat) (s : State) : State :=
  let r := s.can ch
  let s1 := modCan ch (fun r => { r with ackErrs := 0, alone := false }) s
  if r.alone then clearFlt (srcCan ch) 1 (canEvent ch 0x0604 0 r.ackErrs s1) else s1

/-- Four bit errors in the data field of one object's frames within 1 s (R432). -/
def bitError (ch k : Nat) (s : State) : State :=
  let now := s.dev.monoNs
  let r := s.can ch
  let errs := (now, k) :: r.bitErrs.filter fun e => decide (now < e.1 + 1000000000)
  let ident := (r.obj k).ident &&& 0x9FFFFFFF#32
  let seen := r.dupSeen.filter fun e => decide (now < e.2 + 10000000000)
  if 4 ≤ (errs.filter fun e => e.2 == k).length then
    if seen.any (fun e => e.1 == ident) then modCan ch (fun r => { r with bitErrs := errs, dupSeen := seen }) s
    else
      raise (srcCan ch) 4 (canEvent ch 0x0605 k ident.toNat
        (modCan ch (fun r => { r with bitErrs := errs, dupSeen := (ident, now) :: seen, dupId := ident }) s))
  else modCan ch (fun r => { r with bitErrs := errs, dupSeen := seen }) s

/-- An attempt that does not send the frame: lost arbitration ends a single shot, an error also a send at its retry limit; an abort that
was asked for takes effect (R426). -/
def sendAttemptFails (ch k ago : Nat) (errored : Bool) (s : State) : State :=
  if !((s.can ch).obj k).busy then s
  else
    let s1 := modObj ch k (fun o => { o with errored := o.errored + b2n errored }) (attempt ch k ago s)
    let o := (s1.can ch).obj k
    if o.abort then endSend ch k 4 s1
    else if o.single then endSend ch k 3 s1
    else if errored && o.retry != 0 && decide (o.retry ≤ o.errored) then endSend ch k 2 s1
    else s1

/-- An object lost arbitration to the frame on the bus. -/
def lostArb (ch ago : Nat) (lost : Option Nat) (s : State) : State :=
  match lost with
  | some k => if k < 128 then sendAttemptFails ch k ago false s else s
  | none => s

/-- A measurement of the loop delay (R414): the secondary sample point follows it, at most 127 mtq. A run of frames beyond that sets
tdc_range and posts CAN_TDC_RANGE once (R415). -/
def tdcMeasure (ch d : Nat) (s : State) : State :=
  let r := s.can ch
  let wide := decide (127 < d + r.tdcOff)
  let s1 := bumpSeq (aCan ch + 0x10) (modCan ch (fun r => { r with measured := d, ssp := sat 127 (d + r.tdcOff), tdcRun := wide }) s)
  if wide then
    let s2 := setSqc (aCan ch) [16] s1
    if r.tdcRun then s2 else canEvent ch 0x0608 (sat 255 d) 0 s2
  else s1

/-- The measurement in a frame of object `k`: with TDC enabled, in every FD frame with BRS that the channel sends (R414). -/
def tdcFrame (ch k : Nat) (tdc : Option Nat) (s : State) : State :=
  let r := s.can ch
  let o := r.obj k
  match tdc with
  | some d => if r.tdc && !r.classicOnly && o.ident.getLsbD 30 && o.ident.getLsbD 29 then tdcMeasure ch d s else s
  | none => s

/-- The counters after an error (ISO 11898-1, R430, R431; notes/assumptions/168.md): a receiver counts 1, a transmitter 8, and 8 for each
further dominant in and after the flag. A transmitter that is error passive counts no acknowledgement error without a dominant bit in
its flag, and none counts the stuff error of arbitration. -/
def Can.count (r : Can) (e : CanErr) (sends : Bool) : Can :=
  if r.listens then r
  else if sends then
    let free := (e.ackError && r.st == 3 && !e.passiveDominant) || e.stuffArb
    { r with txc := r.txc + (if free then 0 else 8) + 8 * e.flags }
  else { r with rxc := r.rxc + 1 + 8 * e.flags }

/-- What the channel sends in a frame that ends in an error: an object's frame or the reference message. -/
def Can.sends (r : Can) (e : CanErr) : Option Nat :=
  match e.sending with
  | some k => if k = 128 then (if r.refDue.isSome then some k else none) else if (r.obj k).busy then some k else none
  | none => none

/-- CAN_ERROR_DETECTED (R430). The counters of listen-only modes are frozen (R406). -/
def canError (ch : Nat) (e : CanErr) (s : State) : State :=
  let r := s.can ch
  if !r.hears then s
  else
    let who := if r.listens then none else r.sends e
    let s1 := modCan ch (fun r => { r.count e who.isSome with errFr := if e.errorFrame then r.errFr + 1 else r.errFr, oldFilters := [] }) s
    let s2 := if e.dataPhase then dataError ch s1 else s1
    let s3 := match who with
      | none => lostArb ch e.ago e.lost s2
      | some k =>
        let ident := if k = 128 then (match r.refDue with | some x => x.1 | none => 0) else (r.obj k).ident
        let t1 := if e.ackError then ackError ch ident s2 else s2
        if k = 128 then t1
        else
          let t2 := if e.bitInData then bitError ch k t1 else t1
          sendAttemptFails ch k e.ago true (tdcFrame ch k e.tdc t2)
    offer ch (followCounters ch s3)

/-! ### The end of a send -/

/-- A frame of the channel was sent and acknowledged: the transmit counter falls by 1 (ISO 11898-1). -/
def frameSent (ch : Nat) (fdBrs : Bool) (s : State) : State :=
  acknowledged ch (modCan ch (fun r => { r with tx := r.tx + 1, txc := r.txc - 1, dataErrs := if fdBrs then 0 else r.dataErrs }) s)

/-- The reference message was sent: it is queued no more (R428). -/
def referenceSent (ch : Nat) (s : State) : State :=
  if (s.can ch).refDue.isNone then s
  else
    let s1 := modCan ch (fun r => { r with master := r.master.map fun m => { m with due := none } }) s
    offer ch (followCounters ch (frameSent ch false s1))

/-- CAN_SEND_COMPLETE (R426); object 128 is the reference message. -/
def sendEnds (ch k result ago : Nat) (tdc : Option Nat) (s : State) : State :=
  let o := (s.can ch).obj k
  if k = 128 then (if result = 1 ∧ (s.can ch).onBus = true then referenceSent ch s else s)
  else if !o.busy || o.dir != 2 || result == 0 || decide (6 < result) then s
  else
    let started := result == 1 || result == 3
    let s1 := if started then attempt ch k ago (tdcFrame ch k tdc s) else s
    let fdBrs := o.ident.getLsbD 30 && o.ident.getLsbD 29 && !(s.can ch).classicOnly
    let s2 := if result = 1 then frameSent ch fdBrs s1 else s1
    offer ch (endSend ch k result (followCounters ch s2))

/-! ### Reception (R420 to R424) -/

/-- Whether one filter element tests and matches a frame. -/
def filterHits (e : Word × Word) (f : CanFrame) : Bool :=
  let type := e.1.toNat / 2 ^ 30
  let a := e.1.toNat % 2 ^ 29
  let b := e.2.toNat % 2 ^ 29
  let id := f.id.toNat
  e.1.getLsbD 29 == f.ide &&
  match type with
  | 1 => decide (a ≤ id ∧ id ≤ b)
  | 2 => id == a || id == b
  | 3 => (BitVec.ofNat 29 a &&& BitVec.ofNat 29 b) == (f.id &&& BitVec.ofNat 29 b)
  | _ => false

/-- The elements that apply to a frame whose start of frame was at `sof` of the power die's count: those from before the first
CAN_FILTER_SET that came after it (R425). -/
def Can.filtersFor (r : Can) (sof : Int) : Tab (Word × Word) :=
  match r.oldFilters.find? fun x => decide (sof < (x.1 : Int)) with
  | some x => x.2
  | none => r.filters

/-- The element that decides, with its index (R424). -/
def filterOf (t : Tab (Word × Word)) (f : CanFrame) : Option (Nat × Word × Word) := t.find? fun e => filterHits e.2 f

/-- The receive object that takes a frame (R422). -/
def Can.objFor (r : Can) (f : CanFrame) : Option Nat :=
  let recv := r.objs.filter fun e => e.2.dir == 1
  let exact := BitVec.ofNat 32 (b2n f.ide * 2 ^ 31 + f.id.toNat)
  match recv.find? fun e => e.2.ident == exact with
  | some e => some e.1
  | none => (recv.find? fun e => e.2.ident.getLsbD 30 && e.2.ident.getLsbD 31 == f.ide).map fun e => e.1

/-- The frame word of a frame. -/
def frameWord (f : CanFrame) : Word :=
  BitVec.ofNat 32 (b2n f.esi * 2 ^ 23 + b2n (f.rtr && !f.fdf) * 2 ^ 22 + b2n f.fdf * 2 ^ 21 + b2n f.brs * 2 ^ 20 + f.dlc.toNat * 2 ^ 16 +
    (if f.rtr then 0 else f.data.length))
/-- The identifier word as received: [30:29] are 0. -/
def frameIdent (f : CanFrame) : Word := BitVec.ofNat 32 (b2n f.ide * 2 ^ 31 + f.id.toNat)

/-- The data words of a list of bytes. -/
def dataWords (bs : List Byte) : Tab Word :=
  ((upTo 16).map fun i => (i, BitVec.ofNat 32 (field bs (4 * i) 4))).filter fun e => e.2 != 0

/-- Stores a frame in words 1 to 5 and the data words; an object that takes any frame keeps its any bit. -/
def CanObj.take (o : CanObj) (f : CanFrame) (stamp : DWord) (filter : Nat) : CanObj :=
  { o with newData := true, ident := frameIdent f ||| (o.ident &&& 0x40000000#32), frame := frameWord f, stamp := stamp, result := 0, filter := filter,
           data := dataWords (if f.rtr then [] else f.data) }

/-- A CAN DATA item (R423). -/
def canItem (ch k : Nat) (f : CanFrame) (stamp : DWord) : Item :=
  { noneItem with typ := 1, source := BitVec.ofNat 32 (0x20000000 + ch % 8 * 256 + k % 128), stamp := stamp,
                  payload := u32 (frameIdent f).toNat ++ u32 (frameWord f).toNat ++ (if f.rtr then [] else f.data) }

/-- A valid frame was received: the receive counter falls under ISO 11898-1, to a value from 119 to 127 that the standard
leaves open when it was above 127. -/
def receiveOk (ch : Nat) (brs : Bool) (s : State) : State :=
  let r := s.can ch
  let rxc := if r.listens then r.rxc else if r.rxc ≤ 127 then r.rxc - 1 else 119 + Config.freeNat s.free % 9
  followCounters ch (modCan ch (fun r => { r with rx := r.rx + 1, rxc := rxc, dataErrs := if brs then 0 else r.dataErrs })
    (if r.rxc ≤ 127 then s else useFree s))

/-- A received frame reaches its object and queue (R421, R422). -/
def storeFrame (ch : Nat) (f : CanFrame) (s1 : State) : State :=
  let r := s1.can ch
  let stamp := s1.stampAt f.ago
  match filterOf (r.filtersFor ((s1.dev.monoNs : Int) - f.ago)) f with
    | none => s1
    | some (i, e) =>
      if e.2.getLsbD 31 then s1
      else match r.objFor f with
      | none => s1
      | some k =>
        let o := r.obj k
        let o1 := if o.lock.isSome then { o with hold := some (f, stamp, i), overrun := o.overrun || o.hold.isSome } else o.take f stamp i
        let s2 := modObj ch k (fun _ => o1) s1
        let s3 := if o.lock.isSome then s2 else noteObject ch k s2
        if o.queue = 0 then s3 else pushItem o.queue (canItem ch k f stamp) s3

/-- CAN_FRAME_RECEIVED (R422): a send that lost arbitration to it counts an attempt (R418, R426). -/
def canReceive (ch : Nat) (f : CanFrame) (s : State) : State :=
  let r := s.can ch
  if !r.hears || (f.fdf && (r.mode == 2 || r.mode == 4)) then s
  else
    let s1 := modCan ch (fun r => { r with oldFilters := [] }) (storeFrame ch f (receiveOk ch (f.fdf && f.brs) s))
    if f.lost.isSome then offer ch (lostArb ch f.ago f.lost s1) else s1

/-- The lock ends: a held frame is written into the object (R421). -/
def unlock (ch k : Nat) (s : State) : State :=
  let o := (s.can ch).obj k
  match o.hold with
  | some (f, stamp, i) => noteObject ch k (modObj ch k (fun _ => ({ o with lock := none, hold := none } : CanObj).take f stamp i) s)
  | none => modObj ch k (fun o => { o with lock := none }) s

/-- tLOCK expires (R420). -/
def lockExpires (ch k : Nat) (s : State) : State :=
  if ((s.can ch).obj k).lock.isSome then unlock ch k (modObj ch k (fun o => { o with expired := true }) s) else s

/-! ### The words of an object (R418) -/

def CanObj.control (o : CanObj) : Word :=
  BitVec.ofNat 32 (b2n o.newData * 2 ^ 31 + b2n o.overrun * 2 ^ 30 + b2n o.lock.isSome * 2 ^ 29 + b2n o.expired * 2 ^ 28 + o.dir % 4 * 2 ^ 26 +
    b2n o.single * 2 ^ 25 + b2n o.busy * 2 ^ 24 + o.retry % 256 * 2 ^ 16 + sat 255 o.attempts * 2 ^ 8 + o.queue % 64)

/-- Word `w` of an object, 0 to 31. -/
def CanObj.word (o : CanObj) (w : Nat) : Word :=
  match w with
  | 0 => o.control
  | 1 => o.ident
  | 2 => o.frame
  | 3 => BitVec.ofNat 32 (o.stamp.toNat % 2 ^ 32)
  | 4 => BitVec.ofNat 32 (o.stamp.toNat / 2 ^ 32)
  | 5 => BitVec.ofNat 32 (o.result % 16 * 2 ^ 16 + o.filter % 256)
  | _ => if 8 ≤ w ∧ w < 24 then tget o.data 0 (w - 8) else 0

/-- The word that releases a locked object: the last data word of its frame (R420). -/
def CanObj.releaseWord (o : CanObj) : Nat :=
  let n := o.frame.toNat % 128
  8 + ((if n ≤ 4 then 1 else (n + 3) / 4) - 1)

def aObj (ch k w : Nat) : Nat := 0x40000 + 0x4000 * ch + 128 * k + 4 * w

/-- A host read of word 0: a receive object locks to the host and starts tLOCK; a send object's new_data clears (R420). -/
def readControl (h : HostId) (ch k : Nat) (s : State) : State :=
  let o := (s.can ch).obj k
  let s1 := emit (.readData h (aObj ch k 0) o.control false) s
  if o.dir = 1 then
    (if o.lock.isNone then modObj ch k (fun o => { o with lock := some h, expired := false }) s1 else s1)
  else if o.dir = 2 then modObj ch k (fun o => { o with newData := false }) s1
  else s1

/-- A host read of the release word: by the holding host it ends the lock and clears new_data and overrun. -/
def readRelease (h : HostId) (ch k : Nat) (s : State) : State :=
  let o := (s.can ch).obj k
  let s1 := emit (.readData h (aObj ch k o.releaseWord) (o.word o.releaseWord) false) s
  if o.lock == some h then unlock ch k (modObj ch k (fun o => { o with newData := false, overrun := false }) s1) else s1

/-- A host owns a channel (R255). -/
def State.ownsCan (s : State) (h : HostId) (ch : Nat) : Bool := (s.can ch).owner == hOwner h

/-- The owner host writes send_request or abort_request (R426, R255). -/
def writeSend (h : HostId) (ch k : Nat) (s : State) : State :=
  let o := (s.can ch).obj k
  if s.ownsCan h ch && o.dir == 2 && !o.busy then requestSend ch k none s else s
def writeAbort (h : HostId) (ch k : Nat) (s : State) : State :=
  if s.ownsCan h ch && ((s.can ch).obj k).dir == 2 then requestAbort ch k s else s
def abortAll (h : HostId) (ch : Nat) (v : Word) (s : State) : State :=
  if s.ownsCan h ch && v.getLsbD 0 then foldS (s.can ch).pending (fun e t => requestAbort ch e.1 t) s else s

/-- Another write into an object: words 1, 2 and the data words of an idle send object (R426). -/
def writeObject (h : HostId) (ch k w : Nat) (v : Word) (s : State) : State :=
  let o := (s.can ch).obj k
  if !s.ownsCan h ch || o.dir != 2 then s
  else if w = 0 then
    let s1 := if v.getLsbD 7 then writeSend h ch k s else s
    if v.getLsbD 6 then writeAbort h ch k s1 else s1
  else if o.busy then s
  else if w = 1 then modObj ch k (fun o => { o with ident := v }) s
  else if w = 2 then modObj ch k (fun o => { o with frame := v &&& 0x00FF007F#32 }) s
  else if 8 ≤ w ∧ w < 24 then modObj ch k (fun o => { o with data := tset o.data (w - 8) v }) s
  else s

/-! ### Reference messages (R428, R429) -/

/-- A cycle starts: an unsent reference message is dropped and the new one is queued (R428); a standby master returns after two whole
cycles without another's (R429). -/
def cycleStart (ch : Nat) (s : State) : State :=
  let r := s.can ch
  match r.master with
  | none => s
  | some m =>
    let count := s.time.now.toNat % 1000000000 / 1000 / m.cycle % 64
    let queued : TimeMaster := { m with active := true, quietCycles := 0, due := some count }
    let start (t : State) : State := offer ch (modCan ch (fun r => { r with master := some queued }) t)
    if m.active then start s
    else if 2 ≤ m.quietCycles then start (canEvent ch 0x0607 1 0 s)
    else modCan ch (fun r => { r with master := some { m with quietCycles := m.quietCycles + 1 } }) s

/-- A reference message of higher priority makes the channel a standby master. -/
def referenceSeen (ch : Nat) (ide : Bool) (id : BitVec 29) (s : State) : State :=
  match (s.can ch).master with
  | none => s
  | some m =>
    let same := m.ident.getLsbD 31 == ide && id.toNat / 8 == m.ident.toNat % 2 ^ 29 / 8
    if same && decide (id.toNat % 8 < m.prio) then
      let s1 := modCan ch (fun r => { r with master := some { m with active := false, quietCycles := 0, due := none } }) s
      if m.active then canEvent ch 0x0607 0 id.toNat s1 else s1
    else s

/-! ### Commands (R289, R290) -/

def chPresent (ps : List Byte) (s : State) : Bool := s.hasCan (byteAt ps 0)
def chOwners (ps : List Byte) (s : State) : List Nat := [(s.can (byteAt ps 0)).owner]

/-- The rules of R410 and R411 on the fields of CAN_CONFIG. -/
def timingBad (ps : List Byte) : Bool :=
  let f := field ps
  let within (lo hi v : Nat) : Bool := decide (lo ≤ v ∧ v ≤ hi)
  let mode := f 1 1
  let nn := f 4 2 * (1 + f 6 1 + f 7 1)
  let nd := f 9 1 * (1 + f 10 1 + f 11 1)
  let classic := mode == 2 || mode == 4
  let nominal := within 1 512 (f 4 2) && within 2 255 (f 6 1) && within 1 128 (f 7 1) && within 1 128 (f 8 1) &&
    decide (f 8 1 ≤ f 7 1 ∧ f 8 1 ≤ f 6 1) && decide (80 ≤ nn)
  let data := within 1 32 (f 9 1) && within 1 32 (f 10 1) && within 1 16 (f 11 1) && within 1 16 (f 12 1) &&
    decide (f 12 1 ≤ f 11 1 ∧ f 12 1 ≤ f 10 1) && within 0 127 (f 13 1) && decide (10 ≤ nd ∧ nd ≤ nn) &&
    (!(mode == 1 || mode == 3) || decide (40 ≤ nd) || bitOf (f 3 1) 0)
  !(nominal && (classic || data) && within 1 255 (f 14 1) && within 1 255 (f 15 1))

/-- The settings that CAN_CONFIG writes. -/
def Can.configure (r : Can) (ps : List Byte) : Can :=
  let f := field ps
  let mode := f 1 1
  let r1 := { r with mode := mode, owner := if f 2 1 = 3 then r.owner else f 2 1, tdc := bitOf (f 3 1) 0, fallEn := bitOf (f 3 1) 1,
                     stbOff := bitOf (f 3 1) 2, nPre := f 4 2, nT1 := f 6 1, nT2 := f 7 1, nSjw := f 8 1, fallCnt := f 14 1,
                     warnLim := f 15 1, dataErrs := 0 }
  if mode = 2 ∨ mode = 4 then r1
  else { r1 with dPre := f 9 1, dT1 := f 10 1, dT2 := f 11 1, dSjw := f 12 1, tdcOff := f 13 1 }

/-- Whether two settings differ in mode or timing. -/
def Can.sameBus (a b : Can) : Bool :=
  a.mode == b.mode && a.nPre == b.nPre && a.nT1 == b.nT1 && a.nT2 == b.nT2 && a.nSjw == b.nSjw && a.dPre == b.dPre && a.dT1 == b.dT1 &&
    a.dT2 == b.dT2 && a.dSjw == b.dSjw && a.tdc == b.tdc && a.tdcOff == b.tdcOff

def canConfigCmd : CmdSpec :=
  { len := 16, present := chPresent, owners := chOwners,
    bad := fun c _ => decide (4 < byteAt c.params 1) || decide (3 < byteAt c.params 2) || decide (8 ≤ byteAt c.params 3) || timingBad c.params,
    run := fun c s =>
      let ch := byteAt c.params 0
      if claimLost c (s.can ch).owner then (s, .final stNotOwner [])
      else if s.canIsolated ch then (s, .final stLocked [])
      else
        let old := s.can ch
        let new := old.configure c.params
        let s1 :=
          if new.mode = 0 then setCan ch { ((canStop ch s).can ch).configure c.params with st := 0 } (canStop ch s)
          else if old.st != 0 && old.sameBus new then setCan ch new s
          else
            let t := endFall ch (canOff ch s)
            canStart ch (setCan ch ((t.can ch).configure c.params) t)
        (driveStb ch (updateWarning ch s1), .final stOk []) }

/-- A queue that a receive object of a channel may name (R419, R175). -/
def State.canQueue (s : State) (ch q : Nat) : Bool :=
  decide (8 ≤ q ∧ q < 64) && (s.queue q).st != .disabled && !(s.queue q).isL && !(s.queue q).out &&
    hOwner (s.queue q).owner == (s.can ch).owner

def identBad (w : Nat) : Bool := !bitOf w 31 && w / 2 ^ 11 % 2 ^ 18 != 0

def canObjConfigCmd : CmdSpec :=
  { len := 12, present := chPresent, owners := fun ps s => chOwners ps s ++ [queueOwner s (byteAt ps 4)],
    bad := fun c s =>
      let f := field c.params
      let dir := f 2 1
      let w := f 8 4
      decide (127 < f 1 1) || decide (2 < dir) || decide (1 < f 3 1) || !zeros c.params [(6, 2)] || identBad w ||
      (dir == 1 && (bitOf w 29 || (bitOf w 30 && w % 2 ^ 29 != 0))) ||
      (dir != 2 && f 4 1 != 0 && !s.canQueue (f 0 1) (f 4 1)) ||
      (dir == 2 && (f 4 1 != 0 || (bitOf w 29 && !bitOf w 30) || (bitOf w 30 && (s.can (f 0 1)).mode == 2))),
    run := fun c s =>
      let f := field c.params
      if ((s.can (f 0 1)).obj (f 1 1)).op.isSome then (s, .final stLocked [])
      else
        let o : CanObj := { dir := f 2 1, single := bitOf (f 3 1) 0, retry := f 5 1, queue := if f 2 1 = 1 then f 4 1 else 0,
                            ident := BitVec.ofNat 32 (f 8 4) }
        (modObj (f 0 1) (f 1 1) (fun _ => o) s, .final stOk []) }

/-- Element `i` of CAN_FILTER_SET. -/
def filterAt (ps : List Byte) (i : Nat) : Word × Word := (BitVec.ofNat 32 (field ps (8 + 8 * i) 4), BitVec.ofNat 32 (field ps (12 + 8 * i) 4))
def filterBad (e : Word × Word) : Bool :=
  let a := e.1.toNat % 2 ^ 29
  let b := e.2.toNat % 2 ^ 29
  (e.1.toNat / 2 ^ 30 == 1 && decide (b < a)) || (!e.1.getLsbD 29 && decide (0x7FF < a ∨ 0x7FF < b)) || e.2.getLsbD 30 || e.2.getLsbD 29

def canFilterSetCmd : CmdSpec :=
  { len := 8, present := chPresent, owners := chOwners,
    bad := fun c _ =>
      let first := field c.params 2 2
      let n := byteAt c.params 4
      !zeros c.params [(1, 1), (5, 3)] || decide (n = 0 ∨ 29 < n) || decide (256 < first + n) || decide (255 < first) ||
      decide (c.params.length < 8 + 8 * n) || (upTo n).any fun i => filterBad (filterAt c.params i),
    run := fun c s =>
      let first := field c.params 2 2
      let put (i : Nat) (t : State) : State :=
        modCan (byteAt c.params 0) (fun r => { r with filters := tset r.filters (first + i) (filterAt c.params i) }) t
      let note (t : State) : State :=
        modCan (byteAt c.params 0) (fun r => { r with oldFilters := r.oldFilters ++ [(s.dev.monoNs, r.filters)] }) t
      (foldS (upTo (byteAt c.params 4)) put (note s), .final stOk []) }

def canSendCmd : CmdSpec :=
  { len := 8, present := chPresent, owners := chOwners,
    bad := fun c s =>
      let f := field c.params
      let r := s.can (f 0 1)
      let fl := f 2 1
      let n := f 3 1
      let id := f 4 4
      decide (127 < f 1 1) || decide (8 ≤ fl) || (bitOf fl 1 && !bitOf fl 0) || !canLens.contains n || (!bitOf fl 0 && decide (8 < n)) ||
      decide (2 ^ 29 ≤ id) || (!bitOf fl 2 && decide (0x7FF < id)) || decide (c.params.length < 8 + n) || r.listens ||
      (bitOf fl 0 && r.mode == 2) || (r.obj (f 1 1)).dir != 2,
    run := fun c s =>
      let f := field c.params
      let ch := f 0 1
      let k := f 1 1
      let fl := f 2 1
      let n := f 3 1
      if s.canIsolated ch || ((s.can ch).obj k).busy then (s, .final stLocked [])
      else
        let ident := BitVec.ofNat 32 (b2n (bitOf fl 2) * 2 ^ 31 + b2n (bitOf fl 0) * 2 ^ 30 + b2n (bitOf fl 1) * 2 ^ 29 + f 4 4)
        let frame := BitVec.ofNat 32 (b2n (bitOf fl 0) * 2 ^ 21 + b2n (bitOf fl 1) * 2 ^ 20 + dlcOf n * 2 ^ 16 + n)
        let s1 := modObj ch k (fun o => { o with ident := ident, frame := frame, data := dataWords ((c.params.drop 8).take n) }) s
        if (s.can ch).classicOnly && ((s1.can ch).obj k).tooLong then
          let s2 := endSend ch k 6 (modObj ch k (fun o => { o with busy := true, attempts := 0, errored := 0, op := none, sofAt := none }) s1)
          (s2, .event stAborted (u64 ((s2.can ch).obj k).stamp.toNat ++ [0, 0, 0, 0]))
        else (requestSend ch k (some (c.host, c.tag)) s1, .running stAccepted (keyObj ch k) [ch, k]) }

def canStatusCmd : CmdSpec :=
  { len := 4, present := chPresent, bad := fun c _ => !zeros c.params [(1, 3)],
    run := fun c s =>
      let r := s.can (byteAt c.params 0)
      let active := match r.master with | some m => m.active | none => false
      (s, .final stOk (u8 r.st ++ u8 (sat 255 r.txc) ++ u8 (sat 255 r.rxc) ++
        u8 (b2n r.fallen + 2 * b2n r.alone + 4 * b2n active + 8 * b2n r.warning) ++ u32 r.dupId.toNat ++ u32 r.rx.toNat ++
        u32 r.tx.toNat ++ u32 r.errFr.toNat)) }

def canTimeMasterCmd : CmdSpec :=
  { len := 12, present := chPresent, owners := chOwners,
    bad := fun c _ =>
      let f := field c.params
      decide (1 < f 1 1) || decide (7 < f 2 1) || !zeros c.params [(3, 1)] || bitOf (f 4 4) 29 || bitOf (f 4 4) 30 || identBad (f 4 4) ||
      (f 1 1 == 1 && (decide (f 8 4 < 500 ∨ 1000000 < f 8 4) || 1000000 % f 8 4 != 0)),
    run := fun c s =>
      let f := field c.params
      let ch := f 0 1
      let r := s.can ch
      if s.canIsolated ch || r.listens then (s, .final stLocked [])
      else if f 1 1 = 0 then (modCan ch (fun r => { r with master := none }) s, .final stOk [])
      else if r.mode = 0 then (s, .final stLocked [])
      else
        let m : TimeMaster := { ident := BitVec.ofNat 32 (f 4 4), prio := f 2 1, cycle := f 8 4 }
        (modCan ch (fun r => { r with master := some m }) s, .final stOk []) }

/-- A logic-die reset, Kindling mode or isolation takes a channel OFF (R408). CAN objects and settings of a logic-die reset
return to their cold-start values. -/
def canReset (ch : Nat) (s : State) : State :=
  let s1 := if (s.can ch).alone then clearFlt (srcCan ch) 1 s else s
  driveStb ch (modCan ch (fun r => { ({} : Can) with isolated := r.isolated, stbOff := r.stbOff }) (canOff ch s1))

end Sys2Proof.Machine
end

