-- ==== Sys2Proof/Machine/Clock.lean ====
section
/-!
DEFINITION. Plant time (R435 to R450, R292, R293, R333, R369): the counter, the PPS discipline, steps, the second, and the time
commands.
-/
namespace Sys2Proof.Machine

/-! ### The counter (R435) -/

/-- One clock of 250 MHz: 4 ns, or 3 or 5 when the accumulator, in units of 10^-9 ns, passes −1 or +1 ns. -/
def tick (t : Time) : Time :=
  let a := t.acc + 4 * t.r
  if 1000000000 ≤ a then { t with now := t.now + 5, acc := a - 1000000000 }
  else if a ≤ -1000000000 then { t with now := t.now + 3, acc := a + 1000000000 }
  else { t with now := t.now + 4, acc := a }

/-! ### States and events (R443, R450) -/

def Pps.code : Pps → Nat
  | .free => 0 | .acquiring => 1 | .locked => 2 | .holdover => 3

def timeEvent (code a b w : Nat) (s : State) : State := post 232 (u16 code ++ u8 a ++ u8 b ++ u32 w) s

/-- The grid is aligned (R89). -/
def State.aligned (s : State) : Bool := s.time.gridOn && s.time.gridHalf == 0

/-- f is saved in the Lichen island for the reference in use (R445). -/
def saveF (s : State) : State :=
  modLich (fun l => if s.time.alt then { l with fAlt := some s.time.f } else { l with fXtal := some s.time.f }) s
def State.savedF (s : State) (alt : Bool) : Int := (if alt then s.lich.fAlt else s.lich.fXtal).getD 0

/-- LOCKED again: PPS_LOST and HOLDOVER_EXPIRED end. -/
def endPpsFaults (s : State) : State :=
  let s1 := if !(s.flt 157).active.isEmpty then clearFlt 157 1 s else s
  if !(s1.flt 158).active.isEmpty then clearFlt 158 1 s1 else s1

/-- A change of PPS state: f is saved, TIME_STATE is posted. -/
def toPps (p : Pps) (s : State) : State :=
  let old := s.time.pps
  if old == p then s
  else
    let s1 := modTime (fun t => { t with pps := p, holdSince := if p == .holdover then some s.dev.monoNs else none }) s
    let s2 := timeEvent 0x0800 p.code old.code (s32 s.time.f) (setSqc aTimeState [1] (saveF s1))
    if p == .locked then endPpsFaults s2 else s2

/-! ### Steps -/

/-- A step by `d` ns: the grid is renumbered at the next boundary (R89), the CAN copy follows (R427), and a second that it skips has
no crossing (R449). -/
def stepTime (d : Int) (who : Nat) (s : State) : State :=
  let big : Int := 2147483647
  let shown := if big < d then big else if d < -big then -big else d
  timeEvent 0x0801 who 0 (s32 shown)
    (modTime (fun t => { t with now := BitVec.ofNat 64 ((t.now.toNat : Int) + d).toNat, moved := t.moved + d, steps := t.steps + 1,
                                stepped := t.gridOn, stepBy := if t.gridOn then t.stepBy + d else 0, set := true,
                                stepLog := (s.dev.monoNs, d) :: t.stepLog.filter (fun x => decide (s.dev.monoNs < x.1 + 1000000000)),
                                second := ((t.now.toNat : Int) + d).toNat / 1000000000 }) s)

def clamp (lo hi v : Int) : Int := if v < lo then lo else if hi < v then hi else v

/-- pps_delay_ns of TIME_PPS_CFG, signed (R437). -/
def State.ppsDelay (s : State) : Int :=
  let v := s.cfgField aPpsCfg 0 16
  if v < 32768 then (v : Int) else (v : Int) - 65536

/-- A marking edge falls 1 s ± 500 µs after the previous valid one, or is the first after an absence (R440). -/
def State.edgeValid (s : State) (c : Int) : Bool :=
  match s.time.lastEdge with
  | none => true
  | some l =>
    let d := c - (l.toNat : Int) - s.time.moved - 1000000000
    decide (-500000 ≤ d ∧ d ≤ 500000)

/-- A valid edge (R441, R443). -/
def validEdge (c : Int) (s : State) : State :=
  let t := s.time
  let m := c % 1000000000
  let e : Int := if 500000000 ≤ m then m - 1000000000 else m
  let steps := decide ((t.threshold : Int) < e ∨ e < -(t.threshold : Int))
  let s0 := setSqc aTimeState (if steps then [0, 2] else [0]) s
  let s1 := modTime (fun t => { t with lastErr := e, capture := BitVec.ofNat 64 c.toNat, lastEdge := some (BitVec.ofNat 64 c.toNat), moved := 0 }) s0
  if steps then
    let s2 := stepTime (-e) 0 s1
    toPps .acquiring (modTime (fun t => { t with r := t.f, good := 0 }) s2)
  else
    let f := clamp (-200000) 200000 (t.f - Int.tdiv e 8)
    let fine := decide (-250 ≤ e ∧ e ≤ 250)
    let good := if fine then t.good + 1 else 0
    let s2 := modTime (fun t => { t with f := f, r := clamp (-200000) 200000 (f - e), good := good, set := true }) s1
    match t.pps with
    | .free => toPps .acquiring (modTime (fun t => { t with good := b2n fine }) s2)
    | .acquiring => if 4 ≤ good then toPps .locked s2 else s2
    | .locked => s2
    | .holdover => toPps .locked s2

/-- PPS_GLITCH with the count of edges that were not valid, at most once per 10 s (R440). -/
def postGlitch (s : State) : State :=
  if s.time.glitches = 0 then modTime (fun t => { t with glitchOpen := false }) s
  else timeEvent 0x0804 0 0 s.time.glitches (modTime (fun t => { t with glitches := 0, glitchOpen := true }) s)

/-- PPS_EDGE: TIME has reached the capture; pps_delay_ns is removed from it. -/
def edge (capture : DWord) (s : State) : State :=
  if !s.timeOn then s
  else
    let s1 := passTo capture.toNat s
    let c := (capture.toNat : Int) - s.ppsDelay
    if s.edgeValid c then validEdge c s1
    else
      let s2 := setSqc aTimeState [3] (modTime (fun t => { t with glitches := t.glitches + 1 }) s1)
      if s2.time.glitchOpen then s2 else postGlitch s2

/-- tPPS_MISS without a valid edge: an absence (R440, R443). -/
def ppsMissed (s : State) : State :=
  let s1 := modTime (fun t => { t with lastEdge := none, moved := 0, good := 0 }) s
  let hold (t : State) : State := modTime (fun t => { t with r := t.f }) t
  match s.time.pps with
  | .locked => toPps .holdover (raise 157 1 (hold s1))
  | .acquiring => toPps .free (hold s1)
  | _ => s1

/-- HOLDOVER has lasted tHOLDOVER. -/
def holdoverEnds (s : State) : State :=
  if s.time.pps == .holdover then toPps .free (raise 158 1 (modTime (fun t => { t with r := t.f }) s)) else s

/-- XTAL_IN fails while it is selected: the switch to CLKIN_ALT (R439). Under R441, r stays until the next valid edge; in the
other states it is f (R443). -/
def refSwitch (s : State) : State :=
  let f := s.savedF true
  let s1 := modTime (fun t =>
    { t with alt := true, f := f, r := if t.pps == .locked || t.pps == .acquiring then t.r else f,
             good := if t.pps == .locked then 0 else t.good }) s
  let s2 := raise 159 1 (timeEvent 0x0803 1 0 0 s1)
  if s.time.pps == .locked then toPps .acquiring s2 else s2

/-! ### The second (R448, R449, R333, R369) -/

/-- The states in which PPS_OUT is driven (R449). -/
def State.ppsDrives (s : State) : Bool := s.timeOn && (s.dev.power == .run || s.dev.power == .trim || s.dev.power == .doze)

/-- PPS_OUT rises at a moment of the power die's count, unless a pulse started within 200 ms (R449). -/
def ppsOut (at_ : Nat) (s : State) : State :=
  let clear := match s.time.lastPulse with | some t => decide (t + 200000000 ≤ at_) | none => true
  if s.ppsDrives && clear then emit (.ppsOut true) (modTime (fun t => { t with lastPulse := some at_, high := true }) s) else s

/-- A pulse lasts 100 ms; PPS_OUT is held low where it is not driven (R449). -/
def ppsFall (s : State) : State :=
  let past := match s.time.lastPulse with | some t => decide (t + 100000000 ≤ s.dev.monoNs) | none => true
  if s.time.high && (past || !s.ppsDrives) then emit (.ppsOut false) (modTime (fun t => { t with high := false }) s) else s

/-- The header and payload of a TIME frame (R333). -/
def State.timeBody (s : State) (ns : DWord) : List Byte :=
  draxHeader 7 0 false false s.dev.id 0xFFFF 0 0 0 ++
    (u64 ns.toNat ++ u8 (b2n (s.time.pps == .locked) + 2 * b2n s.aligned) ++ List.replicate 7 0)

/-- A locked device's TIME frame on every trunk in BLOCKED or UP (R333). -/
def timeFrames (second : Nat) (s : State) : State :=
  if s.time.pps == .locked then
    foldS (upTo s.nTrunks) (fun n t =>
      if (t.trunk n).st.linked then sendPlain n (t.timeBody (BitVec.ofNat 64 (second * 1000000000))) t else t) s
  else s

/-- The pulses of a Timebase frame (Table — Timebase frame on Pn_SBU): the on-time mark, bits 0 to 39 of the seconds, whether PPS is
locked and the grid aligned, and even parity over them. -/
def sbuPulses (second : Nat) (good : Bool) : List Nat :=
  let bits := (upTo 40).map (fun k => second.testBit k) ++ [good]
  let parity := (bits.filter id).length % 2 == 1
  8 :: (bits ++ [parity]).map fun b => if b then 5 else 2

/-- The Timebase frame of each port in the mode (R369). -/
def sbuFrames (second : Nat) (s : State) : State :=
  foldS (upTo s.nPorts) (fun p t =>
    if (t.port p).pd.alt then emit (.sbuFrame p (sbuPulses second (t.time.pps == .locked && t.aligned))) t else t) s

/-- What a whole second drives at its crossing: PPS_OUT, TIME frames and Timebase frames, and the Lichen island's copy is loaded
(R333, R369, R448, R449). -/
def crossSecond (n : Nat) (s : State) : State :=
  let late := s.time.now.toNat - n * 1000000000
  let s1 := modTime (fun t => { t with second := n }) s
  modLich (fun l => { l with timeCopy := some s1.time.now }) (sbuFrames n (timeFrames n (ppsOut (s1.dev.monoNs - late) s1)))

/-- The whole seconds that TIME has crossed without a step since the last one served, and the end of a pulse. -/
def followSecond (s : State) : State :=
  if !s.timeOn then ppsFall s
  else ppsFall (foldS (upTo (s.time.now.toNat / 1000000000 - s.time.second)) (fun k => crossSecond (s.time.second + 1 + k)) s)

/-- TIME reaches the next whole second. -/
def secondCrossing (s : State) : State :=
  if !s.timeOn then s else passTo ((s.time.now.toNat / 1000000000 + 1) * 1000000000) s

/-! ### Start (R445, R448) -/

/-- The logic die starts: TIME from the Lichen copy, FREE_RUNNING, f of the reference selected. -/
def timeStart (alt : Bool) (s : State) : State :=
  let f := s.savedF alt
  let keep := s.time
  modTime (fun _ =>
    { now := s.lich.timeCopy.getD 0, set := s.lich.timeCopy.isSome, noCopy := s.lich.timeCopy.isNone, f := f, r := f, alt := alt,
      threshold := keep.threshold, lastPulse := keep.lastPulse, high := keep.high,
      second := (s.lich.timeCopy.getD 0).toNat / 1000000000 }) s

/-- Mboter reports ready: the grid starts at the next grid point, aligned; TIME_NOT_SET if TIME started without a copy. -/
def gridStart (s : State) : State :=
  let s1 := if s.time.gridOn then s else
    let m := s.time.now.toNat / 125000
    modTime (fun t => { t with gridOn := true, m := m, g := BitVec.ofNat 32 m, gridHalf := 0, stepped := false }) s
  if s.time.noCopy then timeEvent 0x0802 0 0 0 (modTime (fun t => { t with noCopy := false }) s1) else s1

/-! ### Commands (R292, R293) -/

/-- Where TIME_SET would put TIME; `none` where R293 refuses. -/
def State.timeTarget (s : State) (ps : List Byte) : Option Int :=
  let now : Int := s.time.now.toNat
  let v := field ps 4 8
  let t : Option Int :=
    if byteAt ps 0 = 0 then
      (if s.time.pps == .locked then some ((v / 1000000000 * 1000000000 : Nat) + now % 1000000000) else some v)
    else
      let d := sField ps 4 8
      if s.time.pps == .locked ∧ d % 1000000000 ≠ 0 then none else some (now + d)
  match t with
  | some x => if 0 ≤ x ∧ x < 18446744073709551616 then some x else none
  | none => none

def timeSetCmd : CmdSpec :=
  { len := 16,
    bad := fun c s =>
      let th := field c.params 12 4
      decide (1 < byteAt c.params 0) || !zeros c.params [(1, 3)] || (th != 0 && decide (th < 100 ∨ 1000000 < th)) ||
      (s.timeTarget c.params).isNone,
    run := fun c s =>
      let th := field c.params 12 4
      let s0 := if th = 0 then s else modTime (fun t => { t with threshold := th }) s
      match s.timeTarget c.params with
      | none => (s, .final stBadParam [])
      | some x =>
        let s1 := stepTime (x - s.time.now.toNat) 1 (setSqc aTimeState [2] s0)
        (s1, .final stOk (u64 s1.time.now.toNat)) }

def timeGetCmd : CmdSpec :=
  { len := 0,
    run := fun _ s =>
      (s, .final stOk (u64 s.time.now.toNat ++ u32 s.time.g.toNat ++ u16 (s.time.m % 8000) ++
        u8 (b2n s.aligned + 2 * b2n (s.time.pps == .locked)) ++ [0])) }

def timeStatusCmd : CmdSpec :=
  { len := 0,
    run := fun _ s =>
      let t := s.time
      let held := match t.holdSince with | some a => (s.dev.monoNs - a) / 1000000000 | none => 0
      (s, .final stOk (u8 t.pps.code ++ u8 (b2n t.alt) ++ u8 (b2n s.aligned) ++ [0] ++ sBytes 4 t.lastErr ++ sBytes 4 t.r ++
        sBytes 4 (t.gridHalf / 2) ++ u32 t.steps.toNat ++ u32 held)) }

end Sys2Proof.Machine
end

