-- ==== Sys2Proof/Machine/Islands.lean ====
section
/-!
DEFINITION. Power states, the entry handshake, wakes, retention, supplies (R451 to R473), and the memories that lose content
(R205, R469, R470, R549).
-/
namespace Sys2Proof.Machine

/-! ### RUN and TRIM (R454, R455) -/

/-- An available engine is gated or a payload bank is off. -/
def State.trims (s : State) : Bool :=
  s.engineList.any (fun e => (s.engine e).gated) || (upTo 16).any fun b => (s.pbank b).st == 1

/-- RUN and TRIM follow what is gated. -/
def followTrim (s : State) : State :=
  match s.dev.power with
  | .run => if s.trims then setPower .trim 0 s else s
  | .trim => if s.trims then s else setPower .run 0 s
  | _ => s

/-! ### Islands -/

/-- The rails without which the logic die does not start are in range (R472). -/
def State.coreRails (s : State) : Bool := !(s.noRail 1 || s.noRail 2 || s.noRail 4)

/-- The islands that an entry in progress has gated, by code. -/
def State.agreed (s : State) (code : Nat) : Bool :=
  match s.power.entry with | some e => e.agreed.contains code | none => false

/-- A wake that failed keeps every island but LI and PD off (R467). -/
def State.cold (s : State) : Bool := match s.power.wake with | some w => w.cold | none => false

/-- Whether an island is off (R451, R467, R472, R476), by its code. -/
def State.islandOff (s : State) (code : Nat) : Bool :=
  let p := s.dev.power
  let deep := p == .hibernate || p == .service || p == .kindling || s.cold
  s.agreed code ||
  (if code < 0x10 then (s.engine code).gated || (s.engine code).isolated || p == .doze || deep
   else if code < 0x20 then (s.flt (76 + (code - 0x10))).isolated || !s.phyRails || p == .doze || deep
   else match code with
    | 0x20 => (s.flt 80).isolated || deep
    | 0x21 => (s.flt 81).isolated || s.noRail 3 || p == .hibernate || p == .service || s.cold
    | 0x22 => (s.flt 82).isolated || s.noRail 3 || deep
    | 0x23 => (s.flt 83).isolated || s.noRail 3 || deep
    | _ => p == .hibernate || p == .kindling || s.cold)

/-- The island codes in the order of DEV_STATUS bytes 16 to 19, for the islands that are present (R20, R271). -/
def State.islandBits (s : State) : List (Nat × Nat) :=
  ((upTo s.nEngines).map fun e => (e, e)) ++ ((upTo (s.nPorts / 8)).map fun g => (12 + g, 0x10 + g)) ++
  (if s.nCans = 0 then [] else [(16, 0x20)]) ++ [(17, 0x21), (18, 0x22), (19, 0x23), (20, 0x24)]

/-- The mask of islands off. -/
def State.offMask (s : State) : Nat := maskOf ((s.islandBits.filter fun x => s.islandOff x.2).map fun x => x.1)

/-- Engines wake; those that step 1 of the heat order keeps gated are gated again (R154, R465). -/
def wakeEngines (s : State) : State := gateEmpty (ungate s)

/-- The Peat store becomes active, when what waited in the tails enters the middles, or in self-refresh (R183, R206). -/
def peatActive (s : State) : State :=
  let s1 := modPeat (fun m => if m.st = 3 then { m with st := 2 } else m) s
  { s1 with queues := s1.queues.map fun e => (e.1, s1.overflow e.2) }
def peatRefresh (s : State) : State := modPeat (fun m => if m.st = 2 then { m with st := 3 } else m) s

/-! ### Lost content (R205, R469, R549) -/

/-- An instrument whose context is lost is handled as at step 7 of Table — Bus resumption after a logic-die reset. -/
def lostInst (p a : Nat) (s : State) : State :=
  match (s.port p).inst a with
  | none => s
  | some i =>
    let s1 := freeSub p 4 a s
    if i.parent = 0 then startReset p s1 else queueBelow true p i.parent i.parentPort s1

/-- The instrument that owns a context. -/
def lostCtx (e : Nat) (s : State) : State :=
  match s.ctx e with
  | some c => lostInst (epPort e) c.addr s
  | none => s

/-- Items that QUE_DROPS counts when `bad` ones give way to GAP items: a lost GAP item has counted its own before. -/
def lostItems (bad : Item → Bool) (l : List Item) : Nat := (l.filter fun i => bad i && !i.isGap).length

/-- Items lost from a queue's head, tail and payload SRAM middle become GAP items (R469); how many there were. -/
def State.loseItems (s : State) (bad : Item → Bool) (r : Queue) : Queue × Nat :=
  let claimed := if bad r.claimed then noneItem else r.claimed
  let lost (x : Nat × Item) : Bool := bad x.2 && !(s.spills r && x.1 == 1)
  ({ s.gapOut lost 3 r with claimed := claimed }, (r.placed.filter lost).length)

/-- Loses items of one queue, sets its retention_lost bit, and counts them. -/
def loseFrom (bad : Item → Bool) (q : Nat) (acc : State × Nat) : State × Nat :=
  let s := acc.1
  let r := s.queue q
  let x := s.loseItems bad r
  if x.2 = 0 then (if bad r.claimed then setQueue q x.1 s else s, acc.2)
  else
    let n := lostItems bad (if s.spills r then r.head ++ r.tail else r.items)
    (putQueue q { x.1 with drops := satAdd r.drops n } (some 3) (setSqc (aQueStatus q) [6, 10] s), acc.2 + x.2)

/-- The saved headers of some of a queue's items are lost: a GAP item of cause 3 for each run of them (R470). What lies in spill extents
is not saved. -/
def loseHeaders (q : Nat) (idx : List Nat) (s : State) : State :=
  let r := s.queue q
  let marks := ((upTo r.count).zip r.placed).map fun x => idx.contains x.1 && !(s.spills r && x.2.1 == 1)
  let gone := (marks.zip r.placed).filter fun x => x.1
  if gone.isEmpty then s
  else
    putQueue q { s.gapMarked marks 3 r with drops := satAdd r.drops (lostItems (fun _ => true) (gone.map fun x => x.2.2)) } (some 3)
      (setSqc (aQueStatus q) [6, 10] s)

/-- A payload bank is lost (R469). -/
def losePayload (b : Nat) (s : State) : State :=
  let touches (i : Item) : Bool := i.banks.contains b
  let x := (upTo 64).foldl (fun acc q => loseFrom touches q acc) (s, 0)
  raise (srcPbank b) 2 (powerEvent 0x0063 1 b x.2 (modPbank b (fun r => { r with lost := true }) x.1))

/-- A control bank is lost: it is isolated, and the queue content saved in it is lost (R470). Which queues' heads and tails
it held is a free choice. -/
def loseControl (b : Nat) (s : State) : State :=
  let one (acc : State × Nat) (q : Nat) : State × Nat :=
    if Config.freeNat acc.1.free % 2 = 1 then loseFrom (fun _ => true) q (useFree acc.1, acc.2) else (useFree acc.1, acc.2)
  let x := (upTo 64).foldl one (s, 0)
  raise (srcCbank b) 2 (powerEvent 0x0063 2 b x.2
    (modFlt (srcCbank b) (fun f => { f with isolated := true }) (modCbank b (fun r => { r with st := 3, lost := true }) x.1)))

/-- The instruments with a context that was not resident when the Peat store was lost (R84, R201). -/
def loseNonResident (s : State) : State :=
  let insts := (upTo s.nPorts).flatMap fun p => (s.port p).tree.map fun i => (p, i.addr)
  foldS (insts.filter fun x => (s.instCtxs x.1 x.2).any fun e => !s.isResident e.1 e.2) (fun x t => lostInst x.1 x.2 t) s

/-- The items of a spilled middle that lie in the extents that `bad` names are lost: a GAP item of cause 5 (R205). -/
def loseSpill (q : Nat) (bad : Nat → Bool) (s : State) : State :=
  let r := s.queue q
  let gone := r.mid.filter fun i => bad i.ext
  if !s.spills r || gone.isEmpty then s
  else
    putQueue q { s.gapOut (fun x => x.1 == 1 && bad x.2.ext) 5 r with drops := satAdd r.drops (lostItems (fun _ => true) gone) }
      (some 5) (setSqc (aQueStatus q) [10] s)

/-- The GAP item for the rest of an extent whose headers cannot be read: it counts the headers (R216). -/
def gapRest (flags : BitVec 8) (gone : List Item) : List Item :=
  match gone, gone.getLast? with
  | i :: _, some l =>
    [{ gapItem l.source gone.length 4 i.firstStamp l.lastStamp with flags := flags, ext := i.ext }]
  | _, _ => []

/-- The middle as a refill of `n` items leaves it, and the items lost. Each header that it reads is checked: at a position of the middle
that `bad` names it fails, and the rest of that extent gives way to one GAP item of cause 4, after which the next extent is read
(R216). -/
def checkMid (flags : BitVec 8) (bad : List Nat) : Nat → Nat → List Item → List Item × List Item
  | 0, _, mid => (mid, [])
  | _ + 1, _, [] => ([], [])
  | n + 1, pos, i :: rest =>
    if bad.contains pos then
      let gone := (i :: rest).takeWhile fun x => x.ext == i.ext
      let r := checkMid flags bad n (pos + gone.length) ((i :: rest).drop gone.length)
      (gapRest flags gone ++ r.1, gone ++ r.2)
    else
      let r := checkMid flags bad n (pos + 1) rest
      (i :: r.1, r.2)

/-- A refill of a head of 8 items or fewer, to 16, from a middle in spill extents (R181). `bad`: the positions in the middle of the
headers that fail their check (R216). -/
def refillHead (q : Nat) (bad : List Nat) (s : State) : State :=
  let r := s.queue q
  if !s.spills r || s.peat.st != 2 || decide (8 < r.head.length) || r.mid.isEmpty then s
  else
    let m := 16 - r.head.length
    let x := checkMid r.entryFlags bad m 0 r.mid
    let r1 := { r with mid := x.1, drops := satAdd r.drops (lostItems (fun _ => true) x.2) }
    let r2 := ({ r1 with head := r1.head ++ (r1.mid.take m).map (s.placeItem q), mid := r1.mid.drop m } : Queue).fill
    if x.2.isEmpty then putQueue q r2 none s
    else putQueue q r2 (some 4) (raise 152 1 (setSqc aMemc [12] (setSqc (aQueStatus q) [7, 10] s)))

/-- The store is lost before a start has taken over what it held: ownership returns to its cold-start values with the rest
(R76, R232). -/
def heldLost (s : State) : State :=
  { s with ports := s.ports.map fun e => (e.1, { e.2 with owner := 0, policy := {}, tree := [], suspHub := [], attachSeq := 0,
                                                           logicRst := false }),
           ctxs := [], queues := [], cans := s.cans.map fun e => (e.1, { e.2 with owner := 0 }),
           peat := { s.peat with held := false } }
def State.startsUp (s : State) : Bool :=
  s.dev.phase == .reset || s.dev.phase == .starting ||
    (s.dev.phase == .waking && (match s.power.wake with | some w => w.left == .service | none => false))

/-- The Peat store is lost (R201, R472): spilled items and non-resident contexts go with it. A data queue's spill_mib is 0 until its
next Q_CONFIG (notes/assumptions/84.md); Q6 and Q7 keep their fixed one (R172), which holds again when the store returns. -/
def peatLost (st : Nat) (s0 : State) : State :=
  let s := if s0.startsUp && s0.peat.held then heldLost s0 else s0
  if s.peatInUse then
    let s1 := (upTo 64).foldl (fun t q => loseSpill q (fun _ => true) t) s
    let s2 := { s1 with queues := s1.queues.map fun e =>
                  (e.1, ({ e.2 with spillMib := if e.1 < 8 then e.2.spillMib else 0 } : Queue).settle false) }
    raise 149 1 (loseNonResident (modPeat (fun m => { m with st := st, mib := 0, scrubbing := false }) s2))
  else modPeat (fun m => { m with st := st, mib := 0 }) s

/-! ### Ports of a PG island, trunks and host ports that go off -/

/-- The ports of a PG island. -/
def State.pgPorts (s : State) (g : Nat) : List Nat := (upTo s.nPorts).filter fun p => p / 8 == g

/-- The ports of a PG island enter DISABLED (R467, R472, R476). -/
def pgOff (g : Nat) (s : State) : State :=
  foldS (s.pgPorts g) (fun p t => if (t.port p).bus == .disabled then t else toDisabled p t) s

def tkOff (s : State) : State := foldS (upTo s.nTrunks) trunkOff s
/-- Trunks come on again as they are configured (R302); before a start has reached them their PHYs stay in reset (R301). In Kindling
mode a trunk without a saved configuration stays OFF (R334). -/
def tkOn (s : State) : State :=
  if !(s.dev.phase == .ready || s.dev.phase == .warm || s.dev.phase == .kindling) then s
  else foldS (upTo s.nTrunks) (fun n t =>
    if (t.dev.phase == .kindling && (tfind n t.lich.trunks).isNone) || (t.trunk n).cfg.iface = 0 || (t.trunk n).isolated || t.islandOff 0x21
    then t else trunkOn n t) s

/-- The balls of every channel show its state, or are held high by their pull-ups where the logic die does not drive them (R405). -/
def stbAll (high : Bool) (s : State) : State :=
  foldS (upTo s.nCans) (fun c t => if high then emit (.canStb c true) t else driveStb c t) s

def cnOff (s : State) : State := foldS (upTo s.nCans) (fun c t => driveStb c (canOff c t)) s
/-- Channels leave OFF into the mode that is set (R408). -/
def cnOn (s : State) : State :=
  foldS (upTo s.nCans) (fun c t => if t.canIsolated c || (t.can c).st != 0 then t else driveStb c (canStart c t)) s

/-- A host port's binding is lost with cause 3. -/
def portLost (h : HostId) (s : State) : State := loseVia (.localPort h) s

/-- The OTP default of a port is disabled (R512). -/
def State.startsDisabled (s : State) (p : Nat) : Bool := (s.otp.live.disabled.getD 0).getLsbD p

/-- A port of an island that can act leaves DISABLED; an isolated one stays there until it is returned (R385). -/
def portReturns (p : Nat) (s : State) : State :=
  if !s.pgIsolated p && (s.port p).bus == .disabled && (s.port p).sw != .isolated then toUnattached p s else s

/-- A port takes its state under R43. -/
def portStart (p : Nat) (s : State) : State := if s.startsDisabled p then s else portReturns p s

/-! ### The entry handshake (R456 to R459) -/

/-- The islands that an entry asks, in order; those that DOZE has gated are not asked again. -/
def askOrder (target : Nat) (from_ : PowerState) : List Nat :=
  (if from_ == .doze then [] else ((upTo 4).map fun g => 0x10 + g) ++ upTo 12) ++
  (if target = 3 then [0x20, 0x21, 0x22, 0x23, 0x24, 0x26, 0x25] else [])

/-- What an island answers. -/
inductive EntryAnswer where
  | agree
  | delay (reason : Nat)
  | refuse (reason : Nat)
  deriving DecidableEq, Repr

/-- A bound class A context that keeps its engine from agreeing: it is not DEFERRED with SUSPENDED or PORT_DOWN. -/
def State.heldA (s : State) (e : Nat) : Bool :=
  (s.teGroups e).any fun g => (s.groupCtxs g).any fun x =>
    x.2.periodic && x.2.cls == 0 && !((s.service x.1 x.2) == (5, 0x08) || (s.service x.1 x.2) == (5, 0x0C))

/-- Whether FW_STAGE or FW_ACTIVATE runs. -/
def State.fwRuns (s : State) : Bool := match s.fw.busy with | .idle => false | .mixed => false | _ => true

/-- The answer of an island (Table — Entry answers). `busy`: an xSPI transaction, a send or a spill is in progress. -/
def State.entryAnswer (s : State) (code : Nat) (busy : Bool) : EntryAnswer :=
  let ps := s.pgPorts (code - 0x10)
  let bus (b : Bus) : Bool := ps.any fun p => (s.port p).bus == b
  if code < 0x10 then
    if !s.available code then .agree
    else if s.heldA code then .refuse 1
    else if s.stok.migs.any (fun m => m.src == code || m.dst == code) || (s.engine code).evac || (s.engine code).testing then .delay 2
    else .agree
  else if code < 0x20 then
    if (s.flt (76 + (code - 0x10))).isolated then .agree
    else if bus .resetting || bus .enumerating || bus .recovering then .refuse 3
    else if bus .ufpSwapped then .refuse 5
    else if bus .resuming then .delay 4
    else .agree
  else match code with
  | 0x20 =>
    if (upTo s.nCans).any (fun c => match (s.can c).master with | some m => m.active && !s.canIsolated c | none => false) then .refuse 7
    else if busy && s.nCans != 0 && !(s.flt 80).isolated then .delay 6 else .agree
  | 0x22 => if busy && !(s.flt 82).isolated then .delay 8 else .agree
  | 0x23 => if busy && !(s.flt 83).isolated then .delay 8 else .agree
  | 0x24 => if busy then .delay 9 else .agree
  | 0x26 => if (upTo s.nPorts).any (fun p => (s.port p).pd.st == .transition || (s.port p).pd.st == .hardReset) then .delay 10 else .agree
  | 0x25 => if s.fwRuns then .refuse 11 else .agree
  | _ => .agree

/-- The result of DEV_POWER_STATE. -/
def powerResult (state : PowerState) (island reason cause : Nat) : List Byte :=
  u8 state.code ++ u8 island ++ u8 reason ++ [0] ++ u32 cause

/-- The canary words of a payload bank (R468). -/
def canaryWords (b : Nat) (sleep : Half) : List Word :=
  (upTo 8).map fun i =>
    let v := BitVec.ofNat 32 (b * 2 ^ 24 + sleep.toNat * 2 ^ 8 + i)
    if i % 2 = 0 then v else ~~~v

/-- The queue manager writes the canaries of the coming sleep; a bank that is off holds nothing (R454, R468). -/
def writeCanaries (s : State) : State :=
  let l := ((upTo 16).filter fun b => (s.pbank b).st != 1).map fun b => (b, canaryWords b (s.lich.sleepSeq + 1))
  { s with pool := { s.pool with canary := l } }

/-- Every head and tail is saved into control SRAM (R458), and what is saved is read back. -/
def saveQueues (s : State) : State :=
  { s with ctrl := { s.ctrl with saved := s.queues.map fun e => (e.1, (e.2.head, e.2.tail)) } }
def loadQueues (s : State) : State :=
  let load (q : Nat) (r : Queue) : Queue :=
    match tfind q s.ctrl.saved with
    | some x => { r with head := x.1, tail := x.2 }
    | none => r
  { s with queues := s.queues.map fun e => (e.1, load e.1 e.2), ctrl := { s.ctrl with saved := [] } }

/-- The action an island takes before it agrees; for DOZE the Peat store enters self-refresh after the last TE. -/
def entryAction (target code : Nat) (s : State) : State :=
  if 0x10 ≤ code ∧ code < 0x20 then
    let ps := (s.pgPorts (code - 0x10)).filter fun p => (s.port p).bus == .running
    let s1 := foldS ps (fun p => doSuspend p .root) s
    modPower (fun w => { w with entry := w.entry.map fun e => { e with suspended := e.suspended ++ ps } }) s1
  else if code = 0x20 then cnOff s
  else if code = 0x21 then tkOff s
  else if code = 0x24 then peatRefresh (writeCanaries (saveQueues s))
  else if code = 0x26 then
    let ps := (upTo s.nPorts).filter fun p => (s.port p).bus != .disabled
    let back := ps.filter fun p => (s.port p).bus != .latchedOff
    modPower (fun w => { w with entry := w.entry.map fun e => { e with portsOff := back } }) (foldS ps toDisabled s)
  else if target = 2 ∧ code = 11 then peatRefresh s
  else s

/-- A pull-up that showed while the PLU was gated is debounced now (R42, R459). -/
def pullupBack (p : Nat) (s : State) : State :=
  let r := s.port p
  if r.pullUp && (r.bus == .connectWait || r.bus == .powerOnly) then
    modPort p (fun r => { r with bus := .connectDebounce, pullUp := false }) s
  else s

/-- The trees that an entry or DOZE suspended resume under R70, and instruments that attached meanwhile go on to enumerate (R457, R459,
R464). -/
def resumeTrees (ps : List Nat) (s : State) : State :=
  foldS ps (fun p t =>
    if (t.port p).bus == .suspended && (t.port p).resume.isNone then startResume p { loc := .root, byHost := true, byInst := false } t
    else t) (foldS (upTo s.nPorts) pullupBack s)

/-- An entry ends without its state: the islands that had agreed return to service. -/
def dropEntry (s : State) : State :=
  match s.power.entry with
  | none => s
  | some e =>
    let s1 := modPower (fun w => { w with entry := none }) s
    let s2 := if s.dev.power == .doze then s1 else peatActive s1
    let s3 := if e.agreed.contains 0x20 then cnOn s2 else s2
    let s4 := if e.agreed.contains 0x21 then tkOn s3 else s3
    resumeTrees e.suspended (foldS e.portsOff portReturns s4)

def entryEnds (status island reason : Nat) (s : State) : State :=
  match s.power.entry with
  | none => s
  | some e => finishOp e.host e.tag status (powerResult s.dev.power island reason 0) (dropEntry s)

/-- DOZE is reached (R459). -/
def enterDoze (e : Entry) (s : State) : State :=
  let s1 := modPower (fun w => { w with entry := none, wakeEnable := e.wakeEnable, wakeAfter := e.wakeAfter, dozeTrees := e.suspended }) s
  let s2 := setPower .doze 0 s1
  finishOp e.host e.tag stOk (powerResult .doze 0xFF 0 0) s2

/-- Both hosts become unbound and every semaphore free, without events (R232, R460, R503); no queue enters FLIGHT (R207). -/
def unbindAll (s : State) : State :=
  let un (r : HostRec) : HostRec := { r with bound := none, semTimer := false }
  updateChoice { s with hostA := un s.hostA, hostB := un s.hostB, sems := [] }

/-- HIBERNATE is reached (R460, R462, R468): the completion event is placed first, and what it added to a queue is saved with the rest. The service function of the service port
goes with the CI island (R452). -/
def enterHibernate (e : Entry) (s : State) : State :=
  let s1 := modPower (fun w => { w with entry := none, wakeEnable := e.wakeEnable, wakeAfter := e.wakeAfter, dozeTrees := [],
                                        rising := 0, railStep := 0 }) s
  let s2 := setPower .hibernate 0 (finishOp e.host e.tag stOk (powerResult .hibernate 0xFF 0 0) s1)
  let s3 := unbindAll s2
  let s4 := modLich (fun l => { l with sleepSeq := l.sleepSeq + 1 }) (saveQueues (modInst 0 (fun _ => {}) s3))
  emit (.railEn false) (stbAll true (modDev (fun d => { d with phase := .waking }) s4))

/-- An island that is asked answers (R457). -/
def islandAnswers (busy : Bool) (s : State) : State :=
  match s.power.entry with
  | none => s
  | some e =>
    let order := askOrder e.target s.dev.power
    if e.delayed then s
    else match order[e.asked]? with
    | none => s
    | some code =>
      match s.entryAnswer code busy with
      | .delay _ => modPower (fun w => { w with entry := some { e with delayed := true } }) s
      | .refuse r => setSqc aPwrmState [7] (powerEvent 0x0061 code r e.target (entryEnds stLocked code r s))
      | .agree =>
        let s1 := modPower (fun w =>
          { w with entry := w.entry.map fun x => { x with asked := x.asked + 1, agreed := x.agreed ++ [code] } }) (entryAction e.target code s)
        match s1.power.entry with
        | some x => if order.length ≤ x.asked then (if x.target = 2 then enterDoze x s1 else enterHibernate x s1) else s1
        | none => s1

/-- The wait of a DELAY ends: the island is asked again. -/
def delayEnds (s : State) : State :=
  modPower (fun w => { w with entry := w.entry.map fun e => { e with delayed := false } }) s

/-! ### Wakes (R464 to R467) -/

/-- A trigger that is enabled in the state (Table — Wake triggers). -/
def triggerOn (p : PowerState) (enable code : Nat) : Bool :=
  match code with
  | 1 => p != .hibernate
  | 2 => bitOf enable 0
  | 3 => p != .hibernate && bitOf enable 1
  | 4 => bitOf enable 2
  | 5 => bitOf enable 3
  | _ => decide (6 ≤ code ∧ code ≤ 8)

/-- The wake order starts. -/
def startWake (left : PowerState) (cause : Nat) (s : State) : State :=
  let s1 := modPower (fun w => { w with wake := some { step := 1, left := left, cause := cause }, retry := false }) s
  if left == .hibernate then emit (.railEn true) s1 else s1

/-- A trigger that wakes the device from the state it is in. -/
def State.wakes (s : State) (code : Nat) : Bool :=
  (s.dev.power == .doze || s.dev.power == .hibernate) && triggerOn s.dev.power s.power.wakeEnable code

/-- A wake trigger: it ends an entry, wakes the device, or is recorded as disabled (R457, R466). One that ends an entry out of DOZE wakes
the device too where DOZE has it enabled. While RESET_N is low every trigger is only recorded (R577). -/
def wakeTrigger (code : Nat) (s : State) : State :=
  if s.dev.phase == .reset && s.dev.resetLow then ashRecord 4 code s
  else match s.power.entry, s.power.wake with
  | some e, _ =>
    if s.wakes code || triggerOn (if e.target = 3 then .hibernate else .doze) e.wakeEnable code || code == 1 then
      let s1 := entryEnds stAborted 0xFF 0 s
      if s.wakes code then startWake s.dev.power code s1 else s1
    else ashRecord 4 code s
  | none, some _ =>
    if (s.dev.power == .doze || s.dev.power == .hibernate) && !s.wakes code then ashRecord 4 code s else s
  | none, none =>
    if s.wakes code then startWake s.dev.power code s
    else if s.dev.power == .doze || s.dev.power == .hibernate then ashRecord 4 code s
    else s

/-- RUN is reached after a wake. -/
def wakeDone (w : Wake) (s : State) : State :=
  let s1 := modPower (fun x => { x with wake := none, wakeCause := w.cause }) s
  followTrim (setPower .run w.cause s1)

/-- A wake from DOZE is over: the trees resume, and a DEV_POWER_STATE that asked for it completes. -/
def dozeOver (w : Wake) (s : State) : State :=
  let s1 := wakeDone w (wakeEngines s)
  let s2 := resumeTrees s.power.dozeTrees (modPower (fun x => { x with dozeTrees := [] }) s1)
  finishKey (keyDev 0xB) stOk (powerResult .run 0xFF 0 w.cause) s2

/-- One item of a queue is lost: a GAP item of cause 7 takes its place (R212, R549). -/
def loseAt (q idx : Nat) (s : State) : State :=
  let r := s.queue q
  match r.items[idx]? with
  | some i =>
    putQueue q { r.setAt idx (gapNew r.entryFlags 7 i) with drops := satAdd r.drops (b2n (!i.isGap)) } (some 7)
      (setSqc (aQueStatus q) [10] s)
  | none => s

/-- One uncorrectable control SRAM word, by its content (Table — Uncorrectable control SRAM words, R549). -/
def loseContent (b : Nat) (c : CtrlContent) (s : State) : State :=
  let s1 := match c with
    | .mboterData => { s with fltIn := s.fltIn ++ [.raiseL4 (srcCbank b) 5] }
    | _ => raise (srcCbank b) 5 s
  match c with
  | .context e => lostCtx e s1
  | .schedule => { s1 with ctrl := { s1.ctrl with rebuild := true } }
  | .header q i => loseAt q i s1
  | .opRecord h tag => modHost h (fun r => { r with done := r.done.filter fun d => d.tag != tag }) s1
  | .code => s1
  | .mboterData => s1

/-- The payload banks whose eight canary words do not all match are lost (R468). `read`: the words that read otherwise than they were
written, as (bank, word, value). -/
def checkCanaries (read : List (Nat × Nat × Word)) (s : State) : State :=
  let now (e : Nat × List Word) : List Word := (read.filter fun x => x.1 == e.1).foldl (fun l x => l.set x.2.1 x.2.2) e.2
  let lost := s.pool.canary.filter fun e => now e != canaryWords e.1 s.lich.sleepSeq
  foldS (lost.map fun e => e.1) losePayload { s with pool := { s.pool with canary := [] } }

/-- The uncorrectable words that the read of the control banks finds (R470): a bank with more than 16 is isolated; else a saved header
is lost, a schedule entry is rebuilt, and any other content is handled as the scrub handles it (notes/assumptions/164.md). -/
def checkControl (words : List (Nat × CtrlContent)) (s : State) : State :=
  let dead := (upTo 8).filter fun b => decide (16 < (words.filter fun x => x.1 == b).length)
  let rest := words.filter fun x => !dead.contains x.1
  let idx (q : Nat) : List Nat := rest.filterMap fun x => match x.2 with | .header k i => if k = q then some i else none | _ => none
  let s1 := foldS (upTo 64) (fun q t => if (idx q).isEmpty then t else loseHeaders q (idx q) t) s
  let s2 := foldS rest (fun x t => match x.2 with
    | .header _ _ => t
    | .schedule => { t with ctrl := { t.ctrl with rebuild := true } }
    | c => loseContent x.1 c t) s1
  foldS dead loseControl s2

/-- Step 4 of a wake: the saved heads and tails are loaded and the retained memories are checked (R468 to R470). -/
def retention (read : List (Nat × Nat × Word)) (words : List (Nat × CtrlContent)) (s : State) : State :=
  checkCanaries read (checkControl words (loadQueues s))

/-! ### The Peat store and the islands that a rail feeds come back (R201, R472) -/

/-- The Peat store is initialised (R201): its size, up to the variant's limit. The middles of Q6 and Q7 lie in spill extents again. -/
def peatInit (ok : Bool) (s : State) : State :=
  let mib := sat (Variant.peatMax s.part.variant) s.part.peatMib
  let sizes := [4096, 2048, 1024, 512]
  let use_ := (sizes.filter fun z => decide (z ≤ mib)).head?.getD 0
  if !s.hasSdram then s
  else if use_ = 0 || !ok || s.railOut 7 || s.railOut 8 then
    let s0 := if s.startsUp && s.peat.held then heldLost s else s
    raise 149 1 (modPeat (fun m => { m with st := if use_ = 0 then 0 else 4, mib := 0 }) s0)
  else
    let s1 := modPeat (fun m => { m with st := 2, mib := use_ }) s
    let s2 := if s.peatInUse then s1 else
      { s1 with queues := s1.queues.map fun e =>
          (e.1, if e.2.spillMib = 0 then e.2 else e.2.mid.foldl Queue.spill { e.2 with mid := [] }) }
    if !(s.flt 149).active.isEmpty then clearFlt 149 1 s2 else s2

/-- The service function of the service port attaches when it is provisioned and its PHY has its supply (R243, R452, R472, R513). -/
def svcAttach (s : State) : State :=
  if s.svcUp && s.svc.vbus && s.svc.pd.ufp then modInst 0 (fun i => { i with attached := true }) s else s

/-- Step 3 for a Peat store whose rails are back. -/
def peatReturns (s : State) : State :=
  if s.power.rising.getLsbD 6 || s.power.rising.getLsbD 7 then
    peatInit true (modPower (fun w => { w with rising := w.rising &&& 0x3F#8 }) s)
  else s

/-- Step 5 for the islands whose rails are back: trunks and the service function return. Ports that the loss disabled stay DISABLED until
PORT_ENABLE (R42). A DRAM rail that came back after step 3 has its own wake. -/
def railsUp (s : State) : State :=
  let up := s.power.rising
  let s1 := modPower (fun w => { w with rising := w.rising &&& 0xC0#8, railStep := if w.rising &&& 0xC0#8 = 0 then 0 else 1 }) s
  let s2 := if up.getLsbD 2 then tkOn s1 else s1
  if up.getLsbD 4 || up.getLsbD 5 then svcAttach s2 else s2

/-- A wake step reports ready (R465). A wake from HIBERNATE starts on XTAL_IN again (R439); in SERVICE the time unit runs on
(R451). -/
def wakeReady (read : List (Nat × Nat × Word)) (words : List (Nat × CtrlContent)) (s : State) : State :=
  match s.power.wake with
  | none => s
  | some w =>
    let onTo (n : Nat) (t : State) : State := modPower (fun x => { x with wake := x.wake.map fun k => { k with step := n } }) t
    match w.step with
    | 1 => if s.coreRails then onTo 2 s else s
    | 2 => onTo 3 (if w.left == .hibernate || w.cold then modTime (fun t => { t with alt := w.alt }) s else s)
    | 3 =>
      let s1 := peatReturns (peatActive s)
      if w.left == .hibernate || w.cold then onTo 4 s1 else onTo 5 s1
    | 4 => onTo 5 (retention read words s)
    | 5 =>
      if w.left == .doze && !w.cold then railsUp (dozeOver w s)
      else
        let s1 := modDev (fun d => { d with phase := .waking }) s
        onTo 6 (if w.left == .service && !w.cold then s1 else timeStart s.time.alt s1)
    | _ => s

/-- A step of the wake of islands whose rail is back reports ready: it runs the steps of a wake from DOZE (R465, R472;
notes/assumptions/165.md). -/
def railReady (s : State) : State :=
  let onTo (n : Nat) (t : State) : State := modPower (fun x => { x with railStep := n }) t
  match s.power.railStep with
  | 1 => onTo 2 s
  | 2 => onTo 3 s
  | 3 => onTo 5 (peatReturns s)
  | 5 => railsUp s
  | _ => s

/-- A wake step reports ready. -/
def stepReady (read : List (Nat × Nat × Word)) (words : List (Nat × CtrlContent)) (s : State) : State :=
  if s.power.wake.isSome then wakeReady read words s else railReady s

/-- WAKE_STEP_TIMEOUT (R467, R473). -/
def stepTimeout (step island us : Nat) (s : State) : State :=
  setSqc aPwrmState [6] (raise 148 1 (powerEvent 0x0062 step island us s))

/-- Neither reference is ready, or CI or MI is not: every island but LI and PD stays off, and with them trunks, channels, bindings and
the service function (R460, R467). The wake is tried again whole, as one that all of them wait for. -/
def wakeFails (s : State) : State :=
  let w := match s.power.wake with
    | some w => { w with step := 0, alt := false, cold := true }
    | none => { step := 0, left := s.dev.power, cause := 0, cold := true }
  let s1 := if s.dev.power == .hibernate || s.cold then s else unbindAll (modInst 0 (fun _ => {}) (cnOff (tkOff s)))
  modDev (fun d => { d with phase := .waking }) (modPower (fun x => { x with retry := true, wake := some w }) s1)

/-- The source of an island that can be isolated. -/
def islandSrc (code : Nat) : Nat :=
  if code < 0x10 then srcTe code else if code < 0x20 then 76 + (code - 0x10) else 80 + (code - 0x20)

/-- A memory unit is not ready: an SRAM bank by r of R560, else the Peat store. -/
def bankFails (r : Nat) (s : State) : State :=
  if r < 16 then
    losePayload r (modFlt (srcPbank r) (fun f => { f with isolated := true }) (modPbank r (fun b => { b with st := 3 }) s))
  else if r < 24 then loseControl (r - 16) s
  else peatLost 4 s

/-! ### Supplies (R472) -/

/-- A rail is missing or lost: its islands go off. The rails of the logic die reset it (R398); its caller does. -/
def railLost (code : Nat) (s : State) : State :=
  if s.railOut code then s
  else
    let bit := BitVec.ofNat 8 (2 ^ (code - 1))
    let s1 := modPower (fun w => { w with missing := w.missing ||| bit, rising := w.rising &&& ~~~bit,
                                          railStep := if w.rising &&& ~~~bit = 0 then 0 else w.railStep }) s
    let s2 := match code with
      | 3 => tkOff (portLost .b (portLost .a s1))
      | 5 => foldS (upTo (s.nPorts / 8)) pgOff (endInstance 0 s1)
      | 6 => foldS (upTo (s.nPorts / 8)) pgOff (endInstance 0 s1)
      | 7 => peatLost 0 s1
      | 8 => peatLost 0 s1
      | _ => s1
    setSqc aPwrmRails [16] (raise 147 1 (powerEvent 0x0064 code 0 s2.offMask s2))

/-- A rail has been back in range for 10 ms: its islands are woken from step 1 (R472), with the wake in progress or the next one where
the device sleeps; a start that has not reached them takes them on itself. -/
def railBack (code : Nat) (s : State) : State :=
  if !s.railOut code then s
  else
    let bit := BitVec.ofNat 8 (2 ^ (code - 1))
    let up := s.dev.phase == .ready || s.dev.phase == .warm || s.dev.phase == .kindling
    let wakes := (code == 3 || decide (5 ≤ code)) && (up || s.dev.phase == .waking)
    let s1 := modPower (fun w =>
      { w with missing := w.missing &&& ~~~bit, rising := if wakes then w.rising ||| bit else w.rising,
               railStep := if wakes && up && w.wake.isNone then 1 else w.railStep }) s
    let s2 := if s1.power.missing = 0 then clearFlt 147 1 s1 else s1
    setSqc aPwrmRails [16] (powerEvent 0x0065 code 0 0 s2)

/-- The same for the wake of islands whose rail is back. -/
def railLate (unit us : Nat) (s : State) : State :=
  let late (island : Nat) (t : State) : State := stepTimeout s.power.railStep island us t
  match s.power.railStep with
  | 1 => late 0xFF (railLost unit s)
  | 2 => if s.time.alt then wakeFails (late 0xFF s) else late 0xFF (refSwitch s)
  | 3 => late 0xFF (bankFails unit s)
  | 5 => if unit = 0x24 ∨ unit = 0x25 then wakeFails (late unit s) else late unit (raise (islandSrc unit) 4 s)
  | _ => s

/-- A step of a wake does not report ready within its limit (R467). `unit`: the rail of step 1, the memory unit of step 3, the
island of step 5. Step 6 is a failed start; its caller handles it. -/
def wakeStepLate (unit us : Nat) (s : State) : State :=
  match s.power.wake with
  | none => railLate unit us s
  | some w =>
    let late (island : Nat) (t : State) : State := stepTimeout w.step island us t
    let onTo (n : Nat) (t : State) : State := modPower (fun x => { x with wake := x.wake.map fun k => { k with step := n } }) t
    match w.step with
    | 1 =>
      let s1 := late 0xFF (railLost unit s)
      if s1.coreRails then onTo 2 s1 else s1
    | 2 =>
      if w.alt then wakeFails (late 0xFF s)
      else modPower (fun x => { x with wake := x.wake.map fun k => { k with alt := true } }) (late 0xFF (refSwitch s))
    | 3 => late 0xFF (bankFails unit s)
    | 5 => if unit = 0x24 ∨ unit = 0x25 then wakeFails (late unit s) else late unit (raise (islandSrc unit) 4 s)
    | _ => s

/-- The Lichen island tries the whole wake again (R467). -/
def wakeRetry (s : State) : State :=
  if s.power.retry then
    modPower (fun x => { x with retry := false, wake := x.wake.map fun w => { w with step := 1 } }) s
  else s

/-! ### DEV_POWER_STATE (R456, R532) -/

def devPowerStateCmd : CmdSpec :=
  { len := 8,
    bad := fun c _ =>
      let t := byteAt c.params 0
      !(t == 0 || t == 2 || t == 3) || decide (16 ≤ byteAt c.params 1) || !zeros c.params [(2, 2)] || decide (86400 < field c.params 4 4),
    run := fun c s =>
      let t := byteAt c.params 0
      let p := s.dev.power
      let awake := p == .run || p == .trim
      let guard := (t == 2 && (s.cfgAt aPwrmGuard).getLsbD 0) || (t == 3 && (s.cfgAt aPwrmGuard).getLsbD 1)
      let res := powerResult p 0xFF 0 0
      if t = 0 && s.power.entry.isSome then
        let s1 := wakeTrigger 1 s
        if s1.power.wake.isSome then (s1, .running stAccepted (keyDev 0xB) []) else (s1, .final stAlready res)
      else if s.power.entry.isSome || s.power.wake.isSome then (s, .final stLocked res)
      else if (t == 0 && awake) || (t == 2 && p == .doze) then (s, .final stAlready res)
      else if guard then (s, .final stLocked res)
      else if t = 0 then (startWake .doze 1 s, .running stAccepted (keyDev 0xB) [])
      else
        (modPower (fun w => { w with entry := some { target := t, wakeEnable := byteAt c.params 1, wakeAfter := field c.params 4 4,
                                                     host := c.host, tag := c.tag } }) s, .running stAccepted (keyDev 0xB) []) }

/-- The opcodes that need a gated TE or PG island in DOZE (R459). -/
def dozeLocked : List Nat := [0x0103, 0x0104, 0x0105, 0x0203, 0x0204, 0x0205, 0x0A00, 0x0403]

/-! ### Memories (R454, R205, R546, R549, R550) -/

/-- A payload bank without an extent for 100 ms goes off (R454). -/
def bankIdleOff (b : Nat) (s : State) : State :=
  if b < 16 ∧ (s.pbank b).st = 0 ∧ s.heldIn b = 0 then modPbank b (fun r => { r with st := 1 }) s else s

/-- Banks that are off are on again before they take an extent (R454), and k rises when the free words of the active set
fall below one eighth (R546). -/
def followBanks (s : State) : State :=
  let s1 := foldS ((upTo 16).filter fun b => (s.pbank b).st == 1 && s.heldIn b != 0) (fun b => modPbank b fun r => { r with st := 0 }) s
  if s1.pool.k < s1.servicePool.length ∧ 7 * (6143 * s1.pool.k) < 8 * s1.poolUsed then
    { s1 with pool := { s1.pool with k := s1.pool.k + 1 } }
  else s1

/-- k falls by 1 (R546). -/
def shrinkSet (s : State) : State :=
  if 4 < s.pool.k ∧ 2 * s.poolUsed ≤ 6143 * (s.pool.k - 1) then { s with pool := { s.pool with k := s.pool.k - 1 } } else s

/-- What a physical address of the Peat store holds (Table — Peat store regions, R202). Context images lie in EPID order, one in
each block of 64 bytes (R204). -/
inductive PeatRegion where
  | context (epid : Nat)
  | trees
  | schedules
  | linkLists
  | ashMirror
  | recovery
  | reserved
  | spill
  deriving DecidableEq, Repr

def peatRegion (a : Nat) : PeatRegion :=
  if a < 0x00800000 then .context (a / 64)
  else if a < 0x00C00000 then .trees
  else if a < 0x02800000 then .schedules
  else if a < 0x03800000 then .linkLists
  else if a < 0x03900000 then .ashMirror
  else if a < 0x03A00000 then .recovery
  else if a < 0x04800000 then .reserved
  else .spill

/-- Every spill extent that is linked, with its queue. -/
def State.linkedExts (s : State) : List (Nat × Nat) :=
  s.queues.flatMap fun e => if s.spills e.2 then ((e.2.mid.map fun i => i.ext).eraseDups).map fun x => (e.1, x) else []

/-- The spill extents that a queue link list entry names, one queue's, are lost: which entry lies at an address is free. -/
def loseEntry (s : State) : State :=
  let l := s.linkedExts.drop (Config.freeNat s.free % (s.linkedExts.length + 1))
  match l with
  | (q, x) :: _ => loseSpill q (fun k => decide (x ≤ k ∧ k ≤ x + Config.freeNat (s.free + 1))) (useFree (useFree s))
  | [] => useFree s

/-- What the Peat store scrub, or a read, finds in a protected block (R203, R205). A scrub that goes on has rewritten the recovery
descriptor (notes/assumptions/152.md). -/
def peatScrub (f : PeatFound) (s0 : State) : State :=
  let s := modPeat (fun m => { m with recBad := false }) s0
  if s0.peat.st != 2 then s0
  else match f with
  | .passDone => setSqc aMemc [11] (modPeat (fun m => { m with scrubbing := false }) s)
  | .corrected a =>
    if peatRegion a = .spill then s else raise 150 1 (setSqc aMemc [14] (modPeat (fun m => { m with corr := satAdd m.corr 1 }) s))
  | .uncorrectable a =>
    let s1 := raiseAt 151 1 (BitVec.ofNat 32 a)
      (setSqc aMemc [13] (modPeat (fun m => { m with uncorr := satAdd m.uncorr 1, eccAddr := BitVec.ofNat 32 a }) s))
    match peatRegion a with
    | .context e =>
      let resident := match s.ctx e with | some x => s.isResident e x | none => true
      if resident then s1 else lostCtx e s1
    | .schedules => { s1 with ctrl := { s1.ctrl with rebuild := true } }
    | .linkLists => loseEntry s1
    | .ashMirror => modPeat (fun m => { m with ashMirror := s.lich.ash }) s1
    | .recovery => modPeat (fun m => { m with recBad := true }) s1
    | .trees => s1
    | .reserved => s1
    | .spill => s

/-- Adds an entry to a log of the last second. -/
def logSecond (now : Nat) (x : Nat × Nat) (l : List (Nat × Nat)) : List (Nat × Nat) :=
  x :: l.filter fun y => decide (now < y.2 + 1000000000)
/-- Entries of a log under a key. -/
def logCount (key : Nat) (l : List (Nat × Nat)) : Nat := (l.filter fun x => x.1 == key).length

/-- A corrected word (R549): the eighth on one column of a bank within 1 s queues the bank for evacuation and test (R550). -/
def ctrlCorrected (b column : Nat) (s : State) : State :=
  let log := logSecond s.dev.monoNs (72 * b + column, s.dev.monoNs) s.ctrl.columns
  let s1 := raise (srcCbank b) 4 (setSqc aSram [0] { s with ctrl := { s.ctrl with corr := satAdd s.ctrl.corr 1, columns := log } })
  if 8 ≤ logCount (72 * b + column) log && !s.unitIsolated (.control b) && !s.testing (.control b) then
    askTest { unit := .control b, who := .column } s1
  else s1

/-- An uncorrectable word (R549): a running bank's sixteenth within 1 s isolates the bank (R550). -/
def ctrlUncorrectable (b a : Nat) (c : CtrlContent) (s : State) : State :=
  let log := logSecond s.dev.monoNs (b, s.dev.monoNs) s.ctrl.words
  let s0 := setSqc aSram [1] { s with ctrl := { s.ctrl with uncorr := satAdd s.ctrl.uncorr 1, addr := a, words := log } }
  let s1 := loseContent b c s0
  if 16 ≤ logCount b log && !s.unitIsolated (.control b) then raise (srcCbank b) 1 s1 else s1

/-- What the control SRAM scrub, or a read, finds (R549, R550). -/
def ctrlScrub (f : CtrlFound) (s : State) : State :=
  match f with
  | .headerParity q i => if (s.queue q).inMid i then s else loseAt q i s
  | .corrected a column => ctrlCorrected (a / 262144) column s
  | .uncorrectable a c => ctrlUncorrectable (a / 262144) a c s

end Sys2Proof.Machine
end

