-- ==== Sys2Proof/Machine/Windows.lean ====
section
/-!
DEFINITION. The register windows of the units whose islands are gated apart from Mboter's: trunks (R541), engines (R540), CAN
channels (R542) and ports (R403, R538), what is captured of them when their island is gated (R26), and DEV_ISLANDS_OFF (R529).
-/
namespace Sys2Proof.Machine

/-- A word made of fields: each value with the bit at which it starts and its width. -/
def pack (fs : List (Nat × Nat × Nat)) : Nat := sumBy (fun f => f.1 % 2 ^ f.2.2 * 2 ^ f.2.1) fs
/-- A signed value in 32 bits. -/
def signed (v : Int) : Nat := (v % 4294967296).toNat
/-- The two halves of a 64-bit value. -/
def low32 (v : Nat) : Nat := v % 2 ^ 32
def high32 (v : Nat) : Nat := v / 2 ^ 32

/-- TRK window (R541). -/
def State.trkReg (s : State) (n off : Nat) : Nat :=
  let t := s.trunk n
  let g (i : Nat) : Nat := t.grant.getD i 0
  match off with
  | 0x00 => s.sqWord (aTrk n) + pack [(t.st.code, 20, 4), (t.st.link, 18, 2), (t.cfg.iface, 16, 2), (b2n t.cfg.ring, 15, 1),
      (b2n t.cfg.accept, 14, 1), (sat 255 t.missed, 0, 8)]
  | 0x04 => s.sqWord (aTrk n + 4) + t.nbId.toNat
  | 0x08 => t.cfg.etherType.toNat
  | 0x0C => s.sqWord (aTrk n + 12) + pack [(g 2, 16, 8), (g 1, 8, 8), (g 0, 0, 8)]
  | 0x10 => t.tx.toNat
  | 0x14 => t.rx.toNat
  | 0x18 => t.hdrErrs.toNat
  | 0x1C => t.fcsErrs.toNat
  | 0x20 => t.discards.toNat
  | _ => 0

/-- TE window (R540). -/
def State.teReg (s : State) (e off : Nat) : Nat :=
  let r := s.engine e
  let shown (m : Option Mig) (peer : Mig → Nat) : Nat :=
    match m with
    | some m => pack [(1, 16, 1), (m.group, 8, 8), (peer m, 0, 8)]
    | none => 0xFF
  match off with
  | 0x00 => s.sqWord (aTe e) + pack [(s.engState e, 21, 3), (r.clock, 19, 2), (b2n r.newCode, 18, 1), ((s.teGroups e).length, 8, 8)]
  | 0x04 => s.sqWord (aTe e + 4) + pack [(r.loadA, 10, 10), (r.loadAll, 0, 10)]
  | 0x08 => s.sqWord (aTe e + 8) + shown (s.moving.find? fun m => m.src == e) fun m => m.dst
  | 0x0C => s.sqWord (aTe e + 12) + shown (s.moving.find? fun m => m.dst == e) fun m => m.src
  | 0x10 => r.txns.toNat
  | 0x14 => r.missed.toNat
  | 0x18 => r.ucode.toNat
  | 0x1C => r.mw.toNat
  | _ => 0

/-- CAN window (R542). -/
def State.canReg (s : State) (ch off : Nat) : Nat :=
  let r := s.can ch
  let active : Bool := match r.master with | some m => m.active | none => false
  let bit (pre t1 t2 sjw : Nat) : Nat := pack [(pre, 22, 10), (t1, 14, 8), (t2 - 1, 7, 7), (sjw - 1, 0, 7)]
  match off with
  | 0x00 => s.sqWord (aCan ch) + pack [(r.st, 21, 3), (b2n r.fallen, 20, 1), (b2n r.alone, 19, 1), (b2n active, 18, 1),
      (b2n r.warning, 17, 1), (sat 255 r.txc, 8, 8), (sat 255 r.rxc, 0, 8)]
  | 0x04 => pack [(r.warnLim, 24, 8), (r.fallCnt, 16, 8), (r.tdcOff, 8, 7), (b2n r.stbOff, 6, 1), (b2n r.fallEn, 5, 1),
      (b2n r.tdc, 4, 1), (r.mode, 0, 3)]
  | 0x08 => bit r.nPre r.nT1 r.nT2 r.nSjw
  | 0x0C => bit r.dPre r.dT1 r.dT2 r.dSjw
  | 0x10 => s.sqWord (aCan ch + 0x10) + r.measured % 128
  | 0x14 => r.dupId.toNat
  | 0x18 => r.rx.toNat
  | 0x1C => r.tx.toNat
  | 0x20 => r.errFr.toNat
  | _ =>
    if 0x30 ≤ off ∧ off < 0x40 then maskOf ((upTo 32).filter fun i => (r.obj (8 * (off - 0x30) + i)).newData) else 0

/-- PORT window (R403, R538). A voltage and a current are measurements, which the spec does not state. -/
def State.portReg (s : State) (p off : Nat) : Nat :=
  let r := s.port p
  let d := r.pd
  match off with
  | 0x00 => s.sqWord (aPort p) + pack [(r.bus.code, 16, 4), (r.speed, 14, 2), (b2n r.cc2, 13, 1), (b2n r.shed, 12, 1),
      (r.owner, 10, 2), (r.tree.length, 0, 8)]
  | 0x04 => s.sqWord (aPortPd p) + pack [(d.st.code, 16, 3), (d.volt, 14, 2), (b2n d.ufp, 13, 1), (b2n d.wait, 12, 1),
      (b2n d.alt, 11, 1), (b2n r.reneg, 10, 1)]
  | 0x08 => pack [(s.senses.2, 16, 16), (s.senses.1, 0, 16)]
  | 0x0C => r.weight
  | 0x10 => r.attachSeq.toNat
  | 0x14 => pack [(s.ctxCountA p, 16, 16), (s.ctxCount p, 0, 16)]
  | 0x100 => (s.cfgAt (aPwrCfg p)).toNat
  | 0x104 => s.sqWord (aPwrStatus p) + pack [(r.sw.code, 20, 4), (b2n r.pg, 19, 1), (b2n r.atLimit, 18, 1), (b2n r.held, 17, 1),
      (b2n (r.sw == .latched || r.sw == .isolated), 16, 1), (b2n (r.sw == .isolated), 15, 1), (r.lastFault, 13, 2), (b2n r.latchRail, 12, 1)]
  | 0x108 => s.sqWord (aPortCal p) + pack [(r.ccTrim.toNat, 8, 8), (r.isnsTrim.toNat, 0, 8)]
  | _ => 0

/-! ### Gated windows (R26) -/

/-- The STATUS registers of an island's windows, as they read now. HA, HB and MI are gated only while no host port can read. -/
def State.windowRegs (s : State) (code : Nat) : List (Nat × Nat) :=
  let of (base : Nat) (offs : List Nat) (f : Nat → Nat) : List (Nat × Nat) := offs.map fun o => (base + o, f o)
  let words (n : Nat) : List Nat := (upTo n).map fun k => 4 * k
  if code < 0x10 then of (aTe code) (words 8) (s.teReg code)
  else if code < 0x20 then
    (s.pgPorts (code - 0x10)).flatMap fun p => of (aPort p) (words 6 ++ [0x104, 0x108]) (s.portReg p)
  else if code = 0x20 then (upTo s.nCans).flatMap fun c => of (aCan c) (words 9 ++ [0x30, 0x34, 0x38, 0x3C]) (s.canReg c)
  else if code = 0x21 then (upTo s.nTrunks).flatMap fun n => of (aTrk n) (words 9) (s.trkReg n)
  else []

/-- An island that is gated now leaves its windows as they stand; one that runs again shows live values. -/
def captureWindow (off : Bool) (code : Nat) (s : State) : State :=
  let regs := s.windowRegs code
  if off then { s with regHeld := regs.foldl (fun t e => tset t e.1 (BitVec.ofNat 32 e.2)) s.regHeld }
  else { s with regHeld := s.regHeld.filter fun e => regs.all fun x => x.1 != e.1 }

/-- DEV_ISLANDS_OFF follows the islands (R529), and so does what is captured of their windows. -/
def followIslands (s : State) : State :=
  let m := BitVec.ofNat 21 s.offMask
  if m = s.dev.islandsOff then s
  else
    let changed := s.islandBits.filter fun x => m.getLsbD x.1 != s.dev.islandsOff.getLsbD x.1
    foldS changed (fun x t => captureWindow (m.getLsbD x.1) x.2 t)
      (setSqc aDevIslands [21] (modDev (fun d => { d with islandsOff := m }) s))

end Sys2Proof.Machine
end

