-- ==== Sys2Proof/Machine/Start.lean ====
section
/-!
DEFINITION. Resets and starts (R76, R398 to R400, R497 to R507), Kindling mode (R503), warm restarts (R32, R505), firmware
slots and updates (R296, R297, R506), the life cycle, provisioning, the key store and TAMPER_N (R298, R299, R508 to R513).
-/
namespace Sys2Proof.Machine

/-! ### The boot record (R500, R506) -/

/-- OTP boot_threshold. -/
def State.bootThreshold (s : State) : Nat := s.otp.live.bootThreshold.getD 3

def countBoot (s : State) : State := modLich (fun l => { l with bootCount := sat 255 (l.bootCount + 1) }) s

/-- A trial ends: the previous slot is preferred again, provided it is valid (R506): a verify made it so, or it has passed at a start and
is unchanged since (notes/assumptions/166.md). -/
def endTrial (s : State) : State :=
  if s.lich.onTrial then
    let x := s.slot s.lich.trialPrev
    modLich (fun l => { l with onTrial := false, preferred := if x.st = 2 || x.passed then l.trialPrev else l.preferred }) s
  else s

/-- A slot becomes preferred and on trial. -/
def tryOut (k : Nat) (s : State) : State :=
  modLich (fun l => { l with preferred := k, onTrial := true, trialPrev := l.preferred }) s

/-- A slot whose erase or verify is cut short is invalid (R496). -/
def cutFlash (s : State) : State :=
  match s.fw.busy with
  | .erasing k _ _ => modFw (fun f => { f with busy := .idle }) (modSlot k (fun x => { x with st := 3, known := false, passed := false }) s)
  | .verifying k _ _ => modFw (fun f => { f with busy := .idle }) (modSlot k (fun x => { x with st := 3 }) s)
  | _ => s

/-! ### A logic-die reset (R76, R398, R232, R497) -/

/-- What stays of a port: its switch and contract in the power die, with a held Peat store its owner and policy, and with a
recovery descriptor too its stored tree (R76, R205, R232). Changes of service states that no EP_SERVICE has reported yet are forgotten:
a DESIGN CHOICE (notes/assumptions/185.md). -/
def resetPort (peat trees fresh : Bool) (r : Port) : Port :=
  let live := r.bus.powered && r.sw.active
  let held := if fresh then r.bus.powered && r.sw.isOn else r.held
  let keep := trees && live
  let base : Port :=
    { bus := if r.bus == .latchedOff then .latchedOff else if live then .recovering else .disabled,
      rd := r.rd, cc2 := r.cc2, accessory := r.accessory, speed := if keep then r.speed else 3, found := r.found,
      sw := r.sw, pg := r.pg, atLimit := r.atLimit, held := held, lastFault := r.lastFault, latchRail := r.latchRail,
      fetArmed := r.fetArmed, vbusMv := r.vbusMv, currMa := r.currMa, ccTrim := r.ccTrim, isnsTrim := r.isnsTrim }
  let d := r.pd
  { base with
    owner := if peat then r.owner else 0, policy := if peat then r.policy else {}, tree := if keep then r.tree else [],
    suspHub := if keep then r.suspHub else [], attachSeq := if peat then r.attachSeq else 0, logicRst := keep,
    weight := if live then r.weight else 0,
    pd := if live then { st := if d.volt = 0 then .noContract else .contract, sent5 := d.sent5, sent15 := d.sent15, volt := d.volt,
                         opMa := d.opMa, ufp := false } else {} }

/-- What stays of a queue with a held Peat store: its configuration and a middle in spill extents (R202, R543). -/
def resetQueue (spills : Bool) (q : Queue) : Queue :=
  { q with st := if q.st == .disabled then .disabled else .flow, head := [], mid := if spills then q.mid else [], tail := [],
           claimed := noneItem, readPos := 0, push := none, full := false, drops := 0, rate := 0, rateAt := 0, replayed := 0, pair := {} }

/-- A stored context: a bound one is DEFERRED with RECOVERING (R121), a change that EP_SERVICE counts (R122). -/
def resetCtx (c : Ctx) : Ctx :=
  { c with recovering := c.bound, wait := none, held := none, retry := 0, retryAt := none, slotAt := none, moving := false, split := 0, late := false,
           ping := false }

/-- The sources whose unit the power die keeps isolated (R383, R476). -/
def State.isolatedFlts (s : State) : Tab Flt :=
  let mark (sub : Nat) : Flt := { isolated := true, active := [sub] }
  (((upTo s.nPorts).filter fun p => (s.port p).sw == .isolated).map fun p => (p, mark 4)) ++
  (if s.feedA.isolated then [(120, mark 1)] else []) ++ (if s.feedB.isolated then [(121, mark 1)] else [])

/-- STATUS registers of the power die keep their sequences. -/
def keptSqc (a : Nat) : Bool :=
  a == aFeedStatus || a == aSeat || (decide (0x18000 ≤ a ∧ a < 0x1C000) && a % 0x200 == 0x104)

/-- Lock bits clear at RESET_N (R524). -/
def unlockAll (t : Tab Word) : Tab Word := t.map fun e => (e.1, e.2 &&& 0x7FFFFFFF#32)

/-- EVT_CFG settings come back from their record (R486). -/
def restoreEvents (s : State) : State :=
  match s.lich.evtRec with
  | some t => foldS t (fun e => setCfg (aEvtCfg e.1) (BitVec.ofNat 32 e.2.toNat)) s
  | none => s

/-- The logic die is reset. What runs in it is gone; the power die freezes the switches and starts tHOLD, unless it runs or has
expired already (R499). What the recovery descriptor's loss costs is settled at the start (R205). The new state is posted (R455), by
the routes of the EVT_CFG record (R486). -/
def logicReset (resetN : Bool) (s0 : State) : State :=
  let s := cutFlash s0
  let peat := s.peatInUse
  let fresh := !s.board.tHold && !s.board.expired
  let locks (t : Tab Word) : Tab Word := if resetN then unlockAll t else t
  let power : PowerState := if s.dev.power == .service && !s.feedPresent then .service else .run
  let fw := { s.fw with busy := .idle, updated := 0, coldDue := false }
  let s1 : State :=
    { part := s.part, otp := s.otp, pending := s.pending, free := s.free, wire := s.wire, lich := s.lich, feedA := s.feedA,
      feedB := s.feedB, svc := s.svc, sec := s.sec, power := { missing := s.power.missing },
      dev := { power := s.dev.power, phase := .reset, monoNs := s.dev.monoNs, lastL4 := s.dev.lastL4, resetLow := resetN,
               peatHeld := s.peatInUse },
      ports := s.ports.map fun e => (e.1, resetPort peat peat fresh e.2),
      ctxs := if peat then (s.ctxs.filter fun e => let r := s.port (epPort e.1); r.bus.powered && r.sw.active).map fun e => (e.1, resetCtx e.2)
        else [],
      queues := if peat then s.queues.map fun e => (e.1, resetQueue (s.spills e.2) e.2) else [],
      cans := s.cans.map fun e => (e.1, ({ owner := if peat then e.2.owner else 0 } : Can)),
      peat := { st := if s.peatInUse then 3 else 0, mib := s.peat.mib, held := s.peatInUse, ashMirror := s.peat.ashMirror, recBad := s.peat.recBad },
      time := { alt := s.time.alt, lastPulse := s.time.lastPulse, high := s.time.high }, flts := s.isolatedFlts, board := { s.board with tHold := s.board.tHold || fresh },
      fw := if resetN then { fw with slot0 := { fw.slot0 with known := false }, slot1 := { fw.slot1 with known := false } } else fw,
      cfg := locks s.cfgCopy, cfgCopy := locks s.cfgCopy, sqc := s.sqc.filter fun e => keptSqc e.1 }
  let s2 := foldS (upTo s.nTrunks) (fun n => emit (.phyReset n true)) (emit (.railEn true) (ppsFall (setPower power 0 (restoreEvents s1))))
  let s3 := foldS (upTo s.nCans) (fun c => emit (.canStb c true)) s2
  foldS (upTo s.nPorts) (fun p t => if (s.port p).pd.alt then emit (.sbuHighZ p) t else t) s3

/-- A logic-die reset from any cause but FW_ACTIVATE also ends a trial. -/
def dieReset (resetN : Bool) (s : State) : State := logicReset resetN (endTrial s)

/-- A start fails (R501): the ROM resets the logic die and starts again. -/
def failedStart (s : State) : State := dieReset false s

/-! ### Kindling mode (R400, R502, R503) -/

/-- OTP essential_ports; ignored under cause 5 (R504). -/
def State.essential (s : State) (cause p : Nat) : Bool := cause != 5 && (s.otp.live.essential.getD 0).getLsbD p

/-- A port at entry into Kindling mode: an essential port with Rd takes the low path, every other is off. -/
def kindlePort (cause p : Nat) (s : State) : State :=
  let r := s.port p
  let keep := s.essential cause p && r.rd.isSome && r.sw != .latched && r.sw != .isolated
  let s1 := modPort p (fun r =>
    { r with bus := if r.bus == .latchedOff then .latchedOff else .disabled, tree := [], held := false, logicRst := false, weight := 0, pd := {},
             suspHub := [] }) s
  if keep then
    match r.sw with
    | .hiRamp | .hiOn | .gap => modPort p (fun r => { r with sw := .stepdown, pg := false, atLimit := false }) s1
    | .off => closeLow p s1
    | _ => s1
  else openPaths p s1

/-- Trunks run from their saved configuration; without one a trunk stays OFF in Kindling mode (R302, R334). -/
def trunksStart (kindling : Bool) (s : State) : State :=
  let s1 := foldS (upTo s.nTrunks) (fun n => modTrunk n fun t => { t with cfg := (tfind n s.lich.trunks).getD {} }) s
  foldS (upTo s.nTrunks) (fun n t =>
    if (kindling && (tfind n s.lich.trunks).isNone) || (t.trunk n).cfg.iface = 0 || (t.trunk n).isolated || t.islandOff 0x21 then t
    else trunkOn n t) s1

/-- The ID in use at a cold start (R311). -/
def startId (s : State) : State :=
  modDev (fun d => { d with id := (s.lich.storedId.or s.otp.live.defaultId).getD 0 }) s

/-- In-band events that waited are delivered (R485). -/
def deliverWaiting (s : State) : State :=
  foldS s.fltWait (fun x t => storeEvent (if x.1 = 1 then .a else .b) x.2 t) { s with fltWait := [] }

/-- The START record, and the one that tells that the Ash log was lost before (R490, R502). -/
def startRecord (power cause : Nat) (s : State) : State :=
  let s1 := ashRecord 1 (power + 256 * cause) s
  if s.lich.ashLost then modLich (fun l => { l with ashLost := false }) (ashRecord 1 (power + 256 * 0xFF) s1) else s1

/-- The hold ends at entry into Kindling mode, as at tHOLD: the ports whose paths it holds are recorded, with the state that each takes
(R400; notes/assumptions/167.md). -/
def kindleHolds (cause : Nat) (s : State) : State :=
  let ps := if s.board.expired then [] else (upTo s.nPorts).filter fun p => (s.port p).sw.active
  let s1 := modBoard (fun b => { b with holdDue := b.holdDue ++ ps.map fun p => (p, b2n (s.essential cause p && (s.port p).rd.isSome)) }) s
  if ps.isEmpty then s1 else ashRecord 5 (maskOf ps) s1

/-- The ROM enters Kindling mode from the start at hand. -/
def kindle (cause : Nat) (s0 : State) : State :=
  let s := kindleHolds cause s0
  let s1 := modLich (fun l => { l with kindling := cause }) (modDev (fun d => { d with phase := .kindling, version := 0, upNs := 0 }) s)
  let s2 := foldS (upTo s.nPorts) (kindlePort cause) (modBoard (fun b => { b with tHold := false, expired := false }) s1)
  let s3 := setPower .kindling 0 (unbindAll (stbAll true (cnOff { s2 with ctxs := [] })))
  svcAttach (trunksStart true (startId (startRecord 5 cause (postHolds (deliverWaiting s3)))))

/-- Kindling mode for a cause, with the time unit on the reference at hand. -/
def kinStart (cause : Nat) (s : State) : State := kindle cause (timeStart s.time.alt s)

/-- Kindling mode is entered from a running device: a logic-die reset, then the measures (R503). -/
def enterKindling (cause : Nat) (s : State) : State := kinStart cause (dieReset false s)

/-! ### Cold start (R497, R498, R556) -/

/-- The Lichen island finds a record's CRC wrong: its defaults are written (R490, R556). -/
def lostRecord (off : Nat) (s : State) : State :=
  let s1 : State :=
    if off = 0 then modLich (fun l => { l with ash := if s.peat.held then s.peat.ashMirror else {}, ashLost := true }) s
    else if off = 12288 then modLich (fun l =>
      { l with bootCount := 0, preferred := 0, onTrial := false, trialPrev := 0, kindling := 0, sleepSeq := 0, insertions := 0, storedId := none }) s
    else if off = 12352 then modLich (fun l => { l with timeCopy := none, fXtal := none, fAlt := none }) s
    else if 12416 ≤ off ∧ off < 12672 then modLich (fun l => { l with trunks := tdel l.trunks ((off - 12416) / 64) }) s
    else if off = 12672 then modLich (fun l => { l with evtRec := none }) s
    else if off = 12992 then modLich (fun l => { l with scratch := [] }) s
    else if off = 13056 then lostRepairs s
    else s
  if off = 0 then s1 else ashRecord 7 off s1
where
  /-- Soft repairs are not applied, and their banks are isolated again (R558). -/
  lostRepairs (s : State) : State :=
    foldS s.lich.repairs (fun x t =>
      if x.1 < 16 then modFlt (srcPbank x.1) (fun f => { f with isolated := true }) (modPbank x.1 (fun b => { b with st := 3 }) t)
      else modFlt (srcCbank (x.1 - 16)) (fun f => { f with isolated := true }) (modCbank (x.1 - 16) (fun b => { b with st := 3 }) t))
      (modLich (fun l => { l with repairs := [] }) s)

/-- What the ROM makes of a slot it tries: only a verify makes a slot valid (R297), so an image of unknown status counts as written
(notes/assumptions/166.md). -/
def slotState (f : SlotFound) (x : Slot) : Slot :=
  match f with
  | .noAnswer => { x with st := 0, passed := false }
  | .empty => { x with st := 0, passed := false }
  | .badFormat => { x with st := 3, passed := false }
  | .badSignature => { x with st := 3, passed := false }
  | .valid v u => { x with st := if x.st = 0 then 1 else x.st, version := v, ucode := u, passed := true }

def slotFails (f : SlotFound) : Bool :=
  match f with | .badFormat => true | .badSignature => true | _ => false
def slotValid (f : SlotFound) : Bool :=
  match f with | .valid _ _ => true | _ => false

/-- The slots in the order the ROM tries them, until one is valid (R498). -/
def trySlots (env : StartEnv) (first : Nat) : List (Nat × SlotFound) :=
  let found (k : Nat) : SlotFound := if k = 0 then env.slot0 else env.slot1
  if slotValid (found first) then [(first, found first)] else [(first, found first), (1 - first, found (1 - first))]

/-- Step 6: the boot counter counts and Mboter starts. -/
def startMboter (k : Nat) (s : State) : State :=
  let x := s.slot k
  let s1 := countBoot (modLich (fun l => { l with kindling := 0 }) s)
  let s2 := modFw (fun f => { f with running := k, ucode := x.ucode })
    (modDev (fun d => { d with phase := .starting, version := x.version, upNs := 0 }) s1)
  startRecord s2.dev.power.code 0 (timeStart s2.time.alt s2)

/-- The Peat store at the memory step: not started in SERVICE, kept in self-refresh there if it was held (R451). -/
def startPeat (ok : Bool) (s : State) : State := if s.dev.power == .service then s else peatInit ok s

/-- Steps 4 to 6 of Table — Cold start: Kindling mode for a cause, or the image of the first slot that passes. -/
def tryStart (env : StartEnv) (s : State) : State :=
  if s.otp.lifeCycle = 3 then kinStart 5 s
  else if !env.otpOk then kinStart 6 s
  else if s.bootThreshold ≤ s.lich.bootCount then kinStart 1 s
  else
    let tried := trySlots env s.lich.preferred
    let s1 := foldS tried (fun x t =>
      let u := modSlot x.1 (slotState x.2) t
      if slotFails x.2 then raise 138 1 u else u) s
    match tried.find? fun x => slotValid x.2 with
    | some x => startMboter x.1 (startId (startPeat (env.peatOk && !env.banks.contains 24) s1))
    | none => kinStart (if tried.all (fun x => x.2 == .noAnswer) then 3 else 2) s1

/-- The reference of a start: XTAL_IN, else CLKIN_ALT after the step's 5 ms (R439, R467). -/
def startClock (xtal : Bool) (s : State) : State :=
  if xtal then modTime (fun t => { t with alt := false }) s else stepTimeout 2 0xFF 5000 (refSwitch s)

/-- The memory and logic steps of a start: a bank or the Peat store that is not ready, and an island that does not report ready (R467,
R497). -/
def startSteps (env : StartEnv) (s : State) : State :=
  let s1 := foldS env.banks (fun r t => stepTimeout 3 0xFF 1000 (if r < 24 then bankFails r t else t)) s
  foldS env.islands (fun i t => stepTimeout 5 i 200 (raise (islandSrc i) 4 t)) s1

/-- The Lichen island's records as the start finds them; one that fails its CRC is gone (R556). The settings of an EVT_CFG record that is
lost go with it. -/
def startRecords (env : StartEnv) (s : State) : State :=
  let bare (t : Tab Word) : Tab Word := t.filter fun e => !decide (0x03000 ≤ e.1 ∧ e.1 < 0x03400)
  restoreEvents (let t := foldS env.badRecords lostRecord s; { t with cfg := bare t.cfg })

/-- COLD_START: the ROM runs from the release of the reset to its choice (R201, R497 to R503). -/
def coldStart (env : StartEnv) (s : State) : State :=
  if s.dev.phase != .reset || !s.coreRails || (s.dev.power == .service && !s.svc.gate) then s
  else
    let s1 := startRecords env
      (modDev (fun d => { d with resetLow := false }) { s with otp := { s.otp with live := s.otp.fields } })
    if (!env.xtal && !env.clkAlt) || env.islands.contains 0x24 || env.islands.contains 0x25 then
      modPower (fun w => { w with retry := true }) s1
    else tryStart env (startSteps env (startClock env.xtal (modPower (fun w => { w with retry := false }) s1)))

/-! ### Mboter reports ready (R32, R43, R76, R399, R463) -/

/-- A port after a start: recovery, the reset path, or R43. RECOVERING with held power goes to RESUMING or RESETTING (R42): a port with
no stored instrument (POWER_ONLY, CONNECT_WAIT or enumerating at the reset), and every port when the recovery descriptor is lost (R205),
takes RESETTING (notes/assumptions/88.md). -/
def portReady (peat expired : Bool) (failed : List Nat) (p : Nat) (s : State) : State :=
  let r := s.port p
  match r.bus with
  | .recovering =>
    let valid := r.held && peat && !expired && !failed.contains p
    if valid && !r.tree.isEmpty then
      emit (.busK p) (modPort p (fun r =>
        { r with bus := .resuming, held := false, resume := some { loc := .root, byHost := false, byInst := false, recovery := true } }) s)
    else if r.held && !expired then recoveryFails p (modPort p (fun r => { r with held := false }) s)
    else
      let s1 := modPort p (fun r => { r with held := false, logicRst := false }) (freeTree p 4 s)
      let anew : PdRec := { caps := r.pd.caps }
      let wait (pd : PdRec) (t : State) : State := modPort p (fun r => { r with bus := .powering, pd := pd, weight := r.rpWeight }) t
      match r.sw with
      | .loOn | .hiOn =>
        if !r.pg then wait (if r.held then r.pd else anew) s1
        else if r.held && r.pd.st == .contract then modPort p (fun r => { r with bus := .connectWait }) s1
        else startCaps p (modPort p (fun r => { r with bus := .connectWait }) (wait anew s1))
      | .stepdown | .loRamp => wait anew s1
      | _ => toUnattached p (openPaths p (releasePd p s1))
  | .disabled => portStart p s
  | _ => s

/-- The groups that a warm restart kept waiting are placed (R32). -/
def claimWaiting (s : State) : State :=
  foldS (s.byRank ((s.ctxs.map fun e => epGroup e.1).eraseDups.filter fun g => (s.engineOf g).isNone)) claimGroup s

/-- A warm restart is over: what waited goes on (R32, R485, R505, R506). -/
def warmReady (w : Warm) (s : State) : State :=
  let s1 := modDev (fun d => { d with phase := .ready, version := (s.slot w.slot).version })
    (modFw (fun f => { f with running := w.slot, ucode := (s.slot w.slot).ucode }) { s with warm := none })
  let s2 := finishKey (keyDev 0x7) stOk [] (ledgerReady (claimWaiting (sendsReady (deliverWaiting s1))))
  match s.fw.busy with
  | .restarting _ h tag =>
    if w.fellBack then finishOp h tag stAborted [0, 0] (modFw (fun f => { f with busy := .idle }) s2)
    else modFw (fun f => { f with busy := .updating h tag, updated := 0 }) s2
  | _ => s2

/-- Every engine of a fresh start runs the loaded microcode. -/
def loadUcode (s : State) : State :=
  foldS (upTo s.nEngines) (fun e => modEngine e fun r => { r with ucode := s.fw.ucode, newCode := false }) s

/-- Step 2 of the resumption: the groups of the ports that resume are placed, in the order of R138 (R78, R592). -/
def claimStored (peat expired : Bool) (failed : List Nat) (s : State) : State :=
  let ok (p : Nat) : Bool := let r := s.port p; r.bus == .recovering && r.held && peat && !expired && !failed.contains p
  foldS (s.byRank ((s.ctxs.filter fun e => ok (epPort e.1)).map fun e => epGroup e.1).eraseDups) claimGroup s

/-- The ports, trunks, grid and service function of a start. -/
def startUnits (failed : List Nat) (s : State) : State :=
  let peat := s.peat.held && s.peatInUse && !s.peat.recBad
  let expired := s.board.expired
  let s1 := gridStart (modBoard (fun b => { b with tHold := false, expired := false }) s)
  let s2 := if s1.dev.power == .service then s1 else foldS (upTo s.nPorts) (portReady peat expired failed) (claimStored peat expired failed s1)
  let s3 := modPeat (fun m => { m with recBad := false }) s2
  svcAttach (if s3.dev.power == .service then s3 else stbAll false (trunksStart false s3))

/-- Mboter reports ready. -/
def mboterReady (failed : List Nat) (s : State) : State :=
  match s.dev.phase with
  | .starting => postHolds (deliverWaiting (startUnits failed (loadUcode (modDev (fun d => { d with phase := .ready }) s))))
  | .warm => (match s.warm with | some w => warmReady w s | none => s)
  | .waking =>
    match s.power.wake with
    | some w =>
      if w.step = 6 then
        let s1 := if w.left == .service then peatInit true s else s
        let s2 := modDev (fun d => { d with phase := .ready }) s1
        let s3 := deliverWaiting (cnOn (tkOn (railsUp (startUnits failed (wakeDone w (wakeEngines s2))))))
        if w.left == .doze then
          finishKey (keyDev 0xB) stOk (powerResult .run 0xFF 0 w.cause)
            (resumeTrees s.power.dozeTrees (modPower (fun x => { x with dozeTrees := [] }) s3))
        else s3
      else s
    | none => s
  | _ => s

/-- Mboter is not ready within its limit, or the core raises an exception it cannot handle (R501, R505). -/
def startLate (s : State) : State :=
  match s.dev.phase with
  | .starting => failedStart s
  | .waking => (match s.power.wake with
    | some w => if w.step = 6 then stepTimeout 6 0xFF 300000 (failedStart s) else s
    | none => s)
  | _ => s

/-! ### Warm restart (R32, R505) -/

/-- The cores stop and reload from a slot. Migrations that are not handed off are abandoned, with MIGRATION_ABORTED for each: the
Stoker holds placement (R32, R145). -/
def warmRestart (slot : Nat) (update : Bool) (s : State) : State :=
  let s1 := foldS s.moving (fun m => abandonMig m.group) s
  modDev (fun d => { d with phase := .warm })
    { s1 with warm := some { slot := slot, before := s.fw.running, update := update } }

/-- The reloaded Mboter is not ready within 300 ms: the slot that ran before, then a failed start. -/
def warmLate (s : State) : State :=
  match s.dev.phase, s.warm with
  | .warm, some w =>
    if w.fellBack then failedStart s
    else
      let s1 := countBoot { s with warm := some { w with slot := w.before, fellBack := true } }
      if w.update then endTrial s1 else s1
  | _, _ => s

/-- An L4 action ends a running FW_STAGE (R505) and an update's restart is its own. -/
def endStage (s : State) : State :=
  match s.fw.busy with
  | .erasing _ h tag => finishOp h tag stAborted [] (cutFlash s)
  | .verifying _ h tag => finishOp h tag stAborted [] (cutFlash s)
  | _ => s

/-- The sources that fail a start: LOCKSTEP and MBOTER_WATCHDOG (R501). -/
def failsStart (src : Nat) : Bool := src == 134 || src == 137

/-- The action of L4 (R476, R477, R501): 60 s count, Kindling mode at the threshold. Before Mboter is ready LOCKSTEP and MBOTER_WATCHDOG
fail the start, and no other fault takes the warm restart. -/
def actionL4 (src : Nat) (s : State) : State :=
  let soon := match s.dev.lastL4 with | some t => decide (s.dev.monoNs < t + 60000000000) | none => false
  let s1 := modDev (fun d => { d with lastL4 := some s.dev.monoNs }) (if soon then countBoot s else s)
  match s.dev.phase with
  | .ready =>
    if soon && decide (s1.bootThreshold ≤ s1.lich.bootCount) then enterKindling 1 (ashRecord 6 5 s1)
    else warmRestart s1.fw.running false (endTrial (endStage (ashRecord 6 4 s1)))
  | .warm => if soon && decide (s1.bootThreshold ≤ s1.lich.bootCount) then enterKindling 1 (ashRecord 6 5 s1) else s1
  | .starting => if failsStart src then failedStart s else s
  | .waking => if failsStart src then startLate s else s
  | _ => s

/-- The action of L5 (R478, R501). -/
def actionL5 (src : Nat) (s : State) : State :=
  match s.dev.phase with
  | .ready => enterKindling 4 (ashRecord 6 5 s)
  | .warm => enterKindling 4 (ashRecord 6 5 s)
  | .starting => if failsStart src then failedStart s else enterKindling 4 (ashRecord 6 5 s)
  | .waking => if failsStart src then startLate s else enterKindling 4 (ashRecord 6 5 s)
  | _ => s

/-- Mboter has been ready for 60 s without an L4 action (R500). -/
def bootCleared (s : State) : State :=
  if s.ready then modLich (fun l => { l with bootCount := 0, onTrial := false }) s else s

/-- RESET_N stays low for 1 s (R500). -/
def longReset (s : State) : State :=
  if s.dev.resetLow then modLich (fun l => { l with bootCount := 0 }) s else s

/-- A provisioning field takes its value (R299, R512). -/
def Fields.write (f : Fields) (k : Nat) (v : Word) : Fields :=
  let h := v.setWidth 16
  match k with
  | 1 => { f with usbVid := some h }
  | 2 => { f with usbPid := some h }
  | 3 => { f with timebaseSvid := some h }
  | 4 => { f with holdTime := some v.toNat }
  | 5 => { f with safeState := some v.toNat }
  | 6 => { f with bootThreshold := some v.toNat }
  | 7 => { f with essential := some v }
  | 8 => { f with disabled := some v }
  | 9 => { f with defaultId := some h }
  | _ => f

/-- The power die starts from VDD_PD (R18): only OTP, fuses and flash outlive the absence of every source. -/
def fromNothing (phase : Phase) (s : State) : State :=
  { part := s.part, otp := s.otp, pending := s.pending, free := s.free, wire := s.wire,
    fw := { slot0 := s.fw.slot0, slot1 := s.fw.slot1 }, dev := { phase := phase } }
def powerOn (s : State) : State := if s.dev.phase == .off then emit (.railEn true) (fromNothing .reset s) else s

/-- An OTP write that the supply leaves: the old value or the new one stands, never another (R509). -/
def cutOtp (s : State) : State :=
  match s.otp.writing with
  | none => s
  | some w =>
    let t := useFree { s with otp := { s.otp with writing := none } }
    if Config.freeNat s.free % 2 = 0 then t
    else match w with
    | .field f v => { t with otp := { t.otp with fields := t.otp.fields.write f v } }
    | .lifeCycle l => { t with otp := { t.otp with lifeCycle := l } }
def sourcesLost (s : State) : State := fromNothing .off (cutOtp (cutFlash s))

/-! ### DEV_WARM_RESTART (R273, R505) -/

def State.stageRuns (s : State) : Bool :=
  match s.fw.busy with | .erasing _ _ _ => true | .verifying _ _ _ => true | _ => false

def devWarmRestartCmd : CmdSpec :=
  { len := 4, bad := fun c _ => !zeros c.params [(0, 4)],
    run := fun _ s =>
      if s.stageRuns then (s, .final stLocked [])
      else (warmRestart s.fw.running false s, .running stAccepted (keyDev 0x7) []) }

/-! ### FW_STAGE, FW_ACTIVATE, FW_STATUS (R296, R297, R495, R496, R506, R507) -/

/-- A slot that FW_STAGE may not touch. -/
def State.slotHeld (s : State) (k : Nat) : Bool :=
  (s.dev.phase != .kindling && s.fw.running == k) ||
  (match s.fw.busy with
   | .idle => false
   | .mixed => false
   | .erasing _ _ _ => true
   | .verifying _ _ _ => true
   | .restarting j _ _ => j == k
   | .updating _ _ => s.fw.running == k)

/-- Flash bytes after a page program: 1 bits become 0 (R496). -/
def program (off : Nat) (bs : List Byte) (x : Slot) : Slot :=
  let at_ := (upTo bs.length).zip bs
  let twice := at_.any fun e => (tfind (off + e.1) x.bytes).isSome
  let put (t : List Host.Cell) (e : Nat × Byte) : List Host.Cell :=
    tset t (off + e.1) (match tfind (off + e.1) t with | some o => o &&& e.2 | none => e.2)
  { x with st := 1, bytes := at_.foldl put x.bytes, spoilt := x.spoilt || twice, passed := false }

def fwStageCmd : CmdSpec :=
  { len := 8,
    bad := fun c _ =>
      let a := byteAt c.params 1
      decide (1 < byteAt c.params 0) || decide (2 < a) || !zeros c.params [(2, 2)] || field c.params 4 4 % 4 != 0 ||
      (a == 1 && decide (4194304 < field c.params 4 4 + ((c.params.drop 8).take 224).length)),
    run := fun c s =>
      let k := byteAt c.params 0
      if s.otp.lifeCycle = 3 ∨ s.slotHeld k = true then (s, .final stLocked [])
      else match byteAt c.params 1 with
      | 0 => (modFw (fun f => { f with busy := .erasing k c.host c.tag }) s, .running stAccepted (keySlot k) [])
      | 1 => (modSlot k (program (field c.params 4 4) ((c.params.drop 8).take 224)) s, .final stOk [])
      | _ => (modFw (fun f => { f with busy := .verifying k c.host c.tag }) s, .running stAccepted (keySlot k) []) }

/-- A slot erase completes, or exceeds 30 s. -/
def eraseEnds (inTime : Bool) (s : State) : State :=
  match s.fw.busy with
  | .erasing k h tag =>
    let s1 := modFw (fun f => { f with busy := .idle }) s
    if inTime then finishOp h tag stOk [] (modSlot k (fun _ => { known := true }) s1)
    else finishOp h tag stTimeout [] (modSlot k (fun x => { x with st := 3, known := false, passed := false }) s1)
  | _ => s

/-- Bytes of a slot's flash; a byte that is not programmed since the erase reads 0xFF. -/
def Slot.read (x : Slot) (off n : Nat) : List Byte := (upTo n).map fun i => (tfind (off + i) x.bytes).getD 0xFF

/-- Whether a header keeps to Table — Image header (R494). -/
def headerOk (h : List Byte) : Bool :=
  let body := field h 12 4
  let section_ (o : Nat) : Bool := decide (field h o 4 + field h (o + 4) 4 ≤ body)
  field h 0 4 == 0x4D425452 && field h 4 2 == 1 && decide (field h 6 2 ≤ 1) && body % 4 == 0 && decide (body ≤ 4194048) &&
  section_ 16 && section_ 24 && decide (byteAt h 32 ≤ 63) && zeros h [(33, 3), (40, 24), (192, 64)] &&
  (field h 6 2 == 1 || zeros h [(128, 64)])

/-- In FIELD an image must be countersigned with a key that the key store holds (R495). -/
def State.counterOk (s : State) (h : List Byte) : Bool :=
  s.otp.lifeCycle != 2 || (field h 6 2 == 1 && (tfind (byteAt h 32) s.sec.keys).isSome)

/-- The result of a verify (R296, R494 to R496). What the header says is computed where the slot's content is known, since its last erase;
whether a signature over it holds is the operand's `r`. -/
def State.verifyCode (s : State) (k : Nat) (r : VerifyEnd) : Nat :=
  let x := s.slot k
  let h := x.read 0 256
  if x.known && !headerOk h then 2
  else if !x.known && r == .badFormat then 2
  else if x.spoilt || r != .valid || (x.known && !s.counterOk h) then 1
  else 0

/-- A slot verify ends (R495, R496). -/
def verifyEnds (r : VerifyEnd) (version ucode compat : Word) (s : State) : State :=
  match s.fw.busy with
  | .verifying k h tag =>
    let x := s.slot k
    let code := s.verifyCode k r
    let ver := if x.known then BitVec.ofNat 32 (field (x.read 8 4) 0 4) else version
    let com := if x.known then BitVec.ofNat 32 (field (x.read 36 4) 0 4) else compat
    let s1 := modSlot k (fun x => { x with st := if code = 0 then 2 else 3, version := ver, ucode := ucode, compat := com })
      (modFw (fun f => { f with busy := .idle }) s)
    finishOp h tag stOk (u8 code ++ [0, 0, 0] ++ u32 ver.toNat) s1
  | _ => s

/-- The engines that still run other microcode than the slot's (R506). -/
def State.oldEngines (s : State) : List Nat := s.engineList.filter fun e => (s.engine e).ucode != s.fw.ucode

/-- An update goes on: gated engines take the microcode at once, the next other engine in index order is evacuated and
tested, and with none left the command completes (R506). -/
def updateNext (s : State) : State :=
  match s.fw.busy with
  | .updating h tag =>
    if !s.ready || s.test.any (fun t => t.isUpdate) || s.testQ.any (fun t => t.isUpdate) then s
    else
      let gated := s.oldEngines.filter fun e => (s.engine e).gated
      let s1 := foldS gated (fun e => modEngine e fun r => { r with ucode := s.fw.ucode, newCode := true }) s
      let s2 := modFw (fun f => { f with updated := f.updated + gated.length }) s1
      if s2.abortAsked h tag then abortOp h tag (u8 s2.fw.updated ++ u8 7) (modFw (fun f => { f with busy := .mixed }) s2)
      else match s2.oldEngines with
      | e :: _ => askTest { unit := .engine e, who := .update tag } s2
      | [] =>
        let s3 := foldS (upTo s2.nEngines) (fun e => modEngine e fun r => { r with newCode := false }) s2
        finishOp h tag stOk (u8 s3.fw.updated ++ u8 0) (modFw (fun f => { f with busy := .idle }) s3)
  | _ => s

def fwActivateCmd : CmdSpec :=
  { len := 4,
    bad := fun c s =>
      let k := byteAt c.params 0
      let m := byteAt c.params 1
      decide (1 < k) || decide (1 < m) || !zeros c.params [(2, 2)] ||
        (m == 0 && (s.dev.phase == .kindling || s.dev.power == .service)),
    run := fun c s =>
      let k := byteAt c.params 0
      if s.otp.lifeCycle = 3 then (s, .final stLocked [])
      else if s.fwRuns then (s, .final stLocked [])
      else if (s.slot k).st != 2 then (s, .final stBadParam [])
      else if byteAt c.params 1 = 1 then
        (modFw (fun f => { f with coldDue := true }) (tryOut k (modLich (fun l => { l with bootCount := 0 }) s)), .event stOk [0, 3])
      else if k = s.fw.running then
        if s.oldEngines.isEmpty then (s, .final stAlready [])
        else (modFw (fun f => { f with busy := .updating c.host c.tag, updated := 0 }) (if s.lich.preferred = k then s else tryOut k s), .running stAccepted (keyDev 0xB01) [])
      else if s.fw.ucode.toNat < (s.slot k).compat.toNat then (s, .final stBadParam [])
      else
        (warmRestart k true (tryOut k (modFw (fun f => { f with busy := .restarting k c.host c.tag, updated := 0 }) s)),
         .running stAccepted (keyDev 0xB01) []) }

/-- FW_STATUS byte 0 (R296): an update waits while its request does, first in turn or behind another (R166, R168). -/
def State.fwState (s : State) : Nat :=
  match s.fw.busy with
  | .idle => 0
  | .erasing _ _ _ => 1
  | .verifying _ _ _ => 2
  | .restarting _ _ _ => 3
  | .updating _ _ =>
    (if (s.test.any fun t => t.isUpdate && t.stage == 0) || s.testQ.any (fun t => t.isUpdate) then (if s.loadHolds then 6 else 5)
     else 4)
  | .mixed => 7

def fwStatusCmd : CmdSpec :=
  { len := 0,
    run := fun _ s =>
      (s, .final stOk (u8 s.fwState ++ u8 s.fw.running ++ u8 s.fw.slot0.st ++ u8 s.fw.slot1.st ++ u32 s.fw.slot0.version.toNat ++
        u32 s.fw.slot1.version.toNat ++ u16 (maskOf ((upTo s.nEngines).filter fun e => (s.engine e).newCode)) ++ [0, 0])) }

/-! ### Life cycle and provisioning (R298, R299, R508, R512, R513) -/

/-- Zeroisation starts (R511). -/
def zeroise (s : State) : State := { s with sec := { s.sec with keys := [], zeroising := true } }

/-- The transitions of R298. -/
def State.mayMove (s : State) (t : Nat) : Bool :=
  (t == s.otp.lifeCycle + 1 && decide (t ≤ 2)) || (t == 3 && s.otp.lifeCycle != 3)

/-- SEC_LIFECYCLE; a transition that another command has made impossible since acceptance is refused (R298, R508). -/
def secLifecycleCmd : CmdSpec :=
  { len := 8,
    bad := fun c s =>
      let t := byteAt c.params 0
      !zeros c.params [(1, 3)] || field c.params 4 4 != 0x5A5A0000 + t || !s.mayMove t,
    run := fun c s =>
      if s.otp.writing.isSome then (s, .final stLocked [])
      else if !s.mayMove (byteAt c.params 0) then (s, .final stBadParam [])
      else ({ s with otp := { s.otp with writing := some (.lifeCycle (byteAt c.params 0)) } }, .running stAccepted (keyDev 0xB03) []) }

/-- Whether a provisioning field is written. -/
def Fields.written (f : Fields) : Nat → Bool
  | 1 => f.usbVid.isSome | 2 => f.usbPid.isSome | 3 => f.timebaseSvid.isSome | 4 => f.holdTime.isSome | 5 => f.safeState.isSome
  | 6 => f.bootThreshold.isSome | 7 => f.essential.isSome | 8 => f.disabled.isSome | 9 => f.defaultId.isSome | _ => false

/-- A value outside a field's range (R299, R513). -/
def provisionBad (f v : Nat) : Bool :=
  match f with
  | 1 => v == 0 || decide (0xFFFF < v)
  | 2 => decide (0xFFFF < v)
  | 3 => v == 0 || v == 0xFF00 || decide (0xFFFF < v)
  | 4 => decide (v < 5 ∨ 300 < v)
  | 5 => decide (1 < v)
  | 6 => decide (v < 2 ∨ 7 < v)
  | 7 => false
  | 8 => false
  | 9 => v == 0 || decide (0xFFFE < v)
  | _ => true

def secProvisionCmd : CmdSpec :=
  { len := 8,
    bad := fun c _ => !zeros c.params [(1, 3)] || provisionBad (byteAt c.params 0) (field c.params 4 4),
    run := fun c s =>
      let f := byteAt c.params 0
      if s.otp.fields.written f || decide (2 ≤ s.otp.lifeCycle) || (s.cfgAt aSecGuard).getLsbD 0 || s.otp.writing.isSome then
        (s, .final stLocked [])
      else ({ s with otp := { s.otp with writing := some (.field f (BitVec.ofNat 32 (field c.params 4 4))) } },
            .running stAccepted (keyDev 0xB05) []) }

/-- An OTP write completes; a new life cycle zeroises the key store (R509). -/
def otpWritten (s : State) : State :=
  match s.otp.writing with
  | none => s
  | some (.field f v) => finishKey (keyDev 0xB05) stOk [] { s with otp := { s.otp with writing := none, fields := s.otp.fields.write f v } }
  | some (.lifeCycle t) =>
    finishKey (keyDev 0xB03) stOk (u8 t) (zeroise { s with otp := { s.otp with writing := none, lifeCycle := t } })

/-! ### The key store (R510, R511, R554) -/

/-- The prime and the constant b of P-256. -/
def p256p : Nat := 0xFFFFFFFF00000001000000000000000000000000FFFFFFFFFFFFFFFFFFFFFFFF
def p256b : Nat := 0x5AC635D8AA3A93E7B3EBBD55769886BC651D06B0CC53B0F63BCE3C3E27D2604B

/-- A big-endian number. -/
def beNat (bs : List Byte) : Nat := leNat bs.reverse

/-- The point x, y (both big-endian, R554) lies on the curve. -/
def onCurve (key : List Byte) : Bool :=
  let x := beNat (key.take 32)
  let y := beNat ((key.drop 32).take 32)
  decide (x < p256p) && decide (y < p256p) && y * y % p256p == (x * x * x + (p256p - 3) * x + p256b) % p256p

def secKeyCmd : CmdSpec :=
  { len := 4,
    bad := fun c _ =>
      let a := byteAt c.params 0
      decide (2 < a) || decide (63 < byteAt c.params 1) || !zeros c.params [(3, 1)] ||
      (a == 0 && (decide (c.params.length < 68) || byteAt c.params 2 != 1 || !onCurve ((c.params.drop 4).take 64))),
    run := fun c s =>
      let k := byteAt c.params 1
      let shut := s.sec.zeroising || s.sec.tamperLow
      match byteAt c.params 0 with
      | 0 =>
        if shut || s.otp.lifeCycle = 0 || s.otp.lifeCycle = 3 then (s, .final stLocked [])
        else ({ s with sec := { s.sec with keys := tset s.sec.keys k ((c.params.drop 4).take 64) } }, .final stOk [])
      | 1 =>
        if shut then (s, .final stLocked []) else ({ s with sec := { s.sec with keys := tdel s.sec.keys k } }, .final stOk [])
      | _ =>
        if shut then (s, .final stLocked [])
        else (s, .final stOk (u64 (maskOf (s.sec.keys.map fun e => e.1)) ++
          u32 (crc32c ((tfind k s.sec.keys).getD (List.replicate 64 0))).toNat)) }

/-- TAMPER_N low for 1 µs (R511). -/
def tamper (s : State) : State :=
  raise 156 1 (setSqc aSec [13] (zeroise { s with sec := { s.sec with tamperLow := true } }))
def tamperEnds (s : State) : State :=
  if s.sec.tamperLow then clearFlt 156 1 { s with sec := { s.sec with tamperLow := false } } else s

/-- The read-back of a zeroisation. -/
def readBack (zero : Bool) (s : State) : State :=
  if !s.sec.zeroising then s
  else if zero then setSqc aSec [12] { s with sec := { s.sec with zeroising := false } }
  else setSqc aSec [11] (zeroise s)

end Sys2Proof.Machine
end

