-- ==== Sys2Proof/Machine/Settings.lean ====
section
/-!
DEFINITION. CONFIG registers: which addresses they are, what a write of each accepts, lock bits, writes held for a gated
island, the LICH write queue, and parity (R26, R403, R518, R522 to R526, R530, R532, R533, R537).
-/
namespace Sys2Proof.Machine

/-! ### Which registers -/

/-- PORT_PWR_CFG of a port, by address. -/
def cfgPort (a : Nat) : Option Nat :=
  if 0x18000 ≤ a ∧ a < 0x1C000 ∧ a % 0x200 = 0x100 then some ((a - 0x18000) / 0x200) else none

/-- LICH_SCRATCHk, by address. -/
def scratchOf (a : Nat) : Option Nat := if 0x06020 ≤ a ∧ a < 0x06030 ∧ a % 4 = 0 then some ((a - 0x06020) / 4) else none

/-- The address holds a CONFIG register of a present unit. -/
def State.isConfig (s : State) (a : Nat) : Bool :=
  (decide (0x03000 ≤ a ∧ a < 0x03400) && a % 4 == 0) || a == aFltPolicy || a == aPwrmGuard || a == aSecGuard || a == aPpsCfg ||
  a == aFeedCfg .a || a == aFeedCfg .b || a == aHostCtrl .a || a == aHostCtrl .b || (scratchOf a).isSome ||
  (match cfgPort a with | some p => s.hasPort p | none => false)

/-- Implemented bits of a CONFIG register: reserved bits read 0 and are written as 0 (R15). -/
def cfgMask (a : Nat) : Word :=
  if 0x03000 ≤ a ∧ a < 0x03400 then 0x37#32
  else if a = aFltPolicy then 0x800000FF#32
  else if a = aPwrmGuard ∨ a = aSecGuard then 0x80000003#32
  else if a = aPpsCfg then 0x1FFFF#32
  else if a = aFeedCfg .a ∨ a = aFeedCfg .b then 0x80FFFFFF#32
  else if (cfgPort a).isSome then 0x803F007F#32
  else 0xFFFFFFFF#32

/-! ### What a write accepts -/

/-- A field of a value lies in a range. -/
def fieldIn (v : Word) (lo n a b : Nat) : Bool := let x := v.toNat / 2 ^ lo % 2 ^ n; decide (a ≤ x ∧ x ≤ b)

/-- Every field of the value lies in its range (R403, R530). -/
def rangeOk (a : Nat) (v : Word) : Bool :=
  if 0x03000 ≤ a ∧ a < 0x03400 then fieldIn v 0 3 0 4
  else if a = aFeedCfg .a ∨ a = aFeedCfg .b then fieldIn v 16 8 2 80 && fieldIn v 8 8 5 100 && fieldIn v 0 8 5 200
  else if (cfgPort a).isSome then fieldIn v 16 6 1 50 && fieldIn v 0 7 10 80
  else true

/-- The register is locked (R524). -/
def State.cfgLocked (s : State) (a : Nat) : Bool := hasLock a && (s.cfgAt a).getLsbD 31

/-- A host may write the register: PORT_PWR_CFG needs the port's owner where it has one (R403). -/
def State.cfgOwner (s : State) (h : HostId) (a : Nat) : Bool :=
  match cfgPort a with
  | some p => (s.port p).owner == 0 || (s.port p).owner == hOwner h
  | none => true

/-- A rejected write is ignored as a whole; a port or feed register sets its cfg_rejected bit (R403). -/
def rejectCfg (a : Nat) (s : State) : State :=
  match cfgPort a with
  | some p => setSqc (aPwrStatus p) [10] s
  | none => if a = aFeedCfg .a ∨ a = aFeedCfg .b then setSqc aFeedStatus [8] s else s

/-- An EVT_CFG setting is saved in its record (R486). -/
def saveEvt (a : Nat) (v : Word) (s : State) : State :=
  if 0x03000 ≤ a ∧ a < 0x03400 then
    modLich (fun l => { l with evtRec := some (tset (l.evtRec.getD []) ((a - 0x03000) / 4) (v.setWidth 8)) }) s
  else s

/-- A write that reaches a CONFIG register outside the HOST and LICH blocks. -/
def writeCfg (h : HostId) (a : Nat) (v : Word) (s : State) : State :=
  if s.cfgLocked a || !rangeOk a v || !s.cfgOwner h a then rejectCfg a s
  else
    let w := v &&& cfgMask a
    saveEvt a w (setCfg a w s)

/-! ### Gated islands (R26) -/

/-- The island whose gating holds writes to a CONFIG register: that of the port's window. -/
def State.cfgGated (s : State) (a : Nat) : Bool :=
  match cfgPort a with | some p => s.islandOff (0x10 + p / 8) | none => false

def holdOrWrite (h : HostId) (a : Nat) (v : Word) (s : State) : State :=
  if s.cfgGated a then { s with cfgHeld := s.cfgHeld ++ [(h, a, v)] } else writeCfg h a v s

/-- Held writes are applied when the island is on again, in order. -/
def applyHeld (s : State) : State :=
  if s.cfgHeld.isEmpty then s
  else foldS s.cfgHeld (fun x t => holdOrWrite x.1 x.2.1 x.2.2 t) { s with cfgHeld := [] }

/-! ### LICH_SCRATCH (R526, R533) -/

/-- A write queues; a fifth while four wait is dropped. -/
def queueLich (k : Nat) (v : Word) (s : State) : State :=
  if 4 ≤ s.lich.writeQ.length then setSqc aLich [16] s
  else modLich (fun l => { l with writeQ := l.writeQ ++ [(k, v)] }) s

/-- The oldest queued write takes effect. -/
def lichApplied (s : State) : State :=
  match s.lich.writeQ with
  | [] => s
  | (k, v) :: rest =>
    modLich (fun l => { l with writeQ := rest, scratch := tset l.scratch k v })
      { s with cfgBad := s.cfgBad.filter (· != aScratch k) }

/-! ### Parity (R522, R523) -/

/-- The stored value of a CONFIG register changes without a write. -/
def setRaw (a : Nat) (v : Word) (s : State) : State :=
  match scratchOf a with
  | some k => modLich (fun l => { l with scratch := tset l.scratch k v }) s
  | none => { s with cfg := tset s.cfg a v }

/-- Registers with a lock field are repaired from the power die's copy. -/
def repairLocks (s : State) : State :=
  foldS (s.cfgBad.filter hasLock) (fun a t =>
    { t with cfg := tset t.cfg a (tget t.cfgCopy (cfgReset a) a), cfgBad := t.cfgBad.filter (· != a) }) s

/-- The check of every 1 ms. `upset`: a stored value that has changed with odd parity since the last check. -/
def parityCheck (upset : Option (Nat × Word)) (s : State) : State :=
  let s1 := repairLocks s
  match upset with
  | none => s1
  | some (a, v) =>
    if s1.isConfig a && !s1.cfgGated a then
      raiseAt 136 1 (BitVec.ofNat 32 a) (setRaw a v { s1 with cfgBad := s1.cfgBad.filter (· != a) ++ [a] })
    else s1

end Sys2Proof.Machine
end

