-- ==== Sys2Proof/Machine/Collector.lean ====
section
/-!
DEFINITION. The fault collector (R474 to R487, R531), the Ash log (R488 to R490), the end of tests and calibrations (R169,
R171, R482, R558), and `finish`, with which every command that changes more than one register ends.
-/
namespace Sys2Proof.Machine

/-! ### Sources (R474) -/

/-- The class code of a source. -/
def classOf (src : Nat) : Nat :=
  if src < 64 then 0 else if src < 84 then 5 else if src < 108 then 2 else if src < 120 then 4 else if src < 122 then 6
  else if src < 134 then 1 else if src < 139 then 3 else if src < 143 then 7 else if src = 143 then 1 else if src < 149 then 0
  else if src < 153 then 2 else if src = 153 then 5 else if src = 154 then 4 else 6

/-- Base levels of sub-codes 1, 2, … of a source. -/
def baseLevels (src : Nat) : List Nat :=
  if src < 32 then [1, 1, 1, 3]
  else if src < 64 then [1, 2, 1]
  else if src < 76 then [1, 3, 3, 3]
  else if src < 84 then [0, 0, 0, 3]
  else if src < 100 then [3, 2, 3]
  else if src < 108 then [3, 2, 3, 0, 2]
  else if src < 116 then [0, 1, 1, 1]
  else if src < 120 then [0, 1, 1, 1]
  else if src < 122 then [1, 1, 2, 2]
  else if src < 134 then [1]
  else match src with
  | 134 => [4] | 137 => [4] | 135 => [2] | 140 => [0] | 142 => [0] | 150 => [0] | 143 => [2] | 144 => [2] | 145 => [2] | 146 => [2]
  | 147 => [3] | 148 => [3] | 151 => [2] | 153 => [2] | 159 => [2] | _ => [1]
def baseLevel (src sub : Nat) : Nat := (baseLevels src).getD (sub - 1) 0

/-- The sub-code that FLT_FORCE raises (R484). -/
def forcedSub (src : Nat) : Nat :=
  match (upTo 5).find? fun k => decide (1 ≤ (baseLevels src).getD k 0) with
  | some k => k + 1
  | none => 1

/-- The unit of a source is present (R8); the sources 149 to 152 are those of the SDRAM controller (R10, R474). -/
def State.srcPresent (s : State) (src : Nat) : Bool :=
  if src < 64 then s.hasPort (src % 32)
  else if src < 76 then s.hasEngine (src - 64)
  else if src < 80 then decide (src - 76 < s.nPorts / 8)
  else if src = 80 then s.nCans != 0
  else if 108 ≤ src ∧ src < 116 then s.hasCan (src - 108)
  else if 149 ≤ src ∧ src < 153 then s.hasSdram
  else if 116 ≤ src ∧ src < 120 then s.hasTrunk (src - 116)
  else decide (src < 160)

/-- The unit of a unit source is isolated. -/
def State.unitOff (s : State) (src : Nat) : Bool :=
  if src < 64 then (s.port (src % 32)).sw == .isolated
  else if src < 76 then (s.engine (src - 64)).isolated
  else if src < 84 then (s.flt src).isolated
  else if src < 100 then (s.pbank (src - 84)).st == 3
  else if src < 108 then (s.cbank (src - 100)).st == 3
  else if src < 116 then (s.can (src - 108)).isolated
  else if src < 120 then (s.trunk (src - 116)).isolated
  else if src < 122 then (s.feed (hostOf (src - 120))).isolated
  else s.ledger.sensorsOut.contains (src - 122)

/-- Whether the condition of a fault persists, for the faults that have one. -/
def State.holds (s : State) (src sub : Nat) : Bool :=
  if src < 32 then (let r := s.port src; r.sw == .latched || r.sw == .isolated)
  else if src < 64 then sub == 3 && (s.port (src - 32)).calBad
  else if src < 76 then sub != 1 && (s.engine (src - 64)).isolated
  else if src < 84 then (s.flt src).isolated
  else if src < 100 then (let b := s.pbank (src - 84); if sub = 2 then b.lost else b.st == 3)
  else if src < 108 then (let b := s.cbank (src - 100); decide (sub < 4) && (if sub = 2 then b.lost else b.st == 3))
  else if src < 116 then
    let c := s.can (src - 108)
    match sub with | 1 => c.alone | 2 => c.st == 4 | 3 => c.fallen | _ => false
  else if src < 120 then
    let t := s.trunk (src - 116)
    match sub with | 2 => !t.st.linked && t.st != .off | 3 => t.loop | 4 => t.phyBad | _ => false
  else if src < 122 then !(s.feed (hostOf (src - 120))).gives
  else if src < 134 then s.ledger.sensorsOut.contains (src - 122)
  else match src with
  | 136 => !s.cfgBad.isEmpty
  | 143 => true
  | 144 => true
  | 145 => !s.board.rail5
  | 146 => !s.board.rail15
  | 147 => s.power.missing != 0
  | 149 => !s.peatInUse
  | 153 => !s.stok.unplaced.isEmpty
  | 155 => !s.board.seated
  | 156 => s.sec.tamperLow
  | 157 => s.time.pps != .locked
  | 158 => s.time.pps != .locked
  | 159 => s.time.alt
  | _ => false

/-- The highest base level of a source's active faults, 0 with none. -/
def activeLevel (src : Nat) (f : Flt) : Nat :=
  f.active.foldl (fun m k => if m < baseLevel src k then baseLevel src k else m) 0

/-! ### Words of the FLT block (R531, R487) -/

/-- The sources for which a mark is set. -/
def State.fltWith (s : State) (m : Flt → Bool) : List Nat := (s.flts.filter fun e => m e.2).map fun e => e.1
def State.unacked (s : State) : List Nat := s.fltWith fun f => f.unack
def State.activeSrcs (s : State) : List Nat := s.fltWith fun f => !f.active.isEmpty

/-- The sixteen marks of word `k`. -/
def markWord (l : List Nat) (k : Nat) : Nat := maskOf ((l.filter fun i => i / 16 == k).map fun i => i % 16)

/-- The highest level of an unacknowledged source. -/
def State.maxUnack (s : State) : Nat :=
  s.flts.foldl (fun m e => if e.2.unack && decide (m < e.2.level) then e.2.level else m) 0

/-- FAULT_N is driven low (R487). -/
def State.faultN (s : State) : Bool := decide (2 ≤ s.maxUnack) || s.dev.phase == .kindling || s.power.retry

/-- ALIVE changes at every 500 µs boundary of TIME, and is low in HIBERNATE, in Kindling mode, in a reset and in a failed oscillator step
(R487, R491); its level in the first half millisecond is a DESIGN CHOICE (notes/assumptions/15.md). -/
def State.alive (s : State) : Bool :=
  s.timeOn && s.dev.power != .hibernate && s.dev.phase != .kindling && !s.power.retry && s.time.now.toNat / 500000 % 2 == 1

/-- KINDLING is high in Kindling mode (R487). -/
def State.kindlingBall (s : State) : Bool := s.dev.phase == .kindling

/-- HOT_N is driven low: a logic-die reset and HIBERNATE release it (R576). -/
def State.hotBall (s : State) : Bool :=
  s.ledger.hotN && s.dev.power != .hibernate && s.dev.phase != .off && s.dev.phase != .reset

/-- JTAG gives full debug, not boundary scan only (R508, R537). -/
def State.fullDebug (s : State) : Bool := decide (s.otp.lifeCycle < 2) && !(s.cfgAt aSecGuard).getLsbD 1

/-- A host port drives neither HAx_DQ nor BUSY_N: the logic die is unpowered or in reset, or the port's island is off (R491). -/
def State.portReleased (s : State) (h : HostId) : Bool :=
  s.dev.phase == .off || s.dev.phase == .reset || s.islandOff (0x22 + hCode h)

/-- FLT_UNACKk and FLT_ACTIVEk count every change (R531). -/
def followMarks (old s : State) : State :=
  foldS (upTo 10) (fun k t =>
    let t1 := if markWord old.unacked k = markWord s.unacked k then t else bumpSeq (aFltUnack k) t
    if markWord old.activeSrcs k = markWord s.activeSrcs k then t1 else bumpSeq (aFltActive k) t1) s

/-! ### Events and Ash entries (R485, R488) -/

/-- The source's level is above the base level of the sub-code. -/
def Flt.escalated (f : Flt) (src sub : Nat) : Bool := decide (baseLevel src sub < f.level)

def fltEvent (code src sub : Nat) (s : State) : State :=
  let f := s.flt src
  let flags := b2n f.injected + 2 * b2n (f.escalated src sub) + 4 * b2n (!f.active.isEmpty) + 8 * b2n (decide (src < 134) && s.unitOff src)
  post 8 (u16 code ++ u16 src ++ u8 sub ++ u8 f.level ++ u8 flags ++ u8 (classOf src) ++ u32 f.detail.toNat ++ u32 f.count.toNat) s

/-- The Ash entry of an occurrence, an acknowledgement or a clearing; the detail is that of the last occurrence, where the entry is of its
sub-code. -/
def ashFault (kind src sub : Nat) (s : State) : State :=
  let f := s.flt src
  ashPut { time := s.ashTime, source := BitVec.ofNat 16 src, sub := sub, level := f.level, injected := f.injected,
           escalated := f.escalated src sub, kind := kind, detail := if f.sub = sub then f.detail else 0 } s

/-- FAULT_RAISED for a repeat, at most once per 10 ms for a source (R485). -/
def raisedEvent (first : Bool) (src sub : Nat) (s : State) : State :=
  if !first && (s.flt src).limited then modFlt src (fun f => { f with pendingRep := true }) s
  else fltEvent 0x0090 src sub (modFlt src (fun f => { f with limited := true, pendingRep := false }) s)

/-- The 10 ms of a source end. -/
def repeatEnds (src : Nat) (s : State) : State :=
  let f := s.flt src
  if !f.limited then s
  else if f.pendingRep then
    fltEvent 0x0090 src f.sub (modFlt src (fun f => { f with pendingRep := false }) s)
  else modFlt src (fun f => { f with limited := false }) s

/-! ### Level actions (R476 to R479) -/

/-- A test that does not come to its end; TEST_RUN ends ABORTED. -/
def testCut (t : Test) (s : State) : State :=
  match t.who with
  | .run h tag => finishOp h tag stAborted [] s
  | _ => s

/-- A test or evacuation of a unit that is isolated meanwhile ends, and so do those of it that wait (R169). -/
def dropTest (u : TUnit) (s : State) : State :=
  let s0 := foldS (s.testQ.filter fun t => t.unit == u) testCut { s with testQ := s.testQ.filter fun t => t.unit != u }
  match s.test with
  | some t =>
    if t.unit == u then
      testCut t { s0 with test := none,
                            pool := { s.pool with skip := if s.pool.skip = some (unitNo u) ∧ unitType u = 1 then none else s.pool.skip } }
    else s0
  | none => s0

/-- Isolates the unit of a unit source (Table — Isolation by unit). -/
def isolateUnit (src : Nat) (s : State) : State :=
  if s.unitOff src then s
  else if src < 64 then latchOff (src % 32) .isolated 0 false s
  else if src < 76 then
    let e := src - 64
    takeoverAll e (changeEngine e (fun r => { r with isolated := true, evac := false, testing := false }) (dropTest (.engine e) s))
  else if src < 80 then pgOff (src - 76) s
  else if src = 80 then cnOff s
  else if src = 81 then tkOff s
  else if src = 82 then portLost .a s
  else if src = 83 then portLost .b s
  else if src < 100 then modPbank (src - 84) (fun b => { b with st := 3 }) (dropTest (.payload (src - 84)) s)
  else if src < 108 then modCbank (src - 100) (fun b => { b with st := 3 }) (dropTest (.control (src - 100)) s)
  else if src < 116 then driveStb (src - 108) (modCan (src - 108) (fun c => { c with isolated := true }) (canOff (src - 108) s))
  else if src < 120 then modTrunk (src - 116) (fun t => { t with isolated := true }) (trunkOff (src - 116) s)
  else if src < 122 then
    let f := hostOf (src - 120)
    modFeed f (fun r => { r with isolated := true }) (setFeedSt f .retry s)
  else modLedger (fun l => { l with sensorsOut := l.sensorsOut ++ [src - 122] }) s

/-- L3: the unit is isolated, and its isolation is the active condition of this fault (R482). -/
def actionL3 (src sub : Nat) (s : State) : State :=
  if decide (134 ≤ src) || (s.flt src).isolated then s
  else
    let s1 := ashRecord 6 3 (isolateUnit src s)
    modFlt src (fun f => { f with isolated := true, active := if f.active.contains sub then f.active else f.active ++ [sub] }) s1

/-- Whether level actions above L1 are taken (R479). -/
def State.acts (s : State) : Bool := s.dev.power != .service && s.dev.phase != .kindling

/-- The actions of the levels above `floor` up to `lvl`, but for L4 and L5. -/
def actLow (src sub lvl floor : Nat) (s : State) : State :=
  let s1 := if floor < 3 ∧ 3 ≤ lvl then actionL3 src sub s else s
  let s2 := if floor < 2 ∧ 2 ≤ lvl ∧ ((64 ≤ src ∧ src < 76) ∨ (84 ≤ src ∧ src < 108)) then replan .fault s1 else s1
  if floor < 3 ∧ 3 ≤ lvl then wakeTrigger 7 s2 else s2

def actHigh (src lvl floor : Nat) (s : State) : State :=
  if 4 ≤ lvl ∧ floor < 4 then (if lvl = 5 then actionL5 src s else actionL4 src s)
  else if lvl = 5 ∧ floor < 5 then actionL5 src s
  else s

/-! ### Occurrences (R480) -/

/-- The highest level held by another unacknowledged source of the class. -/
def State.classLevel (s : State) (src : Nat) : Nat :=
  s.flts.foldl (fun m e => if e.1 != src && e.2.unack && classOf e.1 == classOf src && decide (m < e.2.level) then e.2.level else m) 0

/-- The level of an occurrence of base level `b` (R480, R478); a repeat at the held level 4 stays there. -/
def State.levelOf (s : State) (src b : Nat) : Nat :=
  let f := s.flt src
  let l := if f.unack then (if f.level < b then b else f.level)
    else
      let u := s.classLevel src
      if u = 0 then b else sat 4 (if b < u + 1 then u + 1 else b)
  if l = 4 ∧ ¬(f.unack = true ∧ f.level = 4) ∧ (s.cfgAt aFltPolicy).getLsbD (classOf src) = true then 5 else l

/-- One occurrence reaches the collector. -/
def occur (src sub b : Nat) (detail : Word) (injected : Bool) (s : State) : State :=
  if !s.srcPresent src then s
  else
    let f := s.flt src
    let on := if injected then f.force && sub == forcedSub src else s.holds src sub
    let f1 : Flt :=
      { f with count := satAdd f.count 1, sub := sub, detail := detail, injected := injected,
               atS := BitVec.ofNat 32 (s.dev.upNs / 1000000000),
               active := if on && !f.active.contains sub then f.active ++ [sub] else f.active,
               real := if on && !injected && !f.real.contains sub then f.real ++ [sub] else f.real }
    if b = 0 then
      let s1 := setFlt src f1 s
      ashPut { time := s.ashTime, source := BitVec.ofNat 16 src, sub := sub, level := 0, injected := injected, escalated := false,
               kind := 0, detail := detail } s1
    else
      let lvl := s.levelOf src b
      let esc := decide (baseLevel src sub < lvl)
      let floor := if f.unack then f.level else 0
      let s1 := ashFault 0 src sub (setFlt src { f1 with level := lvl, unack := true } s)
      let s2 := bumpSeq aFltLast (setSqc aFltStatus (if esc then [2, 1] else [2]) s1)
      let word := lvl % 8 * 2 ^ 21 + sub % 32 * 2 ^ 16 + b2n injected * 2 ^ 8 + src % 256
      let s3 := { s2 with fltLast := BitVec.ofNat 32 word }
      if !s.acts then raisedEvent (!f.unack) src sub s3
      else
        let s4 := actLow src sub lvl floor s3
        let s5 := actHigh src lvl floor s4
        if s5.dev.phase == .warm || s5.dev.phase == s4.dev.phase then raisedEvent (!f.unack) src sub s5
        else actHigh src lvl floor (raisedEvent (!f.unack) src sub s4)

/-! ### Ends of conditions (R483) -/

/-- The condition of an active fault ends. -/
def endActive (src sub : Nat) (s : State) : State :=
  let f := s.flt src
  if !f.active.contains sub then s
  else
    let f1 := { f with active := f.active.filter (· != sub), real := f.real.filter (· != sub) }
    let s1 := setFlt src (if f.unack then f1 else { f1 with level := activeLevel src f1 }) s
    fltEvent 0x0091 src sub (ashFault 2 src sub s1)

/-- A condition that an injection or the unit's isolation keeps does not end. -/
def State.kept (s : State) (src sub : Nat) : Bool :=
  let f := s.flt src
  (f.force && sub == forcedSub src) || f.isolated

def endConditions (s : State) : State :=
  foldS s.flts (fun e t => foldS e.2.active (fun sub u => if u.holds e.1 sub || u.kept e.1 sub then u else endActive e.1 sub u) t) s

/-! ### The collector's turn -/

def fltKey : FltIn → Nat
  | .raise s _ _ _ => s
  | .raiseL4 s _ => s
  | .clear s _ => s

def takeFlt (x : FltIn) (s : State) : State :=
  match x with
  | .raise src sub d inj => occur src sub (baseLevel src sub) d inj s
  | .raiseL4 src sub => occur src sub 4 0 false s
  | .clear src sub =>
    if s.kept src sub then modFlt src (fun f => { f with real := f.real.filter (· != sub) }) s else endActive src sub s

/-- Rounds: what one round's actions raise is taken in the next (R480). -/
def collectRounds : Nat → State → State
  | 0, s => s
  | n + 1, s =>
    match sortBy (fun a b => decide (fltKey a < fltKey b)) s.fltIn with
    | [] => s
    | l => collectRounds n (foldS l takeFlt { s with fltIn := [] })

/-- In HIBERNATE the Lichen island records EXTERNAL occurrences, and every other source is silent (R461, R479). -/
def silent (x : FltIn) (s : State) : State :=
  match x with
  | .raise src sub d inj =>
    if classOf src = 6 then
      ashPut { time := s.ashTime, source := BitVec.ofNat 16 src, sub := sub, level := baseLevel src sub, injected := inj,
               escalated := false, kind := 0, detail := d } s
    else s
  | _ => s

/-- What waits for the collector is taken, unless the control island is in reset or waking. -/
def collect (s : State) : State :=
  match s.dev.phase with
  | .off => { s with fltIn := [] }
  | .reset => s
  | .waking =>
    if s.power.wake.isSome then s else foldS s.fltIn silent { s with fltIn := [] }
  | _ => followMarks s (endConditions (collectRounds 32 s))

/-! ### Acknowledgement and return (R481, R482) -/

/-- CAL_RANGE of a port, whose condition outlives the port's isolation. -/
def State.calStays (s : State) (src sub : Nat) : Bool := decide (32 ≤ src ∧ src < 64) && sub == 3 && (s.port (src - 32)).calBad

/-- The isolation that a source holds ends: its active faults end with it (R482), but for one whose own condition persists. -/
def unmark (src : Nat) (s : State) : State :=
  let f := s.flt src
  foldS (f.active.filter fun sub => !s.calStays src sub) (endActive src) (modFlt src (fun f => { f with isolated := false }) s)

/-- The middle of the sensors' values. -/
def median (l : List Int) : Int := (sortBy (fun a b => decide (a < b)) l).getD (l.length / 2) 0

/-- The fault that isolated a unit is still active, so that FLT_ACK does not return it (R482): the port's calibration is out of range, the
feed's voltage is absent, or the sensor differs from the median by more than 15 °C at the last recompute (R474). -/
def State.stillFaulty (s : State) (src : Nat) : Bool :=
  let f := s.flt src
  if 32 ≤ src ∧ src < 64 then f.isolated && (s.port (src - 32)).calBad
  else if 120 ≤ src ∧ src < 122 then f.active.contains 1 && f.real.contains 1 && !(s.feed (hostOf (src - 120))).present
  else if 122 ≤ src ∧ src < 134 then
    let d := s.ledger.temps.getD (src - 122) 0 - median s.ledger.temps
    decide (150 < d ∨ d < -150)
  else false

/-- Returns a unit that needs no test; a port also needs VSNS at or below 0.8 V (R383). -/
def returnUnit (src : Nat) (s : State) : State :=
  if s.stillFaulty src then s
  else if src < 64 then
    let p := src % 32
    let s1 := measure p s
    if 800 < (s1.port p).vbusMv then s1
    else unmark (32 + p) (unmark p (pathEvent p 0x0327 4 0 (modPort p (fun r => { r with sw := .off, latchRail := false }) s1)))
  else if src < 84 then
    let s1 := unmark src s
    if src = 80 then cnOn s1 else if src = 81 then tkOn s1 else s1
  else if src < 116 then
    let c := src - 108
    let s1 := modCan c (fun r => { r with isolated := false }) s
    unmark src (if s1.islandOff 0x20 then s1 else driveStb c (canStart c s1))
  else if src < 120 then
    let n := src - 116
    let s1 := modTrunk n (fun t => { t with isolated := false }) s
    unmark src (if (s1.trunk n).cfg.iface = 0 || s1.islandOff 0x21 then s1 else trunkOn n s1)
  else if src < 122 then
    let f := hostOf (src - 120)
    let s1 := setFeedSt f (if (s.feed f).present then .waiting else .absent) (modFeed f (fun r => { r with isolated := false }) s)
    unmark src (tryFeed f s1)
  else unmark src (modLedger (fun l => { l with sensorsOut := l.sensorsOut.filter (· != src - 122) }) s)

/-- The unit that a test must pass before it returns. -/
def testedUnit (src : Nat) : Option TUnit :=
  if 64 ≤ src ∧ src < 76 then some (.engine (src - 64))
  else if 84 ≤ src ∧ src < 100 then some (.payload (src - 84))
  else if 100 ≤ src ∧ src < 108 then some (.control (src - 100))
  else none

/-- The key of an FLT_ACK that waits for its unit's test. -/
def keyAck (src : Nat) : Nat := keyUnit (0x2000 + src)

/-- FLT_ACK (R481, R482): the status, and whether the unit's test runs first. -/
def ackFlt (src : Nat) (ret : Bool) (s : State) : State × Nat × Bool :=
  let f := s.flt src
  let iso := decide (src < 134) && s.unitOff src
  let f1 := { f with unack := false }
  let s1 := if f.unack then
      fltEvent 0x0092 src f.sub (ashFault 1 src f.sub (setFlt src { f1 with level := activeLevel src f1 } s))
    else s
  let st := if f.unack || (ret && iso) then stOk else stAlready
  if !ret || !iso || f.force then (followMarks s s1, st, false)
  else match testedUnit src with
  | some u =>
    let s2 := if s1.testing u then s1 else askTest { unit := u, who := .ackReturn src } s1
    (followMarks s s2, st, true)
  | none => (followMarks s (returnUnit src s1), st, false)

/-- The FLT_ACK commands that wait for a source's test reply with its level. -/
def ackReplies (src : Nat) (s : State) : State :=
  foldS (s.ops.filter fun o => o.started && o.unit == keyAck src) (endAborter stOk (u8 (s.flt src).level)) s

def fltAckCmd : CmdSpec :=
  { len := 4,
    bad := fun c _ => decide (159 < field c.params 0 2) || decide (1 < byteAt c.params 2) || !zeros c.params [(3, 1)],
    present := fun ps s => decide (159 < field ps 0 2) || s.srcPresent (field ps 0 2),
    run := fun c s =>
      let src := field c.params 0 2
      let (s1, st, waits) := ackFlt src (bitOf (byteAt c.params 2) 0) s
      if waits then (s1, .running stAccepted (keyAck src) [src]) else (s1, .final st (u8 (s1.flt src).level)) }

/-! ### Injection (R484) -/

def injectPulse (src : Nat) (s : State) : State :=
  if s.srcPresent src then { s with fltIn := s.fltIn ++ [.raise src (forcedSub src) 0 true] } else s
def injectHold (src : Nat) (s : State) : State :=
  if s.srcPresent src then injectPulse src (modFlt src (fun f => { f with force := true }) s) else s
def releaseHold (src : Nat) (s : State) : State :=
  if !(s.flt src).force then s
  else
    let s1 := modFlt src (fun f => { f with force := false }) s
    let k := forcedSub src
    if (s.flt src).isolated || ((s.flt src).real.contains k && s.holds src k) then s1 else endActive src k s1

def fltForceCmd : CmdSpec :=
  { len := 4,
    bad := fun c _ => decide (159 < field c.params 0 2) || decide (2 < byteAt c.params 2) || !zeros c.params [(3, 1)],
    present := fun ps s => decide (159 < field ps 0 2) || s.srcPresent (field ps 0 2),
    run := fun c s =>
      let src := field c.params 0 2
      let s1 := match byteAt c.params 2 with
        | 0 => releaseHold src s
        | 1 => injectPulse src s
        | _ => injectHold src s
      (s1, .final stOk []) }

/-- A write of FLT_FORCEk: a bit that rises holds its source, one that falls releases it (R531). -/
def writeForce (k : Nat) (v : Word) (s : State) : State :=
  foldS (upTo 32) (fun i t =>
    let src := 32 * k + i
    let on := (t.flt src).force
    if v.getLsbD i == on then t else if on then releaseHold src t else injectHold src t) s

/-! ### FLT_READ (R294) -/

def State.fltRecord (s : State) (src : Nat) : List Byte :=
  let f := s.flt src
  let flags := b2n (!f.active.isEmpty) + 2 * b2n f.unack + 4 * b2n f.injected + 8 * b2n (decide (src < 134) && s.unitOff src)
  u16 src ++ u8 (classOf src) ++ u8 f.level ++ u16 (sat 0xFFFF f.count.toNat) ++ u8 flags ++ [0] ++ u32 f.atS.toNat

def fltReadCmd : CmdSpec :=
  { len := 4,
    bad := fun c _ =>
      let n := byteAt c.params 2
      decide (159 < field c.params 0 2) || n == 0 || decide (19 < n) || decide (1 < byteAt c.params 3),
    run := fun c s =>
      let all := (upTo 160).drop (field c.params 0 2)
      let l := (if bitOf (byteAt c.params 3) 0 then all.filter fun k => !(s.flt k).active.isEmpty else all).take (byteAt c.params 2)
      (s, .final stOk (u8 l.length ++ [0, 0, 0] ++ l.flatMap s.fltRecord)) }

/-! ### The Ash log (R488, R489) -/

def AshEntry.bytes (e : AshEntry) : List Byte :=
  u64 e.time.toNat ++ u16 e.source.toNat ++ u8 e.sub ++
    u8 (e.level % 8 + 8 * b2n e.injected + 16 * b2n e.escalated + 32 * e.kind) ++ u32 e.detail.toNat

def State.ashHeader (s : State) : List Byte :=
  let a := s.lich.ash
  let h := u32 a.writeOffset ++ u32 a.wraps.toNat ++ u32 a.lost.toNat ++ u16 1 ++ u8 s.lich.bootCount ++ u8 s.lich.kindling ++
    List.replicate 44 0
  h ++ u32 (crc32c h).toNat

/-- Four bytes of the log at an offset that is a multiple of 4; a place of the ring that holds no entry reads 0. -/
def State.ashWord (s : State) (header : List Byte) (off : Nat) : List Byte :=
  if off < 64 then (header.drop off).take 4
  else match tfind ((off - 64) / 16) s.lich.ash.ring with
  | some e => (e.bytes.drop ((off - 64) % 16)).take 4
  | none => [0, 0, 0, 0]

def ashReadCmd : CmdSpec :=
  { len := 8,
    bad := fun c _ =>
      let o := field c.params 0 4
      let n := field c.params 4 2
      o % 4 != 0 || n % 4 != 0 || n == 0 || decide (224 < n) || !zeros c.params [(6, 2)] || decide (12288 < o + n),
    run := fun c s =>
      let h := s.ashHeader
      let o := field c.params 0 4
      (s, .final stOk (u32 s.lich.ash.writeOffset ++ (upTo (field c.params 4 2 / 4)).flatMap fun i => s.ashWord h (o + 4 * i))) }

/-- The Lichen island takes one entry at an edge of its clock, and it is copied into the mirror while the Peat store is
active. -/
def ashDrain (s : State) : State :=
  let a := s.lich.ash
  match a.buffer with
  | [] => s
  | e :: rest =>
    let last := decide (12272 ≤ a.writeOffset)
    let a1 : Ash := { a with buffer := rest, ring := tset a.ring ((a.writeOffset - 64) / 16) e,
                             writeOffset := if last then 64 else a.writeOffset + 16, wraps := if last then a.wraps + 1 else a.wraps }
    let s1 := modLich (fun l => { l with ash := a1 }) s
    if s.peat.st = 2 then modPeat (fun m => { m with ashMirror := a1 }) s1 else s1

/-! ### Ends of tests and calibrations (R169, R171, R482, R558) -/

def State.uptime (s : State) : Word := BitVec.ofNat 32 (s.dev.upNs / 1000000000)

/-- Uptime and result of a unit's last test. -/
def noteTest (u : TUnit) (fails : Bool) (s : State) : State :=
  match u with
  | .engine e => modEngine e (fun r => { r with result := b2n fails, passAt := if fails then r.passAt else s.uptime }) s
  | .payload b => modPbank b (fun r => { r with result := b2n fails, passAt := if fails then r.passAt else s.uptime }) s
  | .control b => modCbank b (fun r => { r with result := b2n fails, passAt := if fails then r.passAt else s.uptime }) s

/-- EVACUATION_DONE: an evacuation and its test are over (R165), with the tag of TEST_RUN or FW_ACTIVATE, 0 for the rotation. A
control bank that the scrub of R550 queued has no request: its 0 is a DESIGN CHOICE (notes/assumptions/147.md). -/
def evacDone (t : Test) (s : State) : State :=
  match t.who with
  | .ackReturn _ => s
  | .run _ tag => stokEvent 0x0403 (unitType t.unit) (unitNo t.unit) tag.toNat s
  | .update tag => stokEvent 0x0403 (unitType t.unit) (unitNo t.unit) tag.toNat s
  | _ => stokEvent 0x0403 (unitType t.unit) (unitNo t.unit) 0 s

/-- The result of TEST_RUN (R295). -/
def testResult (t : Test) (fails : Bool) (us : Nat) : List Byte :=
  u8 (b2n fails) ++ u8 (unitType t.unit) ++ u8 (unitNo t.unit) ++ [0] ++ u32 us

/-- The new microcode enters an engine that an update has evacuated, or that returns (R506). -/
def takeUcode (u : TUnit) (s : State) : State :=
  match u with
  | .engine e =>
    if (s.engine e).ucode = s.fw.ucode then s else modEngine e (fun r => { r with ucode := s.fw.ucode, newCode := true }) s
  | _ => s

/-- A unit passes its test and returns to service; placement waits while a warm restart holds it (R32). -/
def testPasses (t : Test) (us : Nat) (s : State) : State :=
  let s1 := evacDone t (unitBack t.unit (noteTest t.unit false s))
  let s2 := match t.who with
    | .run h tag => finishOp h tag stOk (testResult t false us) s1
    | .update _ => modFw (fun f => { f with updated := f.updated + 1 }) (takeUcode t.unit s1)
    | .ackReturn src => ackReplies src (unmark src (takeUcode t.unit s1))
    | _ => s1
  let s3 := endTest s2
  if s3.ready then replaceUnplaced s3 else s3

/-- A unit fails: the fault of sub-code `sub` is raised and the unit stays isolated; a migration to a failed engine is abandoned
(R145). -/
def testFails (t : Test) (us sub : Nat) (s : State) : State :=
  let src := match t.unit with | .engine e => srcTe e | .payload b => srcPbank b | .control b => srcCbank b
  let s1 := evacDone t (noteTest t.unit true s)
  let s2 := match t.unit with
    | .engine e => takeoverAll e (changeEngine e (fun r => { r with isolated := true, evac := false, testing := false }) s1)
    | .payload b => modPbank b (fun r => { r with st := 3 }) { s1 with pool := { s1.pool with skip := if s1.pool.skip = some b then none else s1.pool.skip } }
    | .control b => modCbank b (fun r => { r with st := 3 }) s1
  let s3 := raise src sub { s2 with test := none }
  let s4 := match t.who with
    | .run h tag => finishOp h tag stOk (testResult t true us) s3
    | .ackReturn k => ackReplies k (collect s3)
    | _ => s3
  endTest s4

/-- The number r of a bank in SRAM_REPAIR and the field repair record. -/
def memNo : TUnit → Nat
  | .engine e => e
  | .payload b => b
  | .control b => 16 + b

/-- A spare column that neither a fuse nor a soft repair uses (R557). -/
def State.spareLeft (s : State) (r : Nat) : Bool :=
  decide ((s.part.fuses.filter fun x => x.1 == r).length + (s.lich.repairs.filter fun x => x.1 == r).length < 4)

/-- The march finds a failing column (R558). -/
def testColumn (t : Test) (us col : Nat) (repeatPasses : Bool) (s : State) : State :=
  match t.unit with
  | .engine _ => testFails t us 2 s
  | u =>
    if s.spareLeft (memNo u) then
      let s1 := setSqc aSram [3] (modLich (fun l => { l with repairs := l.repairs ++ [(memNo u, col)] }) s)
      if repeatPasses then testPasses t us s1 else testFails t us 1 s1
    else testFails t us 3 (setSqc aSram [2] s)

/-- A port's calibration ends; CAL_RUN looks for an abort between ports (R171, R270). -/
def calEnds (trims : Option (BitVec 8 × BitVec 8)) (s : State) : State :=
  match s.cal with
  | none => s
  | some c => match c.ports with
    | [] => s
    | p :: rest =>
      let bit := BitVec.ofNat 32 (2 ^ p)
      let s1 := match trims with
        | some (cc, isns) => modPort p (fun r =>
            { r with ccTrim := cc, isnsTrim := isns, calAt := s.uptime, calTemp := some s.ledger.tHot, calBad := false, calibrating := false }) s
        | none => raise (srcPd p) 3 (setSqc (aPortCal p) [16] (modPort p (fun r => { r with calBad := true, calTemp := some s.ledger.tHot, calibrating := false }) s))
      let c1 := match trims with
        | some _ => { c with ports := rest, done := c.done ||| bit }
        | none => { c with ports := rest, bad := c.bad ||| bit }
      let s2 := { s1 with cal := some c1 }
      match c.who with
      | some (h, tag) =>
        if s2.abortAsked h tag && !rest.isEmpty then abortOp h tag (u32 c1.done.toNat ++ u32 c1.bad.toNat) (calAfter c1 s2) else calNext s2
      | none => calNext s2

/-- TEST_COMPLETE: the running unit test, or the calibration of a port, ends. -/
def testEnds (r : TestEnd) (s : State) : State :=
  match r with
  | .calibrated cc isns => calEnds (some (cc, isns)) s
  | .calRange => calEnds none s
  | .pass us => (match s.test with | some t => if t.stage = 2 then testPasses t us s else s | none => s)
  | .fail us => (match s.test with
      | some t => if t.stage = 2 then testFails t us (match t.unit with | .engine _ => 2 | _ => 1) s else s
      | none => s)
  | .column us col again => (match s.test with | some t => if t.stage = 2 then testColumn t us col again s else s | none => s)

/-! ### The end of every command -/

/-- What the loads of an engine depend on: its groups, and the periodic contexts in them. -/
def State.loadShape (s : State) : List (List Nat) :=
  s.ctxs.filterMap fun e =>
    if e.2.periodic then some [e.1, (s.engineOf (epGroup e.1)).getD 255, e.2.cls, e.2.exp, e.2.stretch, e.2.phase, e.2.maxPacket] else none

/-- TE_LOAD follows the schedules; its seq counts every change (R540). -/
def followLoads (s : State) : State :=
  let shape := s.loadShape
  if shape == s.stok.shape then s
  else
    foldS (upTo s.nEngines) (fun e t =>
      let a := peak (t.teA e)
      let b := peak (t.teAll e)
      if (t.engine e).loadA = a ∧ (t.engine e).loadAll = b then t
      else bumpSeq (aTe e + 4) (modEngine e (fun r => { r with loadA := a, loadAll := b }) t))
      (modStok (fun k => { k with shape := shape }) s)

/-- What follows every command: its faults are collected, an update and a due cold start go on, and what is derived from the
rest is renewed. What a second that has passed drives follows it (R449). -/
def finish (s : State) : State :=
  if s.dev.phase == .off then collect s
  else
  let s1 := updateNext (collect (refreshFull s))
  let s2 := followSecond (followLoads (applyHeld (followIslands (followTrim (followBanks (flushService (noteService s1)))))))
  if s2.fw.coldDue then logicReset false s2 else s2

end Sys2Proof.Machine
end

