-- ==== Sys2Proof/Machine/TrafficEvents.lean ====
section
/-!
DEFINITION. The meanings of the microframe, queue, Stoker and Ledger commands (R28 to R31, R85, R107 to R117, R126 to R171,
R205, R216, R454, R546 to R550, R558). A command that names an absent unit, or a queue above Q63, changes nothing.
-/
namespace Sys2Proof.Machine

/-- A step of a unit that runs once Mboter has started, and on through a warm restart (R32), with what follows at its end. -/
def atCore (f : State → State) (s : State) : State :=
  if s.dev.phase == .ready || s.dev.phase == .warm then finish (f s) else s

/-- A step of the memories, which run whenever the logic die is out of reset. -/
def atChip (f : State → State) (s : State) : State :=
  if s.dev.phase == .off || s.dev.phase == .reset || s.dev.phase == .waking then s else finish (f s)

/-- The same for a command that only Mboter carries out (R32). -/
def atMboter (f : State → State) (s : State) : State := if s.ready then finish (f s) else s

/-- A step on an endpoint group of a present port. -/
def atGroup (p g : Nat) (f : State → State) (s : State) : State := if s.hasPort p && decide (g < 8) then atCore f s else s

/-- MICROFRAME_BOUNDARY (R28, R30, R85, R86, R89, R139, R141). -/
def execMicroframeBoundary (s : State) : Res := .next (atCore boundary s)

/-- SUBLIST_COMMIT (R28, R29, R107, R108). -/
def execSublistCommit (te p g : Nat) (s : State) : Res := .next (atGroup p g (commitList te (8 * p + g)) s)

/-- TRANSACTION_RESULT (R51, R78, R109 to R115). -/
def execTransactionResult (r : TxnRes) (s : State) : Res := .next (atCore (txnResult r) s)

/-- QUEUE_REFILL_DONE (R181, R216). -/
def execQueueRefillDone (q : Nat) (bad : List Nat) (s : State) : Res :=
  .next (if q < 64 then atChip (refillHead q bad) s else s)

/-- STOKER_REPLAN (R126, R165): STOK_STATUS shows that the re-plan is done. -/
def execStokerReplan (why : Replan) (s : State) : Res := .next (atMboter (fun t => setSqc aStok [12] (replan why t)) s)

/-- MIGRATION_READY (R139). -/
def execMigrationReady (p g : Nat) (s : State) : Res := .next (atGroup p g (migReady p g) s)

/-- MIGRATION_DRAIN_MARKER (R144). -/
def execMigrationDrainMarker (p g : Nat) (s : State) : Res := .next (atGroup p g (migDrained p g) s)

/-- COLD_TAKEOVER_READY (R146). -/
def execColdTakeoverReady (p g : Nat) (s : State) : Res := .next (atGroup p g (coldReady p g) s)

/-- An engine has not acknowledged two crossings: the fault isolates it, and its groups are taken over (R146, R474, R540). -/
def noAck (e : Nat) (s : State) : State := if s.available e then raise (srcTe e) 3 (setSqc (aTe e) [16] s) else s

/-- ENGINE_NO_ACK (R146, R474). -/
def execEngineNoAck (te : Nat) (s : State) : Res := .next (atCore (noAck te) s)

/-- LEDGER_RECOMPUTE (R148 to R163); the T_hot that it takes decides on calibrations (R171). -/
def execLedgerRecompute (m : LedgerMeas) (s : State) : Res := .next (atCore (fun t => recalibrate (recompute m t)) s)

/-- LEDGER_MEASUREMENT_ELAPSED (R153): the next recompute may take a step again. -/
def execLedgerMeasurementElapsed (s : State) : Res := .next (atCore (modLedger fun l => { l with measuring := false }) s)

/-- TRELAX_EXPIRES (R155). -/
def execTrelaxExpires (s : State) : Res := .next (atCore relax s)

/-- tSHED is over: the renegotiations that have not concluded count at their old weight (R160). -/
def shedDue (s : State) : State :=
  let l := s.ledger
  if l.tShedRun then freshStep l (shedNow s) else s

/-- TSHED_EXPIRES (R160): during a warm restart steps 6 and 7 wait, and tSHED runs from the moment Mboter is ready (R32). -/
def execTshedExpires (s : State) : Res := .next (atMboter shedDue s)

/-- FEED_LIMIT_SHED_TICK (R161). -/
def execFeedLimitShedTick (s : State) : Res := .next (atCore limitShed s)

/-- TRESTORE_EXPIRES (R162). -/
def execTrestoreExpires (s : State) : Res := .next (atCore restoreStart s)

/-- SHED_RESTORE_TICK (R162). -/
def execShedRestoreTick (s : State) : Res := .next (atCore restoreOne s)

/-- EVACUATION_RETRY_TICK (R168). -/
def execEvacuationRetryTick (s : State) : Res := .next (atMboter evacRetry s)

/-- EVACUATION_TIMEOUT (R168, R170): of the request that has waited longest. -/
def execEvacuationTimeout (s : State) : Res := .next (atMboter evacTimeout s)

/-- ROTATION_TICK (R170, R171): the rotation comes to a unit, or to a port where no unit is named. -/
def execRotationTick (u : Option TUnit) (port : Nat) (s : State) : Res := .next (atMboter (rotation u port) s)

/-- EVACUATION_COPY_COMPLETE (R167). -/
def execEvacuationCopyComplete (s : State) : Res := .next (atCore evacCopied s)

/-- TEST_COMPLETE (R169, R171, R482, R558). -/
def execTestComplete (r : TestEnd) (s : State) : Res := .next (atCore (testEnds r) s)

/-- PAYLOAD_BANK_IDLE_OFF (R454). -/
def execPayloadBankIdleOff (b : Nat) (s : State) : Res := .next (atChip (bankIdleOff b) s)

/-- ACTIVE_SET_SHRINK (R546). -/
def execActiveSetShrink (s : State) : Res := .next (atChip shrinkSet s)

/-- PEAT_SCRUB (R205). -/
def execPeatScrub (f : PeatFound) (s : State) : Res := .next (atChip (peatScrub f) s)

/-- CTRL_SRAM_SCRUB (R549, R550). -/
def execCtrlSramScrub (f : CtrlFound) (s : State) : Res := .next (atChip (ctrlScrub f) s)

end Sys2Proof.Machine
end

