-- ==== Sys2Proof/Machine/CanEvents.lean ====
section
/-!
DEFINITION. The meanings of the CAN commands (R404 to R433). A command of an absent channel or of an object above 127, and
one while the channels have no clock, changes nothing.
-/
namespace Sys2Proof.Machine

/-- A step of a present channel. -/
def atCan (ch : Nat) (f : State → State) (s : State) : State := if s.hasCan ch then atCore f s else s

/-- The same for what a channel sends: an object, or 128 the reference message. -/
def atSend (ch k : Nat) (f : State → State) (s : State) : State := if k ≤ 128 then atCan ch f s else s

/-- The same for an object of the channel. -/
def atObj (ch k : Nat) (f : State → State) (s : State) : State := if k < 128 then atCan ch f s else s

/-- CAN_INTEGRATION_COMPLETE (R406, R408). -/
def execCanIntegrationComplete (ch : Nat) (s : State) : Res := .next (atCan ch (integrated ch) s)

/-- CAN_FRAME_RECEIVED (R421 to R424, R433). -/
def execCanFrameReceived (ch : Nat) (f : CanFrame) (s : State) : Res := .next (atCan ch (canReceive ch f) s)

/-- CAN_REFERENCE_MESSAGE_RECEIVED (R429). -/
def execCanReferenceMessageReceived (ch : Nat) (ide : Bool) (id : BitVec 29) (s : State) : Res :=
  .next (atCan ch (referenceSeen ch ide id) s)

/-- CAN_ERROR_DETECTED (R408, R416, R426, R430 to R432). -/
def execCanErrorDetected (ch : Nat) (e : CanErr) (s : State) : Res :=
  .next (atSend ch (e.sending.getD 0) (canError ch e) s)

/-- CAN_BUS_OFF_RECOVERY (R408). -/
def execCanBusOffRecovery (ch : Nat) (s : State) : Res := .next (atCan ch (busOffRecovers ch) s)

/-- CAN_SEND_COMPLETE (R414, R415, R426, R433). -/
def execCanSendComplete (ch obj result : Nat) (ago : Nat) (tdcMeasured : Option Nat) (s : State) : Res :=
  .next (atSend ch obj (sendEnds ch obj result ago tdcMeasured) s)

/-- TLOCK_EXPIRES (R420, R421). -/
def execTlockExpires (ch obj : Nat) (s : State) : Res := .next (atObj ch obj (lockExpires ch obj) s)

/-- CAN_CYCLE_START (R428, R429). -/
def execCanCycleStart (ch : Nat) (s : State) : Res := .next (atCan ch (cycleStart ch) s)

/-- CAN_PROTOCOL_EXCEPTION (R407). -/
def execCanProtocolException (ch : Nat) (s : State) : Res := .next (atCan ch (protocolException ch) s)

end Sys2Proof.Machine
end

