-- ==== Sys2Proof/Machine/PortEvents.lean ====
section
/-!
DEFINITION. The meanings of the port bus events and timers (R42 to R79), and of the further port events. An event of an
absent port, or of a layer that does not run, changes nothing.
-/
namespace Sys2Proof.Machine

/-- A step on a present port, with what follows at its end. -/
def atPort (p : Nat) (f : State → State) (s : State) : State := if s.hasPort p then finish (f s) else s

/-- The same while the bus machine runs: Mboter runs or restarts (R32, R42). -/
def atBus (p : Nat) (f : State → State) (s : State) : State := if s.hasPort p && s.busRuns then finish (f s) else s

/-- What a job of an enumeration does when its wait ends; PORT_BUS_RESET may be aborted there (R270). -/
def jobStep (p : Nat) (l : At) (ok : JobPhase → Bool) (f : Job → State → State) (s : State) : State :=
  match s.jobAt p l with
  | some j => if !ok j.phase then s else if s.resetAborted p j then abortReset p s else f j s
  | none => s

/-- CC_RD_SEEN (R42, R44, R364). -/
def execCcRdSeen (p : Nat) (cc : CcSeen) (s : State) : Res := .next (atPort p (fun t => swappedRd p (ccSeen p cc t)) s)

/-- CC_RD_LOST (R42). -/
def execCcRdLost (p : Nat) (s : State) : Res := .next (atPort p (ccLost p) s)

/-- TCCDEBOUNCE_EXPIRES (R42, R151). -/
def execTccdebounceExpires (p : Nat) (s : State) : Res := .next (atPort p (ccDebounced p) s)

/-- A CC detach that has lasted tPDDEBOUNCE: in a powered state, before a swapped port's partner sources, in a Hard Reset that ended a
swap, or while the power die holds the port (R42, R75, R358, R363, R398). -/
def ccDetached (p : Nat) (s : State) : State :=
  let r := s.port p
  if !s.busRuns then holdDetach p s
  else if r.bus == .ufpSwapped then
    (if r.pd.sub == .swapWaitSafe0 || r.pd.sub == .swapWaitSource || r.pd.st == .hardReset || r.pd.sub == .swHrRecover then
       swappedDetach p s
     else modPort p (fun r => { r with rd := none }) s)
  else if r.bus.powered then detachPort p s
  else modPort p (fun r => { r with rd := none, accessory := false }) s

/-- TPDDEBOUNCE_EXPIRES (R42, R75, R358, R363). -/
def execTpddebounceExpires (p : Nat) (s : State) : Res := .next (atPort p (ccDetached p) s)

/-- POWER_GOOD (R42, R354, R358, R381). -/
def execPowerGood (p : Nat) (s : State) : Res :=
  .next (atPort p (fun t => if (t.port p).bus == .recovering then holdPowerGood p t else powerGood p t) s)

/-- POWER_GOOD_LOST (R381). -/
def execPowerGoodLost (p vsns : Nat) (s : State) : Res := .next (atPort p (pgLost p vsns) s)

/-- PULLUP_SEEN (R42). -/
def execPullupSeen (p : Nat) (s : State) : Res := .next (atPort p (pullup p) s)

/-- PULLUP_LOST (R42). -/
def execPullupLost (p : Nat) (s : State) : Res := .next (atPort p (pullupGone p) s)

/-- TCONNECT_EXPIRES (R42). -/
def execTconnectExpires (p : Nat) (s : State) : Res := .next (atPort p (connectTimeout p) s)

/-- TATTDB_EXPIRES (R42, R46, R49, R61). -/
def execTattdbExpires (p : Nat) (loc : At) (dplus : Bool) (s : State) : Res := .next (atBus p (debounced p loc dplus) s)

/-- CHIRP_K_DETECTED (R47). -/
def execChirpKDetected (p us : Nat) (s : State) : Res := .next (atBus p (chirpK p us) s)

/-- TRSTROOT_EXPIRES (R42, R47, R50). -/
def execTrstrootExpires (p : Nat) (s : State) : Res := .next (atBus p (rootResetEnds p) s)

/-- TRSTRCY_EXPIRES (R49, R50): a hub reports the speed of its port. -/
def execTrstrcyExpires (p : Nat) (loc : At) (hubSpeed : Nat) (s : State) : Res :=
  .next (atBus p (jobStep p loc (fun x => x == .recovery || (x == .reset && loc != .root)) (fun j => firstRequest p j hubSpeed)) s)

/-- TSETADDR_EXPIRES (R50 steps 3 and 4). -/
def execTsetaddrExpires (p : Nat) (loc : At) (s : State) : Res :=
  .next (atBus p (jobStep p loc (fun x => x == .setAddrWait) (fun j t => if j.step = 3 then ask p j 4 0 t else t)) s)

/-- A control transfer of an enumeration, of the verification after a reset, or of a scan has taken tCTRL (R51, R72, R78). -/
def ctrlTimeout (p : Nat) (l : At) (s : State) : State :=
  match s.jobAt p l, (s.port p).verify with
  | some j, _ => if j.phase == .request then
      (if s.resetAborted p j then abortReset p s else attemptFails p j 1 s) else s
  | none, a :: _ => verified p a none [] s
  | none, [] => scanTimeout p s

/-- TCTRL_EXPIRES (R51, R72, R78). -/
def execTctrlExpires (p : Nat) (loc : At) (s : State) : Res := .next (atBus p (ctrlTimeout p loc) s)

/-- TENUM_RETRY_EXPIRES (R51). -/
def execTenumRetryExpires (p : Nat) (loc : At) (s : State) : Res :=
  .next (atBus p (jobStep p loc (fun x => x == .retryWait) (fun j => resetAgain p j)) s)

/-- TADDR_QUIET_EXPIRES (R53, R58). -/
def execTaddrQuietExpires (p : Nat) (what : Quiet) (s : State) : Res :=
  .next (atPort p (modPort p fun r => match what with
    | .addr a => { r with quietAddr := r.quietAddr.filter (· != a) }
    | .index i => { r with quietIdx := r.quietIdx.filter (· != i) }) s)

/-- ROOT_BABBLE (R42). -/
def execRootBabble (p : Nat) (s : State) : Res := .next (atBus p (babble p) s)

/-- REMOTE_WAKE_K (R71, R73). -/
def execRemoteWakeK (p : Nat) (s : State) : Res := .next (atBus p (remoteWake p) s)

/-- tRESUME elapsed: while the PLU is gated, the line-state detector holds K until the PLU takes over (R71). -/
def resumeElapsed (p : Nat) (s : State) : State := if s.islandOff (0x10 + p / 8) then s else resumeKEnds p s

/-- TRESUME_EXPIRES (R70, R71, R78). -/
def execTresumeExpires (p : Nat) (s : State) : Res := .next (atBus p (resumeElapsed p) s)

/-- TRSMRCY_EXPIRES (R70, R72, R78): of the whole tree where the hub address is 0, else of a hub's port. -/
def execTrsmrcyExpires (p hub hport : Nat) (s : State) : Res := .next (atBus p (recoveryEnds p (atOf hub hport)) s)

/-- HUB_PORT_CONNECT_CHANGE (R61). -/
def execHubPortConnectChange (p hub hport : Nat) (s : State) : Res := .next (atBus p (connectBelow p hub hport) s)

/-- HUB_PORT_DISCONNECT_CHANGE (R61, R64, R75). -/
def execHubPortDisconnectChange (p hub hport : Nat) (why : HubGone) (s : State) : Res :=
  .next (atBus p (belowGone p hub hport why) s)

/-- OFF_TIME_EXPIRES (R385). -/
def execOffTimeExpires (p : Nat) (s : State) : Res := .next (atPort p (offTimeEnds p) s)

/-- PWRON2PWRGOOD_WAIT_EXPIRES (R60). -/
def execPwron2pwrgoodWaitExpires (p hub : Nat) (s : State) : Res := .next (atBus p (hubReady p hub) s)

/-- PORT_AT_LIMIT (R378). -/
def execPortAtLimit (p : Nat) (s : State) : Res := .next (atPort p (atLimit p) s)

/-- PORT_LIMIT_LEFT (R379). -/
def execPortLimitLeft (p : Nat) (s : State) : Res := .next (atPort p (limitLeft p) s)

end Sys2Proof.Machine
end

