-- ==== Sys2Proof/Machine/ContractEvents.lean ====
section
/-!
DEFINITION. The meanings of the power contract events: PD messages and timers of the ports, of port 32, which is the
service port, the 15 V rail and the dead-battery start (R340 to R373).
-/
namespace Sys2Proof.Machine

/-- A PD step of a downstream port whose bus machine runs, or of the service port while it is attached. While the logic die
does not run, messages of a sink are not answered (R398). -/
def atPd (p : Nat) (f : State → State) (s : State) : State :=
  if p = 32 then (if s.svc.vbus then finish (f s) else s) else atBus p f s

/-- The same for a downstream port only. -/
def atDown (p : Nat) (f : State → State) (s : State) : State := if p < 32 then atBus p f s else s

/-- TCAPS_REPEAT_EXPIRES (R346). -/
def execTcapsRepeatExpires (p : Nat) (s : State) : Res := .next (atDown p (capsRepeat p) s)

/-- GOODCRC_RECEIVED (R346, R354, R362, R365). -/
def execGoodcrcReceived (p : Nat) (msg : PdSent) (s : State) : Res := .next (atPd p (goodCrc p msg) s)

/-- TSENDER_EXPIRES (R288, R346). -/
def execTsenderExpires (p : Nat) (s : State) : Res := .next (atPd p (senderTimeout p) s)

/-- REQUEST_RECEIVED (R349 to R352). -/
def execRequestReceived (p : Nat) (rdo : Word) (s : State) : Res := .next (atDown p (request p rdo) s)

/-- TSRC_TRANS_EXPIRES (R354, R355). -/
def execTsrcTransExpires (p : Nat) (s : State) : Res := .next (atDown p (transStart p) s)

/-- GAP_DELAY_EXPIRES (R383). -/
def execGapDelayExpires (p : Nat) (s : State) : Res := .next (atPort p (gapEnds p) s)

/-- VSNS_STEPDOWN_REACHED (R383). -/
def execVsnsStepdownReached (p : Nat) (s : State) : Res := .next (atPort p (stepdownDone p) s)

/-- TSTEPDOWN_EXPIRES (R355). -/
def execTstepdownExpires (p : Nat) (s : State) : Res := .next (atPort p (stepdownLate p) s)

/-- CC_NO_RD_IN_TRANSITION (R357). -/
def execCcNoRdInTransition (p : Nat) (s : State) : Res := .next (atDown p (transDetach p) s)

/-- SOFT_RESET_RECEIVED (R340, R346). -/
def execSoftResetReceived (p : Nat) (s : State) : Res := .next (atPd p (softReset p) s)

/-- HARD_RESET_RECEIVED (R358, R363 to R365, R398). -/
def execHardResetReceived (p : Nat) (s : State) : Res :=
  .next (if p = 32 then atPd p svcHardReset s
    else atPort p (fun t => if t.busRuns then anyHardReset p false 5 t else holdHardReset p t) s)

/-- TPS_HARDRESET_EXPIRES (R358 step 2). -/
def execTpsHardresetExpires (p : Nat) (s : State) : Res := .next (atPort p (hrOpen p) s)

/-- VSNS_SAFE0V_REACHED (R358 step 3, R362 step 3, R364). -/
def execVsnsSafe0vReached (p : Nat) (s : State) : Res := .next (atPort p (safe0 p) s)

/-- TSAFE0V_EXPIRES (R359). -/
def execTsafe0vExpires (p : Nat) (s : State) : Res := .next (atPort p (safe0Late p) s)

/-- TSRC_RECOVER_EXPIRES (R358 step 4, R364). -/
def execTsrcRecoverExpires (p : Nat) (s : State) : Res := .next (atPort p (srcRecovered p) s)

/-- GET_SOURCE_CAP_RECEIVED (R340). -/
def execGetSourceCapReceived (p : Nat) (s : State) : Res := .next (atPd p (getSourceCap p) s)

/-- GET_SINK_CAP_RECEIVED (R340). -/
def execGetSinkCapReceived (p : Nat) (s : State) : Res := .next (atPd p (getSinkCap p) s)

/-- DR_SWAP_RECEIVED (R361, R364, R365). -/
def execDrSwapReceived (p : Nat) (s : State) : Res := .next (atPd p (drSwap p) s)

/-- PR_SWAP_RECEIVED (R340): PR_Swap, FR_Swap and VCONN_Swap are rejected alike. -/
def execPrSwapReceived (p : Nat) (_kind : PdSwapKind) (s : State) : Res := .next (atPd p (pdSend p .reject []) s)

/-- PD_UNSUPPORTED_MESSAGE (R340). -/
def execPdUnsupportedMessage (p : Nat) (s : State) : Res := .next (atPd p (pdSend p .notSupported []) s)

/-- PD_RESPONSE_RECEIVED (R288, R361, R365, R371). -/
def execPdResponseReceived (p : Nat) (ans : PdAnswer) (s : State) : Res := .next (atPd p (pdResponse p ans) s)

/-- TWAIT_EXPIRES (R348, R365, R371). -/
def execTwaitExpires (p : Nat) (s : State) : Res := .next (atPd p (waitEnds p) s)

/-- SOURCE_CAPABILITIES_RECEIVED (R340, R362 step 5, R371). -/
def execSourceCapabilitiesReceived (p : Nat) (pdo : Word) (s : State) : Res := .next (atPd p (capsReceived p pdo) s)

/-- PS_RDY_RECEIVED (R371, R372). -/
def execPsRdyReceived (p : Nat) (s : State) : Res := .next (atPd p (psRdyReceived p) s)

/-- SWAP_PARTNER_SOURCE_SEEN (R362 step 4). -/
def execSwapPartnerSourceSeen (p : Nat) (s : State) : Res := .next (atDown p (swapSource p) s)

/-- TSWAP_ATTACH_EXPIRES (R363). -/
def execTswapAttachExpires (p : Nat) (s : State) : Res := .next (atDown p (swapNoSource p) s)

/-- SWAPPED_VBUS_LOST (R364). -/
def execSwappedVbusLost (p : Nat) (s : State) : Res := .next (atDown p (swappedDetach p) s)

/-- SWAPPED_HR_RD_TIMEOUT (R364). -/
def execSwappedHrRdTimeout (p : Nat) (s : State) : Res := .next (atDown p (swappedNoRd p) s)

/-- After tSVC_DFP as DFP the HK32 sends DR_Swap (R365). -/
def svcDfpEnds (s : State) : State :=
  if !s.svc.pd.ufp && s.svc.pd.ask.isNone then
    pdSend 32 .drSwap [] (modPdOf 32 (fun d => { d with ask := some .swap, askSent := true, swapTries := 0 }) s)
  else s

/-- TSVC_DFP_EXPIRES (R365). -/
def execTsvcDfpExpires (s : State) : Res := .next (atPd 32 svcDfpEnds s)

/-- VDM_REQUEST_RECEIVED (R366). -/
def execVdmRequestReceived (p : Nat) (req : VdmReq) (s : State) : Res := .next (atPd p (vdmRequest p req) s)

/-- VDM_RESPONSE_RECEIVED (R367, R368, R370). -/
def execVdmResponseReceived (p : Nat) (ans : VdmAns) (vdos : List Word) (s : State) : Res :=
  .next (atDown p (vdmResponse p ans vdos) s)

/-- TVDM_EXPIRES (R367, R370). -/
def execTvdmExpires (p : Nat) (s : State) : Res := .next (atDown p (vdmTimeout p) s)

/-- TVDM_ENTER_EXPIRES (R368). -/
def execTvdmEnterExpires (p : Nat) (s : State) : Res := .next (atDown p (enterTimeout p) s)

/-- Exit Mode is answered with NAK, and a mode that a downstream port has entered ends (R366, R370). The answer's SVID is the
partner's, which the command does not carry: the entered mode's, else a free value (notes/assumptions/170.md). -/
def exitMode (p : Nat) (s : State) : State :=
  let svid := if (s.pdOf p).alt then s.timebaseSvid else Config.freeNat s.free % 65536
  let s1 := pdSend p .vdmNak [vdmHead svid 2 0 5] (useFree s)
  if p = 32 then s1 else altExit p 2 s1

/-- EXIT_MODE_RECEIVED (R366, R370). -/
def execExitModeReceived (p : Nat) (s : State) : Res := .next (atPd p (exitMode p) s)

/-- PRAIL15_LOW (R342, R398). -/
def execPrail15Low (s : State) : Res :=
  .next (if s.board.rail15 && s.powered then finish (if s.busRuns then rail15Lost s else holdRail15 s) else s)

/-- PRAIL15_RESTORED (R342). -/
def execPrail15Restored (s : State) : Res := .next (if !s.board.rail15 && s.powered then finish (rail15Back s) else s)

/-- SVC_VBUS appears with the source's Rp level (R243, R371, R372). -/
def svcVbusSeen (rp : Nat) (s : State) : State :=
  let s1 := servicePower (sat 2 rp) (rpMa rp) (modSvc (fun v => { v with vbus := true, rp := sat 2 rp }) s)
  if s1.posting then svcAttach s1 else s1

/-- The source's Rp level changes while SVC_VBUS is present (R371). Once the wait for Source_Capabilities is over and no contract
stands, the level decides on SVC_GATE (R372; notes/assumptions/173.md). -/
def svcRpChanged (rp : Nat) (s : State) : State :=
  let s1 := servicePower (sat 2 rp) (rpMa rp) (modSvc (fun v => { v with rp := sat 2 rp }) s)
  if s.svc.waited && s.svc.pd.st == .noContract then closeSvcGate s1 else s1

/-- SVC_VBUS_PRESENT (R371, R372): SVC_VBUS appears, or its source shows another Rp level. -/
def execSvcVbusPresent (rp : Nat) (s : State) : Res :=
  .next (if !s.powered then s
    else if !s.svc.vbus then finish (svcVbusSeen rp s)
    else if s.svc.rp != sat 2 rp then finish (svcRpChanged rp s) else s)

/-- SVC_CAPS_WAIT_EXPIRES (R372): the Rp level alone decides. -/
def svcCapsWaitEnds (s : State) : State :=
  let s1 := modSvc (fun v => { v with waited := true }) s
  if s.svc.caps || s.svc.pd.st != .noContract then s1 else closeSvcGate s1

/-- SVC_CAPS_WAIT_EXPIRES (R372). -/
def execSvcCapsWaitExpires (s : State) : Res := .next (atPd 32 svcCapsWaitEnds s)

/-- The current stays at the limit of SVC_GATE for 10 ms: the gate opens and the logic supply is gone (R373). -/
def svcOverload (s : State) : State :=
  if !s.svc.gate then s
  else
    let s1 := ashRecord 3 s.svc.limitMa (modSvc (fun v => { v with gate := false, pause := true }) s)
    if s1.dev.power == .service && !s1.feedPresent then dieReset false s1 else s1

/-- SVC_GATE_OVERLOAD (R373). -/
def execSvcGateOverload (s : State) : Res := .next (atPd 32 svcOverload s)

/-- SVC_GATE_RECLOSE (R373). -/
def execSvcGateReclose (s : State) : Res :=
  .next (atPd 32 (fun t => if t.svc.pause then closeSvcGate (modSvc (fun v => { v with pause := false }) t) else t) s)

/-- NEW_VOLTAGE_NOT_GOOD (R591). -/
def execNewVoltageNotGood (p : Nat) (s : State) : Res := .next (atDown p (voltageLate p) s)

end Sys2Proof.Machine
end

