-- ==== Sys2Proof/Machine/PowerEvents.lean ====
section
/-!
DEFINITION. The meanings of the power-path commands: protection of the ports, the 5 V rail, feeds, seating, the logic-die
reset and the hold (R378 to R403). The power die takes them whenever it has a supply.
-/
namespace Sys2Proof.Machine

/-- A step of the power die, with what follows at its end. -/
def atPower (f : State → State) (s : State) : State := if s.powered then finish (f s) else s

/-- The same on a present port. -/
def atSwitch (p : Nat) (f : State → State) (s : State) : State := if s.hasPort p then atPower f s else s

/-- TFAULT_REACHED (R379). -/
def execTfaultReached (p : Nat) (s : State) : Res := .next (atSwitch p (faultTime p) s)

/-- TRAMP_PG_EXPIRES (R382). -/
def execTrampPgExpires (p vsns : Nat) (s : State) : Res := .next (atSwitch p (rampTime p vsns) s)

/-- TFET_CHECK_EXPIRES (R383). -/
def execTfetCheckExpires (p : Nat) (vsns : FetSense) (s : State) : Res := .next (atSwitch p (fetCheck p vsns) s)

/-- PRAIL5_LOW (R390). -/
def execPrail5Low (mv : Nat) (s : State) : Res := .next (if s.board.rail5 then atPower (rail5Lost mv) s else s)

/-- PRAIL5_RESTORED (R390). -/
def execPrail5Restored (mv : Nat) (s : State) : Res := .next (atPower (rail5Back mv) s)

/-- FEED_VOLTAGE_PRESENT (R392). -/
def execFeedVoltagePresent (f : HostId) (mv : Nat) (s : State) : Res := .next (atPower (feedPresentNow f mv) s)

/-- FEED_VOLTAGE_LOST (R392). -/
def execFeedVoltageLost (f : HostId) (mv : Nat) (s : State) : Res := .next (atPower (feedLost f mv) s)

/-- SEAT_DEBOUNCE_COMPLETE (R396). -/
def execSeatDebounceComplete (s : State) : Res := .next (if s.board.seated then s else atPower seatDone s)

/-- SEAT_PIN_HIGH (R396). -/
def execSeatPinHigh (seat1 seat2 : Bool) (s : State) : Res :=
  .next (atPower (seatHigh seat1 seat2) s)

/-- BULK_PRECHARGED (R392). -/
def execBulkPrecharged (f : HostId) (s : State) : Res := .next (atPower (bulkReady f) s)

/-- A feed is on: a device that runs from the service port leaves SERVICE (R373, R455). -/
def feedGateOn (f : HostId) (mv : Nat) (s : State) : State :=
  let s1 := feedOn f mv s
  if s1.dev.power == .service && s1.feedPresent && s1.power.wake.isNone then startWake .service 0 s1 else s1

/-- FEED_GATE_ON (R373, R392, R394). -/
def execFeedGateOn (f : HostId) (mv : Nat) (s : State) : Res := .next (atPower (feedGateOn f mv) s)

/-- TPRECHARGE_EXPIRES (R392). -/
def execTprechargeExpires (f : HostId) (bulkMv : Nat) (s : State) : Res := .next (atPower (prechargeLate f bulkMv) s)

/-- FEED_LIMIT_REACHED (R161, R392, R393). -/
def execFeedLimitReached (f : HostId) (ma : Nat) (s : State) : Res := .next (atPower (feedLimitOn f ma) s)

/-- FEED_LIMIT_LEFT (R392). -/
def execFeedLimitLeft (f : HostId) (ma : Nat) (s : State) : Res := .next (atPower (feedLimitOff f ma) s)

/-- TFAULT_FEED_EXPIRES (R392). -/
def execTfaultFeedExpires (f : HostId) (ma : Nat) (s : State) : Res := .next (atPower (feedOverload f ma) s)

/-- REVERSE_CURRENT_DETECTED (R392). -/
def execReverseCurrentDetected (f : HostId) (ma : Nat) (s : State) : Res := .next (atPower (feedReverse f ma) s)

/-- TRETRY_FEED_EXPIRES (R392, R396). -/
def execTretryFeedExpires (f : HostId) (s : State) : Res := .next (if (s.feed f).retry then atPower (retryEnds f) s else s)

/-- LOGIC_DIE_RESET (R398, R524). -/
def execLogicDieReset (cause : ResetCause) (s : State) : Res := .next (atPower (dieReset (cause == .resetN)) s)

/-- THOLD_EXPIRES (R400). -/
def execTholdExpires (s : State) : Res := .next (atPower holdExpires s)

end Sys2Proof.Machine
end

