-- ==== Sys2Proof/Machine/FaultEvents.lean ====
section
/-!
DEFINITION. The meanings of the commands that are faults of their own, of the Ash log's drain, of the parity check and of the
ends of the intervals that merge events (R33, R122, R336, R433, R440, R474, R485, R489, R501, R522).
-/
namespace Sys2Proof.Machine

/-- The lockstep cores run: from the start of Mboter or of Kindling mode on, and at the last step of a wake. -/
def State.coresRun (s : State) : Bool :=
  match s.dev.phase with
  | .off => false
  | .reset => false
  | .waking => (match s.power.wake with | some w => w.step == 6 | none => false)
  | _ => true

/-- A fault of the cores. Before Mboter reports ready it fails the start (R501). -/
def coreFault (src : Nat) (s : State) : State :=
  if !s.coresRun then s
  else if s.dev.phase == .waking then startLate (ashFault 0 src 1 s)
  else raise src 1 s

/-- LOCKSTEP_MISMATCH (R33, R476, R501). -/
def execLockstepMismatch (s : State) : Res := .next (atPower (coreFault 134) s)

/-- MBOTER_WATCHDOG_EXPIRES (R474, R476, R501). -/
def execMboterWatchdogExpires (s : State) : Res := .next (atPower (coreFault 137) s)

/-- One sensor differs from the median of the twelve: the Ledger leaves it out of T_hot (R474, R529). -/
def sensorDiverges (k : Nat) (s : State) : State :=
  if 12 ≤ k ∨ s.ledger.sensorsOut.contains k = true then s
  else raise (122 + k) 1 (setSqc aDevTemp [16] (modLedger (fun l => { l with sensorsOut := l.sensorsOut ++ [k] }) s))

/-- SENSOR_DIVERGENCE (R474, R529). -/
def execSensorDivergence (k : Nat) (s : State) : Res := .next (atCore (sensorDiverges k) s)

/-- DIE_LINK_CHECK_FAILURE (R474). -/
def execDieLinkCheckFailure (s : State) : Res := .next (atChip (raise 135 1) s)

/-- ASH_LOG_DRAIN (R488, R489). -/
def execAshLogDrain (s : State) : Res := .next (atPower ashDrain s)

/-- CFG_PARITY_CHECK (R522, R523). -/
def execCfgParityCheck (upset : Option (Nat × Word)) (s : State) : Res := .next (atChip (parityCheck upset) s)

/-- The interval of a merged event is over: the event is posted with what it merged. -/
def intervalEnds (kind : MergeKind) (s : State) : State :=
  match kind with
  | .epService p => if s.hasPort p then serviceEnd p s else s
  | .canObjects ch => if s.hasCan ch then objectsEnd ch s else s
  | .frameErrors n => if s.hasTrunk n then frameErrorsEnd n s else s
  | .topologyChanged => topologyIntervalEnd s
  | .ppsGlitch => postGlitch s
  | .faultRepeat src => if src < 160 then repeatEnds src s else s

/-- EVENT_MERGE_INTERVAL_END (R122, R336, R433, R440, R485). -/
def execEventMergeIntervalEnd (kind : MergeKind) (s : State) : Res := .next (atChip (intervalEnds kind) s)

end Sys2Proof.Machine
end

