-- ==== Sys2Proof/Machine/CmdTable.lean ====
section
/-!
DEFINITION. The device and operations commands (R226, R259, R263, R264, R271 to R273), abort points (R270), and the command
of every opcode.
-/
namespace Sys2Proof.Machine

/-! ### DEV_IDENTIFY, DEV_STATUS, DEV_SET_ID, DEV_ECHO (R271, R272) -/

/-- The Peat store size in use, in MiB. -/
def State.peatSize (s : State) : Nat := if s.peatInUse then s.peat.mib else 0

def devIdentifyCmd : CmdSpec :=
  { len := 0,
    run := fun _ s =>
      (s, .final stOk (u32 (Variant.cap0 s.part.variant).toNat ++ u32 (Variant.cap1 s.part.variant).toNat ++ u16 s.dev.id.toNat ++
        u8 s.dev.power.code ++ u8 s.otp.lifeCycle ++ u32 s.dev.version.toNat ++ u32 s.peatSize ++ u64 s.part.uid.toNat)) }

def devStatusCmd : CmdSpec :=
  { len := 0,
    run := fun _ s =>
      let here (h : HostId) : Bool := (s.feed h).present
      (s, .final stOk (u8 s.dev.power.code ++ u8 (if s.dev.phase == .kindling then s.lich.kindling else 0) ++ u8 s.lich.bootCount ++
        u8 s.maxUnack ++ u16 s.dev.id.toNat ++ u16 s.activeSrcs.length ++ u32 s.uptime.toNat ++ sBytes 2 s.ledger.tHot ++
        u8 (b2n (here .a) + 2 * b2n (here .b) + 4 * b2n s.svc.vbus) ++
        u8 (b2n s.board.seated + 2 * b2n (s.feedA.retry || s.feedB.retry)) ++ u32 s.offMask ++ u32 s.lich.insertions.toNat)) }

def devSetIdCmd : CmdSpec :=
  { len := 4,
    bad := fun c _ => field c.params 0 2 == 0 || field c.params 0 2 == 0xFFFF || !zeros c.params [(2, 2)],
    run := fun c s =>
      let id := BitVec.ofNat 16 (field c.params 0 2)
      let old := u16 s.dev.id.toNat
      if s.dev.id = id ∧ s.lich.storedId = some id then (s, .final stAlready old) else (setDeviceId id s, .final stOk old) }

def devEchoCmd : CmdSpec := { len := 0, run := fun c s => (s, .final stOk c.params) }

/-! ### HOST_BIND, SEM_TAKE, SEM_GIVE (R226, R259) -/

/-- The result of HOST_BIND, as it stands when the command has reached its final status. -/
def State.bindAnswer (s : State) (h : HostId) : List Byte :=
  let b := (s.host h).bound
  u8 (viaKind b) ++ u8 (viaNo b) ++ u16 (viaOrigin b) ++ u32 (s.semMask h) ++ u32 ((s.host h).cseq + 1).toNat

/-- HOST_BIND binds to the transport that it came on. A local binding without port_enable, which went off while the command
waited, is LOCKED: a DESIGN CHOICE (notes/assumptions/153.md). -/
def hostBindCmd : CmdSpec :=
  { len := 4,
    bad := fun c _ =>
      let wd := field c.params 0 2
      decide (1 < byteAt c.params 2) || !zeros c.params [(3, 1)] || (wd != 0 && decide (wd < 10 ∨ 1000 < wd ∨ wd % 10 ≠ 0)),
    run := fun c s =>
      let wd := if field c.params 0 2 = 0 then 100 else field c.params 0 2
      if byteAt c.params 2 = 0 then
        if c.via = .localPort c.host ∧ s.portEnable c.host = false then (s, .final stLocked [])
        else if (s.host c.host).bound.isSome then
          let s1 := modHost c.host (fun r => { r with wdMs := wd }) s
          (s1, .final stAlready (s1.bindAnswer c.host))
        else
          let s1 := bindHost c.host c.via wd s
          (s1, .final stOk (s1.bindAnswer c.host))
      else if (s.host c.host).bound.isSome then
        let s1 := loseBinding c.host 2 s
        let s2 := { s1 with ops := s1.ops.map fun o => if o.host == c.host && o.tag == c.tag then { o with bound := false } else o }
        (s2, .final stOk (s2.bindAnswer c.host))
      else (s, .final stAlready (s.bindAnswer c.host)) }

/-- The result of SEM_TAKE and SEM_GIVE. -/
def State.semAnswer (s : State) (h : HostId) : List Byte := u32 (s.semMask h) ++ u32 (s.semMask (hOther h))

/-- SEM_TAKE (R259). One that was accepted before the binding was lost takes for a host without a binding: tSEMLOSS runs from there
(R231, R261; notes/assumptions/176.md). -/
def semTakeCmd : CmdSpec :=
  { len := 4,
    run := fun c s =>
      let ns := bitsOf 32 (field c.params 0 4)
      if ns.any fun n => (s.sem n).owner == hOwner (hOther c.host) then (s, .final stSemBusy (s.semAnswer c.host))
      else
        let s1 := foldS ns (fun n => setOwner n (hOwner c.host)) s
        let s2 := if (s.host c.host).bound.isNone then modHost c.host (fun r => { r with semTimer := true }) s1 else s1
        (s2, .final stOk (s2.semAnswer c.host)) }

def semGiveCmd : CmdSpec :=
  { len := 4,
    run := fun c s =>
      let s1 := foldS ((bitsOf 32 (field c.params 0 4)).filter fun n => (s.sem n).owner == hOwner c.host) (fun n => setOwner n 0) s
      (s1, .final stOk (s1.semAnswer c.host)) }

/-! ### OP_QUERY (R223) -/

def opQueryCmd : CmdSpec :=
  { len := 4,
    bad := fun c s =>
      let h := hostOf (byteAt c.params 0)
      let tag := BitVec.ofNat 16 (field c.params 2 2)
      decide (1 < byteAt c.params 0) || !zeros c.params [(1, 1)] ||
        ((s.opOf h tag).isNone && (s.host h).done.all fun d => d.tag != tag),
    run := fun c s =>
      let h := hostOf (byteAt c.params 0)
      let tag := BitVec.ofNat 16 (field c.params 2 2)
      match s.opOf h tag with
      | some o => (s, .final stOk ([0, 0] ++ u16 o.opcode.toNat ++ List.replicate 8 0))
      | none => match (s.host h).done.find? fun d => d.tag == tag with
        | none => (s, .final stBadParam [])
        | some d =>
          let r := d.result.getD []
          (s, .final stOk (u8 (if d.result.isSome then 1 else 2) ++ [0] ++ u16 d.opcode.toNat ++ u16 d.status.toNat ++ u16 r.length ++
            u32 d.cseq.toNat ++ r.take 228)) }

/-! ### OP_ABORT (R263, R264, R270) -/

/-- The transfer of a command ends at once where it stands at an abort point. -/
def abortNowXfer (o : Op) (s : State) : Option State :=
  match s.xfers.find? fun x => x.host == o.host && x.tag == o.tag with
  | some x => if s.xferFree x then some (abortXfer x s) else none
  | none => none

/-- A test that waits for its conditions or evacuates: its unit returns untested. -/
def abortTest (o : Op) (s : State) : Option State :=
  let mine (t : Test) : Bool := t.who == .run o.host o.tag
  match s.test with
  | some t =>
    if mine t && t.stage != 2 then some (abortOp o.host o.tag [] (endTest (if t.stage = 1 then unitBack t.unit s else s)))
    else if s.testQ.any mine then some (abortOp o.host o.tag [] { s with testQ := s.testQ.filter fun t => !mine t })
    else none
  | none => if s.testQ.any mine then some (abortOp o.host o.tag [] { s with testQ := s.testQ.filter fun t => !mine t }) else none

/-- A root enumeration stands between steps. -/
def State.betweenSteps (s : State) (p : Nat) : Bool :=
  match s.jobAt p .root with
  | some j => j.phase == .retryWait || j.phase == .queued
  | none => false

/-- The port that a PORT_ or PD_ command names. -/
def Op.port (o : Op) : Nat := byteAt o.params 0

/-- The abort of a running command where it stands at an abort point now; `none` where the abort waits for one. -/
def abortNow (o : Op) (s : State) : Option State :=
  let p := o.port
  match o.opcode.toNat with
  | 0x0005 => some (endAborter stAborted [] o s)
  | 0x0901 => some (endAborter stAborted [] o s)
  | 0x000B => (match s.power.entry with
      | some e => if e.host == o.host && e.tag == o.tag then some (abortOp o.host o.tag (powerResult s.dev.power 0xFF 0 0) (dropEntry s)) else none
      | none => none)
  | 0x0103 => if s.betweenSteps p then some (abortReset p s) else none
  | 0x0104 =>
    let l := suspLoc o.params
    if (s.port p).suspAsk.contains l then
      some (abortOp o.host o.tag [] (modPort p (fun r => { r with suspAsk := r.suspAsk.filter (· != l) }) s))
    else none
  | 0x0201 =>
    let e := epOf o.params
    (match s.ctx e with
     | some c => (match c.wait with
       | some w => some (quiet [e] (abortOp o.host o.tag (bindResult w.phase w.exp c.refuse 0) (setCtx e { c with wait := none, refuse := 0 } s)))
       | none => none)
     | none => none)
  | 0x0203 => abortNowXfer o s
  | 0x0204 => abortNowXfer o s
  | 0x0205 => abortNowXfer o s
  | 0x0403 =>
    let g := o.args.getD 0 0
    if s.stok.migs.any (fun m => m.group == g && m.handed) then none
    else
      let s1 := modStok (fun k => { k with orders := k.orders.filter fun x => x.group != g }) s
      some (abortOp o.host o.tag (u8 s.stok.pins.length) (abandonMig g s1))
  | 0x0502 =>
    if !(s.pdOf p).askSent && (s.pdOf p).ask == some .swap then
      some (abortOp o.host o.tag (u8 1 ++ u8 (s.role p)) (modPdOf p (fun d => { d with ask := none }) s))
    else none
  | 0x0603 => some (requestAbort (o.args.getD 0 0) (o.args.getD 1 0) s)
  | 0x0A00 => abortTest o s
  | 0x0A01 => (match s.cal with
      | some k =>
        if k.after.any (fun x => x.2 == some (o.host, o.tag)) then
          some (abortOp o.host o.tag (List.replicate 8 0)
            { s with cal := some { k with after := k.after.filter fun x => x.2 != some (o.host, o.tag) } })
        else none
      | none => none)
  | 0x0B01 =>
    let stop (t : State) : State := abortOp o.host o.tag (u8 s.fw.updated ++ u8 7) (modFw (fun f => { f with busy := .mixed }) t)
    if s.test.any fun t => t.isUpdate && t.stage == 0 then some (stop (endTest s))
    else if s.testQ.any Test.isUpdate then some (stop { s with testQ := s.testQ.filter fun t => !t.isUpdate })
    else none
  | _ => none

/-- An OP_ABORT of the command that it names is decided at once, or waits for an abort point or for the completion. -/
def runAbort (c : Cmd) (s : State) : State × Ans :=
  let tag := BitVec.ofNat 16 (field c.params 0 2)
  let wait : Ans := .running stAccepted 0 [tag.toNat]
  match (if tag = c.tag then none else s.opOf c.host tag) with
  | some o =>
    if !o.started then (abortOp c.host tag [] s, .final stOk [])
    else match abortNow o s with
      | some t => if (t.opOf c.host tag).isSome then (t, wait) else (t, .final stOk [])
      | none => (s, wait)
  | none => match (s.host c.host).done.find? fun d => d.tag == tag with
    | some d => (s, .final stAlready (u16 d.status.toNat ++ [0, 0] ++ u32 d.cseq.toNat))
    | none => (s, .final stBadParam [])

def opAbortCmd : CmdSpec := { len := 4, bad := fun c _ => !zeros c.params [(2, 2)], run := runAbort }

/-! ### Every opcode -/

/-- In DOZE a command that needs a gated island returns LOCKED (R459). -/
def inDoze (op : Nat) (c : CmdSpec) : CmdSpec :=
  if dozeLocked.contains op then
    { c with run := fun x s => if s.dev.power == .doze then (s, .final stLocked []) else c.run x s }
  else c

/-- The commands of each group. -/
def cmdGroup0 : Nat → Option CmdSpec
  | 0x01 => some devIdentifyCmd | 0x02 => some devStatusCmd | 0x03 => some devSetIdCmd | 0x04 => some devEchoCmd
  | 0x05 => some opAbortCmd | 0x06 => some opQueryCmd | 0x07 => some devWarmRestartCmd | 0x08 => some hostBindCmd
  | 0x09 => some semTakeCmd | 0x0A => some semGiveCmd | 0x0B => some devPowerStateCmd | _ => none
def cmdGroup1 : Nat → Option CmdSpec
  | 0x00 => some portEnableCmd | 0x01 => some portDisableCmd | 0x02 => some portStatusCmd | 0x03 => some portBusResetCmd
  | 0x04 => some portSuspendCmd | 0x05 => some portResumeCmd | 0x06 => some portPowerCycleCmd | 0x07 => some portSetPolicyCmd
  | 0x08 => some treeListCmd | _ => none
def cmdGroup2 : Nat → Option CmdSpec
  | 0x00 => some epListCmd | 0x01 => some epBindCmd | 0x02 => some epUnbindCmd | 0x03 => some epControlCmd
  | 0x04 => some epWriteCmd | 0x05 => some epReadCmd | 0x06 => some epStateCmd | _ => none
def cmdGroup3 : Nat → Option CmdSpec
  | 0x00 => some qConfigCmd | 0x01 => some qStatusCmd | 0x02 => some qFlushCmd | 0x03 => some qReplayCmd | _ => none
def cmdGroup4 : Nat → Option CmdSpec
  | 0x00 => some budgetSetCmd | 0x01 => some budgetStatusCmd | 0x02 => some placeHintCmd | 0x03 => some placePinCmd
  | 0x04 => some placeReportCmd | _ => none
def cmdGroup5 : Nat → Option CmdSpec
  | 0x00 => some pdSetCapsCmd | 0x01 => some pdStatusCmd | 0x02 => some pdDrSwapCmd | 0x03 => some pdHardResetCmd
  | 0x04 => some pdDiscoverCmd | 0x05 => some pdAltmodeCmd | _ => none
def cmdGroup6 : Nat → Option CmdSpec
  | 0x00 => some canConfigCmd | 0x01 => some canObjConfigCmd | 0x02 => some canFilterSetCmd | 0x03 => some canSendCmd
  | 0x04 => some canStatusCmd | 0x05 => some canTimeMasterCmd | _ => none
def cmdGroup7 : Nat → Option CmdSpec
  | 0x00 => some trkConfigCmd | 0x01 => some trkStatusCmd | 0x02 => some trkRouteCmd | 0x03 => some trkDiscoverCmd | _ => none
def cmdGroup8 : Nat → Option CmdSpec
  | 0x00 => some timeSetCmd | 0x01 => some timeGetCmd | 0x02 => some timeStatusCmd | _ => none
def cmdGroup9 : Nat → Option CmdSpec
  | 0x00 => some fltReadCmd | 0x01 => some fltAckCmd | 0x02 => some fltForceCmd | 0x03 => some ashReadCmd | _ => none
def cmdGroupA : Nat → Option CmdSpec
  | 0x00 => some testRunCmd | 0x01 => some calRunCmd | 0x02 => some testStatusCmd | _ => none
def cmdGroupB : Nat → Option CmdSpec
  | 0x00 => some fwStageCmd | 0x01 => some fwActivateCmd | 0x02 => some fwStatusCmd | 0x03 => some secLifecycleCmd
  | 0x04 => some secKeyCmd | 0x05 => some secProvisionCmd | _ => none

/-- The command of an opcode; `none` where no opcode is defined (R225, BAD_OPCODE). -/
def cmdOf (op : Nat) : Option CmdSpec :=
  let lo := op % 256
  let c := match op / 256 with
    | 0x0 => cmdGroup0 lo | 0x1 => cmdGroup1 lo | 0x2 => cmdGroup2 lo | 0x3 => cmdGroup3 lo | 0x4 => cmdGroup4 lo
    | 0x5 => cmdGroup5 lo | 0x6 => cmdGroup6 lo | 0x7 => cmdGroup7 lo | 0x8 => cmdGroup8 lo | 0x9 => cmdGroup9 lo
    | 0xA => cmdGroupA lo | 0xB => cmdGroupB lo | _ => none
  c.map (inDoze op)

/-- A command packet of a given opcode reaches the device. -/
def command (op : Nat) (c : CmdSpec) (p : Packet) (s : State) : State := finish (serve op (inDoze op c) p s)

/-- An entered command starts (R224). -/
def startEntered (o : Op) (s : State) : State :=
  match cmdOf o.opcode.toNat with
  | some c => startOp c o s
  | none => s

end Sys2Proof.Machine
end

