-- ==== Sys2Proof/Machine/HostCommands.lean ====
section
/-!
DEFINITION. The meanings of the host commands: a packet that carries the opcode reaches the device (R217, R221). What each
command does is its CmdSpec; `command` is the acceptance, the start, the reply and what follows at the end of the step.
-/
namespace Sys2Proof.Machine

/-- DEV_IDENTIFY (R271), opcode 0x0001. -/
def execDevIdentify (p : Packet) (s : State) : Res := .next (command 0x0001 devIdentifyCmd p s)

/-- DEV_STATUS (R271), opcode 0x0002. -/
def execDevStatus (p : Packet) (s : State) : Res := .next (command 0x0002 devStatusCmd p s)

/-- DEV_SET_ID (R272), opcode 0x0003. -/
def execDevSetId (p : Packet) (s : State) : Res := .next (command 0x0003 devSetIdCmd p s)

/-- DEV_ECHO (R271), opcode 0x0004. -/
def execDevEcho (p : Packet) (s : State) : Res := .next (command 0x0004 devEchoCmd p s)

/-- OP_ABORT (R263), opcode 0x0005. -/
def execOpAbort (p : Packet) (s : State) : Res := .next (command 0x0005 opAbortCmd p s)

/-- OP_QUERY (R223), opcode 0x0006. -/
def execOpQuery (p : Packet) (s : State) : Res := .next (command 0x0006 opQueryCmd p s)

/-- DEV_WARM_RESTART (R273), opcode 0x0007. -/
def execDevWarmRestart (p : Packet) (s : State) : Res := .next (command 0x0007 devWarmRestartCmd p s)

/-- HOST_BIND (R226), opcode 0x0008. -/
def execHostBind (p : Packet) (s : State) : Res := .next (command 0x0008 hostBindCmd p s)

/-- SEM_TAKE (R259), opcode 0x0009. -/
def execSemTake (p : Packet) (s : State) : Res := .next (command 0x0009 semTakeCmd p s)

/-- SEM_GIVE (R259), opcode 0x000A. -/
def execSemGive (p : Packet) (s : State) : Res := .next (command 0x000A semGiveCmd p s)

/-- DEV_POWER_STATE (R456), opcode 0x000B. -/
def execDevPowerState (p : Packet) (s : State) : Res := .next (command 0x000B devPowerStateCmd p s)

/-- PORT_ENABLE (R276), opcode 0x0100. -/
def execPortEnable (p : Packet) (s : State) : Res := .next (command 0x0100 portEnableCmd p s)

/-- PORT_DISABLE (R276), opcode 0x0101. -/
def execPortDisable (p : Packet) (s : State) : Res := .next (command 0x0101 portDisableCmd p s)

/-- PORT_STATUS (R275), opcode 0x0102. -/
def execPortStatus (p : Packet) (s : State) : Res := .next (command 0x0102 portStatusCmd p s)

/-- PORT_BUS_RESET (R276), opcode 0x0103. -/
def execPortBusReset (p : Packet) (s : State) : Res := .next (command 0x0103 portBusResetCmd p s)

/-- PORT_SUSPEND (R67), opcode 0x0104. -/
def execPortSuspend (p : Packet) (s : State) : Res := .next (command 0x0104 portSuspendCmd p s)

/-- PORT_RESUME (R70), opcode 0x0105. -/
def execPortResume (p : Packet) (s : State) : Res := .next (command 0x0105 portResumeCmd p s)

/-- PORT_POWER_CYCLE (R385), opcode 0x0106. -/
def execPortPowerCycle (p : Packet) (s : State) : Res := .next (command 0x0106 portPowerCycleCmd p s)

/-- PORT_SET_POLICY (R54), opcode 0x0107. -/
def execPortSetPolicy (p : Packet) (s : State) : Res := .next (command 0x0107 portSetPolicyCmd p s)

/-- TREE_LIST (R274), opcode 0x0108. -/
def execTreeList (p : Packet) (s : State) : Res := .next (command 0x0108 treeListCmd p s)

/-- EP_LIST (R277), opcode 0x0200. -/
def execEpList (p : Packet) (s : State) : Res := .next (command 0x0200 epListCmd p s)

/-- EP_BIND (R278), opcode 0x0201. -/
def execEpBind (p : Packet) (s : State) : Res := .next (command 0x0201 epBindCmd p s)

/-- EP_UNBIND (R119), opcode 0x0202. -/
def execEpUnbind (p : Packet) (s : State) : Res := .next (command 0x0202 epUnbindCmd p s)

/-- EP_CONTROL (R279), opcode 0x0203. -/
def execEpControl (p : Packet) (s : State) : Res := .next (command 0x0203 epControlCmd p s)

/-- EP_WRITE (R280), opcode 0x0204. -/
def execEpWrite (p : Packet) (s : State) : Res := .next (command 0x0204 epWriteCmd p s)

/-- EP_READ (R280), opcode 0x0205. -/
def execEpRead (p : Packet) (s : State) : Res := .next (command 0x0205 epReadCmd p s)

/-- EP_STATE (R82), opcode 0x0206. -/
def execEpState (p : Packet) (s : State) : Res := .next (command 0x0206 epStateCmd p s)

/-- Q_CONFIG (R282), opcode 0x0300. -/
def execQConfig (p : Packet) (s : State) : Res := .next (command 0x0300 qConfigCmd p s)

/-- Q_STATUS (R281), opcode 0x0301. -/
def execQStatus (p : Packet) (s : State) : Res := .next (command 0x0301 qStatusCmd p s)

/-- Q_FLUSH (R200), opcode 0x0302. -/
def execQFlush (p : Packet) (s : State) : Res := .next (command 0x0302 qFlushCmd p s)

/-- Q_REPLAY (R210), opcode 0x0303. -/
def execQReplay (p : Packet) (s : State) : Res := .next (command 0x0303 qReplayCmd p s)

/-- BUDGET_SET (R284), opcode 0x0400. -/
def execBudgetSet (p : Packet) (s : State) : Res := .next (command 0x0400 budgetSetCmd p s)

/-- BUDGET_STATUS (R285), opcode 0x0401. -/
def execBudgetStatus (p : Packet) (s : State) : Res := .next (command 0x0401 budgetStatusCmd p s)

/-- PLACE_HINT (R129), opcode 0x0402. -/
def execPlaceHint (p : Packet) (s : State) : Res := .next (command 0x0402 placeHintCmd p s)

/-- PLACE_PIN (R130), opcode 0x0403. -/
def execPlacePin (p : Packet) (s : State) : Res := .next (command 0x0403 placePinCmd p s)

/-- PLACE_REPORT (R286), opcode 0x0404. -/
def execPlaceReport (p : Packet) (s : State) : Res := .next (command 0x0404 placeReportCmd p s)

/-- PD_SET_CAPS (R288), opcode 0x0500. -/
def execPdSetCaps (p : Packet) (s : State) : Res := .next (command 0x0500 pdSetCapsCmd p s)

/-- PD_STATUS (R287), opcode 0x0501. -/
def execPdStatus (p : Packet) (s : State) : Res := .next (command 0x0501 pdStatusCmd p s)

/-- PD_DR_SWAP (R361), opcode 0x0502. -/
def execPdDrSwap (p : Packet) (s : State) : Res := .next (command 0x0502 pdDrSwapCmd p s)

/-- PD_HARD_RESET (R358), opcode 0x0503. -/
def execPdHardReset (p : Packet) (s : State) : Res := .next (command 0x0503 pdHardResetCmd p s)

/-- PD_DISCOVER (R367), opcode 0x0504. -/
def execPdDiscover (p : Packet) (s : State) : Res := .next (command 0x0504 pdDiscoverCmd p s)

/-- PD_ALTMODE (R368), opcode 0x0505. -/
def execPdAltmode (p : Packet) (s : State) : Res := .next (command 0x0505 pdAltmodeCmd p s)

/-- CAN_CONFIG (R290), opcode 0x0600. -/
def execCanConfig (p : Packet) (s : State) : Res := .next (command 0x0600 canConfigCmd p s)

/-- CAN_OBJ_CONFIG (R419), opcode 0x0601. -/
def execCanObjConfig (p : Packet) (s : State) : Res := .next (command 0x0601 canObjConfigCmd p s)

/-- CAN_FILTER_SET (R425), opcode 0x0602. -/
def execCanFilterSet (p : Packet) (s : State) : Res := .next (command 0x0602 canFilterSetCmd p s)

/-- CAN_SEND (R426), opcode 0x0603. -/
def execCanSend (p : Packet) (s : State) : Res := .next (command 0x0603 canSendCmd p s)

/-- CAN_STATUS (R289), opcode 0x0604. -/
def execCanStatus (p : Packet) (s : State) : Res := .next (command 0x0604 canStatusCmd p s)

/-- CAN_TIME_MASTER (R428), opcode 0x0605. -/
def execCanTimeMaster (p : Packet) (s : State) : Res := .next (command 0x0605 canTimeMasterCmd p s)

/-- TRK_CONFIG (R302), opcode 0x0700. -/
def execTrkConfig (p : Packet) (s : State) : Res := .next (command 0x0700 trkConfigCmd p s)

/-- TRK_STATUS (R291), opcode 0x0701. -/
def execTrkStatus (p : Packet) (s : State) : Res := .next (command 0x0701 trkStatusCmd p s)

/-- TRK_ROUTE (R317), opcode 0x0702. -/
def execTrkRoute (p : Packet) (s : State) : Res := .next (command 0x0702 trkRouteCmd p s)

/-- TRK_DISCOVER (R291), opcode 0x0703. -/
def execTrkDiscover (p : Packet) (s : State) : Res := .next (command 0x0703 trkDiscoverCmd p s)

/-- TIME_SET (R293), opcode 0x0800. -/
def execTimeSet (p : Packet) (s : State) : Res := .next (command 0x0800 timeSetCmd p s)

/-- TIME_GET (R292), opcode 0x0801. -/
def execTimeGet (p : Packet) (s : State) : Res := .next (command 0x0801 timeGetCmd p s)

/-- TIME_STATUS (R292), opcode 0x0802. -/
def execTimeStatus (p : Packet) (s : State) : Res := .next (command 0x0802 timeStatusCmd p s)

/-- FLT_READ (R294), opcode 0x0900. -/
def execFltRead (p : Packet) (s : State) : Res := .next (command 0x0900 fltReadCmd p s)

/-- FLT_ACK (R481), opcode 0x0901. -/
def execFltAck (p : Packet) (s : State) : Res := .next (command 0x0901 fltAckCmd p s)

/-- FLT_FORCE (R484), opcode 0x0902. -/
def execFltForce (p : Packet) (s : State) : Res := .next (command 0x0902 fltForceCmd p s)

/-- ASH_READ (R294), opcode 0x0903. -/
def execAshRead (p : Packet) (s : State) : Res := .next (command 0x0903 ashReadCmd p s)

/-- TEST_RUN (R168), opcode 0x0A00. -/
def execTestRun (p : Packet) (s : State) : Res := .next (command 0x0A00 testRunCmd p s)

/-- CAL_RUN (R171), opcode 0x0A01. -/
def execCalRun (p : Packet) (s : State) : Res := .next (command 0x0A01 calRunCmd p s)

/-- TEST_STATUS (R295), opcode 0x0A02. -/
def execTestStatus (p : Packet) (s : State) : Res := .next (command 0x0A02 testStatusCmd p s)

/-- FW_STAGE (R496), opcode 0x0B00. -/
def execFwStage (p : Packet) (s : State) : Res := .next (command 0x0B00 fwStageCmd p s)

/-- FW_ACTIVATE (R506), opcode 0x0B01. -/
def execFwActivate (p : Packet) (s : State) : Res := .next (command 0x0B01 fwActivateCmd p s)

/-- FW_STATUS (R296), opcode 0x0B02. -/
def execFwStatus (p : Packet) (s : State) : Res := .next (command 0x0B02 fwStatusCmd p s)

/-- SEC_LIFECYCLE (R298), opcode 0x0B03. -/
def execSecLifecycle (p : Packet) (s : State) : Res := .next (command 0x0B03 secLifecycleCmd p s)

/-- SEC_KEY (R510), opcode 0x0B04. -/
def execSecKey (p : Packet) (s : State) : Res := .next (command 0x0B04 secKeyCmd p s)

/-- SEC_PROVISION (R299), opcode 0x0B05. -/
def execSecProvision (p : Packet) (s : State) : Res := .next (command 0x0B05 secProvisionCmd p s)

end Sys2Proof.Machine
end

