-- ==== Sys2Proof/Machine/IslandEvents.lean ====
section
/-!
DEFINITION. The meanings of the entry handshake, the wakes and the supply rails (R455 to R473).
-/
namespace Sys2Proof.Machine

/-- ISLAND_ENTRY_ANSWER (R457 to R462). -/
def execIslandEntryAnswer (busy : Bool) (s : State) : Res := .next (atPower (islandAnswers busy) s)

/-- ENTRY_DELAY_EXPIRES (R457). -/
def execEntryDelayExpires (s : State) : Res := .next (atPower delayEnds s)

/-- TENTRY_EXPIRES (R457). -/
def execTentryExpires (s : State) : Res := .next (atPower (entryEnds stTimeout 0xFF 0) s)

/-- The triggers that come from outside; 1 and 7 belong to a command and to a fault, 6 to its own timer (R466). -/
def outside (code : Nat) : Bool := code == 2 || code == 3 || code == 4 || code == 5 || code == 8

/-- WAKE_TRIGGER (R457, R466). -/
def execWakeTrigger (code : Nat) (s : State) : Res := .next (if outside code then atPower (wakeTrigger code) s else s)

/-- wake_after_s has passed in DOZE or HIBERNATE. -/
def wakeAfterEnds (s : State) : State :=
  if s.power.wakeAfter != 0 && (s.dev.power == .doze || s.dev.power == .hibernate) then wakeTrigger 6 s else s

/-- WAKE_AFTER_EXPIRES (R466). -/
def execWakeAfterExpires (s : State) : Res := .next (atPower wakeAfterEnds s)

/-- WAKE_STEP_READY (R465, R468 to R470). -/
def execWakeStepReady (lostPayload : List (Nat × Nat × Word)) (lostControl : List (Nat × CtrlContent)) (s : State) : Res :=
  .next (atPower (stepReady lostPayload lostControl) s)

/-- WAKE_STEP_LIMIT_EXPIRES (R467). -/
def execWakeStepLimitExpires (unit elapsedUs : Nat) (s : State) : Res := .next (atPower (wakeStepLate unit elapsedUs) s)

/-- WAKE_RETRY_TICK (R467). -/
def execWakeRetryTick (s : State) : Res := .next (atPower wakeRetry s)

/-- A rail is lost: one that the logic die needs resets it (R472). While RAIL_EN is low the board may remove rails 1, 3, 5 and 6
(R462). -/
def supplyLost (code : Nat) (s : State) : State :=
  if s.dev.power == .hibernate && s.power.wake.isNone && (code == 1 || code == 3 || code == 5 || code == 6) then s
  else if (code == 1 || code == 2 || code == 4) && s.dev.phase != .reset && !s.railOut code then railLost code (dieReset false s)
  else railLost code s

/-- SUPPLY_RAIL_LOST (R472). -/
def execSupplyRailLost (code : Nat) (s : State) : Res :=
  .next (if 1 ≤ code ∧ code ≤ 8 then atPower (supplyLost code) s else s)

/-- SUPPLY_RAIL_STABLE (R472). -/
def execSupplyRailStable (code : Nat) (s : State) : Res :=
  .next (if 1 ≤ code ∧ code ≤ 8 then atPower (railBack code) s else s)

end Sys2Proof.Machine
end

