-- ==== Sys2Proof/Machine/HostPorts.lean ====
section
/-!
DEFINITION. The host ports: the block map and its aliases (R514 to R517), register writes by class (R518 to R526), queue
windows (R186 to R189), semaphore registers (R257, R258, R260), rings and doorbells (R237, R238), the mailbox RAM (R551 to
R553), and COMMAND frames (R240).
-/
namespace Sys2Proof.Machine

/-! ### Mailbox RAM (R543, R553, R554) -/

/-- Canonical form: addresses strictly rising, and no entry equal to the 0 that an unlisted address reads as. -/
def Memory.wf : List Host.Cell → Bool
  | [] => true
  | [c] => c.2 != 0
  | c :: d :: r => c.2 != 0 && decide (c.1 < d.1) && Memory.wf (d :: r)

/-- Reads one byte. -/
def memGet (m : List Host.Cell) (a : Nat) : Byte := tget m 0 a
/-- Writes one byte; 0 removes the entry. -/
def memSet (a : Nat) (b : Byte) : List Host.Cell → List Host.Cell
  | [] => if b = 0 then [] else [(a, b)]
  | c :: r =>
    if a < c.1 then (if b = 0 then c :: r else (a, b) :: c :: r)
    else if a = c.1 then (if b = 0 then r else (a, b) :: r)
    else c :: memSet a b r

/-- The key store's part of the array reads 0 and ignores writes (R237, R554). -/
def mailRam (a : Nat) : Bool := decide (0x20000 ≤ a ∧ a < 0x2E000)
def State.mailByte (s : State) (a : Nat) : Byte := if mailRam a then memGet s.mail a else 0
def setMail (a : Nat) (b : Byte) (s : State) : State := if mailRam a then { s with mail := memSet a b s.mail } else s

/-- A word read: the aligned word rotated right by 8 × (a mod 4) bits. -/
def State.mailWord (s : State) (a : Nat) : Word :=
  let w := a - a % 4
  BitVec.ofNat 32 (leNat ((upTo 4).map fun j => s.mailByte (w + (j + a % 4) % 4)))

/-- A word write: lanes (a mod 4) to 3 of the aligned word take the low bytes of the value. -/
def writeMail (a : Nat) (v : Word) (s : State) : State :=
  foldS (upTo (4 - a % 4)) (fun j => setMail (a + j) (BitVec.ofNat 8 (v.toNat / 256 ^ j))) s

/-! ### Which accesses take place -/

/-- A host's port serves accesses: its island is on and the logic die runs. -/
def State.portOn (s : State) (h : HostId) : Bool :=
  !s.islandOff (0x22 + hCode h) && s.dev.phase != .off && s.dev.phase != .reset

/-- HOST_DECODE (R514, R516, R26, R234). -/
def decodeFault (s : State) : State := raise 140 1 s

def isMail (a : Nat) : Bool := decide (0x20000 ≤ a ∧ a < 0x30000)
def isObj (a : Nat) : Bool := decide (0x40000 ≤ a ∧ a < 0x60000)

/-- The target of an address in a register block: an offset beyond the implemented size aliases (R515, R516). -/
def aliasOf (a : Nat) : Nat :=
  if a < 0x10000 then
    match a / 0x1000 with
    | 0x3 => 0x3000 + a % 0x800
    | 0xA => 0xA000 + a % 0x400
    | 0xC => a
    | 0xD => a
    | 0xE => a - 0x1000
    | 0xF => a - 0x2000
    | b => 0x1000 * b + a % 0x100
  else if a < 0x14000 then a
  else if a < 0x18000 then 0x14000 + a % 0x2000
  else 0x18000 + (a - 0x18000) % 0x4000

/-- A register address in the window of an absent unit (R8, R517). -/
def State.absentReg (s : State) (a : Nat) : Bool :=
  if 0xC000 ≤ a ∧ a < 0xD000 then !s.hasTrunk ((a - 0xC000) / 0x400)
  else if 0xD000 ≤ a ∧ a < 0xE000 then !s.hasEngine ((a - 0xD000) / 0x100)
  else if 0x14000 ≤ a ∧ a < 0x16000 then !s.hasCan ((a - 0x14000) / 0x400)
  else if 0x18000 ≤ a ∧ a < 0x1C000 then !s.hasPort ((a - 0x18000) / 0x200)
  else false

/-! ### Rings (R237, R238) -/

/-- The 256 bytes of a slot; a word whose ring read collided with a write is undefined (R551). -/
def State.slotBytes (s : State) (at_ : Nat) : List Byte :=
  (upTo 64).flatMap fun i =>
    let a := at_ + 4 * i
    u32 (if s.mbx.torn.contains (a - 0x20000) then Config.freeWord (s.free + i) else s.mailWord a).toNat

def setHeld (h : HostId) (urgent v : Bool) (s : State) : State :=
  modHost h (fun r => if urgent then { r with heldU := v } else { r with heldN := v }) s

/-- The HK32 reads the next slot of a ring, unless the ring is empty or the command queue or reply queue has no room. -/
def readSlot (h : HostId) (urgent : Bool) (s : State) : Option State :=
  let r := s.host h
  let cons := if urgent then r.consU else r.consN
  if cons == (if urgent then r.prodU else r.prodN) then none
  else
    let at_ := slotAddr h urgent cons
    let (op, p0) := parsePacket (.localPort h) (s.slotBytes at_)
    let p : Packet := { p0 with delivered := 16 + p0.paramLen.toNat }
    let q := cmdQueue h (urgent || p.flags.getLsbD 2)
    if !s.cmdRoom q || !s.replySlot h || s.behind (.localPort h) urgent then none
    else
      let torn := s.mbx.torn.any fun w => decide (at_ ≤ w + 0x20000 ∧ w + 0x20000 < at_ + 256)
      let s1 := setHeld h urgent false
        (modHost h (fun r => if urgent then { r with consU := r.consU + 1 } else { r with consN := r.consN + 1 }) s)
      if torn then
        let rest := s.mbx.torn.filter fun w => !decide (at_ ≤ w + 0x20000 ∧ w + 0x20000 < at_ + 256)
        some (refuse op h p stBadCheck { s1 with mbx := { s1.mbx with torn := rest }, free := s1.free + 64 })
      else some (enter op (cmdOf op) (some q) p s1)

/-- Reads one ring as far as it can. -/
def readRing (h : HostId) (urgent : Bool) : Nat → State → State
  | 0, s => s
  | n + 1, s =>
    let r := s.host h
    if (if urgent then r.consU == r.prodU else r.consN == r.prodN) then setHeld h urgent false s
    else match readSlot h urgent s with
    | some t => readRing h urgent n t
    | none => setHeld h urgent true s

/-- A host is bound on another transport, so that what its local rings hold is not executed (R229). -/
def State.boundElsewhere (s : State) (h : HostId) : Bool := s.bellRefused (.localPort h)

/-- Whether the HK32 reads a host's rings now. -/
def State.readsRings (s : State) (h : HostId) : Bool :=
  s.dev.phase == .ready && s.hears (.localPort h) && !s.boundElsewhere h

/-- A ring of the host holds slots that a doorbell named and that are not read yet. -/
def State.unread (s : State) (h : HostId) : Bool := (s.host h).consN != (s.host h).prodN || (s.host h).consU != (s.host h).prodU

/-- Reads both rings, the urgent ring first (notes/assumptions/10.md). -/
def readRings (h : HostId) (s : State) : State :=
  if s.readsRings h then readRing h false 64 (readRing h true 16 s) else s

/-- HOSTx_DOORBELL (R229, R237, R238). -/
def doorbell (h : HostId) (v : Word) (s : State) : State :=
  let r := s.host h
  if s.boundElsewhere h then setSqc (aRing h) [3] s
  else
    let n : BitVec 8 := v.setWidth 8
    let u : BitVec 8 := (v >>> 8).setWidth 8
    let badN := v.getLsbD 16 && decide (64 < (n - r.consN).toNat)
    let badU := v.getLsbD 17 && decide (16 < (u - r.consU).toNat)
    let s1 := modHost h (fun r => { r with prodN := if v.getLsbD 16 && !badN then n else r.prodN,
                                           prodU := if v.getLsbD 17 && !badU then u else r.prodU }) s
    readRings h (if badN || badU then setSqc (aRing h) [2] s1 else s1)

/-- HOSTx_CTRL: port_enable; setting it reads the slots that a doorbell named before, as a doorbell would (R229), and clearing
it ends a local binding (R230); commands that are in Q0 to Q3 already are not affected (R237; notes/assumptions/155.md). -/
def hostCtrl (h : HostId) (v : Word) (s : State) : State :=
  let s1 := setCfg (aHostCtrl h) (v &&& 0x10000#32) s
  if !v.getLsbD 16 then (if (s.host h).bound = some (.localPort h) then unbindHost h 3 true s1 else s1)
  else if s.boundElsewhere h && s.unread h then setSqc (aRing h) [3] s1
  else readRings h s1

/-! ### SEM_TAKEn (R257, R258, R260) -/

/-- What the register shows to a host. -/
def State.semWord (s : State) (h : HostId) (n : Nat) : Word :=
  BitVec.ofNat 32 (2 * (s.sem n).owner + b2n ((s.sem n).owner == hOwner h))

/-- A take by a host with `tie`: the other host's take reached the unit in the same cycle. The winner of a tie is the host
that lost the previous one. -/
def takeSem (h : HostId) (n : Nat) (tie : Bool) (s : State) : State :=
  if (s.sem n).owner != 0 then s
  else if !tie then setOwner n (hOwner h) s
  else
    let w := (s.sem n).loser
    setOwner n (hOwner w) (setSem n { s.sem n with loser := hOther w } s)

/-- A read of SEM_TAKEn. -/
def readSem (h : HostId) (n : Nat) (ready tie : Bool) (s : State) : State :=
  let a := aHost h + 0x80 + 4 * n
  if !ready then emit (.readData h a 0xFFFFFFFF#32 true) s
  else if (s.host h).bound != some (.localPort h) then
    emit (.readData h a (BitVec.ofNat 32 (2 * (s.sem n).owner)) false) s
  else
    let s1 := takeSem h n tie s
    emit (.readData h a (s1.semWord h n) false) s1

def writeSem (h : HostId) (n : Nat) (s : State) : State :=
  if (s.sem n).owner == hOwner h then setOwner n 0 s else s

/-! ### Queue windows (R186 to R191) -/

/-- A host pops an IN queue that it owns, and pushes an OUT queue that it owns (R189). -/
def State.popsQueue (s : State) (h : HostId) (q : Nat) : Bool :=
  decide (4 ≤ q) && (s.queue q).owner == h && !(s.queue q).out
def State.pushesQueue (s : State) (h : HostId) (q : Nat) : Bool :=
  decide (8 ≤ q) && (s.queue q).owner == h && (s.queue q).out

/-- A pop: the queue, its events, the events held for the host and the end of REPLAY follow. -/
def popQueue (h : HostId) (q : Nat) (s : State) : State × Item :=
  let r := s.queue q
  let p := s.popFrom r
  let s1 := putQueue q p.q none s
  let s3 := replayCheck q (if p.underrun then markUnderrun q s1 else s1)
  (if q = 6 + hCode h then drainHeld h 2000 s3 else s3, p.shown)

def popHeader (h : HostId) (q : Nat) (ready : Bool) (s : State) : State :=
  if !s.popsQueue h q then emit (.readData h (aQue q) 0 false) (setSqc (aQueStatus q) [8] s)
  else if !ready then emit (.readData h (aQue q) 0xFFFFFFFF#32 true) s
  else
    let (s1, i) := popQueue h q s
    emit (.readData h (aQue q) i.hdr0 false) s1

/-- QUE_POP_DATA: the next payload word of the claimed item, 0 beyond its length. -/
def popData (h : HostId) (q : Nat) (ready : Bool) (s : State) : State :=
  let a := aQue q + 0x10
  if !s.popsQueue h q then emit (.readData h a 0 false) (setSqc (aQueStatus q) [8] s)
  else if !ready then emit (.readData h a 0xFFFFFFFF#32 true) s
  else
    let r := s.queue q
    emit (.readData h a (BitVec.ofNat 32 (field r.claimed.payload (4 * r.readPos) 4)) false)
      (setQueue q { r with readPos := r.readPos + 1 } s)

/-- The item of a host push: kind 0x5 for the owner host, type 1 (R188, R192). -/
def hostItem (h : HostId) (payload : List Byte) : Item :=
  { noneItem with typ := 1, source := BitVec.ofNat 32 (0x50000000 + hCode h), payload := payload }

/-- A push commits. -/
def commitPush (h : HostId) (q : Nat) (payload : List Byte) (s : State) : State :=
  pushItem q { hostItem h payload with stamp := s.time.now } (modQueue q (fun r => { r with push := none }) s)

/-- Whether a push header is refused (R188). -/
def State.pushRefused (s : State) (q typ len : Nat) : Bool :=
  (s.queue q).full || (s.queue q).st == .disabled || typ != 1 || decide (4080 < len)

def pushHeader (h : HostId) (q : Nat) (v : Word) (s : State) : State :=
  let len := v.toNat % 2 ^ 16
  if !s.pushesQueue h q then setSqc (aQueStatus q) [8] s
  else if s.pushRefused q (v.toNat / 2 ^ 16 % 16) len then
    setSqc (aQueStatus q) [9] (modQueue q (fun r => { r with push := none }) s)
  else if len = 0 then commitPush h q [] s
  else modQueue q (fun r => { r with push := some { len := len, data := [] } }) s

def pushData (h : HostId) (q : Nat) (v : Word) (s : State) : State :=
  if !s.pushesQueue h q then setSqc (aQueStatus q) [8] s
  else match (s.queue q).push with
  | none => s
  | some p =>
    let data := p.data ++ u32 v.toNat
    if p.len ≤ data.length then commitPush h q (data.take p.len) s
    else modQueue q (fun r => { r with push := some { p with data := data } }) s

/-! ### Register writes -/

/-- The CN island is gated, so that its CONTROL registers are ignored (R26). -/
def State.canGated (s : State) : Bool := s.islandOff 0x20

/-- A write into CAN message RAM: the requests of a control word are CONTROL. -/
def writeObj (h : HostId) (a : Nat) (v : Word) (s : State) : State :=
  let ch := (a - 0x40000) / 0x4000
  let off := (a - 0x40000) % 0x4000
  if !s.hasCan ch then s
  else if s.canGated then (if off % 128 = 0 then decodeFault s else s)
  else writeObject h ch (off / 128) (off % 128 / 4) v s

/-- A write to the FLT block's CONTROL registers (R484, R531). -/
def writeFlt (a : Nat) (v : Word) (s : State) : State :=
  let src := v.toNat % 256
  if 0x4010 ≤ a ∧ a < 0x4024 then writeForce ((a - 0x4010) / 4) v s
  else if a = 0x4024 then (if src < 160 then injectPulse src s else s)
  else if a = 0x4028 then (if src < 160 then (ackFlt src (v.getLsbD 8) s).1 else s)
  else s

/-- A write to a STATUS register clears the SQC fields that the written sequence covers (R518, R520). -/
def writeStatus (a : Nat) (v : Word) (s : State) : State :=
  match tfind a s.sqc with
  | some r => { s with sqc := tset s.sqc a (sqcClear v r) }
  | none => s

/-- A write through a host's port to its own HOST block. -/
def writeHostBlock (h : HostId) (off : Nat) (v : Word) (s : State) : State :=
  if off = 0x08 then hostCtrl h v s
  else if off = 0x0C then s
  else if off = 0x10 then doorbell h v s
  else if 0x80 ≤ off then writeSem h ((off - 0x80) / 4) s
  else writeStatus (aHost h + off) v s

/-- A scrub pass is asked for (R536). -/
def scrubNow (s : State) : State := if s.peat.st = 2 then modPeat (fun m => { m with scrubbing := true }) s else s

/-- A write to a register at its own address (R518). -/
def writeReg (h : HostId) (a : Nat) (v : Word) (s : State) : State :=
  if s.absentReg a then s
  else if 0x1000 ≤ a ∧ a < 0x3000 then
    if (a - 0x1000) / 0x1000 = hCode h then writeHostBlock h (a % 0x1000) v s else decodeFault s
  else if (scratchOf a).isSome then queueLich ((a - 0x6020) / 4) v s
  else if s.isConfig a then holdOrWrite h a v s
  else if 0x4010 ≤ a ∧ a < 0x402C then writeFlt a v s
  else if a = 0x8040 then (if v.getLsbD 0 then replan .periodic s else s)
  else if a = 0x9040 then (if v.getLsbD 0 then scrubNow s else s)
  else if 0x10000 ≤ a ∧ a < 0x14000 ∧ a % 0x100 = 0x20 then pushHeader h ((a - 0x10000) / 0x100) v s
  else if 0x10000 ≤ a ∧ a < 0x14000 ∧ a % 0x100 = 0x24 then pushData h ((a - 0x10000) / 0x100) v s
  else if 0x14000 ≤ a ∧ a < 0x16000 ∧ a % 0x400 = 0x40 then
    if s.canGated then decodeFault s else abortAll h ((a - 0x14000) / 0x400) v s
  else writeStatus a v s

/-! ### The mailbox array (R551 to R553) -/

def mbxAddr : MbxOp → Nat
  | .read a => a
  | .write a _ => a

/-- An access that the array takes: the port is on and the address lies in the mailbox RAM. -/
def State.mbxOp (s : State) (h : HostId) (o : Option MbxOp) : Option MbxOp :=
  match o with
  | some x => if s.portOn h && isMail (mbxAddr x) then some x else none
  | none => none

/-- The aligned word that an access writes; none into the key store. -/
def writesWord : Option MbxOp → Option Nat
  | some (.write a _) => if mailRam a then some (a - a % 4) else none
  | _ => none

/-- A conflict is recorded: the later port pulses (R551). -/
def conflict (reader pulsed : HostId) (w : Nat) (s : State) : State :=
  let s1 := emit (.busyPulse pulsed) s
  setSqc aMbxConflict [19] (raise 142 1 { s1 with
    mbx := { s1.mbx with reader := reader, pulsed := pulsed, offset := w - 0x20000, count := satAdd s1.mbx.count 1 } })

/-- The access of one port beside that of the other. -/
def portAccess (h : HostId) (o other : Option MbxOp) (later : HostId) (s : State) : State :=
  match o with
  | some (.read a) =>
    if writesWord other == some (a - a % 4) then
      conflict h later (a - a % 4) (emit (.readData h a (Config.freeWord s.free) false) (useFree s))
    else emit (.readData h a (s.mailWord a) false) s
  | _ => s
def portWrite (o : Option MbxOp) (s : State) : State :=
  match o with
  | some (.write a v) =>
    writeMail a v { s with mbx := { s.mbx with torn := s.mbx.torn.filter (· != a - a % 4 - 0x20000) } }
  | _ => s

/-- The control island's ring read in the same cycle, through its host's port. -/
def ringAccess (r : Option (HostId × Nat)) (a b : Option MbxOp) (s : State) : State :=
  match r with
  | none => s
  | some (h, at_) =>
    let w := at_ - at_ % 4
    if writesWord (match h with | .a => b | .b => a) == some w then
      conflict h (hOther h) w { s with mbx := { s.mbx with torn := (w - 0x20000) :: s.mbx.torn } }
    else s

/-- One mailbox cycle. Reads see the array as it stood; port B's byte lanes win over port A's. -/
def mailboxCycle (c : MbxCycle) (s : State) : State :=
  let a := s.mbxOp .a c.portA
  let b := s.mbxOp .b c.portB
  ringAccess c.ring a b (portWrite b (portWrite a (portAccess .b b a c.later (portAccess .a a b c.later s))))

/-! ### Bursts (R235, R236) -/

/-- The address of word `k` of a transaction: it rises by 4 a word, but stays at QUE_POP_DATA and QUE_PUSH_DATA. -/
def burstAddr (a k : Nat) : Nat :=
  let off := aliasOf a % 0x100
  if 0x10000 ≤ a ∧ a < 0x14000 ∧ (off = 0x10 ∨ off = 0x24) then a else a + 4 * k

/-! ### One host write -/

/-- A write through a host port to any address (R514 to R517). -/
def hostWrite (h : HostId) (a : Nat) (v : Word) (s : State) : State :=
  if !s.portOn h then s
  else if isMail a then portWrite (some (.write a v)) s
  else if a % 4 != 0 then decodeFault s
  else if isObj a then writeObj h a v s
  else if 0x20000 ≤ a then decodeFault s
  else writeReg h (aliasOf a) v s

/-- The words of a WRITE take effect one after the other (R24, R235). A transaction moves up to 64 words. -/
def writeBurst (h : HostId) (a : Nat) (vs : List Word) (s : State) : State :=
  ((vs.take 64).foldl (fun (acc : State × Nat) v => (hostWrite h (burstAddr a acc.2) v acc.1, acc.2 + 1)) (s, 0)).1
/-- A WRITE that finds the port's write buffer of 16 words full has no effect, and BUSY_N says so (R236). When the buffer is
full is an input (notes/assumptions/154.md). -/
def hostBurst (h : HostId) (a : Nat) (vs : List Word) (room : Bool) (s : State) : State :=
  if room then writeBurst h a vs s else if s.portOn h then emit (.busyWrite h) s else s

/-- A read of a HOST block register through a port: another host's block reads 0 and raises HOST_DECODE (R239). -/
def ownBlock (port blk : HostId) (a : Nat) (f : State → State) (s : State) : State :=
  if !s.portOn port then s else if port = blk then f s else emit (.readData port a 0 false) (decodeFault s)

/-- A read of a CAN object word that has an effect; 0 for an absent unit, the captured word while CN is gated (R8, R26). -/
def readObj (h : HostId) (ch k w : Nat) (f : State → State) (s : State) : State :=
  if !s.portOn h then s
  else if !s.hasCan ch || decide (128 ≤ k) then emit (.readData h (aObj ch k w) 0 false) s
  else if s.canGated then emit (.readData h (aObj ch k w) (((s.can ch).obj k).word w) false) s
  else f s

/-! ### COMMAND frames (R240, R332) -/

/-- A packet that came over a trunk enters its queue, or waits in the receive buffer with its link credit. -/
def enterFrame (n : Nat) (f : FrameHdr) (bytes : List Byte) (s : State) : State :=
  let (op, p) := parsePacket (.trunk n f.src) bytes
  let q := cmdQueue (s.senderOf p) (p.flags.getLsbD 2)
  if s.mustWait p then
    let s1 := modTrunk n (fun t => { t with rx := t.rx + 1 }) s
    { s1 with arrivals := s1.arrivals ++ [{ opcode := op, urgent := p.flags.getLsbD 2, pkt := p, credit := some f.cls }] }
  else if s.hears p.via then enter op (cmdOf op) (some q) p (takeFrame n f bytes.length s)
  else takeFrame n f bytes.length s

/-- A COMMAND frame arrives on a link in BLOCKED or UP: for this device, or on its way to another. -/
def commandFrame (n : Nat) (f : FrameHdr) (bytes : List Byte) (s : State) : State :=
  if !s.hasTrunk n || !(s.trunk n).st.linked then s
  else if s.forMe f then enterFrame n f bytes s
  else forwardFrame n 1 false f bytes s

end Sys2Proof.Machine
end

