-- ==== Sys2Proof/Machine/RegRead.lean ====
section
/-!
DEFINITION. What each register shows: the field maps of R5, R190, R239, R403, R418, R529 to R542 and R560. A read of these
words has no effect; the reads that have one are commands of the table (Machine/RegisterAccess.lean).
-/
namespace Sys2Proof.Machine

/-- DEV block (R5, R6, R529). -/
def State.devReg (s : State) (a : Nat) : Nat :=
  match a with
  | 0x00 => s.sqWord aDevId + s.dev.id.toNat
  | 0x04 => s.sqWord aDevState + pack [(s.lich.bootCount, 16, 8), (s.dev.power.code, 12, 4), (s.otp.lifeCycle, 10, 2),
      (b2n s.dev.peatHeld, 9, 1), (s.maxUnack, 0, 3)]
  | 0x08 => s.dev.version.toNat
  | 0x0C => s.sqWord aDevIslands + s.dev.islandsOff.toNat
  | 0x10 => (Variant.cap0 s.part.variant).toNat
  | 0x14 => (Variant.cap1 s.part.variant).toNat
  | 0x18 => low32 s.part.uid.toNat
  | 0x1C => high32 s.part.uid.toNat
  | 0x20 => s.uptime.toNat
  | 0x24 => s.sqWord aDevTemp + signed s.ledger.tHot % 2 ^ 16
  | _ => 0

/-- A host's own HOST block (R239). -/
def State.hostReg (s : State) (h : HostId) (off : Nat) : Nat :=
  let r := s.host h
  match off with
  | 0x00 => s.sqWord (aHostBind h) +
      pack [(b2n r.bound.isSome, 16, 1), (viaKind r.bound, 14, 2), (viaNo r.bound, 8, 6), (r.lostCause, 0, 8)]
  | 0x04 => s.sqWord (aHostOrigin h) + viaOrigin r.bound
  | 0x08 => pack [(b2n (s.portEnable h), 16, 1), (r.wdMs, 0, 16)]
  | 0x14 => s.sqWord (aRing h) + pack [(r.consU.toNat, 16, 8), (r.consN.toNat, 8, 8), (b2n r.heldU, 1, 1), (b2n r.heldN, 0, 1)]
  | _ =>
    if 0x20 ≤ off ∧ off < 0x30 then
      let k := (off - 0x20) / 4
      s.sqWord (aSemOwner h k) + pack ((upTo 8).map fun i => ((s.sem (8 * k + i)).owner, 2 * i, 2))
    else 0

/-- EVT block (R530). -/
def State.evtReg (s : State) (a : Nat) : Nat :=
  let sum (h : HostId) : Nat := maskOf ((upTo 16).filter fun k => !(s.sq (aEvtPend h k)).bits.isEmpty)
  if a < 0x3400 then (s.cfgAt a).toNat
  else if a < 0x3480 then s.sqWord a
  else if a = 0x3480 then sum .a
  else if a = 0x3484 then sum .b
  else 0

/-- FLT block (R531). -/
def State.fltReg (s : State) (a : Nat) : Nat :=
  if a = aFltStatus then s.sqWord a + pack [(s.maxUnack, 16, 3), (sat 255 s.unacked.length, 8, 8), (b2n s.faultN, 0, 1)]
  else if a = aFltLast then s.sqWord a + s.fltLast.toNat
  else if a = aFltPolicy then (s.cfgAt a).toNat
  else if 0x4010 ≤ a ∧ a < 0x4024 then
    maskOf ((upTo 32).filter fun i => (s.flt (8 * (a - 0x4010) + i)).force)
  else if 0x4040 ≤ a ∧ a < 0x4068 then s.sqWord a + markWord s.unacked ((a - 0x4040) / 4)
  else if 0x4080 ≤ a ∧ a < 0x40A8 then s.sqWord a + markWord s.activeSrcs ((a - 0x4080) / 4)
  else 0

/-- PWRM block (R403, R532). -/
def State.pwrmReg (s : State) (a : Nat) : Nat :=
  let missing := s.power.missing.toNat
  if a = aPwrmState then s.sqWord a + pack [(s.dev.power.code, 16, 4), (s.power.wakeCause, 8, 8)]
  else if a = aPwrmRails then s.sqWord a + pack [(missing, 8, 8), (255 - missing, 0, 8)]
  else if a = aPwrmGuard ∨ a = aFeedCfg .a ∨ a = aFeedCfg .b then (s.cfgAt a).toNat
  else if a = aFeedStatus then
    s.sqWord a + pack [(s.feedB.st.code, 20, 4), (s.feedA.st.code, 16, 4), (b2n s.board.share, 7, 1),
      (b2n (s.feedB.st == .limit), 6, 1), (b2n (s.feedA.st == .limit), 5, 1), (b2n s.bulkGood, 4, 1), (b2n s.feedB.retry, 3, 1),
      (b2n s.feedA.retry, 2, 1)]
  else if a = aSeat then
    s.sqWord a + pack [(s.lich.insertions.toNat, 8, 16), (b2n s.board.seated, 2, 1), (b2n s.board.pin2, 1, 1), (b2n s.board.pin1, 0, 1)]
  else 0

/-- LICH block (R525, R526, R533). -/
def State.lichReg (s : State) (a : Nat) : Nat :=
  let l := s.lich
  let copy : Nat := match l.timeCopy with | some t => t.toNat | none => 0
  if a = aLich then
    s.sqWord a + pack [(b2n (!l.writeQ.isEmpty), 17, 1), (l.bootCount, 8, 8), (b2n l.timeCopy.isSome, 7, 1),
      (b2n (l.fXtal.isSome || l.fAlt.isSome), 6, 1), (b2n l.onTrial, 2, 1), (l.preferred, 1, 1), (s.fw.running, 0, 1)]
  else match a - aLich with
  | 0x04 => l.kindling
  | 0x08 => pack [(b2n l.storedId.isSome, 16, 1), ((l.storedId.getD 0).toNat, 0, 16)]
  | 0x0C => l.sleepSeq.toNat
  | 0x10 => l.insertions.toNat
  | 0x18 => low32 copy
  | 0x1C => high32 copy
  | _ => match scratchOf a with
    | some k => (tget l.scratch 0 k).toNat
    | none => 0

/-- TIME block (R534). -/
def State.timeReg (s : State) (a : Nat) : Nat :=
  let t := s.time
  match a - 0x7000 with
  | 0x00 => low32 t.now.toNat
  | 0x04 => high32 t.now.toNat
  | 0x08 => s.sqWord aTimeState + pack [(t.pps.code, 16, 2), (b2n s.aligned, 15, 1), (b2n t.alt, 14, 1)]
  | 0x0C => t.g.toNat
  | 0x10 => (s.cfgAt a).toNat
  | 0x14 => signed t.lastErr
  | 0x18 => signed t.f
  | 0x1C => signed (t.gridHalf / 2)
  | 0x20 => low32 t.capture.toNat
  | 0x24 => high32 t.capture.toNat
  | 0x28 => t.steps.toNat
  | _ => 0

/-- STOK block (R535). -/
def State.stokReg (s : State) (a : Nat) : Nat :=
  let l := s.ledger
  match a - 0x8000 with
  | 0x00 => s.sqWord aStok + pack [(l.heatShown, 21, 3), (l.feedShown, 18, 3), (l.stage, 16, 2), (s.moving.length, 13, 3),
      (s.spares.length, 4, 4), (s.aEngines.length, 0, 4)]
  | 0x04 => pack [(s.peakA, 16, 13), (s.capA, 0, 13)]
  | 0x08 => s.sqWord aStokEngines + pack ((upTo 12).map fun e => (s.engState2 e, 2 * e, 2))
  | 0x0C => signed l.pHeat
  | 0x10 => signed l.pFeed
  | 0x14 => signed l.dMw
  | 0x18 => signed l.hMw
  | 0x1C => s.migWindow
  | _ => 0

/-- The size code of MEMC_STATUS (R536). -/
def peatCode : Nat → Nat
  | 512 => 1 | 1024 => 2 | 2048 => 3 | 4096 => 4 | _ => 0

/-- MEMC block (R10, R536). The traffic of the last second is a measurement, which the spec does not state. -/
def State.memcReg (s : State) (a : Nat) : Nat :=
  let m := s.peat
  if !s.hasSdram then 0
  else match a - 0x9000 with
  | 0x00 => s.sqWord aMemc + pack [(m.st, 20, 4), (peatCode m.mib, 16, 4), (b2n m.held, 15, 1)]
  | 0x04 => m.eccAddr.toNat
  | 0x08 => m.corr.toNat
  | 0x0C => m.uncorr.toNat
  | 0x10 => s.spillRegion - s.spillTaken 64
  | 0x14 => Config.freeNat s.free % 2 ^ 32
  | _ => 0

/-- The column assignments of memory `r`: fuses first, then soft repairs (R557, R558). -/
def State.spareWords (s : State) (r : Nat) : List Nat :=
  let of (soft : Nat) (l : List (Nat × Nat)) : List Nat :=
    (l.filter fun x => x.1 == r).map fun x => 0x8000 + soft + x.2 % 128
  of 0 s.part.fuses ++ of 0x4000 s.lich.repairs

/-- SRAM block (R560). -/
def State.sramReg (s : State) (a : Nat) : Nat :=
  let off := a - 0xA000
  if 0x100 ≤ off ∧ off < 0x1D0 then
    let l := s.spareWords ((off - 0x100) / 8)
    let i := 2 * (off % 8 / 4)
    pack [(l.getD (i + 1) 0, 16, 16), (l.getD i 0, 0, 16)]
  else match off with
  | 0x00 => s.sqWord aSram + pack [(s.pool.k, 16, 4)]
  | 0x04 => pack ((upTo 16).map fun b => ((s.pbank b).st, 2 * b, 2))
  | 0x08 => pack ((upTo 8).map fun b => ((s.cbank b).st, 2 * b, 2))
  | 0x10 => s.sqWord aMbxConflict + pack [(hCode s.mbx.reader, 18, 1), (hCode s.mbx.pulsed, 17, 1), (s.mbx.offset, 0, 16)]
  | 0x14 => s.mbx.count.toNat
  | 0x18 => s.ctrl.corr.toNat
  | 0x1C => s.ctrl.uncorr.toNat
  | 0x20 => s.ctrl.addr % 2 ^ 21
  | _ => 0

/-- SEC block (R537). -/
def State.secReg (s : State) (a : Nat) : Nat :=
  let slots := s.sec.keys.map fun e => e.1
  match a - 0xB000 with
  | 0x00 => s.sqWord aSec + pack [(s.otp.lifeCycle, 16, 2), (b2n s.sec.zeroising, 15, 1), (b2n s.sec.tamperLow, 14, 1),
      (slots.length, 0, 7)]
  | 0x04 => maskOf (slots.filter fun k => decide (k < 32))
  | 0x08 => maskOf ((slots.filter fun k => decide (32 ≤ k)).map fun k => k - 32)
  | 0x0C => maskOf ((upTo 10).filter fun f => s.otp.fields.written f)
  | 0x10 => (s.cfgAt a).toNat
  | _ => 0

/-- QUE window but for its fast-path registers (R190, R539). -/
def State.queReg (s : State) (h : HostId) (q off : Nat) : Nat :=
  let r := s.queue q
  let mine (n : Nat) : Nat := if s.popsQueue h q then n else 0
  match off with
  | 0x04 => mine r.claimed.source.toNat
  | 0x08 => mine (low32 r.claimed.stamp.toNat)
  | 0x0C => mine (high32 r.claimed.stamp.toNat)
  | 0x40 => (s.queStatus q).toNat
  | 0x44 => r.count % 2 ^ 24
  | 0x48 => r.drops.toNat
  | 0x50 => r.depth % 2 ^ 24
  | 0x54 => s.spillKib r
  | 0x58 => if r.isL then r.reserve else 0
  | 0x5C => r.flagged
  | _ => 0

/-- A register of a block, at its own address, while its island runs. -/
def State.liveReg (s : State) (h : HostId) (a : Nat) : Nat :=
  if a < 0x1000 then s.devReg a
  else if a < 0x3000 then (if (a - 0x1000) / 0x1000 = hCode h then s.hostReg h (a % 0x1000) else 0)
  else if a < 0x4000 then s.evtReg a
  else if a < 0x5000 then s.fltReg a
  else if a < 0x6000 then s.pwrmReg a
  else if a < 0x7000 then s.lichReg a
  else if a < 0x8000 then s.timeReg a
  else if a < 0x9000 then s.stokReg a
  else if a < 0xA000 then s.memcReg a
  else if a < 0xB000 then s.sramReg a
  else if a < 0xC000 then s.secReg a
  else if a < 0xD000 then s.trkReg ((a - 0xC000) / 0x400) (a % 0x400)
  else if a < 0x10000 then s.teReg ((a - 0xD000) / 0x100) (a % 0x100)
  else if a < 0x14000 then s.queReg h ((a - 0x10000) / 0x100) (a % 0x100)
  else if a < 0x18000 then s.canReg ((a - 0x14000) / 0x400) (a % 0x400)
  else s.portReg ((a - 0x18000) / 0x200) (a % 0x200)

/-- A register of a block; one of a gated unit's window (TRK, TE, CAN, PORT) shows what was captured when its island was gated
(R26). -/
def State.blockReg (s : State) (h : HostId) (a : Nat) : Nat :=
  if a < 0xC000 ∨ (0x10000 ≤ a ∧ a < 0x14000) then s.liveReg h a
  else match tfind a s.regHeld with
  | some w => w.toNat
  | none => s.liveReg h a

/-- What a 32-bit read of an address returns through a host's port, where the read has no effect (R514 to R518): 0 for an
absent unit, an unaligned address and an address outside every block. -/
def State.regValue (s : State) (h : HostId) (a : Nat) : Word :=
  if isMail a then s.mailWord a
  else if a % 4 ≠ 0 then 0
  else if isObj a then
    let ch := (a - 0x40000) / 0x4000
    let off := (a - 0x40000) % 0x4000
    if s.hasCan ch then ((s.can ch).obj (off / 128)).word (off % 128 / 4) else 0
  else if 0x20000 ≤ a then 0
  else if s.absentReg (aliasOf a) then 0
  else BitVec.ofNat 32 (s.blockReg h (aliasOf a))

/-! ### READ transactions on a queue window (R186, R189, R235, R236) -/

/-- One word of a READ at an offset of a queue window. The header words show the claimed item to the host that pops the queue;
to another they read 0, and the read sets not_owner. -/
def readQueue (h : HostId) (q off : Nat) (ready : Bool) (s : State) : State :=
  let a := aQue q + off
  if off = 0 then popHeader h q ready s
  else if off = 0x10 then popData h q ready s
  else if !ready then emit (.readData h a 0xFFFFFFFF#32 true) s
  else
    let s1 := if (off = 4 ∨ off = 8 ∨ off = 0x0C) ∧ s.popsQueue h q = false then setSqc (aQueStatus q) [8] s else s
    emit (.readData h a (s.regValue h a) false) s1

/-- A READ of up to 64 words that starts at an offset of a queue window. -/
def readBurst (h : HostId) (q off n : Nat) (ready : Bool) (s : State) : State :=
  foldS (upTo (sat 64 n)) (fun k => readQueue h q (burstAddr (aQue q + off) k - aQue q) ready) s

end Sys2Proof.Machine
end

