-- ==== Sys2Proof/Machine/RegisterAccess.lean ====
section
/-!
DEFINITION. The meanings of the host port accesses that change the block, and of the two steps of the LICH write queue and
the mailbox array. A unit number that the address map does not have is no address, so that nothing happens.
-/
namespace Sys2Proof.Machine

/-- QUE_POP_HDR0_READ (R186, R187, R189, R191): a READ of words from QUE_POP_HDR0 on. -/
def execQuePopHdr0Read (h : HostId) (q : Nat) (b : ReadBurst) (s : State) : Res :=
  .next (if q < 64 ∧ s.portOn h then finish (readBurst h q 0 b.words b.ready s) else s)

/-- QUE_POP_DATA_READ (R186, R189, R235): a READ of words of QUE_POP_DATA. -/
def execQuePopDataRead (h : HostId) (q : Nat) (b : ReadBurst) (s : State) : Res :=
  .next (if q < 64 ∧ s.portOn h then finish (readBurst h q 0x10 b.words b.ready s) else s)

/-- QUE_PUSH_HDR_WRITE (R188, R189). -/
def execQuePushHdrWrite (h : HostId) (q : Nat) (v : Word) (s : State) : Res :=
  .next (if q < 64 then finish (hostWrite h (aQue q + 0x20) v s) else s)

/-- QUE_PUSH_DATA_WRITE (R188, R189, R235): a WRITE of words to QUE_PUSH_DATA. -/
def execQuePushDataWrite (h : HostId) (q : Nat) (vs : List Word) (s : State) : Res :=
  .next (if q < 64 then finish (writeBurst h (aQue q + 0x24) vs s) else s)

/-- HOSTX_DOORBELL_WRITE (R229, R237, R238). -/
def execHostxDoorbellWrite (port blk : HostId) (v : Word) (s : State) : Res :=
  .next (finish (hostWrite port (aHost blk + 0x10) v s))

/-- HOSTX_HEARTBEAT_WRITE (R227): activity of a locally bound host. The watchdog's time is not held in the state
(notes/assumptions/11.md). -/
def execHostxHeartbeatWrite (port blk : HostId) (v : Word) (s : State) : Res :=
  .next (finish (hostWrite port (aHost blk + 0x0C) v s))

/-- HOSTX_CTRL_WRITE (R230, R237). -/
def execHostxCtrlWrite (port blk : HostId) (v : Word) (s : State) : Res :=
  .next (finish (hostWrite port (aHostCtrl blk) v s))

/-- SEM_TAKEN_READ (R257, R260). -/
def execSemTakenRead (port blk : HostId) (n : Nat) (ready tie : Bool) (s : State) : Res :=
  .next (if n < 32 then finish (ownBlock port blk (aHost blk + 0x80 + 4 * n) (readSem port n ready tie) s) else s)

/-- SEM_TAKEN_WRITE (R258). -/
def execSemTakenWrite (port blk : HostId) (n : Nat) (v : Word) (s : State) : Res :=
  .next (if n < 32 then finish (hostWrite port (aHost blk + 0x80 + 4 * n) v s) else s)

/-- STATUS_SQC_WRITE (R518, R520). -/
def execStatusSqcWrite (h : HostId) (addr : Nat) (v : Word) (s : State) : Res := .next (finish (hostWrite h addr v s))

/-- FLT_FORCEK_WRITE (R484, R531). -/
def execFltForcekWrite (h : HostId) (k : Nat) (v : Word) (s : State) : Res :=
  .next (if k < 5 then finish (hostWrite h (0x4010 + 4 * k) v s) else s)

/-- FLT_PULSE_WRITE (R484, R531). -/
def execFltPulseWrite (h : HostId) (v : Word) (s : State) : Res := .next (finish (hostWrite h 0x4024 v s))

/-- FLT_ACKW_WRITE (R481, R482, R531). -/
def execFltAckwWrite (h : HostId) (v : Word) (s : State) : Res := .next (finish (hostWrite h 0x4028 v s))

/-- STOK_CTRL_REPLAN (R535): a re-plan at priority 7. -/
def execStokCtrlReplan (h : HostId) (v : Word) (s : State) : Res := .next (finish (hostWrite h 0x8040 v s))

/-- MEMC_CTRL_SCRUB_NOW (R536). -/
def execMemcCtrlScrubNow (h : HostId) (v : Word) (s : State) : Res := .next (finish (hostWrite h 0x9040 v s))

/-- CAN_CTRL_ABORT_ALL (R255, R542). -/
def execCanCtrlAbortAll (h : HostId) (ch : Nat) (v : Word) (s : State) : Res :=
  .next (if ch < 8 then finish (hostWrite h (aCan ch + 0x40) v s) else s)

/-- CAN_SEND_REQUEST_WRITE (R255, R426). -/
def execCanSendRequestWrite (h : HostId) (ch obj : Nat) (s : State) : Res :=
  .next (if ch < 8 ∧ obj < 128 then finish (hostWrite h (aObj ch obj 0) 0x80#32 s) else s)

/-- CAN_ABORT_REQUEST_WRITE (R255, R426). -/
def execCanAbortRequestWrite (h : HostId) (ch obj : Nat) (s : State) : Res :=
  .next (if ch < 8 ∧ obj < 128 then finish (hostWrite h (aObj ch obj 0) 0x40#32 s) else s)

/-- CAN_OBJECT_LOCK_READ (R420). -/
def execCanObjectLockRead (h : HostId) (ch obj : Nat) (s : State) : Res :=
  .next (finish (readObj h ch obj 0 (readControl h ch obj) s))

/-- CAN_RELEASE_WORD_READ (R420). -/
def execCanReleaseWordRead (h : HostId) (ch obj : Nat) (s : State) : Res :=
  .next (finish (readObj h ch obj ((s.can ch).obj obj).releaseWord (readRelease h ch obj) s))

/-- LICH_CONFIG_WRITE (R526, R533). -/
def execLichConfigWrite (h : HostId) (k : Nat) (v : Word) (s : State) : Res :=
  .next (if k < 4 then finish (hostWrite h (aScratch k) v s) else s)

/-- LICH_WRITE_APPLIED (R526): the oldest queued write takes effect. -/
def execLichWriteApplied (s : State) : Res := .next (finish (lichApplied s))

/-- MAILBOX_ACCESS (R551, R552, R553): one mailbox cycle. -/
def execMailboxAccess (c : MbxCycle) (s : State) : Res := .next (finish (mailboxCycle c s))

/-- XSPI_UNKNOWN_COMMAND (R234): any command byte but READ and WRITE raises HOST_DECODE. -/
def execXspiUnknownCommand (h : HostId) (cmd : Byte) (s : State) : Res :=
  .next (if s.portOn h ∧ cmd ≠ 0xA5#8 ∧ cmd ≠ 0xB4#8 then finish (decodeFault s) else s)

/-- REGISTER_WRITE (R235, R236, R514 to R518): a WRITE of words from an address on. -/
def execRegisterWrite (h : HostId) (addr : Nat) (b : WriteBurst) (s : State) : Res :=
  .next (finish (hostBurst h addr b.words b.room s))

end Sys2Proof.Machine
end

