-- ==== Sys2Proof/Machine/Service.lean ====
section
/-!
DEFINITION. The USB service function: descriptors and standard requests, COMMAND, the push and item streams, the pending
report, suspend and bus reset (R243 to R250), and the loss of a binding on a host timer (R227, R231, R261).
-/
namespace Sys2Proof.Machine

/-! ### Descriptors (R244) -/

/-- The device descriptor. -/
def State.svcDevice (s : State) : List Byte :=
  u8 18 ++ u8 1 ++ u16 0x0200 ++ [0, 0, 0] ++ u8 64 ++ u16 (s.otp.live.usbVid.getD 0).toNat ++ u16 (s.otp.live.usbPid.getD 0).toNat ++
  u16 s.bcdDevice ++ [0, 0] ++ u8 1 ++ u8 1

/-- bmAttributes: self-powered, but in SERVICE state. -/
def State.svcSelf (s : State) : Bool := s.dev.power != .service

def svcEndpoint (addr attr max interval : Nat) : List Byte := u8 7 ++ u8 5 ++ u8 addr ++ u8 attr ++ u16 max ++ u8 interval

/-- A configuration descriptor of a type, 2 or 7, for high or full speed. -/
def State.svcConfig (s : State) (type : Nat) (hs : Bool) : List Byte :=
  let bulk := if hs then 512 else 64
  u8 9 ++ u8 type ++ u16 39 ++ u8 1 ++ u8 1 ++ u8 0 ++ u8 (if s.svcSelf then 0xE0 else 0xA0) ++ u8 (if s.svcSelf then 0 else 250) ++
  (u8 9 ++ u8 4 ++ [0, 0] ++ u8 3 ++ u8 0xFF ++ [0, 0, 0]) ++
  svcEndpoint 0x01 2 bulk 0 ++ svcEndpoint 0x82 2 bulk 0 ++ svcEndpoint 0x83 3 16 (if hs then 4 else 1)

/-- The device qualifier of a high-speed function. -/
def svcQualifier : List Byte := u8 10 ++ u8 6 ++ u16 0x0200 ++ [0, 0, 0] ++ u8 64 ++ u8 1 ++ [0]

/-- The ASCII code of a hex digit, and the serial string "HK0021-SV" or "HK0021-P05". -/
def hexDigit (n : Nat) : Nat := if n < 10 then 48 + n else 55 + n
def State.svcSerial (s : State) (i : Nat) : List Nat :=
  let d := s.dev.id.toNat
  [0x48, 0x4B, hexDigit (d / 4096 % 16), hexDigit (d / 256 % 16), hexDigit (d / 16 % 16), hexDigit (d % 16), 0x2D] ++
  (if i = 0 then [0x53, 0x56] else [0x50, 48 + (i - 1) / 10 % 10, 48 + (i - 1) % 10])

/-- A string descriptor. -/
def stringDesc (chars : List Nat) : List Byte := u8 (2 + 2 * chars.length) ++ u8 3 ++ chars.flatMap u16

/-- GET_DESCRIPTOR by type and index; `none` is a STALL. -/
def State.svcDescriptor (s : State) (i type idx : Nat) : Option (List Byte) :=
  match type, idx with
  | 1, 0 => some s.svcDevice
  | 2, 0 => some (s.svcConfig 2 true)
  | 3, 0 => some (stringDesc [0x0409])
  | 3, 1 => some (stringDesc (s.svcSerial i))
  | 6, 0 => some svcQualifier
  | 7, 0 => some (s.svcConfig 7 false)
  | _, _ => none

/-! ### The item stream (R247) -/

/-- A bulk IN queue delivers a host's items: reply queue, event queue, then its IN data queues in turn. -/
def State.svcQueues (s : State) (h : HostId) (rr : Nat) : List Nat :=
  let data := ((upTo 56).map fun k => 8 + (rr - 8 + k) % 56).filter fun q =>
    (s.queue q).owner == h && !(s.queue q).out && (s.queue q).st != .disabled
  (4 + hCode h) :: (6 + hCode h) :: data

/-- The queue whose front item goes next, and that item. -/
def State.svcNext (s : State) (h : HostId) (rr : Nat) : Option (Nat × Item) :=
  (s.svcQueues h rr).findSome? fun q =>
    let r := s.queue q
    if r.delivers then (s.frontItems r).head?.map fun i => (q, i) else none

/-- A bulk IN record: queue, flags, length, the item's header and its payload padded to a multiple of 4 (R247). -/
def svcRecord (q : Nat) (first : Bool) (i : Item) : List Byte :=
  u8 q ++ u8 (b2n first) ++ u16 (16 + i.payload.length) ++ i.header ++ pad4 i.payload

/-- What the stream of an instance sends next: first the replies of commands that it took with no host bound, since a reply stays
in the stream until it is delivered (R246, R247), as records of the reply queue of the host that sent the command. -/
def State.svcFront (s : State) (i : Nat) : Option (Nat × Item) :=
  match (s.inst i).replies with
  | it :: _ => some (64, it)
  | [] => (s.boundTo (.svc i)).bind fun h => s.svcNext h (s.inst i).rr

/-- The record that a queue's item, or a buffered reply, goes out in. -/
def svcRecordOf (q : Nat) (first : Bool) (it : Item) : List Byte := svcRecord (if q = 64 then 4 + it.source.toNat % 2 else q) first it

/-- The transfer in progress ends, with a short packet or, after whole packets only, with a zero-length packet (R247). Which packet
size the bus gives is not in the state: at high speed, 512 bytes (notes/assumptions/156.md). -/
def svcEnd (i : Nat) (s : State) : State :=
  let n := (s.inst i).sent
  if n = 0 then s else emit (.bulkInEnd i (n % 512 == 0)) (modInst i (fun r => { r with sent := 0 }) s)

/-- An instance starts the next item when nothing is being sent. It goes into the transfer in progress while that holds up to
16,384 bytes; with no item to send the transfer ends (R247). -/
def svcFeed (i : Nat) (s : State) : State :=
  let x := s.inst i
  if !x.attached || x.config = 0 || x.suspended || x.sending.isSome || x.halts.contains 0x82 || !s.posting then s
  else match s.svcFront i with
  | none => svcEnd i s
  | some (q, it) =>
    let bytes := svcRecordOf q x.first it
    let s1 := if 16384 < x.sent + bytes.length then svcEnd i s else s
    emit (.bulkIn i bytes)
      (modInst i (fun r => { r with sending := some (q, it), first := false, sent := r.sent + bytes.length,
                                    rr := if 8 ≤ q ∧ q < 64 then 8 + (q - 7) % 56 else r.rr }) s1)

/-- An item that has been sent whole leaves its queue, unless the queue changed under it. -/
def svcDrop (h : HostId) (q : Nat) (it : Item) (s : State) : State :=
  let r := s.queue q
  if (s.frontItems r).head? == some it then
    let r1 := s.dropFront r
    let s1 := replayCheck q (putQueue q { r1 with replayed := if r.st = .replay then r1.replayed + 1 else r1.replayed } none s)
    if q = 6 + hCode h then drainHeld h 2000 s1 else s1
  else s

/-- The last packet of an item is ACKed. -/
def svcAcked (i : Nat) (s : State) : State :=
  match (s.inst i).sending with
  | none => s
  | some (q, it) =>
    let s1 := modInst i (fun r => { r with sending := none }) s
    let s2 := if q = 64 then modInst i (fun r => { r with replies := r.replies.drop 1 }) s1
      else match s.boundTo (.svc i) with
      | some h => svcDrop h q it s1
      | none => s1
    svcFeed i s2

/-! ### Control requests (R244, R245) -/

def svcReply (i : Nat) (bytes : List Byte) (len : Nat) (s : State) : State := emit (.svcData i (bytes.take len)) s

/-- Endpoint addresses of the configured function. -/
def svcEps : List Nat := [0x01, 0x82, 0x83]

/-- COMMAND's setup stage: wLength 16 to 256. -/
def svcSetup (i len : Nat) (s : State) : State :=
  if !(s.inst i).attached then s
  else if 16 ≤ len ∧ len ≤ 256 then modInst i (fun r => { r with setupLen := some len }) s
  else emit (.svcStall i) (modInst i (fun r => { r with setupLen := none }) s)

/-- SET_FEATURE and CLEAR_FEATURE. -/
def svcFeature (i rt val idx : Nat) (set : Bool) (s : State) : State :=
  let ok (f : Instance → Instance) : State := emit (.svcAck i) (modInst i f s)
  if rt = 0x00 ∧ val = 1 then ok fun r => { r with rwEnable := set }
  else if rt = 0x00 ∧ val = 2 ∧ set then ok id
  else if rt = 0x02 ∧ val = 0 ∧ idx % 128 = 0 then ok id
  else if rt = 0x02 ∧ val = 0 ∧ svcEps.contains idx ∧ (s.inst i).config = 1 then
    ok fun r => { r with halts := if set then idx :: r.halts.filter (· != idx) else r.halts.filter (· != idx) }
  else emit (.svcStall i) s

/-- GET_STATUS. -/
def svcStatus (i rt idx len : Nat) (s : State) : State :=
  let x := s.inst i
  if rt = 0x80 then svcReply i (u16 (b2n s.svcSelf + 2 * b2n x.rwEnable)) len s
  else if rt = 0x81 ∧ idx = 0 ∧ x.config = 1 then svcReply i (u16 0) len s
  else if rt = 0x82 ∧ idx % 128 = 0 then svcReply i (u16 0) len s
  else if rt = 0x82 ∧ svcEps.contains idx ∧ x.config = 1 then svcReply i (u16 (b2n (x.halts.contains idx))) len s
  else emit (.svcStall i) s

/-- SET_CONFIGURATION: items are sent from the first record on. -/
def svcConfigure (i val : Nat) (s : State) : State :=
  if val ≤ 1 then
    svcFeed i (emit (.svcAck i) (modInst i (fun r => { r with config := val, halts := [], sending := none, sent := 0, first := true }) s))
  else emit (.svcStall i) s

/-- A request of chapter 9, or a vendor request: every one but COMMAND stalls. -/
def svcRequestOf (i : Nat) (su : List Byte) (s : State) : State :=
  let rt := byteAt su 0
  let req := byteAt su 1
  let val := field su 2 2
  let idx := field su 4 2
  let len := field su 6 2
  let x := s.inst i
  if !x.attached then s
  else if rt = 0x41 ∧ req = 1 ∧ val = 0 ∧ idx = 0 then svcSetup i len s
  else if 4 ≤ rt % 128 then emit (.svcStall i) s
  else match req with
  | 0 => svcStatus i rt idx len s
  | 1 => svcFeature i rt val idx false s
  | 3 => svcFeature i rt val idx true s
  | 5 => if rt = 0 ∧ val < 128 then emit (.svcAck i) (modInst i (fun r => { r with addr := val }) s) else emit (.svcStall i) s
  | 6 => (match (if rt = 0x80 then s.svcDescriptor i (val / 256) (val % 256) else none) with
    | some bytes => svcReply i bytes len s
    | none => emit (.svcStall i) s)
  | 8 => if rt = 0x80 then svcReply i (u8 x.config) len s else emit (.svcStall i) s
  | 9 => if rt = 0 then svcConfigure i val s else emit (.svcStall i) s
  | 10 => if rt = 0x81 ∧ idx = 0 ∧ x.config = 1 then svcReply i [0] len s else emit (.svcStall i) s
  | 11 => if rt = 0x01 ∧ idx = 0 ∧ val = 0 ∧ x.config = 1 then emit (.svcAck i) s else emit (.svcStall i) s
  | _ => emit (.svcStall i) s

/-- Places of an instance's buffer of 16 that replies hold, or that commands which came by it and owe a reply will need (R222, R247;
notes/assumptions/175.md). -/
def State.svcReplies (s : State) (i : Nat) : Nat :=
  (s.inst i).replies.length + (s.ops.filter fun o => o.via == .svc i && !o.bound && o.owesReply).length

/-- The status stage of COMMAND: ACKed in the step that enters the packet into its command queue, NAKed while that queue,
the reply queue or the reply buffer is full, or while Mboter restarts (R39, R197, R245, R247). -/
def svcCommit (i : Nat) (bytes : List Byte) (s : State) : State :=
  let x := s.inst i
  if !x.attached || x.setupLen.isNone then s
  else
    let (op, p) := parsePacket (.svc i) bytes
    let h := s.senderOf p
    let q := cmdQueue h (p.flags.getLsbD 2)
    let full := !s.cmdRoom q || !s.replySlot h || ((s.boundTo (.svc i)).isNone && decide (16 ≤ s.svcReplies i))
    if full || !s.hears (.svc i) then emit (.svcNak i) s
    else enter op (cmdOf op) (some q) p (emit (.svcAck i) (modInst i (fun r => { r with setupLen := none }) s))

/-! ### Bus events and the other endpoints (R246, R248 to R250) -/

/-- A bus reset discards what is not committed and sends a partly sent item again from its start. -/
def svcReset (i : Nat) (s : State) : State :=
  modInst i (fun r => if r.attached then
    { r with addr := 0, config := 0, suspended := false, rwEnable := false, setupLen := none, sending := none, sent := 0, halts := [] } else r) s

/-- A bulk OUT record is a push under R188. -/
def svcPush (i : Nat) (rec : List Byte) (s : State) : State :=
  let x := s.inst i
  if !x.attached || x.config = 0 then s
  else if x.halts.contains 0x01 then emit (.svcStall i) s
  else match s.boundTo (.svc i) with
  | none => s
  | some h =>
    let q := byteAt rec 0
    let len := field rec 2 2
    let data := (rec.drop 4).take len
    if 64 ≤ q then s
    else if !s.pushesQueue h q then setSqc (aQueStatus q) [8] s
    else if s.pushRefused q 1 len || data.length != len then setSqc (aQueStatus q) [9] s
    else commitPush h q data s

/-- The fields of the pending report. -/
def State.svcReport (s : State) (i : Nat) : List Nat :=
  match s.boundTo (.svc i) with
  | none => [0, 0, 0, 0]
  | some h =>
    let data := ((upTo 56).map (8 + ·)).filter fun q => (s.queue q).owner == h && !(s.queue q).out
    [(s.queue (4 + hCode h)).count, (s.queue (6 + hCode h)).count, sumBy (fun q => (s.queue q).count) data, (s.host h).cseq.toNat]

def svcPoll (i : Nat) (s : State) : State :=
  let x := s.inst i
  if !x.attached || x.config = 0 || x.suspended then s
  else if x.halts.contains 0x83 then emit (.svcStall i) s
  else if s.svcReport i = x.report then emit (.pendingReport i none) s
  else emit (.pendingReport i (some (s.svcReport i))) (modInst i (fun r => { r with report := s.svcReport i }) s)

def svcSuspend (i : Nat) (s : State) : State := modInst i (fun r => if r.attached then { r with suspended := true } else r) s
def svcResume (i : Nat) (s : State) : State :=
  svcFeed i (modInst i (fun r => { r with suspended := false }) s)

/-- The service port is detached (R230, R288, R371): its contract ends, and with it the supply through SVC_GATE. -/
def svcDetach (s : State) : State :=
  let s1 := modSvc (fun v => { pd := { ufp := true, caps := v.pd.caps } }) (endInstance 0 s)
  let s2 := if s.svc.pd.ask == some .swap then swapOutcome 32 3 s1 else s1
  if s.svc.gate && s.dev.power == .service && !s.feedPresent then dieReset false s2 else s2

/-! ### Host timers (R227, R231, R261) -/

/-- tHOSTWD expires; it does not run during a warm restart (R227). -/
def watchdogEnds (h : HostId) (s : State) : State := if s.dev.phase == .warm then s else loseBinding h 1 s

/-- tSEMLOSS expires. -/
def semLoss (h : HostId) (s : State) : State := if (s.host h).semTimer then releaseSems h s else s

/-- Every instance starts what it can send. -/
def svcFeedAll (s : State) : State := foldS (upTo 33) svcFeed s

end Sys2Proof.Machine
end

