-- ==== Sys2Proof/Machine/ServiceEvents.lean ====
section
/-!
DEFINITION. The meanings of the host timers and of the service function's events (R227, R230, R231, R244 to R250, R261). An
event of an instance that is not attached changes nothing.
-/
namespace Sys2Proof.Machine

/-- A step on an attached instance, with what follows at its end. -/
def atInst (i : Nat) (f : State → State) (s : State) : State := if (s.inst i).attached then finish (f s) else s

/-- THOSTWD_EXPIRES (R227, R231). -/
def execThostwdExpires (h : HostId) (s : State) : Res := .next (finish (watchdogEnds h s))

/-- TSEMLOSS_EXPIRES (R231, R261). -/
def execTsemlossExpires (h : HostId) (s : State) : Res := .next (finish (semLoss h s))

/-- SVC_COMMAND_SETUP (R245). -/
def execSvcCommandSetup (inst wLength : Nat) (s : State) : Res := .next (atInst inst (svcSetup inst wLength) s)

/-- SVC_COMMAND_STATUS_STAGE (R245, R39). -/
def execSvcCommandStatusStage (inst : Nat) (bytes : List Byte) (s : State) : Res := .next (atInst inst (svcCommit inst bytes) s)

/-- SVC_STANDARD_REQUEST (R244). -/
def execSvcStandardRequest (inst : Nat) (setup : List Byte) (s : State) : Res := .next (atInst inst (svcRequestOf inst setup) s)

/-- SVC_BUS_RESET (R246). -/
def execSvcBusReset (inst : Nat) (s : State) : Res := .next (atInst inst (svcReset inst) s)

/-- SVC_BULK_OUT_RECORD (R188, R248). -/
def execSvcBulkOutRecord (inst : Nat) (record : List Byte) (s : State) : Res := .next (atInst inst (svcPush inst record) s)

/-- SVC_BULK_IN_ACK (R247). -/
def execSvcBulkInAck (inst : Nat) (s : State) : Res := .next (atInst inst (svcAcked inst) s)

/-- SVC_INTERRUPT_IN_POLL (R249). -/
def execSvcInterruptInPoll (inst : Nat) (s : State) : Res := .next (atInst inst (svcPoll inst) s)

/-- SVC_SUSPEND (R250). -/
def execSvcSuspend (inst : Nat) (s : State) : Res := .next (atInst inst (svcSuspend inst) s)

/-- SVC_RESUME (R250). -/
def execSvcResume (inst : Nat) (s : State) : Res := .next (atInst inst (svcResume inst) s)

/-- SERVICE_PORT_DETACH (R230, R371). -/
def execServicePortDetach (s : State) : Res := .next (if s.svc.vbus then finish (svcDetach s) else s)

end Sys2Proof.Machine
end

