-- ==== Sys2Proof/Machine/StartEvents.lean ====
section
/-!
DEFINITION. The meanings of the commands of start, firmware, OTP and the key store (R18, R496 to R513, R554).
-/
namespace Sys2Proof.Machine

/-- COLD_START (R201, R497 to R503). -/
def execColdStart (env : StartEnv) (s : State) : Res := .next (atPower (coldStart env) s)

/-- MBOTER_READY (R32, R43, R76, R399, R463, R505). -/
def execMboterReady (failed : List Nat) (s : State) : Res := .next (atPower (mboterReady failed) s)

/-- MBOTER_START_TIMEOUT (R467, R501). -/
def execMboterStartTimeout (s : State) : Res := .next (atPower startLate s)

/-- WARM_RESTART_TIMEOUT (R505). -/
def execWarmRestartTimeout (s : State) : Res := .next (atPower warmLate s)

/-- UNHANDLED_CORE_EXCEPTION (R501, R505): a start, or a warm restart, that is not over yet fails. -/
def execUnhandledCoreException (s : State) : Res := .next (atPower (fun t => if t.warm.isSome then warmLate t else startLate t) s)

/-- BOOT_COUNTER_CLEAR (R500). -/
def execBootCounterClear (s : State) : Res := .next (atPower bootCleared s)

/-- RESET_N_LONG_HOLD (R500, R504). -/
def execResetNLongHold (s : State) : Res := .next (atPower longReset s)

/-- FLASH_ERASE_COMPLETE (R496). -/
def execFlashEraseComplete (inTime : Bool) (s : State) : Res := .next (atPower (eraseEnds inTime) s)

/-- FLASH_VERIFY_COMPLETE (R495). -/
def execFlashVerifyComplete (r : VerifyEnd) (version ucode compat : Word) (s : State) : Res :=
  .next (atPower (verifyEnds r version ucode compat) s)

/-- OTP_WRITE_COMPLETE (R299, R509, R510, R512). -/
def execOtpWriteComplete (s : State) : Res := .next (atPower otpWritten s)

/-- TAMPER_N_LOW (R510). -/
def execTamperNLow (s : State) : Res := .next (atPower tamper s)

/-- TAMPER_N_RELEASED (R483, R510). -/
def execTamperNReleased (s : State) : Res := .next (atPower tamperEnds s)

/-- ZEROISATION_READBACK (R510, R554). -/
def execZeroisationReadback (zero : Bool) (s : State) : Res := .next (atPower (readBack zero) s)

/-- POWER_DIE_POWER_ON (R18). -/
def execPowerDiePowerOn (s : State) : Res := .next (powerOn s)

/-- LOSS_OF_ALL_SOURCES (R18, R488). -/
def execLossOfAllSources (s : State) : Res := .next (sourcesLost s)

end Sys2Proof.Machine
end

