-- ==== Sys2Proof/Machine/TimeEvents.lean ====
section
/-!
DEFINITION. The meanings of the commands of plant time and of the clock inputs (R333, R369, R434 to R450, R586).
-/
namespace Sys2Proof.Machine

/-- A step of the time unit while it has its clock. -/
def atTime (f : State → State) (s : State) : State := if s.timeOn then finish (f s) else s

/-- PPS_EDGE (R436, R440 to R443). -/
def execPpsEdge (capture : DWord) (s : State) : Res := .next (atTime (edge capture) s)

/-- TPPS_MISS_EXPIRES (R440, R443). -/
def execTppsMissExpires (s : State) : Res := .next (atTime ppsMissed s)

/-- THOLDOVER_TIMEOUT (R443). -/
def execTholdoverTimeout (s : State) : Res := .next (atTime holdoverEnds s)

/-- f is saved once more while the state is LOCKED (R445). -/
def saveTick (s : State) : State := if s.time.pps == .locked then saveF s else s

/-- TF_SAVE_TICK (R445). -/
def execTfSaveTick (s : State) : Res := .next (atTime saveTick s)

/-- PLANT_SECOND_CROSSING (R333, R369, R448, R449). -/
def execPlantSecondCrossing (s : State) : Res := .next (atTime secondCrossing s)

/-- CLKIN_ALT fails too (R439, R467): the logic die has no clock and stops, and the whole start is tried again. The spec
states no elapsed time for the step. -/
def clocksLost (s : State) : State :=
  let us := Config.freeNat s.free
  stepTimeout 2 0xFF us (modPower (fun w => { w with retry := true }) (dieReset false (useFree s)))

/-- The selected reference fails. -/
def refFails (s : State) : State := if s.time.alt then clocksLost s else refSwitch s

/-- REF_CLOCK_FAILURE (R439). -/
def execRefClockFailure (s : State) : Res := .next (atTime refFails s)

/-- XTAL32 fails: the Lichen island runs from the power die's oscillator. -/
def xtal32Fails (s : State) : State :=
  if s.lich.slowFallback then s else ashRecord 8 0 (modLich (fun l => { l with slowFallback := true }) s)

/-- XTAL32_FAILURE (R586). -/
def execXtal32Failure (s : State) : Res := .next (atPower xtal32Fails s)

end Sys2Proof.Machine
end

