-- ==== Sys2Proof/Machine/TrunkEvents.lean ====
section
/-!
DEFINITION. The meanings of the trunk events and timers (R240, R242, R301 to R337). An event of an absent trunk, of a trunk
that is held in reset, or of a queue above Q63, changes nothing.
-/
namespace Sys2Proof.Machine

/-- A step on a trunk that is present and not held in reset. -/
def atTrunk (n : Nat) (f : State → State) (s : State) : State :=
  if s.hasTrunk n && (s.trunk n).st != .off then atChip f s else s

/-- TRUNK_PHY_LINK_UP (R314). -/
def execTrunkPhyLinkUp (n : Nat) (s : State) : Res := .next (atTrunk n (trunkPhyLinkUp n) s)

/-- TRUNK_PHY_LINK_DOWN (R300, R301, R314). -/
def execTrunkPhyLinkDown (d : LinkDown) (s : State) : Res := .next (atTrunk d.trunk (trunkPhyLinkDown d.trunk d.why) s)

/-- TPHYRST_EXPIRES (R301). -/
def execTphyrstExpires (n : Nat) (answers : Bool) (s : State) : Res := .next (atTrunk n (tphyrstExpires n answers) s)

/-- TRUNK_PHY_LINK_TIMEOUT (R301). -/
def execTrunkPhyLinkTimeout (n : Nat) (s : State) : Res := .next (atTrunk n (trunkPhyLinkTimeout n) s)

/-- TKEEPALIVE_TICK (R313). -/
def execTkeepaliveTick (s : State) : Res := .next (atChip tkeepaliveTick s)

/-- KEEPALIVE_RECEIVED (R314, R323). -/
def execKeepaliveReceived (n : Nat) (ka : KeepAlive) (s : State) : Res := .next (atTrunk n (keepaliveReceived n ka) s)

/-- KEEPALIVE_TIMEOUT (R314). -/
def execKeepaliveTimeout (n : Nat) (s : State) : Res := .next (atTrunk n (keepaliveTimeout n) s)

/-- TLINK_HOLD_EXPIRES (R314). -/
def execTlinkHoldExpires (n : Nat) (s : State) : Res := .next (atTrunk n (tlinkHoldExpires n) s)

/-- TSETTLE_EXPIRES (R319). -/
def execTsettleExpires (n : Nat) (s : State) : Res := .next (atTrunk n (tsettleExpires n) s)

/-- TOPOLOGY_RECEIVED (R312, R316). -/
def execTopologyReceived (n : Nat) (f : TopoFrame) (s : State) : Res := .next (atTrunk n (topologyReceived n f.hops f.topo) s)

/-- TTOPO_REFRESH_TICK (R316). -/
def execTtopoRefreshTick (s : State) : Res := .next (atChip flood s)

/-- TTOPO_AGE_EXPIRES (R316). -/
def execTtopoAgeExpires (id : Half) (s : State) : Res := .next (atChip (ttopoAgeExpires id) s)

/-- COMMAND_FRAME_RECEIVED (R240, R332). -/
def execCommandFrameReceived (n : Nat) (f : FrameHdr) (bytes : List Byte) (s : State) : Res :=
  .next (atTrunk n (atMac n f (commandFrame n f bytes)) s)

/-- REPLY_FRAME_RECEIVED (R242). -/
def execReplyFrameReceived (n : Nat) (f : FrameHdr) (bytes : List Byte) (s : State) : Res :=
  .next (atTrunk n (atMac n f (replyFrameReceived n f bytes)) s)

/-- EVENT_FRAME_RECEIVED (R329, R330). -/
def execEventFrameReceived (n : Nat) (f : FrameHdr) (item : Item) (s : State) : Res :=
  .next (atTrunk n (atMac n f (eventFrameReceived n f item)) s)

/-- DELIVERY_FRAME_RECEIVED (R329, R330). -/
def execDeliveryFrameReceived (n : Nat) (f : FrameHdr) (item : Item) (s : State) : Res :=
  .next (atTrunk n (atMac n f (deliveryFrameReceived n f item)) s)

/-- CREDIT_RECORD_RECEIVED (R328, R329). -/
def execCreditRecordReceived (n : Nat) (f : FrameHdr) (admitted : Half) (window : Nat) (reset : Bool) (s : State) : Res :=
  .next (atTrunk n (atMac n f (creditRecordReceived n f admitted window reset)) s)

/-- TIME_FRAME_RECEIVED (R333). The comparison uses neither the source nor the alignment that the frame carries. -/
def execTimeFrameReceived (n : Nat) (_src : Half) (ns : DWord) (locked _aligned : Bool) (s : State) : Res :=
  .next (atTrunk n (timeFrameReceived n ns locked) s)

/-- TE2E_RETRY_EXPIRES (R329). -/
def execTe2eRetryExpires (q : Nat) (s : State) : Res := .next (atChip (te2eRetryExpires q) s)

/-- TCREDIT_EXPIRES (R328). -/
def execTcreditExpires (q : Nat) (s : State) : Res := .next (atChip (tcreditExpires q) s)

/-- OLD_MAC_WINDOW_END (R305). -/
def execOldMacWindowEnd (s : State) : Res := .next (modDev (fun d => { d with oldMac := none }) s)

/-- RECEIVED_FRAME_DISCARDED (R304, R307, R336). -/
def execReceivedFrameDiscarded (n : Nat) (why : Discard) (s : State) : Res :=
  .next (atTrunk n (receivedFrameDiscarded n why) s)

/-- EGRESS_FRAME_END (R323, R324). -/
def execEgressFrameEnd (n : Nat) (s : State) : Res := .next (atTrunk n (egressFrameEnd n) s)

end Sys2Proof.Machine
end

