-- ==== Sys2Proof/Machine/Dispatch.lean ====
section
/-!
DEFINITION. Which meaning each command calls: one arm per constructor of Instr.
-/
namespace Sys2Proof.Machine

def exec (i : Instr) (s : State) : Host.Outcome State Fault Refusal :=
  match i with
  -- Host commands: a packet that carries the opcode (R217).
  | .devIdentify p => Sys2Proof.Machine.execDevIdentify p s
  | .devStatus p => Sys2Proof.Machine.execDevStatus p s
  | .devSetId p => Sys2Proof.Machine.execDevSetId p s
  | .devEcho p => Sys2Proof.Machine.execDevEcho p s
  | .opAbort p => Sys2Proof.Machine.execOpAbort p s
  | .opQuery p => Sys2Proof.Machine.execOpQuery p s
  | .devWarmRestart p => Sys2Proof.Machine.execDevWarmRestart p s
  | .hostBind p => Sys2Proof.Machine.execHostBind p s
  | .semTake p => Sys2Proof.Machine.execSemTake p s
  | .semGive p => Sys2Proof.Machine.execSemGive p s
  | .devPowerState p => Sys2Proof.Machine.execDevPowerState p s
  | .portEnable p => Sys2Proof.Machine.execPortEnable p s
  | .portDisable p => Sys2Proof.Machine.execPortDisable p s
  | .portStatus p => Sys2Proof.Machine.execPortStatus p s
  | .portBusReset p => Sys2Proof.Machine.execPortBusReset p s
  | .portSuspend p => Sys2Proof.Machine.execPortSuspend p s
  | .portResume p => Sys2Proof.Machine.execPortResume p s
  | .portPowerCycle p => Sys2Proof.Machine.execPortPowerCycle p s
  | .portSetPolicy p => Sys2Proof.Machine.execPortSetPolicy p s
  | .treeList p => Sys2Proof.Machine.execTreeList p s
  | .epList p => Sys2Proof.Machine.execEpList p s
  | .epBind p => Sys2Proof.Machine.execEpBind p s
  | .epUnbind p => Sys2Proof.Machine.execEpUnbind p s
  | .epControl p => Sys2Proof.Machine.execEpControl p s
  | .epWrite p => Sys2Proof.Machine.execEpWrite p s
  | .epRead p => Sys2Proof.Machine.execEpRead p s
  | .epState p => Sys2Proof.Machine.execEpState p s
  | .qConfig p => Sys2Proof.Machine.execQConfig p s
  | .qStatus p => Sys2Proof.Machine.execQStatus p s
  | .qFlush p => Sys2Proof.Machine.execQFlush p s
  | .qReplay p => Sys2Proof.Machine.execQReplay p s
  | .budgetSet p => Sys2Proof.Machine.execBudgetSet p s
  | .budgetStatus p => Sys2Proof.Machine.execBudgetStatus p s
  | .placeHint p => Sys2Proof.Machine.execPlaceHint p s
  | .placePin p => Sys2Proof.Machine.execPlacePin p s
  | .placeReport p => Sys2Proof.Machine.execPlaceReport p s
  | .pdSetCaps p => Sys2Proof.Machine.execPdSetCaps p s
  | .pdStatus p => Sys2Proof.Machine.execPdStatus p s
  | .pdDrSwap p => Sys2Proof.Machine.execPdDrSwap p s
  | .pdHardReset p => Sys2Proof.Machine.execPdHardReset p s
  | .pdDiscover p => Sys2Proof.Machine.execPdDiscover p s
  | .pdAltmode p => Sys2Proof.Machine.execPdAltmode p s
  | .canConfig p => Sys2Proof.Machine.execCanConfig p s
  | .canObjConfig p => Sys2Proof.Machine.execCanObjConfig p s
  | .canFilterSet p => Sys2Proof.Machine.execCanFilterSet p s
  | .canSend p => Sys2Proof.Machine.execCanSend p s
  | .canStatus p => Sys2Proof.Machine.execCanStatus p s
  | .canTimeMaster p => Sys2Proof.Machine.execCanTimeMaster p s
  | .trkConfig p => Sys2Proof.Machine.execTrkConfig p s
  | .trkStatus p => Sys2Proof.Machine.execTrkStatus p s
  | .trkRoute p => Sys2Proof.Machine.execTrkRoute p s
  | .trkDiscover p => Sys2Proof.Machine.execTrkDiscover p s
  | .timeSet p => Sys2Proof.Machine.execTimeSet p s
  | .timeGet p => Sys2Proof.Machine.execTimeGet p s
  | .timeStatus p => Sys2Proof.Machine.execTimeStatus p s
  | .fltRead p => Sys2Proof.Machine.execFltRead p s
  | .fltAck p => Sys2Proof.Machine.execFltAck p s
  | .fltForce p => Sys2Proof.Machine.execFltForce p s
  | .ashRead p => Sys2Proof.Machine.execAshRead p s
  | .testRun p => Sys2Proof.Machine.execTestRun p s
  | .calRun p => Sys2Proof.Machine.execCalRun p s
  | .testStatus p => Sys2Proof.Machine.execTestStatus p s
  | .fwStage p => Sys2Proof.Machine.execFwStage p s
  | .fwActivate p => Sys2Proof.Machine.execFwActivate p s
  | .fwStatus p => Sys2Proof.Machine.execFwStatus p s
  | .secLifecycle p => Sys2Proof.Machine.execSecLifecycle p s
  | .secKey p => Sys2Proof.Machine.execSecKey p s
  | .secProvision p => Sys2Proof.Machine.execSecProvision p s
  -- Register and queue fast-path accesses.
  | .quePopHdr0Read h q b => Sys2Proof.Machine.execQuePopHdr0Read h q b s
  | .quePopDataRead h q b => Sys2Proof.Machine.execQuePopDataRead h q b s
  | .quePushHdrWrite h q v => Sys2Proof.Machine.execQuePushHdrWrite h q v s
  | .quePushDataWrite h q vs => Sys2Proof.Machine.execQuePushDataWrite h q vs s
  | .hostxDoorbellWrite port blk v => Sys2Proof.Machine.execHostxDoorbellWrite port blk v s
  | .hostxHeartbeatWrite port blk v => Sys2Proof.Machine.execHostxHeartbeatWrite port blk v s
  | .hostxCtrlWrite port blk v => Sys2Proof.Machine.execHostxCtrlWrite port blk v s
  | .semTakenRead port blk n ready tie => Sys2Proof.Machine.execSemTakenRead port blk n ready tie s
  | .semTakenWrite port blk n v => Sys2Proof.Machine.execSemTakenWrite port blk n v s
  | .statusSqcWrite h addr v => Sys2Proof.Machine.execStatusSqcWrite h addr v s
  | .fltForcekWrite h k v => Sys2Proof.Machine.execFltForcekWrite h k v s
  | .fltPulseWrite h v => Sys2Proof.Machine.execFltPulseWrite h v s
  | .fltAckwWrite h v => Sys2Proof.Machine.execFltAckwWrite h v s
  | .stokCtrlReplan h v => Sys2Proof.Machine.execStokCtrlReplan h v s
  | .memcCtrlScrubNow h v => Sys2Proof.Machine.execMemcCtrlScrubNow h v s
  | .canCtrlAbortAll h ch v => Sys2Proof.Machine.execCanCtrlAbortAll h ch v s
  | .canSendRequestWrite h ch obj => Sys2Proof.Machine.execCanSendRequestWrite h ch obj s
  | .canAbortRequestWrite h ch obj => Sys2Proof.Machine.execCanAbortRequestWrite h ch obj s
  | .canObjectLockRead h ch obj => Sys2Proof.Machine.execCanObjectLockRead h ch obj s
  | .canReleaseWordRead h ch obj => Sys2Proof.Machine.execCanReleaseWordRead h ch obj s
  | .lichConfigWrite h k v => Sys2Proof.Machine.execLichConfigWrite h k v s
  | .lichWriteApplied => Sys2Proof.Machine.execLichWriteApplied s
  | .mailboxAccess c => Sys2Proof.Machine.execMailboxAccess c s
  | .xspiUnknownCommand h cmd => Sys2Proof.Machine.execXspiUnknownCommand h cmd s
  | .registerWrite h addr b => Sys2Proof.Machine.execRegisterWrite h addr b s
  -- Port bus events and timers.
  | .ccRdSeen p cc => Sys2Proof.Machine.execCcRdSeen p cc s
  | .ccRdLost p => Sys2Proof.Machine.execCcRdLost p s
  | .tccdebounceExpires p => Sys2Proof.Machine.execTccdebounceExpires p s
  | .tpddebounceExpires p => Sys2Proof.Machine.execTpddebounceExpires p s
  | .powerGood p => Sys2Proof.Machine.execPowerGood p s
  | .powerGoodLost p vsns => Sys2Proof.Machine.execPowerGoodLost p vsns s
  | .pullupSeen p => Sys2Proof.Machine.execPullupSeen p s
  | .pullupLost p => Sys2Proof.Machine.execPullupLost p s
  | .tconnectExpires p => Sys2Proof.Machine.execTconnectExpires p s
  | .tattdbExpires p loc dplus => Sys2Proof.Machine.execTattdbExpires p loc dplus s
  | .chirpKDetected p us => Sys2Proof.Machine.execChirpKDetected p us s
  | .trstrootExpires p => Sys2Proof.Machine.execTrstrootExpires p s
  | .trstrcyExpires p loc hubSpeed => Sys2Proof.Machine.execTrstrcyExpires p loc hubSpeed s
  | .tsetaddrExpires p loc => Sys2Proof.Machine.execTsetaddrExpires p loc s
  | .tctrlExpires p loc => Sys2Proof.Machine.execTctrlExpires p loc s
  | .tenumRetryExpires p loc => Sys2Proof.Machine.execTenumRetryExpires p loc s
  | .taddrQuietExpires p what => Sys2Proof.Machine.execTaddrQuietExpires p what s
  | .rootBabble p => Sys2Proof.Machine.execRootBabble p s
  | .remoteWakeK p => Sys2Proof.Machine.execRemoteWakeK p s
  | .tresumeExpires p => Sys2Proof.Machine.execTresumeExpires p s
  | .trsmrcyExpires p hub hport => Sys2Proof.Machine.execTrsmrcyExpires p hub hport s
  | .hubPortConnectChange p hub hport => Sys2Proof.Machine.execHubPortConnectChange p hub hport s
  | .hubPortDisconnectChange p hub hport why => Sys2Proof.Machine.execHubPortDisconnectChange p hub hport why s
  -- Microframes, queues and the Stoker.
  | .microframeBoundary => Sys2Proof.Machine.execMicroframeBoundary s
  | .sublistCommit te p g => Sys2Proof.Machine.execSublistCommit te p g s
  | .transactionResult r => Sys2Proof.Machine.execTransactionResult r s
  | .queueRefillDone q bad => Sys2Proof.Machine.execQueueRefillDone q bad s
  | .stokerReplan why => Sys2Proof.Machine.execStokerReplan why s
  | .migrationReady p g => Sys2Proof.Machine.execMigrationReady p g s
  | .migrationDrainMarker p g => Sys2Proof.Machine.execMigrationDrainMarker p g s
  | .coldTakeoverReady p g => Sys2Proof.Machine.execColdTakeoverReady p g s
  | .engineNoAck te => Sys2Proof.Machine.execEngineNoAck te s
  | .ledgerRecompute m => Sys2Proof.Machine.execLedgerRecompute m s
  | .ledgerMeasurementElapsed => Sys2Proof.Machine.execLedgerMeasurementElapsed s
  | .trelaxExpires => Sys2Proof.Machine.execTrelaxExpires s
  | .tshedExpires => Sys2Proof.Machine.execTshedExpires s
  | .feedLimitShedTick => Sys2Proof.Machine.execFeedLimitShedTick s
  | .trestoreExpires => Sys2Proof.Machine.execTrestoreExpires s
  | .shedRestoreTick => Sys2Proof.Machine.execShedRestoreTick s
  | .evacuationRetryTick => Sys2Proof.Machine.execEvacuationRetryTick s
  | .evacuationTimeout => Sys2Proof.Machine.execEvacuationTimeout s
  | .rotationTick u port => Sys2Proof.Machine.execRotationTick u port s
  | .testComplete r => Sys2Proof.Machine.execTestComplete r s
  | .payloadBankIdleOff b => Sys2Proof.Machine.execPayloadBankIdleOff b s
  | .activeSetShrink => Sys2Proof.Machine.execActiveSetShrink s
  | .peatScrub f => Sys2Proof.Machine.execPeatScrub f s
  | .ctrlSramScrub f => Sys2Proof.Machine.execCtrlSramScrub f s
  -- Hosts and the service function.
  | .thostwdExpires h => Sys2Proof.Machine.execThostwdExpires h s
  | .tsemlossExpires h => Sys2Proof.Machine.execTsemlossExpires h s
  | .svcCommandSetup inst wLength => Sys2Proof.Machine.execSvcCommandSetup inst wLength s
  | .svcCommandStatusStage inst bytes => Sys2Proof.Machine.execSvcCommandStatusStage inst bytes s
  | .svcStandardRequest inst setup => Sys2Proof.Machine.execSvcStandardRequest inst setup s
  | .svcBusReset inst => Sys2Proof.Machine.execSvcBusReset inst s
  | .svcBulkOutRecord inst record => Sys2Proof.Machine.execSvcBulkOutRecord inst record s
  | .svcBulkInAck inst => Sys2Proof.Machine.execSvcBulkInAck inst s
  | .svcInterruptInPoll inst => Sys2Proof.Machine.execSvcInterruptInPoll inst s
  | .svcSuspend inst => Sys2Proof.Machine.execSvcSuspend inst s
  -- Trunks.
  | .trunkPhyLinkUp n => Sys2Proof.Machine.execTrunkPhyLinkUp n s
  | .trunkPhyLinkDown d => Sys2Proof.Machine.execTrunkPhyLinkDown d s
  | .tphyrstExpires n answers => Sys2Proof.Machine.execTphyrstExpires n answers s
  | .trunkPhyLinkTimeout n => Sys2Proof.Machine.execTrunkPhyLinkTimeout n s
  | .tkeepaliveTick => Sys2Proof.Machine.execTkeepaliveTick s
  | .keepaliveReceived n ka => Sys2Proof.Machine.execKeepaliveReceived n ka s
  | .keepaliveTimeout n => Sys2Proof.Machine.execKeepaliveTimeout n s
  | .tlinkHoldExpires n => Sys2Proof.Machine.execTlinkHoldExpires n s
  | .tsettleExpires n => Sys2Proof.Machine.execTsettleExpires n s
  | .topologyReceived n f => Sys2Proof.Machine.execTopologyReceived n f s
  | .ttopoRefreshTick => Sys2Proof.Machine.execTtopoRefreshTick s
  | .ttopoAgeExpires id => Sys2Proof.Machine.execTtopoAgeExpires id s
  | .commandFrameReceived n f bytes => Sys2Proof.Machine.execCommandFrameReceived n f bytes s
  | .replyFrameReceived n f bytes => Sys2Proof.Machine.execReplyFrameReceived n f bytes s
  | .eventFrameReceived n f item => Sys2Proof.Machine.execEventFrameReceived n f item s
  | .deliveryFrameReceived n f item => Sys2Proof.Machine.execDeliveryFrameReceived n f item s
  | .creditRecordReceived n f admitted window reset => Sys2Proof.Machine.execCreditRecordReceived n f admitted window reset s
  | .timeFrameReceived n src ns locked aligned => Sys2Proof.Machine.execTimeFrameReceived n src ns locked aligned s
  | .te2eRetryExpires q => Sys2Proof.Machine.execTe2eRetryExpires q s
  | .tcreditExpires q => Sys2Proof.Machine.execTcreditExpires q s
  | .oldMacWindowEnd => Sys2Proof.Machine.execOldMacWindowEnd s
  -- Power contracts.
  | .tcapsRepeatExpires p => Sys2Proof.Machine.execTcapsRepeatExpires p s
  | .goodcrcReceived p msg => Sys2Proof.Machine.execGoodcrcReceived p msg s
  | .tsenderExpires p => Sys2Proof.Machine.execTsenderExpires p s
  | .requestReceived p rdo => Sys2Proof.Machine.execRequestReceived p rdo s
  | .tsrcTransExpires p => Sys2Proof.Machine.execTsrcTransExpires p s
  | .gapDelayExpires p => Sys2Proof.Machine.execGapDelayExpires p s
  | .vsnsStepdownReached p => Sys2Proof.Machine.execVsnsStepdownReached p s
  | .tstepdownExpires p => Sys2Proof.Machine.execTstepdownExpires p s
  | .ccNoRdInTransition p => Sys2Proof.Machine.execCcNoRdInTransition p s
  | .softResetReceived p => Sys2Proof.Machine.execSoftResetReceived p s
  | .hardResetReceived p => Sys2Proof.Machine.execHardResetReceived p s
  | .tpsHardresetExpires p => Sys2Proof.Machine.execTpsHardresetExpires p s
  | .vsnsSafe0vReached p => Sys2Proof.Machine.execVsnsSafe0vReached p s
  | .tsafe0vExpires p => Sys2Proof.Machine.execTsafe0vExpires p s
  | .tsrcRecoverExpires p => Sys2Proof.Machine.execTsrcRecoverExpires p s
  | .getSourceCapReceived p => Sys2Proof.Machine.execGetSourceCapReceived p s
  | .getSinkCapReceived p => Sys2Proof.Machine.execGetSinkCapReceived p s
  | .drSwapReceived p => Sys2Proof.Machine.execDrSwapReceived p s
  | .prSwapReceived p kind => Sys2Proof.Machine.execPrSwapReceived p kind s
  | .pdUnsupportedMessage p => Sys2Proof.Machine.execPdUnsupportedMessage p s
  | .pdResponseReceived p ans => Sys2Proof.Machine.execPdResponseReceived p ans s
  | .twaitExpires p => Sys2Proof.Machine.execTwaitExpires p s
  | .sourceCapabilitiesReceived p pdo => Sys2Proof.Machine.execSourceCapabilitiesReceived p pdo s
  | .psRdyReceived p => Sys2Proof.Machine.execPsRdyReceived p s
  | .swapPartnerSourceSeen p => Sys2Proof.Machine.execSwapPartnerSourceSeen p s
  | .tswapAttachExpires p => Sys2Proof.Machine.execTswapAttachExpires p s
  | .swappedVbusLost p => Sys2Proof.Machine.execSwappedVbusLost p s
  | .swappedHrRdTimeout p => Sys2Proof.Machine.execSwappedHrRdTimeout p s
  | .tsvcDfpExpires => Sys2Proof.Machine.execTsvcDfpExpires s
  | .vdmRequestReceived p req => Sys2Proof.Machine.execVdmRequestReceived p req s
  | .vdmResponseReceived p ans vdos => Sys2Proof.Machine.execVdmResponseReceived p ans vdos s
  | .tvdmExpires p => Sys2Proof.Machine.execTvdmExpires p s
  | .tvdmEnterExpires p => Sys2Proof.Machine.execTvdmEnterExpires p s
  | .exitModeReceived p => Sys2Proof.Machine.execExitModeReceived p s
  | .prail15Low => Sys2Proof.Machine.execPrail15Low s
  | .prail15Restored => Sys2Proof.Machine.execPrail15Restored s
  | .svcVbusPresent rp => Sys2Proof.Machine.execSvcVbusPresent rp s
  | .svcCapsWaitExpires => Sys2Proof.Machine.execSvcCapsWaitExpires s
  | .svcGateOverload => Sys2Proof.Machine.execSvcGateOverload s
  | .svcGateReclose => Sys2Proof.Machine.execSvcGateReclose s
  -- Power path.
  | .tfaultReached p => Sys2Proof.Machine.execTfaultReached p s
  | .trampPgExpires p vsns => Sys2Proof.Machine.execTrampPgExpires p vsns s
  | .tfetCheckExpires p vsns => Sys2Proof.Machine.execTfetCheckExpires p vsns s
  | .prail5Low mv => Sys2Proof.Machine.execPrail5Low mv s
  | .prail5Restored mv => Sys2Proof.Machine.execPrail5Restored mv s
  | .feedVoltagePresent f mv => Sys2Proof.Machine.execFeedVoltagePresent f mv s
  | .feedVoltageLost f mv => Sys2Proof.Machine.execFeedVoltageLost f mv s
  | .seatDebounceComplete => Sys2Proof.Machine.execSeatDebounceComplete s
  | .seatPinHigh seat1 seat2 => Sys2Proof.Machine.execSeatPinHigh seat1 seat2 s
  | .bulkPrecharged f => Sys2Proof.Machine.execBulkPrecharged f s
  | .feedGateOn f mv => Sys2Proof.Machine.execFeedGateOn f mv s
  | .tprechargeExpires f bulkMv => Sys2Proof.Machine.execTprechargeExpires f bulkMv s
  | .feedLimitReached f ma => Sys2Proof.Machine.execFeedLimitReached f ma s
  | .feedLimitLeft f ma => Sys2Proof.Machine.execFeedLimitLeft f ma s
  | .tfaultFeedExpires f ma => Sys2Proof.Machine.execTfaultFeedExpires f ma s
  | .reverseCurrentDetected f ma => Sys2Proof.Machine.execReverseCurrentDetected f ma s
  | .tretryFeedExpires f => Sys2Proof.Machine.execTretryFeedExpires f s
  | .logicDieReset cause => Sys2Proof.Machine.execLogicDieReset cause s
  | .tholdExpires => Sys2Proof.Machine.execTholdExpires s
  -- CAN.
  | .canIntegrationComplete ch => Sys2Proof.Machine.execCanIntegrationComplete ch s
  | .canFrameReceived ch f => Sys2Proof.Machine.execCanFrameReceived ch f s
  | .canReferenceMessageReceived ch ide id => Sys2Proof.Machine.execCanReferenceMessageReceived ch ide id s
  | .canErrorDetected ch e => Sys2Proof.Machine.execCanErrorDetected ch e s
  | .canBusOffRecovery ch => Sys2Proof.Machine.execCanBusOffRecovery ch s
  | .canSendComplete ch obj result sof tdcMeasured => Sys2Proof.Machine.execCanSendComplete ch obj result sof tdcMeasured s
  | .tlockExpires ch obj => Sys2Proof.Machine.execTlockExpires ch obj s
  | .canCycleStart ch => Sys2Proof.Machine.execCanCycleStart ch s
  -- Plant time.
  | .ppsEdge capture => Sys2Proof.Machine.execPpsEdge capture s
  | .tppsMissExpires => Sys2Proof.Machine.execTppsMissExpires s
  | .tholdoverTimeout => Sys2Proof.Machine.execTholdoverTimeout s
  | .tfSaveTick => Sys2Proof.Machine.execTfSaveTick s
  | .plantSecondCrossing => Sys2Proof.Machine.execPlantSecondCrossing s
  | .refClockFailure => Sys2Proof.Machine.execRefClockFailure s
  | .xtal32Failure => Sys2Proof.Machine.execXtal32Failure s
  -- Islands, power states and supplies.
  | .islandEntryAnswer busy => Sys2Proof.Machine.execIslandEntryAnswer busy s
  | .entryDelayExpires => Sys2Proof.Machine.execEntryDelayExpires s
  | .tentryExpires => Sys2Proof.Machine.execTentryExpires s
  | .wakeTrigger code => Sys2Proof.Machine.execWakeTrigger code s
  | .wakeAfterExpires => Sys2Proof.Machine.execWakeAfterExpires s
  | .wakeStepReady lostPayload lostControl => Sys2Proof.Machine.execWakeStepReady lostPayload lostControl s
  | .wakeStepLimitExpires unit elapsedUs => Sys2Proof.Machine.execWakeStepLimitExpires unit elapsedUs s
  | .wakeRetryTick => Sys2Proof.Machine.execWakeRetryTick s
  | .supplyRailLost code => Sys2Proof.Machine.execSupplyRailLost code s
  | .supplyRailStable code => Sys2Proof.Machine.execSupplyRailStable code s
  -- Faults and logs.
  | .lockstepMismatch => Sys2Proof.Machine.execLockstepMismatch s
  | .mboterWatchdogExpires => Sys2Proof.Machine.execMboterWatchdogExpires s
  | .sensorDivergence k => Sys2Proof.Machine.execSensorDivergence k s
  | .dieLinkCheckFailure => Sys2Proof.Machine.execDieLinkCheckFailure s
  | .ashLogDrain => Sys2Proof.Machine.execAshLogDrain s
  | .cfgParityCheck upset => Sys2Proof.Machine.execCfgParityCheck upset s
  -- Start, update and security.
  | .coldStart env => Sys2Proof.Machine.execColdStart env s
  | .mboterReady failed => Sys2Proof.Machine.execMboterReady failed s
  | .mboterStartTimeout => Sys2Proof.Machine.execMboterStartTimeout s
  | .warmRestartTimeout => Sys2Proof.Machine.execWarmRestartTimeout s
  | .bootCounterClear => Sys2Proof.Machine.execBootCounterClear s
  | .resetNLongHold => Sys2Proof.Machine.execResetNLongHold s
  | .flashEraseComplete inTime => Sys2Proof.Machine.execFlashEraseComplete inTime s
  | .flashVerifyComplete r version ucode compat => Sys2Proof.Machine.execFlashVerifyComplete r version ucode compat s
  | .otpWriteComplete => Sys2Proof.Machine.execOtpWriteComplete s
  | .tamperNLow => Sys2Proof.Machine.execTamperNLow s
  | .zeroisationReadback zero => Sys2Proof.Machine.execZeroisationReadback zero s
  -- Further events.
  | .offTimeExpires p => Sys2Proof.Machine.execOffTimeExpires p s
  | .pwron2pwrgoodWaitExpires p hub => Sys2Proof.Machine.execPwron2pwrgoodWaitExpires p hub s
  | .portAtLimit p => Sys2Proof.Machine.execPortAtLimit p s
  | .portLimitLeft p => Sys2Proof.Machine.execPortLimitLeft p s
  | .servicePortDetach => Sys2Proof.Machine.execServicePortDetach s
  | .svcResume inst => Sys2Proof.Machine.execSvcResume inst s
  | .tamperNReleased => Sys2Proof.Machine.execTamperNReleased s
  | .canProtocolException ch => Sys2Proof.Machine.execCanProtocolException ch s
  | .newVoltageNotGood p => Sys2Proof.Machine.execNewVoltageNotGood p s
  | .eventMergeIntervalEnd kind => Sys2Proof.Machine.execEventMergeIntervalEnd kind s
  | .receivedFrameDiscarded n why => Sys2Proof.Machine.execReceivedFrameDiscarded n why s
  | .egressFrameEnd n => Sys2Proof.Machine.execEgressFrameEnd n s
  | .powerDiePowerOn => Sys2Proof.Machine.execPowerDiePowerOn s
  | .lossOfAllSources => Sys2Proof.Machine.execLossOfAllSources s
  | .unhandledCoreException => Sys2Proof.Machine.execUnhandledCoreException s
  | .evacuationCopyComplete => Sys2Proof.Machine.execEvacuationCopyComplete s

end Sys2Proof.Machine
end

