-- ==== Sys2Proof/Machine/Idle.lean ====
section
/-!
DEFINITION. What the block does by itself while no command waits: it reads rings, takes packets that waited, starts the next
accepted command, sends on the service function, and lets one clock of 250 MHz pass (R39, R198, R224, R238, R247, R435;
notes/assumptions/5.md).
-/
namespace Sys2Proof.Machine

/-! ### Packets that waited (R39, R197, R273, R332) -/

/-- An arrival enters its command queue; a held COMMAND frame gives back its link credit. -/
def enterArrival (a : Arrival) (s : State) : Option State :=
  let h := s.senderOf a.pkt
  let q := cmdQueue h a.urgent
  if s.hears a.pkt.via && !s.bellRefused a.pkt.via && s.cmdRoom q && s.replySlot h then
    let s1 := match a.pkt.via, a.credit with
      | .trunk n _, some cls => freeCredit n cls (frameUnits (16 + a.pkt.delivered)) s
      | _, _ => s
    some (enter a.opcode (cmdOf a.opcode) (some q) a.pkt s1)
  else none

/-- Takes arrivals in order; one that cannot enter holds the later ones of its transport, for a local port of its ring. -/
def enterArrivals : List Arrival → State → State
  | [], s => s
  | a :: rest, s =>
    match (if s.behind a.pkt.via a.urgent then none else enterArrival a s) with
    | some t => enterArrivals rest t
    | none => enterArrivals rest { s with arrivals := s.arrivals ++ [a] }

def takeArrivals (s : State) : State := enterArrivals s.arrivals { s with arrivals := [] }

/-! ### Taking commands (R224, R262) -/

/-- The first command of a command queue that may start. One whose COMMAND item gave way to a GAP item of cause 7 (R212) is not found any
more: it stays outstanding until it is aborted or its binding is lost, a DESIGN CHOICE (notes/assumptions/179.md). -/
def State.nextIn (s : State) (q : Nat) : Option Op :=
  s.ops.find? fun o => 2 * hCode o.host == q - q % 2 && !o.started && s.mayStart o &&
    (s.queue q).items.any fun i => i.typ == 5 && field i.payload 2 2 == o.tag.toNat

/-- Q1 and Q3 before Q0 and Q2; between the two hosts' queues of one urgency in turn. -/
def State.nextOp (s : State) : Option (Nat × Op) :=
  ((if s.lastA.2 then [3, 1] else [1, 3]) ++ (if s.lastA.1 then [2, 0] else [0, 2])).findSome? fun q => (s.nextIn q).map fun o => (q, o)

def startNext (s : State) : State :=
  if !s.posting then s
  else match s.nextOp with
  | some (q, o) => startEntered o (takenFrom o.host (q % 2 == 1) s)
  | none => s

/-! ### Time -/

/-- One clock of 250 MHz. The Lichen island's copy of TIME runs on beside it (R448). -/
def passClock (s : State) : State :=
  if s.dev.phase == .off then s
  else
    let up := if s.dev.phase == .reset then s.dev.upNs else s.dev.upNs + 4
    let s1 := modDev (fun d => { d with monoNs := d.monoNs + 4, upNs := up }) s
    let s2 := modLich (fun l => { l with timeCopy := l.timeCopy.map (· + 4) }) s1
    followSecond (if s2.timeOn then modTime tick s2 else s2)

/-- An idle step. -/
def idle (s : State) : State :=
  let s1 := drainHeld .b 2000 (drainHeld .a 2000 s)
  let s2 := readRings .b (readRings .a s1)
  passClock (finish (svcFeedAll (startNext (takeArrivals s2))))

end Sys2Proof.Machine
end

