-- ==== Sys2Proof/Safety.lean ====
section
/-!
DEFINITION. What counts as a safe run: no step stops, and every step keeps the state legal. A legal state has a mailbox RAM
in canonical form, every semaphore free or with one of the two hosts (R257), and OTP that a pending write cannot move
backwards (R299, R508).
-/
namespace Sys2Proof
open Machine

/-- The next state of a step, if it answers one. -/
def Safety.answer (s : State) : Option State :=
  match step s with
  | .next t => some t
  | _ => none

/-- `k` steps from `s` all answer a next state. -/
def Safety.safeFor : Nat → State → Bool
  | 0, _ => true
  | k + 1, s =>
    match Safety.answer s with
    | some t => Safety.safeFor k t
    | none => false

/-- Every semaphore's owner is a code of R257: 0 free, 1 host A, 2 host B. -/
def Safety.semsLegal (s : State) : Bool := s.sems.all fun e => decide (e.2.owner ≤ 2)

/-- The value of a provisioning field, as a number; none while it is unwritten (R299). -/
def Safety.provisioned (f : Fields) : Nat → Option Nat
  | 1 => f.usbVid.map BitVec.toNat
  | 2 => f.usbPid.map BitVec.toNat
  | 3 => f.timebaseSvid.map BitVec.toNat
  | 4 => f.holdTime
  | 5 => f.safeState
  | 6 => f.bootThreshold
  | 7 => f.essential.map BitVec.toNat
  | 8 => f.disabled.map BitVec.toNat
  | 9 => f.defaultId.map BitVec.toNat
  | _ => none

/-- OTP holds a life cycle of R508, and a write in progress goes to an unwritten field or to a later life cycle. -/
def Safety.otpLegal (o : Otp) : Bool :=
  decide (o.lifeCycle ≤ 3) &&
  match o.writing with
  | none => true
  | some (.field f _) => !o.fields.written f
  | some (.lifeCycle t) => decide (o.lifeCycle < t ∧ t ≤ 3)

/-- `b` comes after `a`: every field written in `a` has the same value in `b`, and the life cycle has not gone back. -/
def Safety.otpAfter (a b : Otp) : Prop :=
  a.lifeCycle ≤ b.lifeCycle ∧ ∀ f v, Safety.provisioned a.fields f = some v → Safety.provisioned b.fields f = some v

/-- The invariant that every step keeps. -/
def Safety.Legal (s : State) : Prop :=
  Memory.wf s.mail = true ∧ Safety.semsLegal s = true ∧ Safety.otpLegal s.otp = true

/-! ### A command packet that passes acceptance -/

/-- Checks 1 and 2 of R221: the lengths agree and the CRC is right. -/
def Safety.intact (op : Nat) (p : Packet) : Bool :=
  p.paramLen.toNat % 4 == 0 && decide (p.paramLen.toNat ≤ 240) && p.delivered == 16 + p.paramLen.toNat &&
  p.params.length == p.paramLen.toNat && crc32c (head12 op p ++ p.params) == p.crc

/-- No command of the host with this tag waits in its command queues. -/
def Safety.noItem (s : State) (h : HostId) (tag : Half) : Bool :=
  [2 * hCode h, 2 * hCode h + 1].all fun q => (s.queue q).items.all fun i => field i.payload 2 2 != tag.toNat

/-- The packet reaches Mboter, is intact, is for this device, passes checks 4 to 12 of R221 as a command of host `h`, and has
nothing to wait for: its queue has room, a reply slot is free, no earlier packet of its transport and no other command waits, and
it is not ordered (R197, R224, R238, R262). -/
def Safety.Accepted (op : Nat) (c : CmdSpec) (h : HostId) (p : Packet) (s : State) : Prop :=
  s.dev.phase = .ready ∧ s.hears p.via = true ∧ s.senderOf p = h ∧ s.replySlot h = true ∧ Safety.intact op p = true ∧
  p.destId ≠ 0 ∧ (p.destId = 0xFFFF#16 ∨ p.destId = s.dev.id) ∧ s.acceptStatus op (some c) h p = none ∧
  p.flags.getLsbD 1 = false ∧ Safety.noItem s h p.tag = true ∧ s.cmdRoom (cmdQueue h (p.flags.getLsbD 2)) = true ∧
  s.behind p.via (p.flags.getLsbD 2) = false ∧ s.noneWaits = true

/-- The command as its handler sees it. -/
def Safety.cmdOf (op : Nat) (h : HostId) (p : Packet) : Cmd :=
  { host := h, via := p.via, tag := p.tag, opcode := op, flags := p.flags, params := p.params }

/-- The state in which the handler runs: the command is outstanding and has started, and the next choice falls to the other host
(R224). -/
def Safety.begun (op : Nat) (h : HostId) (p : Packet) (s : State) : State :=
  { takenFrom h (p.flags.getLsbD 2) s with ops := s.ops ++ [{ newOp op h p s with started := true, counts := p.flags.getLsbD 3 && s.sem0 h }] }

/-- From `s` to `t` the command reached its final status: its host's completion sequence advanced by one, its record with
the status and the result is the latest, and it is no longer outstanding (R220, R223). -/
def Safety.Completed (op : Nat) (h : HostId) (p : Packet) (status : Nat) (result : List Byte) (s t : State) : Prop :=
  (t.host h).cseq = (s.host h).cseq + 1 ∧
  (t.host h).done.head? = some { tag := p.tag, opcode := BitVec.ofNat 16 op, status := BitVec.ofNat 16 status,
                                 cseq := (s.host h).cseq + 1, result := some (pad4 result) } ∧
  t.opOf h p.tag = none

/-- In `t` the command is outstanding and runs, with the numbers that its handler keeps (R223, R269). -/
def Safety.Running (h : HostId) (p : Packet) (unit : Nat) (args : List Nat) (t : State) : Prop :=
  ∃ o, t.opOf h p.tag = some o ∧ o.started = true ∧ o.unit = unit ∧ o.args = args

/-- What replies, records and answers go into: a host's completion records and held events, a trunk's egress, the buffered
replies of the service function and the frame sequences of the network, and of the other state only the outstanding commands,
the turn between the hosts, the queues, the sequences of registers, the wire and the count of free values. -/
def Safety.hostRest (r : HostRec) : HostRec := { r with cseq := 0, done := [], forced := 0, heldEvents := [], lostEvents := 0, paused := false }
def Safety.trunkRest (t : Trunk) : Trunk := { t with egress := [], sending := none, tx := 0 }
def Safety.instRest (i : Instance) : Instance := { i with replies := [] }
def Safety.netRest (n : Net) : Net := { n with cmdSeq := 0, replySeq := 0, evPairs := [] }
def Safety.rest (s : State) : State :=
  { pending := s.pending, part := s.part, otp := s.otp, dev := s.dev, power := s.power, warm := s.warm, lich := s.lich,
    arrivals := s.arrivals, sems := s.sems, ports := s.ports, ctxs := s.ctxs, xfers := s.xfers, pool := s.pool,
    ctrl := s.ctrl, mail := s.mail, mbx := s.mbx, peat := s.peat, stok := s.stok, ledger := s.ledger, test := s.test,
    testQ := s.testQ, cal := s.cal, flts := s.flts, fltLast := s.fltLast, fltIn := s.fltIn, cans := s.cans, time := s.time,
    feedA := s.feedA, feedB := s.feedB, board := s.board, svc := s.svc, fw := s.fw, sec := s.sec, cfg := s.cfg,
    cfgCopy := s.cfgCopy, cfgBad := s.cfgBad, cfgHeld := s.cfgHeld, regHeld := s.regHeld }

/-- `t` is `s` but for what replies, records and answers go into. -/
def Safety.Beside (t s : State) : Prop :=
  Safety.rest t = Safety.rest s ∧ (∀ h, Safety.hostRest (t.host h) = Safety.hostRest (s.host h)) ∧
  (∀ n, Safety.trunkRest (t.trunk n) = Safety.trunkRest (s.trunk n)) ∧
  (∀ i, Safety.instRest (t.inst i) = Safety.instRest (s.inst i)) ∧ Safety.netRest t.net = Safety.netRest s.net

/-- The command runs to its final status in the step of its packet, and leaves the state `after` beside what its reply and its
record go into. -/
def Safety.Completes (i : Instr) (op : Nat) (h : HostId) (p : Packet) (status : Nat) (result : List Byte) (s after : State) : Prop :=
  ∃ t, exec i s = .next (finish t) ∧ Safety.Completed op h p status result s t ∧ Safety.Beside t after

/-- The command is accepted and goes on running; it leaves the state `after` beside what its reply goes into. -/
def Safety.Starts (i : Instr) (h : HostId) (p : Packet) (unit : Nat) (args : List Nat) (s after : State) : Prop :=
  ∃ t, exec i s = .next (finish t) ∧ Safety.Running h p unit args t ∧ Safety.Beside t after

/-- The command runs in the step of its packet: its handler leaves the state `after` and answers `ans`. -/
def Safety.Answers (i : Instr) (op : Nat) (h : HostId) (p : Packet) (s : State) (ans : Ans) (after : State) : Prop :=
  exec i s = .next (finish (Machine.answer (newOp op h p s) ans after))

/-! ### A state in which nothing is due at the end of a command -/

/-- Nothing waits for the fault collector, no update or cold start is due, every service state has been reported, and what
follows the rest (full of the queues, banks, TRIM, DEV_ISLANDS_OFF, TE_LOAD, held writes, the second that TIME is in and the pulse on PPS_OUT)
is up to date: the end of a command changes nothing. -/
def Safety.Settled (s : State) : Prop :=
  s.dev.phase ≠ .off ∧ s.dev.phase ≠ .waking ∧ s.fltIn = [] ∧
  (∀ e ∈ s.flts, ∀ sub ∈ e.2.active, s.holds e.1 sub = true ∨ s.kept e.1 sub = true) ∧
  (∀ e ∈ s.queues, (s.queue e.1).full = s.fullNow e.1 (s.queue e.1)) ∧
  (∀ h tag, s.fw.busy ≠ .updating h tag) ∧ s.fw.coldDue = false ∧
  (∀ e ∈ s.ctxs, ∀ c, s.ctx e.1 = some c → s.service e.1 c = c.seen) ∧
  (∀ p, p < s.nPorts → (s.port p).svcOpen = true ∨ (s.port p).svcEps = []) ∧
  (∀ b, b < 16 → (s.pbank b).st = 1 → s.heldIn b = 0) ∧
  ¬ (s.pool.k < s.servicePool.length ∧ 7 * (6143 * s.pool.k) < 8 * s.poolUsed) ∧
  (s.dev.power = .run → s.trims = false) ∧ (s.dev.power = .trim → s.trims = true) ∧
  s.dev.islandsOff = BitVec.ofNat 21 s.offMask ∧ s.cfgHeld = [] ∧ s.loadShape = s.stok.shape ∧
  (s.timeOn = true → s.time.now.toNat / 1000000000 ≤ s.time.second) ∧
  (s.time.high = true → s.ppsDrives = true ∧ ∃ t, s.time.lastPulse = some t ∧ s.dev.monoNs < t + 100000000)

end Sys2Proof
end

