-- ==== Sys2Proof/Certificates/Slice0/Obligations.lean ====
section
/-!
DEFINITION. The statements about the model: what the commands of every family do and leave, what every step keeps, and what
reset gives. OBLIGATIONS.json lists them with their rules.
-/
open Sys2Proof Sys2Proof.Machine

/-! ### The step -/

/-- A step takes the command at the front of the queue and runs it on the queue's rest: the block's form of a machine whose
step runs the decoded instruction (notes/assumptions/5.md). -/
def Obligations.StepRunsFront : Prop :=
  ∀ (s : State) (c : Instr) (rest : List Instr), s.pending = c :: rest → step s = exec c { s with pending := rest }

/-- Every step of every state answers a next state: no row of the table ends in a fault or a refusal. -/
def Obligations.EveryStepGoesOn : Prop := ∀ s : State, ∃ t, step s = .next t

/-- A step from a legal state removes the front command from the queue and changes the queue in no other way; on an empty
queue it leaves it empty. -/
def Obligations.StepTakesOneCommand : Prop := 
  ∀ s t : State, Safety.Legal s → step s = .next t → t.pending = s.pending.tail

/-- From every legal state a step leads to a legal state: the mailbox RAM keeps its canonical form, every semaphore belongs to
nobody or to one of the two hosts, and OTP holds a life cycle of R508 with a pending write that does not undo one. -/
def Obligations.StepKeepsLegal : Prop := ∀ s t : State, Safety.Legal s → step s = .next t → Safety.Legal t

/-- The state after reset is legal. -/
def Obligations.ResetIsLegal : Prop := Safety.Legal State.reset

/-- OTP only moves forward: from a legal state a step keeps every provisioning field that has been written, and never takes
the life cycle back. -/
def Obligations.OtpMovesForward : Prop := ∀ s t : State, Safety.Legal s → step s = .next t → Safety.otpAfter s.otp t.otp

/-- With no command waiting, no packet held, no ring slot named, no accepted command and no attached service instance, a step
in a settled state lets one clock of 250 MHz pass: the monotonic time and the uptime advance by 4 ns, and the mailbox RAM, the
ports, the queues, the semaphores and the CONFIG registers keep their contents. What an idle step does is the model's choice
(notes/assumptions/5.md). -/
def Obligations.IdleStepPassesTime : Prop :=
  ∀ s : State, s.pending = [] → s.arrivals = [] → s.ops = [] → (s.dev.phase = .kindling ∨ s.dev.phase = .ready) →
    Safety.Settled s →
    (∀ h, (s.host h).heldEvents = [] ∧ (s.host h).paused = false ∧ (s.host h).prodN = (s.host h).consN ∧
      (s.host h).prodU = (s.host h).consU ∧ (s.host h).heldN = false ∧ (s.host h).heldU = false) →
    (∀ i, (s.inst i).attached = false) →
    ∃ t, step s = .next t ∧ t.dev.monoNs = s.dev.monoNs + 4 ∧ t.dev.upNs = s.dev.upNs + 4 ∧ t.mail = s.mail ∧
      t.ports = s.ports ∧ t.queues = s.queues ∧ t.sems = s.sems ∧ t.cfg = s.cfg

/-- The end of a command changes nothing in a settled state: no fault waits for the collector, no condition has ended, no
update or cold start is due, and everything that follows other state is up to date. A statement below that gives
`exec c s = .next (finish t)` therefore gives the whole next state `t` wherever `t` is settled. -/
def Obligations.FinishAtRest : Prop := ∀ s : State, Safety.Settled s → finish s = s

/-! ### Capabilities and identity -/

/-- DEV_CAP0 and DEV_CAP1 have the field maps of R5 with sequence fields of 0, and no step from a legal state
changes them. -/
def Obligations.CapabilityFields : Prop :=
  ∀ (s : State) (h : HostId),
    let v := s.part.variant
    (s.regValue h 0x10).toNat =
      Variant.ports v * 2 ^ 16 + Variant.engines v * 2 ^ 12 + Variant.cans v * 2 ^ 8 + Variant.trunks v * 2 ^ 5 +
        (if Variant.timebase v then 16 else 0) + (if v = .hk16l then 0 else 8) +
        (match v with | .hk32f => 1 | .hk32b => 2 | .hk16f => 3 | .hk16l => 4) ∧
    (s.regValue h 0x14).toNat =
      (match v with | .hk32f => 4 | .hk32b => 4 | .hk16f => 2 | .hk16l => 0) * 2 ^ 16 +
        (match v with | .hk32f => 128 | .hk32b => 128 | .hk16f => 64 | .hk16l => 16) ∧
    ∀ t g, Safety.Legal s → step s = .next t → t.regValue g 0x10 = s.regValue h 0x10 ∧ t.regValue g 0x14 = s.regValue h 0x14

/-- The values that DEV_CAP0 and DEV_CAP1 read on each variant. -/
def Obligations.CapabilityValues : Prop :=
  ∀ (s : State) (h : HostId),
    (s.part.variant = .hk32f → s.regValue h 0x10 = 0x0020C899#32 ∧ s.regValue h 0x14 = 0x00040080#32) ∧
    (s.part.variant = .hk32b → s.regValue h 0x10 = 0x0020C08A#32 ∧ s.regValue h 0x14 = 0x00040080#32) ∧
    (s.part.variant = .hk16f → s.regValue h 0x10 = 0x0010845B#32 ∧ s.regValue h 0x14 = 0x00020040#32) ∧
    (s.part.variant = .hk16l → s.regValue h 0x10 = 0x00106044#32 ∧ s.regValue h 0x14 = 0x00000010#32)

/-! ### Host ports and registers -/

/-- One cycle in which SQC fields are set: seq increases by exactly 1 modulo 256, each of them is set and remembers that value,
every other field and its set_seq stay, and no other register's sequence changes. -/
def Obligations.SetSequenceFields : Prop :=
  ∀ (s : State) (a : Nat) (bits : List Nat),
    let t := setSqc a bits s
    (t.sq a).seqn = (s.sq a).seqn + 1 ∧
    (∀ i, t.sqBit a i = (bits.contains i || s.sqBit a i)) ∧
    (∀ i q, (i, q) ∈ (t.sq a).bits ↔ (i ∈ bits ∧ q = (s.sq a).seqn + 1) ∨ (i ∉ bits ∧ (i, q) ∈ (s.sq a).bits)) ∧
    (∀ b, b ≠ a → t.sq b = s.sq b) ∧ ({ t with sqc := s.sqc } : State) = s

/-- A write of value v to a STATUS register with a sequence of the device, fault, power, Lichen, time, Stoker, SDRAM, SRAM and
security blocks, or to a QUE_STATUS, through a port that serves accesses: exactly the set SQC fields
f with v[f] = 1 and (v[31:24] − set_seq(f)) mod 256 < 128 become 0, the other fields and seq stay, and nothing else of the
block changes. It holds for the command for such writes and for the general register write.
Its conclusions say the next state that `exec` answers for: statusSqcWrite, registerWrite. -/
def Obligations.StatusWriteClearsShownEvents : Prop :=
  ∀ (s : State) (h : HostId) (a : Nat) (v : Word), s.portOn h = true →
    (a ∈ [0x00000, 0x00004, 0x0000C, 0x00024, 0x04000, 0x04004, 0x05000, 0x05004, 0x05048, 0x0504C, 0x06000, 0x07008, 0x08000,
        0x08008, 0x09000, 0x0A000, 0x0A010, 0x0B000] ∨ (∃ q, q < 64 ∧ a = 0x10040 + 0x100 * q)) →
    ∃ t, exec (.statusSqcWrite h a v) s = .next (finish t) ∧ exec (.registerWrite h a ⟨[v], true⟩) s = .next (finish t) ∧
      (t.sq a).seqn = (s.sq a).seqn ∧
      (∀ i q, (i, q) ∈ (t.sq a).bits ↔
        (i, q) ∈ (s.sq a).bits ∧ ¬ (v.getLsbD i = true ∧ (v.toNat / 2 ^ 24 + 256 - q.toNat) % 256 < 128)) ∧
      (∀ b, b ≠ a → t.sq b = s.sq b) ∧ ({ t with sqc := s.sqc } : State) = s

/-- A CONFIG register outside the host and Lichen blocks, here PORT_PWR_CFG, the two feed registers, PWRM_GUARD, SEC_GUARD,
FLT_POLICY and EVT_CFGn: a write while the lock is set, with a field out of range, or by a host that does not own the port is
ignored as a whole (a port or feed register sets its rejected bit); any other write stores its implemented bits.
Its conclusions say the next state that `exec` answers for: registerWrite. -/
def Obligations.ConfigWriteIsWhole : Prop :=
  ∀ (s : State) (h : HostId) (a : Nat) (v : Word), s.portOn h = true →
    (a ∈ [0x04008, 0x05010, 0x0B010, 0x05040, 0x05044] ∨ (∃ n, n < 256 ∧ a = 0x03000 + 4 * n) ∨
      (∃ p, s.hasPort p = true ∧ s.islandOff (0x10 + p / 8) = false ∧ a = 0x18100 + 0x200 * p)) →
    (s.cfgLocked a = true ∨ rangeOk a v = false ∨ s.cfgOwner h a = false →
      exec (.registerWrite h a ⟨[v], true⟩) s = .next (finish (rejectCfg a s)) ∧ (rejectCfg a s).cfg = s.cfg) ∧
    (s.cfgLocked a = false → rangeOk a v = true → s.cfgOwner h a = true →
      ∃ t, exec (.registerWrite h a ⟨[v], true⟩) s = .next (finish t) ∧ t.cfgAt a = v &&& cfgMask a ∧
        (∀ b, b ≠ a → t.cfgAt b = s.cfgAt b) ∧ (hasLock a = true → tfind a t.cfgCopy = some (v &&& cfgMask a)) ∧
        t.sqc = s.sqc ∧ t.ports = s.ports ∧ t.mail = s.mail)

/-- A register write at an address outside every block, or at one that is no multiple of 4 outside the mailbox, changes nothing
and raises HOST_DECODE, source 140; so does a command byte that is neither READ nor WRITE. The window of an absent port ignores
writes and raises nothing. A host port that is off takes no write, and one whose write buffer is full answers BUSY_N and has no
effect. A WRITE of several words outside the queue windows is the writes of its words at addresses that rise by 4.
Its conclusions say the next state that `exec` answers for: registerWrite, xspiUnknownCommand. -/
def Obligations.DecodeFaults : Prop :=
  ∀ (s : State) (h : HostId) (a : Nat) (v : Word) (cmd : Byte),
    (s.portOn h = true → (0x60000 ≤ a ∨ (0x30000 ≤ a ∧ a < 0x40000) ∨ (a % 4 ≠ 0 ∧ ¬ (0x20000 ≤ a ∧ a < 0x30000))) →
      exec (.registerWrite h a ⟨[v], true⟩) s = .next (finish { s with fltIn := s.fltIn ++ [.raise 140 1 0 false] })) ∧
    (s.portOn h = true → cmd ≠ 0xA5#8 → cmd ≠ 0xB4#8 →
      exec (.xspiUnknownCommand h cmd) s = .next (finish { s with fltIn := s.fltIn ++ [.raise 140 1 0 false] })) ∧
    (s.portOn h = true → ∀ p off, off < 0x200 → off % 4 = 0 → p < 32 → s.hasPort p = false →
      exec (.registerWrite h (0x18000 + 0x200 * p + off) ⟨[v], true⟩) s = .next (finish s)) ∧
    (s.portOn h = false → ∀ vs room, exec (.registerWrite h a ⟨vs, room⟩) s = .next (finish s)) ∧
    (s.portOn h = true → ∀ vs, exec (.registerWrite h a ⟨vs, false⟩) s = .next (finish (emit (.busyWrite h) s))) ∧
    (∀ vs, vs.length < 64 → (a < 0x10000 ∨ 0x14000 ≤ a) →
      ∃ t u, exec (.registerWrite h a ⟨[v], true⟩) s = .next (finish t) ∧
        exec (.registerWrite h (a + 4) ⟨vs, true⟩) t = .next (finish u) ∧
        exec (.registerWrite h a ⟨v :: vs, true⟩) s = .next (finish u))

/-- SEM_TAKEn read by a host that is bound locally: a free semaphore is acquired and granted; one that the host holds is granted
and unchanged; one that the other host holds is not granted, with its owner. A host that is not bound locally reads granted = 0
and takes nothing; a read that asserts BUSY_N takes nothing.
A read of the other host's register through a port returns 0 and raises HOST_DECODE.
A write of any value to SEM_TAKEn by the host that holds it releases it; a write by the other host is ignored.
A simultaneous take of a free semaphore by both hosts goes to the host that lost the previous tie on it, and the other host
becomes the loser; in the reset state host A counts as the one that lost.
Its conclusions say the next state that `exec` answers for: semTakenRead, semTakenWrite. -/
def Obligations.SemTake : Prop :=
  (∀ (s : State) (h : HostId) (n : Nat), n < 32 → s.portOn h = true →
    let a := aHost h + 0x80 + 4 * n
    ((s.host h).bound = some (.localPort h) → (s.sem n).owner = 0 →
      exec (.semTakenRead h h n true false) s =
        .next (finish (emit (.readData h a (BitVec.ofNat 32 (2 * hOwner h + 1)) false) (setOwner n (hOwner h) s)))) ∧
    ((s.host h).bound = some (.localPort h) → (s.sem n).owner = hOwner h →
      exec (.semTakenRead h h n true false) s =
        .next (finish (emit (.readData h a (BitVec.ofNat 32 (2 * hOwner h + 1)) false) s))) ∧
    ((s.host h).bound = some (.localPort h) → (s.sem n).owner = hOwner (hOther h) →
      exec (.semTakenRead h h n true false) s =
        .next (finish (emit (.readData h a (BitVec.ofNat 32 (2 * hOwner (hOther h))) false) s))) ∧
    ((s.host h).bound ≠ some (.localPort h) →
      exec (.semTakenRead h h n true false) s =
        .next (finish (emit (.readData h a (BitVec.ofNat 32 (2 * (s.sem n).owner)) false) s))) ∧
    exec (.semTakenRead h h n false false) s = .next (finish (emit (.readData h a 0xFFFFFFFF#32 true) s)) ∧
    (∀ ready tie, exec (.semTakenRead h (hOther h) n ready tie) s =
      .next (finish (emit (.readData h (aHost (hOther h) + 0x80 + 4 * n) 0 false)
        { s with fltIn := s.fltIn ++ [.raise 140 1 0 false] }))) ∧
    ((setOwner n (hOwner h) s).sem n).owner = hOwner h ∧ (∀ k, k ≠ n → (setOwner n (hOwner h) s).sem k = s.sem k)) ∧
  (∀ (s : State) (h : HostId) (n : Nat) (v : Word), n < 32 → s.portOn h = true →
    ((s.sem n).owner = hOwner h →
      exec (.semTakenWrite h h n v) s = .next (finish (setOwner n 0 s)) ∧ ((setOwner n 0 s).sem n).owner = 0 ∧
        ∀ k, k ≠ n → (setOwner n 0 s).sem k = s.sem k) ∧
    ((s.sem n).owner ≠ hOwner h → exec (.semTakenWrite h h n v) s = .next (finish s))) ∧
  ((∀ n, (State.reset.sem n).loser = .a) ∧
  ∀ (s : State) (h : HostId) (n : Nat), n < 32 → s.portOn h = true → (s.host h).bound = some (.localPort h) →
    (s.sem n).owner = 0 →
    ∃ t, exec (.semTakenRead h h n true true) s = .next (finish t) ∧ (t.sem n).owner = hOwner (s.sem n).loser ∧
      (t.sem n).loser = hOther (s.sem n).loser ∧
      t.wire.head? = some (.readData h (aHost h + 0x80 + 4 * n)
        (BitVec.ofNat 32 (2 * hOwner (s.sem n).loser + (if (s.sem n).loser = h then 1 else 0))) false))

/-- A write to the mailbox RAM writes byte lanes (a mod 4) to 3 of the aligned word with the low bytes of the value and no
other byte; a read returns the aligned word rotated right by 8 × (a mod 4) bits and changes nothing.
When host B writes a word in the mailbox cycle in which host A reads it, the write takes effect, the read returns a free
value, BUSY_N of the later port pulses, MAILBOX_CONFLICT is raised and MBX_CONFLICT records reader, pulsed port, offset and
count. When both write the same aligned word, each byte lane takes
port B's value where port B wrote that lane and port A's otherwise; no pulse is given and nothing is raised.
Its conclusions say the next state that `exec` answers for: mailboxAccess. -/
def Obligations.MailboxAccess : Prop :=
  (∀ (s : State) (h g : HostId) (a : Nat) (v : Word), Safety.Legal s → 0x20000 ≤ a → a < 0x2E000 → s.portOn h = true →
    (∃ t, exec (.mailboxAccess { portA := if h = .a then some (.write a v) else none,
                                 portB := if h = .b then some (.write a v) else none, ring := none, later := g }) s =
        .next (finish t) ∧
      (∀ b, t.mailByte b = if a ≤ b ∧ b < a - a % 4 + 4 then BitVec.ofNat 8 (v.toNat / 256 ^ (b - a)) else s.mailByte b) ∧
      ({ t with mail := s.mail, mbx := s.mbx } : State) = s) ∧
    exec (.mailboxAccess { portA := if h = .a then some (.read a) else none,
                           portB := if h = .b then some (.read a) else none, ring := none, later := g }) s =
      .next (finish (emit (.readData h a (s.mailWord a) false) s)) ∧
    (s.mailWord a).toNat =
      (s.mailByte (a - a % 4 + (a % 4) % 4)).toNat + 256 * (s.mailByte (a - a % 4 + (1 + a % 4) % 4)).toNat +
      65536 * (s.mailByte (a - a % 4 + (2 + a % 4) % 4)).toNat + 16777216 * (s.mailByte (a - a % 4 + (3 + a % 4) % 4)).toNat) ∧
  ((∀ (s : State) (g : HostId) (a : Nat) (v : Word), Safety.Legal s → 0x20000 ≤ a → a < 0x2E000 → a % 4 = 0 →
    s.portOn .a = true → s.portOn .b = true →
    ∃ t, exec (.mailboxAccess { portA := some (.read a), portB := some (.write a v), ring := none, later := g }) s =
        .next (finish t) ∧
      (∀ b, t.mailByte b = if a ≤ b ∧ b < a + 4 then BitVec.ofNat 8 (v.toNat / 256 ^ (b - a)) else s.mailByte b) ∧
      t.wire = .busyPulse g :: .readData .a a (Config.freeWord s.free) false :: s.wire ∧
      t.fltIn = s.fltIn ++ [.raise 142 1 0 false] ∧ t.mbx.reader = .a ∧ t.mbx.pulsed = g ∧ t.mbx.offset = a - 0x20000 ∧
      t.mbx.count = satAdd s.mbx.count 1) ∧
  (∀ (s : State) (g : HostId) (a b : Nat) (v w : Word), Safety.Legal s → 0x20000 ≤ a → a < 0x2E000 → a - a % 4 = b - b % 4 →
    s.portOn .a = true → s.portOn .b = true →
    ∃ t, exec (.mailboxAccess { portA := some (.write a w), portB := some (.write b v), ring := none, later := g }) s =
        .next (finish t) ∧
      (∀ k, t.mailByte k =
        if b ≤ k ∧ k < b - b % 4 + 4 then BitVec.ofNat 8 (v.toNat / 256 ^ (k - b))
        else if a ≤ k ∧ k < a - a % 4 + 4 then BitVec.ofNat 8 (w.toNat / 256 ^ (k - a)) else s.mailByte k) ∧
      t.mbx.count = s.mbx.count ∧ ({ t with mail := s.mail, mbx := s.mbx } : State) = s))

/-! ### Queue windows, rings and the other control registers -/

/-- The queue windows through the port of the host that uses them. A pop by a host that may not pop the queue returns 0, pops
nothing and sets not_owner; one that asserts BUSY_N pops nothing. A pop with an item in the head returns its header and makes it
the claimed item, the other items keeping their order; with an empty head before a middle in spill extents it returns a NONE
header with the retry flag and pops nothing (the claimed item stays: the model's choice, notes/assumptions/151.md); of an empty
queue it returns the claimed item's header with the underrun flag and sets underrun, with Q_UNDERRUN where it was clear. Each of
them takes a queue in HELD to REPLAY. QUE_POP_DATA returns the next word of the claimed item. A burst reads words one after the
other: from QUE_POP_HDR0 the header's words and the registers behind it, at QUE_POP_DATA the same address again.
A host push. By a host that may not push to the queue a write is ignored and sets not_owner. A header write while the queue
is full, with a type other than 1 or a length above 4,080 sets push_refused and starts no push; else it starts one, discarding
an uncommitted one, and a push of length 0 commits at once. Data words gather, and the last one commits an item of kind 0x5
for the host with exactly `len` bytes.
Its conclusions say the next state that `exec` answers for: quePopHdr0Read, quePopDataRead, quePushHdrWrite, quePushDataWrite. -/
def Obligations.QueuePopAndPush : Prop :=
  (∀ (s : State) (h : HostId) (q : Nat), q < 64 → s.portOn h = true →
    let r := s.queue q
    (s.popsQueue h q = false → ∀ ready,
      exec (.quePopHdr0Read h q ⟨1, ready⟩) s =
        .next (finish (emit (.readData h (aQue q) 0 false) (setSqc (aQueStatus q) [8] s))) ∧
      exec (.quePopDataRead h q ⟨1, ready⟩) s =
        .next (finish (emit (.readData h (aQue q + 0x10) 0 false) (setSqc (aQueStatus q) [8] s)))) ∧
    (s.popsQueue h q = true →
      exec (.quePopHdr0Read h q ⟨1, false⟩) s = .next (finish (emit (.readData h (aQue q) 0xFFFFFFFF#32 true) s)) ∧
      exec (.quePopDataRead h q ⟨1, false⟩) s = .next (finish (emit (.readData h (aQue q + 0x10) 0xFFFFFFFF#32 true) s))) ∧
    (s.popsQueue h q = true → q ≠ 6 + hCode h → r.head ≠ [] ∨ s.spills r = false → ∀ i rest, r.items = i :: rest →
      let p := (s.popFrom r).q
      exec (.quePopHdr0Read h q ⟨1, true⟩) s =
        .next (finish (emit (.readData h (aQue q) i.hdr0 false) (replayCheck q (putQueue q p none s)))) ∧
      p.claimed = i ∧ p.readPos = 0 ∧ p.items = rest) ∧
    (s.popsQueue h q = true → q ≠ 6 + hCode h → r.head = [] → r.mid ≠ [] → s.spills r = true →
      exec (.quePopHdr0Read h q ⟨1, true⟩) s =
        .next (finish (emit (.readData h (aQue q) 0x04000000#32 false) (replayCheck q (putQueue q r.opened none s))))) ∧
    (s.popsQueue h q = true → q ≠ 6 + hCode h → r.head = [] → r.mid = [] → r.tail = [] →
      exec (.quePopHdr0Read h q ⟨1, true⟩) s =
        .next (finish (emit (.readData h (aQue q) ({ r.claimed with flags := r.claimed.flags ||| 8 } : Item).hdr0 false)
          (replayCheck q (markUnderrun q (putQueue q { r.opened with readPos := 0 } none s)))))) ∧
    (s.popsQueue h q = true →
      exec (.quePopDataRead h q ⟨1, true⟩) s =
        .next (finish (emit (.readData h (aQue q + 0x10) (BitVec.ofNat 32 (field r.claimed.payload (4 * r.readPos) 4)) false)
          (setQueue q { r with readPos := r.readPos + 1 } s)))) ∧
    (∀ n ready, n < 64 → ∃ t u, exec (.quePopDataRead h q ⟨1, ready⟩) s = .next (finish t) ∧
      exec (.quePopDataRead h q ⟨n, ready⟩) t = .next (finish u) ∧
      exec (.quePopDataRead h q ⟨n + 1, ready⟩) s = .next (finish u)) ∧
    ∃ t, exec (.quePopHdr0Read h q ⟨1, true⟩) s = .next (finish t) ∧
      (t.popsQueue h q = true →
        let c := (t.queue q).claimed
        exec (.quePopHdr0Read h q ⟨4, true⟩) s =
          .next (finish (emit (.readData h (aQue q + 0x0C) (BitVec.ofNat 32 (c.stamp.toNat / 2 ^ 32)) false)
            (emit (.readData h (aQue q + 8) (BitVec.ofNat 32 (c.stamp.toNat % 2 ^ 32)) false)
              (emit (.readData h (aQue q + 4) c.source false) t))))) ∧
      (t.popsQueue h q = false →
        exec (.quePopHdr0Read h q ⟨2, true⟩) s =
          .next (finish (emit (.readData h (aQue q + 4) 0 false) (setSqc (aQueStatus q) [8] t))))) ∧
  (∀ (s : State) (h : HostId) (q : Nat) (v : Word), q < 64 → s.portOn h = true →
    let r := s.queue q
    let len := v.toNat % 65536
    let typ := v.toNat / 65536 % 16
    (s.pushesQueue h q = false →
      exec (.quePushHdrWrite h q v) s = .next (finish (setSqc (aQueStatus q) [8] s)) ∧
      exec (.quePushDataWrite h q [v]) s = .next (finish (setSqc (aQueStatus q) [8] s))) ∧
    (s.pushesQueue h q = true → (r.full = true ∨ r.st = .disabled ∨ typ ≠ 1 ∨ 4080 < len) →
      exec (.quePushHdrWrite h q v) s =
        .next (finish (setSqc (aQueStatus q) [9] (setQueue q { r with push := none } s)))) ∧
    (s.pushesQueue h q = true → r.full = false → r.st ≠ .disabled → typ = 1 → 0 < len → len ≤ 4080 →
      exec (.quePushHdrWrite h q v) s = .next (finish (setQueue q { r with push := some { len := len, data := [] } } s))) ∧
    (s.pushesQueue h q = true → r.full = false → r.st ≠ .disabled → typ = 1 → len = 0 →
      exec (.quePushHdrWrite h q v) s =
        .next (finish (pushItem q { hostItem h [] with stamp := s.time.now } (setQueue q { r with push := none } s)))) ∧
    (∀ w vs, vs.length < 63 → ∃ t u, exec (.quePushDataWrite h q [v]) s = .next (finish t) ∧
      exec (.quePushDataWrite h q (w :: vs)) t = .next (finish u) ∧
      exec (.quePushDataWrite h q (v :: w :: vs)) s = .next (finish u)) ∧
    (s.pushesQueue h q = true → r.push = none → exec (.quePushDataWrite h q [v]) s = .next (finish s)) ∧
    (s.pushesQueue h q = true → ∀ p, r.push = some p → p.data.length + 4 < p.len →
      exec (.quePushDataWrite h q [v]) s =
        .next (finish (setQueue q { r with push := some { p with data := p.data ++ u32 v.toNat } } s))) ∧
    (s.pushesQueue h q = true → ∀ p, r.push = some p → p.len ≤ p.data.length + 4 →
      exec (.quePushDataWrite h q [v]) s =
        .next (finish (pushItem q { hostItem h ((p.data ++ u32 v.toNat).take p.len) with stamp := s.time.now }
          (setQueue q { r with push := none } s)))))

/-- The writes of a HOST block through its own port. A doorbell while the host is bound elsewhere is ignored and sets
doorbell_refused; one that would put more commands outstanding than the ring has slots is ignored and sets index_error; any
other is taken, and with port_enable 0 no slot is read. A heartbeat changes no register (the watchdog's time is not held:
notes/assumptions/11.md). Clearing port_enable ends a local binding; setting it while the host is
bound elsewhere and a ring holds slots that a doorbell named sets doorbell_refused. Through the other port each raises HOST_DECODE.
LICH_SCRATCHk: a write queues behind those that wait, and one that finds four waiting is dropped and sets its bit; when the
Lichen island has applied the oldest write, the register holds its value.
Its conclusions say the next state that `exec` answers for: hostxDoorbellWrite, hostxHeartbeatWrite, hostxCtrlWrite,
lichConfigWrite, lichWriteApplied. -/
def Obligations.HostBlockAndLichenWrites : Prop :=
  (∀ (s : State) (h : HostId) (v : Word), s.portOn h = true →
    let r := s.host h
    let n : BitVec 8 := v.setWidth 8
    let u : BitVec 8 := (v >>> 8).setWidth 8
    (r.bound.isSome = true → r.bound ≠ some (.localPort h) →
      exec (.hostxDoorbellWrite h h v) s = .next (finish (setSqc (aRing h) [3] s))) ∧
    ((r.bound = none ∨ r.bound = some (.localPort h)) → s.portEnable h = false →
      (v.getLsbD 16 = true → (n - r.consN).toNat ≤ 64) → (v.getLsbD 17 = true → (u - r.consU).toNat ≤ 16) →
      exec (.hostxDoorbellWrite h h v) s =
        .next (finish (modHost h (fun r => { r with prodN := if v.getLsbD 16 then n else r.prodN,
                                                    prodU := if v.getLsbD 17 then u else r.prodU }) s))) ∧
    ((r.bound = none ∨ r.bound = some (.localPort h)) → s.portEnable h = false → v.getLsbD 16 = true → v.getLsbD 17 = false →
      64 < (n - r.consN).toNat →
      exec (.hostxDoorbellWrite h h v) s = .next (finish (setSqc (aRing h) [2] s))) ∧
    exec (.hostxHeartbeatWrite h h v) s = .next (finish s) ∧
    (v.getLsbD 16 = false → r.bound ≠ some (.localPort h) →
      exec (.hostxCtrlWrite h h v) s = .next (finish (setCfg (aHostCtrl h) 0 s))) ∧
    (v.getLsbD 16 = false → r.bound = some (.localPort h) →
      ∃ t, exec (.hostxCtrlWrite h h v) s = .next (finish t) ∧ (t.host h).bound = none ∧ (t.host h).lostCause = 3 ∧
        (t.host h).semTimer = true ∧ t.portEnable h = false ∧
        t.ops = (s.ops.map fun o => if o.host == h && o.started then { o with bound := true } else o) ∧
        t.arrivals = s.arrivals ∧ t.mail = s.mail ∧ t.ports = s.ports) ∧
    (v.getLsbD 16 = true → (r.bound = none ∨ r.bound = some (.localPort h)) → s.dev.phase ≠ .ready →
      exec (.hostxCtrlWrite h h v) s = .next (finish (setCfg (aHostCtrl h) 0x10000#32 s))) ∧
    (v.getLsbD 16 = true → r.bound.isSome = true → r.bound ≠ some (.localPort h) → (r.consN ≠ r.prodN ∨ r.consU ≠ r.prodU) →
      exec (.hostxCtrlWrite h h v) s = .next (finish (setSqc (aRing h) [3] (setCfg (aHostCtrl h) 0x10000#32 s)))) ∧
    (let d := finish { s with fltIn := s.fltIn ++ [.raise 140 1 0 false] }
     exec (.hostxDoorbellWrite h (hOther h) v) s = .next d ∧ exec (.hostxHeartbeatWrite h (hOther h) v) s = .next d ∧
     exec (.hostxCtrlWrite h (hOther h) v) s = .next d)) ∧
  (∀ (s : State) (h : HostId) (k : Nat) (v : Word), k < 4 →
    (s.portOn h = true → s.lich.writeQ.length < 4 →
      exec (.lichConfigWrite h k v) s = .next (finish { s with lich := { s.lich with writeQ := s.lich.writeQ ++ [(k, v)] } })) ∧
    (s.portOn h = true → 4 ≤ s.lich.writeQ.length →
      exec (.lichConfigWrite h k v) s = .next (finish (setSqc 0x06000 [16] s))) ∧
    (∀ rest, s.lich.writeQ = (k, v) :: rest →
      ∃ t, exec .lichWriteApplied s = .next (finish t) ∧ tget t.lich.scratch 0 k = v ∧ t.lich.writeQ = rest ∧
        (∀ j, j ≠ k → tget t.lich.scratch 0 j = tget s.lich.scratch 0 j) ∧
        ({ t with lich := s.lich, cfgBad := s.cfgBad } : State) = s) ∧
    (s.lich.writeQ = [] → exec .lichWriteApplied s = .next (finish s)))

/-- The fault collector's control registers. A pulse injects one occurrence of its source's forced sub-code; a hold raises the
source once and sets its force bit, and releases it when the bit falls; an acknowledgement clears the unacknowledged mark and
leaves the level of the active conditions.
A re-plan request with bit 0 set runs one at priority 7; a scrub request with bit 0 set starts a pass while the Peat store
is active. Without the bit nothing happens.
Its conclusions say the next state that `exec` answers for: fltPulseWrite, fltForcekWrite, fltAckwWrite, stokCtrlReplan,
memcCtrlScrubNow. -/
def Obligations.FaultControlsAndRequests : Prop :=
  (∀ (s : State) (h : HostId) (v : Word), s.portOn h = true →
    let src := v.toNat % 256
    (src < 160 → s.srcPresent src = true →
      exec (.fltPulseWrite h v) s = .next (finish { s with fltIn := s.fltIn ++ [.raise src (forcedSub src) 0 true] })) ∧
    ((160 ≤ src ∨ s.srcPresent src = false) → exec (.fltPulseWrite h v) s = .next (finish s)) ∧
    (∀ k, k < 5 → ∃ t, exec (.fltForcekWrite h k v) s = .next (finish t) ∧
      ∀ i, i < 32 → s.srcPresent (32 * k + i) = true → (t.flt (32 * k + i)).force = v.getLsbD i) ∧
    (src < 160 → v.getLsbD 8 = false → (s.flt src).unack = true →
      ∃ t, exec (.fltAckwWrite h v) s = .next (finish t) ∧ (t.flt src).unack = false ∧
        (t.flt src).level = activeLevel src (s.flt src) ∧ (t.flt src).count = (s.flt src).count ∧ t.mail = s.mail ∧
        t.ports = s.ports)) ∧
  (∀ (s : State) (h : HostId) (v : Word), s.portOn h = true →
    (v.getLsbD 0 = true → exec (.stokCtrlReplan h v) s = .next (finish (replan .periodic s))) ∧
    (v.getLsbD 0 = false → exec (.stokCtrlReplan h v) s = .next (finish s)) ∧
    (v.getLsbD 0 = true → s.peat.st = 2 →
      exec (.memcCtrlScrubNow h v) s = .next (finish { s with peat := { s.peat with scrubbing := true } })) ∧
    ((v.getLsbD 0 = false ∨ s.peat.st ≠ 2) → exec (.memcCtrlScrubNow h v) s = .next (finish s)))

/-- The control words of CAN message RAM while the CN island is on. A send request by the channel's owner on an idle send object
is taken; an abort request ends a send at once off the bus and marks it on the bus; abort_all does so for every pending send.
Another host's requests change nothing. A read of word 0 locks a receive object to the reading host; the read of the release
word by the holding host ends the lock and clears new_data and overrun.
Its conclusions say the next state that `exec` answers for: canSendRequestWrite, canAbortRequestWrite, canCtrlAbortAll,
canObjectLockRead, canReleaseWordRead. -/
def Obligations.CanObjectAccess : Prop :=
  ∀ (s : State) (h : HostId) (ch k : Nat) (v : Word), s.portOn h = true → s.hasCan ch = true → k < 128 →
    s.canGated = false →
    let c := s.can ch
    let o := c.obj k
    (c.owner = hOwner h → o.dir = 2 → o.busy = false → (c.classicOnly = false ∨ o.tooLong = false) →
      exec (.canSendRequestWrite h ch k) s =
        .next (finish (offer ch (modObj ch k (fun o => { o with busy := true, abort := false, attempts := 0, errored := 0,
                                                                op := none, sofAt := none }) s)))) ∧
    (c.owner ≠ hOwner h → exec (.canSendRequestWrite h ch k) s = .next (finish s) ∧
      exec (.canAbortRequestWrite h ch k) s = .next (finish s) ∧ exec (.canCtrlAbortAll h ch v) s = .next (finish s)) ∧
    (c.owner = hOwner h → o.dir = 2 → o.busy = true → c.onBus = true → c.listens = false →
      exec (.canAbortRequestWrite h ch k) s = .next (finish (modObj ch k (fun o => { o with abort := true }) s))) ∧
    (c.owner = hOwner h → o.dir = 2 → o.busy = true → c.onBus = false →
      exec (.canAbortRequestWrite h ch k) s = .next (finish (endSend ch k 4 s))) ∧
    (c.owner = hOwner h → v.getLsbD 0 = true →
      exec (.canCtrlAbortAll h ch v) s = .next (finish (foldS c.pending (fun e t => requestAbort ch e.1 t) s))) ∧
    (o.dir = 1 → o.lock = none →
      exec (.canObjectLockRead h ch k) s =
        .next (finish (modObj ch k (fun o => { o with lock := some h, expired := false })
          (emit (.readData h (aObj ch k 0) o.control false) s)))) ∧
    (o.dir = 2 →
      exec (.canObjectLockRead h ch k) s =
        .next (finish (modObj ch k (fun o => { o with newData := false })
          (emit (.readData h (aObj ch k 0) o.control false) s)))) ∧
    (o.lock = some h → o.hold = none →
      exec (.canReleaseWordRead h ch k) s =
        .next (finish (modObj ch k (fun o => { o with lock := none })
          (modObj ch k (fun o => { o with newData := false, overrun := false })
            (emit (.readData h (aObj ch k o.releaseWord) (o.word o.releaseWord) false) s)))))

/-! ### Port bus events and timers (R42 to R79, R378 to R385) -/

/-- The CC side of an attach on a present port while the bus machine runs: a sink in UNATTACHED starts the debounce, a lost one
ends it, the debounce closes the low path and counts the Rp weight, power-good leads to CONNECT_WAIT with the first offer sent;
two terminations are an accessory, reported once.
Its conclusions say the next state that `exec` answers for: ccRdSeen, ccRdLost, tccdebounceExpires, powerGood. -/
def Obligations.SinkAttach : Prop :=
  ∀ (s : State) (p : Nat), s.hasPort p = true → s.busRuns = true →
    let r := s.port p
    (∀ cc, r.bus = .unattached → cc ≠ .both → r.pd.sub ≠ .swHrWaitRd → r.pd.sub ≠ .goneSafe0 →
      exec (.ccRdSeen p cc) s =
        .next (finish (modPort p (fun r => { r with bus := .attachWait, cc2 := cc == .cc2 })
          (modPort p (fun r => { r with rd := some cc }) s)))) ∧
    (r.bus = .unattached → r.accessory = false → r.pd.sub ≠ .swHrWaitRd → r.pd.sub ≠ .goneSafe0 →
      exec (.ccRdSeen p .both) s =
        .next (finish (portEvent p 0x010A 0 0 0 [] (modPort p (fun r => { r with accessory := true })
          (modPort p (fun r => { r with rd := some .both }) s))))) ∧
    (r.bus = .attachWait → exec (.ccRdLost p) s =
      .next (finish (modPort p (fun r => { r with cc2 := false })
        (modPort p (fun r => { r with rd := none, accessory := false, bus := .unattached }) s)))) ∧
    (r.bus ≠ .attachWait → exec (.ccRdLost p) s =
      .next (finish (modPort p (fun r => { r with rd := none, accessory := false }) s))) ∧
    (r.bus = .attachWait → r.sw = .off → s.board.rail5 = true →
      exec (.tccdebounceExpires p) s =
        .next (finish (modPort p (fun r => { r with weight := r.rpWeight })
          (modPort p (fun r => { r with sw := .loRamp, pg := false, fetArmed := false })
            (modPort p (fun r => { r with bus := .powering }) s))))) ∧
    (r.bus = .powering → r.sw = .loRamp → r.pd.st = .noContract →
      exec (.powerGood p) s =
        .next (finish (startCaps p (modPort p (fun r => { r with bus := .connectWait })
          (modPort p (fun r => { r with sw := .loOn, pg := true, atLimit := false }) s)))))

/-- The wire side of an attach: a pull-up starts the debounce, or is kept for the wake while the port's PLU is gated; its loss ends
it, no pull-up within tCONNECT makes the port POWER_ONLY with an event, and a debounced pull-up starts the root reset at full
speed where D+ is high and low speed where D− is.
Its conclusions say the next state that `exec` answers for: pullupSeen, pullupLost, tconnectExpires, tattdbExpires. -/
def Obligations.PullupDebounce : Prop :=
  ∀ (s : State) (p : Nat), s.hasPort p = true → s.busRuns = true →
    let r := s.port p
    (s.pluGated p = false → r.bus = .connectWait ∨ r.bus = .powerOnly →
      exec (.pullupSeen p) s = .next (finish (modPort p (fun r => { r with bus := .connectDebounce }) s))) ∧
    (s.pluGated p = true → r.bus = .connectWait ∨ r.bus = .powerOnly →
      exec (.pullupSeen p) s = .next (finish (modPort p (fun r => { r with pullUp := true }) s))) ∧
    (r.bus = .connectDebounce →
      exec (.pullupLost p) s =
        .next (finish (modPort p (fun r => { r with bus := .connectWait }) (modPort p (fun r => { r with pullUp := false }) s)))) ∧
    (r.bus = .connectWait →
      exec (.tconnectExpires p) s =
        .next (finish (portEvent p 0x0105 0 0 0 [] (modPort p (fun r => { r with bus := .powerOnly }) s)))) ∧
    (∀ dplus, s.pluGated p = false → r.bus = .connectDebounce →
      ∃ t, exec (.tattdbExpires p .root dplus) s = .next (finish t) ∧ (t.port p).bus = .resetting ∧
        (t.port p).speed = b2n dplus ∧ (t.port p).found = b2n dplus ∧ (t.port p).fails = 0 ∧
        (t.port p).jobs = [{ loc := .root, speed := b2n dplus, depth := 0, phase := .reset }] ∧
        t.wire = .busReset p :: s.wire ∧ ∀ q, q ≠ p → t.port q = s.port q) ∧
    (∀ hub hport j dplus, s.jobAt p (.hub hub hport) = some j → j.phase = .debounce →
      exec (.tattdbExpires p (.hub hub hport) dplus) s =
        .next (finish (emit (.usbRequest p hub (setup 0x23 3 4 hport 0)) (setJob p { j with phase := .reset } s))))

/-- The root reset: chirp K of at least 1.0 ms from a full-speed instrument is answered once where hs_enable is set; at the end
of the reset SOF starts, at high speed where the chirp was answered and else at the speed that the pull-up showed, and the port
enumerates.
Its conclusions say the next state that `exec` answers for: chirpKDetected, trstrootExpires. -/
def Obligations.RootReset : Prop :=
  ∀ (s : State) (p : Nat) (j : Job), s.hasPort p = true → s.busRuns = true → s.jobAt p .root = some j → j.phase = .reset →
    ((s.port p).bus = .resetting ∨ (s.port p).bus = .enumerating) →
    let r := s.port p
    (∀ us, 1000 ≤ us → r.policy.hsEnable = true → r.speed ≠ 0 → r.chirped = false →
      exec (.chirpKDetected p us) s = .next (finish (emit (.chirpKJ p) (modPort p (fun r => { r with chirped := true }) s)))) ∧
    (∀ us, us < 1000 ∨ r.policy.hsEnable = false ∨ r.speed = 0 → exec (.chirpKDetected p us) s = .next (finish s)) ∧
    (r.chirped = true →
      exec (.trstrootExpires p) s =
        .next (finish (setJob p { j with phase := .recovery } (emit (.sofStart p)
          (modPort p (fun r => { r with bus := .enumerating, speed := 2 }) s))))) ∧
    (r.chirped = false →
      exec (.trstrootExpires p) s =
        .next (finish (setJob p { j with phase := .recovery } (emit (.sofStart p)
          (modPort p (fun r => { r with bus := .enumerating, speed := r.found }) s)))))

/-- The waits of an enumeration at the root or below a hub, while no abort of PORT_BUS_RESET waits: reset recovery leads to the
first descriptor request at the speed found, tSETADDR to the full device descriptor, tENUM_RETRY to another reset; a request
that takes tCTRL fails the attempt with TIMEOUT.
The end of an attempt (R51): below the third failure a root port keeps enumerating and its job waits to retry with one
more failure counted; the third failure posts ENUM_FAILED with the step and the cause and takes the root port to ERROR.
Its conclusions say the next state that `exec` answers for: trstrcyExpires, tsetaddrExpires, tenumRetryExpires, tctrlExpires. -/
def Obligations.EnumerationWaits : Prop :=
  (∀ (s : State) (p : Nat) (l : At) (j : Job), s.hasPort p = true → s.busRuns = true → s.jobAt p l = some j →
    s.resetAborted p j = false →
    (∀ hs, j.phase = .recovery →
      let speed := if l = .root then (s.port p).speed else hs
      let w := (s.port p).below speed j.loc
      j.loc = l → exec (.trstrcyExpires p l hs) s =
        .next (finish (ask p { j with speed := speed, depth := w.1, ttAddr := w.2.1, ttPort := w.2.2 } 1 0 s))) ∧
    (j.phase = .setAddrWait → j.step = 3 → exec (.tsetaddrExpires p l) s = .next (finish (ask p j 4 0 s))) ∧
    (j.phase = .retryWait → l = .root → j.loc = l →
      exec (.tenumRetryExpires p l) s =
        .next (finish (emit (.busReset p) (setJob p { j with phase := .reset } (modPort p (fun r => { r with chirped := false }) s))))) ∧
    (∀ a h, j.phase = .retryWait → l = .hub a h → j.loc = l →
      exec (.tenumRetryExpires p l) s =
        .next (finish (emit (.usbRequest p a (setup 0x23 3 4 h 0)) (setJob p { j with phase := .reset } s)))) ∧
    (j.phase = .request → exec (.tctrlExpires p l) s = .next (finish (attemptFails p j 1 s)))) ∧
  (∀ (s : State) (p : Nat) (j : Job), s.hasPort p = true → s.busRuns = true → s.jobAt p .root = some j → j.loc = .root →
    j.phase = .request → s.resetAborted p j = false → j.addr = 0 → (s.port p).bus = .enumerating →
    (j.fails < 2 →
      exec (.tctrlExpires p .root) s =
        .next (finish (setJob p { loc := .root, speed := j.speed, depth := j.depth, ttAddr := j.ttAddr, ttPort := j.ttPort,
                                  phase := .retryWait, fails := j.fails + 1 }
          (modPort p (fun r => { r with fails := j.fails + 1 }) s)))) ∧
    (j.fails = 2 →
      exec (.tctrlExpires p .root) s =
        .next (finish (endJob p .root (rootEnds p .error (portEvent p 0x0103 0 j.step 1 []
          (modPort p (fun r => { r with partials := sat 65535 (r.partials + 1) })
            (modPort p (fun r => { r with fails := 3 }) s))))))))

/-- Babble on a running root port posts PORT_ERROR code 1, ends the port's commands as a detach does, frees its tree and resets
the port; a second time within 10 s it enters ERROR.
Resume (R70 to R73): a remote wake on a suspended port drives K, on one that a host is resuming it adds the instrument as a
cause (in DOZE, where trigger 3 is enabled); the end of K sends the low-speed EOP and restarts SOF, which waits while the PLU is
gated; the end of recovery runs the port or the hub port again, with fresh due slots. After a host's resume RESUMED follows at
once; after an instrument's wake the scan starts, and with its last answer RESUMED names the waker (how the answers name it is
the model's choice, notes/assumptions/137.md). A hub port whose hub reports that it runs again is resumed by its instrument.
Its conclusions say the next state that `exec` answers for: rootBabble, remoteWakeK, tresumeExpires, trsmrcyExpires,
transactionResult. -/
def Obligations.BabbleAndResume : Prop :=
  (∀ (s : State) (p : Nat), s.hasPort p = true → s.busRuns = true → (s.port p).bus = .running →
    let r := s.port p
    let noted := portEvent p 0x0109 0 1 0 [] (modPort p (fun r => { r with babbleAt := some s.dev.monoNs }) s)
    (∀ t, r.babbleAt = some t → s.dev.monoNs < t + 10000000000 →
      exec (.rootBabble p) s = .next (finish (deferredSuspend p (rootEnds p .error noted)))) ∧
    ((r.babbleAt = none ∨ ∃ t, r.babbleAt = some t ∧ t + 10000000000 ≤ s.dev.monoNs) →
      exec (.rootBabble p) s =
        .next (finish (startReset p (freeTree p 1 (preempt p noted)))))) ∧
  (∀ (s : State) (p : Nat), s.hasPort p = true → s.busRuns = true →
    let r := s.port p
    ((s.dev.power ≠ .doze ∨ bitOf s.power.wakeEnable 1 = true) → r.bus = .suspended →
      exec (.remoteWakeK p) s =
        .next (finish (emit (.busK p) (modPort p (fun r =>
          { r with bus := .resuming, resume := some { loc := .root, byHost := false, byInst := true } }) s)))) ∧
    (∀ w, (s.dev.power ≠ .doze ∨ bitOf s.power.wakeEnable 1 = true) → r.bus = .resuming → r.resume = some w → w.kDone = false →
      w.recovery = false → exec (.remoteWakeK p) s = .next (finish (modPort p (fun r => { r with resume := some { w with byInst := true } }) s))) ∧
    (s.islandOff (0x10 + p / 8) = true → exec (.tresumeExpires p) s = .next (finish s)) ∧
    (∀ w, s.islandOff (0x10 + p / 8) = false → r.bus = .resuming → r.resume = some w → w.kDone = false →
      exec (.tresumeExpires p) s =
        .next (finish (emit (.sofStart p) (emit (.lsEop p) (modPort p (fun r => { r with resume := some { w with kDone := true } }) s))))) ∧
    (∀ w, r.bus = .resuming → r.resume = some w → w.kDone = true → w.recovery = false →
      let u := freshDue p w.loc (modPort p (fun r => { r with bus := .running, resume := none }) s)
      (w.byInst = false → exec (.trsmrcyExpires p 0 0) s = .next (finish (resumed p w 0 u))) ∧
      (w.byInst = true → exec (.trsmrcyExpires p 0 0) s = .next (finish (startScan p w u)))) ∧
    (∀ a h w, a ≠ 0 → r.resumeAt (.hub a h) = some w → w.kDone = true →
      let u := freshDue p w.loc (modPort p (fun r => { r with suspHub := r.suspHub.filter (· != (a, h)),
                                                              hubResumes := r.hubResumes.filter (fun x => x.loc != .hub a h) }) s)
      (w.byInst = false → exec (.trsmrcyExpires p a h) s = .next (finish (resumed p w 0 u))) ∧
      (w.byInst = true → exec (.trsmrcyExpires p a h) s = .next (finish (startScan p w u)))) ∧
    (∀ k a, r.scans = [k] → k.hubs = [] → k.insts = [a] → k.changed = [] → k.waking = [] →
      exec (.transactionResult (.devStatus p a true)) s =
        .next (finish (resumed p k.w a (modPort p (fun r => { r with scans := [] }) s)))) ∧
    (∀ a h, r.scans = [] → r.resumeAt (.hub a h) = none → r.suspHub.contains (a, h) = true →
      exec (.transactionResult (.portStatus p a h true)) s =
        .next (finish (modPort p (fun r => { r with
          hubResumes := r.hubResumes ++ [{ loc := .hub a h, byHost := false, byInst := true, kDone := true }] }) s))))

/-- A hub's ports: a connect change queues an enumeration below the hub, which starts at once where none runs below it; a
disconnect frees what lies below that port, over-current and a port the hub disabled post PORT_ERROR first; the hub's power-on
wait ends its set-up.
Its conclusions say the next state that `exec` answers for: hubPortConnectChange, hubPortDisconnectChange,
pwron2pwrgoodWaitExpires. -/
def Obligations.HubPorts : Prop :=
  ∀ (s : State) (p hub hport : Nat) (i : Inst), s.hasPort p = true → s.busRuns = true → (s.port p).inst hub = some i →
    (s.jobAt p (.hub hub hport) = none → i.hub = true →
      exec (.hubPortConnectChange p hub hport) s =
        .next (finish (nextJob p (.hub hub hport) (modPort p (fun r =>
          { r with jobs := r.jobs ++ [{ loc := .hub hub hport, speed := 1, depth := i.depth + 1, phase := .queued }] }) s)))) ∧
    exec (.hubPortDisconnectChange p hub hport .removed) s =
      .next (finish (deferredSuspend p (nextJob p (.hub hub hport) (freeBelow p 0 hub hport s)))) ∧
    exec (.hubPortDisconnectChange p hub hport .overCurrent) s =
      .next (finish (deferredSuspend p (nextJob p (.hub hub hport) (freeBelow p 0 hub hport (portEvent p 0x0109 hub 2 hport [] s))))) ∧
    exec (.hubPortDisconnectChange p hub hport .disabledByHub) s =
      .next (finish (deferredSuspend p (nextJob p (.hub hub hport) (freeBelow p 0 hub hport (portEvent p 0x0109 hub 3 hport [] s))))) ∧
    (∀ j c, ((s.port p).jobs.find? fun j => j.addr == hub && j.step == 10) = some j →
      parseCfg (j.configs.getD (j.chosen.getD 0) []) = some c → i.alts = [] →
      exec (.pwron2pwrgoodWaitExpires p hub) s =
        .next (finish (endJob p j.loc (addCtxs p (i.firstIdx + 1) ((c.ctxs i).map fun x =>
          if x.alt = 0 then { x with active := true, devOwned := true, bound := true, cls := 1, exp := 5, nextDue := s.nextDue (epGroup (epid p (i.firstIdx + 1))) 32 0 }
          else { x with active := false, devOwned := true }) s))))

/-- The end of a port's powered states and of its waits. A CC detach opens both paths and takes the tree and the contract away
(R75): the port waits for a sink in UNATTACHED, its paths are open, it holds no contract, no mode and no weight, and no
termination is seen, but for one that has come back in a transition (R357). The off time of PORT_POWER_CYCLE ends the command with 1
and the port waits for a sink. Quarantine ends for the one address or the one index whose wait ended (R53, R58).
Its conclusions say the next state that `exec` answers for: tpddebounceExpires, offTimeExpires, taddrQuietExpires. -/
def Obligations.PortLeaves : Prop :=
  ∀ (s : State) (p : Nat), s.hasPort p = true →
    (s.busRuns = true → (s.port p).bus.powered = true →
      exec (.tpddebounceExpires p) s = .next (finish (detachPort p s)) ∧
      (let r := (detachPort p s).port p
       r.pd.st = .noContract ∧ r.pd.volt = 0 ∧ r.pd.alt = false ∧ r.weight = 0 ∧ r.sw.active = false ∧
         ((s.port p).pd.sub ≠ .gone → r.bus = .unattached ∧ r.rd = none) ∧
         ((s.port p).pd.sub = .gone → (s.port p).fetArmed = false → r.bus = .unattached))) ∧
    (∀ o, s.opAt (keyPort p) = some o → o.opcode = 0x0106#16 →
      exec (.offTimeExpires p) s = .next (finish (toUnattached p (finishOp o.host o.tag stOk (u8 1) s)))) ∧
    (∀ a, exec (.taddrQuietExpires p (.addr a)) s =
        .next (finish (modPort p (fun r => { r with quietAddr := r.quietAddr.filter (· != a) }) s)) ∧
      exec (.taddrQuietExpires p (.index a)) s =
        .next (finish (modPort p (fun r => { r with quietIdx := r.quietIdx.filter (· != a) }) s)))

/-! ### Power contracts (R340 to R375) -/

/-- Offers and Requests of a downstream port. Without a contract the capabilities repeat, quiet after 50 sends; a GoodCRC of them
starts the wait for a Request, whose end is a Hard Reset. A Request outside the offer or invalid is answered with Reject and
reported; a valid one that the budget funds, or that raises no weight, with Accept, and the port moves to the transition with
the higher of the two weights; any other with Wait, reported the first time.
Messages a port answers at any time: Soft_Reset with Accept, and a fresh offer by a powered source port (in a transition once the
new voltage stands), Get_Source_Cap with the offer,
Get_Sink_Cap of a source port and unknown messages with Not_Supported, the swaps of power, VCONN and fast role with Reject;
the service port, as a sink, answers Get_Sink_Cap with its sink capabilities.
Its conclusions say the next state that `exec` answers for: tcapsRepeatExpires, goodcrcReceived, tsenderExpires,
requestReceived, softResetReceived, getSourceCapReceived, getSinkCapReceived, prSwapReceived, pdUnsupportedMessage. -/
def Obligations.OffersRequestsAndMessages : Prop :=
  (∀ (s : State) (p : Nat), p < 32 → s.hasPort p = true → s.busRuns = true →
    let d := (s.port p).pd
    (d.st = .noContract → d.quiet = false → 0 < d.sends → d.sends < 50 →
      exec (.tcapsRepeatExpires p) s = .next (finish (sendCaps p (modPd p (fun d => { d with sends := d.sends + 1 }) s)))) ∧
    (d.st = .noContract → d.quiet = false → 50 ≤ d.sends →
      exec (.tcapsRepeatExpires p) s = .next (finish (pdEvent p 0x0509 1 0 (modPd p (fun d => { d with quiet := true }) s)))) ∧
    (d.st = .noContract → d.quiet = false → 0 < d.sends →
      exec (.goodcrcReceived p .sourceCaps) s =
        .next (finish (modPd p (fun d => { d with st := .negotiating, tSender := true }) s))) ∧
    (d.st = .transition → d.sub = .accepted →
      exec (.goodcrcReceived p .accept) s = .next (finish (modPd p (fun d => { d with sub := .timing }) s))) ∧
    (d.st = .negotiating → d.tSender = true →
      exec (.tsenderExpires p) s = .next (finish (hardReset p true 2 s))) ∧
    (d.st = .negotiating ∨ d.st = .contract → ∀ rdo : Word,
      let pos := rdo.toNat / 2 ^ 28
      let op := rdo.toNat / 2 ^ 10 % 1024 * 10
      let mx := rdo.toNat % 1024 * 10
      let got := modPd p (fun d => { d with tSender := false }) s
      let w := volts (posVolt pos) * op
      let now := (s.port p).weight
      (∀ why, s.requestBad p pos op mx (bitOf rdo.toNat 26) = some why →
        exec (.requestReceived p rdo) s =
          .next (finish (pdEvent p 0x0502 why (posVolt pos) (setSqc (aPortPd p) [9]
            (modPd p (fun d => { d with wait := false, rejected := true, ams := false }) (pdSend p .reject [] got)))))) ∧
      (s.requestBad p pos op mx (bitOf rdo.toNat 26) = none →
        (w ≤ now ∨ (s.refusing = false ∧ (s.committed + (w - now : Int) : Int) ≤ s.funds) →
          exec (.requestReceived p rdo) s =
            .next (finish (setWeight p (if now < w then w else now)
              (modPd p (fun d => { d with st := .transition, sub := .accepted, newVolt := posVolt pos, newMa := op,
                                          wait := false, rejected := false }) (pdSend p .accept [] got))))) ∧
        (now < w → (s.refusing = true ∨ s.funds < (s.committed + (w - now : Int) : Int)) →
          let waits := modPd p (fun d => { d with wait := true, rejected := false, ams := false }) (pdSend p .wait [] got)
          exec (.requestReceived p rdo) s =
            .next (finish (if d.wait then waits
              else pdEvent p 0x0501 (if heatHas s.ledger 5 then 1 else 2) (posVolt pos) waits)))))) ∧
  (∀ (s : State),
    (∀ p, p < 32 → s.hasPort p = true → s.busRuns = true →
      let d := (s.port p).pd
      ((s.port p).bus.powered = true → d.st = .contract ∨ d.st = .negotiating →
        exec (.softResetReceived p) s =
          .next (finish (sendCaps p (modPd p (fun d => { d with st := .negotiating, tSender := false }) (pdSend p .accept [] s))))) ∧
      ((s.port p).bus.powered = false →
        exec (.softResetReceived p) s = .next (finish (pdSend p .accept [] s))) ∧
      ((s.port p).bus.powered = true → d.st = .transition →
        exec (.softResetReceived p) s =
          .next (finish (modPd p (fun d => { d with offerDue := true }) (pdSend p .accept [] s)))) ∧
      ((s.port p).bus.powered = true → d.st = .contract →
        exec (.getSourceCapReceived p) s = .next (finish (sendCaps p (modPd p (fun d => { d with st := .negotiating }) s)))) ∧
      ((s.port p).bus.powered = true → d.st ≠ .contract →
        exec (.getSourceCapReceived p) s = .next (finish (sendCaps p s))) ∧
      ((s.port p).bus = .ufpSwapped →
        exec (.getSourceCapReceived p) s = .next (finish (pdSend p .notSupported [] s)) ∧
        exec (.getSinkCapReceived p) s = .next (finish (pdSend p .sinkCaps [0x0001900A] s))) ∧
      ((s.port p).bus ≠ .ufpSwapped → exec (.getSinkCapReceived p) s = .next (finish (pdSend p .notSupported [] s))) ∧
      (∀ kind, exec (.prSwapReceived p kind) s = .next (finish (pdSend p .reject [] s))) ∧
      exec (.pdUnsupportedMessage p) s = .next (finish (pdSend p .notSupported [] s))) ∧
    (s.svc.vbus = true →
      exec (.softResetReceived 32) s = .next (finish (pdSend 32 .accept [] s)) ∧
      exec (.getSourceCapReceived 32) s = .next (finish (pdSend 32 .notSupported [] s)) ∧
      exec (.getSinkCapReceived 32) s = .next (finish (pdSend 32 .sinkCaps [0x000190F0] s)) ∧
      (∀ kind, exec (.prSwapReceived 32 kind) s = .next (finish (pdSend 32 .reject [] s))) ∧
      exec (.pdUnsupportedMessage 32) s = .next (finish (pdSend 32 .notSupported [] s))))

/-- Transitions and Hard Resets of a downstream port. At tSRC_TRANS a port moves up through the gap or down through the bleed, or
answers PS_RDY at once; the gap ends in the high ramp, the bleed in the low one, a slow bleed is a fault; the new voltage closes
the contract. A Hard Reset opens the paths at tPS_HARDRESET, arms the FET check at 0.8 V, faults where 0.8 V is late, and closes
the low path again; one that the HK32 would send a third time is not sent (R347); a sink that leaves in a transition leaves its
contract.
Its conclusions say the next state that `exec` answers for: tsrcTransExpires, gapDelayExpires, vsnsStepdownReached,
tstepdownExpires, powerGood, newVoltageNotGood, ccNoRdInTransition, hardResetReceived, tsenderExpires, tpsHardresetExpires,
vsnsSafe0vReached, tsafe0vExpires, tsrcRecoverExpires. -/
def Obligations.TransitionsAndHardResets : Prop :=
  ∀ (s : State) (p : Nat), p < 32 → s.hasPort p = true → s.busRuns = true →
    let r := s.port p
    let moving := modPd p (fun d => { d with sub := .moving }) s
    (r.pd.st = .transition → r.pd.sub = .timing → r.sw.volt = r.pd.newVolt → r.pg = true →
      exec (.tsrcTransExpires p) s = .next (finish (psReady p moving))) ∧
    (r.pd.st = .transition → r.pd.sub = .timing → r.pd.newVolt = 2 → r.sw = .loOn →
      exec (.tsrcTransExpires p) s =
        .next (finish (modPort p (fun r => { r with sw := .gap, pg := false, atLimit := false }) moving))) ∧
    (r.pd.st = .transition → r.pd.sub = .timing → r.pd.newVolt = 1 → r.sw = .hiOn →
      exec (.tsrcTransExpires p) s =
        .next (finish (modPort p (fun r => { r with sw := .stepdown, pg := false, atLimit := false }) moving))) ∧
    (r.sw = .gap → exec (.gapDelayExpires p) s = .next (finish (modPort p (fun r => { r with sw := .hiRamp }) s))) ∧
    (r.sw = .stepdown → s.board.rail5 = true →
      exec (.vsnsStepdownReached p) s =
        .next (finish (modPort p (fun r => { r with sw := .loRamp, pg := false, fetArmed := false })
          (modPort p (fun r => { r with sw := .off }) s)))) ∧
    (r.sw = .stepdown →
      exec (.tstepdownExpires p) s =
        .next (finish (hardReset p true 3 (raise (srcPd p) 2 (modPort p (fun r => { r with sw := .off, fetArmed := false }) s))))) ∧
    (r.bus ≠ .recovering → r.pd.st = .transition → r.pd.sub = .moving → r.sw = .hiRamp → r.pd.newVolt = 2 →
      exec (.powerGood p) s =
        .next (finish (psReady p (modPort p (fun r => { r with sw := .hiOn, pg := true, atLimit := false }) s)))) ∧
    (r.pd.st = .transition → r.pd.sub = .moving → r.pg = false →
      exec (.newVoltageNotGood p) s = .next (finish (hardReset p true 3 s))) ∧
    (r.pd.st = .transition →
      exec (.ccNoRdInTransition p) s =
        .next (finish (modPd p (fun d => { d with sub := .gone }) (releasePd p (openPaths p (modPort p (fun r => { r with rd := none })
          (raise (srcPd p) 1 (pdEvent p 0x0506 (if r.pd.volt = 0 then 1 else r.pd.volt) r.pd.newVolt s)))))))) ∧
    (r.bus ≠ .ufpSwapped → exec (.hardResetReceived p) s = .next (finish (hardReset p false 5 s))) ∧
    (2 ≤ r.pd.resets → r.pd.st = .negotiating → r.pd.tSender = true → exec (.tsenderExpires p) s = .next (finish s)) ∧
    (r.pd.st = .hardReset → r.pd.sub = .hrWaitOpen →
      exec (.tpsHardresetExpires p) s =
        .next (finish (modPd p (fun d => { d with sub := .hrWaitSafe0, ufp := false, volt := 0, opMa := 0 }) (openPaths p s)))) ∧
    (r.sw.active = false → r.pd.sub = .hrWaitSafe0 →
      let armed := modPort p (fun r => { r with fetArmed := true }) s
      exec (.vsnsSafe0vReached p) s =
        .next (finish (setWeight p 0 (modPd p (fun d => { d with sub := .hrRecover }) armed))) ∧
      exec (.tsafe0vExpires p) s = .next (finish (raise (srcPd p) 2 armed))) ∧
    (r.rd.isSome = true → r.pd.sub = .hrRecover → r.sw = .off → s.board.rail5 = true → r.bus = .powering →
      exec (.tsrcRecoverExpires p) s =
        .next (finish (modPort p (fun r => { r with sw := .loRamp, pg := false, fetArmed := false })
          (modPd p (fun d => { d with st := .hardReset, sub := .hrClosing, ufp := false })
            (modPort p (fun r => { r with weight := r.rpWeight }) s)))))

/-- Data role swaps. A DR_Swap in a contract is accepted where the identity is provisioned, no mode is entered and no
renegotiation runs; the HK32's own is answered, asked again after Wait, refused or timed out with the outcome in its command's
result. In UFP_SWAPPED the partner's source closes the swap, and its loss, its absence and a missing Rd end it.
Its conclusions say the next state that `exec` answers for: drSwapReceived, pdResponseReceived, twaitExpires,
swapPartnerSourceSeen, sourceCapabilitiesReceived, swappedVbusLost, tswapAttachExpires, swappedHrRdTimeout. -/
def Obligations.DataRoleSwaps : Prop :=
  ∀ (s : State) (p : Nat), p < 32 → s.hasPort p = true → s.busRuns = true →
    let r := s.port p
    let d := r.pd
    (d.st = .contract → d.sub ≠ .swapDone → s.provisioned = true → d.alt = false → r.renegRun = false →
      exec (.drSwapReceived p) s = .next (finish (pdSend p .accept [] s))) ∧
    (d.st = .contract → d.sub ≠ .swapDone → s.provisioned = true → d.alt = false → r.renegRun = true →
      exec (.drSwapReceived p) s = .next (finish (pdSend p .wait [] s))) ∧
    (d.sub ≠ .swapDone → (d.st ≠ .contract ∨ s.provisioned = false ∨ d.alt = true) →
      exec (.drSwapReceived p) s = .next (finish (pdSend p .reject [] s))) ∧
    (d.ask = some .swap → d.askSent = true → d.sub ≠ .swapDone →
      exec (.pdResponseReceived p .accept) s = .next (finish (enterSwapped p s)) ∧
      exec (.pdResponseReceived p .reject) s = .next (finish (swapOutcome p 1 s)) ∧
      (∀ o, s.opAt (keyPort p) = some o → s.abortAsked o.host o.tag = false → d.swapTries < 10 →
        exec (.pdResponseReceived p .wait) s =
          .next (finish (modPdOf p (fun d => { d with askSent := false, swapTries := d.swapTries + 1 }) s)))) ∧
    (d.ask = some .swap → d.askSent = false →
      exec (.twaitExpires p) s =
        .next (finish (pdSend p .drSwap [] (modPdOf p (fun d => { d with askSent := true }) s)))) ∧
    (r.bus = .ufpSwapped → d.sub = .swapWaitSource → s.provisioned = true → s.phyRails = true →
      exec (.swapPartnerSourceSeen p) s =
        .next (finish (modInst (1 + p) (fun i => { attached := true, replies := i.replies }) (modPd p (fun d => { d with sub := .swapWaitCaps }) s)))) ∧
    (∀ pdo, d.sub = .swapWaitCaps →
      exec (.sourceCapabilitiesReceived p pdo) s =
        .next (finish (swapOutcome p 0 (pdEvent p 0x0503 1 (b2n (d.ask == some .swap))
          (pdSend p .request [2 ^ 28 + 2 ^ 25 + 10 * 1024 + 10] (modPd p (fun d => { d with sub := .swapDone }) s)))))) ∧
    (r.bus = .ufpSwapped → d.st ≠ .hardReset → d.sub = .swapDone → d.ask = none →
      exec (.swappedVbusLost p) s = .next (finish (swappedToUnattached p s))) ∧
    (r.bus = .ufpSwapped → d.st ≠ .hardReset → d.sub = .swapWaitSource →
      exec (.tswapAttachExpires p) s =
        .next (finish (swappedToUnattached p (swapOutcome p 3 (pdEvent p 0x050B 0 0 s))))) ∧
    (d.sub = .swHrWaitRd → exec (.swappedHrRdTimeout p) s = .next (finish (swappedToUnattached p s)))

/-- Structured VDMs and the Timebase mode. A Discover Identity is answered with the identity where it is provisioned and every other
request with NAK, after the header of structured VDM 2.0 (notes/assumptions/170.md); Exit Mode also ends an entered mode. A
response to PD_DISCOVER ends the command with its VDOs; in PD_ALTMODE an ACK of the SVIDs with the Timebase SVID asks for the
modes, or ends the command where its abort waits; an ACK of Enter Mode enters; silence ends the command TIMEOUT, and an exit
that is not answered leaves the mode.
Its conclusions say the next state that `exec` answers for: vdmRequestReceived, exitModeReceived, vdmResponseReceived,
tvdmExpires, tvdmEnterExpires. -/
def Obligations.ModesAndDiscovery : Prop :=
  ∀ (s : State) (p : Nat), p < 32 → s.hasPort p = true → s.busRuns = true →
    let d := (s.port p).pd
    (s.provisioned = true → exec (.vdmRequestReceived p .identity) s = .next (finish (pdSend p .vdmAck (vdmHead 0xFF00 1 0 1 :: s.identity p) s))) ∧
    (∀ req, req ≠ .attention → (req ≠ .identity ∨ s.provisioned = false) →
      exec (.vdmRequestReceived p req) s = .next (finish (pdSend p .vdmNak [vdmHead (vdmReqCode req).1 2 0 (vdmReqCode req).2] s))) ∧
    (d.alt = true →
      exec (.exitModeReceived p) s =
        .next (finish (altExit p 2 (pdSend p .vdmNak [vdmHead s.timebaseSvid 2 0 5] (useFree s))))) ∧
    (∀ req a vdos, d.ask = some (.discover req) → req ≠ 2 →
      let got := if a = .ack then vdos.take 6 else []
      exec (.vdmResponseReceived p a vdos) s =
        .next (finish (vdmEnd p stOk (u8 (vdmCode a) ++ u8 got.length ++ [0, 0] ++ got.flatMap fun v => u32 v.toNat) s))) ∧
    (∀ vdos o, d.ask = some .altSvids → (svidsOf vdos).contains s.timebaseSvid = true → s.opAt (keyPort p) = some o →
      (s.abortAsked o.host o.tag = false → exec (.vdmResponseReceived p .ack vdos) s =
        .next (finish (pdSend p .discModes [vdmHead s.timebaseSvid 0 0 3] (modPd p (fun d => { d with ask := some .altModes }) s)))) ∧
      (s.abortAsked o.host o.tag = true → exec (.vdmResponseReceived p .ack vdos) s =
        .next (finish (abortOp o.host o.tag [] (modPd p (fun d => { d with ask := none, askSent := false }) s))))) ∧
    (∀ vdos, d.ask = some .enter →
      exec (.vdmResponseReceived p .ack vdos) s =
        .next (finish (vdmEnd p stOk (u8 0) (pdEvent p 0x0507 0 0 (modPd p (fun d => { d with alt := true }) s))))) ∧
    (∀ req, d.ask = some (.discover req) → exec (.tvdmExpires p) s = .next (finish (vdmEnd p stTimeout [] s))) ∧
    (d.ask = some .exit → exec (.tvdmExpires p) s = .next (finish (vdmEnd p stTimeout [] (altExit p 1 s)))) ∧
    (d.ask = some .enter → exec (.tvdmEnterExpires p) s = .next (finish (vdmEnd p stTimeout [] s)))

/-- The service port as a sink, and the 15 V rail. SVC_VBUS reports what the source offers; its first offer is requested, 0.1 A
while a feed is present; PS_RDY closes the contract; without capabilities the Rp level decides, and a later change of it is
reported. SVC_GATE opens on an overload with an Ash record and may close again after the pause. While the bus machines run, the
loss of the 15 V rail raises its fault and Hard Resets with cause 4 the powered ports at 15 V, and its return offers 15 V again
where the ports were without.
Its conclusions say the next state that `exec` answers for: svcVbusPresent, sourceCapabilitiesReceived, psRdyReceived,
svcCapsWaitExpires, svcGateOverload, svcGateReclose, tsvcDfpExpires, prail15Low, prail15Restored. -/
def Obligations.ServicePower : Prop :=
  ∀ (s : State),
    (∀ rp, s.powered = true → s.svc.vbus = false → s.posting = false →
      exec (.svcVbusPresent rp) s =
        .next (finish (servicePower (sat 2 rp) (rpMa rp) (modSvc (fun v => { v with vbus := true, rp := sat 2 rp }) s)))) ∧
    (∀ rp, s.powered = true → s.svc.vbus = true → s.svc.rp ≠ sat 2 rp → (s.svc.waited = false ∨ s.svc.pd.st ≠ .noContract) →
      exec (.svcVbusPresent rp) s =
        .next (finish (servicePower (sat 2 rp) (rpMa rp) (modSvc (fun v => { v with rp := sat 2 rp }) s)))) ∧
    (∀ pdo : Word, s.svc.vbus = true → s.feedPresent = true →
      exec (.sourceCapabilitiesReceived 32 pdo) s =
        .next (finish (pdSend 32 .request [2 ^ 28 + 2 ^ 25 + 10 * 1024 + 10]
          (modSvc (fun v => { v with caps := true, offerMa := 100, mismatch := false, pd := { v.pd with st := .negotiating } }) s)))) ∧
    (s.svc.vbus = true → s.svc.pd.st = .negotiating →
      exec (.psRdyReceived 32) s =
        .next (finish (closeSvcGate (servicePower 3 s.svc.offerMa
          (modSvc (fun v => { v with ma := v.offerMa, pd := { v.pd with st := .contract, volt := 1, opMa := v.offerMa } }) s))))) ∧
    (s.svc.vbus = true → s.svc.caps = false → s.svc.pd.st = .noContract →
      exec .svcCapsWaitExpires s = .next (finish (closeSvcGate (modSvc (fun v => { v with waited := true }) s)))) ∧
    (s.svc.vbus = true → s.svc.gate = true → s.dev.power ≠ .service →
      exec .svcGateOverload s =
        .next (finish (ashRecord 3 s.svc.limitMa (modSvc (fun v => { v with gate := false, pause := true }) s)))) ∧
    (s.svc.vbus = true → s.svc.pause = true →
      exec .svcGateReclose s = .next (finish (closeSvcGate (modSvc (fun v => { v with pause := false }) s)))) ∧
    (s.svc.vbus = true → s.svc.pd.ufp = false → s.svc.pd.ask = none →
      exec .tsvcDfpExpires s =
        .next (finish (pdSend 32 .drSwap [] (modPdOf 32 (fun d => { d with ask := some .swap, askSent := true, swapTries := 0 }) s)))) ∧
    (s.board.rail15 = true → s.powered = true → s.busRuns = true →
      let low := raise 146 1 (modBoard (fun b => { b with rail15 := false }) s)
      exec .prail15Low s =
        .next (finish (foldS (upTo s.nPorts) (fun p t =>
          if ((t.port p).bus.powered && (t.port p).pd.volt == 2) = true then hardReset p true 4 t
          else if (t.port p).pd.sent15 = true then newOffer p t else t) low))) ∧
    (s.board.rail15 = false → s.powered = true →
      let back := clearFlt 146 1 (modBoard (fun b => { b with rail15 := true }) s)
      exec .prail15Restored s =
        .next (finish (foldS (upTo s.nPorts) (fun p t =>
          if ((t.port p).pd.volt == 1 && t.offers15 p) = true then newOffer p t else t) back)))

/-! ### Microframes, placement, Ledger and tests (R28 to R31, R85 to R171) -/

/-- What each microframe does. A boundary of a grid that is not renumbered raises G and M by 1 and takes an offset of the grid from
TIME toward 0, keeps the SOF time of the microframe that ends for its late results, then hands off migrations, counts the missed
slots, runs the ports, forgets the sublists and issues the orders; with the grid off it does nothing. At the first boundary
after a step of TIME, which moved with the step, M is the nearest grid point, the offset is what lies between after this
microframe's slew, at most 62,500 ns, and no renumbered slot counts. A commit by the engine that holds a group adds that group's
sublist, once, but none while a cold takeover builds it.
Its conclusions say the next state that `exec` answers for: microframeBoundary, sublistCommit. -/
def Obligations.Microframes : Prop :=
  ∀ (s : State), s.dev.phase = .ready →
    (s.time.gridOn = false → exec .microframeBoundary s = .next (finish s)) ∧
    (s.time.gridOn = true → s.time.stepped = false →
      let s1 := nextBoundary (keepStamp s)
      exec .microframeBoundary s =
        .next (finish (let s3 := issueOrders 64 (modStok (fun k => { k with lists := [] })
                        (missSlots (foldS (upTo (migBoundary s1).nPorts) runPort (migBoundary s1))))
                       engineEmpty (if s3.ready then gateEmpty s3 else s3))) ∧
      s1.time.m = s.time.m + 1 ∧ s1.time.g = s.time.g + 1 ∧ s1.time.sofLast = s.sofTime ∧
      (0 ≤ s.time.gridHalf → 0 ≤ s1.time.gridHalf ∧ s1.time.gridHalf ≤ s.time.gridHalf) ∧
      (s.time.gridHalf ≤ 0 → s1.time.gridHalf ≤ 0 ∧ s.time.gridHalf ≤ s1.time.gridHalf) ∧
      (-25 ≤ s.time.gridHalf → s.time.gridHalf ≤ 25 → s1.time.gridHalf = 0)) ∧
    (s.time.gridOn = true → s.time.stepped = true →
      let s1 := renumber (keepStamp s)
      exec .microframeBoundary s =
        .next (finish (let s3 := issueOrders 64 (modStok (fun k => { k with lists := [] })
                        (passSlots (foldS (upTo (migBoundary s1).nPorts) runPort (migBoundary s1))))
                       engineEmpty (if s3.ready then gateEmpty s3 else s3))) ∧
      s1.time.stepped = false ∧ s1.time.stepBy = 0 ∧ -125000 ≤ s1.time.gridHalf ∧ s1.time.gridHalf < 125000 ∧
      (0 ≤ s.time.boundaryHalf →
        250000 * (s1.time.m : Int) + s1.time.gridHalf = 2 * (((s.time.m : Int) + 1) * 125000 + s.time.stepBy) +
          (if 25 < s.time.gridHalf then s.time.gridHalf - 25 else if s.time.gridHalf < -25 then s.time.gridHalf + 25 else 0))) ∧
    (∀ te p g, s.hasPort p = true → g < 8 → s.available te = true → s.engineOf (8 * p + g) = some te →
      (s.stok.lists.any fun l => l.group == 8 * p + g && l.te == te) = false → (s.stok.colds.any fun c => c.group == 8 * p + g) = false →
      ∃ t l, exec (.sublistCommit te p g) s = .next (finish t) ∧ l ∈ t.stok.lists ∧ l.group = 8 * p + g ∧ l.te = te) ∧
    (∀ te p g, s.hasPort p = true → g < 8 →
      (s.stok.lists.any fun l => l.group == 8 * p + g && l.te == te) = true ∨ (s.stok.colds.any fun c => c.group == 8 * p + g) = true →
      exec (.sublistCommit te p g) s = .next (finish s))

/-- The results of transactions on a bound context that no transfer uses (R110, R111, R114): NAK and STALL store nothing, an ACK of
an OUT releases the held payload, IN data is delivered where it fits max_packet and its toggle is right, and only forgiven where
it is not; an error counts, ends a run of NAKs and, where the period is at least 2 and it was no retry, asks for one retry; and
work that was not started counts as skipped. The ACK of a start-split opens the complete-splits, a NYET before the last of them
leaves all as it was, and their result is the transaction's. The context is otherwise as before, and so is all else.
Its conclusions say the next state that `exec` answers for: transactionResult. -/
def Obligations.TransactionResults : Prop :=
  ∀ (s : State) (e : Nat) (c : Ctx), s.dev.phase = .ready → s.ctx e = some c → c.bound = true → c.cls ≤ 2 →
    (∀ x ∈ s.xfers, x.epid ≠ e) →
    exec (.transactionResult (.ctx e .nak)) s =
      .next (finish (setCtx e { c with nakRun := sat 0xFFFF (c.nakRun + 1) } s)) ∧
    exec (.transactionResult (.ctx e .stall)) s =
      .next (finish (setCtx e { c with halted := true, retry := 0, nakRun := 0 } s)) ∧
    (c.dirIn = false →
      exec (.transactionResult (.ctx e .ack)) s =
        .next (finish (setCtx e { c with toggle := !c.toggle, errCount := 0, xerr := false, nakRun := 0,
                                         served := c.served + 1, lastDone := s.txnG, held := none, ping := false } s))) ∧
    (∀ bs, c.dirIn = true → bs.length ≤ c.maxPacket →
      (c.devOwned = false → (s.stok.migs.any fun m => m.group == epGroup e && m.handed && !m.late) = false →
        exec (.transactionResult (.ctx e (.data true bs))) s =
          .next (finish (pushItem c.queue (s.usbItem e bs)
            (setCtx e { c with toggle := !c.toggle, errCount := 0, xerr := false, nakRun := 0,
                               served := c.served + 1, lastDone := s.txnG } s)))) ∧
      exec (.transactionResult (.ctx e (.data false bs))) s =
        .next (finish (setCtx e { c with errCount := 0, xerr := false, nakRun := 0 } s))) ∧
    (c.cls ≠ 2 ∨ c.errCount ≠ 2 →
      ∃ d : Ctx, exec (.transactionResult (.ctx e .error)) s = .next (finish (setCtx e d s)) ∧ d.errors = c.errors + 1 ∧
        d.errCount = sat 3 (c.errCount + 1) ∧ d.toggle = c.toggle ∧ d.queue = c.queue ∧ d.served = c.served ∧
        d.nakRun = 0 ∧ (2 ≤ c.errCount → d.xerr = true ∧ d.retry = 0) ∧
        (c.errCount < 2 → c.cls ≠ 2 → 2 ≤ c.period → c.retryAt ≠ some s.txnG → d.retry = c.retry + 1)) ∧
    (c.periodic = true →
      exec (.transactionResult (.notRun e)) s =
        .next (finish (setCtx e { c with skipped := c.skipped + 1 } s))) ∧
    exec (.transactionResult (.startSplit e .ack)) s = .next (finish (setCtx e { c with split := 1 } s)) ∧
    (∀ off, off < 4 → exec (.transactionResult (.completeSplit e off .nyet)) s = .next (finish s)) ∧
    (∀ off, exec (.transactionResult (.completeSplit e off .nak)) s =
      .next (finish (setCtx e { c with split := 0, nakRun := sat 0xFFFF (c.nakRun + 1) } (setCtx e { c with split := 0 } s))))

/-- Placement and memories. A re-plan answers in STOK_STATUS; a ready target is marked for the next boundary, a drain marker
makes the held pushes in order and ends the migration, a ready takeover runs again, an engine that does not answer is a fault;
a refill moves the oldest items of the middle to the head; a payload bank without items goes off, and the active set shrinks
while what is left holds its items; scrubs count what they correct, raise its fault and name its address; the eighth corrected error
on one column of a control bank within 1 s asks for the bank's test, the sixteenth uncorrectable word isolates it.
Its conclusions say the next state that `exec` answers for: stokerReplan, migrationReady, migrationDrainMarker,
coldTakeoverReady, engineNoAck, queueRefillDone, payloadBankIdleOff, activeSetShrink, peatScrub, ctrlSramScrub. -/
def Obligations.PlacementAndMemories : Prop :=
  ∀ (s : State), s.dev.phase = .ready →
    (∀ why, exec (.stokerReplan why) s = .next (finish (setSqc aStok [12] (replan why s)))) ∧
    (∀ p g, s.hasPort p = true → g < 8 →
      exec (.migrationReady p g) s =
        .next (finish (modStok (fun k => { k with migs := k.migs.map fun m =>
          if m.group == 8 * p + g && !m.handed && (s.stok.lists.any fun l => l.group == 8 * p + g && l.te == m.dst) then
            { m with ready := true } else m }) s)) ∧
      (∀ m, (s.stok.migs.find? fun m => m.group == 8 * p + g && m.handed) = some m →
        exec (.migrationDrainMarker p g) s =
          .next (finish (issueOrders 64 (engineEmpty (foldS m.pushes (fun x t => pushItem x.1 x.2 t) (dropMig (8 * p + g) s)))))) ∧
      exec (.coldTakeoverReady p g) s =
        .next (finish (modStok (fun k => { k with colds := k.colds.filter fun c => c.group != 8 * p + g }) s))) ∧
    (∀ te, s.available te = true → exec (.engineNoAck te) s = .next (finish (raise (srcTe te) 3 (setSqc (aTe te) [16] s)))) ∧
    (∀ q, q < 64 → s.spills (s.queue q) = true → s.peat.st = 2 → (s.queue q).head.length ≤ 8 → (s.queue q).mid ≠ [] →
      let r := s.queue q
      let m := 16 - r.head.length
      exec (.queueRefillDone q []) s =
        .next (finish (putQueue q
          ({ r with head := r.head ++ (r.mid.take m).map (s.placeItem q), mid := r.mid.drop m } : Queue).fill none s))) ∧
    (∀ b, b < 16 → (s.pbank b).st = 0 → s.heldIn b = 0 →
      exec (.payloadBankIdleOff b) s = .next (finish (modPbank b (fun r => { r with st := 1 }) s))) ∧
    (4 < s.pool.k → 2 * s.poolUsed ≤ 6143 * (s.pool.k - 1) →
      exec .activeSetShrink s = .next (finish { s with pool := { s.pool with k := s.pool.k - 1 } })) ∧
    (s.peat.st = 2 →
      exec (.peatScrub .passDone) s =
        .next (finish (setSqc aMemc [11] (modPeat (fun m => { m with scrubbing := false, recBad := false }) s))) ∧
      (∀ a, peatRegion a ≠ .spill →
        exec (.peatScrub (.corrected a)) s =
          .next (finish (raise 150 1 (setSqc aMemc [14] (modPeat (fun m => { m with corr := satAdd m.corr 1, recBad := false }) s))))) ∧
      (∀ a, peatRegion a = .trees →
        exec (.peatScrub (.uncorrectable a)) s =
          .next (finish (raiseAt 151 1 (BitVec.ofNat 32 a) (setSqc aMemc [13]
            (modPeat (fun m => { m with uncorr := satAdd m.uncorr 1, eccAddr := BitVec.ofNat 32 a, recBad := false }) s))))) ∧
      (∀ a, peatRegion a = .recovery →
        exec (.peatScrub (.uncorrectable a)) s =
          .next (finish (modPeat (fun m => { m with recBad := true }) (raiseAt 151 1 (BitVec.ofNat 32 a) (setSqc aMemc [13]
            (modPeat (fun m => { m with uncorr := satAdd m.uncorr 1, eccAddr := BitVec.ofNat 32 a, recBad := false }) s))))))) ∧
    (∀ a column,
      let b := a / 262144
      let log := logSecond s.dev.monoNs (72 * b + column, s.dev.monoNs) s.ctrl.columns
      let s1 := raise (srcCbank b) 4
        (setSqc aSram [0] { s with ctrl := { s.ctrl with corr := satAdd s.ctrl.corr 1, columns := log } })
      (logCount (72 * b + column) log < 8 → exec (.ctrlSramScrub (.corrected a column)) s = .next (finish s1)) ∧
      (8 ≤ logCount (72 * b + column) log → s.unitIsolated (.control b) = false → s.testing (.control b) = false →
        exec (.ctrlSramScrub (.corrected a column)) s = .next (finish (askTest { unit := .control b, who := .column } s1)))) ∧
    (∀ a,
      let b := a / 262144
      let log := logSecond s.dev.monoNs (b, s.dev.monoNs) s.ctrl.words
      let s1 := raise (srcCbank b) 5
        (setSqc aSram [1] { s with ctrl := { s.ctrl with uncorr := satAdd s.ctrl.uncorr 1, addr := a, words := log } })
      let s2 : State := { s1 with ctrl := { s1.ctrl with rebuild := true } }
      (logCount b log < 16 → exec (.ctrlSramScrub (.uncorrectable a .schedule)) s = .next (finish s2)) ∧
      (16 ≤ logCount b log → s.unitIsolated (.control b) = false →
        exec (.ctrlSramScrub (.uncorrectable a .schedule)) s = .next (finish (raise (srcCbank b) 1 s2))))

/-- The Ledger. A recompute takes the measurements first, then the heat and the feed orders, and reports the steps that changed;
T_hot, the enclosure temperature and the heat pressure are computed from the measurement. The measuring pause, tRELAX, tSHED,
tRESTORE and the ticks of shedding and restoring each take their one step.
Evacuations, tests and calibrations (R166 to R171). A deferred evacuation starts once its conditions hold, and one of TEST_RUN
ends TIMEOUT after 60 s, behind another too; the rotation comes to a payload bank whose content was lost first (R469), else to
the units in index order, one a tick (the model's choice, notes/assumptions/148.md), and asks for a unit's test or calibrates a
port; a bank whose copy is complete enters its test; the end of a test or of a calibration is judged by its result.
Its conclusions say the next state that `exec` answers for: ledgerRecompute, ledgerMeasurementElapsed, trelaxExpires,
tshedExpires, feedLimitShedTick, trestoreExpires, shedRestoreTick, evacuationRetryTick, evacuationTimeout, rotationTick,
evacuationCopyComplete, testComplete. -/
def Obligations.LedgerStepsAndUnitTests : Prop :=
  (∀ (s : State), s.dev.phase = .ready →
    let l := s.ledger
    (∀ m, exec (.ledgerRecompute m) s =
        .next (finish (
          let s0 := takeBudgets s
          let s2 := thermalCheck m (applyStretch s0.ledger.stage (measureLedger m (foldS (upTo s0.nEngines) (engineMw m) s0)))
          let s4 := feedOrderStep m (if s2.ledger.measuring then s2 else takeHeat m 8 s2.ledger.pHeat s2)
          let s5 := modLedger (fun l => { l with pFeed := s4.feedPressure }) s4
          let s6 := if s5.ledger.has 2 then lowerClocks s5 else s5
          recalibrate (if s6.ready then gateEmpty (ledgerStep s0.ledger s6) else ledgerStep s0.ledger s6))) ∧
      (let n := (measureLedger m s).ledger
       n.dMw = m.dMw ∧ n.tHot = hottest l.sensorsOut m.temps ∧ n.tEncl = n.tHot - l.theta * m.dMw / 1000 ∧
       n.hMw = (1150 - n.tEncl) * 1000 / l.theta ∧ (n.tHot ≤ 1150 → n.pHeat = m.dMw - n.hMw) ∧
       (1150 < n.tHot → n.pHeat = max (m.dMw - n.hMw) (5 * (n.tHot - 1150))))) ∧
    exec .ledgerMeasurementElapsed s = .next (finish (modLedger (fun l => { l with measuring := false }) s)) ∧
    ((-300 < l.pHeat ∨ l.heat = 0) → exec .trelaxExpires s = .next (finish s)) ∧
    (l.pHeat ≤ -300 → l.heat ≠ 0 → l.heat ≠ 3 →
      exec .trelaxExpires s =
        .next (finish (ledgerStep l (undoStep l.heat (modLedger (fun l => { l with heat := l.heat - 1 }) s))))) ∧
    (l.tShedRun = true → exec .tshedExpires s = .next (finish (freshStep l (shedNow s)))) ∧
    (∀ p, l.feedLimit = true → (s.shedOrder.find? fun p => decide (0 < (s.port p).weight)) = some p →
      exec .feedLimitShedTick s =
        .next (finish (freshStep l (shedPort p
          (modLedger (fun l => { l with feedStep := if l.feedStep < 3 then 3 else l.feedStep, tShedRun := false }) s))))) ∧
    (l.feedMoved = true →
      s.feedPressure + sumBy (fun p => if (s.port p).shed then (s.port p).prior else 0) (upTo s.nPorts) ≤ 0 →
      exec .trestoreExpires s =
        .next (finish (modLedger (fun l => { l with feedMoved := false, restoring := true }) s))) ∧
    (∀ p, l.restoring = true → (s.shedOrder.reverse.find? fun p => (s.port p).shed || (s.port p).reneg) = some p →
      (s.port p).shed = true → (s.port p).bus = .disabled →
      exec .shedRestoreTick s =
        .next (finish (pathEvent p 0x0321 0 0 (toUnattached p
          (modPort p (fun r => { r with shed := false, reneg := false, renegRun := false, prior := 0 }) s))))) ∧
    (∀ p, l.restoring = true → (s.shedOrder.reverse.find? fun p => (s.port p).shed || (s.port p).reneg) = some p →
      (s.port p).shed = true → (s.port p).bus ≠ .disabled →
      exec .shedRestoreTick s =
        .next (finish (modPort p (fun r => { r with shed := false, reneg := false, renegRun := false, prior := 0 }) s))) ∧
    (l.restoring = true → (s.shedOrder.reverse.find? fun p => (s.port p).shed || (s.port p).reneg) = none →
      exec .shedRestoreTick s = .next (finish (modLedger (fun l => { l with restoring := false }) s)))) ∧
  (∀ (s : State), s.dev.phase = .ready →
    (∀ t, s.test = some t → t.stage = 0 → s.canEvacuate t = true →
      exec .evacuationRetryTick s = .next (finish (startEvac t s))) ∧
    (∀ t h tag, s.test = some t → t.stage = 0 → t.who = .run h tag →
      exec .evacuationTimeout s = .next (finish (finishOp h tag stTimeout [] (endTest s)))) ∧
    (∀ t w h tag, s.test = some t → s.testQ = [w] → (t.stage ≠ 0 ∨ ∃ u, t.who = .update u) → w.who = .run h tag →
      exec .evacuationTimeout s = .next (finish (finishOp h tag stTimeout [] { s with testQ := [] }))) ∧
    (let s1 := modStok (fun k => { k with rotNext := (k.rotNext + 1) % (s.nEngines + (16 + (8 + s.nPorts))) }) s
     (∀ u port, s.lostBank = some u → exec (.rotationTick (some u) port) s = .next (finish (askTest { unit := u, who := .rotation } s))) ∧
     (∀ b, b < 16 → s.lostBank = none → s.stok.rotNext = s.nEngines + b → s.unitIsolated (.payload b) = false → s.testing (.payload b) = false →
        ∀ port, exec (.rotationTick (some (.payload b)) port) s = .next (finish (askTest { unit := .payload b, who := .rotation } s1))) ∧
     (∀ p, s.hasPort p = true → s.lostBank = none → s.stok.rotNext = s.nEngines + (16 + (8 + p)) → s.cal = none →
        exec (.rotationTick none p) s =
          .next (finish (modPort p (fun r => { r with calibrating := true }) { s1 with cal := some { ports := [p], who := none } })))) ∧
    (∀ t b, s.test = some t → t.stage = 1 → t.unit = .control b →
      exec .evacuationCopyComplete s = .next (finish (beginTest t s))) ∧
    (∀ t us, s.test = some t → t.stage = 2 →
      exec (.testComplete (.pass us)) s = .next (finish (testPasses t us s)) ∧
      exec (.testComplete (.fail us)) s =
        .next (finish (testFails t us (match t.unit with | .engine _ => 2 | _ => 1) s))) ∧
    (∀ cc isns, exec (.testComplete (.calibrated cc isns)) s = .next (finish (calEnds (some (cc, isns)) s))))

/-! ### The service function and the host timers (R227 to R231, R243 to R250, R261) -/

/-- An attached instance of the service function. A setup stage of COMMAND is taken for 16 to 256 bytes and stalls for any other
length; its status stage is NAKed while the reply queue is full; every other vendor request stalls; SET_ADDRESS is
acknowledged; a bus reset keeps only what is committed; a push needs an OUT queue of the host bound there; the end of an item
lets the next start; the pending report is sent when it changed and NAKed when not; suspend and resume are remembered.
The host timers and the loss of the service port. tHOSTWD ends the host's binding with cause 1 but not during a
warm restart;
tSEMLOSS frees the host's semaphores; a detach of the service port ends its instance and its contract.
Its conclusions say the next state that `exec` answers for: svcCommandSetup, svcCommandStatusStage, svcStandardRequest,
svcBusReset, svcBulkOutRecord, svcBulkInAck, svcInterruptInPoll, svcSuspend, svcResume, thostwdExpires, tsemlossExpires,
servicePortDetach. -/
def Obligations.ServiceFunctionAndHostTimers : Prop :=
  (∀ (s : State) (i : Nat), (s.inst i).attached = true →
    let x := s.inst i
    (∀ len, 16 ≤ len → len ≤ 256 →
      exec (.svcCommandSetup i len) s = .next (finish (modInst i (fun r => { r with setupLen := some len }) s))) ∧
    (∀ len, len < 16 ∨ 256 < len →
      exec (.svcCommandSetup i len) s =
        .next (finish (emit (.svcStall i) (modInst i (fun r => { r with setupLen := none }) s)))) ∧
    (∀ bytes len, x.setupLen = some len → s.replySlot (s.senderOf (parsePacket (.svc i) bytes).2) = false →
      exec (.svcCommandStatusStage i bytes) s = .next (finish (emit (.svcNak i) s))) ∧
    (∀ bytes len, x.setupLen = some len → s.hears (.svc i) = true →
      let op := (parsePacket (.svc i) bytes).1
      let p := (parsePacket (.svc i) bytes).2
      let q := cmdQueue (s.senderOf p) (p.flags.getLsbD 2)
      s.cmdRoom q = true → s.replySlot (s.senderOf p) = true → ((s.boundTo (.svc i)).isSome = true ∨ s.svcReplies i < 16) →
      exec (.svcCommandStatusStage i bytes) s =
        .next (finish (enter op (cmdOf op) (some q) p
          (emit (.svcAck i) (modInst i (fun r => { r with setupLen := none }) s))))) ∧
    (∀ su, 4 ≤ byteAt su 0 % 128 → ¬ (byteAt su 0 = 0x41 ∧ byteAt su 1 = 1 ∧ field su 2 2 = 0 ∧ field su 4 2 = 0) →
      exec (.svcStandardRequest i su) s = .next (finish (emit (.svcStall i) s))) ∧
    (∀ su, byteAt su 0 = 0 → byteAt su 1 = 5 → field su 2 2 < 128 →
      exec (.svcStandardRequest i su) s =
        .next (finish (emit (.svcAck i) (modInst i (fun r => { r with addr := field su 2 2 }) s)))) ∧
    exec (.svcBusReset i) s =
      .next (finish (modInst i (fun r => { r with addr := 0, config := 0, suspended := false, rwEnable := false, setupLen := none,
                                                  sending := none, sent := 0, halts := [] }) s)) ∧
    (∀ rec h, x.config ≠ 0 → x.halts.contains 0x01 = false → s.boundTo (.svc i) = some h → byteAt rec 0 < 64 →
      let q := byteAt rec 0
      let len := field rec 2 2
      (s.pushesQueue h q = false →
        exec (.svcBulkOutRecord i rec) s = .next (finish (setSqc (aQueStatus q) [8] s))) ∧
      (s.pushesQueue h q = true → s.pushRefused q 1 len = true →
        exec (.svcBulkOutRecord i rec) s = .next (finish (setSqc (aQueStatus q) [9] s))) ∧
      (s.pushesQueue h q = true → s.pushRefused q 1 len = false → ((rec.drop 4).take len).length = len →
        exec (.svcBulkOutRecord i rec) s = .next (finish (commitPush h q ((rec.drop 4).take len) s)))) ∧
    (x.sending = none → exec (.svcBulkInAck i) s = .next (finish s)) ∧
    (∀ it, x.sending = some (64, it) →
      exec (.svcBulkInAck i) s =
        .next (finish (svcFeed i (modInst i (fun r => { r with replies := r.replies.drop 1 })
          (modInst i (fun r => { r with sending := none }) s))))) ∧
    (x.config ≠ 0 → x.suspended = false → x.halts.contains 0x83 = false →
      (s.svcReport i = x.report → exec (.svcInterruptInPoll i) s = .next (finish (emit (.pendingReport i none) s))) ∧
      (s.svcReport i ≠ x.report →
        exec (.svcInterruptInPoll i) s =
          .next (finish (emit (.pendingReport i (some (s.svcReport i)))
            (modInst i (fun r => { r with report := s.svcReport i }) s))))) ∧
    exec (.svcSuspend i) s = .next (finish (modInst i (fun r => { r with suspended := true }) s)) ∧
    exec (.svcResume i) s = .next (finish (svcFeed i (modInst i (fun r => { r with suspended := false }) s)))) ∧
  (∀ (s : State) (h : HostId),
    (s.dev.phase ≠ .warm → exec (.thostwdExpires h) s = .next (finish (loseBinding h 1 s))) ∧
    (s.dev.phase = .warm → exec (.thostwdExpires h) s = .next (finish s)) ∧
    ((s.host h).semTimer = true → exec (.tsemlossExpires h) s = .next (finish (releaseSems h s))) ∧
    ((s.host h).semTimer = false → exec (.tsemlossExpires h) s = .next (finish s)) ∧
    (s.svc.vbus = true → s.svc.pd.ask = none → s.dev.power ≠ .service →
      exec .servicePortDetach s =
        .next (finish (modSvc (fun v => { pd := { ufp := true, caps := v.pd.caps } }) (endInstance 0 s)))))

/-! ### Trunks (R240, R242, R301 to R337) -/

/-- Links of a trunk that is not held in reset. A PHY link makes DOWN PROBING, its loss makes it DOWN again, with TRK_PHY where
the mode is wrong or the PHY does not answer; after the PHY's reset register 0 is written and register 1 read, three times where
it does not answer, which raises TRK_PHY as a link that does not come does, and keeps the trunk DOWN; KEEPALIVEs count up to the
fourth in a row, which establishes the neighbour as BLOCKED; a known neighbour's KEEPALIVE only returns credit, and its silence
loses the link; a lost link waits out its hold; the ticks send the KEEPALIVEs and the own record; the device's own record that
comes back ends there, and one of a device of which none was held goes on with one hop more and is stored; a record out of age is
dropped; discarded frames count, and a class A frame that had started to leave cut-through ends with an inverted FCS; after an ID
change the old MAC address ends.
Frames received on a link in BLOCKED or UP. A frame with another destination MAC is discarded and counted; one for another
device frees its buffer and goes on by its route; a command enters its queue or waits; a reply
for a command of a host here enters that host's reply queue; an event or a delivery that its pair admits enters its queue, and
one that it does not is an order error; a TIME frame that differs from a locked TIME by whole seconds is reported. The end of a
frame sent charges its units; unanswered items are sent again, and credit is reported on its timer.
Its conclusions say the next state that `exec` answers for: trunkPhyLinkUp, trunkPhyLinkDown, tphyrstExpires,
trunkPhyLinkTimeout, keepaliveReceived, keepaliveTimeout, tlinkHoldExpires, tkeepaliveTick, ttopoRefreshTick, ttopoAgeExpires,
tsettleExpires, topologyReceived, receivedFrameDiscarded, oldMacWindowEnd, commandFrameReceived, replyFrameReceived,
eventFrameReceived, deliveryFrameReceived, creditRecordReceived, timeFrameReceived, egressFrameEnd, te2eRetryExpires,
tcreditExpires. -/
def Obligations.TrunkLinksAndFrames : Prop :=
  (∀ (s : State) (n : Nat), s.dev.phase = .ready → s.hasTrunk n = true → (s.trunk n).st ≠ .off →
    let t := s.trunk n
    (t.st = .down → t.phyBad = false →
      exec (.trunkPhyLinkUp n) s =
        .next (finish (withTopology (fun s => setNb n .probing (modTrunk n (fun t => { t with run := 0, missed := 0 }) s)) s))) ∧
    (t.st ≠ .down ∨ t.phyBad = true → exec (.trunkPhyLinkUp n) s = .next (finish s)) ∧
    (let lost := if 2 ≤ t.st.code then withTopology (loseLink n 2 .down) s else s
     exec (.trunkPhyLinkDown ⟨n, .noLink⟩) s = .next (finish lost) ∧
     exec (.trunkPhyLinkDown ⟨n, .mode⟩) s = .next (finish (setSqc (aTrk n) [12] (raise (116 + n) 4 lost))) ∧
     exec (.trunkPhyLinkDown ⟨n, .noAnswer⟩) s =
       .next (finish (setSqc (aTrk n) [12] (raise (116 + n) 4 (modTrunk n (fun t => { t with phyBad := true }) lost))))) ∧
    (let first := emit (.mdio n 1 none) (emit (.mdio n 0 (some 0x9200#16)) s)
     exec (.tphyrstExpires n true) s = .next (finish (modTrunk n (fun t => { t with phyBad := false }) first)) ∧
     exec (.tphyrstExpires n false) s =
       .next (finish (setSqc (aTrk n) [12] (raise (116 + n) 4 (modTrunk n (fun t => { t with phyBad := true })
         (emit (.mdio n 1 none) (emit (.mdio n 1 none) first))))))) ∧
    (t.st = .down →
      exec (.trunkPhyLinkTimeout n) s =
        .next (finish (setSqc (aTrk n) [12] (raise (116 + n) 4 (modTrunk n (fun t => { t with phyBad := true }) s))))) ∧
    (∀ ka, let got := modTrunk n (fun t => { t with rx := t.rx + 1 }) s
      (t.st = .probing → t.run < 3 →
        exec (.keepaliveReceived n ka) s = .next (finish (modTrunk n (fun t => { t with run := t.run + 1, heard := true }) got))) ∧
      (t.st = .probing → 3 ≤ t.run →
        exec (.keepaliveReceived n ka) s = .next (finish (withTopology (establish n ka) got))) ∧
      (t.st = .up → t.nbUid = ka.uid → t.nbId = ka.id →
        exec (.keepaliveReceived n ka) s =
          .next (finish (returnCredit n ka (modTrunk n (fun t =>
            { t with missed := 0, heard := true, nbRing := ka.ring, nbBlocked := ka.blocked, nbAccepts := ka.accepts }) got))))) ∧
    (t.st.linked = true →
      exec (.keepaliveTimeout n) s =
        .next (finish (withTopology (fun s => loseLink n 1 .lost (raise (116 + n) 2 s)) s))) ∧
    (t.st = .lost → exec (.tlinkHoldExpires n) s = .next (finish (modTrunk n (fun t => { t with holdOver := true }) s))) ∧
    exec .tkeepaliveTick s =
      .next (finish (foldS (upTo s.nTrunks) (fun n t =>
        if (t.trunk n).st.code ≥ 2 then
          sendKa n (modTrunk n (fun k => { k with missed := if k.heard then 0 else sat 0xFF (k.missed + 1),
                                                  run := if k.heard then k.run else 0, heard := false }) t)
        else t) s)) ∧
    exec .ttopoRefreshTick s =
      .next (finish (let s1 := modNet (fun t => { t with seqn := t.seqn + 1 }) s; floodRec none 0 s1.ownTopo s1)) ∧
    (∀ id, s.net.recs.any (fun r => r.id == id) = true →
      exec (.ttopoAgeExpires id) s =
        .next (finish (topologyChanged (withTopology (modNet fun t =>
          { t with recs := t.recs.filter (fun r => r.id != id), conflict := t.conflict.filter (· != id) }) s)))) ∧
    (∀ e, t.st = .blocked → s.dev.id.toNat < t.nbId.toNat →
      pickKey true ((edges s.allTopo 3).filter fun e => (hopsTo (edges s.allTopo 4) e.lo e.hi).isNone) = some e →
      e.lo = s.dev.id → e.port = n →
      exec (.tsettleExpires n) s = .next (finish (withTopology (unblock n) s))) ∧
    (∀ rec hops, t.st.linked = true → rec.uid = s.part.uid →
      exec (.topologyReceived n ⟨hops, rec⟩) s = .next (finish (modTrunk n (fun t => { t with rx := t.rx + 1 }) s))) ∧
    (∀ rec hops, let got := modTrunk n (fun t => { t with rx := t.rx + 1 }) s
      t.st.linked = true → rec.uid ≠ s.part.uid → rec.withdrawn = false → hops < 255 →
      s.net.recs.find? (fun x => x.id == rec.id && x.uid == rec.uid) = none →
      exec (.topologyReceived n ⟨hops, rec⟩) s =
        .next (finish (topologyChanged (withTopology (fun s =>
          storeRec rec (checkConflict rec (floodRec (some n) (hops + 1) rec s))) got)))) ∧
    exec (.receivedFrameDiscarded n .headerCrc) s =
      .next (finish (frameError n 1 (raise (116 + n) 1 (modTrunk n (fun t => { t with hdrErrs := t.hdrErrs + 1 }) s)))) ∧
    exec (.receivedFrameDiscarded n (.fcs none)) s =
      .next (finish (frameError n 2 (modTrunk n (fun t => { t with fcsErrs := t.fcsErrs + 1, discards := t.discards + 1 }) s))) ∧
    (let u := frameError n 2 (modTrunk n (fun t => { t with fcsErrs := t.fcsErrs + 1, discards := t.discards + 1 }) s)
     ∀ x m, t.st.linked = true → s.forMe x.hdr = false → s.macOk x.hdr = true → u.route x.hdr.dst x.hdr.cls = some m →
      x.hdr.hops < 255 → u.cutsThrough m x.hdr.cls = true →
      exec (.receivedFrameDiscarded n (.fcs (some x))) s =
        .next (finish (beginFrame m { cls := x.hdr.cls, units := frameUnits (16 + x.payload.length),
                                      body := onward x.type x.credit x.hdr x.payload, back := some n, bad := true } u))) ∧
    exec .oldMacWindowEnd s = .next (modDev (fun d => { d with oldMac := none }) s)) ∧
  (∀ (s : State) (n : Nat), s.dev.phase = .ready → s.hasTrunk n = true → (s.trunk n).st.linked = true →
    (∀ f bytes item adm w r, s.macOk f = false →
      let other := finish (modTrunk n (fun t => { t with discards := t.discards + 1 }) s)
      exec (.commandFrameReceived n f bytes) s = .next other ∧ exec (.replyFrameReceived n f bytes) s = .next other ∧
      exec (.eventFrameReceived n f item) s = .next other ∧ exec (.deliveryFrameReceived n f item) s = .next other ∧
      exec (.creditRecordReceived n f adm w r) s = .next other) ∧
    (∀ f bytes, s.macOk f = true → s.forMe f = false →
      exec (.commandFrameReceived n f bytes) s =
        .next (finish (forwardFrame n 1 false f bytes s)) ∧
      exec (.replyFrameReceived n f bytes) s =
        .next (finish (forwardFrame n 2 false f bytes s))) ∧
    (∀ f item, s.macOk f = true → s.forMe f = false →
      exec (.eventFrameReceived n f item) s = .next (finish (forwardFrame n 3 false f (item.header ++ item.payload) s)) ∧
      exec (.deliveryFrameReceived n f item) s = .next (finish (forwardFrame n 4 false f (item.header ++ item.payload) s))) ∧
    (∀ f adm w r, s.macOk f = true → s.forMe f = false →
      exec (.creditRecordReceived n f adm w r) s =
        .next (finish (forwardFrame n 4 true f (creditBody adm w r) s))) ∧
    (∀ f bytes, s.macOk f = true → s.forMe f = true → field bytes 0 2 ≠ 0x0008 →
      (s.hostA.fwd.contains (BitVec.ofNat 16 (field bytes 2 2), f.src)) = true →
      exec (.replyFrameReceived n f bytes) s =
        .next (finish (replyQueue .a (f.cls == 1) bytes (modHost .a (fun r =>
          { r with fwd := r.fwd.erase (BitVec.ofNat 16 (field bytes 2 2), f.src) }) (takeFrame n f bytes.length s))))) ∧
    (∀ f item q, s.macOk f = true → s.forMe f = true → s.pairQueue f.src f.queue = some q →
      let t := takeFrame n f (16 + item.payload.length) s
      let p := (s.queue q).pair
      (f.seqn = p.inAdm + 1 → p.since < p.granted → p.since + 1 < 32 →
        exec (.deliveryFrameReceived n f item) s =
          .next (finish (pushItem q { item with source := trunkSource n f }
            (setQueue q { s.queue q with pair := { p with inAdm := p.inAdm + 1, since := p.since + 1 } } t)))) ∧
      (f.seqn ≠ p.inAdm + 1 ∨ p.granted ≤ p.since →
        exec (.deliveryFrameReceived n f item) s = .next (finish (frameError n 3 t)))) ∧
    (∀ f item e, s.macOk f = true → s.forMe f = true → f.queue = 6 →
      s.net.evPairs.find? (fun e => e.dev == f.src && e.host == .a) = some e →
      let t := takeFrame n f (16 + item.payload.length) s
      (e.pair.admits f = false → exec (.eventFrameReceived n f item) s = .next (finish (frameError n 3 t))) ∧
      (e.pair.admits f = true → e.pair.since + 1 < 32 →
        exec (.eventFrameReceived n f item) s =
          .next (finish (pushKept 6 { item with source := trunkSource n f } (modNet (fun t => { t with evPairs := t.evPairs.map fun x =>
            if x.dev == f.src && x.host == .a then
              { x with pair := { x.pair with inAdm := x.pair.inAdm + 1, since := x.pair.since + 1 } } else x }) t))))) ∧
    (∀ f adm w r, s.macOk f = true → s.forMe f = true → 8 ≤ f.queue → f.queue < 64 → s.pairDest (s.queue f.queue) = some f.src →
      exec (.creditRecordReceived n f adm w r) s = .next (finish (takeCredit f.queue adm w r (takeFrame n f 8 s)))) ∧
    (∀ f bytes, s.macOk f = true → s.forMe f = true →
      exec (.commandFrameReceived n f bytes) s = .next (finish (enterFrame n f bytes s))) ∧
    (∀ src ns locked aligned, let got := modTrunk n (fun t => { t with rx := t.rx + 1 }) s
      (locked = false ∨ s.time.pps ≠ .locked ∨ ns.toNat / 1000000000 = s.time.now.toNat / 1000000000 →
        exec (.timeFrameReceived n src ns locked aligned) s = .next (finish got)) ∧
      (locked = true → s.time.pps = .locked → ns.toNat / 1000000000 ≠ s.time.now.toNat / 1000000000 →
        exec (.timeFrameReceived n src ns locked aligned) s =
          .next (finish (post 12 (ev8 0x0708 n n
            (s32 (((ns.toNat / 1000000000 : Nat) : Int) - ((s.time.now.toNat / 1000000000 : Nat) : Int)))) got)))) ∧
    (∀ e, (s.trunk n).sending = some e →
      let done := modTrunk n (fun t => { t with sending := none, grant := t.grant.set e.cls (t.grant.getD e.cls 0 - e.units) }) s
      let freed := match e.back with | some m => freeCredit m e.cls e.units done | none => done
      exec (.egressFrameEnd n) s = .next (finish (startEgress n (if e.units = 0 then freed else bumpSeq (aTrk n + 12) freed)))) ∧
    (∀ q, q < 64 → 6 ≤ q → 0 < (s.queue q).pair.sent → exec (.te2eRetryExpires q) s = .next (finish (resend q s))) ∧
    (∀ q, q < 64 → q ≠ 6 → q ≠ 7 → 0 < (s.queue q).pair.since → exec (.tcreditExpires q) s = .next (finish (sendCredit q s))))

/-! ### The power die (R376 to R403) -/

/-- Protection of a port's paths. At the current limit for tFAULT a closed path latches with OVERCURRENT and a ramping one with
RAMP_FAULT; a ramp without power-good in time latches; a FET check that fails isolates the switch; power-good that fails is
reported; being at the limit is remembered while a path is on. Without its condition none of them changes the switch.
A latch of a port's switch: the switch shows it, the bus machine is in LATCHED_OFF, power-good is off, and no contract and no weight
stands.
Its conclusions say the next state that `exec` answers for: portAtLimit, portLimitLeft, tfaultReached, trampPgExpires,
tfetCheckExpires, powerGoodLost. -/
def Obligations.PathProtection : Prop :=
  (∀ (s : State) (p : Nat), s.hasPort p = true → s.powered = true →
    let r := s.port p
    (r.sw = .loOn ∨ r.sw = .hiOn ∨ r.sw = .loRamp ∨ r.sw = .hiRamp →
      exec (.portAtLimit p) s = .next (finish (modPort p (fun r => { r with atLimit := true }) s))) ∧
    exec (.portLimitLeft p) s = .next (finish (modPort p (fun r => { r with atLimit := false }) s)) ∧
    (r.atLimit = false → exec (.tfaultReached p) s = .next (finish s)) ∧
    (r.atLimit = true → r.sw.isOn = true →
      exec (.tfaultReached p) s =
        .next (finish (raise (srcPath p) 1 (pathEvent p 0x0322 r.sw.path (s.ilim p) (latchOff p .latched 1 false s))))) ∧
    (r.atLimit = true → r.sw.ramps = true →
      exec (.tfaultReached p) s =
        .next (finish (raise (srcPath p) 2 (pathEvent p 0x0323 r.sw.path (s.ilim p) (latchOff p .latched 2 false s))))) ∧
    (∀ v, r.sw.ramps = true →
      exec (.trampPgExpires p v) s =
        .next (finish (raise (srcPath p) 3 (pathEvent p 0x0325 r.sw.path v (latchOff p .latched 1 false s))))) ∧
    (∀ v, r.sw.ramps = false → exec (.trampPgExpires p v) s = .next (finish s)) ∧
    (∀ v : FetSense, let fails (path : Nat) :=
        Host.Outcome.next (finish (raise (srcPath p) 4 (pathEvent p 0x0324 path v.vsns (latchOff p .isolated 3 false s))))
      (r.sw = .loOn → 60 < v.vsns → exec (.tfetCheckExpires p v) s = fails 2) ∧
      (r.sw = .loOn → v.vsns ≤ 60 → exec (.tfetCheckExpires p v) s = .next (finish s)) ∧
      (r.sw = .hiOn → v.vsns < 140 → v.good15 = true → r.atLimit = false → exec (.tfetCheckExpires p v) s = fails 1) ∧
      (r.sw = .hiOn → 140 ≤ v.vsns ∨ v.good15 = false ∨ r.atLimit = true → exec (.tfetCheckExpires p v) s = .next (finish s)) ∧
      (r.sw = .off ∨ r.sw = .latched → r.fetArmed = true → r.bus ≠ .ufpSwapped → 8 < v.vsns →
        exec (.tfetCheckExpires p v) s = fails (if 100 ≤ v.vsns then 2 else 1)) ∧
      (r.sw = .off ∨ r.sw = .latched → r.fetArmed = false ∨ r.bus = .ufpSwapped ∨ v.vsns ≤ 8 →
        exec (.tfetCheckExpires p v) s = .next (finish s))) ∧
    (∀ v, r.pg = true → r.sw.isOn = true →
      exec (.powerGoodLost p v) s =
        .next (finish (pathEvent p 0x0326 r.sw.path v (setSqc (aPwrStatus p) [11] (modPort p (fun r => { r with pg := false }) s)))))) ∧
  (∀ (s : State) (p : Nat) (v : Nat), s.hasPort p = true → s.powered = true → (s.port p).sw.ramps = true →
    ∃ t, exec (.trampPgExpires p v) s = .next (finish t) ∧ (t.port p).sw = .latched ∧ (t.port p).bus = .latchedOff ∧
      (t.port p).pg = false ∧ (t.port p).lastFault = 1 ∧ (t.port p).pd.st = .noContract ∧ (t.port p).weight = 0)

/-- Feeds and seating (R392 to R394, R396). The voltage of a feed that was ABSENT puts it in WAITING, and on in PRECHARGE where the
board is seated, its retry time is not running and it is not isolated; of a feed that is there it is a new value, by which the
sharing is judged. The loss of the voltage puts the feed in ABSENT, one that was starting or on with FEED_LOST; an isolated one
stays where it is held. In PRECHARGE the bulk voltage at 95 % lets the main gate ramp, and its time raises the feed's fault; the
gate that is on puts the feed ON and opens SVC_GATE, and a device in SERVICE wakes from it; the current limit is entered from ON
and left to it with an event; each fault takes the feed to RETRY with its timer, whose end takes it to WAITING and on as above.
SEAT_DEBOUNCE_COMPLETE seats the board, counts the insertion and starts both feeds; a seat pin that goes high is a removal: the
board is not seated, both feeds' gates open, and their retry times run; with neither pin high both are low again.
Its conclusions say the next state that `exec` answers for: feedVoltagePresent, feedVoltageLost, bulkPrecharged,
tprechargeExpires, tfaultFeedExpires, reverseCurrentDetected, feedGateOn, feedLimitReached, feedLimitLeft, tretryFeedExpires,
seatDebounceComplete, seatPinHigh. -/
def Obligations.FeedsAndSeating : Prop :=
  ∀ (s : State) (f : HostId), s.powered = true →
    let r := s.feed f
    let shows (mv : Nat) := modFeed f (fun r => { r with mv := mv, present := true }) s
    (∀ mv, r.st = .absent → s.board.seated = true → r.retry = false → r.isolated = false →
      exec (.feedVoltagePresent f mv) s = .next (finish (setFeedSt f .precharge (setFeedSt f .waiting (shows mv))))) ∧
    (∀ mv, r.st = .absent → s.board.seated = false ∨ r.retry = true ∨ r.isolated = true →
      exec (.feedVoltagePresent f mv) s = .next (finish (setFeedSt f .waiting (shows mv)))) ∧
    (∀ mv, r.st ≠ .absent → exec (.feedVoltagePresent f mv) s = .next (finish (shareLimit (shows mv)))) ∧
    (∀ mv, let gone := modFeed f (fun r => { r with mv := mv, present := false }) s
      (r.st = .absent → exec (.feedVoltageLost f mv) s = .next (finish gone)) ∧
      (r.st = .waiting ∨ r.st = .retry → r.isolated = false →
        exec (.feedVoltageLost f mv) s = .next (finish (setFeedSt f .absent gone))) ∧
      (r.st = .waiting ∨ r.st = .retry → r.isolated = true → exec (.feedVoltageLost f mv) s = .next (finish gone)) ∧
      (r.st = .precharge ∨ r.st = .on ∨ r.st = .limit →
        exec (.feedVoltageLost f mv) s =
          .next (finish (raise (srcFeed f) 1 (feedEvent f 0x0331 0 mv
            (if r.isolated then gone else setFeedSt f .absent gone)))))) ∧
    (let fault (code sub w : Nat) (s : State) : Host.Outcome State Fault Refusal :=
       .next (finish (raise (srcFeed f) sub (feedEvent f code 0 w
         (modFeed f (fun r => { r with retry := true }) (setFeedSt f .retry s)))))
     (r.st = .precharge →
       exec (.bulkPrecharged f) s =
         .next (finish (modBoard (fun b => { b with bulkMv := (95 * r.mv + 99) / 100 }) (modFeed f (fun r => { r with ramping := true }) s))) ∧
       (∀ mv, exec (.tprechargeExpires f mv) s = fault 0x0334 4 mv (modBoard (fun b => { b with bulkMv := mv }) s))) ∧
     (∀ ma, r.st = .limit → exec (.tfaultFeedExpires f ma) s = fault 0x0333 3 ma s) ∧
     (∀ ma, r.gives = true → exec (.reverseCurrentDetected f ma) s = fault 0x0335 2 ma s)) ∧
    (∀ mv, r.st = .precharge → r.ramping = true →
      let c (b : Nat) := clearFlt (srcFeed f) b
      let on := c 1 (c 2 (c 3 (c 4 (modSvc (fun v => { v with gate := false })
        (feedEvent f 0x0330 0 mv (setFeedSt f .on (modFeed f (fun r => { r with mv := mv }) s)))))))
      (on.feed f).st = .on ∧ (on.feed f).mv = mv ∧ on.svc.gate = false ∧ on.ports = s.ports ∧
      (s.dev.power ≠ .service → exec (.feedGateOn f mv) s = .next (finish on)) ∧
      (s.dev.power = .service → s.power.wake = none → exec (.feedGateOn f mv) s = .next (finish (startWake .service 0 on)))) ∧
    (∀ ma, r.st = .on →
      exec (.feedLimitReached f ma) s = .next (finish (feedEvent f 0x0332 1 ma (setFeedSt f .limit s)))) ∧
    (∀ ma, r.st = .limit →
      exec (.feedLimitLeft f ma) s = .next (finish (feedEvent f 0x0332 0 ma (setFeedSt f .on s)))) ∧
    (r.retry = true → r.st = .retry → r.isolated = false →
      exec (.tretryFeedExpires f) s =
        .next (finish (tryFeed f (setFeedSt f .waiting (modFeed f (fun r => { r with retry := false }) s))))) ∧
    (s.board.seated = false →
      exec .seatDebounceComplete s =
        .next (finish (let s1 := modLich (fun l => { l with insertions := l.insertions + 1 })
                         (modBoard (fun b => { b with seated := true, pin1 := true, pin2 := true }) s)
                       tryFeed .b (tryFeed .a (clearFlt 155 1 (boardEvent 0x0337 0 s1.lich.insertions.toNat s1)))))) ∧
    (∀ one two, one = true ∨ two = true →
      ∃ t, exec (.seatPinHigh one two) s = .next (finish t) ∧ t.board.seated = false ∧ t.board.pin1 = !one ∧ t.board.pin2 = !two ∧
        ∀ g, (t.feed g).retry = true ∧ (t.feed g).gives = false ∧ (t.feed g).st ≠ .precharge) ∧
    exec (.seatPinHigh false false) s = .next (finish (modBoard (fun b => { b with pin1 := true, pin2 := true }) s))

/-- The 5 V rail, the reset of the logic die and the hold. The loss of the rail latches each port on its low path, its return
lets the latched ones wait for a sink; a reset of the logic die ends a trial of an image; the end of the hold applies the OTP
safe state to every port, records the ports whose path was active, and keeps their events until the logic die is ready.
Its conclusions say the next state that `exec` answers for: prail5Low, prail5Restored, logicDieReset, tholdExpires. -/
def Obligations.RailsAndHold : Prop :=
  ∀ (s : State), s.powered = true →
    (∀ mv, s.board.rail5 = true →
      exec (.prail5Low mv) s =
        .next (finish (foldS (upTo s.nPorts) (fun p t =>
          if (t.port p).sw = .loRamp ∨ (t.port p).sw = .loOn ∨ (t.port p).sw = .stepdown then latchOff p .latched 0 true t else t)
          (raise 145 1 (boardEvent 0x0339 0 mv (modBoard (fun b => { b with rail5 := false }) s)))))) ∧
    (∀ mv, s.board.rail5 = true → exec (.prail5Restored mv) s = .next (finish s)) ∧
    (∀ mv, s.board.rail5 = false →
      exec (.prail5Restored mv) s =
        .next (finish (foldS (upTo s.nPorts) (fun p t =>
          if (t.port p).sw = .latched ∧ (t.port p).latchRail = true then
            toUnattached p (modPort p (fun r => { r with sw := .off, latchRail := false }) (pathEvent p 0x0327 3 0 t))
          else t)
          (clearFlt 145 1 (boardEvent 0x033A 0 mv (modBoard (fun b => { b with rail5 := true }) s)))))) ∧
    (∀ cause, exec (.logicDieReset cause) s = .next (finish (logicReset (cause == .resetN) (endTrial s)))) ∧
    (s.board.tHold = false → exec .tholdExpires s = .next (finish s)) ∧
    (s.board.tHold = true →
      let on := (upTo s.nPorts).filter fun p => (s.port p).sw.active
      exec .tholdExpires s =
        .next (finish (ashRecord 5 (maskOf on) (foldS (upTo s.nPorts) (safePort s.safeState)
          (modBoard (fun b => { b with tHold := false, expired := true, holdDue := on.map fun p => (p, s.safeState) }) s)))))

/-! ### CAN channels (R404 to R433) -/

/-- The wire side of a channel. Eleven recessive bits make it error-active, or error-passive where its counters say so, and offer
what has the highest priority, or let a listening channel receive; the protocol exception of a classic mode integrates again; a
frame that no filter element takes only counts, and one for a receive object is stored there, or held while it is locked, and
goes to the queue the object names; a lock expires; recovery from BUS_OFF clears the counters unless it is held; an error in
another's frame raises the receive counter and a missing acknowledgement of the reference message the transmit counter and the
run (the counters' rules are the model's reading of ISO 11898-1, notes/assumptions/168.md); the end of a send counts its start
of frame and stores its result; a cycle start queues the active master's reference message, and a standby counts the quiet
cycle, after two of them to return; a reference message of higher priority makes the master a standby.
Its conclusions say the next state that `exec` answers for: canIntegrationComplete, canProtocolException, canFrameReceived,
tlockExpires, canBusOffRecovery, canErrorDetected, canSendComplete, canCycleStart, canReferenceMessageReceived. -/
def Obligations.CanChannels : Prop :=
  ∀ (s : State) (ch : Nat), s.dev.phase = .ready → s.hasCan ch = true →
    let c := s.can ch
    (c.st = 1 →
      exec (.canIntegrationComplete ch) s =
        .next (finish (offer ch (followCounters ch (canStateEvent ch (modCan ch (fun r => { r with st := 2 }) s)))))) ∧
    (c.st = 5 → exec (.canIntegrationComplete ch) s = .next (finish (modCan ch (fun r => { r with heard := true }) s))) ∧
    (c.st ≠ 1 → c.st ≠ 5 → exec (.canIntegrationComplete ch) s = .next (finish s)) ∧
    (c.mode = 2 → c.onBus = true →
      exec (.canProtocolException ch) s = .next (finish (modCan ch (fun r => { r with st := 1 }) s))) ∧
    (c.mode = 4 → c.hears = true →
      exec (.canProtocolException ch) s = .next (finish (modCan ch (fun r => { r with heard := false }) s))) ∧
    (∀ f : CanFrame, c.hears = true → c.mode = 1 → f.lost = none →
      let got := receiveOk ch (f.fdf && f.brs) s
      let g := got.can ch
      let stamp := got.stampAt f.ago
      let hit := filterOf (g.filtersFor ((got.dev.monoNs : Int) - f.ago)) f
      let done (t : State) : Host.Outcome State Fault Refusal :=
        .next (finish (modCan ch (fun r => { r with oldFilters := [] }) t))
      (hit = none → exec (.canFrameReceived ch f) s = done got) ∧
      (∀ i e k, hit = some (i, e) → e.2.getLsbD 31 = false → g.objFor f = some k →
        let o := g.obj k
        let on (t : State) := if o.queue = 0 then t else pushItem o.queue (canItem ch k f stamp) t
        (o.lock = none →
          exec (.canFrameReceived ch f) s = done (on (noteObject ch k (modObj ch k (fun _ => o.take f stamp i) got)))) ∧
        (o.lock.isSome = true →
          exec (.canFrameReceived ch f) s = done (on (modObj ch k (fun _ =>
            { o with hold := some (f, stamp, i), overrun := o.overrun || o.hold.isSome }) got))))) ∧
    (∀ k, k < 128 → (c.obj k).lock.isSome = true → (c.obj k).hold = none →
      exec (.tlockExpires ch k) s =
        .next (finish (modObj ch k (fun o => { o with lock := none }) (modObj ch k (fun o => { o with expired := true }) s)))) ∧
    (∀ k, k < 128 → (c.obj k).lock = none → exec (.tlockExpires ch k) s = .next (finish s)) ∧
    (c.st = 4 → c.offHeld = false →
      exec (.canBusOffRecovery ch) s =
        .next (finish (offer ch (updateWarning ch (canStateEvent ch (clearFlt (srcCan ch) 2
          (modCan ch (fun r => { r with st := 2, txc := 0, rxc := 0 }) s))))))) ∧
    (c.st = 4 → c.offHeld = true → exec (.canBusOffRecovery ch) s = .next (finish s)) ∧
    (∀ e : CanErr, e.sending = none → e.lost = none → e.dataPhase = false → c.st = 2 → c.listens = false →
      exec (.canErrorDetected ch e) s =
        .next (finish (offer ch (followCounters ch (modCan ch (fun r =>
          { r with errFr := if e.errorFrame then r.errFr + 1 else r.errFr, oldFilters := [], rxc := r.rxc + 1 + 8 * e.flags }) s))))) ∧
    (∀ (e : CanErr) w n, e.sending = some 128 → e.dataPhase = false → c.st = 2 → c.listens = false → e.ackError = true →
      e.stuffArb = false → c.refDue = some (w, n) →
      exec (.canErrorDetected ch e) s =
        .next (finish (offer ch (followCounters ch (ackError ch w (modCan ch (fun r =>
          { r with errFr := if e.errorFrame then r.errFr + 1 else r.errFr, oldFilters := [], txc := r.txc + 8 + 8 * e.flags }) s)))))) ∧
    (∀ k ago, k < 128 → (c.obj k).busy = true → (c.obj k).dir = 2 →
      let fdBrs := (c.obj k).ident.getLsbD 30 && (c.obj k).ident.getLsbD 29 && !c.classicOnly
      exec (.canSendComplete ch k 1 ago none) s =
        .next (finish (offer ch (endSend ch k 1 (followCounters ch (frameSent ch fdBrs (attempt ch k ago s)))))) ∧
      exec (.canSendComplete ch k 3 ago none) s = .next (finish (offer ch (endSend ch k 3 (followCounters ch (attempt ch k ago s))))) ∧
      exec (.canSendComplete ch k 4 ago none) s = .next (finish (offer ch (endSend ch k 4 (followCounters ch s))))) ∧
    (∀ m, c.master = some m →
      let count := s.time.now.toNat % 1000000000 / 1000 / m.cycle % 64
      let start (t : State) : Host.Outcome State Fault Refusal :=
        .next (finish (offer ch (modCan ch (fun r => { r with master := some { m with active := true, quietCycles := 0, due := some count } }) t)))
      (m.active = true → exec (.canCycleStart ch) s = start s) ∧
      (m.active = false → 2 ≤ m.quietCycles → exec (.canCycleStart ch) s = start (canEvent ch 0x0607 1 0 s)) ∧
      (m.active = false → m.quietCycles < 2 →
        exec (.canCycleStart ch) s =
          .next (finish (modCan ch (fun r => { r with master := some { m with quietCycles := m.quietCycles + 1 } }) s)))) ∧
    (∀ m ide (id : BitVec 29), c.master = some m → m.active = true → m.ident.getLsbD 31 = ide →
      id.toNat / 8 = m.ident.toNat % 2 ^ 29 / 8 → id.toNat % 8 < m.prio →
      exec (.canReferenceMessageReceived ch ide id) s =
        .next (finish (canEvent ch 0x0607 0 id.toNat
          (modCan ch (fun r => { r with master := some { m with active := false, quietCycles := 0, due := none } }) s))))

/-! ### Plant time and the clock inputs (R434 to R450, R586) -/

/-- Plant time while the time unit has its clock. TIME moves up to a captured edge; the first edge after an absence is valid, and
one that falls outside 1 s ± 500 µs counts as a glitch; without an edge within tPPS_MISS a locked TIME goes to holdover and an
acquiring one free, and a holdover that lasts too long ends free; each with its fault. A locked f is saved again on its tick;
TIME reaches the next whole second, the crossing of which loads the Lichen copy and starts a pulse on PPS_OUT where that is
driven; the loss of the reference in use selects CLKIN_ALT with its fault, and of XTAL32 the slow oscillator.
Its conclusions say the next state that `exec` answers for: ppsEdge, tppsMissExpires, tholdoverTimeout, tfSaveTick,
plantSecondCrossing, refClockFailure, xtal32Failure. -/
def Obligations.PlantTime : Prop :=
  ∀ (s : State), s.timeOn = true →
    (∀ c : DWord, s.time.lastEdge = none →
      exec (.ppsEdge c) s = .next (finish (validEdge ((c.toNat : Int) - s.ppsDelay) (passTo c.toNat s)))) ∧
    (∀ c : DWord, s.edgeValid ((c.toNat : Int) - s.ppsDelay) = false → s.time.glitchOpen = true →
      exec (.ppsEdge c) s =
        .next (finish (setSqc aTimeState [3] (modTime (fun t => { t with glitches := t.glitches + 1 }) (passTo c.toNat s))))) ∧
    (let gone := modTime (fun t => { t with lastEdge := none, moved := 0, good := 0 }) s
     let steady := modTime (fun t => { t with r := t.f }) gone
     (s.time.pps = .locked → exec .tppsMissExpires s = .next (finish (toPps .holdover (raise 157 1 steady)))) ∧
     (s.time.pps = .acquiring → exec .tppsMissExpires s = .next (finish (toPps .free steady))) ∧
     (s.time.pps = .free ∨ s.time.pps = .holdover → exec .tppsMissExpires s = .next (finish gone))) ∧
    (s.time.pps = .holdover →
      exec .tholdoverTimeout s =
        .next (finish (toPps .free (raise 158 1 (modTime (fun t => { t with r := t.f }) s))))) ∧
    (s.time.pps ≠ .holdover → exec .tholdoverTimeout s = .next (finish s)) ∧
    (s.time.pps = .locked →
      exec .tfSaveTick s =
        .next (finish (modLich (fun l => if s.time.alt then { l with fAlt := some s.time.f } else { l with fXtal := some s.time.f }) s))) ∧
    (s.time.pps ≠ .locked → exec .tfSaveTick s = .next (finish s)) ∧
    (s.time.now.toNat + 1000000000 < 2 ^ 64 →
      let n := s.time.now.toNat / 1000000000 + 1
      let at_ := passTo (n * 1000000000) s
      exec .plantSecondCrossing s = .next (finish at_) ∧ at_.time.now = BitVec.ofNat 64 (n * 1000000000) ∧
      at_.dev.monoNs = s.dev.monoNs + (n * 1000000000 - s.time.now.toNat) ∧
      (s.time.second + 1 = n →
        followSecond at_ = ppsFall (crossSecond n at_) ∧ (crossSecond n at_).lich.timeCopy = some at_.time.now ∧
        (crossSecond n at_).time.second = n ∧
        (at_.ppsDrives = true → s.time.lastPulse = none →
          (crossSecond n at_).time.high = true ∧ (crossSecond n at_).time.lastPulse = some at_.dev.monoNs))) ∧
    (s.time.alt = false → s.time.pps = .free ∨ s.time.pps = .holdover →
      exec .refClockFailure s =
        .next (finish (raise 159 1 (timeEvent 0x0803 1 0 0
          (modTime (fun t => { t with alt := true, f := s.savedF true, r := s.savedF true }) s))))) ∧
    (s.time.alt = false → s.time.pps = .acquiring →
      exec .refClockFailure s =
        .next (finish (raise 159 1 (timeEvent 0x0803 1 0 0 (modTime (fun t => { t with alt := true, f := s.savedF true }) s))))) ∧
    (s.time.alt = true →
      exec .refClockFailure s =
        .next (finish (stepTimeout 2 0xFF (Config.freeNat s.free)
          (modPower (fun w => { w with retry := true }) (dieReset false (useFree s)))))) ∧
    (s.powered = true → s.lich.slowFallback = false →
      exec .xtal32Failure s = .next (finish (ashRecord 8 0 (modLich (fun l => { l with slowFallback := true }) s)))) ∧
    (s.powered = true → s.lich.slowFallback = true → exec .xtal32Failure s = .next (finish s))

/-! ### Power states, wakes and rails (R456 to R473) -/

/-- The entry handshake and the wake triggers. An island that is asked agrees, asks to be asked again, or refuses; a refusal ends
the entry with LOCKED and its reason, tENTRY with TIMEOUT. A trigger that is enabled starts the wake order of the power state it
leaves; one that is not is recorded. A trigger that the entered state has enabled ends a running entry with ABORTED, and wakes
the device too where it was in DOZE with the trigger enabled; one that is enabled for neither is recorded. While a wake runs an
enabled trigger does nothing more; while RESET_N is low every trigger is only recorded.
The steps of a wake. Each ready step lets the next one start, in the order of the power state that was left; a wake from
HIBERNATE, or one after a failed wake, takes the reference that step 2 found, and loads TIME, which a wake from SERVICE keeps;
step 4 loads the saved queues and checks the retained memories by what the reads found; step 5 ends the wake from DOZE. A step
that is late raises its fault and posts WAKE_STEP_TIMEOUT, and a wake that found no reference starts again at the retry tick.
With no wake, the steps are those of the islands whose rail came back (notes/assumptions/165.md); without these either they do
nothing.
Its conclusions say the next state that `exec` answers for: tentryExpires, entryDelayExpires, islandEntryAnswer, wakeTrigger,
wakeAfterExpires, wakeStepReady, wakeStepLimitExpires, wakeRetryTick. -/
def Obligations.EntryAndWakeSteps : Prop :=
  (∀ (s : State), s.powered = true →
    (s.power.entry = none →
      exec .tentryExpires s = .next (finish s) ∧ exec .entryDelayExpires s = .next (finish s) ∧
      ∀ busy, exec (.islandEntryAnswer busy) s = .next (finish s)) ∧
    (∀ e, s.power.entry = some e →
      exec .entryDelayExpires s = .next (finish (modPower (fun w => { w with entry := some { e with delayed := false } }) s)) ∧
      exec .tentryExpires s =
        .next (finish (finishOp e.host e.tag stTimeout (powerResult s.dev.power 0xFF 0 0) (dropEntry s))) ∧
      ∀ busy code, e.delayed = false → (askOrder e.target s.dev.power)[e.asked]? = some code →
        (∀ r, s.entryAnswer code busy = .delay r →
          exec (.islandEntryAnswer busy) s =
            .next (finish (modPower (fun w => { w with entry := some { e with delayed := true } }) s))) ∧
        (∀ r, s.entryAnswer code busy = .refuse r →
          exec (.islandEntryAnswer busy) s =
            .next (finish (setSqc aPwrmState [7] (powerEvent 0x0061 code r e.target
              (finishOp e.host e.tag stLocked (powerResult s.dev.power code r 0) (dropEntry s)))))) ∧
        (let agreed := modPower (fun w =>
           { w with entry := w.entry.map fun x => { x with asked := x.asked + 1, agreed := x.agreed ++ [code] } })
             (entryAction e.target code s)
         s.entryAnswer code busy = .agree → ∀ x, agreed.power.entry = some x →
           (x.asked < (askOrder e.target s.dev.power).length → exec (.islandEntryAnswer busy) s = .next (finish agreed)) ∧
           (¬ x.asked < (askOrder e.target s.dev.power).length → x.target = 2 →
             exec (.islandEntryAnswer busy) s = .next (finish (enterDoze x agreed))) ∧
           (¬ x.asked < (askOrder e.target s.dev.power).length → x.target ≠ 2 →
             exec (.islandEntryAnswer busy) s = .next (finish (enterHibernate x agreed))))) ∧
    (∀ code, code ∈ [2, 3, 4, 5, 8] → s.dev.phase = .reset → s.dev.resetLow = true →
      exec (.wakeTrigger code) s = .next (finish (ashRecord 4 code s))) ∧
    ((s.dev.phase = .reset → s.dev.resetLow = false) →
      (s.power.entry = none → s.power.wake = none → (s.dev.power = .doze ∨ s.dev.power = .hibernate) →
        (∀ code, code ∈ [2, 3, 4, 5, 8] → triggerOn s.dev.power s.power.wakeEnable code = true →
          exec (.wakeTrigger code) s = .next (finish (startWake s.dev.power code s))) ∧
        (∀ code, code ∈ [2, 3, 4, 5, 8] → triggerOn s.dev.power s.power.wakeEnable code = false →
          exec (.wakeTrigger code) s = .next (finish (ashRecord 4 code s))) ∧
        (s.power.wakeAfter ≠ 0 → exec .wakeAfterExpires s = .next (finish (startWake s.dev.power 6 s)))) ∧
      (∀ e, s.power.entry = some e → s.dev.power ≠ .hibernate → ∀ code, code ∈ [2, 3, 4, 5, 8] →
        let aims : PowerState := if e.target = 3 then .hibernate else .doze
        let ended := finishOp e.host e.tag stAborted (powerResult s.dev.power 0xFF 0 0) (dropEntry s)
        (s.dev.power = .doze → triggerOn .doze s.power.wakeEnable code = true →
          exec (.wakeTrigger code) s = .next (finish (startWake .doze code ended))) ∧
        ((s.dev.power = .doze → triggerOn .doze s.power.wakeEnable code = false) →
          (triggerOn aims e.wakeEnable code = true → exec (.wakeTrigger code) s = .next (finish ended)) ∧
          (triggerOn aims e.wakeEnable code = false → exec (.wakeTrigger code) s = .next (finish (ashRecord 4 code s))))) ∧
      (s.power.entry = none → s.power.wake.isSome →
        (∀ code, code ∈ [2, 3, 4, 5, 8] →
          (s.dev.power ≠ .doze → s.dev.power ≠ .hibernate → exec (.wakeTrigger code) s = .next (finish s)) ∧
          (s.dev.power = .doze ∨ s.dev.power = .hibernate →
            (triggerOn s.dev.power s.power.wakeEnable code = true → exec (.wakeTrigger code) s = .next (finish s)) ∧
            (triggerOn s.dev.power s.power.wakeEnable code = false →
              exec (.wakeTrigger code) s = .next (finish (ashRecord 4 code s))))))) ∧
    (s.power.wakeAfter = 0 ∨ (s.dev.power ≠ .doze ∧ s.dev.power ≠ .hibernate) → exec .wakeAfterExpires s = .next (finish s))) ∧
  (∀ (s : State), s.powered = true →
    (s.power.wake = none → ∀ a b,
      let railTo (n : Nat) (t : State) : State := modPower (fun x => { x with railStep := n }) t
      (s.power.railStep = 0 →
        exec (.wakeStepReady a b) s = .next (finish s) ∧ ∀ u us, exec (.wakeStepLimitExpires u us) s = .next (finish s)) ∧
      (s.power.railStep = 1 → exec (.wakeStepReady a b) s = .next (finish (railTo 2 s))) ∧
      (s.power.railStep = 2 → exec (.wakeStepReady a b) s = .next (finish (railTo 3 s))) ∧
      (s.power.railStep = 3 → exec (.wakeStepReady a b) s = .next (finish (railTo 5 (peatReturns s)))) ∧
      (s.power.railStep = 5 → exec (.wakeStepReady a b) s = .next (finish (railsUp s)))) ∧
    (s.power.retry = false → exec .wakeRetryTick s = .next (finish s)) ∧
    (∀ w, s.power.wake = some w →
      let onTo (n : Nat) (t : State) : State := modPower (fun x => { x with wake := x.wake.map fun k => { k with step := n } }) t
      let whole := w.left = .hibernate ∨ w.cold = true
      (∀ a b,
        (w.step = 1 → s.coreRails = true → exec (.wakeStepReady a b) s = .next (finish (onTo 2 s))) ∧
        (w.step = 2 → ¬ whole → exec (.wakeStepReady a b) s = .next (finish (onTo 3 s))) ∧
        (w.step = 2 → whole →
          exec (.wakeStepReady a b) s = .next (finish (onTo 3 (modTime (fun t => { t with alt := w.alt }) s)))) ∧
        (w.step = 3 → whole → exec (.wakeStepReady a b) s = .next (finish (onTo 4 (peatReturns (peatActive s))))) ∧
        (w.step = 3 → ¬ whole → exec (.wakeStepReady a b) s = .next (finish (onTo 5 (peatReturns (peatActive s))))) ∧
        (w.step = 4 →
          exec (.wakeStepReady a b) s = .next (finish (onTo 5 (checkCanaries a (checkControl b (loadQueues s)))))) ∧
        (w.step = 5 → w.left = .doze → w.cold = false → exec (.wakeStepReady a b) s = .next (finish (railsUp (dozeOver w s)))) ∧
        (w.step = 5 → w.left = .service → w.cold = false →
          exec (.wakeStepReady a b) s = .next (finish (onTo 6 (modDev (fun d => { d with phase := .waking }) s)))) ∧
        (w.step = 5 → (w.left ≠ .doze ∧ w.left ≠ .service) ∨ w.cold = true →
          exec (.wakeStepReady a b) s =
            .next (finish (onTo 6 (timeStart s.time.alt (modDev (fun d => { d with phase := .waking }) s)))))) ∧
      (∀ u us,
        (w.step = 1 →
          let late := stepTimeout 1 0xFF us (railLost u s)
          (late.coreRails = true → exec (.wakeStepLimitExpires u us) s = .next (finish (onTo 2 late))) ∧
          (late.coreRails = false → exec (.wakeStepLimitExpires u us) s = .next (finish late))) ∧
        (w.step = 2 → w.alt = false →
          exec (.wakeStepLimitExpires u us) s =
            .next (finish (modPower (fun x => { x with wake := x.wake.map fun k => { k with alt := true } })
              (stepTimeout 2 0xFF us (refSwitch s))))) ∧
        (w.step = 2 → w.alt = true →
          exec (.wakeStepLimitExpires u us) s = .next (finish (wakeFails (stepTimeout 2 0xFF us s)))) ∧
        (w.step = 3 → exec (.wakeStepLimitExpires u us) s = .next (finish (stepTimeout 3 0xFF us (bankFails u s)))) ∧
        (w.step = 5 → (u = 0x24 ∨ u = 0x25) →
          exec (.wakeStepLimitExpires u us) s = .next (finish (wakeFails (stepTimeout 5 u us s)))) ∧
        (w.step = 5 → u ≠ 0x24 → u ≠ 0x25 →
          exec (.wakeStepLimitExpires u us) s = .next (finish (stepTimeout 5 u us (raise (islandSrc u) 4 s))))) ∧
      (s.power.retry = true →
        exec .wakeRetryTick s =
          .next (finish (modPower (fun x => { x with retry := false, wake := some { w with step := 1 } }) s)))))

/-- The supply rails. A rail that is lost is recorded as missing, takes its islands off, raises its fault and posts its event; one
of the rails of the logic die resets the die first. A rail that returns is no longer missing; its islands are woken from step 1
where the device runs, and with the wake where it sleeps. In HIBERNATE the rails that RAIL_EN removes are off by command and
their loss says nothing.
Its conclusions say the next state that `exec` answers for: supplyRailLost, supplyRailStable. -/
def Obligations.SupplyRails : Prop :=
  ∀ (s : State) (code : Nat), s.powered = true → 1 ≤ code → code ≤ 8 →
    (s.dev.power = .hibernate → s.power.wake = none → code ∈ [1, 3, 5, 6] → exec (.supplyRailLost code) s = .next (finish s)) ∧
    (s.railOut code = false → exec (.supplyRailStable code) s = .next (finish s)) ∧
    (s.dev.power ≠ .hibernate ∨ code ∈ [2, 4, 7, 8] →
      (s.railOut code = true → exec (.supplyRailLost code) s = .next (finish s)) ∧
      (code ∈ [1, 2, 4] → s.dev.phase ≠ .reset → s.railOut code = false →
        exec (.supplyRailLost code) s = .next (finish (railLost code (dieReset false s)))) ∧
      (s.railOut code = false →
        let bit := BitVec.ofNat 8 (2 ^ (code - 1))
        let missing := modPower (fun w =>
          { w with missing := w.missing ||| bit, rising := w.rising &&& ~~~bit,
                   railStep := if w.rising &&& ~~~bit = 0 then 0 else w.railStep }) s
        let told (t : State) : State := setSqc aPwrmRails [16] (raise 147 1 (powerEvent 0x0064 code 0 t.offMask t))
        (code ∈ [1, 2, 4] → s.dev.phase = .reset → exec (.supplyRailLost code) s = .next (finish (told missing))) ∧
        (code = 3 → exec (.supplyRailLost code) s = .next (finish (told (tkOff (portLost .b (portLost .a missing)))))) ∧
        (code = 5 ∨ code = 6 →
          exec (.supplyRailLost code) s = .next (finish (told (foldS (upTo (s.nPorts / 8)) pgOff (endInstance 0 missing))))) ∧
        (code = 7 ∨ code = 8 → exec (.supplyRailLost code) s = .next (finish (told (peatLost 0 missing)))))) ∧
    (s.railOut code = true →
      let bit := BitVec.ofNat 8 (2 ^ (code - 1))
      let told (t : State) : State := setSqc aPwrmRails [16] (powerEvent 0x0065 code 0 0 (if t.power.missing = 0 then clearFlt 147 1 t else t))
      (code ∈ [1, 2, 4] ∨ s.dev.phase = .reset ∨ s.dev.phase = .starting →
        exec (.supplyRailStable code) s = .next (finish (told (modPower (fun w => { w with missing := w.missing &&& ~~~bit }) s)))) ∧
      (code ∈ [3, 5, 6, 7, 8] → s.dev.phase = .waking →
        exec (.supplyRailStable code) s =
          .next (finish (told (modPower (fun w => { w with missing := w.missing &&& ~~~bit, rising := w.rising ||| bit }) s)))) ∧
      (code ∈ [3, 5, 6, 7, 8] → (s.dev.phase = .ready ∨ s.dev.phase = .warm ∨ s.dev.phase = .kindling) →
        exec (.supplyRailStable code) s =
          .next (finish (told (modPower (fun w =>
            { w with missing := w.missing &&& ~~~bit, rising := w.rising ||| bit,
                     railStep := if w.wake.isNone then 1 else w.railStep }) s)))))

/-! ### Faults of their own, the Ash log and merged events (R33, R122, R336, R433, R440, R474, R485, R489, R522) -/

/-- The faults that come as commands: each reaches the collector with its source and sub-code, a core fault only while the cores
run, a sensor that diverges only once and with its bit of DEV_TEMP.
The ends of the intervals that merge events: what was merged is posted with its count, and with nothing merged the interval
is over.
Its conclusions say the next state that `exec` answers for: lockstepMismatch, mboterWatchdogExpires, sensorDivergence,
dieLinkCheckFailure, cfgParityCheck, ashLogDrain, eventMergeIntervalEnd. -/
def Obligations.FaultsParityAndMergedEvents : Prop :=
  (∀ (s : State), s.powered = true →
    (s.coresRun = true → s.dev.phase ≠ .waking →
      exec .lockstepMismatch s = .next (finish (raise 134 1 s)) ∧ exec .mboterWatchdogExpires s = .next (finish (raise 137 1 s))) ∧
    (s.coresRun = false →
      exec .lockstepMismatch s = .next (finish s) ∧ exec .mboterWatchdogExpires s = .next (finish s)) ∧
    (s.dev.phase = .ready ∨ s.dev.phase = .warm →
      (∀ k, k < 12 → s.ledger.sensorsOut.contains k = false →
        exec (.sensorDivergence k) s =
          .next (finish (raise (122 + k) 1 (setSqc aDevTemp [16]
            (modLedger (fun l => { l with sensorsOut := l.sensorsOut ++ [k] }) s))))) ∧
      exec .dieLinkCheckFailure s = .next (finish (raise 135 1 s)) ∧
      exec (.cfgParityCheck none) s = .next (finish (repairLocks s)) ∧
      (∀ a v, (repairLocks s).isConfig a = true → (repairLocks s).cfgGated a = false →
        exec (.cfgParityCheck (some (a, v))) s =
          .next (finish (raiseAt 136 1 (BitVec.ofNat 32 a)
            (setRaw a v { repairLocks s with cfgBad := (repairLocks s).cfgBad.filter (· != a) ++ [a] })))) ∧
      (∀ a v, (repairLocks s).isConfig a = false ∨ (repairLocks s).cfgGated a = true →
        exec (.cfgParityCheck (some (a, v))) s = .next (finish (repairLocks s)))) ∧
    (s.lich.ash.buffer = [] → exec .ashLogDrain s = .next (finish s)) ∧
    (∀ e rest, s.lich.ash.buffer = e :: rest → s.peat.st ≠ 2 →
      let last := decide (12272 ≤ s.lich.ash.writeOffset)
      exec .ashLogDrain s =
        .next (finish (modLich (fun l => { l with ash :=
          { l.ash with buffer := rest, ring := tset l.ash.ring ((l.ash.writeOffset - 64) / 16) e,
                       writeOffset := if last then 64 else l.ash.writeOffset + 16,
                       wraps := if last then l.ash.wraps + 1 else l.ash.wraps } }) s)))) ∧
  (∀ (s : State), (s.dev.phase = .ready ∨ s.dev.phase = .warm) →
    (∀ p, s.hasPort p = true →
      ((s.port p).svcEps = [] →
        exec (.eventMergeIntervalEnd (.epService p)) s = .next (finish (modPort p (fun r => { r with svcOpen := false }) s))) ∧
      ((s.port p).svcEps ≠ [] → exec (.eventMergeIntervalEnd (.epService p)) s = .next (finish (postService p s)))) ∧
    (∀ c, s.hasCan c = true →
      ((s.can c).evObjs = [] →
        exec (.eventMergeIntervalEnd (.canObjects c)) s = .next (finish (modCan c (fun r => { r with evOpen := false }) s))) ∧
      ((s.can c).evObjs ≠ [] → exec (.eventMergeIntervalEnd (.canObjects c)) s = .next (finish (postObjects c s)))) ∧
    (∀ n, s.hasTrunk n = true →
      ((s.trunk n).errOpen = true →
        exec (.eventMergeIntervalEnd (.frameErrors n)) s =
          .next (finish (modTrunk n (fun t => { t with errOpen := false, errCount := 0 })
            (post (145 + 2 * n) (ev8 0x0704 n (s.trunk n).errWhat (s.trunk n).errCount) s)))) ∧
      ((s.trunk n).errOpen = false → exec (.eventMergeIntervalEnd (.frameErrors n)) s = .next (finish s))) ∧
    (s.net.tcWait = true →
      exec (.eventMergeIntervalEnd .topologyChanged) s = .next (finish (postTopology (modNet (fun t => { t with tcWait := false }) s)))) ∧
    (s.net.tcWait = false →
      exec (.eventMergeIntervalEnd .topologyChanged) s = .next (finish (modNet (fun t => { t with tcOpen := false }) s))) ∧
    (s.time.glitches = 0 →
      exec (.eventMergeIntervalEnd .ppsGlitch) s = .next (finish (modTime (fun t => { t with glitchOpen := false }) s))) ∧
    (s.time.glitches ≠ 0 →
      exec (.eventMergeIntervalEnd .ppsGlitch) s =
        .next (finish (timeEvent 0x0804 0 0 s.time.glitches (modTime (fun t => { t with glitches := 0, glitchOpen := true }) s)))) ∧
    (∀ src, src < 160 → (s.flt src).limited = true →
      ((s.flt src).pendingRep = true →
        exec (.eventMergeIntervalEnd (.faultRepeat src)) s =
          .next (finish (fltEvent 0x0090 src (s.flt src).sub
            (modFlt src (fun f => { f with pendingRep := false }) s)))) ∧
      ((s.flt src).pendingRep = false →
        exec (.eventMergeIntervalEnd (.faultRepeat src)) s = .next (finish (modFlt src (fun f => { f with limited := false }) s)))))

/-! ### Start, restart, firmware, OTP and tamper (R18, R496 to R513, R554) -/

/-- A cold start from the release of the reset. Without a reference, or without the CI or the MI island, it waits for another try; each
other unit that is not ready raises WAKE_STEP_TIMEOUT. With the life cycle at its end, with OTP that cannot
be read, or with the boot counter at its threshold it takes Kindling mode with the cause; else the first slot that is valid starts
Mboter, and with none Kindling mode says why. What Mboter reports ready completes the start.
Its conclusions say the next state that `exec` answers for: coldStart. -/
def Obligations.ColdStarts : Prop :=
  ∀ (s : State) (env : StartEnv), s.powered = true → s.dev.phase = .reset → s.coreRails = true →
    (s.dev.power = .service → s.svc.gate = true) →
    let read := startRecords env (modDev (fun d => { d with resetLow := false }) { s with otp := { s.otp with live := s.otp.fields } })
    let ready := startSteps env (startClock env.xtal (modPower (fun w => { w with retry := false }) read))
    ((env.xtal = false ∧ env.clkAlt = false) ∨ 0x24 ∈ env.islands ∨ 0x25 ∈ env.islands →
      exec (.coldStart env) s = .next (finish (modPower (fun w => { w with retry := true }) read))) ∧
    (env.xtal = true ∨ env.clkAlt = true → 0x24 ∉ env.islands → 0x25 ∉ env.islands →
      (ready.otp.lifeCycle = 3 → exec (.coldStart env) s = .next (finish (kinStart 5 ready))) ∧
      (ready.otp.lifeCycle ≠ 3 → env.otpOk = false → exec (.coldStart env) s = .next (finish (kinStart 6 ready))) ∧
      (ready.otp.lifeCycle ≠ 3 → env.otpOk = true → ready.bootThreshold ≤ ready.lich.bootCount →
        exec (.coldStart env) s = .next (finish (kinStart 1 ready))) ∧
      (ready.otp.lifeCycle ≠ 3 → env.otpOk = true → ready.lich.bootCount < ready.bootThreshold →
        let tried := trySlots env ready.lich.preferred
        let seen := foldS tried (fun x t =>
          if slotFails x.2 then raise 138 1 (modSlot x.1 (slotState x.2) t) else modSlot x.1 (slotState x.2) t) ready
        (∀ x, tried.find? (fun x => slotValid x.2) = some x →
          exec (.coldStart env) s = .next (finish (startMboter x.1 (startId (startPeat (env.peatOk && !env.banks.contains 24) seen))))) ∧
        (tried.find? (fun x => slotValid x.2) = none → tried.all (fun x => x.2 == .noAnswer) = true →
          exec (.coldStart env) s = .next (finish (kinStart 3 seen))) ∧
        (tried.find? (fun x => slotValid x.2) = none → tried.all (fun x => x.2 == .noAnswer) = false →
          exec (.coldStart env) s = .next (finish (kinStart 2 seen)))))

/-- A start and its limits. Mboter that reports ready is ready; a start that is late fails and resets the die; a warm restart that
is late goes to the slot that ran before, counted, and fails when it has done so already; the boot counter is cleared after its
time and by a long RESET_N. A wake that ends brings up what rests, and one out of DOZE completes the command that asked for it.
Only OTP, fuses and flash outlive the absence of every source; the power die that starts again is otherwise where reset puts it.
Its conclusions say the next state that `exec` answers for: powerDiePowerOn, mboterReady, mboterStartTimeout,
warmRestartTimeout, unhandledCoreException, bootCounterClear, resetNLongHold, lossOfAllSources. -/
def Obligations.StartsAndRestarts : Prop :=
  ∀ (s : State),
    (s.dev.phase = .off →
      exec .powerDiePowerOn s =
        .next (emit (.railEn true)
          { State.reset with part := s.part, otp := s.otp, fw := { slot0 := s.fw.slot0, slot1 := s.fw.slot1 },
                             pending := s.pending, free := s.free, wire := s.wire })) ∧
    (s.powered = true →
    (∀ failed, s.dev.phase = .starting →
      exec (.mboterReady failed) s =
        .next (finish (postHolds (deliverWaiting (startUnits failed (loadUcode (modDev (fun d => { d with phase := .ready }) s))))))) ∧
    (∀ failed w, s.dev.phase = .warm → s.warm = some w →
      exec (.mboterReady failed) s = .next (finish (warmReady w s))) ∧
    (∀ failed w, s.dev.phase = .waking → s.power.wake = some w → w.step = 6 →
      let up (t : State) : State := deliverWaiting (cnOn (tkOn (railsUp (startUnits failed (wakeDone w (wakeEngines
        (modDev (fun d => { d with phase := .ready }) t)))))))
      (w.left ≠ .service → w.left ≠ .doze → exec (.mboterReady failed) s = .next (finish (up s))) ∧
      (w.left = .service → exec (.mboterReady failed) s = .next (finish (up (peatInit true s)))) ∧
      (w.left = .doze →
        exec (.mboterReady failed) s =
          .next (finish (finishKey (keyDev 0xB) stOk (powerResult .run 0xFF 0 w.cause)
            (resumeTrees s.power.dozeTrees (modPower (fun x => { x with dozeTrees := [] }) (up s))))))) ∧
    (s.dev.phase = .ready → ∀ failed,
      exec (.mboterReady failed) s = .next (finish s) ∧ exec .mboterStartTimeout s = .next (finish s)) ∧
    (s.dev.phase = .starting → exec .mboterStartTimeout s = .next (finish (dieReset false s))) ∧
    (∀ w, s.dev.phase = .waking → s.power.wake = some w → w.step = 6 →
      exec .mboterStartTimeout s = .next (finish (stepTimeout 6 0xFF 300000 (dieReset false s)))) ∧
    (s.warm = none →
      exec .warmRestartTimeout s = .next (finish s) ∧
      exec .unhandledCoreException s = exec .mboterStartTimeout s) ∧
    (∀ w, s.dev.phase = .warm → s.warm = some w →
      exec .unhandledCoreException s = exec .warmRestartTimeout s ∧
      (w.fellBack = true → exec .warmRestartTimeout s = .next (finish (dieReset false s))) ∧
      (w.fellBack = false →
        let back := countBoot { s with warm := some { w with slot := w.before, fellBack := true } }
        (w.update = true → exec .warmRestartTimeout s = .next (finish (endTrial back))) ∧
        (w.update = false → exec .warmRestartTimeout s = .next (finish back)))) ∧
    (s.ready = true →
      exec .bootCounterClear s = .next (finish (modLich (fun l => { l with bootCount := 0, onTrial := false }) s))) ∧
    (s.ready = false → exec .bootCounterClear s = .next (finish s)) ∧
    (s.dev.resetLow = true → exec .resetNLongHold s = .next (finish (modLich (fun l => { l with bootCount := 0 }) s))) ∧
    (s.dev.resetLow = false → exec .resetNLongHold s = .next (finish s)) ∧
    (exec .lossOfAllSources s = .next (fromNothing .off (cutOtp (cutFlash s)))))

/-- Flash, OTP and the key store. A slot erase that ends in time leaves the slot empty, a late one invalid; a verify gives its
result, by the header where the slot's content is known, and the slot its state; an OTP write gives the field its value, or the
life cycle its step with a zeroisation; TAMPER_N zeroises and raises its fault until it is released, and a zeroisation is over
when it reads back zero.
Its conclusions say the next state that `exec` answers for: flashEraseComplete, flashVerifyComplete, otpWriteComplete,
tamperNLow, tamperNReleased, zeroisationReadback. -/
def Obligations.FlashOtpAndTamper : Prop :=
  ∀ (s : State), s.powered = true →
    (∀ k h tag, s.fw.busy = .erasing k h tag →
      let idle := modFw (fun f => { f with busy := .idle }) s
      exec (.flashEraseComplete true) s = .next (finish (finishOp h tag stOk [] (modSlot k (fun _ => { known := true }) idle))) ∧
      exec (.flashEraseComplete false) s =
        .next (finish (finishOp h tag stTimeout [] (modSlot k (fun x =>
          { x with st := 3, known := false, passed := false }) idle)))) ∧
    (∀ k h tag r version ucode compat, s.fw.busy = .verifying k h tag →
      let x := s.slot k
      let ver := if x.known then BitVec.ofNat 32 (field (x.read 8 4) 0 4) else version
      let com := if x.known then BitVec.ofNat 32 (field (x.read 36 4) 0 4) else compat
      let ends (code st : Nat) : Host.Outcome State Fault Refusal :=
        .next (finish (finishOp h tag stOk (u8 code ++ [0, 0, 0] ++ u32 ver.toNat)
          (modSlot k (fun x => { x with st := st, version := ver, ucode := ucode, compat := com }) (modFw (fun f => { f with busy := .idle }) s))))
      (r = .valid → x.spoilt = false → x.known = false ∨ (headerOk (x.read 0 256) = true ∧ s.counterOk (x.read 0 256) = true) →
        exec (.flashVerifyComplete r version ucode compat) s = ends 0 2) ∧
      (x.known = false → r ≠ .badFormat → r = .badSignature ∨ x.spoilt = true →
        exec (.flashVerifyComplete r version ucode compat) s = ends 1 3) ∧
      (x.known = true → headerOk (x.read 0 256) = true → r ≠ .valid ∨ x.spoilt = true ∨ s.counterOk (x.read 0 256) = false →
        exec (.flashVerifyComplete r version ucode compat) s = ends 1 3) ∧
      ((x.known = false ∧ r = .badFormat) ∨ (x.known = true ∧ headerOk (x.read 0 256) = false) →
        exec (.flashVerifyComplete r version ucode compat) s = ends 2 3)) ∧
    (s.fw.busy = .idle →
      (∀ b, exec (.flashEraseComplete b) s = .next (finish s)) ∧
      ∀ r v u c, exec (.flashVerifyComplete r v u c) s = .next (finish s)) ∧
    (s.otp.writing = none → exec .otpWriteComplete s = .next (finish s)) ∧
    (∀ f v, s.otp.writing = some (.field f v) →
      exec .otpWriteComplete s =
        .next (finish (finishKey (keyDev 0xB05) stOk [] { s with otp := { s.otp with writing := none, fields := s.otp.fields.write f v } }))) ∧
    (∀ c, s.otp.writing = some (.lifeCycle c) →
      exec .otpWriteComplete s =
        .next (finish (finishKey (keyDev 0xB03) stOk (u8 c)
          { s with otp := { s.otp with writing := none, lifeCycle := c }, sec := { s.sec with keys := [], zeroising := true } }))) ∧
    exec .tamperNLow s =
      .next (finish (raise 156 1 (setSqc aSec [13] { s with sec := { s.sec with tamperLow := true, keys := [], zeroising := true } }))) ∧
    (s.sec.tamperLow = true →
      exec .tamperNReleased s = .next (finish (clearFlt 156 1 { s with sec := { s.sec with tamperLow := false } }))) ∧
    (s.sec.tamperLow = false → exec .tamperNReleased s = .next (finish s)) ∧
    (s.sec.zeroising = true →
      exec (.zeroisationReadback true) s = .next (finish (setSqc aSec [12] { s with sec := { s.sec with zeroising := false } })) ∧
      exec (.zeroisationReadback false) s =
        .next (finish (setSqc aSec [11] { s with sec := { s.sec with keys := [], zeroising := true } }))) ∧
    (s.sec.zeroising = false → ∀ zero, exec (.zeroisationReadback zero) s = .next (finish s))

/-! ### Host commands: device, operations and power (R223, R226, R256, R259, R263, R271 to R273, R456, R505) -/

/-- DEV_IDENTIFY, DEV_STATUS, DEV_SET_ID, DEV_ECHO, DEV_WARM_RESTART and DEV_POWER_STATE, once accepted: the reports answer with
the bytes of their layouts and change nothing, an ID that is new is set, a warm restart stops the cores, and a power state that is
asked for starts its entry, starts a wake, or is the state already; RUN, asked for while an entry runs, ends that entry as wake
trigger 1. A warm restart abandons the migrations that are not handed off.
HOST_BIND, SEM_TAKE, SEM_GIVE, OP_QUERY and OP_ABORT, once accepted. A binding is made, kept with a new watchdog time, given up,
or was not there; semaphores are taken all or none, with tSEMLOSS for a host that is not bound (notes/assumptions/176.md), and
given; a query answers from the outstanding commands or the records; an abort ends a command that has not started, both with
their records, waits for one that has no abort point now, and says when the command is over already.
Its conclusions say the next state that `exec` answers for: devIdentify, devStatus, devSetId, devEcho, devWarmRestart,
devPowerState, hostBind, semTake, semGive, opQuery, opAbort. -/
def Obligations.DeviceAndOperationCommands : Prop :=
  (∀ (s : State) (h : HostId) (p : Packet),
    (Safety.Accepted 0x0001 devIdentifyCmd h p s →
      Safety.Completes (.devIdentify p) 0x0001 h p stOk
        (u32 (Variant.cap0 s.part.variant).toNat ++ u32 (Variant.cap1 s.part.variant).toNat ++ u16 s.dev.id.toNat ++
          u8 s.dev.power.code ++ u8 s.otp.lifeCycle ++ u32 s.dev.version.toNat ++ u32 s.peatSize ++ u64 s.part.uid.toNat) s s) ∧
    (Safety.Accepted 0x0002 devStatusCmd h p s →
      Safety.Completes (.devStatus p) 0x0002 h p stOk
        (u8 s.dev.power.code ++ u8 0 ++ u8 s.lich.bootCount ++ u8 s.maxUnack ++ u16 s.dev.id.toNat ++ u16 s.activeSrcs.length ++
          u32 s.uptime.toNat ++ sBytes 2 s.ledger.tHot ++
          u8 (b2n s.feedA.present + 2 * b2n s.feedB.present + 4 * b2n s.svc.vbus) ++
          u8 (b2n s.board.seated + 2 * b2n (s.feedA.retry || s.feedB.retry)) ++ u32 s.offMask ++ u32 s.lich.insertions.toNat) s s) ∧
    (let id := BitVec.ofNat 16 (field p.params 0 2)
     Safety.Accepted 0x0003 devSetIdCmd h p s →
      (s.dev.id = id ∧ s.lich.storedId = some id →
        Safety.Completes (.devSetId p) 0x0003 h p stAlready (u16 s.dev.id.toNat) s s) ∧
      (¬ (s.dev.id = id ∧ s.lich.storedId = some id) →
        Safety.Completes (.devSetId p) 0x0003 h p stOk (u16 s.dev.id.toNat) s (setDeviceId id (Safety.begun 0x0003 h p s)))) ∧
    (Safety.Accepted 0x0004 devEchoCmd h p s → Safety.Completes (.devEcho p) 0x0004 h p stOk p.params s s) ∧
    (Safety.Accepted 0x0007 devWarmRestartCmd h p s →
      (s.stageRuns = true → Safety.Completes (.devWarmRestart p) 0x0007 h p stLocked [] s s) ∧
      (s.stageRuns = false →
        let b := foldS s.moving (fun m => abandonMig m.group) (Safety.begun 0x0007 h p s)
        Safety.Starts (.devWarmRestart p) h p (keyDev 0x7) [] s
          { b with dev := { b.dev with phase := .warm },
                   warm := some { slot := s.fw.running, before := s.fw.running, update := false } })) ∧
    (let t := byteAt p.params 0
     let result := powerResult s.dev.power 0xFF 0 0
     let guard := (t = 2 ∧ (s.cfgAt aPwrmGuard).getLsbD 0 = true) ∨ (t = 3 ∧ (s.cfgAt aPwrmGuard).getLsbD 1 = true)
     let already := (t = 0 ∧ (s.dev.power = .run ∨ s.dev.power = .trim)) ∨ (t = 2 ∧ s.dev.power = .doze)
     Safety.Accepted 0x000B devPowerStateCmd h p s →
      (t = 0 → s.power.entry.isSome = true →
        let b := wakeTrigger 1 (Safety.begun 0x000B h p s)
        (b.power.wake.isSome = true →
          Safety.Answers (.devPowerState p) 0x000B h p s (.running stAccepted (keyDev 0xB) []) b) ∧
        (b.power.wake = none → Safety.Answers (.devPowerState p) 0x000B h p s (.final stAlready result) b)) ∧
      ((t ≠ 0 ∧ s.power.entry.isSome = true) ∨ (s.power.entry = none ∧ s.power.wake.isSome = true) →
        Safety.Completes (.devPowerState p) 0x000B h p stLocked result s s) ∧
      (s.power.entry = none → s.power.wake = none →
        (already → Safety.Completes (.devPowerState p) 0x000B h p stAlready result s s) ∧
        (¬ already → guard → Safety.Completes (.devPowerState p) 0x000B h p stLocked result s s) ∧
        (¬ already → t = 0 →
          Safety.Starts (.devPowerState p) h p (keyDev 0xB) [] s (startWake .doze 1 (Safety.begun 0x000B h p s))) ∧
        (¬ already → ¬ guard → t = 2 ∨ t = 3 →
          Safety.Starts (.devPowerState p) h p (keyDev 0xB) [] s
            { s with power := { s.power with entry := some { target := t, wakeEnable := byteAt p.params 1,
                                                             wakeAfter := field p.params 4 4, host := h, tag := p.tag } } })))) ∧
  (∀ (s : State) (h : HostId) (p : Packet),
    (Safety.Accepted 0x0008 hostBindCmd h p s →
      let b := Safety.begun 0x0008 h p s
      let wd := if field p.params 0 2 = 0 then 100 else field p.params 0 2
      (byteAt p.params 2 = 0 → (s.host h).bound.isSome = true →
        let b1 := modHost h (fun r => { r with wdMs := wd }) b
        Safety.Completes (.hostBind p) 0x0008 h p stAlready (b1.bindAnswer h) s b1) ∧
      (byteAt p.params 2 = 0 → (s.host h).bound = none →
        let b1 := bindHost h p.via wd b
        Safety.Completes (.hostBind p) 0x0008 h p stOk (b1.bindAnswer h) s b1) ∧
      (byteAt p.params 2 ≠ 0 → (s.host h).bound = none →
        Safety.Completes (.hostBind p) 0x0008 h p stAlready (b.bindAnswer h) s s) ∧
      (byteAt p.params 2 ≠ 0 → (s.host h).bound.isSome = true → (∀ o ∈ s.ops, o.host = h → o.started = true) →
        let b1 := loseBinding h 2 b
        Safety.Completes (.hostBind p) 0x0008 h p stOk (b1.bindAnswer h) s b1)) ∧
    (Safety.Accepted 0x0009 semTakeCmd h p s →
      let b := Safety.begun 0x0009 h p s
      let ns := bitsOf 32 (field p.params 0 4)
      (ns.any (fun n => (s.sem n).owner == hOwner (hOther h)) = true →
        Safety.Completes (.semTake p) 0x0009 h p stSemBusy (s.semAnswer h) s s) ∧
      (ns.any (fun n => (s.sem n).owner == hOwner (hOther h)) = false →
        let taken := foldS ns (fun n => setOwner n (hOwner h)) b
        let b1 := if (taken.host h).bound.isNone then modHost h (fun r => { r with semTimer := true }) taken else taken
        Safety.Completes (.semTake p) 0x0009 h p stOk (b1.semAnswer h) s b1)) ∧
    (Safety.Accepted 0x000A semGiveCmd h p s →
      let b1 := foldS ((bitsOf 32 (field p.params 0 4)).filter fun n => (s.sem n).owner == hOwner h) (fun n => setOwner n 0)
        (Safety.begun 0x000A h p s)
      Safety.Completes (.semGive p) 0x000A h p stOk (b1.semAnswer h) s b1) ∧
    (Safety.Accepted 0x0006 opQueryCmd h p s →
      let g := hostOf (byteAt p.params 0)
      let tag := BitVec.ofNat 16 (field p.params 2 2)
      let b := Safety.begun 0x0006 h p s
      (∀ o, b.opOf g tag = some o →
        Safety.Completes (.opQuery p) 0x0006 h p stOk ([0, 0] ++ u16 o.opcode.toNat ++ List.replicate 8 0) s s) ∧
      (∀ d, b.opOf g tag = none → (s.host g).done.find? (fun d => d.tag == tag) = some d →
        Safety.Completes (.opQuery p) 0x0006 h p stOk
          (u8 (if d.result.isSome then 1 else 2) ++ [0] ++ u16 d.opcode.toNat ++ u16 d.status.toNat ++ u16 (d.result.getD []).length ++
            u32 d.cseq.toNat ++ (d.result.getD []).take 228) s s)) ∧
    (Safety.Accepted 0x0005 opAbortCmd h p s →
      let tag := BitVec.ofNat 16 (field p.params 0 2)
      let b := Safety.begun 0x0005 h p s
      (∀ d, tag ≠ p.tag → b.opOf h tag = none → (s.host h).done.find? (fun d => d.tag == tag) = some d →
        Safety.Completes (.opAbort p) 0x0005 h p stAlready (u16 d.status.toNat ++ [0, 0] ++ u32 d.cseq.toNat) s s) ∧
      (tag ≠ p.tag → b.opOf h tag = none → (s.host h).done.find? (fun d => d.tag == tag) = none →
        Safety.Completes (.opAbort p) 0x0005 h p stBadParam [] s s) ∧
      (∀ o, tag ≠ p.tag → b.opOf h tag = some o → o.started = true → abortNow o b = none →
        Safety.Starts (.opAbort p) h p 0 [tag.toNat] s s) ∧
      (∀ o, tag ≠ p.tag → b.opOf h tag = some o → o.started = false → b.aborters h tag = [] →
        ∃ t, exec (.opAbort p) s = .next (finish t) ∧ t.opOf h tag = none ∧ t.opOf h p.tag = none ∧
          (t.host h).done.take 2 =
            [{ tag := p.tag, opcode := 0x0005#16, status := BitVec.ofNat 16 stOk, cseq := (s.host h).cseq + 2, result := some [] },
             { tag := tag, opcode := o.opcode, status := BitVec.ofNat 16 stAborted, cseq := (s.host h).cseq + 1,
               result := some [] }])))

/-! ### Host commands: what they answer and leave (R54 to R73, R119 to R131, R200 to R210, R274 to R290, R302, R317, R358 to R371) -/

/-- What an answer leaves. A final answer completes the command: its host's completion sequence advances by one, its record is the
latest, and it is no longer outstanding; a running one keeps it outstanding with what its handler keeps. Nothing changes beside
what replies and records go into. -/
def Obligations.AnswersComplete : Prop :=
  ∀ (o x : Op) (s : State), s.opOf o.host o.tag = some x →
    (∀ st r, let t := answer o (.final st r) s
      (t.host o.host).cseq = (s.host o.host).cseq + 1 ∧
      (t.host o.host).done.head? = some { tag := o.tag, opcode := o.opcode, status := BitVec.ofNat 16 st,
                                          cseq := (s.host o.host).cseq + 1, result := some (pad4 r) } ∧
      t.opOf o.host o.tag = none ∧ Safety.Beside t s) ∧
    (∀ st unit args, let t := answer o (.running st unit args) s
      t.opOf o.host o.tag = some { x with unit := unit, args := args } ∧ Safety.Beside t s ∧
      (t.host o.host).cseq = (s.host o.host).cseq) ∧
    (∀ st r, s.aborters o.host o.tag = [] → x.started = true → let t := answer o (.event st r) s
      (t.host o.host).cseq = (s.host o.host).cseq + 1 ∧
      (t.host o.host).done.head? = some { tag := x.tag, opcode := x.opcode, status := BitVec.ofNat 16 st,
                                          cseq := (s.host o.host).cseq + 1, result := some (pad4 r) } ∧
      t.opOf o.host o.tag = none)

/-- The port commands, once accepted. A port that is shed, isolated or busy is not taken; the others are enabled, disabled, reset,
suspended, resumed or power cycled, and the policy is written whole. The reports measure and change nothing else.
Its conclusions say the next state that `exec` answers for: portEnable, portDisable, portStatus, treeList, portBusReset,
portSuspend, portResume, portPowerCycle, portSetPolicy. -/
def Obligations.PortCommands : Prop :=
  ∀ (s : State) (h : HostId) (p : Packet),
    let k := byteAt p.params 0
    let r := s.port k
    let at_ := suspLoc p.params
    let ps := bitsOf 32 (field p.params 0 4)
    let b (op : Nat) := Safety.begun op h p s
    (Safety.Accepted 0x0100 portEnableCmd h p s →
      let todo := ps.filter fun p => (s.port p).bus == .disabled
      (ps.any (fun p => (s.port p).shed) = true →
        Safety.Answers (.portEnable p) 0x0100 h p s (.final stBudget []) (b 0x0100)) ∧
      (ps.any (fun p => (s.port p).shed) = false → ps.any (fun p => (s.port p).sw == .isolated || s.pgIsolated p) = true →
        Safety.Answers (.portEnable p) 0x0100 h p s (.final stLocked []) (b 0x0100)) ∧
      (ps.any (fun p => (s.port p).shed) = false → ps.any (fun p => (s.port p).sw == .isolated || s.pgIsolated p) = false →
        (todo = [] → Safety.Answers (.portEnable p) 0x0100 h p s (.final stAlready (u32 0)) (b 0x0100)) ∧
        (todo ≠ [] →
          Safety.Answers (.portEnable p) 0x0100 h p s (.final stOk (u32 (maskOf todo))) (foldS todo toUnattached (b 0x0100))))) ∧
    (Safety.Accepted 0x0101 portDisableCmd h p s →
      let todo := ps.filter fun p => (s.port p).bus != .disabled || (s.port p).shed
      (todo = [] → Safety.Answers (.portDisable p) 0x0101 h p s (.final stAlready (u32 0)) (b 0x0101)) ∧
      (todo ≠ [] →
        Safety.Answers (.portDisable p) 0x0101 h p s (.final stOk (u32 (maskOf todo))) (foldS todo disablePort (b 0x0101)))) ∧
    (Safety.Accepted 0x0102 portStatusCmd h p s →
      Safety.Answers (.portStatus p) 0x0102 h p s (.final stOk ((measure k (b 0x0102)).portStatus k)) (measure k (b 0x0102))) ∧
    (Safety.Accepted 0x0108 treeListCmd h p s →
      let t := sortBy (fun a b => decide (a.addr < b.addr)) r.tree
      let got := (t.drop (byteAt p.params 1)).take 7
      Safety.Answers (.treeList p) 0x0108 h p s (.final stOk (u8 t.length ++ u8 got.length ++ [0, 0] ++ got.flatMap Inst.bytes))
        (b 0x0108)) ∧
    (Safety.Accepted 0x0103 portBusResetCmd h p s → s.dev.power ≠ .doze →
      (r.bus ≠ .running → r.bus ≠ .error → Safety.Answers (.portBusReset p) 0x0103 h p s (.final stLocked []) (b 0x0103)) ∧
      (r.bus = .running ∨ r.bus = .error → s.busyPort k = false → r.pd.st ≠ .hardReset → s.pgIsolated k = false →
        Safety.Answers (.portBusReset p) 0x0103 h p s (.running stAccepted (keyPort k) [])
          (startReset k (freeTree k 1 (b 0x0103))))) ∧
    (Safety.Accepted 0x0104 portSuspendCmd h p s → s.dev.power ≠ .doze →
      let done : Bool := match at_ with | .root => r.bus == .suspended | .hub a g => r.suspHub.contains (a, g)
      (done = true → Safety.Answers (.portSuspend p) 0x0104 h p s (.final stAlready []) (b 0x0104)) ∧
      (done = false → r.bus = .running ∨ r.bus = .enumerating → s.busyPort k = false → r.pd.st ≠ .hardReset →
        (s.enumerating k at_ = true →
          Safety.Answers (.portSuspend p) 0x0104 h p s (.running stAccepted (keyPort k) [])
            (modPort k (fun r => { r with suspAsk := r.suspAsk ++ [at_] }) (b 0x0104))) ∧
        (s.enumerating k at_ = false →
          Safety.Answers (.portSuspend p) 0x0104 h p s (.final stOk []) (doSuspend k at_ (b 0x0104))))) ∧
    (Safety.Accepted 0x0105 portResumeCmd h p s → s.dev.power ≠ .doze →
      let susp : Bool := match at_ with | .root => r.bus == .suspended | .hub a g => r.suspHub.contains (a, g)
      (r.resumeAt at_ = none → susp = false → Safety.Answers (.portResume p) 0x0105 h p s (.final stAlready []) (b 0x0105)) ∧
      (r.resumeAt at_ = none → susp = true → s.busyPort k = true →
        Safety.Answers (.portResume p) 0x0105 h p s (.final stLocked []) (b 0x0105)) ∧
      (r.resumeAt at_ = none → susp = true → s.busyPort k = false →
        Safety.Answers (.portResume p) 0x0105 h p s (.running stAccepted (keyPort k) [])
          (startResume k { loc := at_, byHost := true, byInst := false } (b 0x0105))) ∧
      (∀ w, r.resumeAt at_ = some w → w.byInst = false ∨ s.busyPort k = true →
        Safety.Answers (.portResume p) 0x0105 h p s (.final stLocked []) (b 0x0105)) ∧
      (∀ w, r.resumeAt at_ = some w → w.byInst = true → s.busyPort k = false →
        Safety.Answers (.portResume p) 0x0105 h p s (.final stOk []) (setResume k { w with byHost := true } (b 0x0105)))) ∧
    (Safety.Accepted 0x0106 portPowerCycleCmd h p s →
      (r.bus = .disabled ∨ r.sw = .isolated → Safety.Answers (.portPowerCycle p) 0x0106 h p s (.final stLocked []) (b 0x0106)) ∧
      (r.bus ≠ .disabled → r.sw ≠ .isolated → s.busyPort k = false → s.pgIsolated k = false →
        let off := openPaths k (leaveBus k 1 (b 0x0106))
        let told := if r.sw = .latched then pathEvent k 0x0327 1 0 off else off
        Safety.Answers (.portPowerCycle p) 0x0106 h p s (.running stAccepted (keyPort k) [])
          (modPort k (fun r => { r with sw := .off, latchRail := false, bus := .latchedOff }) told))) ∧
    (Safety.Accepted 0x0107 portSetPolicyCmd h p s →
      let m := byteAt p.params 1
      let keep (v unit old : Nat) : Nat := if v = 0 then old else v * unit
      Safety.Answers (.portSetPolicy p) 0x0107 h p s (.final stOk [])
        (modPort k (fun r =>
          { r with owner := if byteAt p.params 2 = 3 then r.owner else byteAt p.params 2,
                   policy := { mode := m % 4, hsEnable := bitOf m 2, remoteWake := bitOf m 3,
                               classes := [byteAt p.params 4, byteAt p.params 5, byteAt p.params 6, byteAt p.params 7],
                               tConnect := keep (field p.params 8 2) 100 r.policy.tConnect,
                               tCtrl := keep (field p.params 10 2) 10 r.policy.tCtrl,
                               tRetry := keep (field p.params 12 2) 10 r.policy.tRetry } }) (b 0x0107)))

/-- The power contract commands, once accepted: capabilities are written and offered, the status is reported with fresh
measurements, and a swap, a Hard Reset, a discovery or a mode starts where the contract is ready for it; where it is not, the
command is taken and its event says ABORTED (the model's choice, notes/assumptions/41.md and 172.md; the VDM headers: 170.md).
Its conclusions say the next state that `exec` answers for: pdSetCaps, pdStatus, pdDrSwap, pdHardReset, pdDiscover, pdAltmode. -/
def Obligations.PdCommands : Prop :=
  ∀ (s : State) (h : HostId) (p : Packet),
    let k := byteAt p.params 0
    let r := s.port k
    let b (op : Nat) := Safety.begun op h p s
    (Safety.Accepted 0x0500 pdSetCapsCmd h p s →
      let wait (old : Nat) : Nat := if byteAt p.params 4 = 0 then old else 10 * byteAt p.params 4
      (k = 32 →
        Safety.Answers (.pdSetCaps p) 0x0500 h p s (.final stOk [])
          (modSvc (fun v => { v with pd := { v.pd with caps := { v.pd.caps with tWait := wait v.pd.caps.tWait } } }) (b 0x0500))) ∧
      (k ≠ 32 → r.bus.powered = false → r.reneg = true →
        Safety.Answers (.pdSetCaps p) 0x0500 h p s (.final stOk [])
          (modPd k (fun d => { d with caps := { amp5 := byteAt p.params 1, en15 := byteAt p.params 2 == 1, rp := byteAt p.params 3,
                                                tWait := wait d.caps.tWait } }) (b 0x0500))) ∧
      (k ≠ 32 → r.bus.powered = false → r.reneg = false →
        Safety.Answers (.pdSetCaps p) 0x0500 h p s (.final stOk [])
          (newOffer k (modPd k (fun d => { d with caps := { amp5 := byteAt p.params 1, en15 := byteAt p.params 2 == 1,
                                                            rp := byteAt p.params 3, tWait := wait d.caps.tWait } }) (b 0x0500)))) ∧
      (k ≠ 32 → r.bus.powered = true → r.pd.st = .noContract → r.reneg = false →
        let set_ := modPd k (fun d => { d with caps := { amp5 := byteAt p.params 1, en15 := byteAt p.params 2 == 1,
                                                         rp := byteAt p.params 3, tWait := wait d.caps.tWait } }) (b 0x0500)
        Safety.Answers (.pdSetCaps p) 0x0500 h p s (.final stOk []) (newOffer k (setWeight k (set_.port k).rpWeight set_)))) ∧
    (Safety.Accepted 0x0501 pdStatusCmd h p s →
      (k = 32 → Safety.Answers (.pdStatus p) 0x0501 h p s (.final stOk ((b 0x0501).pdStatus 32)) (useFree (useFree (b 0x0501)))) ∧
      (k ≠ 32 →
        Safety.Answers (.pdStatus p) 0x0501 h p s (.final stOk ((measure k (b 0x0501)).pdStatus k)) (measure k (b 0x0501)))) ∧
    (Safety.Accepted 0x0502 pdDrSwapCmd h p s →
      let free := (s.pdOf k).ask.isNone
      let ok := if k = 32 then s.svc.pd.st == .contract && free else s.swapAnswer k == .accept && free
      (s.busyPort k = true → Safety.Answers (.pdDrSwap p) 0x0502 h p s (.final stLocked []) (b 0x0502)) ∧
      (s.busyPort k = false → ok = true →
        Safety.Answers (.pdDrSwap p) 0x0502 h p s (.running stAccepted (keyPort k) [])
          (pdSend k .drSwap [] (modPdOf k (fun d => { d with ask := some .swap, askSent := true, swapTries := 0 }) (b 0x0502)))) ∧
      (s.busyPort k = false → ok = false →
        Safety.Answers (.pdDrSwap p) 0x0502 h p s (.event stAborted (u8 1 ++ u8 (s.role k))) (b 0x0502))) ∧
    (Safety.Accepted 0x0503 pdHardResetCmd h p s →
      let first := hrPreempt k (b 0x0503)
      (s.pgIsolated k = true → Safety.Answers (.pdHardReset p) 0x0503 h p s (.final stLocked []) first) ∧
      (s.pgIsolated k = false → first.busyPort k = false → r.pd.sub ≠ .gone →
        (r.bus.powered = true ∧ (r.pd.st = .hardReset ∨ s.hrSpent k = false)) ∨ (r.bus.powered = false ∧ r.bus = .ufpSwapped) →
        Safety.Answers (.pdHardReset p) 0x0503 h p s (.running stAccepted (keyPort k) []) (anyHardReset k true 1 first)) ∧
      (s.pgIsolated k = false → first.busyPort k = false →
        (r.bus.powered = false ∧ r.bus ≠ .ufpSwapped) ∨ r.pd.sub = .gone ∨
          (r.bus.powered = true ∧ r.pd.st ≠ .hardReset ∧ s.hrSpent k = true) →
        Safety.Answers (.pdHardReset p) 0x0503 h p s (.event stAborted []) first)) ∧
    (Safety.Accepted 0x0504 pdDiscoverCmd h p s →
      (s.busyPort k = true → Safety.Answers (.pdDiscover p) 0x0504 h p s (.final stLocked []) (b 0x0504)) ∧
      (s.busyPort k = false → s.vdmReady k = false →
        Safety.Answers (.pdDiscover p) 0x0504 h p s (.event stAborted []) (b 0x0504)) ∧
      (∀ req msg svid, byteAt p.params 1 = req → (req, msg, svid) ∈ [(0, PdMsg.discIdentity, svidPd), (1, PdMsg.discSvids, svidPd),
          (2, PdMsg.discModes, field p.params 2 2)] →
        s.busyPort k = false → s.vdmReady k = true →
        Safety.Answers (.pdDiscover p) 0x0504 h p s (.running stAccepted (keyPort k) [])
          (pdSend k msg [vdmHead svid 0 0 (req + 1)] (modPd k (fun d => { d with ask := some (.discover req), askSent := true }) (b 0x0504))))) ∧
    (Safety.Accepted 0x0505 pdAltmodeCmd h p s →
      let enter := byteAt p.params 1 == 1
      let can := Variant.timebase s.part.variant && s.otp.live.timebaseSvid.isSome
      (can = false → Safety.Answers (.pdAltmode p) 0x0505 h p s (.final stUnsupp []) (b 0x0505)) ∧
      (can = true → r.pd.alt = enter → Safety.Answers (.pdAltmode p) 0x0505 h p s (.final stAlready []) (b 0x0505)) ∧
      (can = true → r.pd.alt ≠ enter → s.busyPort k = false →
        (s.vdmReady k = false → Safety.Answers (.pdAltmode p) 0x0505 h p s (.event stAborted []) (b 0x0505)) ∧
        (s.vdmReady k = true → enter = false →
          Safety.Answers (.pdAltmode p) 0x0505 h p s (.running stAccepted (keyPort k) [])
            (pdSend k .exitMode [vdmHead s.timebaseSvid 0 (r.pd.altObj.getD 0) 5] (modPd k (fun d => { d with ask := some .exit, askSent := true }) (b 0x0505)))) ∧
        (s.vdmReady k = true → enter = true → r.pd.modesNew = false →
          Safety.Answers (.pdAltmode p) 0x0505 h p s (.running stAccepted (keyPort k) [])
            (pdSend k .discSvids [vdmHead svidPd 0 0 2] (modPd k (fun d => { d with ask := some .altSvids, askSent := true }) (b 0x0505)))) ∧
        (∀ obj, s.vdmReady k = true → enter = true → r.pd.modesNew = true → r.pd.altObj = some obj →
          Safety.Answers (.pdAltmode p) 0x0505 h p s (.running stAccepted (keyPort k) [])
            (pdSend k .enterMode [vdmHead s.timebaseSvid 0 obj 4] (modPd k (fun d => { d with ask := some .enter, askSent := true }) (b 0x0505)))) ∧
        (s.vdmReady k = true → enter = true → r.pd.modesNew = true → r.pd.altObj = none →
          Safety.Answers (.pdAltmode p) 0x0505 h p s (.event stOk (u8 1)) (b 0x0505))))

/-- The endpoint commands, once accepted. A bind is refused, kept, admitted at a phase, or waits when it may; an unbind ends the
transfers of the context; a transfer joins those of its context while there is room, and one that moves no packet is over at once
where none of its context waits before it (the model's choice, notes/assumptions/60.md).
Its conclusions say the next state that `exec` answers for: epList, epState, epBind, epUnbind, epControl, epWrite, epRead. -/
def Obligations.EndpointCommands : Prop :=
  ∀ (s : State) (h : HostId) (p : Packet),
    let e := epOf p.params
    let f := field p.params
    let b (op : Nat) := Safety.begun op h p s
    let x (kind : XferKind) (setup out : List Byte) (left queue : Nat) (flag : Bool) (nakMs : Nat) : Xfer :=
      { handle := 65536 * hOwner h + p.tag.toNat, epid := e, kind := kind, host := h, tag := p.tag, setup := setup, out := out, got := [],
        left := left, moved := 0, queue := queue, stage := 0, flag := flag, nakMs := nakMs, nakAt := none, gaps := 0, errs := 0,
        started := false }
    (Safety.Accepted 0x0200 epListCmd h p s →
      let l := (s.portCtxs (epPort e)).filter fun c => decide (e ≤ c.1)
      Safety.Answers (.epList p) 0x0200 h p s
        (.final stOk (u8 (l.take 29).length ++ u8 (b2n (decide (29 < l.length))) ++ [0, 0] ++
          ((l.take 29).flatMap fun c => s.listEntry c.1 c.2))) (b 0x0200)) ∧
    (∀ c, s.ctx e = some c → Safety.Accepted 0x0206 epStateCmd h p s →
      Safety.Answers (.epState p) 0x0206 h p s (.final stOk (s.image e c)) (b 0x0206)) ∧
    (∀ c, s.ctx e = some c → Safety.Accepted 0x0201 epBindCmd h p s →
      let exp := c.askedExp (f 6 1)
      let shown (ph : Nat) : List Byte := if c.type = 2 then bindResult 0xFFFF 0xFF 0 0 else bindResult ph exp 0 0
      (c.type = 1 → Safety.Answers (.epBind p) 0x0201 h p s (.final stUnsupp []) (b 0x0201)) ∧
      (c.type ≠ 1 → c.bound = true →
        (c.queue = f 4 1 ∧ c.cls = f 5 1 ∧ c.exp = exp ∧ (f 8 2 = 0xFFFF ∨ f 8 2 = c.phase) →
          Safety.Answers (.epBind p) 0x0201 h p s (.final stAlready (shown c.phase)) (b 0x0201)) ∧
        (¬ (c.queue = f 4 1 ∧ c.cls = f 5 1 ∧ c.exp = exp ∧ (f 8 2 = 0xFFFF ∨ f 8 2 = c.phase)) →
          Safety.Answers (.epBind p) 0x0201 h p s (.final stLocked []) (b 0x0201))) ∧
      (c.type ≠ 1 → c.bound = false → c.wait.isSome = true → Safety.Answers (.epBind p) 0x0201 h p s (.final stLocked []) (b 0x0201)) ∧
      (c.type ≠ 1 → c.bound = false → c.wait = none →
        (f 5 1 = 2 → (b 0x0201).overReserve e c (f 4 1) 2 exp 0 = true →
          Safety.Answers (.epBind p) 0x0201 h p s (.final stBadParam []) (b 0x0201)) ∧
        (f 5 1 = 2 → (b 0x0201).overReserve e c (f 4 1) 2 exp 0 = false →
          Safety.Answers (.epBind p) 0x0201 h p s (.final stOk (shown 0)) (quiet [e] (commitBind e (f 4 1) 2 exp 0 (b 0x0201)))) ∧
        (∀ ph, f 5 1 ≠ 2 → (b 0x0201).admission e c (f 4 1) (f 5 1) exp (f 8 2) = .ok ph → (b 0x0201).overReserve e c (f 4 1) (f 5 1) exp ph = false →
          Safety.Answers (.epBind p) 0x0201 h p s (.final stOk (shown ph))
            (quiet [e] (issueOrders 64 (commitBind e (f 4 1) (f 5 1) exp ph (b 0x0201))))) ∧
        (∀ r, f 5 1 ≠ 2 → (b 0x0201).admission e c (f 4 1) (f 5 1) exp (f 8 2) = .error r →
          (bitOf (f 7 1) 0 = true →
            let w : WaitBind := { queue := f 4 1, cls := f 5 1, exp := exp, phase := f 8 2, host := h, tag := p.tag }
            Safety.Answers (.epBind p) 0x0201 h p s (.running stAccepted (keyCtx e) [e])
              (quiet [e] (setCtx e { c with wait := some w, refuse := r.reason } (b 0x0201)))) ∧
          (bitOf (f 7 1) 0 = false →
            Safety.Answers (.epBind p) 0x0201 h p s (.final r.status (bindResult (f 8 2) exp r.reason r.residue))
              (quiet [e] (setCtx e { c with refuse := r.reason } (b 0x0201))))))) ∧
    (∀ c, s.ctx e = some c → Safety.Accepted 0x0202 epUnbindCmd h p s →
      (c.bound = true →
        Safety.Answers (.epUnbind p) 0x0202 h p s (.final stOk [])
          (quiet [e] (unbind e (endXfers (fun y => y.epid == e) 6 (b 0x0202))))) ∧
      (c.bound = false → c.wait.isSome = true →
        Safety.Answers (.epUnbind p) 0x0202 h p s (.final stOk []) (quiet [e] (unbind e (b 0x0202)))) ∧
      (c.bound = false → c.wait = none → Safety.Answers (.epUnbind p) 0x0202 h p s (.final stAlready []) (b 0x0202))) ∧
    (Safety.Accepted 0x0203 epControlCmd h p s → s.dev.power ≠ .doze →
      (∀ st, s.xferRoom e (byteAt p.params 14) = some st → Safety.Answers (.epControl p) 0x0203 h p s (.final st []) (b 0x0203)) ∧
      (s.xferRoom e (byteAt p.params 14) = none →
        Safety.Answers (.epControl p) 0x0203 h p s (.running stAccepted (keyXfer e) [e])
          { b 0x0203 with xfers := s.xfers ++ [x .control ((p.params.drop 4).take 8)
              (if bitOf (byteAt p.params 4) 7 then [] else (p.params.drop 16).take (f 10 2)) (f 10 2) (byteAt p.params 14) false
              (if f 12 2 = 0 then (s.port (epPort e)).policy.tCtrl else f 12 2)] })) ∧
    (Safety.Accepted 0x0204 epWriteCmd h p s → s.dev.power ≠ .doze →
      (∀ st, s.xferRoom e (byteAt p.params 8) = some st → Safety.Answers (.epWrite p) 0x0204 h p s (.final st []) (b 0x0204)) ∧
      (s.xferRoom e (byteAt p.params 8) = none → f 4 4 = 0 → bitOf (byteAt p.params 9) 0 = false → s.xfers.all (fun y => y.epid != e) = true →
        Safety.Answers (.epWrite p) 0x0204 h p s (.event stOk (List.replicate 8 0)) (b 0x0204)) ∧
      (s.xferRoom e (byteAt p.params 8) = none → (f 4 4 ≠ 0 ∨ bitOf (byteAt p.params 9) 0 = true ∨ s.xfers.all (fun y => y.epid != e) = false) →
        Safety.Answers (.epWrite p) 0x0204 h p s (.running stAccepted (keyXfer e) [e])
          { b 0x0204 with xfers := s.xfers ++ [x .write [] (if byteAt p.params 8 = 0 then (p.params.drop 12).take (f 4 4) else []) (f 4 4)
              (byteAt p.params 8) (bitOf (byteAt p.params 9) 0) (f 10 2)] })) ∧
    (Safety.Accepted 0x0205 epReadCmd h p s → s.dev.power ≠ .doze →
      (∀ st, s.xferRoom e (byteAt p.params 8) = some st → Safety.Answers (.epRead p) 0x0205 h p s (.final st []) (b 0x0205)) ∧
      (s.xferRoom e (byteAt p.params 8) = none → f 4 4 = 0 → s.xfers.all (fun y => y.epid != e) = true →
        Safety.Answers (.epRead p) 0x0205 h p s (.event stOk (List.replicate 8 0)) (b 0x0205)) ∧
      (s.xferRoom e (byteAt p.params 8) = none → (f 4 4 ≠ 0 ∨ s.xfers.all (fun y => y.epid != e) = false) →
        Safety.Answers (.epRead p) 0x0205 h p s (.running stAccepted (keyXfer e) [e])
          { b 0x0205 with xfers := s.xfers ++ [x .read [] [] (f 4 4) (byteAt p.params 8) (bitOf (byteAt p.params 9) 0) (f 10 2)] }))

/-- The queue, budget and placement commands, once accepted. A queue in use is not reconfigured; a configuration replaces the queue
with an empty one; a flush empties it, a replay lets the held items go or gives them up. A budget write waits for
the next recompute, which takes the fields that it names; an affinity or a pin is kept, replaced or given up, within its number.
Its conclusions say the next state that `exec` answers for: qConfig, qStatus, qFlush, qReplay, budgetSet, budgetStatus,
placeHint, placePin, placeReport. -/
def Obligations.QueueAndPlacementCommands : Prop :=
  ∀ (s : State) (h : HostId) (p : Packet),
    let f := field p.params
    let q := byteAt p.params 0
    let r := s.queue q
    let b (op : Nat) := Safety.begun op h p s
    (Safety.Accepted 0x0300 qConfigCmd h p s →
      (r.st ≠ .disabled → s.boundTo' q = true ∨ s.canNames q = true →
        Safety.Answers (.qConfig p) 0x0300 h p s (.final stLocked []) (b 0x0300)) ∧
      (r.st = .disabled ∨ (s.boundTo' q = false ∧ s.canNames q = false) →
        (s.spillRegion < s.spillTaken q + f 8 4 →
          Safety.Answers (.qConfig p) 0x0300 h p s (.final stCapacity []) (b 0x0300)) ∧
        (¬ s.spillRegion < s.spillTaken q + f 8 4 →
          let new : Queue := { st := if bitOf (f 1 1) 0 then .flow else .disabled, isL := bitOf (f 1 1) 1, out := bitOf (f 1 1) 2,
                               owner := hostOf (b2n (bitOf (f 1 1) 3)), auto := bitOf (f 1 1) 4, depth := f 4 4, spillMib := f 8 4,
                               flight := f 12 4, srcDev := BitVec.ofNat 16 (f 16 2), srcQ := f 18 1, reserve := b2n (bitOf (f 1 1) 1) }
          let set_ := setQueue q new (endQueueUsers q (b 0x0300))
          Safety.Answers (.qConfig p) 0x0300 h p s (.final stOk (u32 (f 4 4) ++ u32 (f 8 4)))
            (if bitOf (f 1 1) 0 && new.srcDev != 0 then sendCredit q set_ else set_)))) ∧
    (Safety.Accepted 0x0301 qStatusCmd h p s →
      Safety.Answers (.qStatus p) 0x0301 h p s
        (.final stOk (u32 (s.queStatus q).toNat ++ u32 r.count ++ u32 r.drops.toNat ++ u32 (s.spillKib r) ++
          u32 (if r.isL then r.reserve else 0) ++ u32 r.flagged ++ u64 (match r.items with | i :: _ => i.stamp.toNat | [] => 0)))
        (b 0x0301)) ∧
    (Safety.Accepted 0x0302 qFlushCmd h p s →
      Safety.Answers (.qFlush p) 0x0302 h p s (.final stOk (u32 r.count))
        (putQueue q { r with head := [], mid := [], tail := [], st := if r.st = .held ∨ r.st = .replay then .flow else r.st,
                             pair := { r.pair with sent := 0 } } none (b 0x0302))) ∧
    (Safety.Accepted 0x0303 qReplayCmd h p s →
      (r.st = .held → byteAt p.params 1 = 1 →
        Safety.Answers (.qReplay p) 0x0303 h p s (.final stOk (u32 r.flagged)) (discardFlagged q (b 0x0303))) ∧
      (r.st = .held → byteAt p.params 1 ≠ 1 →
        Safety.Answers (.qReplay p) 0x0303 h p s (.final stOk (u32 r.flagged))
          (replayCheck q (pump q (setQueue q { r with st := .replay, rate := f 4 4, rateAt := s.dev.monoNs, replayed := 0 } (b 0x0303))))) ∧
      (r.st = .flight → Safety.Answers (.qReplay p) 0x0303 h p s (.final stUnreach []) (b 0x0303)) ∧
      (r.st ≠ .held → r.st ≠ .flight → Safety.Answers (.qReplay p) 0x0303 h p s (.final stAlready []) (b 0x0303))) ∧
    (Safety.Accepted 0x0400 budgetSetCmd h p s →
      Safety.Answers (.budgetSet p) 0x0400 h p s (.final stOk []) (modLedger (fun l => { l with due := l.due ++ [p.params] }) (b 0x0400))) ∧
    (∀ t : State,
      let pick (i old new : Nat) : Nat := if bitOf (f 0 4) i then new else old
      let set_ := modLedger (fun l =>
        { l with feedA := pick 0 l.feedA (f 4 2), feedB := pick 1 l.feedB (f 6 2),
                 shared := if bitOf (f 0 4) 2 then f 8 1 == 1 else l.shared, theta := pick 3 l.theta (f 9 1),
                 portW := pick 4 l.portW (f 10 2), overheadW := pick 5 l.overheadW (f 12 1),
                 tShed := pick 6 l.tShed (10 * f 14 2), tRestore := pick 7 l.tRestore (f 16 1),
                 tRelax := pick 8 l.tRelax (f 17 1), tRot := pick 9 l.tRot (f 18 1) }) t
      applyBudget p.params t =
        (if bitOf (f 0 4) 10 then
          foldS (upTo t.nPorts) (fun k u => modPort k (fun r => { r with rank := byteAt p.params (20 + k) }) u) set_ else set_)) ∧
    (Safety.Accepted 0x0401 budgetStatusCmd h p s →
      Safety.Answers (.budgetStatus p) 0x0401 h p s (.final stOk s.budgetStatus) (b 0x0401)) ∧
    (Safety.Accepted 0x0402 placeHintCmd h p s →
      let a : Aff := { kind := q, weight := byteAt p.params 1, opA := BitVec.ofNat 32 (f 4 4), opB := BitVec.ofNat 32 (f 8 4) }
      let others := s.stok.affs.filter fun x => !(x.kind == a.kind && x.opA == a.opA && x.opB == a.opB)
      (a.weight = 0 → a.kind ≠ 6 →
        Safety.Answers (.placeHint p) 0x0402 h p s (.final stOk (u16 others.length)) (modStok (fun k => { k with affs := others }) (b 0x0402))) ∧
      (a.weight ≠ 0 → 1024 ≤ others.length →
        Safety.Answers (.placeHint p) 0x0402 h p s (.final stCapacity (u16 s.stok.affs.length)) (b 0x0402)) ∧
      (a.weight ≠ 0 → others.length < 1024 → a.kind ≠ 6 → a.kind ≠ 4 ∨
          (modStok (fun k => { k with affs := others ++ [a] }) s).kept2048.contains a.opA.toNat = false →
        Safety.Answers (.placeHint p) 0x0402 h p s (.final stOk (u16 (others ++ [a]).length))
          (modStok (fun k => { k with affs := others ++ [a] }) (b 0x0402))) ∧
      (a.weight ≠ 0 → others.length < 1024 → a.kind = 4 →
        (modStok (fun k => { k with affs := others ++ [a] }) s).kept2048.contains a.opA.toNat = true →
        let set_ := modStok (fun k => { k with affs := others ++ [a] }) (b 0x0402)
        Safety.Answers (.placeHint p) 0x0402 h p s (.final stOk (u16 set_.stok.affs.length))
          (fetchCtx a.opA.toNat set_)) ∧
      (a.weight = 0 → a.kind = 6 →
        let set_ := modStok (fun k => { k with affs := others }) (b 0x0402)
        Safety.Answers (.placeHint p) 0x0402 h p s (.final stOk (u16 set_.stok.affs.length)) (followRoutes set_)) ∧
      (a.weight ≠ 0 → others.length < 1024 → a.kind = 6 →
        let set_ := modStok (fun k => { k with affs := others ++ [a] }) (b 0x0402)
        Safety.Answers (.placeHint p) 0x0402 h p s (.final stOk (u16 set_.stok.affs.length)) (followRoutes set_))) ∧
    (Safety.Accepted 0x0403 placePinCmd h p s → s.dev.power ≠ .doze → s.busyKey (keyUnit (0x1000 + q)) = false →
      let e := byteAt p.params 1
      let pin : Pin := { group := q, eng := e, allow := bitOf (byteAt p.params 2) 0 }
      let noOrder := modStok (fun k => { k with orders := k.orders.filter fun o => o.group != q }) (b 0x0403)
      let stays := if s.takes e then abandonMig q noOrder else b 0x0403
      let unpinned := modStok (fun k => { k with pins := k.pins.filter fun p => p.group != q }) (b 0x0403)
      (e = 0xFF → s.pinOf q = none →
        Safety.Answers (.placePin p) 0x0403 h p s (.final stAlready (u8 s.stok.pins.length)) (b 0x0403)) ∧
      (e = 0xFF → (s.pinOf q).isSome = true →
        Safety.Answers (.placePin p) 0x0403 h p s (.final stOk (u8 unpinned.stok.pins.length)) unpinned) ∧
      (e ≠ 0xFF → s.pinOf q = some pin →
        Safety.Answers (.placePin p) 0x0403 h p s (.final stAlready (u8 s.stok.pins.length)) (b 0x0403)) ∧
      (e ≠ 0xFF → s.pinOf q ≠ some pin → (s.pinOf q).isSome = true ∨ s.stok.pins.length < 64 →
        (s.fits q e = false ∨ s.spareRule q e = false →
          Safety.Answers (.placePin p) 0x0403 h p s (.final stCapacity (u8 s.stok.pins.length)) (b 0x0403)) ∧
        (s.fits q e = true → s.spareRule q e = true → (s.engineOf q = none ∨ s.engineOf q = some e ∨ s.takes e = false) →
          Safety.Answers (.placePin p) 0x0403 h p s (.final stOk (u8 (addPin pin stays).stok.pins.length)) (addPin pin stays)) ∧
        (∀ g, s.fits q e = true → s.spareRule q e = true → s.engineOf q = some g → g ≠ e → s.takes e = true →
          Safety.Answers (.placePin p) 0x0403 h p s (.running stAccepted (keyUnit (0x1000 + q)) [q, e, b2n pin.allow])
            (order 6 q e noOrder)))) ∧
    (Safety.Accepted 0x0404 placeReportCmd h p s →
      let from_ := byteAt p.params 1
      let said (l : List (List Byte)) : Ans := .final stOk (u8 l.length ++ [0, 0, 0] ++ l.flatten)
      (q = 0 → Safety.Answers (.placeReport p) 0x0404 h p s (said ((((upTo 12).drop from_).take 14).map s.reportEngine)) (b 0x0404)) ∧
      (q = 1 →
        Safety.Answers (.placeReport p) 0x0404 h p s
          (said ((((upTo s.nPorts).drop from_).take 29).map fun p => (upTo 8).flatMap fun k => u8 ((s.engineOf (8 * p + k)).getD 0xFF)))
          (b 0x0404)) ∧
      (q = 2 →
        Safety.Answers (.placeReport p) 0x0404 h p s
          (said ((((s.stok.affs.filter s.honoured).drop from_).take 19).map fun a =>
            u8 a.kind ++ u8 a.weight ++ [0, 0] ++ u32 a.opA.toNat ++ u32 a.opB.toNat)) (b 0x0404)))

/-- The CAN commands, once accepted: settings are written and the channel starts, stops or goes on; objects, filters and the time
master are written; a send is requested, and the status is reported.
Its conclusions say the next state that `exec` answers for: canConfig, canObjConfig, canFilterSet, canSend, canStatus,
canTimeMaster. -/
def Obligations.CanCommands : Prop :=
  ∀ (s : State) (h : HostId) (p : Packet),
    let f := field p.params
    let ch := byteAt p.params 0
    let r := s.can ch
    let b (op : Nat) := Safety.begun op h p s
    (Safety.Accepted 0x0600 canConfigCmd h p s →
      let new := r.configure p.params
      let off := endFall ch (canOff ch (b 0x0600))
      let stopped := canStop ch (b 0x0600)
      (s.canIsolated ch = true → Safety.Answers (.canConfig p) 0x0600 h p s (.final stLocked []) (b 0x0600)) ∧
      (s.canIsolated ch = false → new.mode = 0 →
        Safety.Answers (.canConfig p) 0x0600 h p s (.final stOk [])
          (driveStb ch (updateWarning ch (setCan ch { (stopped.can ch).configure p.params with st := 0 } stopped)))) ∧
      (s.canIsolated ch = false → new.mode ≠ 0 → r.st ≠ 0 → r.sameBus new = true →
        Safety.Answers (.canConfig p) 0x0600 h p s (.final stOk []) (driveStb ch (updateWarning ch (setCan ch new (b 0x0600))))) ∧
      (s.canIsolated ch = false → new.mode ≠ 0 → r.st = 0 ∨ r.sameBus new = false →
        Safety.Answers (.canConfig p) 0x0600 h p s (.final stOk [])
          (driveStb ch (updateWarning ch (canStart ch (setCan ch ((off.can ch).configure p.params) off)))))) ∧
    (Safety.Accepted 0x0601 canObjConfigCmd h p s →
      let o := r.obj (f 1 1)
      (o.op.isSome = true → Safety.Answers (.canObjConfig p) 0x0601 h p s (.final stLocked []) (b 0x0601)) ∧
      (o.op = none →
        Safety.Answers (.canObjConfig p) 0x0601 h p s (.final stOk [])
          (modObj ch (f 1 1) (fun _ => { dir := f 2 1, single := bitOf (f 3 1) 0, retry := f 5 1,
                                         queue := if f 2 1 = 1 then f 4 1 else 0, ident := BitVec.ofNat 32 (f 8 4) }) (b 0x0601)))) ∧
    (Safety.Accepted 0x0602 canFilterSetCmd h p s →
      Safety.Answers (.canFilterSet p) 0x0602 h p s (.final stOk [])
        (foldS (upTo (byteAt p.params 4)) (fun i t =>
          modCan ch (fun r => { r with filters := tset r.filters (f 2 2 + i) (filterAt p.params i) }) t)
          (modCan ch (fun r => { r with oldFilters := r.oldFilters ++ [(s.dev.monoNs, r.filters)] }) (b 0x0602)))) ∧
    (Safety.Accepted 0x0603 canSendCmd h p s →
      let k := f 1 1
      let fl := f 2 1
      let ident := BitVec.ofNat 32 (b2n (bitOf fl 2) * 2 ^ 31 + b2n (bitOf fl 0) * 2 ^ 30 + b2n (bitOf fl 1) * 2 ^ 29 + f 4 4)
      let frame := BitVec.ofNat 32 (b2n (bitOf fl 0) * 2 ^ 21 + b2n (bitOf fl 1) * 2 ^ 20 + dlcOf (f 3 1) * 2 ^ 16 + f 3 1)
      let filled := modObj ch k (fun o => { o with ident := ident, frame := frame, data := dataWords ((p.params.drop 8).take (f 3 1)) })
        (b 0x0603)
      (s.canIsolated ch = true ∨ (r.obj k).busy = true →
        Safety.Answers (.canSend p) 0x0603 h p s (.final stLocked []) (b 0x0603)) ∧
      (s.canIsolated ch = false → (r.obj k).busy = false → (r.classicOnly && ((filled.can ch).obj k).tooLong) = false →
        Safety.Answers (.canSend p) 0x0603 h p s (.running stAccepted (keyObj ch k) [ch, k]) (requestSend ch k (some (h, p.tag)) filled)) ∧
      (s.canIsolated ch = false → (r.obj k).busy = false → (r.classicOnly && ((filled.can ch).obj k).tooLong) = true →
        let sentOver := endSend ch k 6
          (modObj ch k (fun o => { o with busy := true, attempts := 0, errored := 0, op := none, sofAt := none }) filled)
        Safety.Answers (.canSend p) 0x0603 h p s (.event stAborted (u64 ((sentOver.can ch).obj k).stamp.toNat ++ [0, 0, 0, 0])) sentOver)) ∧
    (Safety.Accepted 0x0604 canStatusCmd h p s →
      Safety.Answers (.canStatus p) 0x0604 h p s
        (.final stOk (u8 r.st ++ u8 (sat 255 r.txc) ++ u8 (sat 255 r.rxc) ++
          u8 (b2n r.fallen + 2 * b2n r.alone + 4 * b2n (match r.master with | some m => m.active | none => false) + 8 * b2n r.warning) ++
          u32 r.dupId.toNat ++ u32 r.rx.toNat ++ u32 r.tx.toNat ++ u32 r.errFr.toNat)) (b 0x0604)) ∧
    (Safety.Accepted 0x0605 canTimeMasterCmd h p s →
      (s.canIsolated ch = true ∨ r.listens = true → Safety.Answers (.canTimeMaster p) 0x0605 h p s (.final stLocked []) (b 0x0605)) ∧
      (s.canIsolated ch = false → r.listens = false → f 1 1 = 0 →
        Safety.Answers (.canTimeMaster p) 0x0605 h p s (.final stOk []) (modCan ch (fun r => { r with master := none }) (b 0x0605))) ∧
      (s.canIsolated ch = false → r.listens = false → f 1 1 ≠ 0 → r.mode = 0 →
        Safety.Answers (.canTimeMaster p) 0x0605 h p s (.final stLocked []) (b 0x0605)) ∧
      (s.canIsolated ch = false → r.listens = false → f 1 1 ≠ 0 → r.mode ≠ 0 →
        let m : TimeMaster := { ident := BitVec.ofNat 32 (f 4 4), prio := f 2 1, cycle := f 8 4 }
        Safety.Answers (.canTimeMaster p) 0x0605 h p s (.final stOk []) (modCan ch (fun r => { r with master := some m }) (b 0x0605))))

/-- The trunk and time commands, once accepted: a trunk's settings are applied and saved, its status and the network are reported,
the static routes change with what follows; TIME is stepped to its target and reported.
Its conclusions say the next state that `exec` answers for: trkConfig, trkStatus, trkRoute, trkDiscover, timeSet, timeGet,
timeStatus. -/
def Obligations.TrunkAndTimeCommands : Prop :=
  ∀ (s : State) (h : HostId) (p : Packet),
    let f := field p.params
    let n := byteAt p.params 0
    let t := s.trunk n
    let b (op : Nat) := Safety.begun op h p s
    (Safety.Accepted 0x0700 trkConfigCmd h p s →
      (t.isolated = true ∨ (s.flt 81).isolated = true → Safety.Answers (.trkConfig p) 0x0700 h p s (.final stLocked []) (b 0x0700)) ∧
      (t.isolated = false → (s.flt 81).isolated = false →
        Safety.Answers (.trkConfig p) 0x0700 h p s (.final stOk []) (applyTrk n (trkCfgOf t.cfg p.params) (b 0x0700)))) ∧
    (Safety.Accepted 0x0701 trkStatusCmd h p s →
      Safety.Answers (.trkStatus p) 0x0701 h p s
        (.final stOk (u8 t.st.link ++ u8 t.st.code ++ u16 t.nbId.toNat ++ u32 t.tx.toNat ++ u32 t.rx.toNat ++
          u32 t.hdrErrs.toNat ++ u32 t.fcsErrs.toNat ++ u16 t.missed ++ [0, 0])) (b 0x0701)) ∧
    (Safety.Accepted 0x0702 trkRouteCmd h p s →
      ∀ new, (n = 0 → new = addRoute (byteAt p.params 1) (BitVec.ofNat 16 (f 2 2)) (byteAt p.params 4) s.net.routes) →
        (n = 1 → new = removeRoute (byteAt p.params 1) (BitVec.ofNat 16 (f 2 2)) (byteAt p.params 4) s.net.routes) →
        (n = 2 → new = []) → n ≤ 2 →
        (256 < new.length → Safety.Answers (.trkRoute p) 0x0702 h p s (.final stCapacity (u16 s.net.routes.length)) (b 0x0702)) ∧
        (new.length ≤ 256 →
          Safety.Answers (.trkRoute p) 0x0702 h p s (.final stOk (u16 new.length))
            (withTopology (modNet fun t => { t with routes := new }) (b 0x0702)))) ∧
    (Safety.Accepted 0x0703 trkDiscoverCmd h p s →
      let out := (s.discovered.drop (f 0 2)).take 54
      let seg := pickKey true (edges s.allTopo 3)
      Safety.Answers (.trkDiscover p) 0x0703 h p s
        (.event stOk (u16 s.discovered.length ++ u8 s.netShape ++ u8 (s.discovered.foldl (fun m e => if m < e.2.1 then e.2.1 else m) 0) ++
          u16 (match seg with | some e => e.lo.toNat | none => 0) ++ u8 (match seg with | some e => e.port | none => 0) ++
          u8 out.length ++ (out.map fun e => u16 e.1.toNat ++ u8 e.2.1 ++ u8 e.2.2).flatten)) (b 0x0703)) ∧
    (∀ x, s.timeTarget p.params = some x → Safety.Accepted 0x0800 timeSetCmd h p s →
      let th := f 12 4
      let set_ := if th = 0 then b 0x0800 else modTime (fun t => { t with threshold := th }) (b 0x0800)
      let stepped := stepTime (x - s.time.now.toNat) 1 (setSqc aTimeState [2] set_)
      Safety.Answers (.timeSet p) 0x0800 h p s (.final stOk (u64 stepped.time.now.toNat)) stepped) ∧
    (Safety.Accepted 0x0801 timeGetCmd h p s →
      Safety.Answers (.timeGet p) 0x0801 h p s
        (.final stOk (u64 s.time.now.toNat ++ u32 s.time.g.toNat ++ u16 (s.time.m % 8000) ++
          u8 (b2n s.aligned + 2 * b2n (s.time.pps == .locked)) ++ [0])) (b 0x0801)) ∧
    (Safety.Accepted 0x0802 timeStatusCmd h p s →
      let v := s.time
      let held := match v.holdSince with | some a => (s.dev.monoNs - a) / 1000000000 | none => 0
      Safety.Answers (.timeStatus p) 0x0802 h p s
        (.final stOk (u8 v.pps.code ++ u8 (b2n v.alt) ++ u8 (b2n s.aligned) ++ [0] ++ sBytes 4 v.lastErr ++ sBytes 4 v.r ++
          sBytes 4 (v.gridHalf / 2) ++ u32 v.steps.toNat ++ u32 held)) (b 0x0802))

/-- The fault and test commands, once accepted: the fault records and the Ash log are reported, a fault is acknowledged, and returned
when asked, injection follows its mode; a test or a calibration is taken on, and the units are reported.
Its conclusions say the next state that `exec` answers for: fltRead, fltAck, fltForce, ashRead, testRun, calRun, testStatus. -/
def Obligations.FaultAndTestCommands : Prop :=
  ∀ (s : State) (h : HostId) (p : Packet),
    let f := field p.params
    let src := field p.params 0 2
    let b (op : Nat) := Safety.begun op h p s
    (Safety.Accepted 0x0900 fltReadCmd h p s →
      let all := (upTo 160).drop src
      let l := (if bitOf (byteAt p.params 3) 0 then all.filter fun k => !(s.flt k).active.isEmpty else all).take (byteAt p.params 2)
      Safety.Answers (.fltRead p) 0x0900 h p s (.final stOk (u8 l.length ++ [0, 0, 0] ++ l.flatMap s.fltRecord)) (b 0x0900)) ∧
    (Safety.Accepted 0x0901 fltAckCmd h p s →
      let a := ackFlt src (bitOf (byteAt p.params 2) 0) (b 0x0901)
      (a.2.2 = true → Safety.Answers (.fltAck p) 0x0901 h p s (.running stAccepted (keyAck src) [src]) a.1) ∧
      (a.2.2 = false → Safety.Answers (.fltAck p) 0x0901 h p s (.final a.2.1 (u8 (a.1.flt src).level)) a.1)) ∧
    (Safety.Accepted 0x0902 fltForceCmd h p s →
      (byteAt p.params 2 = 0 → Safety.Answers (.fltForce p) 0x0902 h p s (.final stOk []) (releaseHold src (b 0x0902))) ∧
      (byteAt p.params 2 = 1 → Safety.Answers (.fltForce p) 0x0902 h p s (.final stOk []) (injectPulse src (b 0x0902))) ∧
      (byteAt p.params 2 = 2 → Safety.Answers (.fltForce p) 0x0902 h p s (.final stOk []) (injectHold src (b 0x0902)))) ∧
    (Safety.Accepted 0x0903 ashReadCmd h p s →
      Safety.Answers (.ashRead p) 0x0903 h p s
        (.final stOk (u32 s.lich.ash.writeOffset ++ (upTo (f 4 2 / 4)).flatMap fun i => s.ashWord s.ashHeader (f 0 4 + 4 * i)))
        (b 0x0903)) ∧
    (Safety.Accepted 0x0A00 testRunCmd h p s → s.dev.power ≠ .doze →
      let u := unitOf (byteAt p.params 0) (byteAt p.params 1)
      let test : Test := { unit := u, who := .run h p.tag }
      (s.unitIsolated u = true ∨ s.testing u = true → Safety.Answers (.testRun p) 0x0A00 h p s (.final stLocked []) (b 0x0A00)) ∧
      (s.unitIsolated u = false → s.testing u = false →
        Safety.Answers (.testRun p) 0x0A00 h p s
          (.running (if (b 0x0A00).testStarts test then stAccepted else stDeferred) (keyTest u) [unitType u, unitNo u])
          (askTest test (b 0x0A00)))) ∧
    (Safety.Accepted 0x0A01 calRunCmd h p s →
      let ps := bitsOf 32 (f 0 4)
      (ps = [] → Safety.Answers (.calRun p) 0x0A01 h p s (.event stOk (List.replicate 8 0)) (b 0x0A01)) ∧
      (ps ≠ [] → ps.any s.busyPort = true → Safety.Answers (.calRun p) 0x0A01 h p s (.final stLocked []) (b 0x0A01)) ∧
      (ps ≠ [] → ps.any s.busyPort = false →
        Safety.Answers (.calRun p) 0x0A01 h p s (.running stAccepted keyCal []) (calStart ps (some (h, p.tag)) (b 0x0A01)))) ∧
    (Safety.Accepted 0x0A02 testStatusCmd h p s →
      let of_ (n : Nat) := ((upTo n).drop (byteAt p.params 1)).take 29
      let said (n : Nat) : Ans :=
        .final stOk (u8 (of_ n).length ++ [0, 0, 0] ++ (of_ n).flatMap (s.testEntry (byteAt p.params 0)))
      (byteAt p.params 0 = 0 → Safety.Answers (.testStatus p) 0x0A02 h p s (said 12) (b 0x0A02)) ∧
      (byteAt p.params 0 = 1 → Safety.Answers (.testStatus p) 0x0A02 h p s (said 16) (b 0x0A02)) ∧
      (byteAt p.params 0 = 2 → Safety.Answers (.testStatus p) 0x0A02 h p s (said 8) (b 0x0A02)) ∧
      (byteAt p.params 0 = 3 → Safety.Answers (.testStatus p) 0x0A02 h p s (said 32) (b 0x0A02)))

/-- The firmware and security commands, once accepted: a slot is erased, programmed or verified, an image is activated warm or cold,
the life cycle and the provisioning fields are written to OTP, and the key store is written, erased or reported.
Its conclusions say the next state that `exec` answers for: fwStage, fwActivate, fwStatus, secLifecycle, secKey, secProvision. -/
def Obligations.FirmwareAndSecurityCommands : Prop :=
  ∀ (s : State) (h : HostId) (p : Packet),
    let f := field p.params
    let k := byteAt p.params 0
    let b (op : Nat) := Safety.begun op h p s
    (Safety.Accepted 0x0B00 fwStageCmd h p s →
      (s.otp.lifeCycle = 3 ∨ s.slotHeld k = true → Safety.Answers (.fwStage p) 0x0B00 h p s (.final stLocked []) (b 0x0B00)) ∧
      (s.otp.lifeCycle ≠ 3 → s.slotHeld k = false →
        (byteAt p.params 1 = 0 →
          Safety.Answers (.fwStage p) 0x0B00 h p s (.running stAccepted (keySlot k) [])
            (modFw (fun f => { f with busy := .erasing k h p.tag }) (b 0x0B00))) ∧
        (byteAt p.params 1 = 1 →
          Safety.Answers (.fwStage p) 0x0B00 h p s (.final stOk []) (modSlot k (program (f 4 4) ((p.params.drop 8).take 224)) (b 0x0B00))) ∧
        (byteAt p.params 1 = 2 →
          Safety.Answers (.fwStage p) 0x0B00 h p s (.running stAccepted (keySlot k) [])
            (modFw (fun f => { f with busy := .verifying k h p.tag }) (b 0x0B00))))) ∧
    (Safety.Accepted 0x0B01 fwActivateCmd h p s →
      (s.otp.lifeCycle = 3 ∨ s.fwRuns = true → Safety.Answers (.fwActivate p) 0x0B01 h p s (.final stLocked []) (b 0x0B01)) ∧
      (s.otp.lifeCycle ≠ 3 → s.fwRuns = false → (s.slot k).st ≠ 2 →
        Safety.Answers (.fwActivate p) 0x0B01 h p s (.final stBadParam []) (b 0x0B01)) ∧
      (s.otp.lifeCycle ≠ 3 → s.fwRuns = false → (s.slot k).st = 2 →
        (byteAt p.params 1 = 1 →
          Safety.Answers (.fwActivate p) 0x0B01 h p s (.event stOk [0, 3])
            (modFw (fun f => { f with coldDue := true }) (tryOut k (modLich (fun l => { l with bootCount := 0 }) (b 0x0B01))))) ∧
        (byteAt p.params 1 ≠ 1 → k = s.fw.running → s.oldEngines = [] →
          Safety.Answers (.fwActivate p) 0x0B01 h p s (.final stAlready []) (b 0x0B01)) ∧
        (byteAt p.params 1 ≠ 1 → k = s.fw.running → s.oldEngines ≠ [] →
          Safety.Answers (.fwActivate p) 0x0B01 h p s (.running stAccepted (keyDev 0xB01) [])
            (modFw (fun f => { f with busy := .updating h p.tag, updated := 0 })
              (if s.lich.preferred = k then b 0x0B01 else tryOut k (b 0x0B01)))) ∧
        (byteAt p.params 1 ≠ 1 → k ≠ s.fw.running → s.fw.ucode.toNat < (s.slot k).compat.toNat →
          Safety.Answers (.fwActivate p) 0x0B01 h p s (.final stBadParam []) (b 0x0B01)) ∧
        (byteAt p.params 1 ≠ 1 → k ≠ s.fw.running → (s.slot k).compat.toNat ≤ s.fw.ucode.toNat →
          Safety.Answers (.fwActivate p) 0x0B01 h p s (.running stAccepted (keyDev 0xB01) [])
            (warmRestart k true (tryOut k (modFw (fun f => { f with busy := .restarting k h p.tag, updated := 0 }) (b 0x0B01))))))) ∧
    (Safety.Accepted 0x0B02 fwStatusCmd h p s →
      Safety.Answers (.fwStatus p) 0x0B02 h p s
        (.final stOk (u8 s.fwState ++ u8 s.fw.running ++ u8 s.fw.slot0.st ++ u8 s.fw.slot1.st ++ u32 s.fw.slot0.version.toNat ++
          u32 s.fw.slot1.version.toNat ++ u16 (maskOf ((upTo s.nEngines).filter fun e => (s.engine e).newCode)) ++ [0, 0]))
        (b 0x0B02)) ∧
    (Safety.Accepted 0x0B03 secLifecycleCmd h p s →
      (s.otp.writing.isSome = true → Safety.Answers (.secLifecycle p) 0x0B03 h p s (.final stLocked []) (b 0x0B03)) ∧
      (s.otp.writing = none → s.mayMove k = true →
        Safety.Answers (.secLifecycle p) 0x0B03 h p s (.running stAccepted (keyDev 0xB03) [])
          { b 0x0B03 with otp := { s.otp with writing := some (.lifeCycle k) } })) ∧
    (Safety.Accepted 0x0B04 secKeyCmd h p s →
      let slot := byteAt p.params 1
      let shut := s.sec.zeroising || s.sec.tamperLow
      (shut = true → Safety.Answers (.secKey p) 0x0B04 h p s (.final stLocked []) (b 0x0B04)) ∧
      (k = 0 → s.otp.lifeCycle = 0 ∨ s.otp.lifeCycle = 3 → Safety.Answers (.secKey p) 0x0B04 h p s (.final stLocked []) (b 0x0B04)) ∧
      (k = 0 → shut = false → s.otp.lifeCycle ≠ 0 → s.otp.lifeCycle ≠ 3 →
        Safety.Answers (.secKey p) 0x0B04 h p s (.final stOk [])
          { b 0x0B04 with sec := { s.sec with keys := tset s.sec.keys slot ((p.params.drop 4).take 64) } }) ∧
      (k = 1 → shut = false →
        Safety.Answers (.secKey p) 0x0B04 h p s (.final stOk []) { b 0x0B04 with sec := { s.sec with keys := tdel s.sec.keys slot } }) ∧
      (k = 2 → shut = false →
        Safety.Answers (.secKey p) 0x0B04 h p s
          (.final stOk (u64 (maskOf (s.sec.keys.map fun e => e.1)) ++
            u32 (crc32c ((tfind slot s.sec.keys).getD (List.replicate 64 0))).toNat)) (b 0x0B04))) ∧
    (Safety.Accepted 0x0B05 secProvisionCmd h p s →
      let shut := s.otp.fields.written k || decide (2 ≤ s.otp.lifeCycle) || (s.cfgAt aSecGuard).getLsbD 0 || s.otp.writing.isSome
      (shut = true → Safety.Answers (.secProvision p) 0x0B05 h p s (.final stLocked []) (b 0x0B05)) ∧
      (shut = false →
        Safety.Answers (.secProvision p) 0x0B05 h p s (.running stAccepted (keyDev 0xB05) [])
          { b 0x0B05 with otp := { s.otp with writing := some (.field k (BitVec.ofNat 32 (f 4 4))) } }))

/-! ### Every command completes -/

/-- Every command of the table completes: for each of the 288 constructors of Instr, in every legal state and with any operands,
`exec` answers a next state. That state is legal, its queue is as it was, and OTP has only moved forward. What the command does
to the rest is stated for each constructor above. -/
def Obligations.EveryCommandCompletes : Prop :=
  ∀ (c : Instr) (s : State), Safety.Legal s →
    ∃ t, exec c s = .next t ∧ Safety.Legal t ∧ t.pending = s.pending ∧ Safety.otpAfter s.otp t.otp
end

