-- ==== Sys2Proof/Laws/State.lean ====
section
/-!
SUPPORT. What each update of State leaves as it was, field by field, and what it changes. True by unfolding; simp uses them
so that no proof unfolds a record update.
-/
namespace Sys2Proof.Machine

/-! ### Tables -/

theorem tfind_tset_same {α : Type} (t : Tab α) (k : Nat) (v : α) : tfind k (tset t k v) = some v := by
  induction t with
  | nil => simp [tset, tfind]
  | cons e r ih =>
    obtain ⟨j, a⟩ := e
    unfold tset
    by_cases h1 : k < j
    · simp [h1, tfind]
    · by_cases h2 : k = j
      · simp [h2, tfind]
      · have : ¬ j = k := fun h => h2 h.symm
        simp [h1, h2, tfind, this, ih]

theorem tfind_tset_other {α : Type} (t : Tab α) {k j : Nat} (v : α) (h : j ≠ k) : tfind j (tset t k v) = tfind j t := by
  induction t with
  | nil => simp [tset, tfind, Ne.symm h]
  | cons e r ih =>
    obtain ⟨i, a⟩ := e
    unfold tset
    by_cases h1 : k < i
    · simp [h1, tfind, Ne.symm h]
    · by_cases h2 : k = i
      · subst h2; simp [tfind, Ne.symm h]
      · simp only [h1, h2, if_false]
        unfold tfind
        split
        · rfl
        · exact ih

@[simp] theorem tget_tset_same {α : Type} (t : Tab α) (d : α) (k : Nat) (v : α) : tget (tset t k v) d k = v := by
  simp [tget, tfind_tset_same]

theorem tget_tset_other {α : Type} (t : Tab α) (d : α) {k j : Nat} (v : α) (h : j ≠ k) : tget (tset t k v) d j = tget t d j := by
  simp [tget, tfind_tset_other t v h]

/-! ### Records -/

@[simp] theorem port_setPort (p : Nat) (r : Port) (s : State) : (setPort p r s).port p = r := by simp [setPort, State.port]
theorem port_setPort_other {p q : Nat} (h : q ≠ p) (r : Port) (s : State) : (setPort p r s).port q = s.port q := by
  simp [setPort, State.port, tget_tset_other _ _ _ h]
@[simp] theorem port_modPort (p : Nat) (f : Port → Port) (s : State) : (modPort p f s).port p = f (s.port p) := by
  simp [modPort]
theorem port_modPort_other {p q : Nat} (h : q ≠ p) (f : Port → Port) (s : State) : (modPort p f s).port q = s.port q :=
  port_setPort_other h _ _
@[simp] theorem ctx_setCtx (e : Nat) (c : Ctx) (s : State) : (setCtx e c s).ctx e = some c := by
  simp [setCtx, State.ctx, tfind_tset_same]
@[simp] theorem host_setHost (h : HostId) (r : HostRec) (s : State) : (setHost h r s).host h = r := by cases h <;> rfl
@[simp] theorem host_modHost (h : HostId) (f : HostRec → HostRec) (s : State) : (modHost h f s).host h = f (s.host h) := by
  cases h <;> rfl
@[simp] theorem host_modHost_other (h : HostId) (f : HostRec → HostRec) (s : State) :
    (modHost h f s).host (hOther h) = s.host (hOther h) := by cases h <;> rfl
@[simp] theorem feed_setFeed (h : HostId) (r : Feed) (s : State) : (setFeed h r s).feed h = r := by cases h <;> rfl
@[simp] theorem feed_modFeed (h : HostId) (f : Feed → Feed) (s : State) : (modFeed h f s).feed h = f (s.feed h) := by cases h <;> rfl
@[simp] theorem engine_modEngine (e : Nat) (f : Engine → Engine) (s : State) : (modEngine e f s).engine e = f (s.engine e) := by
  simp [modEngine, setEngine, State.engine]
@[simp] theorem can_modCan (c : Nat) (f : Can → Can) (s : State) : (modCan c f s).can c = f (s.can c) := by
  simp [modCan, setCan, State.can]
@[simp] theorem obj_modObj (c k : Nat) (f : CanObj → CanObj) (s : State) :
    ((modObj c k f s).can c).obj k = f ((s.can c).obj k) := by simp [modObj, Can.obj]
@[simp] theorem trunk_modTrunk (n : Nat) (f : Trunk → Trunk) (s : State) : (modTrunk n f s).trunk n = f (s.trunk n) := by
  simp [modTrunk, setTrunk, State.trunk]
@[simp] theorem inst_modInst (i : Nat) (f : Instance → Instance) (s : State) : (modInst i f s).inst i = f (s.inst i) := by
  simp [modInst, State.inst]
@[simp] theorem flt_modFlt (k : Nat) (f : Flt → Flt) (s : State) : (modFlt k f s).flt k = f (s.flt k) := by
  simp [modFlt, setFlt, State.flt]
@[simp] theorem sem_setSem (n : Nat) (r : Sem) (s : State) : (setSem n r s).sem n = r := by simp [setSem, State.sem]
@[simp] theorem queue_setQueue (q : Nat) (r : Queue) (s : State) : (setQueue q r s).queue q = r := by
  simp [setQueue, State.queue]
theorem queue_setQueue_other {q j : Nat} (h : j ≠ q) (r : Queue) (s : State) : (setQueue q r s).queue j = s.queue j := by
  simp [setQueue, State.queue, tget_tset_other _ _ _ h]
@[simp] theorem cfgAt_setCfg (a : Nat) (v : Word) (s : State) : (setCfg a v s).cfgAt a = v := by simp [setCfg, State.cfgAt]
@[simp] theorem sq_setSqc (a : Nat) (bs : List Nat) (s : State) : (setSqc a bs s).sq a = sqcSet bs (s.sq a) := by
  simp [setSqc, State.sq]

/-! ### Fields -/

@[simp] theorem setPort_pending (p : Nat) (r : Port) (s : State) : (setPort p r s).pending = s.pending := rfl
@[simp] theorem setPort_free (p : Nat) (r : Port) (s : State) : (setPort p r s).free = s.free := rfl
@[simp] theorem setPort_wire (p : Nat) (r : Port) (s : State) : (setPort p r s).wire = s.wire := rfl
@[simp] theorem setPort_part (p : Nat) (r : Port) (s : State) : (setPort p r s).part = s.part := rfl
@[simp] theorem setPort_otp (p : Nat) (r : Port) (s : State) : (setPort p r s).otp = s.otp := rfl
@[simp] theorem setPort_dev (p : Nat) (r : Port) (s : State) : (setPort p r s).dev = s.dev := rfl
@[simp] theorem setPort_power (p : Nat) (r : Port) (s : State) : (setPort p r s).power = s.power := rfl
@[simp] theorem setPort_warm (p : Nat) (r : Port) (s : State) : (setPort p r s).warm = s.warm := rfl
@[simp] theorem setPort_lich (p : Nat) (r : Port) (s : State) : (setPort p r s).lich = s.lich := rfl
@[simp] theorem setPort_hostA (p : Nat) (r : Port) (s : State) : (setPort p r s).hostA = s.hostA := rfl
@[simp] theorem setPort_hostB (p : Nat) (r : Port) (s : State) : (setPort p r s).hostB = s.hostB := rfl
@[simp] theorem setPort_arrivals (p : Nat) (r : Port) (s : State) : (setPort p r s).arrivals = s.arrivals := rfl
@[simp] theorem setPort_ops (p : Nat) (r : Port) (s : State) : (setPort p r s).ops = s.ops := rfl
@[simp] theorem setPort_lastA (p : Nat) (r : Port) (s : State) : (setPort p r s).lastA = s.lastA := rfl
@[simp] theorem setPort_sems (p : Nat) (r : Port) (s : State) : (setPort p r s).sems = s.sems := rfl
@[simp] theorem setPort_ctxs (p : Nat) (r : Port) (s : State) : (setPort p r s).ctxs = s.ctxs := rfl
@[simp] theorem setPort_xfers (p : Nat) (r : Port) (s : State) : (setPort p r s).xfers = s.xfers := rfl
@[simp] theorem setPort_queues (p : Nat) (r : Port) (s : State) : (setPort p r s).queues = s.queues := rfl
@[simp] theorem setPort_pool (p : Nat) (r : Port) (s : State) : (setPort p r s).pool = s.pool := rfl
@[simp] theorem setPort_ctrl (p : Nat) (r : Port) (s : State) : (setPort p r s).ctrl = s.ctrl := rfl
@[simp] theorem setPort_mail (p : Nat) (r : Port) (s : State) : (setPort p r s).mail = s.mail := rfl
@[simp] theorem setPort_mbx (p : Nat) (r : Port) (s : State) : (setPort p r s).mbx = s.mbx := rfl
@[simp] theorem setPort_peat (p : Nat) (r : Port) (s : State) : (setPort p r s).peat = s.peat := rfl
@[simp] theorem setPort_stok (p : Nat) (r : Port) (s : State) : (setPort p r s).stok = s.stok := rfl
@[simp] theorem setPort_ledger (p : Nat) (r : Port) (s : State) : (setPort p r s).ledger = s.ledger := rfl
@[simp] theorem setPort_test (p : Nat) (r : Port) (s : State) : (setPort p r s).test = s.test := rfl
@[simp] theorem setPort_testQ (p : Nat) (r : Port) (s : State) : (setPort p r s).testQ = s.testQ := rfl
@[simp] theorem setPort_cal (p : Nat) (r : Port) (s : State) : (setPort p r s).cal = s.cal := rfl
@[simp] theorem setPort_flts (p : Nat) (r : Port) (s : State) : (setPort p r s).flts = s.flts := rfl
@[simp] theorem setPort_fltLast (p : Nat) (r : Port) (s : State) : (setPort p r s).fltLast = s.fltLast := rfl
@[simp] theorem setPort_fltWait (p : Nat) (r : Port) (s : State) : (setPort p r s).fltWait = s.fltWait := rfl
@[simp] theorem setPort_fltIn (p : Nat) (r : Port) (s : State) : (setPort p r s).fltIn = s.fltIn := rfl
@[simp] theorem setPort_cans (p : Nat) (r : Port) (s : State) : (setPort p r s).cans = s.cans := rfl
@[simp] theorem setPort_time (p : Nat) (r : Port) (s : State) : (setPort p r s).time = s.time := rfl
@[simp] theorem setPort_feedA (p : Nat) (r : Port) (s : State) : (setPort p r s).feedA = s.feedA := rfl
@[simp] theorem setPort_feedB (p : Nat) (r : Port) (s : State) : (setPort p r s).feedB = s.feedB := rfl
@[simp] theorem setPort_board (p : Nat) (r : Port) (s : State) : (setPort p r s).board = s.board := rfl
@[simp] theorem setPort_svc (p : Nat) (r : Port) (s : State) : (setPort p r s).svc = s.svc := rfl
@[simp] theorem setPort_insts (p : Nat) (r : Port) (s : State) : (setPort p r s).insts = s.insts := rfl
@[simp] theorem setPort_trunks (p : Nat) (r : Port) (s : State) : (setPort p r s).trunks = s.trunks := rfl
@[simp] theorem setPort_net (p : Nat) (r : Port) (s : State) : (setPort p r s).net = s.net := rfl
@[simp] theorem setPort_fw (p : Nat) (r : Port) (s : State) : (setPort p r s).fw = s.fw := rfl
@[simp] theorem setPort_sec (p : Nat) (r : Port) (s : State) : (setPort p r s).sec = s.sec := rfl
@[simp] theorem setPort_cfg (p : Nat) (r : Port) (s : State) : (setPort p r s).cfg = s.cfg := rfl
@[simp] theorem setPort_cfgCopy (p : Nat) (r : Port) (s : State) : (setPort p r s).cfgCopy = s.cfgCopy := rfl
@[simp] theorem setPort_cfgBad (p : Nat) (r : Port) (s : State) : (setPort p r s).cfgBad = s.cfgBad := rfl
@[simp] theorem setPort_cfgHeld (p : Nat) (r : Port) (s : State) : (setPort p r s).cfgHeld = s.cfgHeld := rfl
@[simp] theorem setPort_regHeld (p : Nat) (r : Port) (s : State) : (setPort p r s).regHeld = s.regHeld := rfl
@[simp] theorem setPort_sqc (p : Nat) (r : Port) (s : State) : (setPort p r s).sqc = s.sqc := rfl
@[simp] theorem modPort_pending (p : Nat) (f : Port → Port) (s : State) : (modPort p f s).pending = s.pending := rfl
@[simp] theorem modPort_free (p : Nat) (f : Port → Port) (s : State) : (modPort p f s).free = s.free := rfl
@[simp] theorem modPort_wire (p : Nat) (f : Port → Port) (s : State) : (modPort p f s).wire = s.wire := rfl
@[simp] theorem modPort_part (p : Nat) (f : Port → Port) (s : State) : (modPort p f s).part = s.part := rfl
@[simp] theorem modPort_otp (p : Nat) (f : Port → Port) (s : State) : (modPort p f s).otp = s.otp := rfl
@[simp] theorem modPort_dev (p : Nat) (f : Port → Port) (s : State) : (modPort p f s).dev = s.dev := rfl
@[simp] theorem modPort_power (p : Nat) (f : Port → Port) (s : State) : (modPort p f s).power = s.power := rfl
@[simp] theorem modPort_warm (p : Nat) (f : Port → Port) (s : State) : (modPort p f s).warm = s.warm := rfl
@[simp] theorem modPort_lich (p : Nat) (f : Port → Port) (s : State) : (modPort p f s).lich = s.lich := rfl
@[simp] theorem modPort_hostA (p : Nat) (f : Port → Port) (s : State) : (modPort p f s).hostA = s.hostA := rfl
@[simp] theorem modPort_hostB (p : Nat) (f : Port → Port) (s : State) : (modPort p f s).hostB = s.hostB := rfl
@[simp] theorem modPort_arrivals (p : Nat) (f : Port → Port) (s : State) : (modPort p f s).arrivals = s.arrivals := rfl
@[simp] theorem modPort_ops (p : Nat) (f : Port → Port) (s : State) : (modPort p f s).ops = s.ops := rfl
@[simp] theorem modPort_lastA (p : Nat) (f : Port → Port) (s : State) : (modPort p f s).lastA = s.lastA := rfl
@[simp] theorem modPort_sems (p : Nat) (f : Port → Port) (s : State) : (modPort p f s).sems = s.sems := rfl
@[simp] theorem modPort_ctxs (p : Nat) (f : Port → Port) (s : State) : (modPort p f s).ctxs = s.ctxs := rfl
@[simp] theorem modPort_xfers (p : Nat) (f : Port → Port) (s : State) : (modPort p f s).xfers = s.xfers := rfl
@[simp] theorem modPort_queues (p : Nat) (f : Port → Port) (s : State) : (modPort p f s).queues = s.queues := rfl
@[simp] theorem modPort_pool (p : Nat) (f : Port → Port) (s : State) : (modPort p f s).pool = s.pool := rfl
@[simp] theorem modPort_ctrl (p : Nat) (f : Port → Port) (s : State) : (modPort p f s).ctrl = s.ctrl := rfl
@[simp] theorem modPort_mail (p : Nat) (f : Port → Port) (s : State) : (modPort p f s).mail = s.mail := rfl
@[simp] theorem modPort_mbx (p : Nat) (f : Port → Port) (s : State) : (modPort p f s).mbx = s.mbx := rfl
@[simp] theorem modPort_peat (p : Nat) (f : Port → Port) (s : State) : (modPort p f s).peat = s.peat := rfl
@[simp] theorem modPort_stok (p : Nat) (f : Port → Port) (s : State) : (modPort p f s).stok = s.stok := rfl
@[simp] theorem modPort_ledger (p : Nat) (f : Port → Port) (s : State) : (modPort p f s).ledger = s.ledger := rfl
@[simp] theorem modPort_test (p : Nat) (f : Port → Port) (s : State) : (modPort p f s).test = s.test := rfl
@[simp] theorem modPort_testQ (p : Nat) (f : Port → Port) (s : State) : (modPort p f s).testQ = s.testQ := rfl
@[simp] theorem modPort_cal (p : Nat) (f : Port → Port) (s : State) : (modPort p f s).cal = s.cal := rfl
@[simp] theorem modPort_flts (p : Nat) (f : Port → Port) (s : State) : (modPort p f s).flts = s.flts := rfl
@[simp] theorem modPort_fltLast (p : Nat) (f : Port → Port) (s : State) : (modPort p f s).fltLast = s.fltLast := rfl
@[simp] theorem modPort_fltWait (p : Nat) (f : Port → Port) (s : State) : (modPort p f s).fltWait = s.fltWait := rfl
@[simp] theorem modPort_fltIn (p : Nat) (f : Port → Port) (s : State) : (modPort p f s).fltIn = s.fltIn := rfl
@[simp] theorem modPort_cans (p : Nat) (f : Port → Port) (s : State) : (modPort p f s).cans = s.cans := rfl
@[simp] theorem modPort_time (p : Nat) (f : Port → Port) (s : State) : (modPort p f s).time = s.time := rfl
@[simp] theorem modPort_feedA (p : Nat) (f : Port → Port) (s : State) : (modPort p f s).feedA = s.feedA := rfl
@[simp] theorem modPort_feedB (p : Nat) (f : Port → Port) (s : State) : (modPort p f s).feedB = s.feedB := rfl
@[simp] theorem modPort_board (p : Nat) (f : Port → Port) (s : State) : (modPort p f s).board = s.board := rfl
@[simp] theorem modPort_svc (p : Nat) (f : Port → Port) (s : State) : (modPort p f s).svc = s.svc := rfl
@[simp] theorem modPort_insts (p : Nat) (f : Port → Port) (s : State) : (modPort p f s).insts = s.insts := rfl
@[simp] theorem modPort_trunks (p : Nat) (f : Port → Port) (s : State) : (modPort p f s).trunks = s.trunks := rfl
@[simp] theorem modPort_net (p : Nat) (f : Port → Port) (s : State) : (modPort p f s).net = s.net := rfl
@[simp] theorem modPort_fw (p : Nat) (f : Port → Port) (s : State) : (modPort p f s).fw = s.fw := rfl
@[simp] theorem modPort_sec (p : Nat) (f : Port → Port) (s : State) : (modPort p f s).sec = s.sec := rfl
@[simp] theorem modPort_cfg (p : Nat) (f : Port → Port) (s : State) : (modPort p f s).cfg = s.cfg := rfl
@[simp] theorem modPort_cfgCopy (p : Nat) (f : Port → Port) (s : State) : (modPort p f s).cfgCopy = s.cfgCopy := rfl
@[simp] theorem modPort_cfgBad (p : Nat) (f : Port → Port) (s : State) : (modPort p f s).cfgBad = s.cfgBad := rfl
@[simp] theorem modPort_cfgHeld (p : Nat) (f : Port → Port) (s : State) : (modPort p f s).cfgHeld = s.cfgHeld := rfl
@[simp] theorem modPort_regHeld (p : Nat) (f : Port → Port) (s : State) : (modPort p f s).regHeld = s.regHeld := rfl
@[simp] theorem modPort_sqc (p : Nat) (f : Port → Port) (s : State) : (modPort p f s).sqc = s.sqc := rfl
@[simp] theorem modPd_pending (p : Nat) (f : PdRec → PdRec) (s : State) : (modPd p f s).pending = s.pending := rfl
@[simp] theorem modPd_free (p : Nat) (f : PdRec → PdRec) (s : State) : (modPd p f s).free = s.free := rfl
@[simp] theorem modPd_wire (p : Nat) (f : PdRec → PdRec) (s : State) : (modPd p f s).wire = s.wire := rfl
@[simp] theorem modPd_part (p : Nat) (f : PdRec → PdRec) (s : State) : (modPd p f s).part = s.part := rfl
@[simp] theorem modPd_otp (p : Nat) (f : PdRec → PdRec) (s : State) : (modPd p f s).otp = s.otp := rfl
@[simp] theorem modPd_dev (p : Nat) (f : PdRec → PdRec) (s : State) : (modPd p f s).dev = s.dev := rfl
@[simp] theorem modPd_power (p : Nat) (f : PdRec → PdRec) (s : State) : (modPd p f s).power = s.power := rfl
@[simp] theorem modPd_warm (p : Nat) (f : PdRec → PdRec) (s : State) : (modPd p f s).warm = s.warm := rfl
@[simp] theorem modPd_lich (p : Nat) (f : PdRec → PdRec) (s : State) : (modPd p f s).lich = s.lich := rfl
@[simp] theorem modPd_hostA (p : Nat) (f : PdRec → PdRec) (s : State) : (modPd p f s).hostA = s.hostA := rfl
@[simp] theorem modPd_hostB (p : Nat) (f : PdRec → PdRec) (s : State) : (modPd p f s).hostB = s.hostB := rfl
@[simp] theorem modPd_arrivals (p : Nat) (f : PdRec → PdRec) (s : State) : (modPd p f s).arrivals = s.arrivals := rfl
@[simp] theorem modPd_ops (p : Nat) (f : PdRec → PdRec) (s : State) : (modPd p f s).ops = s.ops := rfl
@[simp] theorem modPd_lastA (p : Nat) (f : PdRec → PdRec) (s : State) : (modPd p f s).lastA = s.lastA := rfl
@[simp] theorem modPd_sems (p : Nat) (f : PdRec → PdRec) (s : State) : (modPd p f s).sems = s.sems := rfl
@[simp] theorem modPd_ctxs (p : Nat) (f : PdRec → PdRec) (s : State) : (modPd p f s).ctxs = s.ctxs := rfl
@[simp] theorem modPd_xfers (p : Nat) (f : PdRec → PdRec) (s : State) : (modPd p f s).xfers = s.xfers := rfl
@[simp] theorem modPd_queues (p : Nat) (f : PdRec → PdRec) (s : State) : (modPd p f s).queues = s.queues := rfl
@[simp] theorem modPd_pool (p : Nat) (f : PdRec → PdRec) (s : State) : (modPd p f s).pool = s.pool := rfl
@[simp] theorem modPd_ctrl (p : Nat) (f : PdRec → PdRec) (s : State) : (modPd p f s).ctrl = s.ctrl := rfl
@[simp] theorem modPd_mail (p : Nat) (f : PdRec → PdRec) (s : State) : (modPd p f s).mail = s.mail := rfl
@[simp] theorem modPd_mbx (p : Nat) (f : PdRec → PdRec) (s : State) : (modPd p f s).mbx = s.mbx := rfl
@[simp] theorem modPd_peat (p : Nat) (f : PdRec → PdRec) (s : State) : (modPd p f s).peat = s.peat := rfl
@[simp] theorem modPd_stok (p : Nat) (f : PdRec → PdRec) (s : State) : (modPd p f s).stok = s.stok := rfl
@[simp] theorem modPd_ledger (p : Nat) (f : PdRec → PdRec) (s : State) : (modPd p f s).ledger = s.ledger := rfl
@[simp] theorem modPd_test (p : Nat) (f : PdRec → PdRec) (s : State) : (modPd p f s).test = s.test := rfl
@[simp] theorem modPd_testQ (p : Nat) (f : PdRec → PdRec) (s : State) : (modPd p f s).testQ = s.testQ := rfl
@[simp] theorem modPd_cal (p : Nat) (f : PdRec → PdRec) (s : State) : (modPd p f s).cal = s.cal := rfl
@[simp] theorem modPd_flts (p : Nat) (f : PdRec → PdRec) (s : State) : (modPd p f s).flts = s.flts := rfl
@[simp] theorem modPd_fltLast (p : Nat) (f : PdRec → PdRec) (s : State) : (modPd p f s).fltLast = s.fltLast := rfl
@[simp] theorem modPd_fltWait (p : Nat) (f : PdRec → PdRec) (s : State) : (modPd p f s).fltWait = s.fltWait := rfl
@[simp] theorem modPd_fltIn (p : Nat) (f : PdRec → PdRec) (s : State) : (modPd p f s).fltIn = s.fltIn := rfl
@[simp] theorem modPd_cans (p : Nat) (f : PdRec → PdRec) (s : State) : (modPd p f s).cans = s.cans := rfl
@[simp] theorem modPd_time (p : Nat) (f : PdRec → PdRec) (s : State) : (modPd p f s).time = s.time := rfl
@[simp] theorem modPd_feedA (p : Nat) (f : PdRec → PdRec) (s : State) : (modPd p f s).feedA = s.feedA := rfl
@[simp] theorem modPd_feedB (p : Nat) (f : PdRec → PdRec) (s : State) : (modPd p f s).feedB = s.feedB := rfl
@[simp] theorem modPd_board (p : Nat) (f : PdRec → PdRec) (s : State) : (modPd p f s).board = s.board := rfl
@[simp] theorem modPd_svc (p : Nat) (f : PdRec → PdRec) (s : State) : (modPd p f s).svc = s.svc := rfl
@[simp] theorem modPd_insts (p : Nat) (f : PdRec → PdRec) (s : State) : (modPd p f s).insts = s.insts := rfl
@[simp] theorem modPd_trunks (p : Nat) (f : PdRec → PdRec) (s : State) : (modPd p f s).trunks = s.trunks := rfl
@[simp] theorem modPd_net (p : Nat) (f : PdRec → PdRec) (s : State) : (modPd p f s).net = s.net := rfl
@[simp] theorem modPd_fw (p : Nat) (f : PdRec → PdRec) (s : State) : (modPd p f s).fw = s.fw := rfl
@[simp] theorem modPd_sec (p : Nat) (f : PdRec → PdRec) (s : State) : (modPd p f s).sec = s.sec := rfl
@[simp] theorem modPd_cfg (p : Nat) (f : PdRec → PdRec) (s : State) : (modPd p f s).cfg = s.cfg := rfl
@[simp] theorem modPd_cfgCopy (p : Nat) (f : PdRec → PdRec) (s : State) : (modPd p f s).cfgCopy = s.cfgCopy := rfl
@[simp] theorem modPd_cfgBad (p : Nat) (f : PdRec → PdRec) (s : State) : (modPd p f s).cfgBad = s.cfgBad := rfl
@[simp] theorem modPd_cfgHeld (p : Nat) (f : PdRec → PdRec) (s : State) : (modPd p f s).cfgHeld = s.cfgHeld := rfl
@[simp] theorem modPd_regHeld (p : Nat) (f : PdRec → PdRec) (s : State) : (modPd p f s).regHeld = s.regHeld := rfl
@[simp] theorem modPd_sqc (p : Nat) (f : PdRec → PdRec) (s : State) : (modPd p f s).sqc = s.sqc := rfl
@[simp] theorem setCtx_pending (e : Nat) (c : Ctx) (s : State) : (setCtx e c s).pending = s.pending := rfl
@[simp] theorem setCtx_free (e : Nat) (c : Ctx) (s : State) : (setCtx e c s).free = s.free := rfl
@[simp] theorem setCtx_wire (e : Nat) (c : Ctx) (s : State) : (setCtx e c s).wire = s.wire := rfl
@[simp] theorem setCtx_part (e : Nat) (c : Ctx) (s : State) : (setCtx e c s).part = s.part := rfl
@[simp] theorem setCtx_otp (e : Nat) (c : Ctx) (s : State) : (setCtx e c s).otp = s.otp := rfl
@[simp] theorem setCtx_dev (e : Nat) (c : Ctx) (s : State) : (setCtx e c s).dev = s.dev := rfl
@[simp] theorem setCtx_power (e : Nat) (c : Ctx) (s : State) : (setCtx e c s).power = s.power := rfl
@[simp] theorem setCtx_warm (e : Nat) (c : Ctx) (s : State) : (setCtx e c s).warm = s.warm := rfl
@[simp] theorem setCtx_lich (e : Nat) (c : Ctx) (s : State) : (setCtx e c s).lich = s.lich := rfl
@[simp] theorem setCtx_hostA (e : Nat) (c : Ctx) (s : State) : (setCtx e c s).hostA = s.hostA := rfl
@[simp] theorem setCtx_hostB (e : Nat) (c : Ctx) (s : State) : (setCtx e c s).hostB = s.hostB := rfl
@[simp] theorem setCtx_arrivals (e : Nat) (c : Ctx) (s : State) : (setCtx e c s).arrivals = s.arrivals := rfl
@[simp] theorem setCtx_ops (e : Nat) (c : Ctx) (s : State) : (setCtx e c s).ops = s.ops := rfl
@[simp] theorem setCtx_lastA (e : Nat) (c : Ctx) (s : State) : (setCtx e c s).lastA = s.lastA := rfl
@[simp] theorem setCtx_sems (e : Nat) (c : Ctx) (s : State) : (setCtx e c s).sems = s.sems := rfl
@[simp] theorem setCtx_ports (e : Nat) (c : Ctx) (s : State) : (setCtx e c s).ports = s.ports := rfl
@[simp] theorem setCtx_xfers (e : Nat) (c : Ctx) (s : State) : (setCtx e c s).xfers = s.xfers := rfl
@[simp] theorem setCtx_queues (e : Nat) (c : Ctx) (s : State) : (setCtx e c s).queues = s.queues := rfl
@[simp] theorem setCtx_pool (e : Nat) (c : Ctx) (s : State) : (setCtx e c s).pool = s.pool := rfl
@[simp] theorem setCtx_ctrl (e : Nat) (c : Ctx) (s : State) : (setCtx e c s).ctrl = s.ctrl := rfl
@[simp] theorem setCtx_mail (e : Nat) (c : Ctx) (s : State) : (setCtx e c s).mail = s.mail := rfl
@[simp] theorem setCtx_mbx (e : Nat) (c : Ctx) (s : State) : (setCtx e c s).mbx = s.mbx := rfl
@[simp] theorem setCtx_peat (e : Nat) (c : Ctx) (s : State) : (setCtx e c s).peat = s.peat := rfl
@[simp] theorem setCtx_stok (e : Nat) (c : Ctx) (s : State) : (setCtx e c s).stok = s.stok := rfl
@[simp] theorem setCtx_ledger (e : Nat) (c : Ctx) (s : State) : (setCtx e c s).ledger = s.ledger := rfl
@[simp] theorem setCtx_test (e : Nat) (c : Ctx) (s : State) : (setCtx e c s).test = s.test := rfl
@[simp] theorem setCtx_testQ (e : Nat) (c : Ctx) (s : State) : (setCtx e c s).testQ = s.testQ := rfl
@[simp] theorem setCtx_cal (e : Nat) (c : Ctx) (s : State) : (setCtx e c s).cal = s.cal := rfl
@[simp] theorem setCtx_flts (e : Nat) (c : Ctx) (s : State) : (setCtx e c s).flts = s.flts := rfl
@[simp] theorem setCtx_fltLast (e : Nat) (c : Ctx) (s : State) : (setCtx e c s).fltLast = s.fltLast := rfl
@[simp] theorem setCtx_fltWait (e : Nat) (c : Ctx) (s : State) : (setCtx e c s).fltWait = s.fltWait := rfl
@[simp] theorem setCtx_fltIn (e : Nat) (c : Ctx) (s : State) : (setCtx e c s).fltIn = s.fltIn := rfl
@[simp] theorem setCtx_cans (e : Nat) (c : Ctx) (s : State) : (setCtx e c s).cans = s.cans := rfl
@[simp] theorem setCtx_time (e : Nat) (c : Ctx) (s : State) : (setCtx e c s).time = s.time := rfl
@[simp] theorem setCtx_feedA (e : Nat) (c : Ctx) (s : State) : (setCtx e c s).feedA = s.feedA := rfl
@[simp] theorem setCtx_feedB (e : Nat) (c : Ctx) (s : State) : (setCtx e c s).feedB = s.feedB := rfl
@[simp] theorem setCtx_board (e : Nat) (c : Ctx) (s : State) : (setCtx e c s).board = s.board := rfl
@[simp] theorem setCtx_svc (e : Nat) (c : Ctx) (s : State) : (setCtx e c s).svc = s.svc := rfl
@[simp] theorem setCtx_insts (e : Nat) (c : Ctx) (s : State) : (setCtx e c s).insts = s.insts := rfl
@[simp] theorem setCtx_trunks (e : Nat) (c : Ctx) (s : State) : (setCtx e c s).trunks = s.trunks := rfl
@[simp] theorem setCtx_net (e : Nat) (c : Ctx) (s : State) : (setCtx e c s).net = s.net := rfl
@[simp] theorem setCtx_fw (e : Nat) (c : Ctx) (s : State) : (setCtx e c s).fw = s.fw := rfl
@[simp] theorem setCtx_sec (e : Nat) (c : Ctx) (s : State) : (setCtx e c s).sec = s.sec := rfl
@[simp] theorem setCtx_cfg (e : Nat) (c : Ctx) (s : State) : (setCtx e c s).cfg = s.cfg := rfl
@[simp] theorem setCtx_cfgCopy (e : Nat) (c : Ctx) (s : State) : (setCtx e c s).cfgCopy = s.cfgCopy := rfl
@[simp] theorem setCtx_cfgBad (e : Nat) (c : Ctx) (s : State) : (setCtx e c s).cfgBad = s.cfgBad := rfl
@[simp] theorem setCtx_cfgHeld (e : Nat) (c : Ctx) (s : State) : (setCtx e c s).cfgHeld = s.cfgHeld := rfl
@[simp] theorem setCtx_regHeld (e : Nat) (c : Ctx) (s : State) : (setCtx e c s).regHeld = s.regHeld := rfl
@[simp] theorem setCtx_sqc (e : Nat) (c : Ctx) (s : State) : (setCtx e c s).sqc = s.sqc := rfl
@[simp] theorem modCtx_pending (e : Nat) (f : Ctx → Ctx) (s : State) : (modCtx e f s).pending = s.pending := by unfold modCtx; split <;> rfl
@[simp] theorem modCtx_free (e : Nat) (f : Ctx → Ctx) (s : State) : (modCtx e f s).free = s.free := by unfold modCtx; split <;> rfl
@[simp] theorem modCtx_wire (e : Nat) (f : Ctx → Ctx) (s : State) : (modCtx e f s).wire = s.wire := by unfold modCtx; split <;> rfl
@[simp] theorem modCtx_part (e : Nat) (f : Ctx → Ctx) (s : State) : (modCtx e f s).part = s.part := by unfold modCtx; split <;> rfl
@[simp] theorem modCtx_otp (e : Nat) (f : Ctx → Ctx) (s : State) : (modCtx e f s).otp = s.otp := by unfold modCtx; split <;> rfl
@[simp] theorem modCtx_dev (e : Nat) (f : Ctx → Ctx) (s : State) : (modCtx e f s).dev = s.dev := by unfold modCtx; split <;> rfl
@[simp] theorem modCtx_power (e : Nat) (f : Ctx → Ctx) (s : State) : (modCtx e f s).power = s.power := by unfold modCtx; split <;> rfl
@[simp] theorem modCtx_warm (e : Nat) (f : Ctx → Ctx) (s : State) : (modCtx e f s).warm = s.warm := by unfold modCtx; split <;> rfl
@[simp] theorem modCtx_lich (e : Nat) (f : Ctx → Ctx) (s : State) : (modCtx e f s).lich = s.lich := by unfold modCtx; split <;> rfl
@[simp] theorem modCtx_hostA (e : Nat) (f : Ctx → Ctx) (s : State) : (modCtx e f s).hostA = s.hostA := by unfold modCtx; split <;> rfl
@[simp] theorem modCtx_hostB (e : Nat) (f : Ctx → Ctx) (s : State) : (modCtx e f s).hostB = s.hostB := by unfold modCtx; split <;> rfl
@[simp] theorem modCtx_arrivals (e : Nat) (f : Ctx → Ctx) (s : State) : (modCtx e f s).arrivals = s.arrivals := by unfold modCtx; split <;> rfl
@[simp] theorem modCtx_ops (e : Nat) (f : Ctx → Ctx) (s : State) : (modCtx e f s).ops = s.ops := by unfold modCtx; split <;> rfl
@[simp] theorem modCtx_lastA (e : Nat) (f : Ctx → Ctx) (s : State) : (modCtx e f s).lastA = s.lastA := by unfold modCtx; split <;> rfl
@[simp] theorem modCtx_sems (e : Nat) (f : Ctx → Ctx) (s : State) : (modCtx e f s).sems = s.sems := by unfold modCtx; split <;> rfl
@[simp] theorem modCtx_ports (e : Nat) (f : Ctx → Ctx) (s : State) : (modCtx e f s).ports = s.ports := by unfold modCtx; split <;> rfl
@[simp] theorem modCtx_xfers (e : Nat) (f : Ctx → Ctx) (s : State) : (modCtx e f s).xfers = s.xfers := by unfold modCtx; split <;> rfl
@[simp] theorem modCtx_queues (e : Nat) (f : Ctx → Ctx) (s : State) : (modCtx e f s).queues = s.queues := by unfold modCtx; split <;> rfl
@[simp] theorem modCtx_pool (e : Nat) (f : Ctx → Ctx) (s : State) : (modCtx e f s).pool = s.pool := by unfold modCtx; split <;> rfl
@[simp] theorem modCtx_ctrl (e : Nat) (f : Ctx → Ctx) (s : State) : (modCtx e f s).ctrl = s.ctrl := by unfold modCtx; split <;> rfl
@[simp] theorem modCtx_mail (e : Nat) (f : Ctx → Ctx) (s : State) : (modCtx e f s).mail = s.mail := by unfold modCtx; split <;> rfl
@[simp] theorem modCtx_mbx (e : Nat) (f : Ctx → Ctx) (s : State) : (modCtx e f s).mbx = s.mbx := by unfold modCtx; split <;> rfl
@[simp] theorem modCtx_peat (e : Nat) (f : Ctx → Ctx) (s : State) : (modCtx e f s).peat = s.peat := by unfold modCtx; split <;> rfl
@[simp] theorem modCtx_stok (e : Nat) (f : Ctx → Ctx) (s : State) : (modCtx e f s).stok = s.stok := by unfold modCtx; split <;> rfl
@[simp] theorem modCtx_ledger (e : Nat) (f : Ctx → Ctx) (s : State) : (modCtx e f s).ledger = s.ledger := by unfold modCtx; split <;> rfl
@[simp] theorem modCtx_test (e : Nat) (f : Ctx → Ctx) (s : State) : (modCtx e f s).test = s.test := by unfold modCtx; split <;> rfl
@[simp] theorem modCtx_testQ (e : Nat) (f : Ctx → Ctx) (s : State) : (modCtx e f s).testQ = s.testQ := by unfold modCtx; split <;> rfl
@[simp] theorem modCtx_cal (e : Nat) (f : Ctx → Ctx) (s : State) : (modCtx e f s).cal = s.cal := by unfold modCtx; split <;> rfl
@[simp] theorem modCtx_flts (e : Nat) (f : Ctx → Ctx) (s : State) : (modCtx e f s).flts = s.flts := by unfold modCtx; split <;> rfl
@[simp] theorem modCtx_fltLast (e : Nat) (f : Ctx → Ctx) (s : State) : (modCtx e f s).fltLast = s.fltLast := by unfold modCtx; split <;> rfl
@[simp] theorem modCtx_fltWait (e : Nat) (f : Ctx → Ctx) (s : State) : (modCtx e f s).fltWait = s.fltWait := by unfold modCtx; split <;> rfl
@[simp] theorem modCtx_fltIn (e : Nat) (f : Ctx → Ctx) (s : State) : (modCtx e f s).fltIn = s.fltIn := by unfold modCtx; split <;> rfl
@[simp] theorem modCtx_cans (e : Nat) (f : Ctx → Ctx) (s : State) : (modCtx e f s).cans = s.cans := by unfold modCtx; split <;> rfl
@[simp] theorem modCtx_time (e : Nat) (f : Ctx → Ctx) (s : State) : (modCtx e f s).time = s.time := by unfold modCtx; split <;> rfl
@[simp] theorem modCtx_feedA (e : Nat) (f : Ctx → Ctx) (s : State) : (modCtx e f s).feedA = s.feedA := by unfold modCtx; split <;> rfl
@[simp] theorem modCtx_feedB (e : Nat) (f : Ctx → Ctx) (s : State) : (modCtx e f s).feedB = s.feedB := by unfold modCtx; split <;> rfl
@[simp] theorem modCtx_board (e : Nat) (f : Ctx → Ctx) (s : State) : (modCtx e f s).board = s.board := by unfold modCtx; split <;> rfl
@[simp] theorem modCtx_svc (e : Nat) (f : Ctx → Ctx) (s : State) : (modCtx e f s).svc = s.svc := by unfold modCtx; split <;> rfl
@[simp] theorem modCtx_insts (e : Nat) (f : Ctx → Ctx) (s : State) : (modCtx e f s).insts = s.insts := by unfold modCtx; split <;> rfl
@[simp] theorem modCtx_trunks (e : Nat) (f : Ctx → Ctx) (s : State) : (modCtx e f s).trunks = s.trunks := by unfold modCtx; split <;> rfl
@[simp] theorem modCtx_net (e : Nat) (f : Ctx → Ctx) (s : State) : (modCtx e f s).net = s.net := by unfold modCtx; split <;> rfl
@[simp] theorem modCtx_fw (e : Nat) (f : Ctx → Ctx) (s : State) : (modCtx e f s).fw = s.fw := by unfold modCtx; split <;> rfl
@[simp] theorem modCtx_sec (e : Nat) (f : Ctx → Ctx) (s : State) : (modCtx e f s).sec = s.sec := by unfold modCtx; split <;> rfl
@[simp] theorem modCtx_cfg (e : Nat) (f : Ctx → Ctx) (s : State) : (modCtx e f s).cfg = s.cfg := by unfold modCtx; split <;> rfl
@[simp] theorem modCtx_cfgCopy (e : Nat) (f : Ctx → Ctx) (s : State) : (modCtx e f s).cfgCopy = s.cfgCopy := by unfold modCtx; split <;> rfl
@[simp] theorem modCtx_cfgBad (e : Nat) (f : Ctx → Ctx) (s : State) : (modCtx e f s).cfgBad = s.cfgBad := by unfold modCtx; split <;> rfl
@[simp] theorem modCtx_cfgHeld (e : Nat) (f : Ctx → Ctx) (s : State) : (modCtx e f s).cfgHeld = s.cfgHeld := by unfold modCtx; split <;> rfl
@[simp] theorem modCtx_regHeld (e : Nat) (f : Ctx → Ctx) (s : State) : (modCtx e f s).regHeld = s.regHeld := by unfold modCtx; split <;> rfl
@[simp] theorem modCtx_sqc (e : Nat) (f : Ctx → Ctx) (s : State) : (modCtx e f s).sqc = s.sqc := by unfold modCtx; split <;> rfl
@[simp] theorem setHost_pending (h : HostId) (r : HostRec) (s : State) : (setHost h r s).pending = s.pending := by cases h <;> rfl
@[simp] theorem setHost_free (h : HostId) (r : HostRec) (s : State) : (setHost h r s).free = s.free := by cases h <;> rfl
@[simp] theorem setHost_wire (h : HostId) (r : HostRec) (s : State) : (setHost h r s).wire = s.wire := by cases h <;> rfl
@[simp] theorem setHost_part (h : HostId) (r : HostRec) (s : State) : (setHost h r s).part = s.part := by cases h <;> rfl
@[simp] theorem setHost_otp (h : HostId) (r : HostRec) (s : State) : (setHost h r s).otp = s.otp := by cases h <;> rfl
@[simp] theorem setHost_dev (h : HostId) (r : HostRec) (s : State) : (setHost h r s).dev = s.dev := by cases h <;> rfl
@[simp] theorem setHost_power (h : HostId) (r : HostRec) (s : State) : (setHost h r s).power = s.power := by cases h <;> rfl
@[simp] theorem setHost_warm (h : HostId) (r : HostRec) (s : State) : (setHost h r s).warm = s.warm := by cases h <;> rfl
@[simp] theorem setHost_lich (h : HostId) (r : HostRec) (s : State) : (setHost h r s).lich = s.lich := by cases h <;> rfl
@[simp] theorem setHost_arrivals (h : HostId) (r : HostRec) (s : State) : (setHost h r s).arrivals = s.arrivals := by cases h <;> rfl
@[simp] theorem setHost_ops (h : HostId) (r : HostRec) (s : State) : (setHost h r s).ops = s.ops := by cases h <;> rfl
@[simp] theorem setHost_lastA (h : HostId) (r : HostRec) (s : State) : (setHost h r s).lastA = s.lastA := by cases h <;> rfl
@[simp] theorem setHost_sems (h : HostId) (r : HostRec) (s : State) : (setHost h r s).sems = s.sems := by cases h <;> rfl
@[simp] theorem setHost_ports (h : HostId) (r : HostRec) (s : State) : (setHost h r s).ports = s.ports := by cases h <;> rfl
@[simp] theorem setHost_ctxs (h : HostId) (r : HostRec) (s : State) : (setHost h r s).ctxs = s.ctxs := by cases h <;> rfl
@[simp] theorem setHost_xfers (h : HostId) (r : HostRec) (s : State) : (setHost h r s).xfers = s.xfers := by cases h <;> rfl
@[simp] theorem setHost_queues (h : HostId) (r : HostRec) (s : State) : (setHost h r s).queues = s.queues := by cases h <;> rfl
@[simp] theorem setHost_pool (h : HostId) (r : HostRec) (s : State) : (setHost h r s).pool = s.pool := by cases h <;> rfl
@[simp] theorem setHost_ctrl (h : HostId) (r : HostRec) (s : State) : (setHost h r s).ctrl = s.ctrl := by cases h <;> rfl
@[simp] theorem setHost_mail (h : HostId) (r : HostRec) (s : State) : (setHost h r s).mail = s.mail := by cases h <;> rfl
@[simp] theorem setHost_mbx (h : HostId) (r : HostRec) (s : State) : (setHost h r s).mbx = s.mbx := by cases h <;> rfl
@[simp] theorem setHost_peat (h : HostId) (r : HostRec) (s : State) : (setHost h r s).peat = s.peat := by cases h <;> rfl
@[simp] theorem setHost_stok (h : HostId) (r : HostRec) (s : State) : (setHost h r s).stok = s.stok := by cases h <;> rfl
@[simp] theorem setHost_ledger (h : HostId) (r : HostRec) (s : State) : (setHost h r s).ledger = s.ledger := by cases h <;> rfl
@[simp] theorem setHost_test (h : HostId) (r : HostRec) (s : State) : (setHost h r s).test = s.test := by cases h <;> rfl
@[simp] theorem setHost_testQ (h : HostId) (r : HostRec) (s : State) : (setHost h r s).testQ = s.testQ := by cases h <;> rfl
@[simp] theorem setHost_cal (h : HostId) (r : HostRec) (s : State) : (setHost h r s).cal = s.cal := by cases h <;> rfl
@[simp] theorem setHost_flts (h : HostId) (r : HostRec) (s : State) : (setHost h r s).flts = s.flts := by cases h <;> rfl
@[simp] theorem setHost_fltLast (h : HostId) (r : HostRec) (s : State) : (setHost h r s).fltLast = s.fltLast := by cases h <;> rfl
@[simp] theorem setHost_fltWait (h : HostId) (r : HostRec) (s : State) : (setHost h r s).fltWait = s.fltWait := by cases h <;> rfl
@[simp] theorem setHost_fltIn (h : HostId) (r : HostRec) (s : State) : (setHost h r s).fltIn = s.fltIn := by cases h <;> rfl
@[simp] theorem setHost_cans (h : HostId) (r : HostRec) (s : State) : (setHost h r s).cans = s.cans := by cases h <;> rfl
@[simp] theorem setHost_time (h : HostId) (r : HostRec) (s : State) : (setHost h r s).time = s.time := by cases h <;> rfl
@[simp] theorem setHost_feedA (h : HostId) (r : HostRec) (s : State) : (setHost h r s).feedA = s.feedA := by cases h <;> rfl
@[simp] theorem setHost_feedB (h : HostId) (r : HostRec) (s : State) : (setHost h r s).feedB = s.feedB := by cases h <;> rfl
@[simp] theorem setHost_board (h : HostId) (r : HostRec) (s : State) : (setHost h r s).board = s.board := by cases h <;> rfl
@[simp] theorem setHost_svc (h : HostId) (r : HostRec) (s : State) : (setHost h r s).svc = s.svc := by cases h <;> rfl
@[simp] theorem setHost_insts (h : HostId) (r : HostRec) (s : State) : (setHost h r s).insts = s.insts := by cases h <;> rfl
@[simp] theorem setHost_trunks (h : HostId) (r : HostRec) (s : State) : (setHost h r s).trunks = s.trunks := by cases h <;> rfl
@[simp] theorem setHost_net (h : HostId) (r : HostRec) (s : State) : (setHost h r s).net = s.net := by cases h <;> rfl
@[simp] theorem setHost_fw (h : HostId) (r : HostRec) (s : State) : (setHost h r s).fw = s.fw := by cases h <;> rfl
@[simp] theorem setHost_sec (h : HostId) (r : HostRec) (s : State) : (setHost h r s).sec = s.sec := by cases h <;> rfl
@[simp] theorem setHost_cfg (h : HostId) (r : HostRec) (s : State) : (setHost h r s).cfg = s.cfg := by cases h <;> rfl
@[simp] theorem setHost_cfgCopy (h : HostId) (r : HostRec) (s : State) : (setHost h r s).cfgCopy = s.cfgCopy := by cases h <;> rfl
@[simp] theorem setHost_cfgBad (h : HostId) (r : HostRec) (s : State) : (setHost h r s).cfgBad = s.cfgBad := by cases h <;> rfl
@[simp] theorem setHost_cfgHeld (h : HostId) (r : HostRec) (s : State) : (setHost h r s).cfgHeld = s.cfgHeld := by cases h <;> rfl
@[simp] theorem setHost_regHeld (h : HostId) (r : HostRec) (s : State) : (setHost h r s).regHeld = s.regHeld := by cases h <;> rfl
@[simp] theorem setHost_sqc (h : HostId) (r : HostRec) (s : State) : (setHost h r s).sqc = s.sqc := by cases h <;> rfl
@[simp] theorem modHost_pending (h : HostId) (f : HostRec → HostRec) (s : State) : (modHost h f s).pending = s.pending := by cases h <;> rfl
@[simp] theorem modHost_free (h : HostId) (f : HostRec → HostRec) (s : State) : (modHost h f s).free = s.free := by cases h <;> rfl
@[simp] theorem modHost_wire (h : HostId) (f : HostRec → HostRec) (s : State) : (modHost h f s).wire = s.wire := by cases h <;> rfl
@[simp] theorem modHost_part (h : HostId) (f : HostRec → HostRec) (s : State) : (modHost h f s).part = s.part := by cases h <;> rfl
@[simp] theorem modHost_otp (h : HostId) (f : HostRec → HostRec) (s : State) : (modHost h f s).otp = s.otp := by cases h <;> rfl
@[simp] theorem modHost_dev (h : HostId) (f : HostRec → HostRec) (s : State) : (modHost h f s).dev = s.dev := by cases h <;> rfl
@[simp] theorem modHost_power (h : HostId) (f : HostRec → HostRec) (s : State) : (modHost h f s).power = s.power := by cases h <;> rfl
@[simp] theorem modHost_warm (h : HostId) (f : HostRec → HostRec) (s : State) : (modHost h f s).warm = s.warm := by cases h <;> rfl
@[simp] theorem modHost_lich (h : HostId) (f : HostRec → HostRec) (s : State) : (modHost h f s).lich = s.lich := by cases h <;> rfl
@[simp] theorem modHost_arrivals (h : HostId) (f : HostRec → HostRec) (s : State) : (modHost h f s).arrivals = s.arrivals := by cases h <;> rfl
@[simp] theorem modHost_ops (h : HostId) (f : HostRec → HostRec) (s : State) : (modHost h f s).ops = s.ops := by cases h <;> rfl
@[simp] theorem modHost_lastA (h : HostId) (f : HostRec → HostRec) (s : State) : (modHost h f s).lastA = s.lastA := by cases h <;> rfl
@[simp] theorem modHost_sems (h : HostId) (f : HostRec → HostRec) (s : State) : (modHost h f s).sems = s.sems := by cases h <;> rfl
@[simp] theorem modHost_ports (h : HostId) (f : HostRec → HostRec) (s : State) : (modHost h f s).ports = s.ports := by cases h <;> rfl
@[simp] theorem modHost_ctxs (h : HostId) (f : HostRec → HostRec) (s : State) : (modHost h f s).ctxs = s.ctxs := by cases h <;> rfl
@[simp] theorem modHost_xfers (h : HostId) (f : HostRec → HostRec) (s : State) : (modHost h f s).xfers = s.xfers := by cases h <;> rfl
@[simp] theorem modHost_queues (h : HostId) (f : HostRec → HostRec) (s : State) : (modHost h f s).queues = s.queues := by cases h <;> rfl
@[simp] theorem modHost_pool (h : HostId) (f : HostRec → HostRec) (s : State) : (modHost h f s).pool = s.pool := by cases h <;> rfl
@[simp] theorem modHost_ctrl (h : HostId) (f : HostRec → HostRec) (s : State) : (modHost h f s).ctrl = s.ctrl := by cases h <;> rfl
@[simp] theorem modHost_mail (h : HostId) (f : HostRec → HostRec) (s : State) : (modHost h f s).mail = s.mail := by cases h <;> rfl
@[simp] theorem modHost_mbx (h : HostId) (f : HostRec → HostRec) (s : State) : (modHost h f s).mbx = s.mbx := by cases h <;> rfl
@[simp] theorem modHost_peat (h : HostId) (f : HostRec → HostRec) (s : State) : (modHost h f s).peat = s.peat := by cases h <;> rfl
@[simp] theorem modHost_stok (h : HostId) (f : HostRec → HostRec) (s : State) : (modHost h f s).stok = s.stok := by cases h <;> rfl
@[simp] theorem modHost_ledger (h : HostId) (f : HostRec → HostRec) (s : State) : (modHost h f s).ledger = s.ledger := by cases h <;> rfl
@[simp] theorem modHost_test (h : HostId) (f : HostRec → HostRec) (s : State) : (modHost h f s).test = s.test := by cases h <;> rfl
@[simp] theorem modHost_testQ (h : HostId) (f : HostRec → HostRec) (s : State) : (modHost h f s).testQ = s.testQ := by cases h <;> rfl
@[simp] theorem modHost_cal (h : HostId) (f : HostRec → HostRec) (s : State) : (modHost h f s).cal = s.cal := by cases h <;> rfl
@[simp] theorem modHost_flts (h : HostId) (f : HostRec → HostRec) (s : State) : (modHost h f s).flts = s.flts := by cases h <;> rfl
@[simp] theorem modHost_fltLast (h : HostId) (f : HostRec → HostRec) (s : State) : (modHost h f s).fltLast = s.fltLast := by cases h <;> rfl
@[simp] theorem modHost_fltWait (h : HostId) (f : HostRec → HostRec) (s : State) : (modHost h f s).fltWait = s.fltWait := by cases h <;> rfl
@[simp] theorem modHost_fltIn (h : HostId) (f : HostRec → HostRec) (s : State) : (modHost h f s).fltIn = s.fltIn := by cases h <;> rfl
@[simp] theorem modHost_cans (h : HostId) (f : HostRec → HostRec) (s : State) : (modHost h f s).cans = s.cans := by cases h <;> rfl
@[simp] theorem modHost_time (h : HostId) (f : HostRec → HostRec) (s : State) : (modHost h f s).time = s.time := by cases h <;> rfl
@[simp] theorem modHost_feedA (h : HostId) (f : HostRec → HostRec) (s : State) : (modHost h f s).feedA = s.feedA := by cases h <;> rfl
@[simp] theorem modHost_feedB (h : HostId) (f : HostRec → HostRec) (s : State) : (modHost h f s).feedB = s.feedB := by cases h <;> rfl
@[simp] theorem modHost_board (h : HostId) (f : HostRec → HostRec) (s : State) : (modHost h f s).board = s.board := by cases h <;> rfl
@[simp] theorem modHost_svc (h : HostId) (f : HostRec → HostRec) (s : State) : (modHost h f s).svc = s.svc := by cases h <;> rfl
@[simp] theorem modHost_insts (h : HostId) (f : HostRec → HostRec) (s : State) : (modHost h f s).insts = s.insts := by cases h <;> rfl
@[simp] theorem modHost_trunks (h : HostId) (f : HostRec → HostRec) (s : State) : (modHost h f s).trunks = s.trunks := by cases h <;> rfl
@[simp] theorem modHost_net (h : HostId) (f : HostRec → HostRec) (s : State) : (modHost h f s).net = s.net := by cases h <;> rfl
@[simp] theorem modHost_fw (h : HostId) (f : HostRec → HostRec) (s : State) : (modHost h f s).fw = s.fw := by cases h <;> rfl
@[simp] theorem modHost_sec (h : HostId) (f : HostRec → HostRec) (s : State) : (modHost h f s).sec = s.sec := by cases h <;> rfl
@[simp] theorem modHost_cfg (h : HostId) (f : HostRec → HostRec) (s : State) : (modHost h f s).cfg = s.cfg := by cases h <;> rfl
@[simp] theorem modHost_cfgCopy (h : HostId) (f : HostRec → HostRec) (s : State) : (modHost h f s).cfgCopy = s.cfgCopy := by cases h <;> rfl
@[simp] theorem modHost_cfgBad (h : HostId) (f : HostRec → HostRec) (s : State) : (modHost h f s).cfgBad = s.cfgBad := by cases h <;> rfl
@[simp] theorem modHost_cfgHeld (h : HostId) (f : HostRec → HostRec) (s : State) : (modHost h f s).cfgHeld = s.cfgHeld := by cases h <;> rfl
@[simp] theorem modHost_regHeld (h : HostId) (f : HostRec → HostRec) (s : State) : (modHost h f s).regHeld = s.regHeld := by cases h <;> rfl
@[simp] theorem modHost_sqc (h : HostId) (f : HostRec → HostRec) (s : State) : (modHost h f s).sqc = s.sqc := by cases h <;> rfl
@[simp] theorem setFeed_pending (h : HostId) (r : Feed) (s : State) : (setFeed h r s).pending = s.pending := by cases h <;> rfl
@[simp] theorem setFeed_free (h : HostId) (r : Feed) (s : State) : (setFeed h r s).free = s.free := by cases h <;> rfl
@[simp] theorem setFeed_wire (h : HostId) (r : Feed) (s : State) : (setFeed h r s).wire = s.wire := by cases h <;> rfl
@[simp] theorem setFeed_part (h : HostId) (r : Feed) (s : State) : (setFeed h r s).part = s.part := by cases h <;> rfl
@[simp] theorem setFeed_otp (h : HostId) (r : Feed) (s : State) : (setFeed h r s).otp = s.otp := by cases h <;> rfl
@[simp] theorem setFeed_dev (h : HostId) (r : Feed) (s : State) : (setFeed h r s).dev = s.dev := by cases h <;> rfl
@[simp] theorem setFeed_power (h : HostId) (r : Feed) (s : State) : (setFeed h r s).power = s.power := by cases h <;> rfl
@[simp] theorem setFeed_warm (h : HostId) (r : Feed) (s : State) : (setFeed h r s).warm = s.warm := by cases h <;> rfl
@[simp] theorem setFeed_lich (h : HostId) (r : Feed) (s : State) : (setFeed h r s).lich = s.lich := by cases h <;> rfl
@[simp] theorem setFeed_hostA (h : HostId) (r : Feed) (s : State) : (setFeed h r s).hostA = s.hostA := by cases h <;> rfl
@[simp] theorem setFeed_hostB (h : HostId) (r : Feed) (s : State) : (setFeed h r s).hostB = s.hostB := by cases h <;> rfl
@[simp] theorem setFeed_arrivals (h : HostId) (r : Feed) (s : State) : (setFeed h r s).arrivals = s.arrivals := by cases h <;> rfl
@[simp] theorem setFeed_ops (h : HostId) (r : Feed) (s : State) : (setFeed h r s).ops = s.ops := by cases h <;> rfl
@[simp] theorem setFeed_lastA (h : HostId) (r : Feed) (s : State) : (setFeed h r s).lastA = s.lastA := by cases h <;> rfl
@[simp] theorem setFeed_sems (h : HostId) (r : Feed) (s : State) : (setFeed h r s).sems = s.sems := by cases h <;> rfl
@[simp] theorem setFeed_ports (h : HostId) (r : Feed) (s : State) : (setFeed h r s).ports = s.ports := by cases h <;> rfl
@[simp] theorem setFeed_ctxs (h : HostId) (r : Feed) (s : State) : (setFeed h r s).ctxs = s.ctxs := by cases h <;> rfl
@[simp] theorem setFeed_xfers (h : HostId) (r : Feed) (s : State) : (setFeed h r s).xfers = s.xfers := by cases h <;> rfl
@[simp] theorem setFeed_queues (h : HostId) (r : Feed) (s : State) : (setFeed h r s).queues = s.queues := by cases h <;> rfl
@[simp] theorem setFeed_pool (h : HostId) (r : Feed) (s : State) : (setFeed h r s).pool = s.pool := by cases h <;> rfl
@[simp] theorem setFeed_ctrl (h : HostId) (r : Feed) (s : State) : (setFeed h r s).ctrl = s.ctrl := by cases h <;> rfl
@[simp] theorem setFeed_mail (h : HostId) (r : Feed) (s : State) : (setFeed h r s).mail = s.mail := by cases h <;> rfl
@[simp] theorem setFeed_mbx (h : HostId) (r : Feed) (s : State) : (setFeed h r s).mbx = s.mbx := by cases h <;> rfl
@[simp] theorem setFeed_peat (h : HostId) (r : Feed) (s : State) : (setFeed h r s).peat = s.peat := by cases h <;> rfl
@[simp] theorem setFeed_stok (h : HostId) (r : Feed) (s : State) : (setFeed h r s).stok = s.stok := by cases h <;> rfl
@[simp] theorem setFeed_ledger (h : HostId) (r : Feed) (s : State) : (setFeed h r s).ledger = s.ledger := by cases h <;> rfl
@[simp] theorem setFeed_test (h : HostId) (r : Feed) (s : State) : (setFeed h r s).test = s.test := by cases h <;> rfl
@[simp] theorem setFeed_testQ (h : HostId) (r : Feed) (s : State) : (setFeed h r s).testQ = s.testQ := by cases h <;> rfl
@[simp] theorem setFeed_cal (h : HostId) (r : Feed) (s : State) : (setFeed h r s).cal = s.cal := by cases h <;> rfl
@[simp] theorem setFeed_flts (h : HostId) (r : Feed) (s : State) : (setFeed h r s).flts = s.flts := by cases h <;> rfl
@[simp] theorem setFeed_fltLast (h : HostId) (r : Feed) (s : State) : (setFeed h r s).fltLast = s.fltLast := by cases h <;> rfl
@[simp] theorem setFeed_fltWait (h : HostId) (r : Feed) (s : State) : (setFeed h r s).fltWait = s.fltWait := by cases h <;> rfl
@[simp] theorem setFeed_fltIn (h : HostId) (r : Feed) (s : State) : (setFeed h r s).fltIn = s.fltIn := by cases h <;> rfl
@[simp] theorem setFeed_cans (h : HostId) (r : Feed) (s : State) : (setFeed h r s).cans = s.cans := by cases h <;> rfl
@[simp] theorem setFeed_time (h : HostId) (r : Feed) (s : State) : (setFeed h r s).time = s.time := by cases h <;> rfl
@[simp] theorem setFeed_board (h : HostId) (r : Feed) (s : State) : (setFeed h r s).board = s.board := by cases h <;> rfl
@[simp] theorem setFeed_svc (h : HostId) (r : Feed) (s : State) : (setFeed h r s).svc = s.svc := by cases h <;> rfl
@[simp] theorem setFeed_insts (h : HostId) (r : Feed) (s : State) : (setFeed h r s).insts = s.insts := by cases h <;> rfl
@[simp] theorem setFeed_trunks (h : HostId) (r : Feed) (s : State) : (setFeed h r s).trunks = s.trunks := by cases h <;> rfl
@[simp] theorem setFeed_net (h : HostId) (r : Feed) (s : State) : (setFeed h r s).net = s.net := by cases h <;> rfl
@[simp] theorem setFeed_fw (h : HostId) (r : Feed) (s : State) : (setFeed h r s).fw = s.fw := by cases h <;> rfl
@[simp] theorem setFeed_sec (h : HostId) (r : Feed) (s : State) : (setFeed h r s).sec = s.sec := by cases h <;> rfl
@[simp] theorem setFeed_cfg (h : HostId) (r : Feed) (s : State) : (setFeed h r s).cfg = s.cfg := by cases h <;> rfl
@[simp] theorem setFeed_cfgCopy (h : HostId) (r : Feed) (s : State) : (setFeed h r s).cfgCopy = s.cfgCopy := by cases h <;> rfl
@[simp] theorem setFeed_cfgBad (h : HostId) (r : Feed) (s : State) : (setFeed h r s).cfgBad = s.cfgBad := by cases h <;> rfl
@[simp] theorem setFeed_cfgHeld (h : HostId) (r : Feed) (s : State) : (setFeed h r s).cfgHeld = s.cfgHeld := by cases h <;> rfl
@[simp] theorem setFeed_regHeld (h : HostId) (r : Feed) (s : State) : (setFeed h r s).regHeld = s.regHeld := by cases h <;> rfl
@[simp] theorem setFeed_sqc (h : HostId) (r : Feed) (s : State) : (setFeed h r s).sqc = s.sqc := by cases h <;> rfl
@[simp] theorem modFeed_pending (h : HostId) (f : Feed → Feed) (s : State) : (modFeed h f s).pending = s.pending := by cases h <;> rfl
@[simp] theorem modFeed_free (h : HostId) (f : Feed → Feed) (s : State) : (modFeed h f s).free = s.free := by cases h <;> rfl
@[simp] theorem modFeed_wire (h : HostId) (f : Feed → Feed) (s : State) : (modFeed h f s).wire = s.wire := by cases h <;> rfl
@[simp] theorem modFeed_part (h : HostId) (f : Feed → Feed) (s : State) : (modFeed h f s).part = s.part := by cases h <;> rfl
@[simp] theorem modFeed_otp (h : HostId) (f : Feed → Feed) (s : State) : (modFeed h f s).otp = s.otp := by cases h <;> rfl
@[simp] theorem modFeed_dev (h : HostId) (f : Feed → Feed) (s : State) : (modFeed h f s).dev = s.dev := by cases h <;> rfl
@[simp] theorem modFeed_power (h : HostId) (f : Feed → Feed) (s : State) : (modFeed h f s).power = s.power := by cases h <;> rfl
@[simp] theorem modFeed_warm (h : HostId) (f : Feed → Feed) (s : State) : (modFeed h f s).warm = s.warm := by cases h <;> rfl
@[simp] theorem modFeed_lich (h : HostId) (f : Feed → Feed) (s : State) : (modFeed h f s).lich = s.lich := by cases h <;> rfl
@[simp] theorem modFeed_hostA (h : HostId) (f : Feed → Feed) (s : State) : (modFeed h f s).hostA = s.hostA := by cases h <;> rfl
@[simp] theorem modFeed_hostB (h : HostId) (f : Feed → Feed) (s : State) : (modFeed h f s).hostB = s.hostB := by cases h <;> rfl
@[simp] theorem modFeed_arrivals (h : HostId) (f : Feed → Feed) (s : State) : (modFeed h f s).arrivals = s.arrivals := by cases h <;> rfl
@[simp] theorem modFeed_ops (h : HostId) (f : Feed → Feed) (s : State) : (modFeed h f s).ops = s.ops := by cases h <;> rfl
@[simp] theorem modFeed_lastA (h : HostId) (f : Feed → Feed) (s : State) : (modFeed h f s).lastA = s.lastA := by cases h <;> rfl
@[simp] theorem modFeed_sems (h : HostId) (f : Feed → Feed) (s : State) : (modFeed h f s).sems = s.sems := by cases h <;> rfl
@[simp] theorem modFeed_ports (h : HostId) (f : Feed → Feed) (s : State) : (modFeed h f s).ports = s.ports := by cases h <;> rfl
@[simp] theorem modFeed_ctxs (h : HostId) (f : Feed → Feed) (s : State) : (modFeed h f s).ctxs = s.ctxs := by cases h <;> rfl
@[simp] theorem modFeed_xfers (h : HostId) (f : Feed → Feed) (s : State) : (modFeed h f s).xfers = s.xfers := by cases h <;> rfl
@[simp] theorem modFeed_queues (h : HostId) (f : Feed → Feed) (s : State) : (modFeed h f s).queues = s.queues := by cases h <;> rfl
@[simp] theorem modFeed_pool (h : HostId) (f : Feed → Feed) (s : State) : (modFeed h f s).pool = s.pool := by cases h <;> rfl
@[simp] theorem modFeed_ctrl (h : HostId) (f : Feed → Feed) (s : State) : (modFeed h f s).ctrl = s.ctrl := by cases h <;> rfl
@[simp] theorem modFeed_mail (h : HostId) (f : Feed → Feed) (s : State) : (modFeed h f s).mail = s.mail := by cases h <;> rfl
@[simp] theorem modFeed_mbx (h : HostId) (f : Feed → Feed) (s : State) : (modFeed h f s).mbx = s.mbx := by cases h <;> rfl
@[simp] theorem modFeed_peat (h : HostId) (f : Feed → Feed) (s : State) : (modFeed h f s).peat = s.peat := by cases h <;> rfl
@[simp] theorem modFeed_stok (h : HostId) (f : Feed → Feed) (s : State) : (modFeed h f s).stok = s.stok := by cases h <;> rfl
@[simp] theorem modFeed_ledger (h : HostId) (f : Feed → Feed) (s : State) : (modFeed h f s).ledger = s.ledger := by cases h <;> rfl
@[simp] theorem modFeed_test (h : HostId) (f : Feed → Feed) (s : State) : (modFeed h f s).test = s.test := by cases h <;> rfl
@[simp] theorem modFeed_testQ (h : HostId) (f : Feed → Feed) (s : State) : (modFeed h f s).testQ = s.testQ := by cases h <;> rfl
@[simp] theorem modFeed_cal (h : HostId) (f : Feed → Feed) (s : State) : (modFeed h f s).cal = s.cal := by cases h <;> rfl
@[simp] theorem modFeed_flts (h : HostId) (f : Feed → Feed) (s : State) : (modFeed h f s).flts = s.flts := by cases h <;> rfl
@[simp] theorem modFeed_fltLast (h : HostId) (f : Feed → Feed) (s : State) : (modFeed h f s).fltLast = s.fltLast := by cases h <;> rfl
@[simp] theorem modFeed_fltWait (h : HostId) (f : Feed → Feed) (s : State) : (modFeed h f s).fltWait = s.fltWait := by cases h <;> rfl
@[simp] theorem modFeed_fltIn (h : HostId) (f : Feed → Feed) (s : State) : (modFeed h f s).fltIn = s.fltIn := by cases h <;> rfl
@[simp] theorem modFeed_cans (h : HostId) (f : Feed → Feed) (s : State) : (modFeed h f s).cans = s.cans := by cases h <;> rfl
@[simp] theorem modFeed_time (h : HostId) (f : Feed → Feed) (s : State) : (modFeed h f s).time = s.time := by cases h <;> rfl
@[simp] theorem modFeed_board (h : HostId) (f : Feed → Feed) (s : State) : (modFeed h f s).board = s.board := by cases h <;> rfl
@[simp] theorem modFeed_svc (h : HostId) (f : Feed → Feed) (s : State) : (modFeed h f s).svc = s.svc := by cases h <;> rfl
@[simp] theorem modFeed_insts (h : HostId) (f : Feed → Feed) (s : State) : (modFeed h f s).insts = s.insts := by cases h <;> rfl
@[simp] theorem modFeed_trunks (h : HostId) (f : Feed → Feed) (s : State) : (modFeed h f s).trunks = s.trunks := by cases h <;> rfl
@[simp] theorem modFeed_net (h : HostId) (f : Feed → Feed) (s : State) : (modFeed h f s).net = s.net := by cases h <;> rfl
@[simp] theorem modFeed_fw (h : HostId) (f : Feed → Feed) (s : State) : (modFeed h f s).fw = s.fw := by cases h <;> rfl
@[simp] theorem modFeed_sec (h : HostId) (f : Feed → Feed) (s : State) : (modFeed h f s).sec = s.sec := by cases h <;> rfl
@[simp] theorem modFeed_cfg (h : HostId) (f : Feed → Feed) (s : State) : (modFeed h f s).cfg = s.cfg := by cases h <;> rfl
@[simp] theorem modFeed_cfgCopy (h : HostId) (f : Feed → Feed) (s : State) : (modFeed h f s).cfgCopy = s.cfgCopy := by cases h <;> rfl
@[simp] theorem modFeed_cfgBad (h : HostId) (f : Feed → Feed) (s : State) : (modFeed h f s).cfgBad = s.cfgBad := by cases h <;> rfl
@[simp] theorem modFeed_cfgHeld (h : HostId) (f : Feed → Feed) (s : State) : (modFeed h f s).cfgHeld = s.cfgHeld := by cases h <;> rfl
@[simp] theorem modFeed_regHeld (h : HostId) (f : Feed → Feed) (s : State) : (modFeed h f s).regHeld = s.regHeld := by cases h <;> rfl
@[simp] theorem modFeed_sqc (h : HostId) (f : Feed → Feed) (s : State) : (modFeed h f s).sqc = s.sqc := by cases h <;> rfl
@[simp] theorem setEngine_pending (e : Nat) (r : Engine) (s : State) : (setEngine e r s).pending = s.pending := rfl
@[simp] theorem setEngine_free (e : Nat) (r : Engine) (s : State) : (setEngine e r s).free = s.free := rfl
@[simp] theorem setEngine_wire (e : Nat) (r : Engine) (s : State) : (setEngine e r s).wire = s.wire := rfl
@[simp] theorem setEngine_part (e : Nat) (r : Engine) (s : State) : (setEngine e r s).part = s.part := rfl
@[simp] theorem setEngine_otp (e : Nat) (r : Engine) (s : State) : (setEngine e r s).otp = s.otp := rfl
@[simp] theorem setEngine_dev (e : Nat) (r : Engine) (s : State) : (setEngine e r s).dev = s.dev := rfl
@[simp] theorem setEngine_power (e : Nat) (r : Engine) (s : State) : (setEngine e r s).power = s.power := rfl
@[simp] theorem setEngine_warm (e : Nat) (r : Engine) (s : State) : (setEngine e r s).warm = s.warm := rfl
@[simp] theorem setEngine_lich (e : Nat) (r : Engine) (s : State) : (setEngine e r s).lich = s.lich := rfl
@[simp] theorem setEngine_hostA (e : Nat) (r : Engine) (s : State) : (setEngine e r s).hostA = s.hostA := rfl
@[simp] theorem setEngine_hostB (e : Nat) (r : Engine) (s : State) : (setEngine e r s).hostB = s.hostB := rfl
@[simp] theorem setEngine_arrivals (e : Nat) (r : Engine) (s : State) : (setEngine e r s).arrivals = s.arrivals := rfl
@[simp] theorem setEngine_ops (e : Nat) (r : Engine) (s : State) : (setEngine e r s).ops = s.ops := rfl
@[simp] theorem setEngine_lastA (e : Nat) (r : Engine) (s : State) : (setEngine e r s).lastA = s.lastA := rfl
@[simp] theorem setEngine_sems (e : Nat) (r : Engine) (s : State) : (setEngine e r s).sems = s.sems := rfl
@[simp] theorem setEngine_ports (e : Nat) (r : Engine) (s : State) : (setEngine e r s).ports = s.ports := rfl
@[simp] theorem setEngine_ctxs (e : Nat) (r : Engine) (s : State) : (setEngine e r s).ctxs = s.ctxs := rfl
@[simp] theorem setEngine_xfers (e : Nat) (r : Engine) (s : State) : (setEngine e r s).xfers = s.xfers := rfl
@[simp] theorem setEngine_queues (e : Nat) (r : Engine) (s : State) : (setEngine e r s).queues = s.queues := rfl
@[simp] theorem setEngine_pool (e : Nat) (r : Engine) (s : State) : (setEngine e r s).pool = s.pool := rfl
@[simp] theorem setEngine_ctrl (e : Nat) (r : Engine) (s : State) : (setEngine e r s).ctrl = s.ctrl := rfl
@[simp] theorem setEngine_mail (e : Nat) (r : Engine) (s : State) : (setEngine e r s).mail = s.mail := rfl
@[simp] theorem setEngine_mbx (e : Nat) (r : Engine) (s : State) : (setEngine e r s).mbx = s.mbx := rfl
@[simp] theorem setEngine_peat (e : Nat) (r : Engine) (s : State) : (setEngine e r s).peat = s.peat := rfl
@[simp] theorem setEngine_ledger (e : Nat) (r : Engine) (s : State) : (setEngine e r s).ledger = s.ledger := rfl
@[simp] theorem setEngine_test (e : Nat) (r : Engine) (s : State) : (setEngine e r s).test = s.test := rfl
@[simp] theorem setEngine_testQ (e : Nat) (r : Engine) (s : State) : (setEngine e r s).testQ = s.testQ := rfl
@[simp] theorem setEngine_cal (e : Nat) (r : Engine) (s : State) : (setEngine e r s).cal = s.cal := rfl
@[simp] theorem setEngine_flts (e : Nat) (r : Engine) (s : State) : (setEngine e r s).flts = s.flts := rfl
@[simp] theorem setEngine_fltLast (e : Nat) (r : Engine) (s : State) : (setEngine e r s).fltLast = s.fltLast := rfl
@[simp] theorem setEngine_fltWait (e : Nat) (r : Engine) (s : State) : (setEngine e r s).fltWait = s.fltWait := rfl
@[simp] theorem setEngine_fltIn (e : Nat) (r : Engine) (s : State) : (setEngine e r s).fltIn = s.fltIn := rfl
@[simp] theorem setEngine_cans (e : Nat) (r : Engine) (s : State) : (setEngine e r s).cans = s.cans := rfl
@[simp] theorem setEngine_time (e : Nat) (r : Engine) (s : State) : (setEngine e r s).time = s.time := rfl
@[simp] theorem setEngine_feedA (e : Nat) (r : Engine) (s : State) : (setEngine e r s).feedA = s.feedA := rfl
@[simp] theorem setEngine_feedB (e : Nat) (r : Engine) (s : State) : (setEngine e r s).feedB = s.feedB := rfl
@[simp] theorem setEngine_board (e : Nat) (r : Engine) (s : State) : (setEngine e r s).board = s.board := rfl
@[simp] theorem setEngine_svc (e : Nat) (r : Engine) (s : State) : (setEngine e r s).svc = s.svc := rfl
@[simp] theorem setEngine_insts (e : Nat) (r : Engine) (s : State) : (setEngine e r s).insts = s.insts := rfl
@[simp] theorem setEngine_trunks (e : Nat) (r : Engine) (s : State) : (setEngine e r s).trunks = s.trunks := rfl
@[simp] theorem setEngine_net (e : Nat) (r : Engine) (s : State) : (setEngine e r s).net = s.net := rfl
@[simp] theorem setEngine_fw (e : Nat) (r : Engine) (s : State) : (setEngine e r s).fw = s.fw := rfl
@[simp] theorem setEngine_sec (e : Nat) (r : Engine) (s : State) : (setEngine e r s).sec = s.sec := rfl
@[simp] theorem setEngine_cfg (e : Nat) (r : Engine) (s : State) : (setEngine e r s).cfg = s.cfg := rfl
@[simp] theorem setEngine_cfgCopy (e : Nat) (r : Engine) (s : State) : (setEngine e r s).cfgCopy = s.cfgCopy := rfl
@[simp] theorem setEngine_cfgBad (e : Nat) (r : Engine) (s : State) : (setEngine e r s).cfgBad = s.cfgBad := rfl
@[simp] theorem setEngine_cfgHeld (e : Nat) (r : Engine) (s : State) : (setEngine e r s).cfgHeld = s.cfgHeld := rfl
@[simp] theorem setEngine_regHeld (e : Nat) (r : Engine) (s : State) : (setEngine e r s).regHeld = s.regHeld := rfl
@[simp] theorem setEngine_sqc (e : Nat) (r : Engine) (s : State) : (setEngine e r s).sqc = s.sqc := rfl
@[simp] theorem modEngine_pending (e : Nat) (f : Engine → Engine) (s : State) : (modEngine e f s).pending = s.pending := rfl
@[simp] theorem modEngine_free (e : Nat) (f : Engine → Engine) (s : State) : (modEngine e f s).free = s.free := rfl
@[simp] theorem modEngine_wire (e : Nat) (f : Engine → Engine) (s : State) : (modEngine e f s).wire = s.wire := rfl
@[simp] theorem modEngine_part (e : Nat) (f : Engine → Engine) (s : State) : (modEngine e f s).part = s.part := rfl
@[simp] theorem modEngine_otp (e : Nat) (f : Engine → Engine) (s : State) : (modEngine e f s).otp = s.otp := rfl
@[simp] theorem modEngine_dev (e : Nat) (f : Engine → Engine) (s : State) : (modEngine e f s).dev = s.dev := rfl
@[simp] theorem modEngine_power (e : Nat) (f : Engine → Engine) (s : State) : (modEngine e f s).power = s.power := rfl
@[simp] theorem modEngine_warm (e : Nat) (f : Engine → Engine) (s : State) : (modEngine e f s).warm = s.warm := rfl
@[simp] theorem modEngine_lich (e : Nat) (f : Engine → Engine) (s : State) : (modEngine e f s).lich = s.lich := rfl
@[simp] theorem modEngine_hostA (e : Nat) (f : Engine → Engine) (s : State) : (modEngine e f s).hostA = s.hostA := rfl
@[simp] theorem modEngine_hostB (e : Nat) (f : Engine → Engine) (s : State) : (modEngine e f s).hostB = s.hostB := rfl
@[simp] theorem modEngine_arrivals (e : Nat) (f : Engine → Engine) (s : State) : (modEngine e f s).arrivals = s.arrivals := rfl
@[simp] theorem modEngine_ops (e : Nat) (f : Engine → Engine) (s : State) : (modEngine e f s).ops = s.ops := rfl
@[simp] theorem modEngine_lastA (e : Nat) (f : Engine → Engine) (s : State) : (modEngine e f s).lastA = s.lastA := rfl
@[simp] theorem modEngine_sems (e : Nat) (f : Engine → Engine) (s : State) : (modEngine e f s).sems = s.sems := rfl
@[simp] theorem modEngine_ports (e : Nat) (f : Engine → Engine) (s : State) : (modEngine e f s).ports = s.ports := rfl
@[simp] theorem modEngine_ctxs (e : Nat) (f : Engine → Engine) (s : State) : (modEngine e f s).ctxs = s.ctxs := rfl
@[simp] theorem modEngine_xfers (e : Nat) (f : Engine → Engine) (s : State) : (modEngine e f s).xfers = s.xfers := rfl
@[simp] theorem modEngine_queues (e : Nat) (f : Engine → Engine) (s : State) : (modEngine e f s).queues = s.queues := rfl
@[simp] theorem modEngine_pool (e : Nat) (f : Engine → Engine) (s : State) : (modEngine e f s).pool = s.pool := rfl
@[simp] theorem modEngine_ctrl (e : Nat) (f : Engine → Engine) (s : State) : (modEngine e f s).ctrl = s.ctrl := rfl
@[simp] theorem modEngine_mail (e : Nat) (f : Engine → Engine) (s : State) : (modEngine e f s).mail = s.mail := rfl
@[simp] theorem modEngine_mbx (e : Nat) (f : Engine → Engine) (s : State) : (modEngine e f s).mbx = s.mbx := rfl
@[simp] theorem modEngine_peat (e : Nat) (f : Engine → Engine) (s : State) : (modEngine e f s).peat = s.peat := rfl
@[simp] theorem modEngine_ledger (e : Nat) (f : Engine → Engine) (s : State) : (modEngine e f s).ledger = s.ledger := rfl
@[simp] theorem modEngine_test (e : Nat) (f : Engine → Engine) (s : State) : (modEngine e f s).test = s.test := rfl
@[simp] theorem modEngine_testQ (e : Nat) (f : Engine → Engine) (s : State) : (modEngine e f s).testQ = s.testQ := rfl
@[simp] theorem modEngine_cal (e : Nat) (f : Engine → Engine) (s : State) : (modEngine e f s).cal = s.cal := rfl
@[simp] theorem modEngine_flts (e : Nat) (f : Engine → Engine) (s : State) : (modEngine e f s).flts = s.flts := rfl
@[simp] theorem modEngine_fltLast (e : Nat) (f : Engine → Engine) (s : State) : (modEngine e f s).fltLast = s.fltLast := rfl
@[simp] theorem modEngine_fltWait (e : Nat) (f : Engine → Engine) (s : State) : (modEngine e f s).fltWait = s.fltWait := rfl
@[simp] theorem modEngine_fltIn (e : Nat) (f : Engine → Engine) (s : State) : (modEngine e f s).fltIn = s.fltIn := rfl
@[simp] theorem modEngine_cans (e : Nat) (f : Engine → Engine) (s : State) : (modEngine e f s).cans = s.cans := rfl
@[simp] theorem modEngine_time (e : Nat) (f : Engine → Engine) (s : State) : (modEngine e f s).time = s.time := rfl
@[simp] theorem modEngine_feedA (e : Nat) (f : Engine → Engine) (s : State) : (modEngine e f s).feedA = s.feedA := rfl
@[simp] theorem modEngine_feedB (e : Nat) (f : Engine → Engine) (s : State) : (modEngine e f s).feedB = s.feedB := rfl
@[simp] theorem modEngine_board (e : Nat) (f : Engine → Engine) (s : State) : (modEngine e f s).board = s.board := rfl
@[simp] theorem modEngine_svc (e : Nat) (f : Engine → Engine) (s : State) : (modEngine e f s).svc = s.svc := rfl
@[simp] theorem modEngine_insts (e : Nat) (f : Engine → Engine) (s : State) : (modEngine e f s).insts = s.insts := rfl
@[simp] theorem modEngine_trunks (e : Nat) (f : Engine → Engine) (s : State) : (modEngine e f s).trunks = s.trunks := rfl
@[simp] theorem modEngine_net (e : Nat) (f : Engine → Engine) (s : State) : (modEngine e f s).net = s.net := rfl
@[simp] theorem modEngine_fw (e : Nat) (f : Engine → Engine) (s : State) : (modEngine e f s).fw = s.fw := rfl
@[simp] theorem modEngine_sec (e : Nat) (f : Engine → Engine) (s : State) : (modEngine e f s).sec = s.sec := rfl
@[simp] theorem modEngine_cfg (e : Nat) (f : Engine → Engine) (s : State) : (modEngine e f s).cfg = s.cfg := rfl
@[simp] theorem modEngine_cfgCopy (e : Nat) (f : Engine → Engine) (s : State) : (modEngine e f s).cfgCopy = s.cfgCopy := rfl
@[simp] theorem modEngine_cfgBad (e : Nat) (f : Engine → Engine) (s : State) : (modEngine e f s).cfgBad = s.cfgBad := rfl
@[simp] theorem modEngine_cfgHeld (e : Nat) (f : Engine → Engine) (s : State) : (modEngine e f s).cfgHeld = s.cfgHeld := rfl
@[simp] theorem modEngine_regHeld (e : Nat) (f : Engine → Engine) (s : State) : (modEngine e f s).regHeld = s.regHeld := rfl
@[simp] theorem modEngine_sqc (e : Nat) (f : Engine → Engine) (s : State) : (modEngine e f s).sqc = s.sqc := rfl
@[simp] theorem modPbank_pending (b : Nat) (f : Bank → Bank) (s : State) : (modPbank b f s).pending = s.pending := rfl
@[simp] theorem modPbank_free (b : Nat) (f : Bank → Bank) (s : State) : (modPbank b f s).free = s.free := rfl
@[simp] theorem modPbank_wire (b : Nat) (f : Bank → Bank) (s : State) : (modPbank b f s).wire = s.wire := rfl
@[simp] theorem modPbank_part (b : Nat) (f : Bank → Bank) (s : State) : (modPbank b f s).part = s.part := rfl
@[simp] theorem modPbank_otp (b : Nat) (f : Bank → Bank) (s : State) : (modPbank b f s).otp = s.otp := rfl
@[simp] theorem modPbank_dev (b : Nat) (f : Bank → Bank) (s : State) : (modPbank b f s).dev = s.dev := rfl
@[simp] theorem modPbank_power (b : Nat) (f : Bank → Bank) (s : State) : (modPbank b f s).power = s.power := rfl
@[simp] theorem modPbank_warm (b : Nat) (f : Bank → Bank) (s : State) : (modPbank b f s).warm = s.warm := rfl
@[simp] theorem modPbank_lich (b : Nat) (f : Bank → Bank) (s : State) : (modPbank b f s).lich = s.lich := rfl
@[simp] theorem modPbank_hostA (b : Nat) (f : Bank → Bank) (s : State) : (modPbank b f s).hostA = s.hostA := rfl
@[simp] theorem modPbank_hostB (b : Nat) (f : Bank → Bank) (s : State) : (modPbank b f s).hostB = s.hostB := rfl
@[simp] theorem modPbank_arrivals (b : Nat) (f : Bank → Bank) (s : State) : (modPbank b f s).arrivals = s.arrivals := rfl
@[simp] theorem modPbank_ops (b : Nat) (f : Bank → Bank) (s : State) : (modPbank b f s).ops = s.ops := rfl
@[simp] theorem modPbank_lastA (b : Nat) (f : Bank → Bank) (s : State) : (modPbank b f s).lastA = s.lastA := rfl
@[simp] theorem modPbank_sems (b : Nat) (f : Bank → Bank) (s : State) : (modPbank b f s).sems = s.sems := rfl
@[simp] theorem modPbank_ports (b : Nat) (f : Bank → Bank) (s : State) : (modPbank b f s).ports = s.ports := rfl
@[simp] theorem modPbank_ctxs (b : Nat) (f : Bank → Bank) (s : State) : (modPbank b f s).ctxs = s.ctxs := rfl
@[simp] theorem modPbank_xfers (b : Nat) (f : Bank → Bank) (s : State) : (modPbank b f s).xfers = s.xfers := rfl
@[simp] theorem modPbank_queues (b : Nat) (f : Bank → Bank) (s : State) : (modPbank b f s).queues = s.queues := rfl
@[simp] theorem modPbank_ctrl (b : Nat) (f : Bank → Bank) (s : State) : (modPbank b f s).ctrl = s.ctrl := rfl
@[simp] theorem modPbank_mail (b : Nat) (f : Bank → Bank) (s : State) : (modPbank b f s).mail = s.mail := rfl
@[simp] theorem modPbank_mbx (b : Nat) (f : Bank → Bank) (s : State) : (modPbank b f s).mbx = s.mbx := rfl
@[simp] theorem modPbank_peat (b : Nat) (f : Bank → Bank) (s : State) : (modPbank b f s).peat = s.peat := rfl
@[simp] theorem modPbank_stok (b : Nat) (f : Bank → Bank) (s : State) : (modPbank b f s).stok = s.stok := rfl
@[simp] theorem modPbank_ledger (b : Nat) (f : Bank → Bank) (s : State) : (modPbank b f s).ledger = s.ledger := rfl
@[simp] theorem modPbank_test (b : Nat) (f : Bank → Bank) (s : State) : (modPbank b f s).test = s.test := rfl
@[simp] theorem modPbank_testQ (b : Nat) (f : Bank → Bank) (s : State) : (modPbank b f s).testQ = s.testQ := rfl
@[simp] theorem modPbank_cal (b : Nat) (f : Bank → Bank) (s : State) : (modPbank b f s).cal = s.cal := rfl
@[simp] theorem modPbank_flts (b : Nat) (f : Bank → Bank) (s : State) : (modPbank b f s).flts = s.flts := rfl
@[simp] theorem modPbank_fltLast (b : Nat) (f : Bank → Bank) (s : State) : (modPbank b f s).fltLast = s.fltLast := rfl
@[simp] theorem modPbank_fltWait (b : Nat) (f : Bank → Bank) (s : State) : (modPbank b f s).fltWait = s.fltWait := rfl
@[simp] theorem modPbank_fltIn (b : Nat) (f : Bank → Bank) (s : State) : (modPbank b f s).fltIn = s.fltIn := rfl
@[simp] theorem modPbank_cans (b : Nat) (f : Bank → Bank) (s : State) : (modPbank b f s).cans = s.cans := rfl
@[simp] theorem modPbank_time (b : Nat) (f : Bank → Bank) (s : State) : (modPbank b f s).time = s.time := rfl
@[simp] theorem modPbank_feedA (b : Nat) (f : Bank → Bank) (s : State) : (modPbank b f s).feedA = s.feedA := rfl
@[simp] theorem modPbank_feedB (b : Nat) (f : Bank → Bank) (s : State) : (modPbank b f s).feedB = s.feedB := rfl
@[simp] theorem modPbank_board (b : Nat) (f : Bank → Bank) (s : State) : (modPbank b f s).board = s.board := rfl
@[simp] theorem modPbank_svc (b : Nat) (f : Bank → Bank) (s : State) : (modPbank b f s).svc = s.svc := rfl
@[simp] theorem modPbank_insts (b : Nat) (f : Bank → Bank) (s : State) : (modPbank b f s).insts = s.insts := rfl
@[simp] theorem modPbank_trunks (b : Nat) (f : Bank → Bank) (s : State) : (modPbank b f s).trunks = s.trunks := rfl
@[simp] theorem modPbank_net (b : Nat) (f : Bank → Bank) (s : State) : (modPbank b f s).net = s.net := rfl
@[simp] theorem modPbank_fw (b : Nat) (f : Bank → Bank) (s : State) : (modPbank b f s).fw = s.fw := rfl
@[simp] theorem modPbank_sec (b : Nat) (f : Bank → Bank) (s : State) : (modPbank b f s).sec = s.sec := rfl
@[simp] theorem modPbank_cfg (b : Nat) (f : Bank → Bank) (s : State) : (modPbank b f s).cfg = s.cfg := rfl
@[simp] theorem modPbank_cfgCopy (b : Nat) (f : Bank → Bank) (s : State) : (modPbank b f s).cfgCopy = s.cfgCopy := rfl
@[simp] theorem modPbank_cfgBad (b : Nat) (f : Bank → Bank) (s : State) : (modPbank b f s).cfgBad = s.cfgBad := rfl
@[simp] theorem modPbank_cfgHeld (b : Nat) (f : Bank → Bank) (s : State) : (modPbank b f s).cfgHeld = s.cfgHeld := rfl
@[simp] theorem modPbank_regHeld (b : Nat) (f : Bank → Bank) (s : State) : (modPbank b f s).regHeld = s.regHeld := rfl
@[simp] theorem modPbank_sqc (b : Nat) (f : Bank → Bank) (s : State) : (modPbank b f s).sqc = s.sqc := rfl
@[simp] theorem modCbank_pending (b : Nat) (f : Bank → Bank) (s : State) : (modCbank b f s).pending = s.pending := rfl
@[simp] theorem modCbank_free (b : Nat) (f : Bank → Bank) (s : State) : (modCbank b f s).free = s.free := rfl
@[simp] theorem modCbank_wire (b : Nat) (f : Bank → Bank) (s : State) : (modCbank b f s).wire = s.wire := rfl
@[simp] theorem modCbank_part (b : Nat) (f : Bank → Bank) (s : State) : (modCbank b f s).part = s.part := rfl
@[simp] theorem modCbank_otp (b : Nat) (f : Bank → Bank) (s : State) : (modCbank b f s).otp = s.otp := rfl
@[simp] theorem modCbank_dev (b : Nat) (f : Bank → Bank) (s : State) : (modCbank b f s).dev = s.dev := rfl
@[simp] theorem modCbank_power (b : Nat) (f : Bank → Bank) (s : State) : (modCbank b f s).power = s.power := rfl
@[simp] theorem modCbank_warm (b : Nat) (f : Bank → Bank) (s : State) : (modCbank b f s).warm = s.warm := rfl
@[simp] theorem modCbank_lich (b : Nat) (f : Bank → Bank) (s : State) : (modCbank b f s).lich = s.lich := rfl
@[simp] theorem modCbank_hostA (b : Nat) (f : Bank → Bank) (s : State) : (modCbank b f s).hostA = s.hostA := rfl
@[simp] theorem modCbank_hostB (b : Nat) (f : Bank → Bank) (s : State) : (modCbank b f s).hostB = s.hostB := rfl
@[simp] theorem modCbank_arrivals (b : Nat) (f : Bank → Bank) (s : State) : (modCbank b f s).arrivals = s.arrivals := rfl
@[simp] theorem modCbank_ops (b : Nat) (f : Bank → Bank) (s : State) : (modCbank b f s).ops = s.ops := rfl
@[simp] theorem modCbank_lastA (b : Nat) (f : Bank → Bank) (s : State) : (modCbank b f s).lastA = s.lastA := rfl
@[simp] theorem modCbank_sems (b : Nat) (f : Bank → Bank) (s : State) : (modCbank b f s).sems = s.sems := rfl
@[simp] theorem modCbank_ports (b : Nat) (f : Bank → Bank) (s : State) : (modCbank b f s).ports = s.ports := rfl
@[simp] theorem modCbank_ctxs (b : Nat) (f : Bank → Bank) (s : State) : (modCbank b f s).ctxs = s.ctxs := rfl
@[simp] theorem modCbank_xfers (b : Nat) (f : Bank → Bank) (s : State) : (modCbank b f s).xfers = s.xfers := rfl
@[simp] theorem modCbank_queues (b : Nat) (f : Bank → Bank) (s : State) : (modCbank b f s).queues = s.queues := rfl
@[simp] theorem modCbank_pool (b : Nat) (f : Bank → Bank) (s : State) : (modCbank b f s).pool = s.pool := rfl
@[simp] theorem modCbank_mail (b : Nat) (f : Bank → Bank) (s : State) : (modCbank b f s).mail = s.mail := rfl
@[simp] theorem modCbank_mbx (b : Nat) (f : Bank → Bank) (s : State) : (modCbank b f s).mbx = s.mbx := rfl
@[simp] theorem modCbank_peat (b : Nat) (f : Bank → Bank) (s : State) : (modCbank b f s).peat = s.peat := rfl
@[simp] theorem modCbank_stok (b : Nat) (f : Bank → Bank) (s : State) : (modCbank b f s).stok = s.stok := rfl
@[simp] theorem modCbank_ledger (b : Nat) (f : Bank → Bank) (s : State) : (modCbank b f s).ledger = s.ledger := rfl
@[simp] theorem modCbank_test (b : Nat) (f : Bank → Bank) (s : State) : (modCbank b f s).test = s.test := rfl
@[simp] theorem modCbank_testQ (b : Nat) (f : Bank → Bank) (s : State) : (modCbank b f s).testQ = s.testQ := rfl
@[simp] theorem modCbank_cal (b : Nat) (f : Bank → Bank) (s : State) : (modCbank b f s).cal = s.cal := rfl
@[simp] theorem modCbank_flts (b : Nat) (f : Bank → Bank) (s : State) : (modCbank b f s).flts = s.flts := rfl
@[simp] theorem modCbank_fltLast (b : Nat) (f : Bank → Bank) (s : State) : (modCbank b f s).fltLast = s.fltLast := rfl
@[simp] theorem modCbank_fltWait (b : Nat) (f : Bank → Bank) (s : State) : (modCbank b f s).fltWait = s.fltWait := rfl
@[simp] theorem modCbank_fltIn (b : Nat) (f : Bank → Bank) (s : State) : (modCbank b f s).fltIn = s.fltIn := rfl
@[simp] theorem modCbank_cans (b : Nat) (f : Bank → Bank) (s : State) : (modCbank b f s).cans = s.cans := rfl
@[simp] theorem modCbank_time (b : Nat) (f : Bank → Bank) (s : State) : (modCbank b f s).time = s.time := rfl
@[simp] theorem modCbank_feedA (b : Nat) (f : Bank → Bank) (s : State) : (modCbank b f s).feedA = s.feedA := rfl
@[simp] theorem modCbank_feedB (b : Nat) (f : Bank → Bank) (s : State) : (modCbank b f s).feedB = s.feedB := rfl
@[simp] theorem modCbank_board (b : Nat) (f : Bank → Bank) (s : State) : (modCbank b f s).board = s.board := rfl
@[simp] theorem modCbank_svc (b : Nat) (f : Bank → Bank) (s : State) : (modCbank b f s).svc = s.svc := rfl
@[simp] theorem modCbank_insts (b : Nat) (f : Bank → Bank) (s : State) : (modCbank b f s).insts = s.insts := rfl
@[simp] theorem modCbank_trunks (b : Nat) (f : Bank → Bank) (s : State) : (modCbank b f s).trunks = s.trunks := rfl
@[simp] theorem modCbank_net (b : Nat) (f : Bank → Bank) (s : State) : (modCbank b f s).net = s.net := rfl
@[simp] theorem modCbank_fw (b : Nat) (f : Bank → Bank) (s : State) : (modCbank b f s).fw = s.fw := rfl
@[simp] theorem modCbank_sec (b : Nat) (f : Bank → Bank) (s : State) : (modCbank b f s).sec = s.sec := rfl
@[simp] theorem modCbank_cfg (b : Nat) (f : Bank → Bank) (s : State) : (modCbank b f s).cfg = s.cfg := rfl
@[simp] theorem modCbank_cfgCopy (b : Nat) (f : Bank → Bank) (s : State) : (modCbank b f s).cfgCopy = s.cfgCopy := rfl
@[simp] theorem modCbank_cfgBad (b : Nat) (f : Bank → Bank) (s : State) : (modCbank b f s).cfgBad = s.cfgBad := rfl
@[simp] theorem modCbank_cfgHeld (b : Nat) (f : Bank → Bank) (s : State) : (modCbank b f s).cfgHeld = s.cfgHeld := rfl
@[simp] theorem modCbank_regHeld (b : Nat) (f : Bank → Bank) (s : State) : (modCbank b f s).regHeld = s.regHeld := rfl
@[simp] theorem modCbank_sqc (b : Nat) (f : Bank → Bank) (s : State) : (modCbank b f s).sqc = s.sqc := rfl
@[simp] theorem setCan_pending (c : Nat) (r : Can) (s : State) : (setCan c r s).pending = s.pending := rfl
@[simp] theorem setCan_free (c : Nat) (r : Can) (s : State) : (setCan c r s).free = s.free := rfl
@[simp] theorem setCan_wire (c : Nat) (r : Can) (s : State) : (setCan c r s).wire = s.wire := rfl
@[simp] theorem setCan_part (c : Nat) (r : Can) (s : State) : (setCan c r s).part = s.part := rfl
@[simp] theorem setCan_otp (c : Nat) (r : Can) (s : State) : (setCan c r s).otp = s.otp := rfl
@[simp] theorem setCan_dev (c : Nat) (r : Can) (s : State) : (setCan c r s).dev = s.dev := rfl
@[simp] theorem setCan_power (c : Nat) (r : Can) (s : State) : (setCan c r s).power = s.power := rfl
@[simp] theorem setCan_warm (c : Nat) (r : Can) (s : State) : (setCan c r s).warm = s.warm := rfl
@[simp] theorem setCan_lich (c : Nat) (r : Can) (s : State) : (setCan c r s).lich = s.lich := rfl
@[simp] theorem setCan_hostA (c : Nat) (r : Can) (s : State) : (setCan c r s).hostA = s.hostA := rfl
@[simp] theorem setCan_hostB (c : Nat) (r : Can) (s : State) : (setCan c r s).hostB = s.hostB := rfl
@[simp] theorem setCan_arrivals (c : Nat) (r : Can) (s : State) : (setCan c r s).arrivals = s.arrivals := rfl
@[simp] theorem setCan_ops (c : Nat) (r : Can) (s : State) : (setCan c r s).ops = s.ops := rfl
@[simp] theorem setCan_lastA (c : Nat) (r : Can) (s : State) : (setCan c r s).lastA = s.lastA := rfl
@[simp] theorem setCan_sems (c : Nat) (r : Can) (s : State) : (setCan c r s).sems = s.sems := rfl
@[simp] theorem setCan_ports (c : Nat) (r : Can) (s : State) : (setCan c r s).ports = s.ports := rfl
@[simp] theorem setCan_ctxs (c : Nat) (r : Can) (s : State) : (setCan c r s).ctxs = s.ctxs := rfl
@[simp] theorem setCan_xfers (c : Nat) (r : Can) (s : State) : (setCan c r s).xfers = s.xfers := rfl
@[simp] theorem setCan_queues (c : Nat) (r : Can) (s : State) : (setCan c r s).queues = s.queues := rfl
@[simp] theorem setCan_pool (c : Nat) (r : Can) (s : State) : (setCan c r s).pool = s.pool := rfl
@[simp] theorem setCan_ctrl (c : Nat) (r : Can) (s : State) : (setCan c r s).ctrl = s.ctrl := rfl
@[simp] theorem setCan_mail (c : Nat) (r : Can) (s : State) : (setCan c r s).mail = s.mail := rfl
@[simp] theorem setCan_mbx (c : Nat) (r : Can) (s : State) : (setCan c r s).mbx = s.mbx := rfl
@[simp] theorem setCan_peat (c : Nat) (r : Can) (s : State) : (setCan c r s).peat = s.peat := rfl
@[simp] theorem setCan_stok (c : Nat) (r : Can) (s : State) : (setCan c r s).stok = s.stok := rfl
@[simp] theorem setCan_ledger (c : Nat) (r : Can) (s : State) : (setCan c r s).ledger = s.ledger := rfl
@[simp] theorem setCan_test (c : Nat) (r : Can) (s : State) : (setCan c r s).test = s.test := rfl
@[simp] theorem setCan_testQ (c : Nat) (r : Can) (s : State) : (setCan c r s).testQ = s.testQ := rfl
@[simp] theorem setCan_cal (c : Nat) (r : Can) (s : State) : (setCan c r s).cal = s.cal := rfl
@[simp] theorem setCan_flts (c : Nat) (r : Can) (s : State) : (setCan c r s).flts = s.flts := rfl
@[simp] theorem setCan_fltLast (c : Nat) (r : Can) (s : State) : (setCan c r s).fltLast = s.fltLast := rfl
@[simp] theorem setCan_fltWait (c : Nat) (r : Can) (s : State) : (setCan c r s).fltWait = s.fltWait := rfl
@[simp] theorem setCan_fltIn (c : Nat) (r : Can) (s : State) : (setCan c r s).fltIn = s.fltIn := rfl
@[simp] theorem setCan_time (c : Nat) (r : Can) (s : State) : (setCan c r s).time = s.time := rfl
@[simp] theorem setCan_feedA (c : Nat) (r : Can) (s : State) : (setCan c r s).feedA = s.feedA := rfl
@[simp] theorem setCan_feedB (c : Nat) (r : Can) (s : State) : (setCan c r s).feedB = s.feedB := rfl
@[simp] theorem setCan_board (c : Nat) (r : Can) (s : State) : (setCan c r s).board = s.board := rfl
@[simp] theorem setCan_svc (c : Nat) (r : Can) (s : State) : (setCan c r s).svc = s.svc := rfl
@[simp] theorem setCan_insts (c : Nat) (r : Can) (s : State) : (setCan c r s).insts = s.insts := rfl
@[simp] theorem setCan_trunks (c : Nat) (r : Can) (s : State) : (setCan c r s).trunks = s.trunks := rfl
@[simp] theorem setCan_net (c : Nat) (r : Can) (s : State) : (setCan c r s).net = s.net := rfl
@[simp] theorem setCan_fw (c : Nat) (r : Can) (s : State) : (setCan c r s).fw = s.fw := rfl
@[simp] theorem setCan_sec (c : Nat) (r : Can) (s : State) : (setCan c r s).sec = s.sec := rfl
@[simp] theorem setCan_cfg (c : Nat) (r : Can) (s : State) : (setCan c r s).cfg = s.cfg := rfl
@[simp] theorem setCan_cfgCopy (c : Nat) (r : Can) (s : State) : (setCan c r s).cfgCopy = s.cfgCopy := rfl
@[simp] theorem setCan_cfgBad (c : Nat) (r : Can) (s : State) : (setCan c r s).cfgBad = s.cfgBad := rfl
@[simp] theorem setCan_cfgHeld (c : Nat) (r : Can) (s : State) : (setCan c r s).cfgHeld = s.cfgHeld := rfl
@[simp] theorem setCan_regHeld (c : Nat) (r : Can) (s : State) : (setCan c r s).regHeld = s.regHeld := rfl
@[simp] theorem setCan_sqc (c : Nat) (r : Can) (s : State) : (setCan c r s).sqc = s.sqc := rfl
@[simp] theorem modCan_pending (c : Nat) (f : Can → Can) (s : State) : (modCan c f s).pending = s.pending := rfl
@[simp] theorem modCan_free (c : Nat) (f : Can → Can) (s : State) : (modCan c f s).free = s.free := rfl
@[simp] theorem modCan_wire (c : Nat) (f : Can → Can) (s : State) : (modCan c f s).wire = s.wire := rfl
@[simp] theorem modCan_part (c : Nat) (f : Can → Can) (s : State) : (modCan c f s).part = s.part := rfl
@[simp] theorem modCan_otp (c : Nat) (f : Can → Can) (s : State) : (modCan c f s).otp = s.otp := rfl
@[simp] theorem modCan_dev (c : Nat) (f : Can → Can) (s : State) : (modCan c f s).dev = s.dev := rfl
@[simp] theorem modCan_power (c : Nat) (f : Can → Can) (s : State) : (modCan c f s).power = s.power := rfl
@[simp] theorem modCan_warm (c : Nat) (f : Can → Can) (s : State) : (modCan c f s).warm = s.warm := rfl
@[simp] theorem modCan_lich (c : Nat) (f : Can → Can) (s : State) : (modCan c f s).lich = s.lich := rfl
@[simp] theorem modCan_hostA (c : Nat) (f : Can → Can) (s : State) : (modCan c f s).hostA = s.hostA := rfl
@[simp] theorem modCan_hostB (c : Nat) (f : Can → Can) (s : State) : (modCan c f s).hostB = s.hostB := rfl
@[simp] theorem modCan_arrivals (c : Nat) (f : Can → Can) (s : State) : (modCan c f s).arrivals = s.arrivals := rfl
@[simp] theorem modCan_ops (c : Nat) (f : Can → Can) (s : State) : (modCan c f s).ops = s.ops := rfl
@[simp] theorem modCan_lastA (c : Nat) (f : Can → Can) (s : State) : (modCan c f s).lastA = s.lastA := rfl
@[simp] theorem modCan_sems (c : Nat) (f : Can → Can) (s : State) : (modCan c f s).sems = s.sems := rfl
@[simp] theorem modCan_ports (c : Nat) (f : Can → Can) (s : State) : (modCan c f s).ports = s.ports := rfl
@[simp] theorem modCan_ctxs (c : Nat) (f : Can → Can) (s : State) : (modCan c f s).ctxs = s.ctxs := rfl
@[simp] theorem modCan_xfers (c : Nat) (f : Can → Can) (s : State) : (modCan c f s).xfers = s.xfers := rfl
@[simp] theorem modCan_queues (c : Nat) (f : Can → Can) (s : State) : (modCan c f s).queues = s.queues := rfl
@[simp] theorem modCan_pool (c : Nat) (f : Can → Can) (s : State) : (modCan c f s).pool = s.pool := rfl
@[simp] theorem modCan_ctrl (c : Nat) (f : Can → Can) (s : State) : (modCan c f s).ctrl = s.ctrl := rfl
@[simp] theorem modCan_mail (c : Nat) (f : Can → Can) (s : State) : (modCan c f s).mail = s.mail := rfl
@[simp] theorem modCan_mbx (c : Nat) (f : Can → Can) (s : State) : (modCan c f s).mbx = s.mbx := rfl
@[simp] theorem modCan_peat (c : Nat) (f : Can → Can) (s : State) : (modCan c f s).peat = s.peat := rfl
@[simp] theorem modCan_stok (c : Nat) (f : Can → Can) (s : State) : (modCan c f s).stok = s.stok := rfl
@[simp] theorem modCan_ledger (c : Nat) (f : Can → Can) (s : State) : (modCan c f s).ledger = s.ledger := rfl
@[simp] theorem modCan_test (c : Nat) (f : Can → Can) (s : State) : (modCan c f s).test = s.test := rfl
@[simp] theorem modCan_testQ (c : Nat) (f : Can → Can) (s : State) : (modCan c f s).testQ = s.testQ := rfl
@[simp] theorem modCan_cal (c : Nat) (f : Can → Can) (s : State) : (modCan c f s).cal = s.cal := rfl
@[simp] theorem modCan_flts (c : Nat) (f : Can → Can) (s : State) : (modCan c f s).flts = s.flts := rfl
@[simp] theorem modCan_fltLast (c : Nat) (f : Can → Can) (s : State) : (modCan c f s).fltLast = s.fltLast := rfl
@[simp] theorem modCan_fltWait (c : Nat) (f : Can → Can) (s : State) : (modCan c f s).fltWait = s.fltWait := rfl
@[simp] theorem modCan_fltIn (c : Nat) (f : Can → Can) (s : State) : (modCan c f s).fltIn = s.fltIn := rfl
@[simp] theorem modCan_time (c : Nat) (f : Can → Can) (s : State) : (modCan c f s).time = s.time := rfl
@[simp] theorem modCan_feedA (c : Nat) (f : Can → Can) (s : State) : (modCan c f s).feedA = s.feedA := rfl
@[simp] theorem modCan_feedB (c : Nat) (f : Can → Can) (s : State) : (modCan c f s).feedB = s.feedB := rfl
@[simp] theorem modCan_board (c : Nat) (f : Can → Can) (s : State) : (modCan c f s).board = s.board := rfl
@[simp] theorem modCan_svc (c : Nat) (f : Can → Can) (s : State) : (modCan c f s).svc = s.svc := rfl
@[simp] theorem modCan_insts (c : Nat) (f : Can → Can) (s : State) : (modCan c f s).insts = s.insts := rfl
@[simp] theorem modCan_trunks (c : Nat) (f : Can → Can) (s : State) : (modCan c f s).trunks = s.trunks := rfl
@[simp] theorem modCan_net (c : Nat) (f : Can → Can) (s : State) : (modCan c f s).net = s.net := rfl
@[simp] theorem modCan_fw (c : Nat) (f : Can → Can) (s : State) : (modCan c f s).fw = s.fw := rfl
@[simp] theorem modCan_sec (c : Nat) (f : Can → Can) (s : State) : (modCan c f s).sec = s.sec := rfl
@[simp] theorem modCan_cfg (c : Nat) (f : Can → Can) (s : State) : (modCan c f s).cfg = s.cfg := rfl
@[simp] theorem modCan_cfgCopy (c : Nat) (f : Can → Can) (s : State) : (modCan c f s).cfgCopy = s.cfgCopy := rfl
@[simp] theorem modCan_cfgBad (c : Nat) (f : Can → Can) (s : State) : (modCan c f s).cfgBad = s.cfgBad := rfl
@[simp] theorem modCan_cfgHeld (c : Nat) (f : Can → Can) (s : State) : (modCan c f s).cfgHeld = s.cfgHeld := rfl
@[simp] theorem modCan_regHeld (c : Nat) (f : Can → Can) (s : State) : (modCan c f s).regHeld = s.regHeld := rfl
@[simp] theorem modCan_sqc (c : Nat) (f : Can → Can) (s : State) : (modCan c f s).sqc = s.sqc := rfl
@[simp] theorem modObj_pending (c k : Nat) (f : CanObj → CanObj) (s : State) : (modObj c k f s).pending = s.pending := rfl
@[simp] theorem modObj_free (c k : Nat) (f : CanObj → CanObj) (s : State) : (modObj c k f s).free = s.free := rfl
@[simp] theorem modObj_wire (c k : Nat) (f : CanObj → CanObj) (s : State) : (modObj c k f s).wire = s.wire := rfl
@[simp] theorem modObj_part (c k : Nat) (f : CanObj → CanObj) (s : State) : (modObj c k f s).part = s.part := rfl
@[simp] theorem modObj_otp (c k : Nat) (f : CanObj → CanObj) (s : State) : (modObj c k f s).otp = s.otp := rfl
@[simp] theorem modObj_dev (c k : Nat) (f : CanObj → CanObj) (s : State) : (modObj c k f s).dev = s.dev := rfl
@[simp] theorem modObj_power (c k : Nat) (f : CanObj → CanObj) (s : State) : (modObj c k f s).power = s.power := rfl
@[simp] theorem modObj_warm (c k : Nat) (f : CanObj → CanObj) (s : State) : (modObj c k f s).warm = s.warm := rfl
@[simp] theorem modObj_lich (c k : Nat) (f : CanObj → CanObj) (s : State) : (modObj c k f s).lich = s.lich := rfl
@[simp] theorem modObj_hostA (c k : Nat) (f : CanObj → CanObj) (s : State) : (modObj c k f s).hostA = s.hostA := rfl
@[simp] theorem modObj_hostB (c k : Nat) (f : CanObj → CanObj) (s : State) : (modObj c k f s).hostB = s.hostB := rfl
@[simp] theorem modObj_arrivals (c k : Nat) (f : CanObj → CanObj) (s : State) : (modObj c k f s).arrivals = s.arrivals := rfl
@[simp] theorem modObj_ops (c k : Nat) (f : CanObj → CanObj) (s : State) : (modObj c k f s).ops = s.ops := rfl
@[simp] theorem modObj_lastA (c k : Nat) (f : CanObj → CanObj) (s : State) : (modObj c k f s).lastA = s.lastA := rfl
@[simp] theorem modObj_sems (c k : Nat) (f : CanObj → CanObj) (s : State) : (modObj c k f s).sems = s.sems := rfl
@[simp] theorem modObj_ports (c k : Nat) (f : CanObj → CanObj) (s : State) : (modObj c k f s).ports = s.ports := rfl
@[simp] theorem modObj_ctxs (c k : Nat) (f : CanObj → CanObj) (s : State) : (modObj c k f s).ctxs = s.ctxs := rfl
@[simp] theorem modObj_xfers (c k : Nat) (f : CanObj → CanObj) (s : State) : (modObj c k f s).xfers = s.xfers := rfl
@[simp] theorem modObj_queues (c k : Nat) (f : CanObj → CanObj) (s : State) : (modObj c k f s).queues = s.queues := rfl
@[simp] theorem modObj_pool (c k : Nat) (f : CanObj → CanObj) (s : State) : (modObj c k f s).pool = s.pool := rfl
@[simp] theorem modObj_ctrl (c k : Nat) (f : CanObj → CanObj) (s : State) : (modObj c k f s).ctrl = s.ctrl := rfl
@[simp] theorem modObj_mail (c k : Nat) (f : CanObj → CanObj) (s : State) : (modObj c k f s).mail = s.mail := rfl
@[simp] theorem modObj_mbx (c k : Nat) (f : CanObj → CanObj) (s : State) : (modObj c k f s).mbx = s.mbx := rfl
@[simp] theorem modObj_peat (c k : Nat) (f : CanObj → CanObj) (s : State) : (modObj c k f s).peat = s.peat := rfl
@[simp] theorem modObj_stok (c k : Nat) (f : CanObj → CanObj) (s : State) : (modObj c k f s).stok = s.stok := rfl
@[simp] theorem modObj_ledger (c k : Nat) (f : CanObj → CanObj) (s : State) : (modObj c k f s).ledger = s.ledger := rfl
@[simp] theorem modObj_test (c k : Nat) (f : CanObj → CanObj) (s : State) : (modObj c k f s).test = s.test := rfl
@[simp] theorem modObj_testQ (c k : Nat) (f : CanObj → CanObj) (s : State) : (modObj c k f s).testQ = s.testQ := rfl
@[simp] theorem modObj_cal (c k : Nat) (f : CanObj → CanObj) (s : State) : (modObj c k f s).cal = s.cal := rfl
@[simp] theorem modObj_flts (c k : Nat) (f : CanObj → CanObj) (s : State) : (modObj c k f s).flts = s.flts := rfl
@[simp] theorem modObj_fltLast (c k : Nat) (f : CanObj → CanObj) (s : State) : (modObj c k f s).fltLast = s.fltLast := rfl
@[simp] theorem modObj_fltWait (c k : Nat) (f : CanObj → CanObj) (s : State) : (modObj c k f s).fltWait = s.fltWait := rfl
@[simp] theorem modObj_fltIn (c k : Nat) (f : CanObj → CanObj) (s : State) : (modObj c k f s).fltIn = s.fltIn := rfl
@[simp] theorem modObj_time (c k : Nat) (f : CanObj → CanObj) (s : State) : (modObj c k f s).time = s.time := rfl
@[simp] theorem modObj_feedA (c k : Nat) (f : CanObj → CanObj) (s : State) : (modObj c k f s).feedA = s.feedA := rfl
@[simp] theorem modObj_feedB (c k : Nat) (f : CanObj → CanObj) (s : State) : (modObj c k f s).feedB = s.feedB := rfl
@[simp] theorem modObj_board (c k : Nat) (f : CanObj → CanObj) (s : State) : (modObj c k f s).board = s.board := rfl
@[simp] theorem modObj_svc (c k : Nat) (f : CanObj → CanObj) (s : State) : (modObj c k f s).svc = s.svc := rfl
@[simp] theorem modObj_insts (c k : Nat) (f : CanObj → CanObj) (s : State) : (modObj c k f s).insts = s.insts := rfl
@[simp] theorem modObj_trunks (c k : Nat) (f : CanObj → CanObj) (s : State) : (modObj c k f s).trunks = s.trunks := rfl
@[simp] theorem modObj_net (c k : Nat) (f : CanObj → CanObj) (s : State) : (modObj c k f s).net = s.net := rfl
@[simp] theorem modObj_fw (c k : Nat) (f : CanObj → CanObj) (s : State) : (modObj c k f s).fw = s.fw := rfl
@[simp] theorem modObj_sec (c k : Nat) (f : CanObj → CanObj) (s : State) : (modObj c k f s).sec = s.sec := rfl
@[simp] theorem modObj_cfg (c k : Nat) (f : CanObj → CanObj) (s : State) : (modObj c k f s).cfg = s.cfg := rfl
@[simp] theorem modObj_cfgCopy (c k : Nat) (f : CanObj → CanObj) (s : State) : (modObj c k f s).cfgCopy = s.cfgCopy := rfl
@[simp] theorem modObj_cfgBad (c k : Nat) (f : CanObj → CanObj) (s : State) : (modObj c k f s).cfgBad = s.cfgBad := rfl
@[simp] theorem modObj_cfgHeld (c k : Nat) (f : CanObj → CanObj) (s : State) : (modObj c k f s).cfgHeld = s.cfgHeld := rfl
@[simp] theorem modObj_regHeld (c k : Nat) (f : CanObj → CanObj) (s : State) : (modObj c k f s).regHeld = s.regHeld := rfl
@[simp] theorem modObj_sqc (c k : Nat) (f : CanObj → CanObj) (s : State) : (modObj c k f s).sqc = s.sqc := rfl
@[simp] theorem setTrunk_pending (n : Nat) (r : Trunk) (s : State) : (setTrunk n r s).pending = s.pending := rfl
@[simp] theorem setTrunk_free (n : Nat) (r : Trunk) (s : State) : (setTrunk n r s).free = s.free := rfl
@[simp] theorem setTrunk_wire (n : Nat) (r : Trunk) (s : State) : (setTrunk n r s).wire = s.wire := rfl
@[simp] theorem setTrunk_part (n : Nat) (r : Trunk) (s : State) : (setTrunk n r s).part = s.part := rfl
@[simp] theorem setTrunk_otp (n : Nat) (r : Trunk) (s : State) : (setTrunk n r s).otp = s.otp := rfl
@[simp] theorem setTrunk_dev (n : Nat) (r : Trunk) (s : State) : (setTrunk n r s).dev = s.dev := rfl
@[simp] theorem setTrunk_power (n : Nat) (r : Trunk) (s : State) : (setTrunk n r s).power = s.power := rfl
@[simp] theorem setTrunk_warm (n : Nat) (r : Trunk) (s : State) : (setTrunk n r s).warm = s.warm := rfl
@[simp] theorem setTrunk_lich (n : Nat) (r : Trunk) (s : State) : (setTrunk n r s).lich = s.lich := rfl
@[simp] theorem setTrunk_hostA (n : Nat) (r : Trunk) (s : State) : (setTrunk n r s).hostA = s.hostA := rfl
@[simp] theorem setTrunk_hostB (n : Nat) (r : Trunk) (s : State) : (setTrunk n r s).hostB = s.hostB := rfl
@[simp] theorem setTrunk_arrivals (n : Nat) (r : Trunk) (s : State) : (setTrunk n r s).arrivals = s.arrivals := rfl
@[simp] theorem setTrunk_ops (n : Nat) (r : Trunk) (s : State) : (setTrunk n r s).ops = s.ops := rfl
@[simp] theorem setTrunk_lastA (n : Nat) (r : Trunk) (s : State) : (setTrunk n r s).lastA = s.lastA := rfl
@[simp] theorem setTrunk_sems (n : Nat) (r : Trunk) (s : State) : (setTrunk n r s).sems = s.sems := rfl
@[simp] theorem setTrunk_ports (n : Nat) (r : Trunk) (s : State) : (setTrunk n r s).ports = s.ports := rfl
@[simp] theorem setTrunk_ctxs (n : Nat) (r : Trunk) (s : State) : (setTrunk n r s).ctxs = s.ctxs := rfl
@[simp] theorem setTrunk_xfers (n : Nat) (r : Trunk) (s : State) : (setTrunk n r s).xfers = s.xfers := rfl
@[simp] theorem setTrunk_queues (n : Nat) (r : Trunk) (s : State) : (setTrunk n r s).queues = s.queues := rfl
@[simp] theorem setTrunk_pool (n : Nat) (r : Trunk) (s : State) : (setTrunk n r s).pool = s.pool := rfl
@[simp] theorem setTrunk_ctrl (n : Nat) (r : Trunk) (s : State) : (setTrunk n r s).ctrl = s.ctrl := rfl
@[simp] theorem setTrunk_mail (n : Nat) (r : Trunk) (s : State) : (setTrunk n r s).mail = s.mail := rfl
@[simp] theorem setTrunk_mbx (n : Nat) (r : Trunk) (s : State) : (setTrunk n r s).mbx = s.mbx := rfl
@[simp] theorem setTrunk_peat (n : Nat) (r : Trunk) (s : State) : (setTrunk n r s).peat = s.peat := rfl
@[simp] theorem setTrunk_stok (n : Nat) (r : Trunk) (s : State) : (setTrunk n r s).stok = s.stok := rfl
@[simp] theorem setTrunk_ledger (n : Nat) (r : Trunk) (s : State) : (setTrunk n r s).ledger = s.ledger := rfl
@[simp] theorem setTrunk_test (n : Nat) (r : Trunk) (s : State) : (setTrunk n r s).test = s.test := rfl
@[simp] theorem setTrunk_testQ (n : Nat) (r : Trunk) (s : State) : (setTrunk n r s).testQ = s.testQ := rfl
@[simp] theorem setTrunk_cal (n : Nat) (r : Trunk) (s : State) : (setTrunk n r s).cal = s.cal := rfl
@[simp] theorem setTrunk_flts (n : Nat) (r : Trunk) (s : State) : (setTrunk n r s).flts = s.flts := rfl
@[simp] theorem setTrunk_fltLast (n : Nat) (r : Trunk) (s : State) : (setTrunk n r s).fltLast = s.fltLast := rfl
@[simp] theorem setTrunk_fltWait (n : Nat) (r : Trunk) (s : State) : (setTrunk n r s).fltWait = s.fltWait := rfl
@[simp] theorem setTrunk_fltIn (n : Nat) (r : Trunk) (s : State) : (setTrunk n r s).fltIn = s.fltIn := rfl
@[simp] theorem setTrunk_cans (n : Nat) (r : Trunk) (s : State) : (setTrunk n r s).cans = s.cans := rfl
@[simp] theorem setTrunk_time (n : Nat) (r : Trunk) (s : State) : (setTrunk n r s).time = s.time := rfl
@[simp] theorem setTrunk_feedA (n : Nat) (r : Trunk) (s : State) : (setTrunk n r s).feedA = s.feedA := rfl
@[simp] theorem setTrunk_feedB (n : Nat) (r : Trunk) (s : State) : (setTrunk n r s).feedB = s.feedB := rfl
@[simp] theorem setTrunk_board (n : Nat) (r : Trunk) (s : State) : (setTrunk n r s).board = s.board := rfl
@[simp] theorem setTrunk_svc (n : Nat) (r : Trunk) (s : State) : (setTrunk n r s).svc = s.svc := rfl
@[simp] theorem setTrunk_insts (n : Nat) (r : Trunk) (s : State) : (setTrunk n r s).insts = s.insts := rfl
@[simp] theorem setTrunk_net (n : Nat) (r : Trunk) (s : State) : (setTrunk n r s).net = s.net := rfl
@[simp] theorem setTrunk_fw (n : Nat) (r : Trunk) (s : State) : (setTrunk n r s).fw = s.fw := rfl
@[simp] theorem setTrunk_sec (n : Nat) (r : Trunk) (s : State) : (setTrunk n r s).sec = s.sec := rfl
@[simp] theorem setTrunk_cfg (n : Nat) (r : Trunk) (s : State) : (setTrunk n r s).cfg = s.cfg := rfl
@[simp] theorem setTrunk_cfgCopy (n : Nat) (r : Trunk) (s : State) : (setTrunk n r s).cfgCopy = s.cfgCopy := rfl
@[simp] theorem setTrunk_cfgBad (n : Nat) (r : Trunk) (s : State) : (setTrunk n r s).cfgBad = s.cfgBad := rfl
@[simp] theorem setTrunk_cfgHeld (n : Nat) (r : Trunk) (s : State) : (setTrunk n r s).cfgHeld = s.cfgHeld := rfl
@[simp] theorem setTrunk_regHeld (n : Nat) (r : Trunk) (s : State) : (setTrunk n r s).regHeld = s.regHeld := rfl
@[simp] theorem setTrunk_sqc (n : Nat) (r : Trunk) (s : State) : (setTrunk n r s).sqc = s.sqc := rfl
@[simp] theorem modTrunk_pending (n : Nat) (f : Trunk → Trunk) (s : State) : (modTrunk n f s).pending = s.pending := rfl
@[simp] theorem modTrunk_free (n : Nat) (f : Trunk → Trunk) (s : State) : (modTrunk n f s).free = s.free := rfl
@[simp] theorem modTrunk_wire (n : Nat) (f : Trunk → Trunk) (s : State) : (modTrunk n f s).wire = s.wire := rfl
@[simp] theorem modTrunk_part (n : Nat) (f : Trunk → Trunk) (s : State) : (modTrunk n f s).part = s.part := rfl
@[simp] theorem modTrunk_otp (n : Nat) (f : Trunk → Trunk) (s : State) : (modTrunk n f s).otp = s.otp := rfl
@[simp] theorem modTrunk_dev (n : Nat) (f : Trunk → Trunk) (s : State) : (modTrunk n f s).dev = s.dev := rfl
@[simp] theorem modTrunk_power (n : Nat) (f : Trunk → Trunk) (s : State) : (modTrunk n f s).power = s.power := rfl
@[simp] theorem modTrunk_warm (n : Nat) (f : Trunk → Trunk) (s : State) : (modTrunk n f s).warm = s.warm := rfl
@[simp] theorem modTrunk_lich (n : Nat) (f : Trunk → Trunk) (s : State) : (modTrunk n f s).lich = s.lich := rfl
@[simp] theorem modTrunk_hostA (n : Nat) (f : Trunk → Trunk) (s : State) : (modTrunk n f s).hostA = s.hostA := rfl
@[simp] theorem modTrunk_hostB (n : Nat) (f : Trunk → Trunk) (s : State) : (modTrunk n f s).hostB = s.hostB := rfl
@[simp] theorem modTrunk_arrivals (n : Nat) (f : Trunk → Trunk) (s : State) : (modTrunk n f s).arrivals = s.arrivals := rfl
@[simp] theorem modTrunk_ops (n : Nat) (f : Trunk → Trunk) (s : State) : (modTrunk n f s).ops = s.ops := rfl
@[simp] theorem modTrunk_lastA (n : Nat) (f : Trunk → Trunk) (s : State) : (modTrunk n f s).lastA = s.lastA := rfl
@[simp] theorem modTrunk_sems (n : Nat) (f : Trunk → Trunk) (s : State) : (modTrunk n f s).sems = s.sems := rfl
@[simp] theorem modTrunk_ports (n : Nat) (f : Trunk → Trunk) (s : State) : (modTrunk n f s).ports = s.ports := rfl
@[simp] theorem modTrunk_ctxs (n : Nat) (f : Trunk → Trunk) (s : State) : (modTrunk n f s).ctxs = s.ctxs := rfl
@[simp] theorem modTrunk_xfers (n : Nat) (f : Trunk → Trunk) (s : State) : (modTrunk n f s).xfers = s.xfers := rfl
@[simp] theorem modTrunk_queues (n : Nat) (f : Trunk → Trunk) (s : State) : (modTrunk n f s).queues = s.queues := rfl
@[simp] theorem modTrunk_pool (n : Nat) (f : Trunk → Trunk) (s : State) : (modTrunk n f s).pool = s.pool := rfl
@[simp] theorem modTrunk_ctrl (n : Nat) (f : Trunk → Trunk) (s : State) : (modTrunk n f s).ctrl = s.ctrl := rfl
@[simp] theorem modTrunk_mail (n : Nat) (f : Trunk → Trunk) (s : State) : (modTrunk n f s).mail = s.mail := rfl
@[simp] theorem modTrunk_mbx (n : Nat) (f : Trunk → Trunk) (s : State) : (modTrunk n f s).mbx = s.mbx := rfl
@[simp] theorem modTrunk_peat (n : Nat) (f : Trunk → Trunk) (s : State) : (modTrunk n f s).peat = s.peat := rfl
@[simp] theorem modTrunk_stok (n : Nat) (f : Trunk → Trunk) (s : State) : (modTrunk n f s).stok = s.stok := rfl
@[simp] theorem modTrunk_ledger (n : Nat) (f : Trunk → Trunk) (s : State) : (modTrunk n f s).ledger = s.ledger := rfl
@[simp] theorem modTrunk_test (n : Nat) (f : Trunk → Trunk) (s : State) : (modTrunk n f s).test = s.test := rfl
@[simp] theorem modTrunk_testQ (n : Nat) (f : Trunk → Trunk) (s : State) : (modTrunk n f s).testQ = s.testQ := rfl
@[simp] theorem modTrunk_cal (n : Nat) (f : Trunk → Trunk) (s : State) : (modTrunk n f s).cal = s.cal := rfl
@[simp] theorem modTrunk_flts (n : Nat) (f : Trunk → Trunk) (s : State) : (modTrunk n f s).flts = s.flts := rfl
@[simp] theorem modTrunk_fltLast (n : Nat) (f : Trunk → Trunk) (s : State) : (modTrunk n f s).fltLast = s.fltLast := rfl
@[simp] theorem modTrunk_fltWait (n : Nat) (f : Trunk → Trunk) (s : State) : (modTrunk n f s).fltWait = s.fltWait := rfl
@[simp] theorem modTrunk_fltIn (n : Nat) (f : Trunk → Trunk) (s : State) : (modTrunk n f s).fltIn = s.fltIn := rfl
@[simp] theorem modTrunk_cans (n : Nat) (f : Trunk → Trunk) (s : State) : (modTrunk n f s).cans = s.cans := rfl
@[simp] theorem modTrunk_time (n : Nat) (f : Trunk → Trunk) (s : State) : (modTrunk n f s).time = s.time := rfl
@[simp] theorem modTrunk_feedA (n : Nat) (f : Trunk → Trunk) (s : State) : (modTrunk n f s).feedA = s.feedA := rfl
@[simp] theorem modTrunk_feedB (n : Nat) (f : Trunk → Trunk) (s : State) : (modTrunk n f s).feedB = s.feedB := rfl
@[simp] theorem modTrunk_board (n : Nat) (f : Trunk → Trunk) (s : State) : (modTrunk n f s).board = s.board := rfl
@[simp] theorem modTrunk_svc (n : Nat) (f : Trunk → Trunk) (s : State) : (modTrunk n f s).svc = s.svc := rfl
@[simp] theorem modTrunk_insts (n : Nat) (f : Trunk → Trunk) (s : State) : (modTrunk n f s).insts = s.insts := rfl
@[simp] theorem modTrunk_net (n : Nat) (f : Trunk → Trunk) (s : State) : (modTrunk n f s).net = s.net := rfl
@[simp] theorem modTrunk_fw (n : Nat) (f : Trunk → Trunk) (s : State) : (modTrunk n f s).fw = s.fw := rfl
@[simp] theorem modTrunk_sec (n : Nat) (f : Trunk → Trunk) (s : State) : (modTrunk n f s).sec = s.sec := rfl
@[simp] theorem modTrunk_cfg (n : Nat) (f : Trunk → Trunk) (s : State) : (modTrunk n f s).cfg = s.cfg := rfl
@[simp] theorem modTrunk_cfgCopy (n : Nat) (f : Trunk → Trunk) (s : State) : (modTrunk n f s).cfgCopy = s.cfgCopy := rfl
@[simp] theorem modTrunk_cfgBad (n : Nat) (f : Trunk → Trunk) (s : State) : (modTrunk n f s).cfgBad = s.cfgBad := rfl
@[simp] theorem modTrunk_cfgHeld (n : Nat) (f : Trunk → Trunk) (s : State) : (modTrunk n f s).cfgHeld = s.cfgHeld := rfl
@[simp] theorem modTrunk_regHeld (n : Nat) (f : Trunk → Trunk) (s : State) : (modTrunk n f s).regHeld = s.regHeld := rfl
@[simp] theorem modTrunk_sqc (n : Nat) (f : Trunk → Trunk) (s : State) : (modTrunk n f s).sqc = s.sqc := rfl
@[simp] theorem modInst_pending (i : Nat) (f : Instance → Instance) (s : State) : (modInst i f s).pending = s.pending := rfl
@[simp] theorem modInst_free (i : Nat) (f : Instance → Instance) (s : State) : (modInst i f s).free = s.free := rfl
@[simp] theorem modInst_wire (i : Nat) (f : Instance → Instance) (s : State) : (modInst i f s).wire = s.wire := rfl
@[simp] theorem modInst_part (i : Nat) (f : Instance → Instance) (s : State) : (modInst i f s).part = s.part := rfl
@[simp] theorem modInst_otp (i : Nat) (f : Instance → Instance) (s : State) : (modInst i f s).otp = s.otp := rfl
@[simp] theorem modInst_dev (i : Nat) (f : Instance → Instance) (s : State) : (modInst i f s).dev = s.dev := rfl
@[simp] theorem modInst_power (i : Nat) (f : Instance → Instance) (s : State) : (modInst i f s).power = s.power := rfl
@[simp] theorem modInst_warm (i : Nat) (f : Instance → Instance) (s : State) : (modInst i f s).warm = s.warm := rfl
@[simp] theorem modInst_lich (i : Nat) (f : Instance → Instance) (s : State) : (modInst i f s).lich = s.lich := rfl
@[simp] theorem modInst_hostA (i : Nat) (f : Instance → Instance) (s : State) : (modInst i f s).hostA = s.hostA := rfl
@[simp] theorem modInst_hostB (i : Nat) (f : Instance → Instance) (s : State) : (modInst i f s).hostB = s.hostB := rfl
@[simp] theorem modInst_arrivals (i : Nat) (f : Instance → Instance) (s : State) : (modInst i f s).arrivals = s.arrivals := rfl
@[simp] theorem modInst_ops (i : Nat) (f : Instance → Instance) (s : State) : (modInst i f s).ops = s.ops := rfl
@[simp] theorem modInst_lastA (i : Nat) (f : Instance → Instance) (s : State) : (modInst i f s).lastA = s.lastA := rfl
@[simp] theorem modInst_sems (i : Nat) (f : Instance → Instance) (s : State) : (modInst i f s).sems = s.sems := rfl
@[simp] theorem modInst_ports (i : Nat) (f : Instance → Instance) (s : State) : (modInst i f s).ports = s.ports := rfl
@[simp] theorem modInst_ctxs (i : Nat) (f : Instance → Instance) (s : State) : (modInst i f s).ctxs = s.ctxs := rfl
@[simp] theorem modInst_xfers (i : Nat) (f : Instance → Instance) (s : State) : (modInst i f s).xfers = s.xfers := rfl
@[simp] theorem modInst_queues (i : Nat) (f : Instance → Instance) (s : State) : (modInst i f s).queues = s.queues := rfl
@[simp] theorem modInst_pool (i : Nat) (f : Instance → Instance) (s : State) : (modInst i f s).pool = s.pool := rfl
@[simp] theorem modInst_ctrl (i : Nat) (f : Instance → Instance) (s : State) : (modInst i f s).ctrl = s.ctrl := rfl
@[simp] theorem modInst_mail (i : Nat) (f : Instance → Instance) (s : State) : (modInst i f s).mail = s.mail := rfl
@[simp] theorem modInst_mbx (i : Nat) (f : Instance → Instance) (s : State) : (modInst i f s).mbx = s.mbx := rfl
@[simp] theorem modInst_peat (i : Nat) (f : Instance → Instance) (s : State) : (modInst i f s).peat = s.peat := rfl
@[simp] theorem modInst_stok (i : Nat) (f : Instance → Instance) (s : State) : (modInst i f s).stok = s.stok := rfl
@[simp] theorem modInst_ledger (i : Nat) (f : Instance → Instance) (s : State) : (modInst i f s).ledger = s.ledger := rfl
@[simp] theorem modInst_test (i : Nat) (f : Instance → Instance) (s : State) : (modInst i f s).test = s.test := rfl
@[simp] theorem modInst_testQ (i : Nat) (f : Instance → Instance) (s : State) : (modInst i f s).testQ = s.testQ := rfl
@[simp] theorem modInst_cal (i : Nat) (f : Instance → Instance) (s : State) : (modInst i f s).cal = s.cal := rfl
@[simp] theorem modInst_flts (i : Nat) (f : Instance → Instance) (s : State) : (modInst i f s).flts = s.flts := rfl
@[simp] theorem modInst_fltLast (i : Nat) (f : Instance → Instance) (s : State) : (modInst i f s).fltLast = s.fltLast := rfl
@[simp] theorem modInst_fltWait (i : Nat) (f : Instance → Instance) (s : State) : (modInst i f s).fltWait = s.fltWait := rfl
@[simp] theorem modInst_fltIn (i : Nat) (f : Instance → Instance) (s : State) : (modInst i f s).fltIn = s.fltIn := rfl
@[simp] theorem modInst_cans (i : Nat) (f : Instance → Instance) (s : State) : (modInst i f s).cans = s.cans := rfl
@[simp] theorem modInst_time (i : Nat) (f : Instance → Instance) (s : State) : (modInst i f s).time = s.time := rfl
@[simp] theorem modInst_feedA (i : Nat) (f : Instance → Instance) (s : State) : (modInst i f s).feedA = s.feedA := rfl
@[simp] theorem modInst_feedB (i : Nat) (f : Instance → Instance) (s : State) : (modInst i f s).feedB = s.feedB := rfl
@[simp] theorem modInst_board (i : Nat) (f : Instance → Instance) (s : State) : (modInst i f s).board = s.board := rfl
@[simp] theorem modInst_svc (i : Nat) (f : Instance → Instance) (s : State) : (modInst i f s).svc = s.svc := rfl
@[simp] theorem modInst_trunks (i : Nat) (f : Instance → Instance) (s : State) : (modInst i f s).trunks = s.trunks := rfl
@[simp] theorem modInst_net (i : Nat) (f : Instance → Instance) (s : State) : (modInst i f s).net = s.net := rfl
@[simp] theorem modInst_fw (i : Nat) (f : Instance → Instance) (s : State) : (modInst i f s).fw = s.fw := rfl
@[simp] theorem modInst_sec (i : Nat) (f : Instance → Instance) (s : State) : (modInst i f s).sec = s.sec := rfl
@[simp] theorem modInst_cfg (i : Nat) (f : Instance → Instance) (s : State) : (modInst i f s).cfg = s.cfg := rfl
@[simp] theorem modInst_cfgCopy (i : Nat) (f : Instance → Instance) (s : State) : (modInst i f s).cfgCopy = s.cfgCopy := rfl
@[simp] theorem modInst_cfgBad (i : Nat) (f : Instance → Instance) (s : State) : (modInst i f s).cfgBad = s.cfgBad := rfl
@[simp] theorem modInst_cfgHeld (i : Nat) (f : Instance → Instance) (s : State) : (modInst i f s).cfgHeld = s.cfgHeld := rfl
@[simp] theorem modInst_regHeld (i : Nat) (f : Instance → Instance) (s : State) : (modInst i f s).regHeld = s.regHeld := rfl
@[simp] theorem modInst_sqc (i : Nat) (f : Instance → Instance) (s : State) : (modInst i f s).sqc = s.sqc := rfl
@[simp] theorem setFlt_pending (k : Nat) (r : Flt) (s : State) : (setFlt k r s).pending = s.pending := rfl
@[simp] theorem setFlt_free (k : Nat) (r : Flt) (s : State) : (setFlt k r s).free = s.free := rfl
@[simp] theorem setFlt_wire (k : Nat) (r : Flt) (s : State) : (setFlt k r s).wire = s.wire := rfl
@[simp] theorem setFlt_part (k : Nat) (r : Flt) (s : State) : (setFlt k r s).part = s.part := rfl
@[simp] theorem setFlt_otp (k : Nat) (r : Flt) (s : State) : (setFlt k r s).otp = s.otp := rfl
@[simp] theorem setFlt_dev (k : Nat) (r : Flt) (s : State) : (setFlt k r s).dev = s.dev := rfl
@[simp] theorem setFlt_power (k : Nat) (r : Flt) (s : State) : (setFlt k r s).power = s.power := rfl
@[simp] theorem setFlt_warm (k : Nat) (r : Flt) (s : State) : (setFlt k r s).warm = s.warm := rfl
@[simp] theorem setFlt_lich (k : Nat) (r : Flt) (s : State) : (setFlt k r s).lich = s.lich := rfl
@[simp] theorem setFlt_hostA (k : Nat) (r : Flt) (s : State) : (setFlt k r s).hostA = s.hostA := rfl
@[simp] theorem setFlt_hostB (k : Nat) (r : Flt) (s : State) : (setFlt k r s).hostB = s.hostB := rfl
@[simp] theorem setFlt_arrivals (k : Nat) (r : Flt) (s : State) : (setFlt k r s).arrivals = s.arrivals := rfl
@[simp] theorem setFlt_ops (k : Nat) (r : Flt) (s : State) : (setFlt k r s).ops = s.ops := rfl
@[simp] theorem setFlt_lastA (k : Nat) (r : Flt) (s : State) : (setFlt k r s).lastA = s.lastA := rfl
@[simp] theorem setFlt_sems (k : Nat) (r : Flt) (s : State) : (setFlt k r s).sems = s.sems := rfl
@[simp] theorem setFlt_ports (k : Nat) (r : Flt) (s : State) : (setFlt k r s).ports = s.ports := rfl
@[simp] theorem setFlt_ctxs (k : Nat) (r : Flt) (s : State) : (setFlt k r s).ctxs = s.ctxs := rfl
@[simp] theorem setFlt_xfers (k : Nat) (r : Flt) (s : State) : (setFlt k r s).xfers = s.xfers := rfl
@[simp] theorem setFlt_queues (k : Nat) (r : Flt) (s : State) : (setFlt k r s).queues = s.queues := rfl
@[simp] theorem setFlt_pool (k : Nat) (r : Flt) (s : State) : (setFlt k r s).pool = s.pool := rfl
@[simp] theorem setFlt_ctrl (k : Nat) (r : Flt) (s : State) : (setFlt k r s).ctrl = s.ctrl := rfl
@[simp] theorem setFlt_mail (k : Nat) (r : Flt) (s : State) : (setFlt k r s).mail = s.mail := rfl
@[simp] theorem setFlt_mbx (k : Nat) (r : Flt) (s : State) : (setFlt k r s).mbx = s.mbx := rfl
@[simp] theorem setFlt_peat (k : Nat) (r : Flt) (s : State) : (setFlt k r s).peat = s.peat := rfl
@[simp] theorem setFlt_stok (k : Nat) (r : Flt) (s : State) : (setFlt k r s).stok = s.stok := rfl
@[simp] theorem setFlt_ledger (k : Nat) (r : Flt) (s : State) : (setFlt k r s).ledger = s.ledger := rfl
@[simp] theorem setFlt_test (k : Nat) (r : Flt) (s : State) : (setFlt k r s).test = s.test := rfl
@[simp] theorem setFlt_testQ (k : Nat) (r : Flt) (s : State) : (setFlt k r s).testQ = s.testQ := rfl
@[simp] theorem setFlt_cal (k : Nat) (r : Flt) (s : State) : (setFlt k r s).cal = s.cal := rfl
@[simp] theorem setFlt_fltLast (k : Nat) (r : Flt) (s : State) : (setFlt k r s).fltLast = s.fltLast := rfl
@[simp] theorem setFlt_fltWait (k : Nat) (r : Flt) (s : State) : (setFlt k r s).fltWait = s.fltWait := rfl
@[simp] theorem setFlt_fltIn (k : Nat) (r : Flt) (s : State) : (setFlt k r s).fltIn = s.fltIn := rfl
@[simp] theorem setFlt_cans (k : Nat) (r : Flt) (s : State) : (setFlt k r s).cans = s.cans := rfl
@[simp] theorem setFlt_time (k : Nat) (r : Flt) (s : State) : (setFlt k r s).time = s.time := rfl
@[simp] theorem setFlt_feedA (k : Nat) (r : Flt) (s : State) : (setFlt k r s).feedA = s.feedA := rfl
@[simp] theorem setFlt_feedB (k : Nat) (r : Flt) (s : State) : (setFlt k r s).feedB = s.feedB := rfl
@[simp] theorem setFlt_board (k : Nat) (r : Flt) (s : State) : (setFlt k r s).board = s.board := rfl
@[simp] theorem setFlt_svc (k : Nat) (r : Flt) (s : State) : (setFlt k r s).svc = s.svc := rfl
@[simp] theorem setFlt_insts (k : Nat) (r : Flt) (s : State) : (setFlt k r s).insts = s.insts := rfl
@[simp] theorem setFlt_trunks (k : Nat) (r : Flt) (s : State) : (setFlt k r s).trunks = s.trunks := rfl
@[simp] theorem setFlt_net (k : Nat) (r : Flt) (s : State) : (setFlt k r s).net = s.net := rfl
@[simp] theorem setFlt_fw (k : Nat) (r : Flt) (s : State) : (setFlt k r s).fw = s.fw := rfl
@[simp] theorem setFlt_sec (k : Nat) (r : Flt) (s : State) : (setFlt k r s).sec = s.sec := rfl
@[simp] theorem setFlt_cfg (k : Nat) (r : Flt) (s : State) : (setFlt k r s).cfg = s.cfg := rfl
@[simp] theorem setFlt_cfgCopy (k : Nat) (r : Flt) (s : State) : (setFlt k r s).cfgCopy = s.cfgCopy := rfl
@[simp] theorem setFlt_cfgBad (k : Nat) (r : Flt) (s : State) : (setFlt k r s).cfgBad = s.cfgBad := rfl
@[simp] theorem setFlt_cfgHeld (k : Nat) (r : Flt) (s : State) : (setFlt k r s).cfgHeld = s.cfgHeld := rfl
@[simp] theorem setFlt_regHeld (k : Nat) (r : Flt) (s : State) : (setFlt k r s).regHeld = s.regHeld := rfl
@[simp] theorem setFlt_sqc (k : Nat) (r : Flt) (s : State) : (setFlt k r s).sqc = s.sqc := rfl
@[simp] theorem modFlt_pending (k : Nat) (f : Flt → Flt) (s : State) : (modFlt k f s).pending = s.pending := rfl
@[simp] theorem modFlt_free (k : Nat) (f : Flt → Flt) (s : State) : (modFlt k f s).free = s.free := rfl
@[simp] theorem modFlt_wire (k : Nat) (f : Flt → Flt) (s : State) : (modFlt k f s).wire = s.wire := rfl
@[simp] theorem modFlt_part (k : Nat) (f : Flt → Flt) (s : State) : (modFlt k f s).part = s.part := rfl
@[simp] theorem modFlt_otp (k : Nat) (f : Flt → Flt) (s : State) : (modFlt k f s).otp = s.otp := rfl
@[simp] theorem modFlt_dev (k : Nat) (f : Flt → Flt) (s : State) : (modFlt k f s).dev = s.dev := rfl
@[simp] theorem modFlt_power (k : Nat) (f : Flt → Flt) (s : State) : (modFlt k f s).power = s.power := rfl
@[simp] theorem modFlt_warm (k : Nat) (f : Flt → Flt) (s : State) : (modFlt k f s).warm = s.warm := rfl
@[simp] theorem modFlt_lich (k : Nat) (f : Flt → Flt) (s : State) : (modFlt k f s).lich = s.lich := rfl
@[simp] theorem modFlt_hostA (k : Nat) (f : Flt → Flt) (s : State) : (modFlt k f s).hostA = s.hostA := rfl
@[simp] theorem modFlt_hostB (k : Nat) (f : Flt → Flt) (s : State) : (modFlt k f s).hostB = s.hostB := rfl
@[simp] theorem modFlt_arrivals (k : Nat) (f : Flt → Flt) (s : State) : (modFlt k f s).arrivals = s.arrivals := rfl
@[simp] theorem modFlt_ops (k : Nat) (f : Flt → Flt) (s : State) : (modFlt k f s).ops = s.ops := rfl
@[simp] theorem modFlt_lastA (k : Nat) (f : Flt → Flt) (s : State) : (modFlt k f s).lastA = s.lastA := rfl
@[simp] theorem modFlt_sems (k : Nat) (f : Flt → Flt) (s : State) : (modFlt k f s).sems = s.sems := rfl
@[simp] theorem modFlt_ports (k : Nat) (f : Flt → Flt) (s : State) : (modFlt k f s).ports = s.ports := rfl
@[simp] theorem modFlt_ctxs (k : Nat) (f : Flt → Flt) (s : State) : (modFlt k f s).ctxs = s.ctxs := rfl
@[simp] theorem modFlt_xfers (k : Nat) (f : Flt → Flt) (s : State) : (modFlt k f s).xfers = s.xfers := rfl
@[simp] theorem modFlt_queues (k : Nat) (f : Flt → Flt) (s : State) : (modFlt k f s).queues = s.queues := rfl
@[simp] theorem modFlt_pool (k : Nat) (f : Flt → Flt) (s : State) : (modFlt k f s).pool = s.pool := rfl
@[simp] theorem modFlt_ctrl (k : Nat) (f : Flt → Flt) (s : State) : (modFlt k f s).ctrl = s.ctrl := rfl
@[simp] theorem modFlt_mail (k : Nat) (f : Flt → Flt) (s : State) : (modFlt k f s).mail = s.mail := rfl
@[simp] theorem modFlt_mbx (k : Nat) (f : Flt → Flt) (s : State) : (modFlt k f s).mbx = s.mbx := rfl
@[simp] theorem modFlt_peat (k : Nat) (f : Flt → Flt) (s : State) : (modFlt k f s).peat = s.peat := rfl
@[simp] theorem modFlt_stok (k : Nat) (f : Flt → Flt) (s : State) : (modFlt k f s).stok = s.stok := rfl
@[simp] theorem modFlt_ledger (k : Nat) (f : Flt → Flt) (s : State) : (modFlt k f s).ledger = s.ledger := rfl
@[simp] theorem modFlt_test (k : Nat) (f : Flt → Flt) (s : State) : (modFlt k f s).test = s.test := rfl
@[simp] theorem modFlt_testQ (k : Nat) (f : Flt → Flt) (s : State) : (modFlt k f s).testQ = s.testQ := rfl
@[simp] theorem modFlt_cal (k : Nat) (f : Flt → Flt) (s : State) : (modFlt k f s).cal = s.cal := rfl
@[simp] theorem modFlt_fltLast (k : Nat) (f : Flt → Flt) (s : State) : (modFlt k f s).fltLast = s.fltLast := rfl
@[simp] theorem modFlt_fltWait (k : Nat) (f : Flt → Flt) (s : State) : (modFlt k f s).fltWait = s.fltWait := rfl
@[simp] theorem modFlt_fltIn (k : Nat) (f : Flt → Flt) (s : State) : (modFlt k f s).fltIn = s.fltIn := rfl
@[simp] theorem modFlt_cans (k : Nat) (f : Flt → Flt) (s : State) : (modFlt k f s).cans = s.cans := rfl
@[simp] theorem modFlt_time (k : Nat) (f : Flt → Flt) (s : State) : (modFlt k f s).time = s.time := rfl
@[simp] theorem modFlt_feedA (k : Nat) (f : Flt → Flt) (s : State) : (modFlt k f s).feedA = s.feedA := rfl
@[simp] theorem modFlt_feedB (k : Nat) (f : Flt → Flt) (s : State) : (modFlt k f s).feedB = s.feedB := rfl
@[simp] theorem modFlt_board (k : Nat) (f : Flt → Flt) (s : State) : (modFlt k f s).board = s.board := rfl
@[simp] theorem modFlt_svc (k : Nat) (f : Flt → Flt) (s : State) : (modFlt k f s).svc = s.svc := rfl
@[simp] theorem modFlt_insts (k : Nat) (f : Flt → Flt) (s : State) : (modFlt k f s).insts = s.insts := rfl
@[simp] theorem modFlt_trunks (k : Nat) (f : Flt → Flt) (s : State) : (modFlt k f s).trunks = s.trunks := rfl
@[simp] theorem modFlt_net (k : Nat) (f : Flt → Flt) (s : State) : (modFlt k f s).net = s.net := rfl
@[simp] theorem modFlt_fw (k : Nat) (f : Flt → Flt) (s : State) : (modFlt k f s).fw = s.fw := rfl
@[simp] theorem modFlt_sec (k : Nat) (f : Flt → Flt) (s : State) : (modFlt k f s).sec = s.sec := rfl
@[simp] theorem modFlt_cfg (k : Nat) (f : Flt → Flt) (s : State) : (modFlt k f s).cfg = s.cfg := rfl
@[simp] theorem modFlt_cfgCopy (k : Nat) (f : Flt → Flt) (s : State) : (modFlt k f s).cfgCopy = s.cfgCopy := rfl
@[simp] theorem modFlt_cfgBad (k : Nat) (f : Flt → Flt) (s : State) : (modFlt k f s).cfgBad = s.cfgBad := rfl
@[simp] theorem modFlt_cfgHeld (k : Nat) (f : Flt → Flt) (s : State) : (modFlt k f s).cfgHeld = s.cfgHeld := rfl
@[simp] theorem modFlt_regHeld (k : Nat) (f : Flt → Flt) (s : State) : (modFlt k f s).regHeld = s.regHeld := rfl
@[simp] theorem modFlt_sqc (k : Nat) (f : Flt → Flt) (s : State) : (modFlt k f s).sqc = s.sqc := rfl
@[simp] theorem setSem_pending (n : Nat) (r : Sem) (s : State) : (setSem n r s).pending = s.pending := rfl
@[simp] theorem setSem_free (n : Nat) (r : Sem) (s : State) : (setSem n r s).free = s.free := rfl
@[simp] theorem setSem_wire (n : Nat) (r : Sem) (s : State) : (setSem n r s).wire = s.wire := rfl
@[simp] theorem setSem_part (n : Nat) (r : Sem) (s : State) : (setSem n r s).part = s.part := rfl
@[simp] theorem setSem_otp (n : Nat) (r : Sem) (s : State) : (setSem n r s).otp = s.otp := rfl
@[simp] theorem setSem_dev (n : Nat) (r : Sem) (s : State) : (setSem n r s).dev = s.dev := rfl
@[simp] theorem setSem_power (n : Nat) (r : Sem) (s : State) : (setSem n r s).power = s.power := rfl
@[simp] theorem setSem_warm (n : Nat) (r : Sem) (s : State) : (setSem n r s).warm = s.warm := rfl
@[simp] theorem setSem_lich (n : Nat) (r : Sem) (s : State) : (setSem n r s).lich = s.lich := rfl
@[simp] theorem setSem_hostA (n : Nat) (r : Sem) (s : State) : (setSem n r s).hostA = s.hostA := rfl
@[simp] theorem setSem_hostB (n : Nat) (r : Sem) (s : State) : (setSem n r s).hostB = s.hostB := rfl
@[simp] theorem setSem_arrivals (n : Nat) (r : Sem) (s : State) : (setSem n r s).arrivals = s.arrivals := rfl
@[simp] theorem setSem_ops (n : Nat) (r : Sem) (s : State) : (setSem n r s).ops = s.ops := rfl
@[simp] theorem setSem_lastA (n : Nat) (r : Sem) (s : State) : (setSem n r s).lastA = s.lastA := rfl
@[simp] theorem setSem_ports (n : Nat) (r : Sem) (s : State) : (setSem n r s).ports = s.ports := rfl
@[simp] theorem setSem_ctxs (n : Nat) (r : Sem) (s : State) : (setSem n r s).ctxs = s.ctxs := rfl
@[simp] theorem setSem_xfers (n : Nat) (r : Sem) (s : State) : (setSem n r s).xfers = s.xfers := rfl
@[simp] theorem setSem_queues (n : Nat) (r : Sem) (s : State) : (setSem n r s).queues = s.queues := rfl
@[simp] theorem setSem_pool (n : Nat) (r : Sem) (s : State) : (setSem n r s).pool = s.pool := rfl
@[simp] theorem setSem_ctrl (n : Nat) (r : Sem) (s : State) : (setSem n r s).ctrl = s.ctrl := rfl
@[simp] theorem setSem_mail (n : Nat) (r : Sem) (s : State) : (setSem n r s).mail = s.mail := rfl
@[simp] theorem setSem_mbx (n : Nat) (r : Sem) (s : State) : (setSem n r s).mbx = s.mbx := rfl
@[simp] theorem setSem_peat (n : Nat) (r : Sem) (s : State) : (setSem n r s).peat = s.peat := rfl
@[simp] theorem setSem_stok (n : Nat) (r : Sem) (s : State) : (setSem n r s).stok = s.stok := rfl
@[simp] theorem setSem_ledger (n : Nat) (r : Sem) (s : State) : (setSem n r s).ledger = s.ledger := rfl
@[simp] theorem setSem_test (n : Nat) (r : Sem) (s : State) : (setSem n r s).test = s.test := rfl
@[simp] theorem setSem_testQ (n : Nat) (r : Sem) (s : State) : (setSem n r s).testQ = s.testQ := rfl
@[simp] theorem setSem_cal (n : Nat) (r : Sem) (s : State) : (setSem n r s).cal = s.cal := rfl
@[simp] theorem setSem_flts (n : Nat) (r : Sem) (s : State) : (setSem n r s).flts = s.flts := rfl
@[simp] theorem setSem_fltLast (n : Nat) (r : Sem) (s : State) : (setSem n r s).fltLast = s.fltLast := rfl
@[simp] theorem setSem_fltWait (n : Nat) (r : Sem) (s : State) : (setSem n r s).fltWait = s.fltWait := rfl
@[simp] theorem setSem_fltIn (n : Nat) (r : Sem) (s : State) : (setSem n r s).fltIn = s.fltIn := rfl
@[simp] theorem setSem_cans (n : Nat) (r : Sem) (s : State) : (setSem n r s).cans = s.cans := rfl
@[simp] theorem setSem_time (n : Nat) (r : Sem) (s : State) : (setSem n r s).time = s.time := rfl
@[simp] theorem setSem_feedA (n : Nat) (r : Sem) (s : State) : (setSem n r s).feedA = s.feedA := rfl
@[simp] theorem setSem_feedB (n : Nat) (r : Sem) (s : State) : (setSem n r s).feedB = s.feedB := rfl
@[simp] theorem setSem_board (n : Nat) (r : Sem) (s : State) : (setSem n r s).board = s.board := rfl
@[simp] theorem setSem_svc (n : Nat) (r : Sem) (s : State) : (setSem n r s).svc = s.svc := rfl
@[simp] theorem setSem_insts (n : Nat) (r : Sem) (s : State) : (setSem n r s).insts = s.insts := rfl
@[simp] theorem setSem_trunks (n : Nat) (r : Sem) (s : State) : (setSem n r s).trunks = s.trunks := rfl
@[simp] theorem setSem_net (n : Nat) (r : Sem) (s : State) : (setSem n r s).net = s.net := rfl
@[simp] theorem setSem_fw (n : Nat) (r : Sem) (s : State) : (setSem n r s).fw = s.fw := rfl
@[simp] theorem setSem_sec (n : Nat) (r : Sem) (s : State) : (setSem n r s).sec = s.sec := rfl
@[simp] theorem setSem_cfg (n : Nat) (r : Sem) (s : State) : (setSem n r s).cfg = s.cfg := rfl
@[simp] theorem setSem_cfgCopy (n : Nat) (r : Sem) (s : State) : (setSem n r s).cfgCopy = s.cfgCopy := rfl
@[simp] theorem setSem_cfgBad (n : Nat) (r : Sem) (s : State) : (setSem n r s).cfgBad = s.cfgBad := rfl
@[simp] theorem setSem_cfgHeld (n : Nat) (r : Sem) (s : State) : (setSem n r s).cfgHeld = s.cfgHeld := rfl
@[simp] theorem setSem_regHeld (n : Nat) (r : Sem) (s : State) : (setSem n r s).regHeld = s.regHeld := rfl
@[simp] theorem setSem_sqc (n : Nat) (r : Sem) (s : State) : (setSem n r s).sqc = s.sqc := rfl
@[simp] theorem modSlot_pending (k : Nat) (f : Slot → Slot) (s : State) : (modSlot k f s).pending = s.pending := by unfold modSlot; split <;> rfl
@[simp] theorem modSlot_free (k : Nat) (f : Slot → Slot) (s : State) : (modSlot k f s).free = s.free := by unfold modSlot; split <;> rfl
@[simp] theorem modSlot_wire (k : Nat) (f : Slot → Slot) (s : State) : (modSlot k f s).wire = s.wire := by unfold modSlot; split <;> rfl
@[simp] theorem modSlot_part (k : Nat) (f : Slot → Slot) (s : State) : (modSlot k f s).part = s.part := by unfold modSlot; split <;> rfl
@[simp] theorem modSlot_otp (k : Nat) (f : Slot → Slot) (s : State) : (modSlot k f s).otp = s.otp := by unfold modSlot; split <;> rfl
@[simp] theorem modSlot_dev (k : Nat) (f : Slot → Slot) (s : State) : (modSlot k f s).dev = s.dev := by unfold modSlot; split <;> rfl
@[simp] theorem modSlot_power (k : Nat) (f : Slot → Slot) (s : State) : (modSlot k f s).power = s.power := by unfold modSlot; split <;> rfl
@[simp] theorem modSlot_warm (k : Nat) (f : Slot → Slot) (s : State) : (modSlot k f s).warm = s.warm := by unfold modSlot; split <;> rfl
@[simp] theorem modSlot_lich (k : Nat) (f : Slot → Slot) (s : State) : (modSlot k f s).lich = s.lich := by unfold modSlot; split <;> rfl
@[simp] theorem modSlot_hostA (k : Nat) (f : Slot → Slot) (s : State) : (modSlot k f s).hostA = s.hostA := by unfold modSlot; split <;> rfl
@[simp] theorem modSlot_hostB (k : Nat) (f : Slot → Slot) (s : State) : (modSlot k f s).hostB = s.hostB := by unfold modSlot; split <;> rfl
@[simp] theorem modSlot_arrivals (k : Nat) (f : Slot → Slot) (s : State) : (modSlot k f s).arrivals = s.arrivals := by unfold modSlot; split <;> rfl
@[simp] theorem modSlot_ops (k : Nat) (f : Slot → Slot) (s : State) : (modSlot k f s).ops = s.ops := by unfold modSlot; split <;> rfl
@[simp] theorem modSlot_lastA (k : Nat) (f : Slot → Slot) (s : State) : (modSlot k f s).lastA = s.lastA := by unfold modSlot; split <;> rfl
@[simp] theorem modSlot_sems (k : Nat) (f : Slot → Slot) (s : State) : (modSlot k f s).sems = s.sems := by unfold modSlot; split <;> rfl
@[simp] theorem modSlot_ports (k : Nat) (f : Slot → Slot) (s : State) : (modSlot k f s).ports = s.ports := by unfold modSlot; split <;> rfl
@[simp] theorem modSlot_ctxs (k : Nat) (f : Slot → Slot) (s : State) : (modSlot k f s).ctxs = s.ctxs := by unfold modSlot; split <;> rfl
@[simp] theorem modSlot_xfers (k : Nat) (f : Slot → Slot) (s : State) : (modSlot k f s).xfers = s.xfers := by unfold modSlot; split <;> rfl
@[simp] theorem modSlot_queues (k : Nat) (f : Slot → Slot) (s : State) : (modSlot k f s).queues = s.queues := by unfold modSlot; split <;> rfl
@[simp] theorem modSlot_pool (k : Nat) (f : Slot → Slot) (s : State) : (modSlot k f s).pool = s.pool := by unfold modSlot; split <;> rfl
@[simp] theorem modSlot_ctrl (k : Nat) (f : Slot → Slot) (s : State) : (modSlot k f s).ctrl = s.ctrl := by unfold modSlot; split <;> rfl
@[simp] theorem modSlot_mail (k : Nat) (f : Slot → Slot) (s : State) : (modSlot k f s).mail = s.mail := by unfold modSlot; split <;> rfl
@[simp] theorem modSlot_mbx (k : Nat) (f : Slot → Slot) (s : State) : (modSlot k f s).mbx = s.mbx := by unfold modSlot; split <;> rfl
@[simp] theorem modSlot_peat (k : Nat) (f : Slot → Slot) (s : State) : (modSlot k f s).peat = s.peat := by unfold modSlot; split <;> rfl
@[simp] theorem modSlot_stok (k : Nat) (f : Slot → Slot) (s : State) : (modSlot k f s).stok = s.stok := by unfold modSlot; split <;> rfl
@[simp] theorem modSlot_ledger (k : Nat) (f : Slot → Slot) (s : State) : (modSlot k f s).ledger = s.ledger := by unfold modSlot; split <;> rfl
@[simp] theorem modSlot_test (k : Nat) (f : Slot → Slot) (s : State) : (modSlot k f s).test = s.test := by unfold modSlot; split <;> rfl
@[simp] theorem modSlot_testQ (k : Nat) (f : Slot → Slot) (s : State) : (modSlot k f s).testQ = s.testQ := by unfold modSlot; split <;> rfl
@[simp] theorem modSlot_cal (k : Nat) (f : Slot → Slot) (s : State) : (modSlot k f s).cal = s.cal := by unfold modSlot; split <;> rfl
@[simp] theorem modSlot_flts (k : Nat) (f : Slot → Slot) (s : State) : (modSlot k f s).flts = s.flts := by unfold modSlot; split <;> rfl
@[simp] theorem modSlot_fltLast (k : Nat) (f : Slot → Slot) (s : State) : (modSlot k f s).fltLast = s.fltLast := by unfold modSlot; split <;> rfl
@[simp] theorem modSlot_fltWait (k : Nat) (f : Slot → Slot) (s : State) : (modSlot k f s).fltWait = s.fltWait := by unfold modSlot; split <;> rfl
@[simp] theorem modSlot_fltIn (k : Nat) (f : Slot → Slot) (s : State) : (modSlot k f s).fltIn = s.fltIn := by unfold modSlot; split <;> rfl
@[simp] theorem modSlot_cans (k : Nat) (f : Slot → Slot) (s : State) : (modSlot k f s).cans = s.cans := by unfold modSlot; split <;> rfl
@[simp] theorem modSlot_time (k : Nat) (f : Slot → Slot) (s : State) : (modSlot k f s).time = s.time := by unfold modSlot; split <;> rfl
@[simp] theorem modSlot_feedA (k : Nat) (f : Slot → Slot) (s : State) : (modSlot k f s).feedA = s.feedA := by unfold modSlot; split <;> rfl
@[simp] theorem modSlot_feedB (k : Nat) (f : Slot → Slot) (s : State) : (modSlot k f s).feedB = s.feedB := by unfold modSlot; split <;> rfl
@[simp] theorem modSlot_board (k : Nat) (f : Slot → Slot) (s : State) : (modSlot k f s).board = s.board := by unfold modSlot; split <;> rfl
@[simp] theorem modSlot_svc (k : Nat) (f : Slot → Slot) (s : State) : (modSlot k f s).svc = s.svc := by unfold modSlot; split <;> rfl
@[simp] theorem modSlot_insts (k : Nat) (f : Slot → Slot) (s : State) : (modSlot k f s).insts = s.insts := by unfold modSlot; split <;> rfl
@[simp] theorem modSlot_trunks (k : Nat) (f : Slot → Slot) (s : State) : (modSlot k f s).trunks = s.trunks := by unfold modSlot; split <;> rfl
@[simp] theorem modSlot_net (k : Nat) (f : Slot → Slot) (s : State) : (modSlot k f s).net = s.net := by unfold modSlot; split <;> rfl
@[simp] theorem modSlot_sec (k : Nat) (f : Slot → Slot) (s : State) : (modSlot k f s).sec = s.sec := by unfold modSlot; split <;> rfl
@[simp] theorem modSlot_cfg (k : Nat) (f : Slot → Slot) (s : State) : (modSlot k f s).cfg = s.cfg := by unfold modSlot; split <;> rfl
@[simp] theorem modSlot_cfgCopy (k : Nat) (f : Slot → Slot) (s : State) : (modSlot k f s).cfgCopy = s.cfgCopy := by unfold modSlot; split <;> rfl
@[simp] theorem modSlot_cfgBad (k : Nat) (f : Slot → Slot) (s : State) : (modSlot k f s).cfgBad = s.cfgBad := by unfold modSlot; split <;> rfl
@[simp] theorem modSlot_cfgHeld (k : Nat) (f : Slot → Slot) (s : State) : (modSlot k f s).cfgHeld = s.cfgHeld := by unfold modSlot; split <;> rfl
@[simp] theorem modSlot_regHeld (k : Nat) (f : Slot → Slot) (s : State) : (modSlot k f s).regHeld = s.regHeld := by unfold modSlot; split <;> rfl
@[simp] theorem modSlot_sqc (k : Nat) (f : Slot → Slot) (s : State) : (modSlot k f s).sqc = s.sqc := by unfold modSlot; split <;> rfl
@[simp] theorem setQueue_pending (q : Nat) (r : Queue) (s : State) : (setQueue q r s).pending = s.pending := rfl
@[simp] theorem setQueue_free (q : Nat) (r : Queue) (s : State) : (setQueue q r s).free = s.free := rfl
@[simp] theorem setQueue_wire (q : Nat) (r : Queue) (s : State) : (setQueue q r s).wire = s.wire := rfl
@[simp] theorem setQueue_part (q : Nat) (r : Queue) (s : State) : (setQueue q r s).part = s.part := rfl
@[simp] theorem setQueue_otp (q : Nat) (r : Queue) (s : State) : (setQueue q r s).otp = s.otp := rfl
@[simp] theorem setQueue_dev (q : Nat) (r : Queue) (s : State) : (setQueue q r s).dev = s.dev := rfl
@[simp] theorem setQueue_power (q : Nat) (r : Queue) (s : State) : (setQueue q r s).power = s.power := rfl
@[simp] theorem setQueue_warm (q : Nat) (r : Queue) (s : State) : (setQueue q r s).warm = s.warm := rfl
@[simp] theorem setQueue_lich (q : Nat) (r : Queue) (s : State) : (setQueue q r s).lich = s.lich := rfl
@[simp] theorem setQueue_hostA (q : Nat) (r : Queue) (s : State) : (setQueue q r s).hostA = s.hostA := rfl
@[simp] theorem setQueue_hostB (q : Nat) (r : Queue) (s : State) : (setQueue q r s).hostB = s.hostB := rfl
@[simp] theorem setQueue_arrivals (q : Nat) (r : Queue) (s : State) : (setQueue q r s).arrivals = s.arrivals := rfl
@[simp] theorem setQueue_ops (q : Nat) (r : Queue) (s : State) : (setQueue q r s).ops = s.ops := rfl
@[simp] theorem setQueue_lastA (q : Nat) (r : Queue) (s : State) : (setQueue q r s).lastA = s.lastA := rfl
@[simp] theorem setQueue_sems (q : Nat) (r : Queue) (s : State) : (setQueue q r s).sems = s.sems := rfl
@[simp] theorem setQueue_ports (q : Nat) (r : Queue) (s : State) : (setQueue q r s).ports = s.ports := rfl
@[simp] theorem setQueue_ctxs (q : Nat) (r : Queue) (s : State) : (setQueue q r s).ctxs = s.ctxs := rfl
@[simp] theorem setQueue_xfers (q : Nat) (r : Queue) (s : State) : (setQueue q r s).xfers = s.xfers := rfl
@[simp] theorem setQueue_pool (q : Nat) (r : Queue) (s : State) : (setQueue q r s).pool = s.pool := rfl
@[simp] theorem setQueue_ctrl (q : Nat) (r : Queue) (s : State) : (setQueue q r s).ctrl = s.ctrl := rfl
@[simp] theorem setQueue_mail (q : Nat) (r : Queue) (s : State) : (setQueue q r s).mail = s.mail := rfl
@[simp] theorem setQueue_mbx (q : Nat) (r : Queue) (s : State) : (setQueue q r s).mbx = s.mbx := rfl
@[simp] theorem setQueue_peat (q : Nat) (r : Queue) (s : State) : (setQueue q r s).peat = s.peat := rfl
@[simp] theorem setQueue_stok (q : Nat) (r : Queue) (s : State) : (setQueue q r s).stok = s.stok := rfl
@[simp] theorem setQueue_ledger (q : Nat) (r : Queue) (s : State) : (setQueue q r s).ledger = s.ledger := rfl
@[simp] theorem setQueue_test (q : Nat) (r : Queue) (s : State) : (setQueue q r s).test = s.test := rfl
@[simp] theorem setQueue_testQ (q : Nat) (r : Queue) (s : State) : (setQueue q r s).testQ = s.testQ := rfl
@[simp] theorem setQueue_cal (q : Nat) (r : Queue) (s : State) : (setQueue q r s).cal = s.cal := rfl
@[simp] theorem setQueue_flts (q : Nat) (r : Queue) (s : State) : (setQueue q r s).flts = s.flts := rfl
@[simp] theorem setQueue_fltLast (q : Nat) (r : Queue) (s : State) : (setQueue q r s).fltLast = s.fltLast := rfl
@[simp] theorem setQueue_fltWait (q : Nat) (r : Queue) (s : State) : (setQueue q r s).fltWait = s.fltWait := rfl
@[simp] theorem setQueue_fltIn (q : Nat) (r : Queue) (s : State) : (setQueue q r s).fltIn = s.fltIn := rfl
@[simp] theorem setQueue_cans (q : Nat) (r : Queue) (s : State) : (setQueue q r s).cans = s.cans := rfl
@[simp] theorem setQueue_time (q : Nat) (r : Queue) (s : State) : (setQueue q r s).time = s.time := rfl
@[simp] theorem setQueue_feedA (q : Nat) (r : Queue) (s : State) : (setQueue q r s).feedA = s.feedA := rfl
@[simp] theorem setQueue_feedB (q : Nat) (r : Queue) (s : State) : (setQueue q r s).feedB = s.feedB := rfl
@[simp] theorem setQueue_board (q : Nat) (r : Queue) (s : State) : (setQueue q r s).board = s.board := rfl
@[simp] theorem setQueue_svc (q : Nat) (r : Queue) (s : State) : (setQueue q r s).svc = s.svc := rfl
@[simp] theorem setQueue_insts (q : Nat) (r : Queue) (s : State) : (setQueue q r s).insts = s.insts := rfl
@[simp] theorem setQueue_trunks (q : Nat) (r : Queue) (s : State) : (setQueue q r s).trunks = s.trunks := rfl
@[simp] theorem setQueue_net (q : Nat) (r : Queue) (s : State) : (setQueue q r s).net = s.net := rfl
@[simp] theorem setQueue_fw (q : Nat) (r : Queue) (s : State) : (setQueue q r s).fw = s.fw := rfl
@[simp] theorem setQueue_sec (q : Nat) (r : Queue) (s : State) : (setQueue q r s).sec = s.sec := rfl
@[simp] theorem setQueue_cfg (q : Nat) (r : Queue) (s : State) : (setQueue q r s).cfg = s.cfg := rfl
@[simp] theorem setQueue_cfgCopy (q : Nat) (r : Queue) (s : State) : (setQueue q r s).cfgCopy = s.cfgCopy := rfl
@[simp] theorem setQueue_cfgBad (q : Nat) (r : Queue) (s : State) : (setQueue q r s).cfgBad = s.cfgBad := rfl
@[simp] theorem setQueue_cfgHeld (q : Nat) (r : Queue) (s : State) : (setQueue q r s).cfgHeld = s.cfgHeld := rfl
@[simp] theorem setQueue_regHeld (q : Nat) (r : Queue) (s : State) : (setQueue q r s).regHeld = s.regHeld := rfl
@[simp] theorem setQueue_sqc (q : Nat) (r : Queue) (s : State) : (setQueue q r s).sqc = s.sqc := rfl
@[simp] theorem modQueue_pending (q : Nat) (f : Queue → Queue) (s : State) : (modQueue q f s).pending = s.pending := rfl
@[simp] theorem modQueue_free (q : Nat) (f : Queue → Queue) (s : State) : (modQueue q f s).free = s.free := rfl
@[simp] theorem modQueue_wire (q : Nat) (f : Queue → Queue) (s : State) : (modQueue q f s).wire = s.wire := rfl
@[simp] theorem modQueue_part (q : Nat) (f : Queue → Queue) (s : State) : (modQueue q f s).part = s.part := rfl
@[simp] theorem modQueue_otp (q : Nat) (f : Queue → Queue) (s : State) : (modQueue q f s).otp = s.otp := rfl
@[simp] theorem modQueue_dev (q : Nat) (f : Queue → Queue) (s : State) : (modQueue q f s).dev = s.dev := rfl
@[simp] theorem modQueue_power (q : Nat) (f : Queue → Queue) (s : State) : (modQueue q f s).power = s.power := rfl
@[simp] theorem modQueue_warm (q : Nat) (f : Queue → Queue) (s : State) : (modQueue q f s).warm = s.warm := rfl
@[simp] theorem modQueue_lich (q : Nat) (f : Queue → Queue) (s : State) : (modQueue q f s).lich = s.lich := rfl
@[simp] theorem modQueue_hostA (q : Nat) (f : Queue → Queue) (s : State) : (modQueue q f s).hostA = s.hostA := rfl
@[simp] theorem modQueue_hostB (q : Nat) (f : Queue → Queue) (s : State) : (modQueue q f s).hostB = s.hostB := rfl
@[simp] theorem modQueue_arrivals (q : Nat) (f : Queue → Queue) (s : State) : (modQueue q f s).arrivals = s.arrivals := rfl
@[simp] theorem modQueue_ops (q : Nat) (f : Queue → Queue) (s : State) : (modQueue q f s).ops = s.ops := rfl
@[simp] theorem modQueue_lastA (q : Nat) (f : Queue → Queue) (s : State) : (modQueue q f s).lastA = s.lastA := rfl
@[simp] theorem modQueue_sems (q : Nat) (f : Queue → Queue) (s : State) : (modQueue q f s).sems = s.sems := rfl
@[simp] theorem modQueue_ports (q : Nat) (f : Queue → Queue) (s : State) : (modQueue q f s).ports = s.ports := rfl
@[simp] theorem modQueue_ctxs (q : Nat) (f : Queue → Queue) (s : State) : (modQueue q f s).ctxs = s.ctxs := rfl
@[simp] theorem modQueue_xfers (q : Nat) (f : Queue → Queue) (s : State) : (modQueue q f s).xfers = s.xfers := rfl
@[simp] theorem modQueue_pool (q : Nat) (f : Queue → Queue) (s : State) : (modQueue q f s).pool = s.pool := rfl
@[simp] theorem modQueue_ctrl (q : Nat) (f : Queue → Queue) (s : State) : (modQueue q f s).ctrl = s.ctrl := rfl
@[simp] theorem modQueue_mail (q : Nat) (f : Queue → Queue) (s : State) : (modQueue q f s).mail = s.mail := rfl
@[simp] theorem modQueue_mbx (q : Nat) (f : Queue → Queue) (s : State) : (modQueue q f s).mbx = s.mbx := rfl
@[simp] theorem modQueue_peat (q : Nat) (f : Queue → Queue) (s : State) : (modQueue q f s).peat = s.peat := rfl
@[simp] theorem modQueue_stok (q : Nat) (f : Queue → Queue) (s : State) : (modQueue q f s).stok = s.stok := rfl
@[simp] theorem modQueue_ledger (q : Nat) (f : Queue → Queue) (s : State) : (modQueue q f s).ledger = s.ledger := rfl
@[simp] theorem modQueue_test (q : Nat) (f : Queue → Queue) (s : State) : (modQueue q f s).test = s.test := rfl
@[simp] theorem modQueue_testQ (q : Nat) (f : Queue → Queue) (s : State) : (modQueue q f s).testQ = s.testQ := rfl
@[simp] theorem modQueue_cal (q : Nat) (f : Queue → Queue) (s : State) : (modQueue q f s).cal = s.cal := rfl
@[simp] theorem modQueue_flts (q : Nat) (f : Queue → Queue) (s : State) : (modQueue q f s).flts = s.flts := rfl
@[simp] theorem modQueue_fltLast (q : Nat) (f : Queue → Queue) (s : State) : (modQueue q f s).fltLast = s.fltLast := rfl
@[simp] theorem modQueue_fltWait (q : Nat) (f : Queue → Queue) (s : State) : (modQueue q f s).fltWait = s.fltWait := rfl
@[simp] theorem modQueue_fltIn (q : Nat) (f : Queue → Queue) (s : State) : (modQueue q f s).fltIn = s.fltIn := rfl
@[simp] theorem modQueue_cans (q : Nat) (f : Queue → Queue) (s : State) : (modQueue q f s).cans = s.cans := rfl
@[simp] theorem modQueue_time (q : Nat) (f : Queue → Queue) (s : State) : (modQueue q f s).time = s.time := rfl
@[simp] theorem modQueue_feedA (q : Nat) (f : Queue → Queue) (s : State) : (modQueue q f s).feedA = s.feedA := rfl
@[simp] theorem modQueue_feedB (q : Nat) (f : Queue → Queue) (s : State) : (modQueue q f s).feedB = s.feedB := rfl
@[simp] theorem modQueue_board (q : Nat) (f : Queue → Queue) (s : State) : (modQueue q f s).board = s.board := rfl
@[simp] theorem modQueue_svc (q : Nat) (f : Queue → Queue) (s : State) : (modQueue q f s).svc = s.svc := rfl
@[simp] theorem modQueue_insts (q : Nat) (f : Queue → Queue) (s : State) : (modQueue q f s).insts = s.insts := rfl
@[simp] theorem modQueue_trunks (q : Nat) (f : Queue → Queue) (s : State) : (modQueue q f s).trunks = s.trunks := rfl
@[simp] theorem modQueue_net (q : Nat) (f : Queue → Queue) (s : State) : (modQueue q f s).net = s.net := rfl
@[simp] theorem modQueue_fw (q : Nat) (f : Queue → Queue) (s : State) : (modQueue q f s).fw = s.fw := rfl
@[simp] theorem modQueue_sec (q : Nat) (f : Queue → Queue) (s : State) : (modQueue q f s).sec = s.sec := rfl
@[simp] theorem modQueue_cfg (q : Nat) (f : Queue → Queue) (s : State) : (modQueue q f s).cfg = s.cfg := rfl
@[simp] theorem modQueue_cfgCopy (q : Nat) (f : Queue → Queue) (s : State) : (modQueue q f s).cfgCopy = s.cfgCopy := rfl
@[simp] theorem modQueue_cfgBad (q : Nat) (f : Queue → Queue) (s : State) : (modQueue q f s).cfgBad = s.cfgBad := rfl
@[simp] theorem modQueue_cfgHeld (q : Nat) (f : Queue → Queue) (s : State) : (modQueue q f s).cfgHeld = s.cfgHeld := rfl
@[simp] theorem modQueue_regHeld (q : Nat) (f : Queue → Queue) (s : State) : (modQueue q f s).regHeld = s.regHeld := rfl
@[simp] theorem modQueue_sqc (q : Nat) (f : Queue → Queue) (s : State) : (modQueue q f s).sqc = s.sqc := rfl
@[simp] theorem setSqc_pending (a : Nat) (bs : List Nat) (s : State) : (setSqc a bs s).pending = s.pending := rfl
@[simp] theorem setSqc_free (a : Nat) (bs : List Nat) (s : State) : (setSqc a bs s).free = s.free := rfl
@[simp] theorem setSqc_wire (a : Nat) (bs : List Nat) (s : State) : (setSqc a bs s).wire = s.wire := rfl
@[simp] theorem setSqc_part (a : Nat) (bs : List Nat) (s : State) : (setSqc a bs s).part = s.part := rfl
@[simp] theorem setSqc_otp (a : Nat) (bs : List Nat) (s : State) : (setSqc a bs s).otp = s.otp := rfl
@[simp] theorem setSqc_dev (a : Nat) (bs : List Nat) (s : State) : (setSqc a bs s).dev = s.dev := rfl
@[simp] theorem setSqc_power (a : Nat) (bs : List Nat) (s : State) : (setSqc a bs s).power = s.power := rfl
@[simp] theorem setSqc_warm (a : Nat) (bs : List Nat) (s : State) : (setSqc a bs s).warm = s.warm := rfl
@[simp] theorem setSqc_lich (a : Nat) (bs : List Nat) (s : State) : (setSqc a bs s).lich = s.lich := rfl
@[simp] theorem setSqc_hostA (a : Nat) (bs : List Nat) (s : State) : (setSqc a bs s).hostA = s.hostA := rfl
@[simp] theorem setSqc_hostB (a : Nat) (bs : List Nat) (s : State) : (setSqc a bs s).hostB = s.hostB := rfl
@[simp] theorem setSqc_arrivals (a : Nat) (bs : List Nat) (s : State) : (setSqc a bs s).arrivals = s.arrivals := rfl
@[simp] theorem setSqc_ops (a : Nat) (bs : List Nat) (s : State) : (setSqc a bs s).ops = s.ops := rfl
@[simp] theorem setSqc_lastA (a : Nat) (bs : List Nat) (s : State) : (setSqc a bs s).lastA = s.lastA := rfl
@[simp] theorem setSqc_sems (a : Nat) (bs : List Nat) (s : State) : (setSqc a bs s).sems = s.sems := rfl
@[simp] theorem setSqc_ports (a : Nat) (bs : List Nat) (s : State) : (setSqc a bs s).ports = s.ports := rfl
@[simp] theorem setSqc_ctxs (a : Nat) (bs : List Nat) (s : State) : (setSqc a bs s).ctxs = s.ctxs := rfl
@[simp] theorem setSqc_xfers (a : Nat) (bs : List Nat) (s : State) : (setSqc a bs s).xfers = s.xfers := rfl
@[simp] theorem setSqc_queues (a : Nat) (bs : List Nat) (s : State) : (setSqc a bs s).queues = s.queues := rfl
@[simp] theorem setSqc_pool (a : Nat) (bs : List Nat) (s : State) : (setSqc a bs s).pool = s.pool := rfl
@[simp] theorem setSqc_ctrl (a : Nat) (bs : List Nat) (s : State) : (setSqc a bs s).ctrl = s.ctrl := rfl
@[simp] theorem setSqc_mail (a : Nat) (bs : List Nat) (s : State) : (setSqc a bs s).mail = s.mail := rfl
@[simp] theorem setSqc_mbx (a : Nat) (bs : List Nat) (s : State) : (setSqc a bs s).mbx = s.mbx := rfl
@[simp] theorem setSqc_peat (a : Nat) (bs : List Nat) (s : State) : (setSqc a bs s).peat = s.peat := rfl
@[simp] theorem setSqc_stok (a : Nat) (bs : List Nat) (s : State) : (setSqc a bs s).stok = s.stok := rfl
@[simp] theorem setSqc_ledger (a : Nat) (bs : List Nat) (s : State) : (setSqc a bs s).ledger = s.ledger := rfl
@[simp] theorem setSqc_test (a : Nat) (bs : List Nat) (s : State) : (setSqc a bs s).test = s.test := rfl
@[simp] theorem setSqc_testQ (a : Nat) (bs : List Nat) (s : State) : (setSqc a bs s).testQ = s.testQ := rfl
@[simp] theorem setSqc_cal (a : Nat) (bs : List Nat) (s : State) : (setSqc a bs s).cal = s.cal := rfl
@[simp] theorem setSqc_flts (a : Nat) (bs : List Nat) (s : State) : (setSqc a bs s).flts = s.flts := rfl
@[simp] theorem setSqc_fltLast (a : Nat) (bs : List Nat) (s : State) : (setSqc a bs s).fltLast = s.fltLast := rfl
@[simp] theorem setSqc_fltWait (a : Nat) (bs : List Nat) (s : State) : (setSqc a bs s).fltWait = s.fltWait := rfl
@[simp] theorem setSqc_fltIn (a : Nat) (bs : List Nat) (s : State) : (setSqc a bs s).fltIn = s.fltIn := rfl
@[simp] theorem setSqc_cans (a : Nat) (bs : List Nat) (s : State) : (setSqc a bs s).cans = s.cans := rfl
@[simp] theorem setSqc_time (a : Nat) (bs : List Nat) (s : State) : (setSqc a bs s).time = s.time := rfl
@[simp] theorem setSqc_feedA (a : Nat) (bs : List Nat) (s : State) : (setSqc a bs s).feedA = s.feedA := rfl
@[simp] theorem setSqc_feedB (a : Nat) (bs : List Nat) (s : State) : (setSqc a bs s).feedB = s.feedB := rfl
@[simp] theorem setSqc_board (a : Nat) (bs : List Nat) (s : State) : (setSqc a bs s).board = s.board := rfl
@[simp] theorem setSqc_svc (a : Nat) (bs : List Nat) (s : State) : (setSqc a bs s).svc = s.svc := rfl
@[simp] theorem setSqc_insts (a : Nat) (bs : List Nat) (s : State) : (setSqc a bs s).insts = s.insts := rfl
@[simp] theorem setSqc_trunks (a : Nat) (bs : List Nat) (s : State) : (setSqc a bs s).trunks = s.trunks := rfl
@[simp] theorem setSqc_net (a : Nat) (bs : List Nat) (s : State) : (setSqc a bs s).net = s.net := rfl
@[simp] theorem setSqc_fw (a : Nat) (bs : List Nat) (s : State) : (setSqc a bs s).fw = s.fw := rfl
@[simp] theorem setSqc_sec (a : Nat) (bs : List Nat) (s : State) : (setSqc a bs s).sec = s.sec := rfl
@[simp] theorem setSqc_cfg (a : Nat) (bs : List Nat) (s : State) : (setSqc a bs s).cfg = s.cfg := rfl
@[simp] theorem setSqc_cfgCopy (a : Nat) (bs : List Nat) (s : State) : (setSqc a bs s).cfgCopy = s.cfgCopy := rfl
@[simp] theorem setSqc_cfgBad (a : Nat) (bs : List Nat) (s : State) : (setSqc a bs s).cfgBad = s.cfgBad := rfl
@[simp] theorem setSqc_cfgHeld (a : Nat) (bs : List Nat) (s : State) : (setSqc a bs s).cfgHeld = s.cfgHeld := rfl
@[simp] theorem setSqc_regHeld (a : Nat) (bs : List Nat) (s : State) : (setSqc a bs s).regHeld = s.regHeld := rfl
@[simp] theorem bumpSeq_pending (a : Nat) (s : State) : (bumpSeq a s).pending = s.pending := rfl
@[simp] theorem bumpSeq_free (a : Nat) (s : State) : (bumpSeq a s).free = s.free := rfl
@[simp] theorem bumpSeq_wire (a : Nat) (s : State) : (bumpSeq a s).wire = s.wire := rfl
@[simp] theorem bumpSeq_part (a : Nat) (s : State) : (bumpSeq a s).part = s.part := rfl
@[simp] theorem bumpSeq_otp (a : Nat) (s : State) : (bumpSeq a s).otp = s.otp := rfl
@[simp] theorem bumpSeq_dev (a : Nat) (s : State) : (bumpSeq a s).dev = s.dev := rfl
@[simp] theorem bumpSeq_power (a : Nat) (s : State) : (bumpSeq a s).power = s.power := rfl
@[simp] theorem bumpSeq_warm (a : Nat) (s : State) : (bumpSeq a s).warm = s.warm := rfl
@[simp] theorem bumpSeq_lich (a : Nat) (s : State) : (bumpSeq a s).lich = s.lich := rfl
@[simp] theorem bumpSeq_hostA (a : Nat) (s : State) : (bumpSeq a s).hostA = s.hostA := rfl
@[simp] theorem bumpSeq_hostB (a : Nat) (s : State) : (bumpSeq a s).hostB = s.hostB := rfl
@[simp] theorem bumpSeq_arrivals (a : Nat) (s : State) : (bumpSeq a s).arrivals = s.arrivals := rfl
@[simp] theorem bumpSeq_ops (a : Nat) (s : State) : (bumpSeq a s).ops = s.ops := rfl
@[simp] theorem bumpSeq_lastA (a : Nat) (s : State) : (bumpSeq a s).lastA = s.lastA := rfl
@[simp] theorem bumpSeq_sems (a : Nat) (s : State) : (bumpSeq a s).sems = s.sems := rfl
@[simp] theorem bumpSeq_ports (a : Nat) (s : State) : (bumpSeq a s).ports = s.ports := rfl
@[simp] theorem bumpSeq_ctxs (a : Nat) (s : State) : (bumpSeq a s).ctxs = s.ctxs := rfl
@[simp] theorem bumpSeq_xfers (a : Nat) (s : State) : (bumpSeq a s).xfers = s.xfers := rfl
@[simp] theorem bumpSeq_queues (a : Nat) (s : State) : (bumpSeq a s).queues = s.queues := rfl
@[simp] theorem bumpSeq_pool (a : Nat) (s : State) : (bumpSeq a s).pool = s.pool := rfl
@[simp] theorem bumpSeq_ctrl (a : Nat) (s : State) : (bumpSeq a s).ctrl = s.ctrl := rfl
@[simp] theorem bumpSeq_mail (a : Nat) (s : State) : (bumpSeq a s).mail = s.mail := rfl
@[simp] theorem bumpSeq_mbx (a : Nat) (s : State) : (bumpSeq a s).mbx = s.mbx := rfl
@[simp] theorem bumpSeq_peat (a : Nat) (s : State) : (bumpSeq a s).peat = s.peat := rfl
@[simp] theorem bumpSeq_stok (a : Nat) (s : State) : (bumpSeq a s).stok = s.stok := rfl
@[simp] theorem bumpSeq_ledger (a : Nat) (s : State) : (bumpSeq a s).ledger = s.ledger := rfl
@[simp] theorem bumpSeq_test (a : Nat) (s : State) : (bumpSeq a s).test = s.test := rfl
@[simp] theorem bumpSeq_testQ (a : Nat) (s : State) : (bumpSeq a s).testQ = s.testQ := rfl
@[simp] theorem bumpSeq_cal (a : Nat) (s : State) : (bumpSeq a s).cal = s.cal := rfl
@[simp] theorem bumpSeq_flts (a : Nat) (s : State) : (bumpSeq a s).flts = s.flts := rfl
@[simp] theorem bumpSeq_fltLast (a : Nat) (s : State) : (bumpSeq a s).fltLast = s.fltLast := rfl
@[simp] theorem bumpSeq_fltWait (a : Nat) (s : State) : (bumpSeq a s).fltWait = s.fltWait := rfl
@[simp] theorem bumpSeq_fltIn (a : Nat) (s : State) : (bumpSeq a s).fltIn = s.fltIn := rfl
@[simp] theorem bumpSeq_cans (a : Nat) (s : State) : (bumpSeq a s).cans = s.cans := rfl
@[simp] theorem bumpSeq_time (a : Nat) (s : State) : (bumpSeq a s).time = s.time := rfl
@[simp] theorem bumpSeq_feedA (a : Nat) (s : State) : (bumpSeq a s).feedA = s.feedA := rfl
@[simp] theorem bumpSeq_feedB (a : Nat) (s : State) : (bumpSeq a s).feedB = s.feedB := rfl
@[simp] theorem bumpSeq_board (a : Nat) (s : State) : (bumpSeq a s).board = s.board := rfl
@[simp] theorem bumpSeq_svc (a : Nat) (s : State) : (bumpSeq a s).svc = s.svc := rfl
@[simp] theorem bumpSeq_insts (a : Nat) (s : State) : (bumpSeq a s).insts = s.insts := rfl
@[simp] theorem bumpSeq_trunks (a : Nat) (s : State) : (bumpSeq a s).trunks = s.trunks := rfl
@[simp] theorem bumpSeq_net (a : Nat) (s : State) : (bumpSeq a s).net = s.net := rfl
@[simp] theorem bumpSeq_fw (a : Nat) (s : State) : (bumpSeq a s).fw = s.fw := rfl
@[simp] theorem bumpSeq_sec (a : Nat) (s : State) : (bumpSeq a s).sec = s.sec := rfl
@[simp] theorem bumpSeq_cfg (a : Nat) (s : State) : (bumpSeq a s).cfg = s.cfg := rfl
@[simp] theorem bumpSeq_cfgCopy (a : Nat) (s : State) : (bumpSeq a s).cfgCopy = s.cfgCopy := rfl
@[simp] theorem bumpSeq_cfgBad (a : Nat) (s : State) : (bumpSeq a s).cfgBad = s.cfgBad := rfl
@[simp] theorem bumpSeq_cfgHeld (a : Nat) (s : State) : (bumpSeq a s).cfgHeld = s.cfgHeld := rfl
@[simp] theorem bumpSeq_regHeld (a : Nat) (s : State) : (bumpSeq a s).regHeld = s.regHeld := rfl
@[simp] theorem setCfg_pending (a : Nat) (v : Word) (s : State) : (setCfg a v s).pending = s.pending := rfl
@[simp] theorem setCfg_free (a : Nat) (v : Word) (s : State) : (setCfg a v s).free = s.free := rfl
@[simp] theorem setCfg_wire (a : Nat) (v : Word) (s : State) : (setCfg a v s).wire = s.wire := rfl
@[simp] theorem setCfg_part (a : Nat) (v : Word) (s : State) : (setCfg a v s).part = s.part := rfl
@[simp] theorem setCfg_otp (a : Nat) (v : Word) (s : State) : (setCfg a v s).otp = s.otp := rfl
@[simp] theorem setCfg_dev (a : Nat) (v : Word) (s : State) : (setCfg a v s).dev = s.dev := rfl
@[simp] theorem setCfg_power (a : Nat) (v : Word) (s : State) : (setCfg a v s).power = s.power := rfl
@[simp] theorem setCfg_warm (a : Nat) (v : Word) (s : State) : (setCfg a v s).warm = s.warm := rfl
@[simp] theorem setCfg_lich (a : Nat) (v : Word) (s : State) : (setCfg a v s).lich = s.lich := rfl
@[simp] theorem setCfg_hostA (a : Nat) (v : Word) (s : State) : (setCfg a v s).hostA = s.hostA := rfl
@[simp] theorem setCfg_hostB (a : Nat) (v : Word) (s : State) : (setCfg a v s).hostB = s.hostB := rfl
@[simp] theorem setCfg_arrivals (a : Nat) (v : Word) (s : State) : (setCfg a v s).arrivals = s.arrivals := rfl
@[simp] theorem setCfg_ops (a : Nat) (v : Word) (s : State) : (setCfg a v s).ops = s.ops := rfl
@[simp] theorem setCfg_lastA (a : Nat) (v : Word) (s : State) : (setCfg a v s).lastA = s.lastA := rfl
@[simp] theorem setCfg_sems (a : Nat) (v : Word) (s : State) : (setCfg a v s).sems = s.sems := rfl
@[simp] theorem setCfg_ports (a : Nat) (v : Word) (s : State) : (setCfg a v s).ports = s.ports := rfl
@[simp] theorem setCfg_ctxs (a : Nat) (v : Word) (s : State) : (setCfg a v s).ctxs = s.ctxs := rfl
@[simp] theorem setCfg_xfers (a : Nat) (v : Word) (s : State) : (setCfg a v s).xfers = s.xfers := rfl
@[simp] theorem setCfg_queues (a : Nat) (v : Word) (s : State) : (setCfg a v s).queues = s.queues := rfl
@[simp] theorem setCfg_pool (a : Nat) (v : Word) (s : State) : (setCfg a v s).pool = s.pool := rfl
@[simp] theorem setCfg_ctrl (a : Nat) (v : Word) (s : State) : (setCfg a v s).ctrl = s.ctrl := rfl
@[simp] theorem setCfg_mail (a : Nat) (v : Word) (s : State) : (setCfg a v s).mail = s.mail := rfl
@[simp] theorem setCfg_mbx (a : Nat) (v : Word) (s : State) : (setCfg a v s).mbx = s.mbx := rfl
@[simp] theorem setCfg_peat (a : Nat) (v : Word) (s : State) : (setCfg a v s).peat = s.peat := rfl
@[simp] theorem setCfg_stok (a : Nat) (v : Word) (s : State) : (setCfg a v s).stok = s.stok := rfl
@[simp] theorem setCfg_ledger (a : Nat) (v : Word) (s : State) : (setCfg a v s).ledger = s.ledger := rfl
@[simp] theorem setCfg_test (a : Nat) (v : Word) (s : State) : (setCfg a v s).test = s.test := rfl
@[simp] theorem setCfg_testQ (a : Nat) (v : Word) (s : State) : (setCfg a v s).testQ = s.testQ := rfl
@[simp] theorem setCfg_cal (a : Nat) (v : Word) (s : State) : (setCfg a v s).cal = s.cal := rfl
@[simp] theorem setCfg_flts (a : Nat) (v : Word) (s : State) : (setCfg a v s).flts = s.flts := rfl
@[simp] theorem setCfg_fltLast (a : Nat) (v : Word) (s : State) : (setCfg a v s).fltLast = s.fltLast := rfl
@[simp] theorem setCfg_fltWait (a : Nat) (v : Word) (s : State) : (setCfg a v s).fltWait = s.fltWait := rfl
@[simp] theorem setCfg_fltIn (a : Nat) (v : Word) (s : State) : (setCfg a v s).fltIn = s.fltIn := rfl
@[simp] theorem setCfg_cans (a : Nat) (v : Word) (s : State) : (setCfg a v s).cans = s.cans := rfl
@[simp] theorem setCfg_time (a : Nat) (v : Word) (s : State) : (setCfg a v s).time = s.time := rfl
@[simp] theorem setCfg_feedA (a : Nat) (v : Word) (s : State) : (setCfg a v s).feedA = s.feedA := rfl
@[simp] theorem setCfg_feedB (a : Nat) (v : Word) (s : State) : (setCfg a v s).feedB = s.feedB := rfl
@[simp] theorem setCfg_board (a : Nat) (v : Word) (s : State) : (setCfg a v s).board = s.board := rfl
@[simp] theorem setCfg_svc (a : Nat) (v : Word) (s : State) : (setCfg a v s).svc = s.svc := rfl
@[simp] theorem setCfg_insts (a : Nat) (v : Word) (s : State) : (setCfg a v s).insts = s.insts := rfl
@[simp] theorem setCfg_trunks (a : Nat) (v : Word) (s : State) : (setCfg a v s).trunks = s.trunks := rfl
@[simp] theorem setCfg_net (a : Nat) (v : Word) (s : State) : (setCfg a v s).net = s.net := rfl
@[simp] theorem setCfg_fw (a : Nat) (v : Word) (s : State) : (setCfg a v s).fw = s.fw := rfl
@[simp] theorem setCfg_sec (a : Nat) (v : Word) (s : State) : (setCfg a v s).sec = s.sec := rfl
@[simp] theorem setCfg_cfgHeld (a : Nat) (v : Word) (s : State) : (setCfg a v s).cfgHeld = s.cfgHeld := rfl
@[simp] theorem setCfg_regHeld (a : Nat) (v : Word) (s : State) : (setCfg a v s).regHeld = s.regHeld := rfl
@[simp] theorem setCfg_sqc (a : Nat) (v : Word) (s : State) : (setCfg a v s).sqc = s.sqc := rfl
@[simp] theorem emit_pending (o : Out) (s : State) : (emit o s).pending = s.pending := rfl
@[simp] theorem emit_free (o : Out) (s : State) : (emit o s).free = s.free := rfl
@[simp] theorem emit_part (o : Out) (s : State) : (emit o s).part = s.part := rfl
@[simp] theorem emit_otp (o : Out) (s : State) : (emit o s).otp = s.otp := rfl
@[simp] theorem emit_dev (o : Out) (s : State) : (emit o s).dev = s.dev := rfl
@[simp] theorem emit_power (o : Out) (s : State) : (emit o s).power = s.power := rfl
@[simp] theorem emit_warm (o : Out) (s : State) : (emit o s).warm = s.warm := rfl
@[simp] theorem emit_lich (o : Out) (s : State) : (emit o s).lich = s.lich := rfl
@[simp] theorem emit_hostA (o : Out) (s : State) : (emit o s).hostA = s.hostA := rfl
@[simp] theorem emit_hostB (o : Out) (s : State) : (emit o s).hostB = s.hostB := rfl
@[simp] theorem emit_arrivals (o : Out) (s : State) : (emit o s).arrivals = s.arrivals := rfl
@[simp] theorem emit_ops (o : Out) (s : State) : (emit o s).ops = s.ops := rfl
@[simp] theorem emit_lastA (o : Out) (s : State) : (emit o s).lastA = s.lastA := rfl
@[simp] theorem emit_sems (o : Out) (s : State) : (emit o s).sems = s.sems := rfl
@[simp] theorem emit_ports (o : Out) (s : State) : (emit o s).ports = s.ports := rfl
@[simp] theorem emit_ctxs (o : Out) (s : State) : (emit o s).ctxs = s.ctxs := rfl
@[simp] theorem emit_xfers (o : Out) (s : State) : (emit o s).xfers = s.xfers := rfl
@[simp] theorem emit_queues (o : Out) (s : State) : (emit o s).queues = s.queues := rfl
@[simp] theorem emit_pool (o : Out) (s : State) : (emit o s).pool = s.pool := rfl
@[simp] theorem emit_ctrl (o : Out) (s : State) : (emit o s).ctrl = s.ctrl := rfl
@[simp] theorem emit_mail (o : Out) (s : State) : (emit o s).mail = s.mail := rfl
@[simp] theorem emit_mbx (o : Out) (s : State) : (emit o s).mbx = s.mbx := rfl
@[simp] theorem emit_peat (o : Out) (s : State) : (emit o s).peat = s.peat := rfl
@[simp] theorem emit_stok (o : Out) (s : State) : (emit o s).stok = s.stok := rfl
@[simp] theorem emit_ledger (o : Out) (s : State) : (emit o s).ledger = s.ledger := rfl
@[simp] theorem emit_test (o : Out) (s : State) : (emit o s).test = s.test := rfl
@[simp] theorem emit_testQ (o : Out) (s : State) : (emit o s).testQ = s.testQ := rfl
@[simp] theorem emit_cal (o : Out) (s : State) : (emit o s).cal = s.cal := rfl
@[simp] theorem emit_flts (o : Out) (s : State) : (emit o s).flts = s.flts := rfl
@[simp] theorem emit_fltLast (o : Out) (s : State) : (emit o s).fltLast = s.fltLast := rfl
@[simp] theorem emit_fltWait (o : Out) (s : State) : (emit o s).fltWait = s.fltWait := rfl
@[simp] theorem emit_fltIn (o : Out) (s : State) : (emit o s).fltIn = s.fltIn := rfl
@[simp] theorem emit_cans (o : Out) (s : State) : (emit o s).cans = s.cans := rfl
@[simp] theorem emit_time (o : Out) (s : State) : (emit o s).time = s.time := rfl
@[simp] theorem emit_feedA (o : Out) (s : State) : (emit o s).feedA = s.feedA := rfl
@[simp] theorem emit_feedB (o : Out) (s : State) : (emit o s).feedB = s.feedB := rfl
@[simp] theorem emit_board (o : Out) (s : State) : (emit o s).board = s.board := rfl
@[simp] theorem emit_svc (o : Out) (s : State) : (emit o s).svc = s.svc := rfl
@[simp] theorem emit_insts (o : Out) (s : State) : (emit o s).insts = s.insts := rfl
@[simp] theorem emit_trunks (o : Out) (s : State) : (emit o s).trunks = s.trunks := rfl
@[simp] theorem emit_net (o : Out) (s : State) : (emit o s).net = s.net := rfl
@[simp] theorem emit_fw (o : Out) (s : State) : (emit o s).fw = s.fw := rfl
@[simp] theorem emit_sec (o : Out) (s : State) : (emit o s).sec = s.sec := rfl
@[simp] theorem emit_cfg (o : Out) (s : State) : (emit o s).cfg = s.cfg := rfl
@[simp] theorem emit_cfgCopy (o : Out) (s : State) : (emit o s).cfgCopy = s.cfgCopy := rfl
@[simp] theorem emit_cfgBad (o : Out) (s : State) : (emit o s).cfgBad = s.cfgBad := rfl
@[simp] theorem emit_cfgHeld (o : Out) (s : State) : (emit o s).cfgHeld = s.cfgHeld := rfl
@[simp] theorem emit_regHeld (o : Out) (s : State) : (emit o s).regHeld = s.regHeld := rfl
@[simp] theorem emit_sqc (o : Out) (s : State) : (emit o s).sqc = s.sqc := rfl
@[simp] theorem useFree_pending (s : State) : (useFree s).pending = s.pending := rfl
@[simp] theorem useFree_wire (s : State) : (useFree s).wire = s.wire := rfl
@[simp] theorem useFree_part (s : State) : (useFree s).part = s.part := rfl
@[simp] theorem useFree_otp (s : State) : (useFree s).otp = s.otp := rfl
@[simp] theorem useFree_dev (s : State) : (useFree s).dev = s.dev := rfl
@[simp] theorem useFree_power (s : State) : (useFree s).power = s.power := rfl
@[simp] theorem useFree_warm (s : State) : (useFree s).warm = s.warm := rfl
@[simp] theorem useFree_lich (s : State) : (useFree s).lich = s.lich := rfl
@[simp] theorem useFree_hostA (s : State) : (useFree s).hostA = s.hostA := rfl
@[simp] theorem useFree_hostB (s : State) : (useFree s).hostB = s.hostB := rfl
@[simp] theorem useFree_arrivals (s : State) : (useFree s).arrivals = s.arrivals := rfl
@[simp] theorem useFree_ops (s : State) : (useFree s).ops = s.ops := rfl
@[simp] theorem useFree_lastA (s : State) : (useFree s).lastA = s.lastA := rfl
@[simp] theorem useFree_sems (s : State) : (useFree s).sems = s.sems := rfl
@[simp] theorem useFree_ports (s : State) : (useFree s).ports = s.ports := rfl
@[simp] theorem useFree_ctxs (s : State) : (useFree s).ctxs = s.ctxs := rfl
@[simp] theorem useFree_xfers (s : State) : (useFree s).xfers = s.xfers := rfl
@[simp] theorem useFree_queues (s : State) : (useFree s).queues = s.queues := rfl
@[simp] theorem useFree_pool (s : State) : (useFree s).pool = s.pool := rfl
@[simp] theorem useFree_ctrl (s : State) : (useFree s).ctrl = s.ctrl := rfl
@[simp] theorem useFree_mail (s : State) : (useFree s).mail = s.mail := rfl
@[simp] theorem useFree_mbx (s : State) : (useFree s).mbx = s.mbx := rfl
@[simp] theorem useFree_peat (s : State) : (useFree s).peat = s.peat := rfl
@[simp] theorem useFree_stok (s : State) : (useFree s).stok = s.stok := rfl
@[simp] theorem useFree_ledger (s : State) : (useFree s).ledger = s.ledger := rfl
@[simp] theorem useFree_test (s : State) : (useFree s).test = s.test := rfl
@[simp] theorem useFree_testQ (s : State) : (useFree s).testQ = s.testQ := rfl
@[simp] theorem useFree_cal (s : State) : (useFree s).cal = s.cal := rfl
@[simp] theorem useFree_flts (s : State) : (useFree s).flts = s.flts := rfl
@[simp] theorem useFree_fltLast (s : State) : (useFree s).fltLast = s.fltLast := rfl
@[simp] theorem useFree_fltWait (s : State) : (useFree s).fltWait = s.fltWait := rfl
@[simp] theorem useFree_fltIn (s : State) : (useFree s).fltIn = s.fltIn := rfl
@[simp] theorem useFree_cans (s : State) : (useFree s).cans = s.cans := rfl
@[simp] theorem useFree_time (s : State) : (useFree s).time = s.time := rfl
@[simp] theorem useFree_feedA (s : State) : (useFree s).feedA = s.feedA := rfl
@[simp] theorem useFree_feedB (s : State) : (useFree s).feedB = s.feedB := rfl
@[simp] theorem useFree_board (s : State) : (useFree s).board = s.board := rfl
@[simp] theorem useFree_svc (s : State) : (useFree s).svc = s.svc := rfl
@[simp] theorem useFree_insts (s : State) : (useFree s).insts = s.insts := rfl
@[simp] theorem useFree_trunks (s : State) : (useFree s).trunks = s.trunks := rfl
@[simp] theorem useFree_net (s : State) : (useFree s).net = s.net := rfl
@[simp] theorem useFree_fw (s : State) : (useFree s).fw = s.fw := rfl
@[simp] theorem useFree_sec (s : State) : (useFree s).sec = s.sec := rfl
@[simp] theorem useFree_cfg (s : State) : (useFree s).cfg = s.cfg := rfl
@[simp] theorem useFree_cfgCopy (s : State) : (useFree s).cfgCopy = s.cfgCopy := rfl
@[simp] theorem useFree_cfgBad (s : State) : (useFree s).cfgBad = s.cfgBad := rfl
@[simp] theorem useFree_cfgHeld (s : State) : (useFree s).cfgHeld = s.cfgHeld := rfl
@[simp] theorem useFree_regHeld (s : State) : (useFree s).regHeld = s.regHeld := rfl
@[simp] theorem useFree_sqc (s : State) : (useFree s).sqc = s.sqc := rfl
@[simp] theorem raise_pending (src sub : Nat) (s : State) : (raise src sub s).pending = s.pending := rfl
@[simp] theorem raise_free (src sub : Nat) (s : State) : (raise src sub s).free = s.free := rfl
@[simp] theorem raise_wire (src sub : Nat) (s : State) : (raise src sub s).wire = s.wire := rfl
@[simp] theorem raise_part (src sub : Nat) (s : State) : (raise src sub s).part = s.part := rfl
@[simp] theorem raise_otp (src sub : Nat) (s : State) : (raise src sub s).otp = s.otp := rfl
@[simp] theorem raise_dev (src sub : Nat) (s : State) : (raise src sub s).dev = s.dev := rfl
@[simp] theorem raise_power (src sub : Nat) (s : State) : (raise src sub s).power = s.power := rfl
@[simp] theorem raise_warm (src sub : Nat) (s : State) : (raise src sub s).warm = s.warm := rfl
@[simp] theorem raise_lich (src sub : Nat) (s : State) : (raise src sub s).lich = s.lich := rfl
@[simp] theorem raise_hostA (src sub : Nat) (s : State) : (raise src sub s).hostA = s.hostA := rfl
@[simp] theorem raise_hostB (src sub : Nat) (s : State) : (raise src sub s).hostB = s.hostB := rfl
@[simp] theorem raise_arrivals (src sub : Nat) (s : State) : (raise src sub s).arrivals = s.arrivals := rfl
@[simp] theorem raise_ops (src sub : Nat) (s : State) : (raise src sub s).ops = s.ops := rfl
@[simp] theorem raise_lastA (src sub : Nat) (s : State) : (raise src sub s).lastA = s.lastA := rfl
@[simp] theorem raise_sems (src sub : Nat) (s : State) : (raise src sub s).sems = s.sems := rfl
@[simp] theorem raise_ports (src sub : Nat) (s : State) : (raise src sub s).ports = s.ports := rfl
@[simp] theorem raise_ctxs (src sub : Nat) (s : State) : (raise src sub s).ctxs = s.ctxs := rfl
@[simp] theorem raise_xfers (src sub : Nat) (s : State) : (raise src sub s).xfers = s.xfers := rfl
@[simp] theorem raise_queues (src sub : Nat) (s : State) : (raise src sub s).queues = s.queues := rfl
@[simp] theorem raise_pool (src sub : Nat) (s : State) : (raise src sub s).pool = s.pool := rfl
@[simp] theorem raise_ctrl (src sub : Nat) (s : State) : (raise src sub s).ctrl = s.ctrl := rfl
@[simp] theorem raise_mail (src sub : Nat) (s : State) : (raise src sub s).mail = s.mail := rfl
@[simp] theorem raise_mbx (src sub : Nat) (s : State) : (raise src sub s).mbx = s.mbx := rfl
@[simp] theorem raise_peat (src sub : Nat) (s : State) : (raise src sub s).peat = s.peat := rfl
@[simp] theorem raise_stok (src sub : Nat) (s : State) : (raise src sub s).stok = s.stok := rfl
@[simp] theorem raise_ledger (src sub : Nat) (s : State) : (raise src sub s).ledger = s.ledger := rfl
@[simp] theorem raise_test (src sub : Nat) (s : State) : (raise src sub s).test = s.test := rfl
@[simp] theorem raise_testQ (src sub : Nat) (s : State) : (raise src sub s).testQ = s.testQ := rfl
@[simp] theorem raise_cal (src sub : Nat) (s : State) : (raise src sub s).cal = s.cal := rfl
@[simp] theorem raise_flts (src sub : Nat) (s : State) : (raise src sub s).flts = s.flts := rfl
@[simp] theorem raise_fltLast (src sub : Nat) (s : State) : (raise src sub s).fltLast = s.fltLast := rfl
@[simp] theorem raise_fltWait (src sub : Nat) (s : State) : (raise src sub s).fltWait = s.fltWait := rfl
@[simp] theorem raise_cans (src sub : Nat) (s : State) : (raise src sub s).cans = s.cans := rfl
@[simp] theorem raise_time (src sub : Nat) (s : State) : (raise src sub s).time = s.time := rfl
@[simp] theorem raise_feedA (src sub : Nat) (s : State) : (raise src sub s).feedA = s.feedA := rfl
@[simp] theorem raise_feedB (src sub : Nat) (s : State) : (raise src sub s).feedB = s.feedB := rfl
@[simp] theorem raise_board (src sub : Nat) (s : State) : (raise src sub s).board = s.board := rfl
@[simp] theorem raise_svc (src sub : Nat) (s : State) : (raise src sub s).svc = s.svc := rfl
@[simp] theorem raise_insts (src sub : Nat) (s : State) : (raise src sub s).insts = s.insts := rfl
@[simp] theorem raise_trunks (src sub : Nat) (s : State) : (raise src sub s).trunks = s.trunks := rfl
@[simp] theorem raise_net (src sub : Nat) (s : State) : (raise src sub s).net = s.net := rfl
@[simp] theorem raise_fw (src sub : Nat) (s : State) : (raise src sub s).fw = s.fw := rfl
@[simp] theorem raise_sec (src sub : Nat) (s : State) : (raise src sub s).sec = s.sec := rfl
@[simp] theorem raise_cfg (src sub : Nat) (s : State) : (raise src sub s).cfg = s.cfg := rfl
@[simp] theorem raise_cfgCopy (src sub : Nat) (s : State) : (raise src sub s).cfgCopy = s.cfgCopy := rfl
@[simp] theorem raise_cfgBad (src sub : Nat) (s : State) : (raise src sub s).cfgBad = s.cfgBad := rfl
@[simp] theorem raise_cfgHeld (src sub : Nat) (s : State) : (raise src sub s).cfgHeld = s.cfgHeld := rfl
@[simp] theorem raise_regHeld (src sub : Nat) (s : State) : (raise src sub s).regHeld = s.regHeld := rfl
@[simp] theorem raise_sqc (src sub : Nat) (s : State) : (raise src sub s).sqc = s.sqc := rfl
@[simp] theorem clearFlt_pending (src sub : Nat) (s : State) : (clearFlt src sub s).pending = s.pending := rfl
@[simp] theorem clearFlt_free (src sub : Nat) (s : State) : (clearFlt src sub s).free = s.free := rfl
@[simp] theorem clearFlt_wire (src sub : Nat) (s : State) : (clearFlt src sub s).wire = s.wire := rfl
@[simp] theorem clearFlt_part (src sub : Nat) (s : State) : (clearFlt src sub s).part = s.part := rfl
@[simp] theorem clearFlt_otp (src sub : Nat) (s : State) : (clearFlt src sub s).otp = s.otp := rfl
@[simp] theorem clearFlt_dev (src sub : Nat) (s : State) : (clearFlt src sub s).dev = s.dev := rfl
@[simp] theorem clearFlt_power (src sub : Nat) (s : State) : (clearFlt src sub s).power = s.power := rfl
@[simp] theorem clearFlt_warm (src sub : Nat) (s : State) : (clearFlt src sub s).warm = s.warm := rfl
@[simp] theorem clearFlt_lich (src sub : Nat) (s : State) : (clearFlt src sub s).lich = s.lich := rfl
@[simp] theorem clearFlt_hostA (src sub : Nat) (s : State) : (clearFlt src sub s).hostA = s.hostA := rfl
@[simp] theorem clearFlt_hostB (src sub : Nat) (s : State) : (clearFlt src sub s).hostB = s.hostB := rfl
@[simp] theorem clearFlt_arrivals (src sub : Nat) (s : State) : (clearFlt src sub s).arrivals = s.arrivals := rfl
@[simp] theorem clearFlt_ops (src sub : Nat) (s : State) : (clearFlt src sub s).ops = s.ops := rfl
@[simp] theorem clearFlt_lastA (src sub : Nat) (s : State) : (clearFlt src sub s).lastA = s.lastA := rfl
@[simp] theorem clearFlt_sems (src sub : Nat) (s : State) : (clearFlt src sub s).sems = s.sems := rfl
@[simp] theorem clearFlt_ports (src sub : Nat) (s : State) : (clearFlt src sub s).ports = s.ports := rfl
@[simp] theorem clearFlt_ctxs (src sub : Nat) (s : State) : (clearFlt src sub s).ctxs = s.ctxs := rfl
@[simp] theorem clearFlt_xfers (src sub : Nat) (s : State) : (clearFlt src sub s).xfers = s.xfers := rfl
@[simp] theorem clearFlt_queues (src sub : Nat) (s : State) : (clearFlt src sub s).queues = s.queues := rfl
@[simp] theorem clearFlt_pool (src sub : Nat) (s : State) : (clearFlt src sub s).pool = s.pool := rfl
@[simp] theorem clearFlt_ctrl (src sub : Nat) (s : State) : (clearFlt src sub s).ctrl = s.ctrl := rfl
@[simp] theorem clearFlt_mail (src sub : Nat) (s : State) : (clearFlt src sub s).mail = s.mail := rfl
@[simp] theorem clearFlt_mbx (src sub : Nat) (s : State) : (clearFlt src sub s).mbx = s.mbx := rfl
@[simp] theorem clearFlt_peat (src sub : Nat) (s : State) : (clearFlt src sub s).peat = s.peat := rfl
@[simp] theorem clearFlt_stok (src sub : Nat) (s : State) : (clearFlt src sub s).stok = s.stok := rfl
@[simp] theorem clearFlt_ledger (src sub : Nat) (s : State) : (clearFlt src sub s).ledger = s.ledger := rfl
@[simp] theorem clearFlt_test (src sub : Nat) (s : State) : (clearFlt src sub s).test = s.test := rfl
@[simp] theorem clearFlt_testQ (src sub : Nat) (s : State) : (clearFlt src sub s).testQ = s.testQ := rfl
@[simp] theorem clearFlt_cal (src sub : Nat) (s : State) : (clearFlt src sub s).cal = s.cal := rfl
@[simp] theorem clearFlt_flts (src sub : Nat) (s : State) : (clearFlt src sub s).flts = s.flts := rfl
@[simp] theorem clearFlt_fltLast (src sub : Nat) (s : State) : (clearFlt src sub s).fltLast = s.fltLast := rfl
@[simp] theorem clearFlt_fltWait (src sub : Nat) (s : State) : (clearFlt src sub s).fltWait = s.fltWait := rfl
@[simp] theorem clearFlt_cans (src sub : Nat) (s : State) : (clearFlt src sub s).cans = s.cans := rfl
@[simp] theorem clearFlt_time (src sub : Nat) (s : State) : (clearFlt src sub s).time = s.time := rfl
@[simp] theorem clearFlt_feedA (src sub : Nat) (s : State) : (clearFlt src sub s).feedA = s.feedA := rfl
@[simp] theorem clearFlt_feedB (src sub : Nat) (s : State) : (clearFlt src sub s).feedB = s.feedB := rfl
@[simp] theorem clearFlt_board (src sub : Nat) (s : State) : (clearFlt src sub s).board = s.board := rfl
@[simp] theorem clearFlt_svc (src sub : Nat) (s : State) : (clearFlt src sub s).svc = s.svc := rfl
@[simp] theorem clearFlt_insts (src sub : Nat) (s : State) : (clearFlt src sub s).insts = s.insts := rfl
@[simp] theorem clearFlt_trunks (src sub : Nat) (s : State) : (clearFlt src sub s).trunks = s.trunks := rfl
@[simp] theorem clearFlt_net (src sub : Nat) (s : State) : (clearFlt src sub s).net = s.net := rfl
@[simp] theorem clearFlt_fw (src sub : Nat) (s : State) : (clearFlt src sub s).fw = s.fw := rfl
@[simp] theorem clearFlt_sec (src sub : Nat) (s : State) : (clearFlt src sub s).sec = s.sec := rfl
@[simp] theorem clearFlt_cfg (src sub : Nat) (s : State) : (clearFlt src sub s).cfg = s.cfg := rfl
@[simp] theorem clearFlt_cfgCopy (src sub : Nat) (s : State) : (clearFlt src sub s).cfgCopy = s.cfgCopy := rfl
@[simp] theorem clearFlt_cfgBad (src sub : Nat) (s : State) : (clearFlt src sub s).cfgBad = s.cfgBad := rfl
@[simp] theorem clearFlt_cfgHeld (src sub : Nat) (s : State) : (clearFlt src sub s).cfgHeld = s.cfgHeld := rfl
@[simp] theorem clearFlt_regHeld (src sub : Nat) (s : State) : (clearFlt src sub s).regHeld = s.regHeld := rfl
@[simp] theorem clearFlt_sqc (src sub : Nat) (s : State) : (clearFlt src sub s).sqc = s.sqc := rfl
@[simp] theorem modStok_pending (f : Stoker → Stoker) (s : State) : (modStok f s).pending = s.pending := rfl
@[simp] theorem modStok_free (f : Stoker → Stoker) (s : State) : (modStok f s).free = s.free := rfl
@[simp] theorem modStok_wire (f : Stoker → Stoker) (s : State) : (modStok f s).wire = s.wire := rfl
@[simp] theorem modStok_part (f : Stoker → Stoker) (s : State) : (modStok f s).part = s.part := rfl
@[simp] theorem modStok_otp (f : Stoker → Stoker) (s : State) : (modStok f s).otp = s.otp := rfl
@[simp] theorem modStok_dev (f : Stoker → Stoker) (s : State) : (modStok f s).dev = s.dev := rfl
@[simp] theorem modStok_power (f : Stoker → Stoker) (s : State) : (modStok f s).power = s.power := rfl
@[simp] theorem modStok_warm (f : Stoker → Stoker) (s : State) : (modStok f s).warm = s.warm := rfl
@[simp] theorem modStok_lich (f : Stoker → Stoker) (s : State) : (modStok f s).lich = s.lich := rfl
@[simp] theorem modStok_hostA (f : Stoker → Stoker) (s : State) : (modStok f s).hostA = s.hostA := rfl
@[simp] theorem modStok_hostB (f : Stoker → Stoker) (s : State) : (modStok f s).hostB = s.hostB := rfl
@[simp] theorem modStok_arrivals (f : Stoker → Stoker) (s : State) : (modStok f s).arrivals = s.arrivals := rfl
@[simp] theorem modStok_ops (f : Stoker → Stoker) (s : State) : (modStok f s).ops = s.ops := rfl
@[simp] theorem modStok_lastA (f : Stoker → Stoker) (s : State) : (modStok f s).lastA = s.lastA := rfl
@[simp] theorem modStok_sems (f : Stoker → Stoker) (s : State) : (modStok f s).sems = s.sems := rfl
@[simp] theorem modStok_ports (f : Stoker → Stoker) (s : State) : (modStok f s).ports = s.ports := rfl
@[simp] theorem modStok_ctxs (f : Stoker → Stoker) (s : State) : (modStok f s).ctxs = s.ctxs := rfl
@[simp] theorem modStok_xfers (f : Stoker → Stoker) (s : State) : (modStok f s).xfers = s.xfers := rfl
@[simp] theorem modStok_queues (f : Stoker → Stoker) (s : State) : (modStok f s).queues = s.queues := rfl
@[simp] theorem modStok_pool (f : Stoker → Stoker) (s : State) : (modStok f s).pool = s.pool := rfl
@[simp] theorem modStok_ctrl (f : Stoker → Stoker) (s : State) : (modStok f s).ctrl = s.ctrl := rfl
@[simp] theorem modStok_mail (f : Stoker → Stoker) (s : State) : (modStok f s).mail = s.mail := rfl
@[simp] theorem modStok_mbx (f : Stoker → Stoker) (s : State) : (modStok f s).mbx = s.mbx := rfl
@[simp] theorem modStok_peat (f : Stoker → Stoker) (s : State) : (modStok f s).peat = s.peat := rfl
@[simp] theorem modStok_ledger (f : Stoker → Stoker) (s : State) : (modStok f s).ledger = s.ledger := rfl
@[simp] theorem modStok_test (f : Stoker → Stoker) (s : State) : (modStok f s).test = s.test := rfl
@[simp] theorem modStok_testQ (f : Stoker → Stoker) (s : State) : (modStok f s).testQ = s.testQ := rfl
@[simp] theorem modStok_cal (f : Stoker → Stoker) (s : State) : (modStok f s).cal = s.cal := rfl
@[simp] theorem modStok_flts (f : Stoker → Stoker) (s : State) : (modStok f s).flts = s.flts := rfl
@[simp] theorem modStok_fltLast (f : Stoker → Stoker) (s : State) : (modStok f s).fltLast = s.fltLast := rfl
@[simp] theorem modStok_fltWait (f : Stoker → Stoker) (s : State) : (modStok f s).fltWait = s.fltWait := rfl
@[simp] theorem modStok_fltIn (f : Stoker → Stoker) (s : State) : (modStok f s).fltIn = s.fltIn := rfl
@[simp] theorem modStok_cans (f : Stoker → Stoker) (s : State) : (modStok f s).cans = s.cans := rfl
@[simp] theorem modStok_time (f : Stoker → Stoker) (s : State) : (modStok f s).time = s.time := rfl
@[simp] theorem modStok_feedA (f : Stoker → Stoker) (s : State) : (modStok f s).feedA = s.feedA := rfl
@[simp] theorem modStok_feedB (f : Stoker → Stoker) (s : State) : (modStok f s).feedB = s.feedB := rfl
@[simp] theorem modStok_board (f : Stoker → Stoker) (s : State) : (modStok f s).board = s.board := rfl
@[simp] theorem modStok_svc (f : Stoker → Stoker) (s : State) : (modStok f s).svc = s.svc := rfl
@[simp] theorem modStok_insts (f : Stoker → Stoker) (s : State) : (modStok f s).insts = s.insts := rfl
@[simp] theorem modStok_trunks (f : Stoker → Stoker) (s : State) : (modStok f s).trunks = s.trunks := rfl
@[simp] theorem modStok_net (f : Stoker → Stoker) (s : State) : (modStok f s).net = s.net := rfl
@[simp] theorem modStok_fw (f : Stoker → Stoker) (s : State) : (modStok f s).fw = s.fw := rfl
@[simp] theorem modStok_sec (f : Stoker → Stoker) (s : State) : (modStok f s).sec = s.sec := rfl
@[simp] theorem modStok_cfg (f : Stoker → Stoker) (s : State) : (modStok f s).cfg = s.cfg := rfl
@[simp] theorem modStok_cfgCopy (f : Stoker → Stoker) (s : State) : (modStok f s).cfgCopy = s.cfgCopy := rfl
@[simp] theorem modStok_cfgBad (f : Stoker → Stoker) (s : State) : (modStok f s).cfgBad = s.cfgBad := rfl
@[simp] theorem modStok_cfgHeld (f : Stoker → Stoker) (s : State) : (modStok f s).cfgHeld = s.cfgHeld := rfl
@[simp] theorem modStok_regHeld (f : Stoker → Stoker) (s : State) : (modStok f s).regHeld = s.regHeld := rfl
@[simp] theorem modStok_sqc (f : Stoker → Stoker) (s : State) : (modStok f s).sqc = s.sqc := rfl
@[simp] theorem modLedger_pending (f : Ledger → Ledger) (s : State) : (modLedger f s).pending = s.pending := rfl
@[simp] theorem modLedger_free (f : Ledger → Ledger) (s : State) : (modLedger f s).free = s.free := rfl
@[simp] theorem modLedger_wire (f : Ledger → Ledger) (s : State) : (modLedger f s).wire = s.wire := rfl
@[simp] theorem modLedger_part (f : Ledger → Ledger) (s : State) : (modLedger f s).part = s.part := rfl
@[simp] theorem modLedger_otp (f : Ledger → Ledger) (s : State) : (modLedger f s).otp = s.otp := rfl
@[simp] theorem modLedger_dev (f : Ledger → Ledger) (s : State) : (modLedger f s).dev = s.dev := rfl
@[simp] theorem modLedger_power (f : Ledger → Ledger) (s : State) : (modLedger f s).power = s.power := rfl
@[simp] theorem modLedger_warm (f : Ledger → Ledger) (s : State) : (modLedger f s).warm = s.warm := rfl
@[simp] theorem modLedger_lich (f : Ledger → Ledger) (s : State) : (modLedger f s).lich = s.lich := rfl
@[simp] theorem modLedger_hostA (f : Ledger → Ledger) (s : State) : (modLedger f s).hostA = s.hostA := rfl
@[simp] theorem modLedger_hostB (f : Ledger → Ledger) (s : State) : (modLedger f s).hostB = s.hostB := rfl
@[simp] theorem modLedger_arrivals (f : Ledger → Ledger) (s : State) : (modLedger f s).arrivals = s.arrivals := rfl
@[simp] theorem modLedger_ops (f : Ledger → Ledger) (s : State) : (modLedger f s).ops = s.ops := rfl
@[simp] theorem modLedger_lastA (f : Ledger → Ledger) (s : State) : (modLedger f s).lastA = s.lastA := rfl
@[simp] theorem modLedger_sems (f : Ledger → Ledger) (s : State) : (modLedger f s).sems = s.sems := rfl
@[simp] theorem modLedger_ports (f : Ledger → Ledger) (s : State) : (modLedger f s).ports = s.ports := rfl
@[simp] theorem modLedger_ctxs (f : Ledger → Ledger) (s : State) : (modLedger f s).ctxs = s.ctxs := rfl
@[simp] theorem modLedger_xfers (f : Ledger → Ledger) (s : State) : (modLedger f s).xfers = s.xfers := rfl
@[simp] theorem modLedger_queues (f : Ledger → Ledger) (s : State) : (modLedger f s).queues = s.queues := rfl
@[simp] theorem modLedger_pool (f : Ledger → Ledger) (s : State) : (modLedger f s).pool = s.pool := rfl
@[simp] theorem modLedger_ctrl (f : Ledger → Ledger) (s : State) : (modLedger f s).ctrl = s.ctrl := rfl
@[simp] theorem modLedger_mail (f : Ledger → Ledger) (s : State) : (modLedger f s).mail = s.mail := rfl
@[simp] theorem modLedger_mbx (f : Ledger → Ledger) (s : State) : (modLedger f s).mbx = s.mbx := rfl
@[simp] theorem modLedger_peat (f : Ledger → Ledger) (s : State) : (modLedger f s).peat = s.peat := rfl
@[simp] theorem modLedger_stok (f : Ledger → Ledger) (s : State) : (modLedger f s).stok = s.stok := rfl
@[simp] theorem modLedger_test (f : Ledger → Ledger) (s : State) : (modLedger f s).test = s.test := rfl
@[simp] theorem modLedger_testQ (f : Ledger → Ledger) (s : State) : (modLedger f s).testQ = s.testQ := rfl
@[simp] theorem modLedger_cal (f : Ledger → Ledger) (s : State) : (modLedger f s).cal = s.cal := rfl
@[simp] theorem modLedger_flts (f : Ledger → Ledger) (s : State) : (modLedger f s).flts = s.flts := rfl
@[simp] theorem modLedger_fltLast (f : Ledger → Ledger) (s : State) : (modLedger f s).fltLast = s.fltLast := rfl
@[simp] theorem modLedger_fltWait (f : Ledger → Ledger) (s : State) : (modLedger f s).fltWait = s.fltWait := rfl
@[simp] theorem modLedger_fltIn (f : Ledger → Ledger) (s : State) : (modLedger f s).fltIn = s.fltIn := rfl
@[simp] theorem modLedger_cans (f : Ledger → Ledger) (s : State) : (modLedger f s).cans = s.cans := rfl
@[simp] theorem modLedger_time (f : Ledger → Ledger) (s : State) : (modLedger f s).time = s.time := rfl
@[simp] theorem modLedger_feedA (f : Ledger → Ledger) (s : State) : (modLedger f s).feedA = s.feedA := rfl
@[simp] theorem modLedger_feedB (f : Ledger → Ledger) (s : State) : (modLedger f s).feedB = s.feedB := rfl
@[simp] theorem modLedger_board (f : Ledger → Ledger) (s : State) : (modLedger f s).board = s.board := rfl
@[simp] theorem modLedger_svc (f : Ledger → Ledger) (s : State) : (modLedger f s).svc = s.svc := rfl
@[simp] theorem modLedger_insts (f : Ledger → Ledger) (s : State) : (modLedger f s).insts = s.insts := rfl
@[simp] theorem modLedger_trunks (f : Ledger → Ledger) (s : State) : (modLedger f s).trunks = s.trunks := rfl
@[simp] theorem modLedger_net (f : Ledger → Ledger) (s : State) : (modLedger f s).net = s.net := rfl
@[simp] theorem modLedger_fw (f : Ledger → Ledger) (s : State) : (modLedger f s).fw = s.fw := rfl
@[simp] theorem modLedger_sec (f : Ledger → Ledger) (s : State) : (modLedger f s).sec = s.sec := rfl
@[simp] theorem modLedger_cfg (f : Ledger → Ledger) (s : State) : (modLedger f s).cfg = s.cfg := rfl
@[simp] theorem modLedger_cfgCopy (f : Ledger → Ledger) (s : State) : (modLedger f s).cfgCopy = s.cfgCopy := rfl
@[simp] theorem modLedger_cfgBad (f : Ledger → Ledger) (s : State) : (modLedger f s).cfgBad = s.cfgBad := rfl
@[simp] theorem modLedger_cfgHeld (f : Ledger → Ledger) (s : State) : (modLedger f s).cfgHeld = s.cfgHeld := rfl
@[simp] theorem modLedger_regHeld (f : Ledger → Ledger) (s : State) : (modLedger f s).regHeld = s.regHeld := rfl
@[simp] theorem modLedger_sqc (f : Ledger → Ledger) (s : State) : (modLedger f s).sqc = s.sqc := rfl
@[simp] theorem modLich_pending (f : Lichen → Lichen) (s : State) : (modLich f s).pending = s.pending := rfl
@[simp] theorem modLich_free (f : Lichen → Lichen) (s : State) : (modLich f s).free = s.free := rfl
@[simp] theorem modLich_wire (f : Lichen → Lichen) (s : State) : (modLich f s).wire = s.wire := rfl
@[simp] theorem modLich_part (f : Lichen → Lichen) (s : State) : (modLich f s).part = s.part := rfl
@[simp] theorem modLich_otp (f : Lichen → Lichen) (s : State) : (modLich f s).otp = s.otp := rfl
@[simp] theorem modLich_dev (f : Lichen → Lichen) (s : State) : (modLich f s).dev = s.dev := rfl
@[simp] theorem modLich_power (f : Lichen → Lichen) (s : State) : (modLich f s).power = s.power := rfl
@[simp] theorem modLich_warm (f : Lichen → Lichen) (s : State) : (modLich f s).warm = s.warm := rfl
@[simp] theorem modLich_hostA (f : Lichen → Lichen) (s : State) : (modLich f s).hostA = s.hostA := rfl
@[simp] theorem modLich_hostB (f : Lichen → Lichen) (s : State) : (modLich f s).hostB = s.hostB := rfl
@[simp] theorem modLich_arrivals (f : Lichen → Lichen) (s : State) : (modLich f s).arrivals = s.arrivals := rfl
@[simp] theorem modLich_ops (f : Lichen → Lichen) (s : State) : (modLich f s).ops = s.ops := rfl
@[simp] theorem modLich_lastA (f : Lichen → Lichen) (s : State) : (modLich f s).lastA = s.lastA := rfl
@[simp] theorem modLich_sems (f : Lichen → Lichen) (s : State) : (modLich f s).sems = s.sems := rfl
@[simp] theorem modLich_ports (f : Lichen → Lichen) (s : State) : (modLich f s).ports = s.ports := rfl
@[simp] theorem modLich_ctxs (f : Lichen → Lichen) (s : State) : (modLich f s).ctxs = s.ctxs := rfl
@[simp] theorem modLich_xfers (f : Lichen → Lichen) (s : State) : (modLich f s).xfers = s.xfers := rfl
@[simp] theorem modLich_queues (f : Lichen → Lichen) (s : State) : (modLich f s).queues = s.queues := rfl
@[simp] theorem modLich_pool (f : Lichen → Lichen) (s : State) : (modLich f s).pool = s.pool := rfl
@[simp] theorem modLich_ctrl (f : Lichen → Lichen) (s : State) : (modLich f s).ctrl = s.ctrl := rfl
@[simp] theorem modLich_mail (f : Lichen → Lichen) (s : State) : (modLich f s).mail = s.mail := rfl
@[simp] theorem modLich_mbx (f : Lichen → Lichen) (s : State) : (modLich f s).mbx = s.mbx := rfl
@[simp] theorem modLich_peat (f : Lichen → Lichen) (s : State) : (modLich f s).peat = s.peat := rfl
@[simp] theorem modLich_stok (f : Lichen → Lichen) (s : State) : (modLich f s).stok = s.stok := rfl
@[simp] theorem modLich_ledger (f : Lichen → Lichen) (s : State) : (modLich f s).ledger = s.ledger := rfl
@[simp] theorem modLich_test (f : Lichen → Lichen) (s : State) : (modLich f s).test = s.test := rfl
@[simp] theorem modLich_testQ (f : Lichen → Lichen) (s : State) : (modLich f s).testQ = s.testQ := rfl
@[simp] theorem modLich_cal (f : Lichen → Lichen) (s : State) : (modLich f s).cal = s.cal := rfl
@[simp] theorem modLich_flts (f : Lichen → Lichen) (s : State) : (modLich f s).flts = s.flts := rfl
@[simp] theorem modLich_fltLast (f : Lichen → Lichen) (s : State) : (modLich f s).fltLast = s.fltLast := rfl
@[simp] theorem modLich_fltWait (f : Lichen → Lichen) (s : State) : (modLich f s).fltWait = s.fltWait := rfl
@[simp] theorem modLich_fltIn (f : Lichen → Lichen) (s : State) : (modLich f s).fltIn = s.fltIn := rfl
@[simp] theorem modLich_cans (f : Lichen → Lichen) (s : State) : (modLich f s).cans = s.cans := rfl
@[simp] theorem modLich_time (f : Lichen → Lichen) (s : State) : (modLich f s).time = s.time := rfl
@[simp] theorem modLich_feedA (f : Lichen → Lichen) (s : State) : (modLich f s).feedA = s.feedA := rfl
@[simp] theorem modLich_feedB (f : Lichen → Lichen) (s : State) : (modLich f s).feedB = s.feedB := rfl
@[simp] theorem modLich_board (f : Lichen → Lichen) (s : State) : (modLich f s).board = s.board := rfl
@[simp] theorem modLich_svc (f : Lichen → Lichen) (s : State) : (modLich f s).svc = s.svc := rfl
@[simp] theorem modLich_insts (f : Lichen → Lichen) (s : State) : (modLich f s).insts = s.insts := rfl
@[simp] theorem modLich_trunks (f : Lichen → Lichen) (s : State) : (modLich f s).trunks = s.trunks := rfl
@[simp] theorem modLich_net (f : Lichen → Lichen) (s : State) : (modLich f s).net = s.net := rfl
@[simp] theorem modLich_fw (f : Lichen → Lichen) (s : State) : (modLich f s).fw = s.fw := rfl
@[simp] theorem modLich_sec (f : Lichen → Lichen) (s : State) : (modLich f s).sec = s.sec := rfl
@[simp] theorem modLich_cfg (f : Lichen → Lichen) (s : State) : (modLich f s).cfg = s.cfg := rfl
@[simp] theorem modLich_cfgCopy (f : Lichen → Lichen) (s : State) : (modLich f s).cfgCopy = s.cfgCopy := rfl
@[simp] theorem modLich_cfgBad (f : Lichen → Lichen) (s : State) : (modLich f s).cfgBad = s.cfgBad := rfl
@[simp] theorem modLich_cfgHeld (f : Lichen → Lichen) (s : State) : (modLich f s).cfgHeld = s.cfgHeld := rfl
@[simp] theorem modLich_regHeld (f : Lichen → Lichen) (s : State) : (modLich f s).regHeld = s.regHeld := rfl
@[simp] theorem modLich_sqc (f : Lichen → Lichen) (s : State) : (modLich f s).sqc = s.sqc := rfl
@[simp] theorem modDev_pending (f : Dev → Dev) (s : State) : (modDev f s).pending = s.pending := rfl
@[simp] theorem modDev_free (f : Dev → Dev) (s : State) : (modDev f s).free = s.free := rfl
@[simp] theorem modDev_wire (f : Dev → Dev) (s : State) : (modDev f s).wire = s.wire := rfl
@[simp] theorem modDev_part (f : Dev → Dev) (s : State) : (modDev f s).part = s.part := rfl
@[simp] theorem modDev_otp (f : Dev → Dev) (s : State) : (modDev f s).otp = s.otp := rfl
@[simp] theorem modDev_power (f : Dev → Dev) (s : State) : (modDev f s).power = s.power := rfl
@[simp] theorem modDev_warm (f : Dev → Dev) (s : State) : (modDev f s).warm = s.warm := rfl
@[simp] theorem modDev_lich (f : Dev → Dev) (s : State) : (modDev f s).lich = s.lich := rfl
@[simp] theorem modDev_hostA (f : Dev → Dev) (s : State) : (modDev f s).hostA = s.hostA := rfl
@[simp] theorem modDev_hostB (f : Dev → Dev) (s : State) : (modDev f s).hostB = s.hostB := rfl
@[simp] theorem modDev_arrivals (f : Dev → Dev) (s : State) : (modDev f s).arrivals = s.arrivals := rfl
@[simp] theorem modDev_ops (f : Dev → Dev) (s : State) : (modDev f s).ops = s.ops := rfl
@[simp] theorem modDev_lastA (f : Dev → Dev) (s : State) : (modDev f s).lastA = s.lastA := rfl
@[simp] theorem modDev_sems (f : Dev → Dev) (s : State) : (modDev f s).sems = s.sems := rfl
@[simp] theorem modDev_ports (f : Dev → Dev) (s : State) : (modDev f s).ports = s.ports := rfl
@[simp] theorem modDev_ctxs (f : Dev → Dev) (s : State) : (modDev f s).ctxs = s.ctxs := rfl
@[simp] theorem modDev_xfers (f : Dev → Dev) (s : State) : (modDev f s).xfers = s.xfers := rfl
@[simp] theorem modDev_queues (f : Dev → Dev) (s : State) : (modDev f s).queues = s.queues := rfl
@[simp] theorem modDev_pool (f : Dev → Dev) (s : State) : (modDev f s).pool = s.pool := rfl
@[simp] theorem modDev_ctrl (f : Dev → Dev) (s : State) : (modDev f s).ctrl = s.ctrl := rfl
@[simp] theorem modDev_mail (f : Dev → Dev) (s : State) : (modDev f s).mail = s.mail := rfl
@[simp] theorem modDev_mbx (f : Dev → Dev) (s : State) : (modDev f s).mbx = s.mbx := rfl
@[simp] theorem modDev_peat (f : Dev → Dev) (s : State) : (modDev f s).peat = s.peat := rfl
@[simp] theorem modDev_stok (f : Dev → Dev) (s : State) : (modDev f s).stok = s.stok := rfl
@[simp] theorem modDev_ledger (f : Dev → Dev) (s : State) : (modDev f s).ledger = s.ledger := rfl
@[simp] theorem modDev_test (f : Dev → Dev) (s : State) : (modDev f s).test = s.test := rfl
@[simp] theorem modDev_testQ (f : Dev → Dev) (s : State) : (modDev f s).testQ = s.testQ := rfl
@[simp] theorem modDev_cal (f : Dev → Dev) (s : State) : (modDev f s).cal = s.cal := rfl
@[simp] theorem modDev_flts (f : Dev → Dev) (s : State) : (modDev f s).flts = s.flts := rfl
@[simp] theorem modDev_fltLast (f : Dev → Dev) (s : State) : (modDev f s).fltLast = s.fltLast := rfl
@[simp] theorem modDev_fltWait (f : Dev → Dev) (s : State) : (modDev f s).fltWait = s.fltWait := rfl
@[simp] theorem modDev_fltIn (f : Dev → Dev) (s : State) : (modDev f s).fltIn = s.fltIn := rfl
@[simp] theorem modDev_cans (f : Dev → Dev) (s : State) : (modDev f s).cans = s.cans := rfl
@[simp] theorem modDev_time (f : Dev → Dev) (s : State) : (modDev f s).time = s.time := rfl
@[simp] theorem modDev_feedA (f : Dev → Dev) (s : State) : (modDev f s).feedA = s.feedA := rfl
@[simp] theorem modDev_feedB (f : Dev → Dev) (s : State) : (modDev f s).feedB = s.feedB := rfl
@[simp] theorem modDev_board (f : Dev → Dev) (s : State) : (modDev f s).board = s.board := rfl
@[simp] theorem modDev_svc (f : Dev → Dev) (s : State) : (modDev f s).svc = s.svc := rfl
@[simp] theorem modDev_insts (f : Dev → Dev) (s : State) : (modDev f s).insts = s.insts := rfl
@[simp] theorem modDev_trunks (f : Dev → Dev) (s : State) : (modDev f s).trunks = s.trunks := rfl
@[simp] theorem modDev_net (f : Dev → Dev) (s : State) : (modDev f s).net = s.net := rfl
@[simp] theorem modDev_fw (f : Dev → Dev) (s : State) : (modDev f s).fw = s.fw := rfl
@[simp] theorem modDev_sec (f : Dev → Dev) (s : State) : (modDev f s).sec = s.sec := rfl
@[simp] theorem modDev_cfg (f : Dev → Dev) (s : State) : (modDev f s).cfg = s.cfg := rfl
@[simp] theorem modDev_cfgCopy (f : Dev → Dev) (s : State) : (modDev f s).cfgCopy = s.cfgCopy := rfl
@[simp] theorem modDev_cfgBad (f : Dev → Dev) (s : State) : (modDev f s).cfgBad = s.cfgBad := rfl
@[simp] theorem modDev_cfgHeld (f : Dev → Dev) (s : State) : (modDev f s).cfgHeld = s.cfgHeld := rfl
@[simp] theorem modDev_regHeld (f : Dev → Dev) (s : State) : (modDev f s).regHeld = s.regHeld := rfl
@[simp] theorem modDev_sqc (f : Dev → Dev) (s : State) : (modDev f s).sqc = s.sqc := rfl
@[simp] theorem modTime_pending (f : Time → Time) (s : State) : (modTime f s).pending = s.pending := rfl
@[simp] theorem modTime_free (f : Time → Time) (s : State) : (modTime f s).free = s.free := rfl
@[simp] theorem modTime_wire (f : Time → Time) (s : State) : (modTime f s).wire = s.wire := rfl
@[simp] theorem modTime_part (f : Time → Time) (s : State) : (modTime f s).part = s.part := rfl
@[simp] theorem modTime_otp (f : Time → Time) (s : State) : (modTime f s).otp = s.otp := rfl
@[simp] theorem modTime_dev (f : Time → Time) (s : State) : (modTime f s).dev = s.dev := rfl
@[simp] theorem modTime_power (f : Time → Time) (s : State) : (modTime f s).power = s.power := rfl
@[simp] theorem modTime_warm (f : Time → Time) (s : State) : (modTime f s).warm = s.warm := rfl
@[simp] theorem modTime_lich (f : Time → Time) (s : State) : (modTime f s).lich = s.lich := rfl
@[simp] theorem modTime_hostA (f : Time → Time) (s : State) : (modTime f s).hostA = s.hostA := rfl
@[simp] theorem modTime_hostB (f : Time → Time) (s : State) : (modTime f s).hostB = s.hostB := rfl
@[simp] theorem modTime_arrivals (f : Time → Time) (s : State) : (modTime f s).arrivals = s.arrivals := rfl
@[simp] theorem modTime_ops (f : Time → Time) (s : State) : (modTime f s).ops = s.ops := rfl
@[simp] theorem modTime_lastA (f : Time → Time) (s : State) : (modTime f s).lastA = s.lastA := rfl
@[simp] theorem modTime_sems (f : Time → Time) (s : State) : (modTime f s).sems = s.sems := rfl
@[simp] theorem modTime_ports (f : Time → Time) (s : State) : (modTime f s).ports = s.ports := rfl
@[simp] theorem modTime_ctxs (f : Time → Time) (s : State) : (modTime f s).ctxs = s.ctxs := rfl
@[simp] theorem modTime_xfers (f : Time → Time) (s : State) : (modTime f s).xfers = s.xfers := rfl
@[simp] theorem modTime_queues (f : Time → Time) (s : State) : (modTime f s).queues = s.queues := rfl
@[simp] theorem modTime_pool (f : Time → Time) (s : State) : (modTime f s).pool = s.pool := rfl
@[simp] theorem modTime_ctrl (f : Time → Time) (s : State) : (modTime f s).ctrl = s.ctrl := rfl
@[simp] theorem modTime_mail (f : Time → Time) (s : State) : (modTime f s).mail = s.mail := rfl
@[simp] theorem modTime_mbx (f : Time → Time) (s : State) : (modTime f s).mbx = s.mbx := rfl
@[simp] theorem modTime_peat (f : Time → Time) (s : State) : (modTime f s).peat = s.peat := rfl
@[simp] theorem modTime_stok (f : Time → Time) (s : State) : (modTime f s).stok = s.stok := rfl
@[simp] theorem modTime_ledger (f : Time → Time) (s : State) : (modTime f s).ledger = s.ledger := rfl
@[simp] theorem modTime_test (f : Time → Time) (s : State) : (modTime f s).test = s.test := rfl
@[simp] theorem modTime_testQ (f : Time → Time) (s : State) : (modTime f s).testQ = s.testQ := rfl
@[simp] theorem modTime_cal (f : Time → Time) (s : State) : (modTime f s).cal = s.cal := rfl
@[simp] theorem modTime_flts (f : Time → Time) (s : State) : (modTime f s).flts = s.flts := rfl
@[simp] theorem modTime_fltLast (f : Time → Time) (s : State) : (modTime f s).fltLast = s.fltLast := rfl
@[simp] theorem modTime_fltWait (f : Time → Time) (s : State) : (modTime f s).fltWait = s.fltWait := rfl
@[simp] theorem modTime_fltIn (f : Time → Time) (s : State) : (modTime f s).fltIn = s.fltIn := rfl
@[simp] theorem modTime_cans (f : Time → Time) (s : State) : (modTime f s).cans = s.cans := rfl
@[simp] theorem modTime_feedA (f : Time → Time) (s : State) : (modTime f s).feedA = s.feedA := rfl
@[simp] theorem modTime_feedB (f : Time → Time) (s : State) : (modTime f s).feedB = s.feedB := rfl
@[simp] theorem modTime_board (f : Time → Time) (s : State) : (modTime f s).board = s.board := rfl
@[simp] theorem modTime_svc (f : Time → Time) (s : State) : (modTime f s).svc = s.svc := rfl
@[simp] theorem modTime_insts (f : Time → Time) (s : State) : (modTime f s).insts = s.insts := rfl
@[simp] theorem modTime_trunks (f : Time → Time) (s : State) : (modTime f s).trunks = s.trunks := rfl
@[simp] theorem modTime_net (f : Time → Time) (s : State) : (modTime f s).net = s.net := rfl
@[simp] theorem modTime_fw (f : Time → Time) (s : State) : (modTime f s).fw = s.fw := rfl
@[simp] theorem modTime_sec (f : Time → Time) (s : State) : (modTime f s).sec = s.sec := rfl
@[simp] theorem modTime_cfg (f : Time → Time) (s : State) : (modTime f s).cfg = s.cfg := rfl
@[simp] theorem modTime_cfgCopy (f : Time → Time) (s : State) : (modTime f s).cfgCopy = s.cfgCopy := rfl
@[simp] theorem modTime_cfgBad (f : Time → Time) (s : State) : (modTime f s).cfgBad = s.cfgBad := rfl
@[simp] theorem modTime_cfgHeld (f : Time → Time) (s : State) : (modTime f s).cfgHeld = s.cfgHeld := rfl
@[simp] theorem modTime_regHeld (f : Time → Time) (s : State) : (modTime f s).regHeld = s.regHeld := rfl
@[simp] theorem modTime_sqc (f : Time → Time) (s : State) : (modTime f s).sqc = s.sqc := rfl
@[simp] theorem modNet_pending (f : Net → Net) (s : State) : (modNet f s).pending = s.pending := rfl
@[simp] theorem modNet_free (f : Net → Net) (s : State) : (modNet f s).free = s.free := rfl
@[simp] theorem modNet_wire (f : Net → Net) (s : State) : (modNet f s).wire = s.wire := rfl
@[simp] theorem modNet_part (f : Net → Net) (s : State) : (modNet f s).part = s.part := rfl
@[simp] theorem modNet_otp (f : Net → Net) (s : State) : (modNet f s).otp = s.otp := rfl
@[simp] theorem modNet_dev (f : Net → Net) (s : State) : (modNet f s).dev = s.dev := rfl
@[simp] theorem modNet_power (f : Net → Net) (s : State) : (modNet f s).power = s.power := rfl
@[simp] theorem modNet_warm (f : Net → Net) (s : State) : (modNet f s).warm = s.warm := rfl
@[simp] theorem modNet_lich (f : Net → Net) (s : State) : (modNet f s).lich = s.lich := rfl
@[simp] theorem modNet_hostA (f : Net → Net) (s : State) : (modNet f s).hostA = s.hostA := rfl
@[simp] theorem modNet_hostB (f : Net → Net) (s : State) : (modNet f s).hostB = s.hostB := rfl
@[simp] theorem modNet_arrivals (f : Net → Net) (s : State) : (modNet f s).arrivals = s.arrivals := rfl
@[simp] theorem modNet_ops (f : Net → Net) (s : State) : (modNet f s).ops = s.ops := rfl
@[simp] theorem modNet_lastA (f : Net → Net) (s : State) : (modNet f s).lastA = s.lastA := rfl
@[simp] theorem modNet_sems (f : Net → Net) (s : State) : (modNet f s).sems = s.sems := rfl
@[simp] theorem modNet_ports (f : Net → Net) (s : State) : (modNet f s).ports = s.ports := rfl
@[simp] theorem modNet_ctxs (f : Net → Net) (s : State) : (modNet f s).ctxs = s.ctxs := rfl
@[simp] theorem modNet_xfers (f : Net → Net) (s : State) : (modNet f s).xfers = s.xfers := rfl
@[simp] theorem modNet_queues (f : Net → Net) (s : State) : (modNet f s).queues = s.queues := rfl
@[simp] theorem modNet_pool (f : Net → Net) (s : State) : (modNet f s).pool = s.pool := rfl
@[simp] theorem modNet_ctrl (f : Net → Net) (s : State) : (modNet f s).ctrl = s.ctrl := rfl
@[simp] theorem modNet_mail (f : Net → Net) (s : State) : (modNet f s).mail = s.mail := rfl
@[simp] theorem modNet_mbx (f : Net → Net) (s : State) : (modNet f s).mbx = s.mbx := rfl
@[simp] theorem modNet_peat (f : Net → Net) (s : State) : (modNet f s).peat = s.peat := rfl
@[simp] theorem modNet_stok (f : Net → Net) (s : State) : (modNet f s).stok = s.stok := rfl
@[simp] theorem modNet_ledger (f : Net → Net) (s : State) : (modNet f s).ledger = s.ledger := rfl
@[simp] theorem modNet_test (f : Net → Net) (s : State) : (modNet f s).test = s.test := rfl
@[simp] theorem modNet_testQ (f : Net → Net) (s : State) : (modNet f s).testQ = s.testQ := rfl
@[simp] theorem modNet_cal (f : Net → Net) (s : State) : (modNet f s).cal = s.cal := rfl
@[simp] theorem modNet_flts (f : Net → Net) (s : State) : (modNet f s).flts = s.flts := rfl
@[simp] theorem modNet_fltLast (f : Net → Net) (s : State) : (modNet f s).fltLast = s.fltLast := rfl
@[simp] theorem modNet_fltWait (f : Net → Net) (s : State) : (modNet f s).fltWait = s.fltWait := rfl
@[simp] theorem modNet_fltIn (f : Net → Net) (s : State) : (modNet f s).fltIn = s.fltIn := rfl
@[simp] theorem modNet_cans (f : Net → Net) (s : State) : (modNet f s).cans = s.cans := rfl
@[simp] theorem modNet_time (f : Net → Net) (s : State) : (modNet f s).time = s.time := rfl
@[simp] theorem modNet_feedA (f : Net → Net) (s : State) : (modNet f s).feedA = s.feedA := rfl
@[simp] theorem modNet_feedB (f : Net → Net) (s : State) : (modNet f s).feedB = s.feedB := rfl
@[simp] theorem modNet_board (f : Net → Net) (s : State) : (modNet f s).board = s.board := rfl
@[simp] theorem modNet_svc (f : Net → Net) (s : State) : (modNet f s).svc = s.svc := rfl
@[simp] theorem modNet_insts (f : Net → Net) (s : State) : (modNet f s).insts = s.insts := rfl
@[simp] theorem modNet_trunks (f : Net → Net) (s : State) : (modNet f s).trunks = s.trunks := rfl
@[simp] theorem modNet_fw (f : Net → Net) (s : State) : (modNet f s).fw = s.fw := rfl
@[simp] theorem modNet_sec (f : Net → Net) (s : State) : (modNet f s).sec = s.sec := rfl
@[simp] theorem modNet_cfg (f : Net → Net) (s : State) : (modNet f s).cfg = s.cfg := rfl
@[simp] theorem modNet_cfgCopy (f : Net → Net) (s : State) : (modNet f s).cfgCopy = s.cfgCopy := rfl
@[simp] theorem modNet_cfgBad (f : Net → Net) (s : State) : (modNet f s).cfgBad = s.cfgBad := rfl
@[simp] theorem modNet_cfgHeld (f : Net → Net) (s : State) : (modNet f s).cfgHeld = s.cfgHeld := rfl
@[simp] theorem modNet_regHeld (f : Net → Net) (s : State) : (modNet f s).regHeld = s.regHeld := rfl
@[simp] theorem modNet_sqc (f : Net → Net) (s : State) : (modNet f s).sqc = s.sqc := rfl
@[simp] theorem modFw_pending (f : Fw → Fw) (s : State) : (modFw f s).pending = s.pending := rfl
@[simp] theorem modFw_free (f : Fw → Fw) (s : State) : (modFw f s).free = s.free := rfl
@[simp] theorem modFw_wire (f : Fw → Fw) (s : State) : (modFw f s).wire = s.wire := rfl
@[simp] theorem modFw_part (f : Fw → Fw) (s : State) : (modFw f s).part = s.part := rfl
@[simp] theorem modFw_otp (f : Fw → Fw) (s : State) : (modFw f s).otp = s.otp := rfl
@[simp] theorem modFw_dev (f : Fw → Fw) (s : State) : (modFw f s).dev = s.dev := rfl
@[simp] theorem modFw_power (f : Fw → Fw) (s : State) : (modFw f s).power = s.power := rfl
@[simp] theorem modFw_warm (f : Fw → Fw) (s : State) : (modFw f s).warm = s.warm := rfl
@[simp] theorem modFw_lich (f : Fw → Fw) (s : State) : (modFw f s).lich = s.lich := rfl
@[simp] theorem modFw_hostA (f : Fw → Fw) (s : State) : (modFw f s).hostA = s.hostA := rfl
@[simp] theorem modFw_hostB (f : Fw → Fw) (s : State) : (modFw f s).hostB = s.hostB := rfl
@[simp] theorem modFw_arrivals (f : Fw → Fw) (s : State) : (modFw f s).arrivals = s.arrivals := rfl
@[simp] theorem modFw_ops (f : Fw → Fw) (s : State) : (modFw f s).ops = s.ops := rfl
@[simp] theorem modFw_lastA (f : Fw → Fw) (s : State) : (modFw f s).lastA = s.lastA := rfl
@[simp] theorem modFw_sems (f : Fw → Fw) (s : State) : (modFw f s).sems = s.sems := rfl
@[simp] theorem modFw_ports (f : Fw → Fw) (s : State) : (modFw f s).ports = s.ports := rfl
@[simp] theorem modFw_ctxs (f : Fw → Fw) (s : State) : (modFw f s).ctxs = s.ctxs := rfl
@[simp] theorem modFw_xfers (f : Fw → Fw) (s : State) : (modFw f s).xfers = s.xfers := rfl
@[simp] theorem modFw_queues (f : Fw → Fw) (s : State) : (modFw f s).queues = s.queues := rfl
@[simp] theorem modFw_pool (f : Fw → Fw) (s : State) : (modFw f s).pool = s.pool := rfl
@[simp] theorem modFw_ctrl (f : Fw → Fw) (s : State) : (modFw f s).ctrl = s.ctrl := rfl
@[simp] theorem modFw_mail (f : Fw → Fw) (s : State) : (modFw f s).mail = s.mail := rfl
@[simp] theorem modFw_mbx (f : Fw → Fw) (s : State) : (modFw f s).mbx = s.mbx := rfl
@[simp] theorem modFw_peat (f : Fw → Fw) (s : State) : (modFw f s).peat = s.peat := rfl
@[simp] theorem modFw_stok (f : Fw → Fw) (s : State) : (modFw f s).stok = s.stok := rfl
@[simp] theorem modFw_ledger (f : Fw → Fw) (s : State) : (modFw f s).ledger = s.ledger := rfl
@[simp] theorem modFw_test (f : Fw → Fw) (s : State) : (modFw f s).test = s.test := rfl
@[simp] theorem modFw_testQ (f : Fw → Fw) (s : State) : (modFw f s).testQ = s.testQ := rfl
@[simp] theorem modFw_cal (f : Fw → Fw) (s : State) : (modFw f s).cal = s.cal := rfl
@[simp] theorem modFw_flts (f : Fw → Fw) (s : State) : (modFw f s).flts = s.flts := rfl
@[simp] theorem modFw_fltLast (f : Fw → Fw) (s : State) : (modFw f s).fltLast = s.fltLast := rfl
@[simp] theorem modFw_fltWait (f : Fw → Fw) (s : State) : (modFw f s).fltWait = s.fltWait := rfl
@[simp] theorem modFw_fltIn (f : Fw → Fw) (s : State) : (modFw f s).fltIn = s.fltIn := rfl
@[simp] theorem modFw_cans (f : Fw → Fw) (s : State) : (modFw f s).cans = s.cans := rfl
@[simp] theorem modFw_time (f : Fw → Fw) (s : State) : (modFw f s).time = s.time := rfl
@[simp] theorem modFw_feedA (f : Fw → Fw) (s : State) : (modFw f s).feedA = s.feedA := rfl
@[simp] theorem modFw_feedB (f : Fw → Fw) (s : State) : (modFw f s).feedB = s.feedB := rfl
@[simp] theorem modFw_board (f : Fw → Fw) (s : State) : (modFw f s).board = s.board := rfl
@[simp] theorem modFw_svc (f : Fw → Fw) (s : State) : (modFw f s).svc = s.svc := rfl
@[simp] theorem modFw_insts (f : Fw → Fw) (s : State) : (modFw f s).insts = s.insts := rfl
@[simp] theorem modFw_trunks (f : Fw → Fw) (s : State) : (modFw f s).trunks = s.trunks := rfl
@[simp] theorem modFw_net (f : Fw → Fw) (s : State) : (modFw f s).net = s.net := rfl
@[simp] theorem modFw_sec (f : Fw → Fw) (s : State) : (modFw f s).sec = s.sec := rfl
@[simp] theorem modFw_cfg (f : Fw → Fw) (s : State) : (modFw f s).cfg = s.cfg := rfl
@[simp] theorem modFw_cfgCopy (f : Fw → Fw) (s : State) : (modFw f s).cfgCopy = s.cfgCopy := rfl
@[simp] theorem modFw_cfgBad (f : Fw → Fw) (s : State) : (modFw f s).cfgBad = s.cfgBad := rfl
@[simp] theorem modFw_cfgHeld (f : Fw → Fw) (s : State) : (modFw f s).cfgHeld = s.cfgHeld := rfl
@[simp] theorem modFw_regHeld (f : Fw → Fw) (s : State) : (modFw f s).regHeld = s.regHeld := rfl
@[simp] theorem modFw_sqc (f : Fw → Fw) (s : State) : (modFw f s).sqc = s.sqc := rfl
@[simp] theorem modPower_pending (f : Power → Power) (s : State) : (modPower f s).pending = s.pending := rfl
@[simp] theorem modPower_free (f : Power → Power) (s : State) : (modPower f s).free = s.free := rfl
@[simp] theorem modPower_wire (f : Power → Power) (s : State) : (modPower f s).wire = s.wire := rfl
@[simp] theorem modPower_part (f : Power → Power) (s : State) : (modPower f s).part = s.part := rfl
@[simp] theorem modPower_otp (f : Power → Power) (s : State) : (modPower f s).otp = s.otp := rfl
@[simp] theorem modPower_dev (f : Power → Power) (s : State) : (modPower f s).dev = s.dev := rfl
@[simp] theorem modPower_warm (f : Power → Power) (s : State) : (modPower f s).warm = s.warm := rfl
@[simp] theorem modPower_lich (f : Power → Power) (s : State) : (modPower f s).lich = s.lich := rfl
@[simp] theorem modPower_hostA (f : Power → Power) (s : State) : (modPower f s).hostA = s.hostA := rfl
@[simp] theorem modPower_hostB (f : Power → Power) (s : State) : (modPower f s).hostB = s.hostB := rfl
@[simp] theorem modPower_arrivals (f : Power → Power) (s : State) : (modPower f s).arrivals = s.arrivals := rfl
@[simp] theorem modPower_ops (f : Power → Power) (s : State) : (modPower f s).ops = s.ops := rfl
@[simp] theorem modPower_lastA (f : Power → Power) (s : State) : (modPower f s).lastA = s.lastA := rfl
@[simp] theorem modPower_sems (f : Power → Power) (s : State) : (modPower f s).sems = s.sems := rfl
@[simp] theorem modPower_ports (f : Power → Power) (s : State) : (modPower f s).ports = s.ports := rfl
@[simp] theorem modPower_ctxs (f : Power → Power) (s : State) : (modPower f s).ctxs = s.ctxs := rfl
@[simp] theorem modPower_xfers (f : Power → Power) (s : State) : (modPower f s).xfers = s.xfers := rfl
@[simp] theorem modPower_queues (f : Power → Power) (s : State) : (modPower f s).queues = s.queues := rfl
@[simp] theorem modPower_pool (f : Power → Power) (s : State) : (modPower f s).pool = s.pool := rfl
@[simp] theorem modPower_ctrl (f : Power → Power) (s : State) : (modPower f s).ctrl = s.ctrl := rfl
@[simp] theorem modPower_mail (f : Power → Power) (s : State) : (modPower f s).mail = s.mail := rfl
@[simp] theorem modPower_mbx (f : Power → Power) (s : State) : (modPower f s).mbx = s.mbx := rfl
@[simp] theorem modPower_peat (f : Power → Power) (s : State) : (modPower f s).peat = s.peat := rfl
@[simp] theorem modPower_stok (f : Power → Power) (s : State) : (modPower f s).stok = s.stok := rfl
@[simp] theorem modPower_ledger (f : Power → Power) (s : State) : (modPower f s).ledger = s.ledger := rfl
@[simp] theorem modPower_test (f : Power → Power) (s : State) : (modPower f s).test = s.test := rfl
@[simp] theorem modPower_testQ (f : Power → Power) (s : State) : (modPower f s).testQ = s.testQ := rfl
@[simp] theorem modPower_cal (f : Power → Power) (s : State) : (modPower f s).cal = s.cal := rfl
@[simp] theorem modPower_flts (f : Power → Power) (s : State) : (modPower f s).flts = s.flts := rfl
@[simp] theorem modPower_fltLast (f : Power → Power) (s : State) : (modPower f s).fltLast = s.fltLast := rfl
@[simp] theorem modPower_fltWait (f : Power → Power) (s : State) : (modPower f s).fltWait = s.fltWait := rfl
@[simp] theorem modPower_fltIn (f : Power → Power) (s : State) : (modPower f s).fltIn = s.fltIn := rfl
@[simp] theorem modPower_cans (f : Power → Power) (s : State) : (modPower f s).cans = s.cans := rfl
@[simp] theorem modPower_time (f : Power → Power) (s : State) : (modPower f s).time = s.time := rfl
@[simp] theorem modPower_feedA (f : Power → Power) (s : State) : (modPower f s).feedA = s.feedA := rfl
@[simp] theorem modPower_feedB (f : Power → Power) (s : State) : (modPower f s).feedB = s.feedB := rfl
@[simp] theorem modPower_board (f : Power → Power) (s : State) : (modPower f s).board = s.board := rfl
@[simp] theorem modPower_svc (f : Power → Power) (s : State) : (modPower f s).svc = s.svc := rfl
@[simp] theorem modPower_insts (f : Power → Power) (s : State) : (modPower f s).insts = s.insts := rfl
@[simp] theorem modPower_trunks (f : Power → Power) (s : State) : (modPower f s).trunks = s.trunks := rfl
@[simp] theorem modPower_net (f : Power → Power) (s : State) : (modPower f s).net = s.net := rfl
@[simp] theorem modPower_fw (f : Power → Power) (s : State) : (modPower f s).fw = s.fw := rfl
@[simp] theorem modPower_sec (f : Power → Power) (s : State) : (modPower f s).sec = s.sec := rfl
@[simp] theorem modPower_cfg (f : Power → Power) (s : State) : (modPower f s).cfg = s.cfg := rfl
@[simp] theorem modPower_cfgCopy (f : Power → Power) (s : State) : (modPower f s).cfgCopy = s.cfgCopy := rfl
@[simp] theorem modPower_cfgBad (f : Power → Power) (s : State) : (modPower f s).cfgBad = s.cfgBad := rfl
@[simp] theorem modPower_cfgHeld (f : Power → Power) (s : State) : (modPower f s).cfgHeld = s.cfgHeld := rfl
@[simp] theorem modPower_regHeld (f : Power → Power) (s : State) : (modPower f s).regHeld = s.regHeld := rfl
@[simp] theorem modPower_sqc (f : Power → Power) (s : State) : (modPower f s).sqc = s.sqc := rfl
@[simp] theorem modBoard_pending (f : Board → Board) (s : State) : (modBoard f s).pending = s.pending := rfl
@[simp] theorem modBoard_free (f : Board → Board) (s : State) : (modBoard f s).free = s.free := rfl
@[simp] theorem modBoard_wire (f : Board → Board) (s : State) : (modBoard f s).wire = s.wire := rfl
@[simp] theorem modBoard_part (f : Board → Board) (s : State) : (modBoard f s).part = s.part := rfl
@[simp] theorem modBoard_otp (f : Board → Board) (s : State) : (modBoard f s).otp = s.otp := rfl
@[simp] theorem modBoard_dev (f : Board → Board) (s : State) : (modBoard f s).dev = s.dev := rfl
@[simp] theorem modBoard_power (f : Board → Board) (s : State) : (modBoard f s).power = s.power := rfl
@[simp] theorem modBoard_warm (f : Board → Board) (s : State) : (modBoard f s).warm = s.warm := rfl
@[simp] theorem modBoard_lich (f : Board → Board) (s : State) : (modBoard f s).lich = s.lich := rfl
@[simp] theorem modBoard_hostA (f : Board → Board) (s : State) : (modBoard f s).hostA = s.hostA := rfl
@[simp] theorem modBoard_hostB (f : Board → Board) (s : State) : (modBoard f s).hostB = s.hostB := rfl
@[simp] theorem modBoard_arrivals (f : Board → Board) (s : State) : (modBoard f s).arrivals = s.arrivals := rfl
@[simp] theorem modBoard_ops (f : Board → Board) (s : State) : (modBoard f s).ops = s.ops := rfl
@[simp] theorem modBoard_lastA (f : Board → Board) (s : State) : (modBoard f s).lastA = s.lastA := rfl
@[simp] theorem modBoard_sems (f : Board → Board) (s : State) : (modBoard f s).sems = s.sems := rfl
@[simp] theorem modBoard_ports (f : Board → Board) (s : State) : (modBoard f s).ports = s.ports := rfl
@[simp] theorem modBoard_ctxs (f : Board → Board) (s : State) : (modBoard f s).ctxs = s.ctxs := rfl
@[simp] theorem modBoard_xfers (f : Board → Board) (s : State) : (modBoard f s).xfers = s.xfers := rfl
@[simp] theorem modBoard_queues (f : Board → Board) (s : State) : (modBoard f s).queues = s.queues := rfl
@[simp] theorem modBoard_pool (f : Board → Board) (s : State) : (modBoard f s).pool = s.pool := rfl
@[simp] theorem modBoard_ctrl (f : Board → Board) (s : State) : (modBoard f s).ctrl = s.ctrl := rfl
@[simp] theorem modBoard_mail (f : Board → Board) (s : State) : (modBoard f s).mail = s.mail := rfl
@[simp] theorem modBoard_mbx (f : Board → Board) (s : State) : (modBoard f s).mbx = s.mbx := rfl
@[simp] theorem modBoard_peat (f : Board → Board) (s : State) : (modBoard f s).peat = s.peat := rfl
@[simp] theorem modBoard_stok (f : Board → Board) (s : State) : (modBoard f s).stok = s.stok := rfl
@[simp] theorem modBoard_ledger (f : Board → Board) (s : State) : (modBoard f s).ledger = s.ledger := rfl
@[simp] theorem modBoard_test (f : Board → Board) (s : State) : (modBoard f s).test = s.test := rfl
@[simp] theorem modBoard_testQ (f : Board → Board) (s : State) : (modBoard f s).testQ = s.testQ := rfl
@[simp] theorem modBoard_cal (f : Board → Board) (s : State) : (modBoard f s).cal = s.cal := rfl
@[simp] theorem modBoard_flts (f : Board → Board) (s : State) : (modBoard f s).flts = s.flts := rfl
@[simp] theorem modBoard_fltLast (f : Board → Board) (s : State) : (modBoard f s).fltLast = s.fltLast := rfl
@[simp] theorem modBoard_fltWait (f : Board → Board) (s : State) : (modBoard f s).fltWait = s.fltWait := rfl
@[simp] theorem modBoard_fltIn (f : Board → Board) (s : State) : (modBoard f s).fltIn = s.fltIn := rfl
@[simp] theorem modBoard_cans (f : Board → Board) (s : State) : (modBoard f s).cans = s.cans := rfl
@[simp] theorem modBoard_time (f : Board → Board) (s : State) : (modBoard f s).time = s.time := rfl
@[simp] theorem modBoard_feedA (f : Board → Board) (s : State) : (modBoard f s).feedA = s.feedA := rfl
@[simp] theorem modBoard_feedB (f : Board → Board) (s : State) : (modBoard f s).feedB = s.feedB := rfl
@[simp] theorem modBoard_svc (f : Board → Board) (s : State) : (modBoard f s).svc = s.svc := rfl
@[simp] theorem modBoard_insts (f : Board → Board) (s : State) : (modBoard f s).insts = s.insts := rfl
@[simp] theorem modBoard_trunks (f : Board → Board) (s : State) : (modBoard f s).trunks = s.trunks := rfl
@[simp] theorem modBoard_net (f : Board → Board) (s : State) : (modBoard f s).net = s.net := rfl
@[simp] theorem modBoard_fw (f : Board → Board) (s : State) : (modBoard f s).fw = s.fw := rfl
@[simp] theorem modBoard_sec (f : Board → Board) (s : State) : (modBoard f s).sec = s.sec := rfl
@[simp] theorem modBoard_cfg (f : Board → Board) (s : State) : (modBoard f s).cfg = s.cfg := rfl
@[simp] theorem modBoard_cfgCopy (f : Board → Board) (s : State) : (modBoard f s).cfgCopy = s.cfgCopy := rfl
@[simp] theorem modBoard_cfgBad (f : Board → Board) (s : State) : (modBoard f s).cfgBad = s.cfgBad := rfl
@[simp] theorem modBoard_cfgHeld (f : Board → Board) (s : State) : (modBoard f s).cfgHeld = s.cfgHeld := rfl
@[simp] theorem modBoard_regHeld (f : Board → Board) (s : State) : (modBoard f s).regHeld = s.regHeld := rfl
@[simp] theorem modBoard_sqc (f : Board → Board) (s : State) : (modBoard f s).sqc = s.sqc := rfl
@[simp] theorem modSvc_pending (f : Svc → Svc) (s : State) : (modSvc f s).pending = s.pending := rfl
@[simp] theorem modSvc_free (f : Svc → Svc) (s : State) : (modSvc f s).free = s.free := rfl
@[simp] theorem modSvc_wire (f : Svc → Svc) (s : State) : (modSvc f s).wire = s.wire := rfl
@[simp] theorem modSvc_part (f : Svc → Svc) (s : State) : (modSvc f s).part = s.part := rfl
@[simp] theorem modSvc_otp (f : Svc → Svc) (s : State) : (modSvc f s).otp = s.otp := rfl
@[simp] theorem modSvc_dev (f : Svc → Svc) (s : State) : (modSvc f s).dev = s.dev := rfl
@[simp] theorem modSvc_power (f : Svc → Svc) (s : State) : (modSvc f s).power = s.power := rfl
@[simp] theorem modSvc_warm (f : Svc → Svc) (s : State) : (modSvc f s).warm = s.warm := rfl
@[simp] theorem modSvc_lich (f : Svc → Svc) (s : State) : (modSvc f s).lich = s.lich := rfl
@[simp] theorem modSvc_hostA (f : Svc → Svc) (s : State) : (modSvc f s).hostA = s.hostA := rfl
@[simp] theorem modSvc_hostB (f : Svc → Svc) (s : State) : (modSvc f s).hostB = s.hostB := rfl
@[simp] theorem modSvc_arrivals (f : Svc → Svc) (s : State) : (modSvc f s).arrivals = s.arrivals := rfl
@[simp] theorem modSvc_ops (f : Svc → Svc) (s : State) : (modSvc f s).ops = s.ops := rfl
@[simp] theorem modSvc_lastA (f : Svc → Svc) (s : State) : (modSvc f s).lastA = s.lastA := rfl
@[simp] theorem modSvc_sems (f : Svc → Svc) (s : State) : (modSvc f s).sems = s.sems := rfl
@[simp] theorem modSvc_ports (f : Svc → Svc) (s : State) : (modSvc f s).ports = s.ports := rfl
@[simp] theorem modSvc_ctxs (f : Svc → Svc) (s : State) : (modSvc f s).ctxs = s.ctxs := rfl
@[simp] theorem modSvc_xfers (f : Svc → Svc) (s : State) : (modSvc f s).xfers = s.xfers := rfl
@[simp] theorem modSvc_queues (f : Svc → Svc) (s : State) : (modSvc f s).queues = s.queues := rfl
@[simp] theorem modSvc_pool (f : Svc → Svc) (s : State) : (modSvc f s).pool = s.pool := rfl
@[simp] theorem modSvc_ctrl (f : Svc → Svc) (s : State) : (modSvc f s).ctrl = s.ctrl := rfl
@[simp] theorem modSvc_mail (f : Svc → Svc) (s : State) : (modSvc f s).mail = s.mail := rfl
@[simp] theorem modSvc_mbx (f : Svc → Svc) (s : State) : (modSvc f s).mbx = s.mbx := rfl
@[simp] theorem modSvc_peat (f : Svc → Svc) (s : State) : (modSvc f s).peat = s.peat := rfl
@[simp] theorem modSvc_stok (f : Svc → Svc) (s : State) : (modSvc f s).stok = s.stok := rfl
@[simp] theorem modSvc_ledger (f : Svc → Svc) (s : State) : (modSvc f s).ledger = s.ledger := rfl
@[simp] theorem modSvc_test (f : Svc → Svc) (s : State) : (modSvc f s).test = s.test := rfl
@[simp] theorem modSvc_testQ (f : Svc → Svc) (s : State) : (modSvc f s).testQ = s.testQ := rfl
@[simp] theorem modSvc_cal (f : Svc → Svc) (s : State) : (modSvc f s).cal = s.cal := rfl
@[simp] theorem modSvc_flts (f : Svc → Svc) (s : State) : (modSvc f s).flts = s.flts := rfl
@[simp] theorem modSvc_fltLast (f : Svc → Svc) (s : State) : (modSvc f s).fltLast = s.fltLast := rfl
@[simp] theorem modSvc_fltWait (f : Svc → Svc) (s : State) : (modSvc f s).fltWait = s.fltWait := rfl
@[simp] theorem modSvc_fltIn (f : Svc → Svc) (s : State) : (modSvc f s).fltIn = s.fltIn := rfl
@[simp] theorem modSvc_cans (f : Svc → Svc) (s : State) : (modSvc f s).cans = s.cans := rfl
@[simp] theorem modSvc_time (f : Svc → Svc) (s : State) : (modSvc f s).time = s.time := rfl
@[simp] theorem modSvc_feedA (f : Svc → Svc) (s : State) : (modSvc f s).feedA = s.feedA := rfl
@[simp] theorem modSvc_feedB (f : Svc → Svc) (s : State) : (modSvc f s).feedB = s.feedB := rfl
@[simp] theorem modSvc_board (f : Svc → Svc) (s : State) : (modSvc f s).board = s.board := rfl
@[simp] theorem modSvc_insts (f : Svc → Svc) (s : State) : (modSvc f s).insts = s.insts := rfl
@[simp] theorem modSvc_trunks (f : Svc → Svc) (s : State) : (modSvc f s).trunks = s.trunks := rfl
@[simp] theorem modSvc_net (f : Svc → Svc) (s : State) : (modSvc f s).net = s.net := rfl
@[simp] theorem modSvc_fw (f : Svc → Svc) (s : State) : (modSvc f s).fw = s.fw := rfl
@[simp] theorem modSvc_sec (f : Svc → Svc) (s : State) : (modSvc f s).sec = s.sec := rfl
@[simp] theorem modSvc_cfg (f : Svc → Svc) (s : State) : (modSvc f s).cfg = s.cfg := rfl
@[simp] theorem modSvc_cfgCopy (f : Svc → Svc) (s : State) : (modSvc f s).cfgCopy = s.cfgCopy := rfl
@[simp] theorem modSvc_cfgBad (f : Svc → Svc) (s : State) : (modSvc f s).cfgBad = s.cfgBad := rfl
@[simp] theorem modSvc_cfgHeld (f : Svc → Svc) (s : State) : (modSvc f s).cfgHeld = s.cfgHeld := rfl
@[simp] theorem modSvc_regHeld (f : Svc → Svc) (s : State) : (modSvc f s).regHeld = s.regHeld := rfl
@[simp] theorem modSvc_sqc (f : Svc → Svc) (s : State) : (modSvc f s).sqc = s.sqc := rfl
@[simp] theorem modPeat_pending (f : Peat → Peat) (s : State) : (modPeat f s).pending = s.pending := rfl
@[simp] theorem modPeat_free (f : Peat → Peat) (s : State) : (modPeat f s).free = s.free := rfl
@[simp] theorem modPeat_wire (f : Peat → Peat) (s : State) : (modPeat f s).wire = s.wire := rfl
@[simp] theorem modPeat_part (f : Peat → Peat) (s : State) : (modPeat f s).part = s.part := rfl
@[simp] theorem modPeat_otp (f : Peat → Peat) (s : State) : (modPeat f s).otp = s.otp := rfl
@[simp] theorem modPeat_dev (f : Peat → Peat) (s : State) : (modPeat f s).dev = s.dev := rfl
@[simp] theorem modPeat_power (f : Peat → Peat) (s : State) : (modPeat f s).power = s.power := rfl
@[simp] theorem modPeat_warm (f : Peat → Peat) (s : State) : (modPeat f s).warm = s.warm := rfl
@[simp] theorem modPeat_lich (f : Peat → Peat) (s : State) : (modPeat f s).lich = s.lich := rfl
@[simp] theorem modPeat_hostA (f : Peat → Peat) (s : State) : (modPeat f s).hostA = s.hostA := rfl
@[simp] theorem modPeat_hostB (f : Peat → Peat) (s : State) : (modPeat f s).hostB = s.hostB := rfl
@[simp] theorem modPeat_arrivals (f : Peat → Peat) (s : State) : (modPeat f s).arrivals = s.arrivals := rfl
@[simp] theorem modPeat_ops (f : Peat → Peat) (s : State) : (modPeat f s).ops = s.ops := rfl
@[simp] theorem modPeat_lastA (f : Peat → Peat) (s : State) : (modPeat f s).lastA = s.lastA := rfl
@[simp] theorem modPeat_sems (f : Peat → Peat) (s : State) : (modPeat f s).sems = s.sems := rfl
@[simp] theorem modPeat_ports (f : Peat → Peat) (s : State) : (modPeat f s).ports = s.ports := rfl
@[simp] theorem modPeat_ctxs (f : Peat → Peat) (s : State) : (modPeat f s).ctxs = s.ctxs := rfl
@[simp] theorem modPeat_xfers (f : Peat → Peat) (s : State) : (modPeat f s).xfers = s.xfers := rfl
@[simp] theorem modPeat_queues (f : Peat → Peat) (s : State) : (modPeat f s).queues = s.queues := rfl
@[simp] theorem modPeat_pool (f : Peat → Peat) (s : State) : (modPeat f s).pool = s.pool := rfl
@[simp] theorem modPeat_ctrl (f : Peat → Peat) (s : State) : (modPeat f s).ctrl = s.ctrl := rfl
@[simp] theorem modPeat_mail (f : Peat → Peat) (s : State) : (modPeat f s).mail = s.mail := rfl
@[simp] theorem modPeat_mbx (f : Peat → Peat) (s : State) : (modPeat f s).mbx = s.mbx := rfl
@[simp] theorem modPeat_stok (f : Peat → Peat) (s : State) : (modPeat f s).stok = s.stok := rfl
@[simp] theorem modPeat_ledger (f : Peat → Peat) (s : State) : (modPeat f s).ledger = s.ledger := rfl
@[simp] theorem modPeat_test (f : Peat → Peat) (s : State) : (modPeat f s).test = s.test := rfl
@[simp] theorem modPeat_testQ (f : Peat → Peat) (s : State) : (modPeat f s).testQ = s.testQ := rfl
@[simp] theorem modPeat_cal (f : Peat → Peat) (s : State) : (modPeat f s).cal = s.cal := rfl
@[simp] theorem modPeat_flts (f : Peat → Peat) (s : State) : (modPeat f s).flts = s.flts := rfl
@[simp] theorem modPeat_fltLast (f : Peat → Peat) (s : State) : (modPeat f s).fltLast = s.fltLast := rfl
@[simp] theorem modPeat_fltWait (f : Peat → Peat) (s : State) : (modPeat f s).fltWait = s.fltWait := rfl
@[simp] theorem modPeat_fltIn (f : Peat → Peat) (s : State) : (modPeat f s).fltIn = s.fltIn := rfl
@[simp] theorem modPeat_cans (f : Peat → Peat) (s : State) : (modPeat f s).cans = s.cans := rfl
@[simp] theorem modPeat_time (f : Peat → Peat) (s : State) : (modPeat f s).time = s.time := rfl
@[simp] theorem modPeat_feedA (f : Peat → Peat) (s : State) : (modPeat f s).feedA = s.feedA := rfl
@[simp] theorem modPeat_feedB (f : Peat → Peat) (s : State) : (modPeat f s).feedB = s.feedB := rfl
@[simp] theorem modPeat_board (f : Peat → Peat) (s : State) : (modPeat f s).board = s.board := rfl
@[simp] theorem modPeat_svc (f : Peat → Peat) (s : State) : (modPeat f s).svc = s.svc := rfl
@[simp] theorem modPeat_insts (f : Peat → Peat) (s : State) : (modPeat f s).insts = s.insts := rfl
@[simp] theorem modPeat_trunks (f : Peat → Peat) (s : State) : (modPeat f s).trunks = s.trunks := rfl
@[simp] theorem modPeat_net (f : Peat → Peat) (s : State) : (modPeat f s).net = s.net := rfl
@[simp] theorem modPeat_fw (f : Peat → Peat) (s : State) : (modPeat f s).fw = s.fw := rfl
@[simp] theorem modPeat_sec (f : Peat → Peat) (s : State) : (modPeat f s).sec = s.sec := rfl
@[simp] theorem modPeat_cfg (f : Peat → Peat) (s : State) : (modPeat f s).cfg = s.cfg := rfl
@[simp] theorem modPeat_cfgCopy (f : Peat → Peat) (s : State) : (modPeat f s).cfgCopy = s.cfgCopy := rfl
@[simp] theorem modPeat_cfgBad (f : Peat → Peat) (s : State) : (modPeat f s).cfgBad = s.cfgBad := rfl
@[simp] theorem modPeat_cfgHeld (f : Peat → Peat) (s : State) : (modPeat f s).cfgHeld = s.cfgHeld := rfl
@[simp] theorem modPeat_regHeld (f : Peat → Peat) (s : State) : (modPeat f s).regHeld = s.regHeld := rfl
@[simp] theorem modPeat_sqc (f : Peat → Peat) (s : State) : (modPeat f s).sqc = s.sqc := rfl
@[simp] theorem modStok_stok (f : Stoker → Stoker) (s : State) : (modStok f s).stok = f s.stok := rfl
@[simp] theorem modLedger_ledger (f : Ledger → Ledger) (s : State) : (modLedger f s).ledger = f s.ledger := rfl
@[simp] theorem modLich_lich (f : Lichen → Lichen) (s : State) : (modLich f s).lich = f s.lich := rfl
@[simp] theorem modDev_dev (f : Dev → Dev) (s : State) : (modDev f s).dev = f s.dev := rfl
@[simp] theorem modTime_time (f : Time → Time) (s : State) : (modTime f s).time = f s.time := rfl
@[simp] theorem modNet_net (f : Net → Net) (s : State) : (modNet f s).net = f s.net := rfl
@[simp] theorem modFw_fw (f : Fw → Fw) (s : State) : (modFw f s).fw = f s.fw := rfl
@[simp] theorem modPower_power (f : Power → Power) (s : State) : (modPower f s).power = f s.power := rfl
@[simp] theorem modBoard_board (f : Board → Board) (s : State) : (modBoard f s).board = f s.board := rfl
@[simp] theorem modSvc_svc (f : Svc → Svc) (s : State) : (modSvc f s).svc = f s.svc := rfl
@[simp] theorem modPeat_peat (f : Peat → Peat) (s : State) : (modPeat f s).peat = f s.peat := rfl
@[simp] theorem emit_wire (o : Out) (s : State) : (emit o s).wire = o :: s.wire := rfl
@[simp] theorem useFree_free (s : State) : (useFree s).free = s.free + 1 := rfl
@[simp] theorem raise_fltIn (src sub : Nat) (s : State) : (raise src sub s).fltIn = s.fltIn ++ [.raise src sub 0 false] := rfl
@[simp] theorem clearFlt_fltIn (src sub : Nat) (s : State) : (clearFlt src sub s).fltIn = s.fltIn ++ [.clear src sub] := rfl

end Sys2Proof.Machine
end

