-- ==== Sys2Proof/Laws/Posted.lean ====
section
/-!
SUPPORT. `Posted k s`: what posting events, pushing items and returning replies can do. From `k` to `s` only the queues, the
held events of the two hosts, the egress of the trunks, the sequences of commands and event pairs, buffered replies of the
service function, sequence-clear bits, what was sent and the count of free values may differ.
-/
set_option linter.all false
namespace Sys2Proof.Machine

/-- A host's record but for the events it holds. -/
def HostRec.still (r : HostRec) : HostRec := { r with heldEvents := [], lostEvents := 0, paused := false }
/-- A trunk but for its egress. -/
def Trunk.still (t : Trunk) : Trunk := { t with egress := [], sending := none, tx := 0 }
/-- The network but for its sequences and event pairs. -/
def Net.still (n : Net) : Net := { n with cmdSeq := 0, replySeq := 0, evPairs := [] }
/-- An instance of the service function but for its buffered replies. -/
def Instance.still (i : Instance) : Instance := { i with replies := [] }

structure Posted (k s : State) : Prop where
  pending : s.pending = k.pending
  part : s.part = k.part
  otp : s.otp = k.otp
  dev : s.dev = k.dev
  power : s.power = k.power
  warm : s.warm = k.warm
  lich : s.lich = k.lich
  arrivals : s.arrivals = k.arrivals
  ops : s.ops = k.ops
  lastA : s.lastA = k.lastA
  sems : s.sems = k.sems
  ports : s.ports = k.ports
  ctxs : s.ctxs = k.ctxs
  xfers : s.xfers = k.xfers
  pool : s.pool = k.pool
  ctrl : s.ctrl = k.ctrl
  mail : s.mail = k.mail
  mbx : s.mbx = k.mbx
  peat : s.peat = k.peat
  stok : s.stok = k.stok
  ledger : s.ledger = k.ledger
  test : s.test = k.test
  testQ : s.testQ = k.testQ
  cal : s.cal = k.cal
  flts : s.flts = k.flts
  fltLast : s.fltLast = k.fltLast
  fltIn : s.fltIn = k.fltIn
  cans : s.cans = k.cans
  time : s.time = k.time
  feedA : s.feedA = k.feedA
  feedB : s.feedB = k.feedB
  board : s.board = k.board
  svc : s.svc = k.svc
  fw : s.fw = k.fw
  sec : s.sec = k.sec
  cfg : s.cfg = k.cfg
  cfgCopy : s.cfgCopy = k.cfgCopy
  cfgBad : s.cfgBad = k.cfgBad
  cfgHeld : s.cfgHeld = k.cfgHeld
  regHeld : s.regHeld = k.regHeld
  hosts : ∀ h, (s.host h).still = (k.host h).still
  trunks : ∀ n, (s.trunk n).still = (k.trunk n).still
  insts : ∀ i, (s.inst i).still = (k.inst i).still
  net : s.net.still = k.net.still

theorem Posted.refl (s : State) : Posted s s := by constructor <;> first | rfl | (intro _; rfl)

theorem posted_mk {k s : State} {a0 a1 a2 a3 a4} :
    Posted k
      (⟨s.pending, a0, a1, s.part, s.otp, s.dev, s.power, s.warm, s.lich, s.hostA, s.hostB, s.arrivals, s.ops, s.lastA,
        s.sems, s.ports, s.ctxs, s.xfers, a2, s.pool, s.ctrl, s.mail, s.mbx, s.peat, s.stok, s.ledger, s.test,
        s.testQ, s.cal, s.flts, s.fltLast, a3, s.fltIn, s.cans, s.time, s.feedA, s.feedB, s.board, s.svc, s.insts,
        s.trunks, s.net, s.fw, s.sec, s.cfg, s.cfgCopy, s.cfgBad, s.cfgHeld, s.regHeld, a4⟩ : State) ↔ Posted k s := by
  constructor <;> intro h <;> exact ⟨h.pending, h.part, h.otp, h.dev, h.power, h.warm, h.lich, h.arrivals, h.ops, h.lastA, h.sems, h.ports, h.ctxs, h.xfers, h.pool, h.ctrl, h.mail, h.mbx, h.peat, h.stok, h.ledger, h.test, h.testQ, h.cal, h.flts, h.fltLast, h.fltIn, h.cans, h.time, h.feedA, h.feedB, h.board, h.svc, h.fw, h.sec, h.cfg, h.cfgCopy, h.cfgBad, h.cfgHeld, h.regHeld, h.hosts, h.trunks, h.insts, h.net⟩

theorem posted_foldS {α : Type} {k : State} {f : α → State → State} (hf : ∀ a t, Posted k t → Posted k (f a t)) :
    ∀ (l : List α) {s : State}, Posted k s → Posted k (foldS l f s)
  | [], _, h => h
  | a :: l, s, h => posted_foldS hf l (hf a s h)

theorem posted_fst {α : Type} {k s : State} {y : α} {e : State × α} (he : e = (s, y)) (h : Posted k e.1) : Posted k s := by
  rw [he] at h; exact h

theorem posted_setHost {k s : State} (hk : Posted k s) (h : HostId) (r : HostRec) (hr : r.still = (s.host h).still) :
    Posted k (setHost h r s) := by
  cases h <;>
    exact ⟨hk.pending, hk.part, hk.otp, hk.dev, hk.power, hk.warm, hk.lich, hk.arrivals, hk.ops, hk.lastA, hk.sems, hk.ports, hk.ctxs, hk.xfers, hk.pool, hk.ctrl, hk.mail, hk.mbx, hk.peat, hk.stok, hk.ledger, hk.test, hk.testQ, hk.cal, hk.flts, hk.fltLast, hk.fltIn, hk.cans, hk.time, hk.feedA, hk.feedB, hk.board, hk.svc, hk.fw, hk.sec, hk.cfg, hk.cfgCopy, hk.cfgBad, hk.cfgHeld, hk.regHeld,
      (fun g => by cases g <;> first | exact (hr.trans (hk.hosts _)) | exact hk.hosts .a | exact hk.hosts .b), hk.trunks, hk.insts, hk.net⟩

theorem tget_tset {α : Type} (t : Tab α) (d : α) (k j : Nat) (v : α) : tget (tset t k v) d j = if j = k then v else tget t d j := by
  split
  · rename_i h; subst h; simp
  · rename_i h; exact tget_tset_other t d v h

theorem posted_setTrunk {k s : State} (hk : Posted k s) (n : Nat) (r : Trunk) (hr : r.still = (s.trunk n).still) :
    Posted k (setTrunk n r s) :=
  ⟨hk.pending, hk.part, hk.otp, hk.dev, hk.power, hk.warm, hk.lich, hk.arrivals, hk.ops, hk.lastA, hk.sems, hk.ports, hk.ctxs, hk.xfers, hk.pool, hk.ctrl, hk.mail, hk.mbx, hk.peat, hk.stok, hk.ledger, hk.test, hk.testQ, hk.cal, hk.flts, hk.fltLast, hk.fltIn, hk.cans, hk.time, hk.feedA, hk.feedB, hk.board, hk.svc, hk.fw, hk.sec, hk.cfg, hk.cfgCopy, hk.cfgBad, hk.cfgHeld, hk.regHeld, hk.hosts,
    (fun j => by
      unfold setTrunk State.trunk
      rw [tget_tset]
      split
      · rename_i h; subst h; exact hr.trans (hk.trunks _)
      · exact hk.trunks _), hk.insts, hk.net⟩

theorem posted_modTrunk {k s : State} (hk : Posted k s) (n : Nat) (f : Trunk → Trunk) (hf : ∀ t, (f t).still = t.still) :
    Posted k (modTrunk n f s) := posted_setTrunk hk n _ (hf _)

theorem posted_modInst {k s : State} (hk : Posted k s) (i : Nat) (f : Instance → Instance) (hf : ∀ t, (f t).still = t.still) :
    Posted k (modInst i f s) :=
  ⟨hk.pending, hk.part, hk.otp, hk.dev, hk.power, hk.warm, hk.lich, hk.arrivals, hk.ops, hk.lastA, hk.sems, hk.ports, hk.ctxs, hk.xfers, hk.pool, hk.ctrl, hk.mail, hk.mbx, hk.peat, hk.stok, hk.ledger, hk.test, hk.testQ, hk.cal, hk.flts, hk.fltLast, hk.fltIn, hk.cans, hk.time, hk.feedA, hk.feedB, hk.board, hk.svc, hk.fw, hk.sec, hk.cfg, hk.cfgCopy, hk.cfgBad, hk.cfgHeld, hk.regHeld, hk.hosts, hk.trunks,
    (fun j => by
      unfold modInst State.inst
      rw [tget_tset]
      split
      · rename_i h; subst h; exact (hf _).trans (hk.insts _)
      · exact hk.insts _), hk.net⟩

theorem posted_modNet {k s : State} (hk : Posted k s) (f : Net → Net) (hf : ∀ t, (f t).still = t.still) :
    Posted k (modNet f s) :=
  ⟨hk.pending, hk.part, hk.otp, hk.dev, hk.power, hk.warm, hk.lich, hk.arrivals, hk.ops, hk.lastA, hk.sems, hk.ports, hk.ctxs, hk.xfers, hk.pool, hk.ctrl, hk.mail, hk.mbx, hk.peat, hk.stok, hk.ledger, hk.test, hk.testQ, hk.cal, hk.flts, hk.fltLast, hk.fltIn, hk.cans, hk.time, hk.feedA, hk.feedB, hk.board, hk.svc, hk.fw, hk.sec, hk.cfg, hk.cfgCopy, hk.cfgBad, hk.cfgHeld, hk.regHeld, hk.hosts, hk.trunks, hk.insts, (hf _).trans hk.net⟩

theorem posted_emit {k s : State} (hk : Posted k s) (o : Out) : Posted k (emit o s) := by
  unfold emit
  try simp only []
  repeat' (with_reducible first
    | assumption | (apply posted_foldS; intro _ _ _) | refine posted_setHost ?_ _ _ (by with_unfolding_all rfl) | refine posted_setTrunk ?_ _ _ (by with_unfolding_all rfl) | refine posted_modTrunk ?_ _ _ (fun _ => by with_unfolding_all rfl) | refine posted_modNet ?_ _ (fun _ => by with_unfolding_all rfl) | refine posted_modInst ?_ _ _ (fun _ => by with_unfolding_all rfl) | simp only [posted_mk] | refine posted_fst (by assumption) ?_ | intro _
    | split)

theorem posted_emitAll {k s : State} (hk : Posted k s) (os : List Out) : Posted k (emitAll os s) := by
  unfold emitAll
  try simp only []
  repeat' (with_reducible first
    | assumption | apply posted_emit | (apply posted_foldS; intro _ _ _) | refine posted_setHost ?_ _ _ (by with_unfolding_all rfl) | refine posted_setTrunk ?_ _ _ (by with_unfolding_all rfl) | refine posted_modTrunk ?_ _ _ (fun _ => by with_unfolding_all rfl) | refine posted_modNet ?_ _ (fun _ => by with_unfolding_all rfl) | refine posted_modInst ?_ _ _ (fun _ => by with_unfolding_all rfl) | simp only [posted_mk] | refine posted_fst (by assumption) ?_ | intro _
    | split)

theorem posted_useFree {k s : State} (hk : Posted k s) : Posted k (useFree s) := by
  unfold useFree
  try simp only []
  repeat' (with_reducible first
    | assumption | (apply posted_foldS; intro _ _ _) | refine posted_setHost ?_ _ _ (by with_unfolding_all rfl) | refine posted_setTrunk ?_ _ _ (by with_unfolding_all rfl) | refine posted_modTrunk ?_ _ _ (fun _ => by with_unfolding_all rfl) | refine posted_modNet ?_ _ (fun _ => by with_unfolding_all rfl) | refine posted_modInst ?_ _ _ (fun _ => by with_unfolding_all rfl) | simp only [posted_mk] | refine posted_fst (by assumption) ?_ | intro _
    | split)

theorem posted_setSqc {k s : State} (hk : Posted k s) (a : Nat) (bits : List Nat) : Posted k (setSqc a bits s) := by
  unfold setSqc
  try simp only []
  repeat' (with_reducible first
    | assumption | (apply posted_foldS; intro _ _ _) | refine posted_setHost ?_ _ _ (by with_unfolding_all rfl) | refine posted_setTrunk ?_ _ _ (by with_unfolding_all rfl) | refine posted_modTrunk ?_ _ _ (fun _ => by with_unfolding_all rfl) | refine posted_modNet ?_ _ (fun _ => by with_unfolding_all rfl) | refine posted_modInst ?_ _ _ (fun _ => by with_unfolding_all rfl) | simp only [posted_mk] | refine posted_fst (by assumption) ?_ | intro _
    | split)

theorem posted_bumpSeq {k s : State} (hk : Posted k s) (a : Nat) : Posted k (bumpSeq a s) := by
  unfold bumpSeq
  try simp only []
  repeat' (with_reducible first
    | assumption | apply posted_setSqc | (apply posted_foldS; intro _ _ _) | refine posted_setHost ?_ _ _ (by with_unfolding_all rfl) | refine posted_setTrunk ?_ _ _ (by with_unfolding_all rfl) | refine posted_modTrunk ?_ _ _ (fun _ => by with_unfolding_all rfl) | refine posted_modNet ?_ _ (fun _ => by with_unfolding_all rfl) | refine posted_modInst ?_ _ _ (fun _ => by with_unfolding_all rfl) | simp only [posted_mk] | refine posted_fst (by assumption) ?_ | intro _
    | split)

theorem posted_setQueue {k s : State} (hk : Posted k s) (q : Nat) (r : Queue) : Posted k (setQueue q r s) := by
  unfold setQueue
  try simp only []
  repeat' (with_reducible first
    | assumption | (apply posted_foldS; intro _ _ _) | refine posted_setHost ?_ _ _ (by with_unfolding_all rfl) | refine posted_setTrunk ?_ _ _ (by with_unfolding_all rfl) | refine posted_modTrunk ?_ _ _ (fun _ => by with_unfolding_all rfl) | refine posted_modNet ?_ _ (fun _ => by with_unfolding_all rfl) | refine posted_modInst ?_ _ _ (fun _ => by with_unfolding_all rfl) | simp only [posted_mk] | refine posted_fst (by assumption) ?_ | intro _
    | split)

theorem posted_modQueue {k s : State} (hk : Posted k s) (q : Nat) (f : Queue → Queue) : Posted k (modQueue q f s) := by
  unfold modQueue
  try simp only []
  repeat' (with_reducible first
    | assumption | apply posted_setQueue | (apply posted_foldS; intro _ _ _) | refine posted_setHost ?_ _ _ (by with_unfolding_all rfl) | refine posted_setTrunk ?_ _ _ (by with_unfolding_all rfl) | refine posted_modTrunk ?_ _ _ (fun _ => by with_unfolding_all rfl) | refine posted_modNet ?_ _ (fun _ => by with_unfolding_all rfl) | refine posted_modInst ?_ _ _ (fun _ => by with_unfolding_all rfl) | simp only [posted_mk] | refine posted_fst (by assumption) ?_ | intro _
    | split)

theorem posted_beginFrame {k s : State} (hk : Posted k s) (n : Nat) (e : Egress) : Posted k (beginFrame n e s) := by
  unfold beginFrame
  try simp only []
  repeat' (with_reducible first
    | assumption | apply posted_emit | (apply posted_foldS; intro _ _ _) | refine posted_setHost ?_ _ _ (by with_unfolding_all rfl) | refine posted_setTrunk ?_ _ _ (by with_unfolding_all rfl) | refine posted_modTrunk ?_ _ _ (fun _ => by with_unfolding_all rfl) | refine posted_modNet ?_ _ (fun _ => by with_unfolding_all rfl) | refine posted_modInst ?_ _ _ (fun _ => by with_unfolding_all rfl) | simp only [posted_mk] | refine posted_fst (by assumption) ?_ | intro _
    | split)

theorem posted_startEgress {k s : State} (hk : Posted k s) (n : Nat) : Posted k (startEgress n s) := by
  unfold startEgress
  try simp only []
  repeat' (with_reducible first
    | assumption | apply posted_beginFrame | (apply posted_foldS; intro _ _ _) | refine posted_setHost ?_ _ _ (by with_unfolding_all rfl) | refine posted_setTrunk ?_ _ _ (by with_unfolding_all rfl) | refine posted_modTrunk ?_ _ _ (fun _ => by with_unfolding_all rfl) | refine posted_modNet ?_ _ (fun _ => by with_unfolding_all rfl) | refine posted_modInst ?_ _ _ (fun _ => by with_unfolding_all rfl) | simp only [posted_mk] | refine posted_fst (by assumption) ?_ | intro _
    | split)

theorem posted_enqueueEgress {k s : State} (hk : Posted k s) (n : Nat) (e : Egress) : Posted k (enqueueEgress n e s) := by
  unfold enqueueEgress
  try simp only []
  repeat' (with_reducible first
    | assumption | apply posted_startEgress | (apply posted_foldS; intro _ _ _) | refine posted_setHost ?_ _ _ (by with_unfolding_all rfl) | refine posted_setTrunk ?_ _ _ (by with_unfolding_all rfl) | refine posted_modTrunk ?_ _ _ (fun _ => by with_unfolding_all rfl) | refine posted_modNet ?_ _ (fun _ => by with_unfolding_all rfl) | refine posted_modInst ?_ _ _ (fun _ => by with_unfolding_all rfl) | simp only [posted_mk] | refine posted_fst (by assumption) ?_ | intro _
    | split)

theorem posted_sendRouted {k s : State} (hk : Posted k s) (type : Nat) (cls : Nat) (credit : Bool) (replay : Bool) (dst : Half) (queue : Nat) (seqn : Half) (payload : List Byte) : Posted k (sendRouted type cls credit replay dst queue seqn payload s) := by
  unfold sendRouted
  try simp only []
  repeat' (with_reducible first
    | assumption | apply posted_enqueueEgress | (apply posted_foldS; intro _ _ _) | refine posted_setHost ?_ _ _ (by with_unfolding_all rfl) | refine posted_setTrunk ?_ _ _ (by with_unfolding_all rfl) | refine posted_modTrunk ?_ _ _ (fun _ => by with_unfolding_all rfl) | refine posted_modNet ?_ _ (fun _ => by with_unfolding_all rfl) | refine posted_modInst ?_ _ _ (fun _ => by with_unfolding_all rfl) | simp only [posted_mk] | refine posted_fst (by assumption) ?_ | intro _
    | split)

theorem posted_nextCmdSeq {k s : State} (hk : Posted k s) : Posted k (nextCmdSeq s) := by
  unfold nextCmdSeq
  try simp only []
  repeat' (with_reducible first
    | assumption | (apply posted_foldS; intro _ _ _) | refine posted_setHost ?_ _ _ (by with_unfolding_all rfl) | refine posted_setTrunk ?_ _ _ (by with_unfolding_all rfl) | refine posted_modTrunk ?_ _ _ (fun _ => by with_unfolding_all rfl) | refine posted_modNet ?_ _ (fun _ => by with_unfolding_all rfl) | refine posted_modInst ?_ _ _ (fun _ => by with_unfolding_all rfl) | simp only [posted_mk] | refine posted_fst (by assumption) ?_ | intro _
    | split)

theorem posted_nextReplySeq {k s : State} (hk : Posted k s) : Posted k (nextReplySeq s) := by
  unfold nextReplySeq
  try simp only []
  repeat' (with_reducible first
    | assumption | (apply posted_foldS; intro _ _ _) | refine posted_setHost ?_ _ _ (by with_unfolding_all rfl) | refine posted_setTrunk ?_ _ _ (by with_unfolding_all rfl) | refine posted_modTrunk ?_ _ _ (fun _ => by with_unfolding_all rfl) | refine posted_modNet ?_ _ (fun _ => by with_unfolding_all rfl) | refine posted_modInst ?_ _ _ (fun _ => by with_unfolding_all rfl) | simp only [posted_mk] | refine posted_fst (by assumption) ?_ | intro _
    | split)

theorem posted_sendReply {k s : State} (hk : Posted k s) (cls : Nat) (dst : Half) (bytes : List Byte) : Posted k (sendReply cls dst bytes s) := by
  unfold sendReply
  try simp only []
  repeat' (with_reducible first
    | assumption | apply posted_nextReplySeq | apply posted_sendRouted | (apply posted_foldS; intro _ _ _)
    | refine posted_setHost ?_ _ _ (by with_unfolding_all rfl) | refine posted_setTrunk ?_ _ _ (by with_unfolding_all rfl) | refine posted_modTrunk ?_ _ _ (fun _ => by with_unfolding_all rfl) | refine posted_modNet ?_ _ (fun _ => by with_unfolding_all rfl) | refine posted_modInst ?_ _ _ (fun _ => by with_unfolding_all rfl) | simp only [posted_mk]
    | refine posted_fst (by assumption) ?_ | intro _ | split)

theorem posted_pumpPair {k s : State} (hk : Posted k s) (q : Nat) (dst : Half) (x1 : Nat) : Posted k (pumpPair q dst x1 s) := by
  induction x1 generalizing s with
  | zero =>
    unfold pumpPair
    try simp only []
    repeat' (with_reducible first
      | assumption | apply posted_sendRouted | apply posted_setQueue | (apply posted_foldS; intro _ _ _)
      | refine posted_setHost ?_ _ _ (by with_unfolding_all rfl) | refine posted_setTrunk ?_ _ _ (by with_unfolding_all rfl) | refine posted_modTrunk ?_ _ _ (fun _ => by with_unfolding_all rfl) | refine posted_modNet ?_ _ (fun _ => by with_unfolding_all rfl) | refine posted_modInst ?_ _ _ (fun _ => by with_unfolding_all rfl) | simp only [posted_mk]
      | refine posted_fst (by assumption) ?_ | intro _ | split)
  | succ n ih =>
    unfold pumpPair
    try simp only []
    repeat' (with_reducible first
      | assumption | apply ih | apply posted_sendRouted | apply posted_setQueue | (apply posted_foldS; intro _ _ _)
      | refine posted_setHost ?_ _ _ (by with_unfolding_all rfl) | refine posted_setTrunk ?_ _ _ (by with_unfolding_all rfl) | refine posted_modTrunk ?_ _ _ (fun _ => by with_unfolding_all rfl) | refine posted_modNet ?_ _ (fun _ => by with_unfolding_all rfl) | refine posted_modInst ?_ _ _ (fun _ => by with_unfolding_all rfl) | simp only [posted_mk]
      | refine posted_fst (by assumption) ?_ | intro _ | split)

theorem posted_pumpReplies {k s : State} (hk : Posted k s) (q : Nat) (dst : Half) (x1 : Nat) : Posted k (pumpReplies q dst x1 s) := by
  induction x1 generalizing s with
  | zero =>
    unfold pumpReplies
    try simp only []
    repeat' (with_reducible first
      | assumption | apply posted_sendReply | apply posted_setQueue | (apply posted_foldS; intro _ _ _)
      | refine posted_setHost ?_ _ _ (by with_unfolding_all rfl) | refine posted_setTrunk ?_ _ _ (by with_unfolding_all rfl) | refine posted_modTrunk ?_ _ _ (fun _ => by with_unfolding_all rfl) | refine posted_modNet ?_ _ (fun _ => by with_unfolding_all rfl) | refine posted_modInst ?_ _ _ (fun _ => by with_unfolding_all rfl) | simp only [posted_mk]
      | refine posted_fst (by assumption) ?_ | intro _ | split)
  | succ n ih =>
    unfold pumpReplies
    try simp only []
    repeat' (with_reducible first
      | assumption | apply ih | apply posted_sendReply | apply posted_setQueue | (apply posted_foldS; intro _ _ _)
      | refine posted_setHost ?_ _ _ (by with_unfolding_all rfl) | refine posted_setTrunk ?_ _ _ (by with_unfolding_all rfl) | refine posted_modTrunk ?_ _ _ (fun _ => by with_unfolding_all rfl) | refine posted_modNet ?_ _ (fun _ => by with_unfolding_all rfl) | refine posted_modInst ?_ _ _ (fun _ => by with_unfolding_all rfl) | simp only [posted_mk]
      | refine posted_fst (by assumption) ?_ | intro _ | split)

theorem posted_pump {k s : State} (hk : Posted k s) (q : Nat) : Posted k (pump q s) := by
  unfold pump
  try simp only []
  repeat' (with_reducible first
    | assumption | apply posted_pumpReplies | apply posted_pumpPair | (apply posted_foldS; intro _ _ _)
    | refine posted_setHost ?_ _ _ (by with_unfolding_all rfl) | refine posted_setTrunk ?_ _ _ (by with_unfolding_all rfl) | refine posted_modTrunk ?_ _ _ (fun _ => by with_unfolding_all rfl) | refine posted_modNet ?_ _ (fun _ => by with_unfolding_all rfl) | refine posted_modInst ?_ _ _ (fun _ => by with_unfolding_all rfl) | simp only [posted_mk]
    | refine posted_fst (by assumption) ?_ | intro _ | split)

theorem posted_sendCredit {k s : State} (hk : Posted k s) (q : Nat) : Posted k (sendCredit q s) := by
  unfold sendCredit
  try simp only []
  repeat' (with_reducible first
    | assumption | apply posted_setQueue | apply posted_sendRouted | (apply posted_foldS; intro _ _ _)
    | refine posted_setHost ?_ _ _ (by with_unfolding_all rfl) | refine posted_setTrunk ?_ _ _ (by with_unfolding_all rfl) | refine posted_modTrunk ?_ _ _ (fun _ => by with_unfolding_all rfl) | refine posted_modNet ?_ _ (fun _ => by with_unfolding_all rfl) | refine posted_modInst ?_ _ _ (fun _ => by with_unfolding_all rfl) | simp only [posted_mk]
    | refine posted_fst (by assumption) ?_ | intro _ | split)

theorem posted_sendEvCredit {k s : State} (hk : Posted k s) (h' : HostId) (dev : Half) : Posted k (sendEvCredit h' dev s) := by
  unfold sendEvCredit
  try simp only []
  repeat' (with_reducible first
    | assumption | apply posted_sendRouted | (apply posted_foldS; intro _ _ _) | refine posted_setHost ?_ _ _ (by with_unfolding_all rfl) | refine posted_setTrunk ?_ _ _ (by with_unfolding_all rfl) | refine posted_modTrunk ?_ _ _ (fun _ => by with_unfolding_all rfl) | refine posted_modNet ?_ _ (fun _ => by with_unfolding_all rfl) | refine posted_modInst ?_ _ _ (fun _ => by with_unfolding_all rfl) | simp only [posted_mk] | refine posted_fst (by assumption) ?_ | intro _
    | split)

theorem posted_creditAgain {k s : State} (hk : Posted k s) (q : Nat) : Posted k (creditAgain q s) := by
  unfold creditAgain
  try simp only []
  repeat' (with_reducible first
    | assumption | apply posted_sendEvCredit | apply posted_sendCredit | (apply posted_foldS; intro _ _ _)
    | refine posted_setHost ?_ _ _ (by with_unfolding_all rfl) | refine posted_setTrunk ?_ _ _ (by with_unfolding_all rfl) | refine posted_modTrunk ?_ _ _ (fun _ => by with_unfolding_all rfl) | refine posted_modNet ?_ _ (fun _ => by with_unfolding_all rfl) | refine posted_modInst ?_ _ _ (fun _ => by with_unfolding_all rfl) | simp only [posted_mk]
    | refine posted_fst (by assumption) ?_ | intro _ | split)

theorem posted_pinEvent {k s : State} (hk : Posted k s) (src : Nat) (h' : HostId) : Posted k (pinEvent src h' s) := by
  unfold pinEvent
  try simp only []
  repeat' (with_reducible first
    | assumption | apply posted_setSqc | (apply posted_foldS; intro _ _ _) | refine posted_setHost ?_ _ _ (by with_unfolding_all rfl) | refine posted_setTrunk ?_ _ _ (by with_unfolding_all rfl) | refine posted_modTrunk ?_ _ _ (fun _ => by with_unfolding_all rfl) | refine posted_modNet ?_ _ (fun _ => by with_unfolding_all rfl) | refine posted_modInst ?_ _ _ (fun _ => by with_unfolding_all rfl) | simp only [posted_mk] | refine posted_fst (by assumption) ?_ | intro _
    | split)

theorem posted_pinRouted {k s : State} (hk : Posted k s) (src : Nat) : Posted k (pinRouted src s) := by
  unfold pinRouted
  try simp only []
  repeat' (with_reducible first
    | assumption | apply posted_pinEvent | (apply posted_foldS; intro _ _ _) | refine posted_setHost ?_ _ _ (by with_unfolding_all rfl) | refine posted_setTrunk ?_ _ _ (by with_unfolding_all rfl) | refine posted_modTrunk ?_ _ _ (fun _ => by with_unfolding_all rfl) | refine posted_modNet ?_ _ (fun _ => by with_unfolding_all rfl) | refine posted_modInst ?_ _ _ (fun _ => by with_unfolding_all rfl) | simp only [posted_mk] | refine posted_fst (by assumption) ?_ | intro _
    | split)

theorem posted_wakeInstance {k s : State} (hk : Posted k s) (q : Nat) : Posted k (wakeInstance q s) := by
  unfold wakeInstance
  try simp only []
  repeat' (with_reducible first
    | assumption | apply posted_emit | (apply posted_foldS; intro _ _ _) | refine posted_setHost ?_ _ _ (by with_unfolding_all rfl) | refine posted_setTrunk ?_ _ _ (by with_unfolding_all rfl) | refine posted_modTrunk ?_ _ _ (fun _ => by with_unfolding_all rfl) | refine posted_modNet ?_ _ (fun _ => by with_unfolding_all rfl) | refine posted_modInst ?_ _ _ (fun _ => by with_unfolding_all rfl) | simp only [posted_mk] | refine posted_fst (by assumption) ?_ | intro _
    | split)

theorem posted_storeQueue {k s : State} (hk : Posted k s) (q : Nat) (new : Queue) (newGap : Option Nat) : Posted k (storeQueue q new newGap s).1 := by
  unfold storeQueue
  try simp only []
  repeat' (with_reducible first
    | assumption | apply posted_setQueue | (apply posted_foldS; intro _ _ _) | refine posted_setHost ?_ _ _ (by with_unfolding_all rfl) | refine posted_setTrunk ?_ _ _ (by with_unfolding_all rfl) | refine posted_modTrunk ?_ _ _ (fun _ => by with_unfolding_all rfl) | refine posted_modNet ?_ _ (fun _ => by with_unfolding_all rfl) | refine posted_modInst ?_ _ _ (fun _ => by with_unfolding_all rfl) | simp only [posted_mk] | refine posted_fst (by assumption) ?_ | intro _
    | split)

theorem posted_pushKept {k s : State} (hk : Posted k s) (q : Nat) (i : Item) : Posted k (pushKept q i s) := by
  unfold pushKept
  try simp only []
  repeat' (with_reducible first
    | assumption | apply posted_storeQueue | apply posted_pinRouted | apply posted_pump | apply posted_wakeInstance
    | (apply posted_foldS; intro _ _ _) | refine posted_setHost ?_ _ _ (by with_unfolding_all rfl) | refine posted_setTrunk ?_ _ _ (by with_unfolding_all rfl) | refine posted_modTrunk ?_ _ _ (fun _ => by with_unfolding_all rfl) | refine posted_modNet ?_ _ (fun _ => by with_unfolding_all rfl) | refine posted_modInst ?_ _ _ (fun _ => by with_unfolding_all rfl) | simp only [posted_mk] | refine posted_fst (by assumption) ?_ | intro _ | split)

theorem posted_pushFixed {k s : State} (hk : Posted k s) (q : Nat) (i : Item) : Posted k (pushFixed q i s) := by
  unfold pushFixed
  try simp only []
  repeat' (with_reducible first
    | assumption | apply posted_pushKept | (apply posted_foldS; intro _ _ _) | refine posted_setHost ?_ _ _ (by with_unfolding_all rfl) | refine posted_setTrunk ?_ _ _ (by with_unfolding_all rfl) | refine posted_modTrunk ?_ _ _ (fun _ => by with_unfolding_all rfl) | refine posted_modNet ?_ _ (fun _ => by with_unfolding_all rfl) | refine posted_modInst ?_ _ _ (fun _ => by with_unfolding_all rfl) | simp only [posted_mk] | refine posted_fst (by assumption) ?_ | intro _
    | split)

theorem posted_drainHeld {k s : State} (hk : Posted k s) (h' : HostId) (x1 : Nat) : Posted k (drainHeld h' x1 s) := by
  induction x1 generalizing s with
  | zero =>
    unfold drainHeld
    try simp only []
    repeat' (with_reducible first
      | assumption | apply posted_pushFixed | apply posted_pinEvent | (apply posted_foldS; intro _ _ _)
      | refine posted_setHost ?_ _ _ (by with_unfolding_all rfl) | refine posted_setTrunk ?_ _ _ (by with_unfolding_all rfl) | refine posted_modTrunk ?_ _ _ (fun _ => by with_unfolding_all rfl) | refine posted_modNet ?_ _ (fun _ => by with_unfolding_all rfl) | refine posted_modInst ?_ _ _ (fun _ => by with_unfolding_all rfl) | simp only [posted_mk]
      | refine posted_fst (by assumption) ?_ | intro _ | split)
  | succ n ih =>
    unfold drainHeld
    try simp only []
    repeat' (with_reducible first
      | assumption | apply ih | apply posted_pushFixed | apply posted_pinEvent | (apply posted_foldS; intro _ _ _)
      | refine posted_setHost ?_ _ _ (by with_unfolding_all rfl) | refine posted_setTrunk ?_ _ _ (by with_unfolding_all rfl) | refine posted_modTrunk ?_ _ _ (fun _ => by with_unfolding_all rfl) | refine posted_modNet ?_ _ (fun _ => by with_unfolding_all rfl) | refine posted_modInst ?_ _ _ (fun _ => by with_unfolding_all rfl) | simp only [posted_mk]
      | refine posted_fst (by assumption) ?_ | intro _ | split)

theorem posted_storeEvent {k s : State} (hk : Posted k s) (h' : HostId) (i : Item) : Posted k (storeEvent h' i s) := by
  unfold storeEvent
  try simp only []
  repeat' (with_reducible first
    | assumption | apply posted_pushFixed | (apply posted_foldS; intro _ _ _) | refine posted_setHost ?_ _ _ (by with_unfolding_all rfl) | refine posted_setTrunk ?_ _ _ (by with_unfolding_all rfl) | refine posted_modTrunk ?_ _ _ (fun _ => by with_unfolding_all rfl) | refine posted_modNet ?_ _ (fun _ => by with_unfolding_all rfl) | refine posted_modInst ?_ _ _ (fun _ => by with_unfolding_all rfl) | simp only [posted_mk] | refine posted_fst (by assumption) ?_ | intro _
    | split)

theorem posted_deliverEvent {k s : State} (hk : Posted k s) (h' : HostId) (i : Item) : Posted k (deliverEvent h' i s) := by
  unfold deliverEvent
  try simp only []
  repeat' (with_reducible first
    | assumption | apply posted_storeEvent | (apply posted_foldS; intro _ _ _) | refine posted_setHost ?_ _ _ (by with_unfolding_all rfl) | refine posted_setTrunk ?_ _ _ (by with_unfolding_all rfl) | refine posted_modTrunk ?_ _ _ (fun _ => by with_unfolding_all rfl) | refine posted_modNet ?_ _ (fun _ => by with_unfolding_all rfl) | refine posted_modInst ?_ _ _ (fun _ => by with_unfolding_all rfl) | simp only [posted_mk] | refine posted_fst (by assumption) ?_ | intro _
    | split)

theorem posted_post {k s : State} (hk : Posted k s) (src : Nat) (payload : List Byte) : Posted k (post src payload s) := by
  unfold post
  try simp only []
  repeat' (with_reducible first
    | assumption | apply posted_pinRouted | apply posted_deliverEvent | (apply posted_foldS; intro _ _ _)
    | refine posted_setHost ?_ _ _ (by with_unfolding_all rfl) | refine posted_setTrunk ?_ _ _ (by with_unfolding_all rfl) | refine posted_modTrunk ?_ _ _ (fun _ => by with_unfolding_all rfl) | refine posted_modNet ?_ _ (fun _ => by with_unfolding_all rfl) | refine posted_modInst ?_ _ _ (fun _ => by with_unfolding_all rfl) | simp only [posted_mk]
    | refine posted_fst (by assumption) ?_ | intro _ | split)

theorem posted_postTo {k s : State} (hk : Posted k s) (src : Nat) (h' : HostId) (payload : List Byte) : Posted k (postTo src h' payload s) := by
  unfold postTo
  try simp only []
  repeat' (with_reducible first
    | assumption | apply posted_deliverEvent | apply posted_pinEvent | (apply posted_foldS; intro _ _ _)
    | refine posted_setHost ?_ _ _ (by with_unfolding_all rfl) | refine posted_setTrunk ?_ _ _ (by with_unfolding_all rfl) | refine posted_modTrunk ?_ _ _ (fun _ => by with_unfolding_all rfl) | refine posted_modNet ?_ _ (fun _ => by with_unfolding_all rfl) | refine posted_modInst ?_ _ _ (fun _ => by with_unfolding_all rfl) | simp only [posted_mk]
    | refine posted_fst (by assumption) ?_ | intro _ | split)

theorem posted_postQueue {k s : State} (hk : Posted k s) (q : Nat) (evs : List (Nat × Nat × Nat)) : Posted k (postQueue q evs s) := by
  unfold postQueue
  try simp only []
  repeat' (with_reducible first
    | assumption | apply posted_pinRouted | apply posted_post | (apply posted_foldS; intro _ _ _)
    | refine posted_setHost ?_ _ _ (by with_unfolding_all rfl) | refine posted_setTrunk ?_ _ _ (by with_unfolding_all rfl) | refine posted_modTrunk ?_ _ _ (fun _ => by with_unfolding_all rfl) | refine posted_modNet ?_ _ (fun _ => by with_unfolding_all rfl) | refine posted_modInst ?_ _ _ (fun _ => by with_unfolding_all rfl) | simp only [posted_mk]
    | refine posted_fst (by assumption) ?_ | intro _ | split)

theorem posted_putQueue {k s : State} (hk : Posted k s) (q : Nat) (new : Queue) (newGap : Option Nat) : Posted k (putQueue q new newGap s) := by
  unfold putQueue
  try simp only []
  repeat' (with_reducible first
    | assumption | apply posted_storeQueue | apply posted_pump | apply posted_postQueue | apply posted_creditAgain
    | (apply posted_foldS; intro _ _ _) | refine posted_setHost ?_ _ _ (by with_unfolding_all rfl) | refine posted_setTrunk ?_ _ _ (by with_unfolding_all rfl) | refine posted_modTrunk ?_ _ _ (fun _ => by with_unfolding_all rfl) | refine posted_modNet ?_ _ (fun _ => by with_unfolding_all rfl) | refine posted_modInst ?_ _ _ (fun _ => by with_unfolding_all rfl) | simp only [posted_mk] | refine posted_fst (by assumption) ?_ | intro _ | split)

theorem posted_pushItem {k s : State} (hk : Posted k s) (q : Nat) (i : Item) : Posted k (pushItem q i s) := by
  unfold pushItem
  try simp only []
  repeat' (with_reducible first
    | assumption | apply posted_pushKept | apply posted_setSqc | apply posted_putQueue
    | (apply posted_foldS; intro _ _ _) | refine posted_setHost ?_ _ _ (by with_unfolding_all rfl) | refine posted_setTrunk ?_ _ _ (by with_unfolding_all rfl) | refine posted_modTrunk ?_ _ _ (fun _ => by with_unfolding_all rfl) | refine posted_modNet ?_ _ (fun _ => by with_unfolding_all rfl) | refine posted_modInst ?_ _ _ (fun _ => by with_unfolding_all rfl) | simp only [posted_mk] | refine posted_fst (by assumption) ?_ | intro _ | split)

theorem posted_replayCheck {k s : State} (hk : Posted k s) (q : Nat) : Posted k (replayCheck q s) := by
  unfold replayCheck
  try simp only []
  repeat' (with_reducible first
    | assumption | apply posted_pump | apply posted_postQueue | apply posted_setQueue
    | (apply posted_foldS; intro _ _ _) | refine posted_setHost ?_ _ _ (by with_unfolding_all rfl) | refine posted_setTrunk ?_ _ _ (by with_unfolding_all rfl) | refine posted_modTrunk ?_ _ _ (fun _ => by with_unfolding_all rfl) | refine posted_modNet ?_ _ (fun _ => by with_unfolding_all rfl) | refine posted_modInst ?_ _ _ (fun _ => by with_unfolding_all rfl) | simp only [posted_mk] | refine posted_fst (by assumption) ?_ | intro _ | split)

theorem posted_replyQueue {k s : State} (hk : Posted k s) (h' : HostId) (urgent : Bool) (bytes : List Byte) : Posted k (replyQueue h' urgent bytes s) := by
  unfold replyQueue
  try simp only []
  repeat' (with_reducible first
    | assumption | apply posted_pushFixed | (apply posted_foldS; intro _ _ _) | refine posted_setHost ?_ _ _ (by with_unfolding_all rfl) | refine posted_setTrunk ?_ _ _ (by with_unfolding_all rfl) | refine posted_modTrunk ?_ _ _ (fun _ => by with_unfolding_all rfl) | refine posted_modNet ?_ _ (fun _ => by with_unfolding_all rfl) | refine posted_modInst ?_ _ _ (fun _ => by with_unfolding_all rfl) | simp only [posted_mk] | refine posted_fst (by assumption) ?_ | intro _
    | split)

theorem posted_replyVia {k s : State} (hk : Posted k s) (via : Via) (h' : HostId) (urgent : Bool) (bytes : List Byte) : Posted k (replyVia via h' urgent bytes s) := by
  unfold replyVia
  try simp only []
  repeat' (with_reducible first
    | assumption | apply posted_replyQueue | apply posted_sendReply | (apply posted_foldS; intro _ _ _)
    | refine posted_setHost ?_ _ _ (by with_unfolding_all rfl) | refine posted_setTrunk ?_ _ _ (by with_unfolding_all rfl) | refine posted_modTrunk ?_ _ _ (fun _ => by with_unfolding_all rfl) | refine posted_modNet ?_ _ (fun _ => by with_unfolding_all rfl) | refine posted_modInst ?_ _ _ (fun _ => by with_unfolding_all rfl) | simp only [posted_mk]
    | refine posted_fst (by assumption) ?_ | intro _ | split)

theorem posted_reply {k s : State} (hk : Posted k s) (via : Via) (h' : HostId) (bound : Bool) (opcode : Nat) (tag : Half) (flags : Half) (status : Nat) (cseq : Word) (result : List Byte) : Posted k (reply via h' bound opcode tag flags status cseq result s) := by
  unfold reply
  try simp only []
  repeat' (with_reducible first
    | assumption | apply posted_replyQueue | apply posted_replyVia | (apply posted_foldS; intro _ _ _)
    | refine posted_setHost ?_ _ _ (by with_unfolding_all rfl) | refine posted_setTrunk ?_ _ _ (by with_unfolding_all rfl) | refine posted_modTrunk ?_ _ _ (fun _ => by with_unfolding_all rfl) | refine posted_modNet ?_ _ (fun _ => by with_unfolding_all rfl) | refine posted_modInst ?_ _ _ (fun _ => by with_unfolding_all rfl) | simp only [posted_mk]
    | refine posted_fst (by assumption) ?_ | intro _ | split)

end Sys2Proof.Machine
end

