-- ==== Sys2Proof/Laws/Commands.lean ====
section
/-!
SUPPORT. A host command that passes acceptance: what serving it comes to, and what its answer leaves.
-/
namespace Sys2Proof.Machine

theorem opOf_append {s : State} {h : HostId} {tag : Half} {o : Op} (hn : s.opOf h tag = none) (ho : o.host = h) (ht : o.tag = tag) :
    ({ s with ops := s.ops ++ [o] } : State).opOf h tag = some o := by
  unfold State.opOf at *
  rw [List.find?_append, hn]
  simp [List.find?, ho, ht]

theorem ite_some_none {α : Type} {c : Prop} [Decidable c] {a : α} {e : Option α} :
    (if c then some a else e) = none ↔ ¬ c ∧ e = none := by
  split <;> simp [*]

/-- A command that passed acceptance was not outstanding, and a configuration command holds SEM0. -/
theorem accepted_fresh {op : Nat} {c : CmdSpec} {h : HostId} {p : Packet} {s : State} (ha : s.acceptStatus op (some c) h p = none) :
    s.opOf h p.tag = none ∧ (p.flags.getLsbD 3 = true → s.sem0 h = true) ∧ (needsForce op = true → p.flags.getLsbD 3 = true) ∧
    ((s.host h).bound.isSome = true → (s.host h).bound = some p.via) := by
  unfold State.acceptStatus at ha
  simp only [ite_some_none] at ha
  obtain ⟨-, -, -, hb, -, -, hm, hf, -⟩ := ha
  simp only [Bool.or_eq_true, Bool.and_eq_true, not_or, not_and, Bool.not_eq_true, Bool.not_eq_false', bne_iff_ne, ne_eq,
    Decidable.not_not] at hb hm hf
  refine ⟨?_, ?_, ?_, hb⟩
  · have := hm.1.1.2
    cases hx : s.opOf h p.tag with
    | none => rfl
    | some o => simp [hx] at this
  · intro h3
    simpa using hf h3
  · intro hn
    simpa using hm.2 hn

theorem takeItem_none {s : State} {o : Op} (hi : Safety.noItem s o.host o.tag = true) : takeItem o s = s := by
  unfold Safety.noItem at hi
  simp only [List.all_cons, List.all_nil, Bool.and_true, Bool.and_eq_true] at hi
  have key : ∀ q, ((s.queue q).items.all fun i => field i.payload 2 2 != o.tag.toNat) = true →
      ¬ ((s.queue q).items.any fun i => field i.payload 2 2 == o.tag.toNat) = true := by
    intro q h
    simp only [List.all_eq_true, bne_iff_ne, ne_eq] at h
    simpa using h
  unfold takeItem
  simp [key _ hi.1, key _ hi.2]

theorem markStarted_append {s : State} {o : Op} (hn : s.opOf o.host o.tag = none) :
    markStarted o { s with ops := s.ops ++ [o] } =
      { s with ops := s.ops ++ [{ o with started := true, counts := o.flags.getLsbD 3 && s.sem0 o.host }] } := by
  have hall : ∀ x ∈ s.ops, ¬ (x.host == o.host && x.tag == o.tag) = true := by
    unfold State.opOf at hn
    simpa [List.find?_eq_none] using hn
  have hmap : s.ops.map (fun x => if x.host == o.host && x.tag == o.tag then
        { x with started := true, counts := x.flags.getLsbD 3 && s.sem0 x.host } else x) = s.ops := by
    conv => rhs; rw [← List.map_id s.ops]
    apply List.map_congr_left
    intro x hx
    simp [hall x hx]
  unfold markStarted
  have : (s.ops ++ [o]).map (fun x => if x.host == o.host && x.tag == o.tag then
      { x with started := true, counts := x.flags.getLsbD 3 && s.sem0 x.host } else x) =
      s.ops ++ [{ o with started := true, counts := o.flags.getLsbD 3 && s.sem0 o.host }] := by
    rw [List.map_append, hmap]; simp
  exact congrArg (fun l => ({ s with ops := l } : State)) this

/-- Serving an accepted command is running its handler once it has started, and answering. -/
theorem serve_accepted {op : Nat} {c : CmdSpec} {h : HostId} {p : Packet} {s : State} (hop : op < 65536)
    (ha : Safety.Accepted op c h p s) :
    serve op c p s =
      answer (newOp op h p s) (c.run (Safety.cmdOf op h p) (Safety.begun op h p s)).2
        (c.run (Safety.cmdOf op h p) (Safety.begun op h p s)).1 := by
  obtain ⟨hr, hh, hs, hslot, hint, hd0, hd, hacc, hord, hitem, hroom, hbehind, hnone⟩ := ha
  obtain ⟨hfresh, hforce, hneed, hbound⟩ := accepted_fresh hacc
  subst hs
  have hop' : (BitVec.ofNat 16 op).toNat = op := by simp [Nat.mod_eq_of_lt hop]
  have hring : s.bellRefused p.via = false := by
    cases hv : p.via with
    | localPort g =>
      have hg : s.senderOf p = g := by simp [State.senderOf, hv]
      rw [hg, hv] at hbound
      cases hb : (s.host g).bound with
      | none => simp [State.bellRefused, hb]
      | some v => rw [hb] at hbound; have := hbound rfl; simp [State.bellRefused, hb, this]
    | trunk n o => rfl
    | svc i => rfl
  have hwait : s.mustWait p = false := by
    unfold State.mustWait
    cases hv : p.via with
    | localPort g =>
      rw [hv] at hh hbehind
      have hpe : s.portEnable g = true := by
        unfold State.hears at hh
        simp only [hr, Bool.and_eq_true] at hh
        exact hh.2
      simp only [hr, hpe, hslot, hroom, hbehind]
      simp
    | trunk n o => rw [hv] at hbehind; simp only [hr, hslot, hroom, hbehind]; simp
    | svc i => rw [hv] at hbehind; simp only [hr, hslot, hroom, hbehind]; simp
  have hserve : serve op c p s = enter op (some c) none p s := by
    unfold serve
    simp [hring, hwait, hh]
  unfold Safety.intact at hint
  simp only [Bool.and_eq_true, beq_iff_eq, decide_eq_true_eq] at hint
  have hlen : (p.paramLen.toNat % 4 != 0 || decide (240 < p.paramLen.toNat) || p.delivered != 16 + p.paramLen.toNat ||
      p.params.length != p.paramLen.toNat) = false := by
    have : ¬ 240 < p.paramLen.toNat := by omega
    simp [hint.1.1.1.1, hint.1.1.2, hint.1.2, this]
  have hcrc : (crc32c (head12 op p ++ p.params) != p.crc) = false := by simp [hint.2]
  have hdest : (p.destId != 0xFFFF#16 && p.destId != s.dev.id) = false := by
    rcases hd with h | h <;> simp [h]
  have hstart : ({ s with ops := s.ops ++ [newOp op (s.senderOf p) p s] } : State).mayStart (newOp op (s.senderOf p) p s) = true := by
    have : (newOp op (s.senderOf p) p s).flags.getLsbD 1 = false := hord
    unfold State.mayStart
    rw [this]
    rfl
  have hsem : (needsForce op && !s.sem0 (s.senderOf p)) = false := by
    cases hc : needsForce op with
    | false => rfl
    | true => simp [hforce (hneed hc)]
  have hlock : ((s.host (s.senderOf p)).bound.isSome && (s.host (s.senderOf p)).bound != some p.via) = false := by
    cases hb : (s.host (s.senderOf p)).bound with
    | none => simp
    | some v => rw [hb] at hbound; have := hbound rfl; simp [this]
  rw [hserve]
  unfold enter
  simp only [hlen, hcrc, hdest, hacc, Bool.false_eq_true, if_false, hd0, hstart, hnone, Bool.and_true, if_true]
  let s0 : State := takenFrom (s.senderOf p) (p.flags.getLsbD 2) s
  show startOp c (newOp op (s.senderOf p) p s) { s0 with ops := s0.ops ++ [newOp op (s.senderOf p) p s] } = _
  unfold startOp
  have hitem' : Safety.noItem ({ s0 with ops := s0.ops ++ [newOp op (s.senderOf p) p s] } : State)
      (newOp op (s.senderOf p) p s).host (newOp op (s.senderOf p) p s).tag = true := hitem
  have hfresh' : s0.opOf (newOp op (s.senderOf p) p s).host (newOp op (s.senderOf p) p s).tag = none := hfresh
  rw [takeItem_none hitem', markStarted_append (s := s0) (o := newOp op (s.senderOf p) p s) hfresh']
  have hsem2 : (needsForce (newOp op (s.senderOf p) p s).opcode.toNat &&
      !({ s0 with ops := s0.ops ++ [newOp op (s.senderOf p) p s] } : State).sem0 (newOp op (s.senderOf p) p s).host) = false := by
    simp only [newOp, hop']; exact hsem
  have hlock2 :
      ((({ s0 with ops := s0.ops ++ [newOp op (s.senderOf p) p s] } : State).host (newOp op (s.senderOf p) p s).host).bound.isSome &&
      (({ s0 with ops := s0.ops ++ [newOp op (s.senderOf p) p s] } : State).host (newOp op (s.senderOf p) p s).host).bound !=
        some (newOp op (s.senderOf p) p s).via) = false := hlock
  simp only [hsem2, hlock2, Bool.false_eq_true, if_false]
  simp only [newOp, hop']
  rfl

/-! ### Answers -/

theorem Posted.cseq {k s : State} (hk : Posted k s) (h : HostId) : (s.host h).cseq = (k.host h).cseq :=
  (congrArg HostRec.cseq (hk.hosts h) : (s.host h).still.cseq = (k.host h).still.cseq)
theorem Posted.done {k s : State} (hk : Posted k s) (h : HostId) : (s.host h).done = (k.host h).done :=
  (congrArg HostRec.done (hk.hosts h) : (s.host h).still.done = (k.host h).still.done)
theorem Posted.bound {k s : State} (hk : Posted k s) (h : HostId) : (s.host h).bound = (k.host h).bound :=
  (congrArg HostRec.bound (hk.hosts h) : (s.host h).still.bound = (k.host h).still.bound)
theorem Posted.port {k s : State} (hk : Posted k s) (p : Nat) : s.port p = k.port p := by unfold State.port; rw [hk.ports]
theorem Posted.trans {a b c : State} (h : Posted a b) (g : Posted b c) : Posted a c := by
  constructor <;> first
    | (intro x; exact (g.hosts x).trans (h.hosts x))
    | (intro x; exact (g.trunks x).trans (h.trunks x))
    | (intro x; exact (g.insts x).trans (h.insts x))
    | exact g.net.trans h.net
    | (cases h; cases g; simp_all)

theorem dropOp_opOf (h : HostId) (tag : Half) (s : State) : (dropOp h tag s).opOf h tag = none := by
  simp only [dropOp, State.opOf, List.find?_eq_none, List.mem_filter, Bool.and_eq_true, beq_iff_eq, not_and]
  intro x hx h1 h2
  simp [h1, h2] at hx

/-- The state in which a final answer is sent. -/
def ended (o x : Op) (status : Nat) (result : List Byte) (s : State) : State :=
  record o.host o.opcode.toNat o.tag status result (countForced x (dropOp o.host o.tag s))

/-- A final answer records the completion and returns a reply, which changes nothing else. -/
theorem answer_final {o x : Op} {s : State} (hx : s.opOf o.host o.tag = some x) (status : Nat) (result : List Byte) :
    Posted (ended o x status result s) (answer o (.final status result) s) := by
  unfold answer
  simp only [hx]
  exact posted_reply (Posted.refl _) _ _ _ _ _ _ _ _ _

theorem ended_host (o x : Op) (status : Nat) (result : List Byte) (s : State) :
    ((ended o x status result s).host o.host).cseq = (s.host o.host).cseq + 1 ∧
    ((ended o x status result s).host o.host).done.head? =
      some { tag := o.tag, opcode := BitVec.ofNat 16 o.opcode.toNat, status := BitVec.ofNat 16 status,
             cseq := (s.host o.host).cseq + 1, result := some (pad4 result) } := by
  have hd : (dropOp o.host o.tag s).host o.host = s.host o.host := by unfold dropOp State.host; split <;> rfl
  have hc : ((countForced x (dropOp o.host o.tag s)).host o.host).cseq = (s.host o.host).cseq := by
    unfold countForced
    split
    · rcases hx : x.host with _ | _ <;> rcases ho : o.host with _ | _ <;> rfl
    · rw [hd]
  unfold ended record
  simp [host_modHost, hc, keepRecords]

theorem ended_opOf (o x : Op) (status : Nat) (result : List Byte) (s : State) :
    (ended o x status result s).opOf o.host o.tag = none := by
  have : (ended o x status result s).ops = (dropOp o.host o.tag s).ops := by
    unfold ended record countForced
    split <;> simp
  have h := dropOp_opOf o.host o.tag s
  unfold State.opOf at *
  rw [this]; exact h

theorem newOp_opcode {op : Nat} (hop : op < 65536) (h : HostId) (p : Packet) (s : State) :
    (newOp op h p s).opcode.toNat = op := by simp [newOp, Nat.mod_eq_of_lt hop]

/-- A final answer completes the command. -/
theorem completed_final {op : Nat} {h : HostId} {p : Packet} {s s2 : State} {x : Op} (hx : s2.opOf h p.tag = some x)
    (hc : (s2.host h).cseq = (s.host h).cseq) (status : Nat) (result : List Byte) :
    Safety.Completed op h p status result s (answer (newOp op h p s) (.final status result) s2) := by
  have hp := answer_final (o := newOp op h p s) hx status result
  have he := ended_host (newOp op h p s) x status result s2
  have ho := ended_opOf (newOp op h p s) x status result s2
  have h16 : BitVec.ofNat 16 (newOp op h p s).opcode.toNat = BitVec.ofNat 16 op := by
    simp only [newOp, BitVec.ofNat_toNat, BitVec.setWidth_eq]
  refine ⟨?_, ?_, ?_⟩
  · rw [hp.cseq]; exact he.1.trans (by rw [show (newOp op h p s).host = h from rfl, hc])
  · rw [hp.done]; rw [h16] at he; exact he.2.trans (by rw [show (newOp op h p s).host = h from rfl, hc]; rfl)
  · unfold State.opOf at *; rw [hp.ops]; exact ho

/-- What a completed command leaves of the state its handler made. -/
theorem answer_final_part {o x : Op} {s : State} (hx : s.opOf o.host o.tag = some x) (st : Nat) (r : List Byte) :
    (answer o (.final st r) s).part = s.part := by
  rw [(answer_final hx st r).part]; unfold ended record countForced; split <;> simp <;> rfl
theorem answer_final_otp {o x : Op} {s : State} (hx : s.opOf o.host o.tag = some x) (st : Nat) (r : List Byte) :
    (answer o (.final st r) s).otp = s.otp := by
  rw [(answer_final hx st r).otp]; unfold ended record countForced; split <;> simp <;> rfl
theorem answer_final_dev {o x : Op} {s : State} (hx : s.opOf o.host o.tag = some x) (st : Nat) (r : List Byte) :
    (answer o (.final st r) s).dev = s.dev := by
  rw [(answer_final hx st r).dev]; unfold ended record countForced; split <;> simp <;> rfl
theorem answer_final_power {o x : Op} {s : State} (hx : s.opOf o.host o.tag = some x) (st : Nat) (r : List Byte) :
    (answer o (.final st r) s).power = s.power := by
  rw [(answer_final hx st r).power]; unfold ended record countForced; split <;> simp <;> rfl
theorem answer_final_warm {o x : Op} {s : State} (hx : s.opOf o.host o.tag = some x) (st : Nat) (r : List Byte) :
    (answer o (.final st r) s).warm = s.warm := by
  rw [(answer_final hx st r).warm]; unfold ended record countForced; split <;> simp <;> rfl
theorem answer_final_lich {o x : Op} {s : State} (hx : s.opOf o.host o.tag = some x) (st : Nat) (r : List Byte) :
    (answer o (.final st r) s).lich = s.lich := by
  rw [(answer_final hx st r).lich]; unfold ended record countForced; split <;> simp <;> rfl
theorem answer_final_arrivals {o x : Op} {s : State} (hx : s.opOf o.host o.tag = some x) (st : Nat) (r : List Byte) :
    (answer o (.final st r) s).arrivals = s.arrivals := by
  rw [(answer_final hx st r).arrivals]; unfold ended record countForced; split <;> simp <;> rfl
theorem answer_final_sems {o x : Op} {s : State} (hx : s.opOf o.host o.tag = some x) (st : Nat) (r : List Byte) :
    (answer o (.final st r) s).sems = s.sems := by
  rw [(answer_final hx st r).sems]; unfold ended record countForced; split <;> simp <;> rfl
theorem answer_final_ports {o x : Op} {s : State} (hx : s.opOf o.host o.tag = some x) (st : Nat) (r : List Byte) :
    (answer o (.final st r) s).ports = s.ports := by
  rw [(answer_final hx st r).ports]; unfold ended record countForced; split <;> simp <;> rfl
theorem answer_final_ctxs {o x : Op} {s : State} (hx : s.opOf o.host o.tag = some x) (st : Nat) (r : List Byte) :
    (answer o (.final st r) s).ctxs = s.ctxs := by
  rw [(answer_final hx st r).ctxs]; unfold ended record countForced; split <;> simp <;> rfl
theorem answer_final_xfers {o x : Op} {s : State} (hx : s.opOf o.host o.tag = some x) (st : Nat) (r : List Byte) :
    (answer o (.final st r) s).xfers = s.xfers := by
  rw [(answer_final hx st r).xfers]; unfold ended record countForced; split <;> simp <;> rfl
theorem answer_final_pool {o x : Op} {s : State} (hx : s.opOf o.host o.tag = some x) (st : Nat) (r : List Byte) :
    (answer o (.final st r) s).pool = s.pool := by
  rw [(answer_final hx st r).pool]; unfold ended record countForced; split <;> simp <;> rfl
theorem answer_final_ctrl {o x : Op} {s : State} (hx : s.opOf o.host o.tag = some x) (st : Nat) (r : List Byte) :
    (answer o (.final st r) s).ctrl = s.ctrl := by
  rw [(answer_final hx st r).ctrl]; unfold ended record countForced; split <;> simp <;> rfl
theorem answer_final_mail {o x : Op} {s : State} (hx : s.opOf o.host o.tag = some x) (st : Nat) (r : List Byte) :
    (answer o (.final st r) s).mail = s.mail := by
  rw [(answer_final hx st r).mail]; unfold ended record countForced; split <;> simp <;> rfl
theorem answer_final_mbx {o x : Op} {s : State} (hx : s.opOf o.host o.tag = some x) (st : Nat) (r : List Byte) :
    (answer o (.final st r) s).mbx = s.mbx := by
  rw [(answer_final hx st r).mbx]; unfold ended record countForced; split <;> simp <;> rfl
theorem answer_final_peat {o x : Op} {s : State} (hx : s.opOf o.host o.tag = some x) (st : Nat) (r : List Byte) :
    (answer o (.final st r) s).peat = s.peat := by
  rw [(answer_final hx st r).peat]; unfold ended record countForced; split <;> simp <;> rfl
theorem answer_final_stok {o x : Op} {s : State} (hx : s.opOf o.host o.tag = some x) (st : Nat) (r : List Byte) :
    (answer o (.final st r) s).stok = s.stok := by
  rw [(answer_final hx st r).stok]; unfold ended record countForced; split <;> simp <;> rfl
theorem answer_final_ledger {o x : Op} {s : State} (hx : s.opOf o.host o.tag = some x) (st : Nat) (r : List Byte) :
    (answer o (.final st r) s).ledger = s.ledger := by
  rw [(answer_final hx st r).ledger]; unfold ended record countForced; split <;> simp <;> rfl
theorem answer_final_test {o x : Op} {s : State} (hx : s.opOf o.host o.tag = some x) (st : Nat) (r : List Byte) :
    (answer o (.final st r) s).test = s.test := by
  rw [(answer_final hx st r).test]; unfold ended record countForced; split <;> simp <;> rfl
theorem answer_final_testQ {o x : Op} {s : State} (hx : s.opOf o.host o.tag = some x) (st : Nat) (r : List Byte) :
    (answer o (.final st r) s).testQ = s.testQ := by
  rw [(answer_final hx st r).testQ]; unfold ended record countForced; split <;> simp <;> rfl
theorem answer_final_cal {o x : Op} {s : State} (hx : s.opOf o.host o.tag = some x) (st : Nat) (r : List Byte) :
    (answer o (.final st r) s).cal = s.cal := by
  rw [(answer_final hx st r).cal]; unfold ended record countForced; split <;> simp <;> rfl
theorem answer_final_flts {o x : Op} {s : State} (hx : s.opOf o.host o.tag = some x) (st : Nat) (r : List Byte) :
    (answer o (.final st r) s).flts = s.flts := by
  rw [(answer_final hx st r).flts]; unfold ended record countForced; split <;> simp <;> rfl
theorem answer_final_fltIn {o x : Op} {s : State} (hx : s.opOf o.host o.tag = some x) (st : Nat) (r : List Byte) :
    (answer o (.final st r) s).fltIn = s.fltIn := by
  rw [(answer_final hx st r).fltIn]; unfold ended record countForced; split <;> simp <;> rfl
theorem answer_final_cans {o x : Op} {s : State} (hx : s.opOf o.host o.tag = some x) (st : Nat) (r : List Byte) :
    (answer o (.final st r) s).cans = s.cans := by
  rw [(answer_final hx st r).cans]; unfold ended record countForced; split <;> simp <;> rfl
theorem answer_final_time {o x : Op} {s : State} (hx : s.opOf o.host o.tag = some x) (st : Nat) (r : List Byte) :
    (answer o (.final st r) s).time = s.time := by
  rw [(answer_final hx st r).time]; unfold ended record countForced; split <;> simp <;> rfl
theorem answer_final_feedA {o x : Op} {s : State} (hx : s.opOf o.host o.tag = some x) (st : Nat) (r : List Byte) :
    (answer o (.final st r) s).feedA = s.feedA := by
  rw [(answer_final hx st r).feedA]; unfold ended record countForced; split <;> simp <;> rfl
theorem answer_final_feedB {o x : Op} {s : State} (hx : s.opOf o.host o.tag = some x) (st : Nat) (r : List Byte) :
    (answer o (.final st r) s).feedB = s.feedB := by
  rw [(answer_final hx st r).feedB]; unfold ended record countForced; split <;> simp <;> rfl
theorem answer_final_board {o x : Op} {s : State} (hx : s.opOf o.host o.tag = some x) (st : Nat) (r : List Byte) :
    (answer o (.final st r) s).board = s.board := by
  rw [(answer_final hx st r).board]; unfold ended record countForced; split <;> simp <;> rfl
theorem answer_final_svc {o x : Op} {s : State} (hx : s.opOf o.host o.tag = some x) (st : Nat) (r : List Byte) :
    (answer o (.final st r) s).svc = s.svc := by
  rw [(answer_final hx st r).svc]; unfold ended record countForced; split <;> simp <;> rfl
theorem answer_final_fw {o x : Op} {s : State} (hx : s.opOf o.host o.tag = some x) (st : Nat) (r : List Byte) :
    (answer o (.final st r) s).fw = s.fw := by
  rw [(answer_final hx st r).fw]; unfold ended record countForced; split <;> simp <;> rfl
theorem answer_final_sec {o x : Op} {s : State} (hx : s.opOf o.host o.tag = some x) (st : Nat) (r : List Byte) :
    (answer o (.final st r) s).sec = s.sec := by
  rw [(answer_final hx st r).sec]; unfold ended record countForced; split <;> simp <;> rfl
theorem answer_final_cfg {o x : Op} {s : State} (hx : s.opOf o.host o.tag = some x) (st : Nat) (r : List Byte) :
    (answer o (.final st r) s).cfg = s.cfg := by
  rw [(answer_final hx st r).cfg]; unfold ended record countForced; split <;> simp <;> rfl
theorem answer_final_cfgCopy {o x : Op} {s : State} (hx : s.opOf o.host o.tag = some x) (st : Nat) (r : List Byte) :
    (answer o (.final st r) s).cfgCopy = s.cfgCopy := by
  rw [(answer_final hx st r).cfgCopy]; unfold ended record countForced; split <;> simp <;> rfl
theorem answer_final_regHeld {o x : Op} {s : State} (hx : s.opOf o.host o.tag = some x) (st : Nat) (r : List Byte) :
    (answer o (.final st r) s).regHeld = s.regHeld := by
  rw [(answer_final hx st r).regHeld]; unfold ended record countForced; split <;> simp <;> rfl
theorem answer_final_cfgHeld {o x : Op} {s : State} (hx : s.opOf o.host o.tag = some x) (st : Nat) (r : List Byte) :
    (answer o (.final st r) s).cfgHeld = s.cfgHeld := by
  rw [(answer_final hx st r).cfgHeld]; unfold ended record countForced; split <;> simp <;> rfl

end Sys2Proof.Machine
end

