-- ==== Sys2Proof/Laws/Kept.lean ====
section
/-!
SUPPORT. `Kept k s`: `s` is a legal state that a step from `k` may have reached: the queue and the part are those of `k`, and
OTP comes after that of `k`. One lemma for each operation that makes a state says that it keeps this (Laws/Kept*.lean).
-/
set_option linter.all false
namespace Sys2Proof.Machine

def Kept (k s : State) : Prop :=
  s.pending = k.pending ∧ s.part = k.part ∧ Safety.otpAfter k.otp s.otp ∧ Safety.Legal s

/-- What `Kept` reads: five fields. A state that agrees with a kept one in them is kept. -/
theorem kept_of {k s t : State} (h : Kept k s) (hp : t.pending = s.pending) (hq : t.part = s.part) (ho : t.otp = s.otp)
    (hs : t.sems = s.sems) (hm : t.mail = s.mail) : Kept k t := by
  unfold Kept Safety.Legal Safety.semsLegal at *
  rw [hp, hq, ho, hs, hm]; exact h

/-- A state built from one with other fields changed. -/
theorem kept_mk {k s : State} {a0 a1 a2 a3 a4 a5 a6 a7 a8 a9 a10 a11 a12 a13 a14 a15 a16 a17 a18 a19 a20 a21 a22 a23 a24 a25 a26 a27 a28 a29 a30 a31 a32 a33 a34 a35 a36 a37 a38 a39 a40 a41 a42 a43 a44} :
    Kept k
      (⟨s.pending, a0, a1, s.part, s.otp, a2, a3, a4, a5, a6, a7, a8, a9, a10, s.sems, a11, a12, a13, a14, a15, a16, s.mail,
        a17, a18, a19, a20, a21, a22, a23, a24, a25, a26, a27, a28, a29, a30, a31, a32, a33, a34, a35, a36, a37, a38,
        a39, a40, a41, a42, a43, a44⟩ : State) ↔ Kept k s := Iff.rfl

/-- After a reset: no semaphore is held and the mailbox RAM reads 0. -/
theorem kept_reset {k s : State} {a0 a1 a2 a3 a4 a5 a6 a7 a8 a9 a10 a11 a12 a13 a14 a15 a16 a17 a18 a19 a20 a21 a22 a23 a24 a25 a26 a27 a28 a29 a30 a31 a32 a33 a34 a35 a36 a37 a38 a39 a40 a41 a42 a43 a44} (h : Kept k s) :
    Kept k
      (⟨s.pending, a0, a1, s.part, s.otp, a2, a3, a4, a5, a6, a7, a8, a9, a10, [], a11, a12, a13, a14, a15, a16, [], a17, a18,
        a19, a20, a21, a22, a23, a24, a25, a26, a27, a28, a29, a30, a31, a32, a33, a34, a35, a36, a37, a38, a39, a40,
        a41, a42, a43, a44⟩ : State) :=
  ⟨h.1, h.2.1, h.2.2.1, rfl, rfl, h.2.2.2.2.2⟩
/-- The same with the mailbox RAM as it was. -/
theorem kept_noSems {k s : State} {a0 a1 a2 a3 a4 a5 a6 a7 a8 a9 a10 a11 a12 a13 a14 a15 a16 a17 a18 a19 a20 a21 a22 a23 a24 a25 a26 a27 a28 a29 a30 a31 a32 a33 a34 a35 a36 a37 a38 a39 a40 a41 a42 a43 a44} (h : Kept k s) :
    Kept k
      (⟨s.pending, a0, a1, s.part, s.otp, a2, a3, a4, a5, a6, a7, a8, a9, a10, [], a11, a12, a13, a14, a15, a16, s.mail, a17,
        a18, a19, a20, a21, a22, a23, a24, a25, a26, a27, a28, a29, a30, a31, a32, a33, a34, a35, a36, a37, a38, a39,
        a40, a41, a42, a43, a44⟩ : State) :=
  ⟨h.1, h.2.1, h.2.2.1, h.2.2.2.1, rfl, h.2.2.2.2.2⟩

theorem kept_foldL {α : Type} {k : State} {f : State → α → State} (hf : ∀ t a, Kept k t → Kept k (f t a)) :
    ∀ (l : List α) {s : State}, Kept k s → Kept k (l.foldl f s)
  | [], _, h => h
  | a :: l, s, h => kept_foldL hf l (hf s a h)

theorem kept_foldS {α : Type} {k : State} {f : α → State → State} (hf : ∀ a t, Kept k t → Kept k (f a t)) :
    ∀ (l : List α) {s : State}, Kept k s → Kept k (foldS l f s)
  | [], _, h => h
  | a :: l, s, h => kept_foldS hf l (hf a s h)

theorem kept_foldP {α β : Type} {k : State} {f : State × β → α → State × β}
    (hf : ∀ p a, Kept k p.1 → Kept k (f p a).1) :
    ∀ (l : List α) {p : State × β}, Kept k p.1 → Kept k (l.foldl f p).1
  | [], _, h => h
  | a :: l, p, h => kept_foldP hf l (hf p a h)

/-- A command's handler keeps it. -/
abbrev SpecKept (c : CmdSpec) : Prop := ∀ {k : State} (x : Cmd) {s : State}, Kept k s → Kept k (c.run x s).1

theorem kept_ite {k a b : State} {c : Prop} [Decidable c] (ha : Kept k a) (hb : Kept k b) : Kept k (if c then a else b) := by
  split
  · exact ha
  · exact hb

theorem kept_fst {α : Type} {k s : State} {y : α} {e : State × α} (he : e = (s, y)) (h : Kept k e.1) : Kept k s := by
  rw [he] at h; exact h

theorem hOwner_le (h : HostId) : hOwner h ≤ 2 := by cases h <;> decide

theorem tset_all {α : Type} {p : Nat × α → Bool} {v : α} {n : Nat} (hv : p (n, v) = true) :
    ∀ {t : Tab α}, t.all p = true → (tset t n v).all p = true
  | [], _ => by simp [tset, hv]
  | (j, a) :: r, h => by
    simp only [List.all_cons, Bool.and_eq_true] at h
    unfold tset
    split
    · simp [hv, h.1, h.2]
    · split
      · simp [hv, h.2]
      · simp [h.1, tset_all hv h.2]

end Sys2Proof.Machine
end

