-- ==== Sys2Proof/Laws/KeptOps.lean ====
section
/-!
SUPPORT. `Kept` (Laws/Kept.lean) for the operations on records, queues, events, commands and bindings.
-/
set_option linter.all false
namespace Sys2Proof.Machine

theorem kept_setPort {k s : State} (hk : Kept k s) (p : Nat) (r : Port) : Kept k (setPort p r s) := by
  unfold setPort
  try simp only []
  repeat' (with_reducible first
    | assumption | (apply kept_foldS; intro _ _ _) | (apply kept_foldP; intro _ _ _)
    | (apply kept_foldL; intro _ _ _) | simp only [kept_mk] | refine kept_fst (by assumption) ?_ | intro _
    | apply kept_ite | split)

theorem kept_modPort {k s : State} (hk : Kept k s) (p : Nat) (f : Port → Port) : Kept k (modPort p f s) := by
  unfold modPort
  try simp only []
  repeat' (with_reducible first
    | assumption | apply kept_setPort | (apply kept_foldS; intro _ _ _) | (apply kept_foldP; intro _ _ _)
    | (apply kept_foldL; intro _ _ _) | simp only [kept_mk] | refine kept_fst (by assumption) ?_ | intro _
    | apply kept_ite | split)

theorem kept_setCtx {k s : State} (hk : Kept k s) (e : Nat) (c : Ctx) : Kept k (setCtx e c s) := by
  unfold setCtx
  try simp only []
  repeat' (with_reducible first
    | assumption | (apply kept_foldS; intro _ _ _) | (apply kept_foldP; intro _ _ _)
    | (apply kept_foldL; intro _ _ _) | simp only [kept_mk] | refine kept_fst (by assumption) ?_ | intro _
    | apply kept_ite | split)

theorem kept_modCtx {k s : State} (hk : Kept k s) (e : Nat) (f : Ctx → Ctx) : Kept k (modCtx e f s) := by
  unfold modCtx
  try simp only []
  repeat' (with_reducible first
    | assumption | apply kept_setCtx | (apply kept_foldS; intro _ _ _) | (apply kept_foldP; intro _ _ _)
    | (apply kept_foldL; intro _ _ _) | simp only [kept_mk] | refine kept_fst (by assumption) ?_ | intro _
    | apply kept_ite | split)

theorem kept_setHost {k s : State} (hk : Kept k s) (h' : HostId) (r : HostRec) : Kept k (setHost h' r s) := by
  unfold setHost
  try simp only []
  repeat' (with_reducible first
    | assumption | (apply kept_foldS; intro _ _ _) | (apply kept_foldP; intro _ _ _)
    | (apply kept_foldL; intro _ _ _) | simp only [kept_mk] | refine kept_fst (by assumption) ?_ | intro _
    | apply kept_ite | split)

theorem kept_modHost {k s : State} (hk : Kept k s) (h' : HostId) (f : HostRec → HostRec) : Kept k (modHost h' f s) := by
  unfold modHost
  try simp only []
  repeat' (with_reducible first
    | assumption | apply kept_setHost | (apply kept_foldS; intro _ _ _) | (apply kept_foldP; intro _ _ _)
    | (apply kept_foldL; intro _ _ _) | simp only [kept_mk] | refine kept_fst (by assumption) ?_ | intro _
    | apply kept_ite | split)

theorem kept_setFeed {k s : State} (hk : Kept k s) (h' : HostId) (r : Feed) : Kept k (setFeed h' r s) := by
  unfold setFeed
  try simp only []
  repeat' (with_reducible first
    | assumption | (apply kept_foldS; intro _ _ _) | (apply kept_foldP; intro _ _ _)
    | (apply kept_foldL; intro _ _ _) | simp only [kept_mk] | refine kept_fst (by assumption) ?_ | intro _
    | apply kept_ite | split)

theorem kept_modFeed {k s : State} (hk : Kept k s) (h' : HostId) (f : Feed → Feed) : Kept k (modFeed h' f s) := by
  unfold modFeed
  try simp only []
  repeat' (with_reducible first
    | assumption | apply kept_setFeed | (apply kept_foldS; intro _ _ _) | (apply kept_foldP; intro _ _ _)
    | (apply kept_foldL; intro _ _ _) | simp only [kept_mk] | refine kept_fst (by assumption) ?_ | intro _
    | apply kept_ite | split)

theorem kept_setEngine {k s : State} (hk : Kept k s) (e : Nat) (r : Engine) : Kept k (setEngine e r s) := by
  unfold setEngine
  try simp only []
  repeat' (with_reducible first
    | assumption | (apply kept_foldS; intro _ _ _) | (apply kept_foldP; intro _ _ _)
    | (apply kept_foldL; intro _ _ _) | simp only [kept_mk] | refine kept_fst (by assumption) ?_ | intro _
    | apply kept_ite | split)

theorem kept_modEngine {k s : State} (hk : Kept k s) (e : Nat) (f : Engine → Engine) : Kept k (modEngine e f s) := by
  unfold modEngine
  try simp only []
  repeat' (with_reducible first
    | assumption | apply kept_setEngine | (apply kept_foldS; intro _ _ _) | (apply kept_foldP; intro _ _ _)
    | (apply kept_foldL; intro _ _ _) | simp only [kept_mk] | refine kept_fst (by assumption) ?_ | intro _
    | apply kept_ite | split)

theorem kept_modPbank {k s : State} (hk : Kept k s) (b : Nat) (f : Bank → Bank) : Kept k (modPbank b f s) := by
  unfold modPbank
  try simp only []
  repeat' (with_reducible first
    | assumption | (apply kept_foldS; intro _ _ _) | (apply kept_foldP; intro _ _ _)
    | (apply kept_foldL; intro _ _ _) | simp only [kept_mk] | refine kept_fst (by assumption) ?_ | intro _
    | apply kept_ite | split)

theorem kept_modCbank {k s : State} (hk : Kept k s) (b : Nat) (f : Bank → Bank) : Kept k (modCbank b f s) := by
  unfold modCbank
  try simp only []
  repeat' (with_reducible first
    | assumption | (apply kept_foldS; intro _ _ _) | (apply kept_foldP; intro _ _ _)
    | (apply kept_foldL; intro _ _ _) | simp only [kept_mk] | refine kept_fst (by assumption) ?_ | intro _
    | apply kept_ite | split)

theorem kept_setCan {k s : State} (hk : Kept k s) (c : Nat) (r : Can) : Kept k (setCan c r s) := by
  unfold setCan
  try simp only []
  repeat' (with_reducible first
    | assumption | (apply kept_foldS; intro _ _ _) | (apply kept_foldP; intro _ _ _)
    | (apply kept_foldL; intro _ _ _) | simp only [kept_mk] | refine kept_fst (by assumption) ?_ | intro _
    | apply kept_ite | split)

theorem kept_modCan {k s : State} (hk : Kept k s) (c : Nat) (f : Can → Can) : Kept k (modCan c f s) := by
  unfold modCan
  try simp only []
  repeat' (with_reducible first
    | assumption | apply kept_setCan | (apply kept_foldS; intro _ _ _) | (apply kept_foldP; intro _ _ _)
    | (apply kept_foldL; intro _ _ _) | simp only [kept_mk] | refine kept_fst (by assumption) ?_ | intro _
    | apply kept_ite | split)

theorem kept_modObj {k s : State} (hk : Kept k s) (c : Nat) (k' : Nat) (f : CanObj → CanObj) : Kept k (modObj c k' f s) := by
  unfold modObj
  try simp only []
  repeat' (with_reducible first
    | assumption | apply kept_modCan | (apply kept_foldS; intro _ _ _) | (apply kept_foldP; intro _ _ _)
    | (apply kept_foldL; intro _ _ _) | simp only [kept_mk] | refine kept_fst (by assumption) ?_ | intro _
    | apply kept_ite | split)

theorem kept_setTrunk {k s : State} (hk : Kept k s) (n : Nat) (r : Trunk) : Kept k (setTrunk n r s) := by
  unfold setTrunk
  try simp only []
  repeat' (with_reducible first
    | assumption | (apply kept_foldS; intro _ _ _) | (apply kept_foldP; intro _ _ _)
    | (apply kept_foldL; intro _ _ _) | simp only [kept_mk] | refine kept_fst (by assumption) ?_ | intro _
    | apply kept_ite | split)

theorem kept_modTrunk {k s : State} (hk : Kept k s) (n : Nat) (f : Trunk → Trunk) : Kept k (modTrunk n f s) := by
  unfold modTrunk
  try simp only []
  repeat' (with_reducible first
    | assumption | apply kept_setTrunk | (apply kept_foldS; intro _ _ _) | (apply kept_foldP; intro _ _ _)
    | (apply kept_foldL; intro _ _ _) | simp only [kept_mk] | refine kept_fst (by assumption) ?_ | intro _
    | apply kept_ite | split)

theorem kept_modInst {k s : State} (hk : Kept k s) (i : Nat) (f : Instance → Instance) : Kept k (modInst i f s) := by
  unfold modInst
  try simp only []
  repeat' (with_reducible first
    | assumption | (apply kept_foldS; intro _ _ _) | (apply kept_foldP; intro _ _ _)
    | (apply kept_foldL; intro _ _ _) | simp only [kept_mk] | refine kept_fst (by assumption) ?_ | intro _
    | apply kept_ite | split)

theorem kept_setFlt {k s : State} (hk : Kept k s) (k' : Nat) (r : Flt) : Kept k (setFlt k' r s) := by
  unfold setFlt
  try simp only []
  repeat' (with_reducible first
    | assumption | (apply kept_foldS; intro _ _ _) | (apply kept_foldP; intro _ _ _)
    | (apply kept_foldL; intro _ _ _) | simp only [kept_mk] | refine kept_fst (by assumption) ?_ | intro _
    | apply kept_ite | split)

theorem kept_modFlt {k s : State} (hk : Kept k s) (k' : Nat) (f : Flt → Flt) : Kept k (modFlt k' f s) := by
  unfold modFlt
  try simp only []
  repeat' (with_reducible first
    | assumption | apply kept_setFlt | (apply kept_foldS; intro _ _ _) | (apply kept_foldP; intro _ _ _)
    | (apply kept_foldL; intro _ _ _) | simp only [kept_mk] | refine kept_fst (by assumption) ?_ | intro _
    | apply kept_ite | split)

theorem kept_setSem {k s : State} (hk : Kept k s) (n : Nat) (r : Sem) (hr : r.owner ≤ 2) : Kept k (setSem n r s) := by
  obtain ⟨h1, h2, h3, h4, h5, h6⟩ := hk
  exact ⟨h1, h2, h3, h4, tset_all (by simpa using hr) h5, h6⟩

theorem sem_owner_le {k s : State} (hk : Kept k s) (n : Nat) : (s.sem n).owner ≤ 2 := by
  obtain ⟨-, -, -, -, h5, -⟩ := hk
  have key : ∀ t : Tab Sem, (t.all fun e => decide (e.2.owner ≤ 2)) = true → (tget t {} n).owner ≤ 2 := by
    intro t
    induction t with
    | nil => intro _; simp [tget, tfind]
    | cons e r ih =>
      intro h
      simp only [List.all_cons, Bool.and_eq_true, decide_eq_true_eq] at h
      unfold tget tfind
      split
      · simpa using h.1
      · exact ih h.2
  exact key _ h5

theorem kept_modSlot {k s : State} (hk : Kept k s) (k' : Nat) (f : Slot → Slot) : Kept k (modSlot k' f s) := by
  unfold modSlot
  try simp only []
  repeat' (with_reducible first
    | assumption | (apply kept_foldS; intro _ _ _) | (apply kept_foldP; intro _ _ _)
    | (apply kept_foldL; intro _ _ _) | simp only [kept_mk] | refine kept_fst (by assumption) ?_ | intro _
    | apply kept_ite | split)

theorem kept_modStok {k s : State} (hk : Kept k s) (f : Stoker → Stoker) : Kept k (modStok f s) := by
  unfold modStok
  try simp only []
  repeat' (with_reducible first
    | assumption | (apply kept_foldS; intro _ _ _) | (apply kept_foldP; intro _ _ _)
    | (apply kept_foldL; intro _ _ _) | simp only [kept_mk] | refine kept_fst (by assumption) ?_ | intro _
    | apply kept_ite | split)

theorem kept_modLedger {k s : State} (hk : Kept k s) (f : Ledger → Ledger) : Kept k (modLedger f s) := by
  unfold modLedger
  try simp only []
  repeat' (with_reducible first
    | assumption | (apply kept_foldS; intro _ _ _) | (apply kept_foldP; intro _ _ _)
    | (apply kept_foldL; intro _ _ _) | simp only [kept_mk] | refine kept_fst (by assumption) ?_ | intro _
    | apply kept_ite | split)

theorem kept_modLich {k s : State} (hk : Kept k s) (f : Lichen → Lichen) : Kept k (modLich f s) := by
  unfold modLich
  try simp only []
  repeat' (with_reducible first
    | assumption | (apply kept_foldS; intro _ _ _) | (apply kept_foldP; intro _ _ _)
    | (apply kept_foldL; intro _ _ _) | simp only [kept_mk] | refine kept_fst (by assumption) ?_ | intro _
    | apply kept_ite | split)

theorem kept_modDev {k s : State} (hk : Kept k s) (f : Dev → Dev) : Kept k (modDev f s) := by
  unfold modDev
  try simp only []
  repeat' (with_reducible first
    | assumption | (apply kept_foldS; intro _ _ _) | (apply kept_foldP; intro _ _ _)
    | (apply kept_foldL; intro _ _ _) | simp only [kept_mk] | refine kept_fst (by assumption) ?_ | intro _
    | apply kept_ite | split)

theorem kept_modTime {k s : State} (hk : Kept k s) (f : Time → Time) : Kept k (modTime f s) := by
  unfold modTime
  try simp only []
  repeat' (with_reducible first
    | assumption | (apply kept_foldS; intro _ _ _) | (apply kept_foldP; intro _ _ _)
    | (apply kept_foldL; intro _ _ _) | simp only [kept_mk] | refine kept_fst (by assumption) ?_ | intro _
    | apply kept_ite | split)

theorem kept_modNet {k s : State} (hk : Kept k s) (f : Net → Net) : Kept k (modNet f s) := by
  unfold modNet
  try simp only []
  repeat' (with_reducible first
    | assumption | (apply kept_foldS; intro _ _ _) | (apply kept_foldP; intro _ _ _)
    | (apply kept_foldL; intro _ _ _) | simp only [kept_mk] | refine kept_fst (by assumption) ?_ | intro _
    | apply kept_ite | split)

theorem kept_modFw {k s : State} (hk : Kept k s) (f : Fw → Fw) : Kept k (modFw f s) := by
  unfold modFw
  try simp only []
  repeat' (with_reducible first
    | assumption | (apply kept_foldS; intro _ _ _) | (apply kept_foldP; intro _ _ _)
    | (apply kept_foldL; intro _ _ _) | simp only [kept_mk] | refine kept_fst (by assumption) ?_ | intro _
    | apply kept_ite | split)

theorem kept_modPower {k s : State} (hk : Kept k s) (f : Power → Power) : Kept k (modPower f s) := by
  unfold modPower
  try simp only []
  repeat' (with_reducible first
    | assumption | (apply kept_foldS; intro _ _ _) | (apply kept_foldP; intro _ _ _)
    | (apply kept_foldL; intro _ _ _) | simp only [kept_mk] | refine kept_fst (by assumption) ?_ | intro _
    | apply kept_ite | split)

theorem kept_modBoard {k s : State} (hk : Kept k s) (f : Board → Board) : Kept k (modBoard f s) := by
  unfold modBoard
  try simp only []
  repeat' (with_reducible first
    | assumption | (apply kept_foldS; intro _ _ _) | (apply kept_foldP; intro _ _ _)
    | (apply kept_foldL; intro _ _ _) | simp only [kept_mk] | refine kept_fst (by assumption) ?_ | intro _
    | apply kept_ite | split)

theorem kept_modSvc {k s : State} (hk : Kept k s) (f : Svc → Svc) : Kept k (modSvc f s) := by
  unfold modSvc
  try simp only []
  repeat' (with_reducible first
    | assumption | (apply kept_foldS; intro _ _ _) | (apply kept_foldP; intro _ _ _)
    | (apply kept_foldL; intro _ _ _) | simp only [kept_mk] | refine kept_fst (by assumption) ?_ | intro _
    | apply kept_ite | split)

theorem kept_modPeat {k s : State} (hk : Kept k s) (f : Peat → Peat) : Kept k (modPeat f s) := by
  unfold modPeat
  try simp only []
  repeat' (with_reducible first
    | assumption | (apply kept_foldS; intro _ _ _) | (apply kept_foldP; intro _ _ _)
    | (apply kept_foldL; intro _ _ _) | simp only [kept_mk] | refine kept_fst (by assumption) ?_ | intro _
    | apply kept_ite | split)

theorem kept_modPd {k s : State} (hk : Kept k s) (p : Nat) (f : PdRec → PdRec) : Kept k (modPd p f s) := by
  unfold modPd
  try simp only []
  repeat' (with_reducible first
    | assumption | apply kept_modPort | (apply kept_foldS; intro _ _ _) | (apply kept_foldP; intro _ _ _)
    | (apply kept_foldL; intro _ _ _) | simp only [kept_mk] | refine kept_fst (by assumption) ?_ | intro _
    | apply kept_ite | split)

theorem kept_emit {k s : State} (hk : Kept k s) (o : Out) : Kept k (emit o s) := by
  unfold emit
  try simp only []
  repeat' (with_reducible first
    | assumption | (apply kept_foldS; intro _ _ _) | (apply kept_foldP; intro _ _ _)
    | (apply kept_foldL; intro _ _ _) | simp only [kept_mk] | refine kept_fst (by assumption) ?_ | intro _
    | apply kept_ite | split)

theorem kept_emitAll {k s : State} (hk : Kept k s) (os : List Out) : Kept k (emitAll os s) := by
  unfold emitAll
  try simp only []
  repeat' (with_reducible first
    | assumption | apply kept_emit | (apply kept_foldS; intro _ _ _) | (apply kept_foldP; intro _ _ _)
    | (apply kept_foldL; intro _ _ _) | simp only [kept_mk] | refine kept_fst (by assumption) ?_ | intro _
    | apply kept_ite | split)

theorem kept_useFree {k s : State} (hk : Kept k s) : Kept k (useFree s) := by
  unfold useFree
  try simp only []
  repeat' (with_reducible first
    | assumption | (apply kept_foldS; intro _ _ _) | (apply kept_foldP; intro _ _ _)
    | (apply kept_foldL; intro _ _ _) | simp only [kept_mk] | refine kept_fst (by assumption) ?_ | intro _
    | apply kept_ite | split)

theorem kept_setSqc {k s : State} (hk : Kept k s) (a : Nat) (bits : List Nat) : Kept k (setSqc a bits s) := by
  unfold setSqc
  try simp only []
  repeat' (with_reducible first
    | assumption | (apply kept_foldS; intro _ _ _) | (apply kept_foldP; intro _ _ _)
    | (apply kept_foldL; intro _ _ _) | simp only [kept_mk] | refine kept_fst (by assumption) ?_ | intro _
    | apply kept_ite | split)

theorem kept_bumpSeq {k s : State} (hk : Kept k s) (a : Nat) : Kept k (bumpSeq a s) := by
  unfold bumpSeq
  try simp only []
  repeat' (with_reducible first
    | assumption | apply kept_setSqc | (apply kept_foldS; intro _ _ _) | (apply kept_foldP; intro _ _ _)
    | (apply kept_foldL; intro _ _ _) | simp only [kept_mk] | refine kept_fst (by assumption) ?_ | intro _
    | apply kept_ite | split)

theorem kept_setCfg {k s : State} (hk : Kept k s) (a : Nat) (v : Word) : Kept k (setCfg a v s) := by
  unfold setCfg
  try simp only []
  repeat' (with_reducible first
    | assumption | (apply kept_foldS; intro _ _ _) | (apply kept_foldP; intro _ _ _)
    | (apply kept_foldL; intro _ _ _) | simp only [kept_mk] | refine kept_fst (by assumption) ?_ | intro _
    | apply kept_ite | split)

theorem kept_setQueue {k s : State} (hk : Kept k s) (q : Nat) (r : Queue) : Kept k (setQueue q r s) := by
  unfold setQueue
  try simp only []
  repeat' (with_reducible first
    | assumption | (apply kept_foldS; intro _ _ _) | (apply kept_foldP; intro _ _ _)
    | (apply kept_foldL; intro _ _ _) | simp only [kept_mk] | refine kept_fst (by assumption) ?_ | intro _
    | apply kept_ite | split)

theorem kept_modQueue {k s : State} (hk : Kept k s) (q : Nat) (f : Queue → Queue) : Kept k (modQueue q f s) := by
  unfold modQueue
  try simp only []
  repeat' (with_reducible first
    | assumption | apply kept_setQueue | (apply kept_foldS; intro _ _ _) | (apply kept_foldP; intro _ _ _)
    | (apply kept_foldL; intro _ _ _) | simp only [kept_mk] | refine kept_fst (by assumption) ?_ | intro _
    | apply kept_ite | split)

theorem kept_updateChoice {k s : State} (hk : Kept k s) : Kept k (updateChoice s) := by
  unfold updateChoice
  try simp only []
  repeat' (with_reducible first
    | assumption | apply kept_modStok | (apply kept_foldS; intro _ _ _) | (apply kept_foldP; intro _ _ _)
    | (apply kept_foldL; intro _ _ _) | simp only [kept_mk] | refine kept_fst (by assumption) ?_ | intro _
    | apply kept_ite | split)

theorem kept_beginFrame {k s : State} (hk : Kept k s) (n : Nat) (e : Egress) : Kept k (beginFrame n e s) := by
  unfold beginFrame
  try simp only []
  repeat' (with_reducible first
    | assumption | apply kept_modTrunk | apply kept_emit | (apply kept_foldS; intro _ _ _)
    | (apply kept_foldP; intro _ _ _) | (apply kept_foldL; intro _ _ _) | simp only [kept_mk]
    | refine kept_fst (by assumption) ?_ | intro _ | apply kept_ite | split)

theorem kept_startEgress {k s : State} (hk : Kept k s) (n : Nat) : Kept k (startEgress n s) := by
  unfold startEgress
  try simp only []
  repeat' (with_reducible first
    | assumption | apply kept_beginFrame | apply kept_modTrunk | (apply kept_foldS; intro _ _ _)
    | (apply kept_foldP; intro _ _ _) | (apply kept_foldL; intro _ _ _) | simp only [kept_mk]
    | refine kept_fst (by assumption) ?_ | intro _ | apply kept_ite | split)

theorem kept_enqueueEgress {k s : State} (hk : Kept k s) (n : Nat) (e : Egress) : Kept k (enqueueEgress n e s) := by
  unfold enqueueEgress
  try simp only []
  repeat' (with_reducible first
    | assumption | apply kept_startEgress | apply kept_modTrunk | (apply kept_foldS; intro _ _ _)
    | (apply kept_foldP; intro _ _ _) | (apply kept_foldL; intro _ _ _) | simp only [kept_mk]
    | refine kept_fst (by assumption) ?_ | intro _ | apply kept_ite | split)

theorem kept_sendRouted {k s : State} (hk : Kept k s) (type : Nat) (cls : Nat) (credit : Bool) (replay : Bool) (dst : Half) (queue : Nat) (seqn : Half) (payload : List Byte) : Kept k (sendRouted type cls credit replay dst queue seqn payload s) := by
  unfold sendRouted
  try simp only []
  repeat' (with_reducible first
    | assumption | apply kept_enqueueEgress | (apply kept_foldS; intro _ _ _) | (apply kept_foldP; intro _ _ _)
    | (apply kept_foldL; intro _ _ _) | simp only [kept_mk] | refine kept_fst (by assumption) ?_ | intro _
    | apply kept_ite | split)

theorem kept_nextCmdSeq {k s : State} (hk : Kept k s) : Kept k (nextCmdSeq s) := by
  unfold nextCmdSeq
  try simp only []
  repeat' (with_reducible first
    | assumption | apply kept_modNet | (apply kept_foldS; intro _ _ _) | (apply kept_foldP; intro _ _ _)
    | (apply kept_foldL; intro _ _ _) | simp only [kept_mk] | refine kept_fst (by assumption) ?_ | intro _
    | apply kept_ite | split)

theorem kept_nextReplySeq {k s : State} (hk : Kept k s) : Kept k (nextReplySeq s) := by
  unfold nextReplySeq
  try simp only []
  repeat' (with_reducible first
    | assumption | apply kept_modNet | (apply kept_foldS; intro _ _ _) | (apply kept_foldP; intro _ _ _)
    | (apply kept_foldL; intro _ _ _) | simp only [kept_mk] | refine kept_fst (by assumption) ?_ | intro _
    | apply kept_ite | split)

theorem kept_sendReply {k s : State} (hk : Kept k s) (cls : Nat) (dst : Half) (bytes : List Byte) : Kept k (sendReply cls dst bytes s) := by
  unfold sendReply
  try simp only []
  repeat' (with_reducible first
    | assumption | apply kept_nextReplySeq | apply kept_sendRouted | (apply kept_foldS; intro _ _ _)
    | (apply kept_foldP; intro _ _ _) | (apply kept_foldL; intro _ _ _) | simp only [kept_mk]
    | refine kept_fst (by assumption) ?_ | intro _ | apply kept_ite | split)

theorem kept_pumpPair {k s : State} (hk : Kept k s) (q : Nat) (dst : Half) (x1 : Nat) : Kept k (pumpPair q dst x1 s) := by
  induction x1 generalizing s with
  | zero =>
    unfold pumpPair
    try simp only []
    repeat' (with_reducible first
      | assumption | apply kept_sendRouted | apply kept_setQueue | (apply kept_foldS; intro _ _ _)
      | (apply kept_foldP; intro _ _ _) | (apply kept_foldL; intro _ _ _) | simp only [kept_mk]
      | refine kept_fst (by assumption) ?_ | intro _ | apply kept_ite | split)
  | succ n ih =>
    unfold pumpPair
    try simp only []
    repeat' (with_reducible first
      | assumption | apply ih | apply kept_sendRouted | apply kept_setQueue | (apply kept_foldS; intro _ _ _)
      | (apply kept_foldP; intro _ _ _) | (apply kept_foldL; intro _ _ _) | simp only [kept_mk]
      | refine kept_fst (by assumption) ?_ | intro _ | apply kept_ite | split)

theorem kept_pumpReplies {k s : State} (hk : Kept k s) (q : Nat) (dst : Half) (x1 : Nat) : Kept k (pumpReplies q dst x1 s) := by
  induction x1 generalizing s with
  | zero =>
    unfold pumpReplies
    try simp only []
    repeat' (with_reducible first
      | assumption | apply kept_sendReply | apply kept_setQueue | (apply kept_foldS; intro _ _ _)
      | (apply kept_foldP; intro _ _ _) | (apply kept_foldL; intro _ _ _) | simp only [kept_mk]
      | refine kept_fst (by assumption) ?_ | intro _ | apply kept_ite | split)
  | succ n ih =>
    unfold pumpReplies
    try simp only []
    repeat' (with_reducible first
      | assumption | apply ih | apply kept_sendReply | apply kept_setQueue | (apply kept_foldS; intro _ _ _)
      | (apply kept_foldP; intro _ _ _) | (apply kept_foldL; intro _ _ _) | simp only [kept_mk]
      | refine kept_fst (by assumption) ?_ | intro _ | apply kept_ite | split)

theorem kept_pump {k s : State} (hk : Kept k s) (q : Nat) : Kept k (pump q s) := by
  unfold pump
  try simp only []
  repeat' (with_reducible first
    | assumption | apply kept_pumpReplies | apply kept_pumpPair | (apply kept_foldS; intro _ _ _)
    | (apply kept_foldP; intro _ _ _) | (apply kept_foldL; intro _ _ _) | simp only [kept_mk]
    | refine kept_fst (by assumption) ?_ | intro _ | apply kept_ite | split)

theorem kept_sendCredit {k s : State} (hk : Kept k s) (q : Nat) : Kept k (sendCredit q s) := by
  unfold sendCredit
  try simp only []
  repeat' (with_reducible first
    | assumption | apply kept_setQueue | apply kept_sendRouted | (apply kept_foldS; intro _ _ _)
    | (apply kept_foldP; intro _ _ _) | (apply kept_foldL; intro _ _ _) | simp only [kept_mk]
    | refine kept_fst (by assumption) ?_ | intro _ | apply kept_ite | split)

theorem kept_sendEvCredit {k s : State} (hk : Kept k s) (h' : HostId) (dev : Half) : Kept k (sendEvCredit h' dev s) := by
  unfold sendEvCredit
  try simp only []
  repeat' (with_reducible first
    | assumption | apply kept_modNet | apply kept_sendRouted | (apply kept_foldS; intro _ _ _)
    | (apply kept_foldP; intro _ _ _) | (apply kept_foldL; intro _ _ _) | simp only [kept_mk]
    | refine kept_fst (by assumption) ?_ | intro _ | apply kept_ite | split)

theorem kept_creditAgain {k s : State} (hk : Kept k s) (q : Nat) : Kept k (creditAgain q s) := by
  unfold creditAgain
  try simp only []
  repeat' (with_reducible first
    | assumption | apply kept_sendEvCredit | apply kept_sendCredit | (apply kept_foldS; intro _ _ _)
    | (apply kept_foldP; intro _ _ _) | (apply kept_foldL; intro _ _ _) | simp only [kept_mk]
    | refine kept_fst (by assumption) ?_ | intro _ | apply kept_ite | split)

theorem kept_pinEvent {k s : State} (hk : Kept k s) (src : Nat) (h' : HostId) : Kept k (pinEvent src h' s) := by
  unfold pinEvent
  try simp only []
  repeat' (with_reducible first
    | assumption | apply kept_setSqc | (apply kept_foldS; intro _ _ _) | (apply kept_foldP; intro _ _ _)
    | (apply kept_foldL; intro _ _ _) | simp only [kept_mk] | refine kept_fst (by assumption) ?_ | intro _
    | apply kept_ite | split)

theorem kept_pinRouted {k s : State} (hk : Kept k s) (src : Nat) : Kept k (pinRouted src s) := by
  unfold pinRouted
  try simp only []
  repeat' (with_reducible first
    | assumption | apply kept_pinEvent | (apply kept_foldS; intro _ _ _) | (apply kept_foldP; intro _ _ _)
    | (apply kept_foldL; intro _ _ _) | simp only [kept_mk] | refine kept_fst (by assumption) ?_ | intro _
    | apply kept_ite | split)

theorem kept_wakeInstance {k s : State} (hk : Kept k s) (q : Nat) : Kept k (wakeInstance q s) := by
  unfold wakeInstance
  try simp only []
  repeat' (with_reducible first
    | assumption | apply kept_emit | (apply kept_foldS; intro _ _ _) | (apply kept_foldP; intro _ _ _)
    | (apply kept_foldL; intro _ _ _) | simp only [kept_mk] | refine kept_fst (by assumption) ?_ | intro _
    | apply kept_ite | split)

theorem kept_storeQueue {k s : State} (hk : Kept k s) (q : Nat) (new : Queue) (newGap : Option Nat) : Kept k (storeQueue q new newGap s).1 := by
  unfold storeQueue
  try simp only []
  repeat' (with_reducible first
    | assumption | apply kept_setQueue | (apply kept_foldS; intro _ _ _) | (apply kept_foldP; intro _ _ _)
    | (apply kept_foldL; intro _ _ _) | simp only [kept_mk] | refine kept_fst (by assumption) ?_ | intro _
    | apply kept_ite | split)

theorem kept_pushKept {k s : State} (hk : Kept k s) (q : Nat) (i : Item) : Kept k (pushKept q i s) := by
  unfold pushKept
  try simp only []
  repeat' (with_reducible first
    | assumption | apply kept_storeQueue | apply kept_pinRouted | apply kept_pump | apply kept_wakeInstance
    | (apply kept_foldS; intro _ _ _) | (apply kept_foldP; intro _ _ _) | (apply kept_foldL; intro _ _ _)
    | simp only [kept_mk] | refine kept_fst (by assumption) ?_ | intro _ | apply kept_ite | split)

theorem kept_pushFixed {k s : State} (hk : Kept k s) (q : Nat) (i : Item) : Kept k (pushFixed q i s) := by
  unfold pushFixed
  try simp only []
  repeat' (with_reducible first
    | assumption | apply kept_pushKept | (apply kept_foldS; intro _ _ _) | (apply kept_foldP; intro _ _ _)
    | (apply kept_foldL; intro _ _ _) | simp only [kept_mk] | refine kept_fst (by assumption) ?_ | intro _
    | apply kept_ite | split)

theorem kept_drainHeld {k s : State} (hk : Kept k s) (h' : HostId) (x1 : Nat) : Kept k (drainHeld h' x1 s) := by
  induction x1 generalizing s with
  | zero =>
    unfold drainHeld
    try simp only []
    repeat' (with_reducible first
      | assumption | apply kept_pushFixed | apply kept_setHost | apply kept_pinEvent
      | (apply kept_foldS; intro _ _ _) | (apply kept_foldP; intro _ _ _) | (apply kept_foldL; intro _ _ _)
      | simp only [kept_mk] | refine kept_fst (by assumption) ?_ | intro _ | apply kept_ite | split)
  | succ n ih =>
    unfold drainHeld
    try simp only []
    repeat' (with_reducible first
      | assumption | apply ih | apply kept_pushFixed | apply kept_setHost | apply kept_pinEvent
      | (apply kept_foldS; intro _ _ _) | (apply kept_foldP; intro _ _ _) | (apply kept_foldL; intro _ _ _)
      | simp only [kept_mk] | refine kept_fst (by assumption) ?_ | intro _ | apply kept_ite | split)

theorem kept_storeEvent {k s : State} (hk : Kept k s) (h' : HostId) (i : Item) : Kept k (storeEvent h' i s) := by
  unfold storeEvent
  try simp only []
  repeat' (with_reducible first
    | assumption | apply kept_setHost | apply kept_pushFixed | (apply kept_foldS; intro _ _ _)
    | (apply kept_foldP; intro _ _ _) | (apply kept_foldL; intro _ _ _) | simp only [kept_mk]
    | refine kept_fst (by assumption) ?_ | intro _ | apply kept_ite | split)

theorem kept_deliverEvent {k s : State} (hk : Kept k s) (h' : HostId) (i : Item) : Kept k (deliverEvent h' i s) := by
  unfold deliverEvent
  try simp only []
  repeat' (with_reducible first
    | assumption | apply kept_storeEvent | (apply kept_foldS; intro _ _ _) | (apply kept_foldP; intro _ _ _)
    | (apply kept_foldL; intro _ _ _) | simp only [kept_mk] | refine kept_fst (by assumption) ?_ | intro _
    | apply kept_ite | split)

theorem kept_post {k s : State} (hk : Kept k s) (src : Nat) (payload : List Byte) : Kept k (post src payload s) := by
  unfold post
  try simp only []
  repeat' (with_reducible first
    | assumption | apply kept_pinRouted | apply kept_deliverEvent | (apply kept_foldS; intro _ _ _)
    | (apply kept_foldP; intro _ _ _) | (apply kept_foldL; intro _ _ _) | simp only [kept_mk]
    | refine kept_fst (by assumption) ?_ | intro _ | apply kept_ite | split)

theorem kept_postTo {k s : State} (hk : Kept k s) (src : Nat) (h' : HostId) (payload : List Byte) : Kept k (postTo src h' payload s) := by
  unfold postTo
  try simp only []
  repeat' (with_reducible first
    | assumption | apply kept_deliverEvent | apply kept_pinEvent | (apply kept_foldS; intro _ _ _)
    | (apply kept_foldP; intro _ _ _) | (apply kept_foldL; intro _ _ _) | simp only [kept_mk]
    | refine kept_fst (by assumption) ?_ | intro _ | apply kept_ite | split)

theorem kept_postQueue {k s : State} (hk : Kept k s) (q : Nat) (evs : List (Nat × Nat × Nat)) : Kept k (postQueue q evs s) := by
  unfold postQueue
  try simp only []
  repeat' (with_reducible first
    | assumption | apply kept_pinRouted | apply kept_post | (apply kept_foldS; intro _ _ _)
    | (apply kept_foldP; intro _ _ _) | (apply kept_foldL; intro _ _ _) | simp only [kept_mk]
    | refine kept_fst (by assumption) ?_ | intro _ | apply kept_ite | split)

theorem kept_markUnderrun {k s : State} (hk : Kept k s) (q : Nat) : Kept k (markUnderrun q s) := by
  unfold markUnderrun
  try simp only []
  repeat' (with_reducible first
    | assumption | apply kept_setSqc | apply kept_postQueue | (apply kept_foldS; intro _ _ _)
    | (apply kept_foldP; intro _ _ _) | (apply kept_foldL; intro _ _ _) | simp only [kept_mk]
    | refine kept_fst (by assumption) ?_ | intro _ | apply kept_ite | split)

theorem kept_putQueue {k s : State} (hk : Kept k s) (q : Nat) (new : Queue) (newGap : Option Nat) : Kept k (putQueue q new newGap s) := by
  unfold putQueue
  try simp only []
  repeat' (with_reducible first
    | assumption | apply kept_storeQueue | apply kept_pump | apply kept_postQueue | apply kept_creditAgain
    | (apply kept_foldS; intro _ _ _) | (apply kept_foldP; intro _ _ _) | (apply kept_foldL; intro _ _ _)
    | simp only [kept_mk] | refine kept_fst (by assumption) ?_ | intro _ | apply kept_ite | split)

theorem kept_loseHeaders {k s : State} (hk : Kept k s) (q : Nat) (idx : List Nat) : Kept k (loseHeaders q idx s) := by
  unfold loseHeaders
  try simp only []
  repeat' (with_reducible first
    | assumption | apply kept_putQueue | apply kept_setSqc | (apply kept_foldS; intro _ _ _)
    | (apply kept_foldP; intro _ _ _) | (apply kept_foldL; intro _ _ _) | simp only [kept_mk]
    | refine kept_fst (by assumption) ?_ | intro _ | apply kept_ite | split)

theorem kept_refreshFull {k s : State} (hk : Kept k s) : Kept k (refreshFull s) := by
  unfold refreshFull
  try simp only []
  repeat' (with_reducible first
    | assumption | apply kept_putQueue | (apply kept_foldS; intro _ _ _) | (apply kept_foldP; intro _ _ _)
    | (apply kept_foldL; intro _ _ _) | simp only [kept_mk] | refine kept_fst (by assumption) ?_ | intro _
    | apply kept_ite | split)

theorem kept_pushItem {k s : State} (hk : Kept k s) (q : Nat) (i : Item) : Kept k (pushItem q i s) := by
  unfold pushItem
  try simp only []
  repeat' (with_reducible first
    | assumption | apply kept_pushKept | apply kept_setSqc | apply kept_putQueue | (apply kept_foldS; intro _ _ _)
    | (apply kept_foldP; intro _ _ _) | (apply kept_foldL; intro _ _ _) | simp only [kept_mk]
    | refine kept_fst (by assumption) ?_ | intro _ | apply kept_ite | split)

theorem kept_replayCheck {k s : State} (hk : Kept k s) (q : Nat) : Kept k (replayCheck q s) := by
  unfold replayCheck
  try simp only []
  repeat' (with_reducible first
    | assumption | apply kept_pump | apply kept_postQueue | apply kept_setQueue | (apply kept_foldS; intro _ _ _)
    | (apply kept_foldP; intro _ _ _) | (apply kept_foldL; intro _ _ _) | simp only [kept_mk]
    | refine kept_fst (by assumption) ?_ | intro _ | apply kept_ite | split)

theorem kept_enterFlight {k s : State} (hk : Kept k s) (q : Nat) : Kept k (enterFlight q s) := by
  unfold enterFlight
  try simp only []
  repeat' (with_reducible first
    | assumption | apply kept_postQueue | apply kept_setQueue | apply kept_putQueue | apply kept_setSqc
    | (apply kept_foldS; intro _ _ _) | (apply kept_foldP; intro _ _ _) | (apply kept_foldL; intro _ _ _)
    | simp only [kept_mk] | refine kept_fst (by assumption) ?_ | intro _ | apply kept_ite | split)

theorem kept_restoreRoute {k s : State} (hk : Kept k s) (q : Nat) : Kept k (restoreRoute q s) := by
  unfold restoreRoute
  try simp only []
  repeat' (with_reducible first
    | assumption | apply kept_postQueue | apply kept_setQueue | apply kept_replayCheck | apply kept_pump
    | (apply kept_foldS; intro _ _ _) | (apply kept_foldP; intro _ _ _) | (apply kept_foldL; intro _ _ _)
    | simp only [kept_mk] | refine kept_fst (by assumption) ?_ | intro _ | apply kept_ite | split)

theorem kept_flightHost {k s : State} (hk : Kept k s) (h' : HostId) : Kept k (flightHost h' s) := by
  unfold flightHost
  try simp only []
  repeat' (with_reducible first
    | assumption | apply kept_enterFlight | (apply kept_foldS; intro _ _ _) | (apply kept_foldP; intro _ _ _)
    | (apply kept_foldL; intro _ _ _) | simp only [kept_mk] | refine kept_fst (by assumption) ?_ | intro _
    | apply kept_ite | split)

theorem kept_restoreHost {k s : State} (hk : Kept k s) (h' : HostId) : Kept k (restoreHost h' s) := by
  unfold restoreHost
  try simp only []
  repeat' (with_reducible first
    | assumption | apply kept_restoreRoute | (apply kept_foldS; intro _ _ _) | (apply kept_foldP; intro _ _ _)
    | (apply kept_foldL; intro _ _ _) | simp only [kept_mk] | refine kept_fst (by assumption) ?_ | intro _
    | apply kept_ite | split)

theorem kept_followRoutes {k s : State} (hk : Kept k s) : Kept k (followRoutes s) := by
  unfold followRoutes
  try simp only []
  repeat' (with_reducible first
    | assumption | apply kept_flightHost | apply kept_restoreHost | apply kept_updateChoice
    | (apply kept_foldS; intro _ _ _) | (apply kept_foldP; intro _ _ _) | (apply kept_foldL; intro _ _ _)
    | simp only [kept_mk] | refine kept_fst (by assumption) ?_ | intro _ | apply kept_ite | split)

theorem kept_resend {k s : State} (hk : Kept k s) (q : Nat) : Kept k (resend q s) := by
  unfold resend
  try simp only []
  repeat' (with_reducible first
    | assumption | apply kept_pump | apply kept_setQueue | (apply kept_foldS; intro _ _ _)
    | (apply kept_foldP; intro _ _ _) | (apply kept_foldL; intro _ _ _) | simp only [kept_mk]
    | refine kept_fst (by assumption) ?_ | intro _ | apply kept_ite | split)

theorem kept_ashPut {k s : State} (hk : Kept k s) (e : AshEntry) : Kept k (ashPut e s) := by
  unfold ashPut
  try simp only []
  repeat' (with_reducible first
    | assumption | apply kept_modLich | (apply kept_foldS; intro _ _ _) | (apply kept_foldP; intro _ _ _)
    | (apply kept_foldL; intro _ _ _) | simp only [kept_mk] | refine kept_fst (by assumption) ?_ | intro _
    | apply kept_ite | split)

theorem kept_ashRecord {k s : State} (hk : Kept k s) (code : Nat) (detail : Nat) : Kept k (ashRecord code detail s) := by
  unfold ashRecord
  try simp only []
  repeat' (with_reducible first
    | assumption | apply kept_ashPut | (apply kept_foldS; intro _ _ _) | (apply kept_foldP; intro _ _ _)
    | (apply kept_foldL; intro _ _ _) | simp only [kept_mk] | refine kept_fst (by assumption) ?_ | intro _
    | apply kept_ite | split)

theorem kept_raise {k s : State} (hk : Kept k s) (source : Nat) (sub : Nat) : Kept k (raise source sub s) := by
  unfold raise
  try simp only []
  repeat' (with_reducible first
    | assumption | (apply kept_foldS; intro _ _ _) | (apply kept_foldP; intro _ _ _)
    | (apply kept_foldL; intro _ _ _) | simp only [kept_mk] | refine kept_fst (by assumption) ?_ | intro _
    | apply kept_ite | split)

theorem kept_raiseAt {k s : State} (hk : Kept k s) (source : Nat) (sub : Nat) (detail : Word) : Kept k (raiseAt source sub detail s) := by
  unfold raiseAt
  try simp only []
  repeat' (with_reducible first
    | assumption | (apply kept_foldS; intro _ _ _) | (apply kept_foldP; intro _ _ _)
    | (apply kept_foldL; intro _ _ _) | simp only [kept_mk] | refine kept_fst (by assumption) ?_ | intro _
    | apply kept_ite | split)

theorem kept_clearFlt {k s : State} (hk : Kept k s) (source : Nat) (sub : Nat) : Kept k (clearFlt source sub s) := by
  unfold clearFlt
  try simp only []
  repeat' (with_reducible first
    | assumption | (apply kept_foldS; intro _ _ _) | (apply kept_foldP; intro _ _ _)
    | (apply kept_foldL; intro _ _ _) | simp only [kept_mk] | refine kept_fst (by assumption) ?_ | intro _
    | apply kept_ite | split)

theorem kept_setOwner {k s : State} (hk : Kept k s) (n owner : Nat) (ho : owner ≤ 2) : Kept k (setOwner n owner s) := by
  unfold setOwner
  try simp only []
  repeat' (with_reducible first
    | assumption | apply kept_bumpSeq | apply kept_setSem | simp only [kept_mk] | split)

theorem kept_setArgs {k s : State} (hk : Kept k s) (h' : HostId) (tag : Half) (args : List Nat) : Kept k (setArgs h' tag args s) := by
  unfold setArgs
  try simp only []
  repeat' (with_reducible first
    | assumption | (apply kept_foldS; intro _ _ _) | (apply kept_foldP; intro _ _ _)
    | (apply kept_foldL; intro _ _ _) | simp only [kept_mk] | refine kept_fst (by assumption) ?_ | intro _
    | apply kept_ite | split)

theorem kept_replyQueue {k s : State} (hk : Kept k s) (h' : HostId) (urgent : Bool) (bytes : List Byte) : Kept k (replyQueue h' urgent bytes s) := by
  unfold replyQueue
  try simp only []
  repeat' (with_reducible first
    | assumption | apply kept_pushFixed | (apply kept_foldS; intro _ _ _) | (apply kept_foldP; intro _ _ _)
    | (apply kept_foldL; intro _ _ _) | simp only [kept_mk] | refine kept_fst (by assumption) ?_ | intro _
    | apply kept_ite | split)

theorem kept_replyVia {k s : State} (hk : Kept k s) (via : Via) (h' : HostId) (urgent : Bool) (bytes : List Byte) : Kept k (replyVia via h' urgent bytes s) := by
  unfold replyVia
  try simp only []
  repeat' (with_reducible first
    | assumption | apply kept_replyQueue | apply kept_sendReply | apply kept_modInst
    | (apply kept_foldS; intro _ _ _) | (apply kept_foldP; intro _ _ _) | (apply kept_foldL; intro _ _ _)
    | simp only [kept_mk] | refine kept_fst (by assumption) ?_ | intro _ | apply kept_ite | split)

theorem kept_reply {k s : State} (hk : Kept k s) (via : Via) (h' : HostId) (bound : Bool) (opcode : Nat) (tag : Half) (flags : Half) (status : Nat) (cseq : Word) (result : List Byte) : Kept k (reply via h' bound opcode tag flags status cseq result s) := by
  unfold reply
  try simp only []
  repeat' (with_reducible first
    | assumption | apply kept_replyQueue | apply kept_replyVia | (apply kept_foldS; intro _ _ _)
    | (apply kept_foldP; intro _ _ _) | (apply kept_foldL; intro _ _ _) | simp only [kept_mk]
    | refine kept_fst (by assumption) ?_ | intro _ | apply kept_ite | split)

theorem kept_record {k s : State} (hk : Kept k s) (h' : HostId) (opcode : Nat) (tag : Half) (status : Nat) (result : List Byte) : Kept k (record h' opcode tag status result s) := by
  unfold record
  try simp only []
  repeat' (with_reducible first
    | assumption | apply kept_modHost | (apply kept_foldS; intro _ _ _) | (apply kept_foldP; intro _ _ _)
    | (apply kept_foldL; intro _ _ _) | simp only [kept_mk] | refine kept_fst (by assumption) ?_ | intro _
    | apply kept_ite | split)

theorem kept_dropOp {k s : State} (hk : Kept k s) (h' : HostId) (tag : Half) : Kept k (dropOp h' tag s) := by
  unfold dropOp
  try simp only []
  repeat' (with_reducible first
    | assumption | (apply kept_foldS; intro _ _ _) | (apply kept_foldP; intro _ _ _)
    | (apply kept_foldL; intro _ _ _) | simp only [kept_mk] | refine kept_fst (by assumption) ?_ | intro _
    | apply kept_ite | split)

theorem kept_takeItem {k s : State} (hk : Kept k s) (o : Op) : Kept k (takeItem o s) := by
  unfold takeItem
  try simp only []
  repeat' (with_reducible first
    | assumption | apply kept_putQueue | (apply kept_foldS; intro _ _ _) | (apply kept_foldP; intro _ _ _)
    | (apply kept_foldL; intro _ _ _) | simp only [kept_mk] | refine kept_fst (by assumption) ?_ | intro _
    | apply kept_ite | split)

theorem kept_countForced {k s : State} (hk : Kept k s) (o : Op) : Kept k (countForced o s) := by
  unfold countForced
  try simp only []
  repeat' (with_reducible first
    | assumption | apply kept_modHost | (apply kept_foldS; intro _ _ _) | (apply kept_foldP; intro _ _ _)
    | (apply kept_foldL; intro _ _ _) | simp only [kept_mk] | refine kept_fst (by assumption) ?_ | intro _
    | apply kept_ite | split)

theorem kept_endOp {k s : State} (hk : Kept k s) (o : Op) (status : Nat) (result : List Byte) : Kept k (endOp o status result s) := by
  unfold endOp
  try simp only []
  repeat' (with_reducible first
    | assumption | apply kept_record | apply kept_countForced | apply kept_dropOp | apply kept_postTo
    | apply kept_reply | apply kept_takeItem | (apply kept_foldS; intro _ _ _) | (apply kept_foldP; intro _ _ _)
    | (apply kept_foldL; intro _ _ _) | simp only [kept_mk] | refine kept_fst (by assumption) ?_ | intro _
    | apply kept_ite | split)

theorem kept_endAborter {k s : State} (hk : Kept k s) (status : Nat) (result : List Byte) (o : Op) : Kept k (endAborter status result o s) := by
  unfold endAborter
  try simp only []
  repeat' (with_reducible first
    | assumption | apply kept_record | apply kept_countForced | apply kept_dropOp | apply kept_reply
    | (apply kept_foldS; intro _ _ _) | (apply kept_foldP; intro _ _ _) | (apply kept_foldL; intro _ _ _)
    | simp only [kept_mk] | refine kept_fst (by assumption) ?_ | intro _ | apply kept_ite | split)

theorem kept_finishOp {k s : State} (hk : Kept k s) (h' : HostId) (tag : Half) (status : Nat) (result : List Byte) : Kept k (finishOp h' tag status result s) := by
  unfold finishOp
  try simp only []
  repeat' (with_reducible first
    | assumption | apply kept_endOp | apply kept_endAborter | (apply kept_foldS; intro _ _ _)
    | (apply kept_foldP; intro _ _ _) | (apply kept_foldL; intro _ _ _) | simp only [kept_mk]
    | refine kept_fst (by assumption) ?_ | intro _ | apply kept_ite | split)

theorem kept_abortOp {k s : State} (hk : Kept k s) (h' : HostId) (tag : Half) (result : List Byte) : Kept k (abortOp h' tag result s) := by
  unfold abortOp
  try simp only []
  repeat' (with_reducible first
    | assumption | apply kept_endOp | apply kept_endAborter | (apply kept_foldS; intro _ _ _)
    | (apply kept_foldP; intro _ _ _) | (apply kept_foldL; intro _ _ _) | simp only [kept_mk]
    | refine kept_fst (by assumption) ?_ | intro _ | apply kept_ite | split)

theorem kept_finishKey {k s : State} (hk : Kept k s) (k' : Nat) (status : Nat) (result : List Byte) : Kept k (finishKey k' status result s) := by
  unfold finishKey
  try simp only []
  repeat' (with_reducible first
    | assumption | apply kept_finishOp | (apply kept_foldS; intro _ _ _) | (apply kept_foldP; intro _ _ _)
    | (apply kept_foldL; intro _ _ _) | simp only [kept_mk] | refine kept_fst (by assumption) ?_ | intro _
    | apply kept_ite | split)

theorem kept_markStarted {k s : State} (hk : Kept k s) (o : Op) : Kept k (markStarted o s) := by
  unfold markStarted
  try simp only []
  repeat' (with_reducible first
    | assumption | (apply kept_foldS; intro _ _ _) | (apply kept_foldP; intro _ _ _)
    | (apply kept_foldL; intro _ _ _) | simp only [kept_mk] | refine kept_fst (by assumption) ?_ | intro _
    | apply kept_ite | split)

theorem kept_answer {k s : State} (hk : Kept k s) (o : Op) (a : Ans) : Kept k (answer o a s) := by
  unfold answer
  try simp only []
  repeat' (with_reducible first
    | assumption | apply kept_record | apply kept_countForced | apply kept_dropOp | apply kept_reply
    | apply kept_finishOp | (apply kept_foldS; intro _ _ _) | (apply kept_foldP; intro _ _ _)
    | (apply kept_foldL; intro _ _ _) | simp only [kept_mk] | refine kept_fst (by assumption) ?_ | intro _
    | apply kept_ite | split)

theorem kept_startOp {k s : State} (hk : Kept k s) (c : CmdSpec) (o : Op) (hc : SpecKept c) : Kept k (startOp c o s) := by
  unfold startOp
  try simp only []
  repeat' (with_reducible first
    | assumption | apply hc | apply kept_markStarted | apply kept_takeItem | apply kept_answer
    | (apply kept_foldS; intro _ _ _) | (apply kept_foldP; intro _ _ _) | (apply kept_foldL; intro _ _ _)
    | simp only [kept_mk] | refine kept_fst (by assumption) ?_ | intro _ | apply kept_ite | split)

theorem kept_refuse {k s : State} (hk : Kept k s) (op : Nat) (h' : HostId) (p : Packet) (status : Nat) : Kept k (refuse op h' p status s) := by
  unfold refuse
  try simp only []
  repeat' (with_reducible first
    | assumption | apply kept_raise | apply kept_record | apply kept_reply | (apply kept_foldS; intro _ _ _)
    | (apply kept_foldP; intro _ _ _) | (apply kept_foldL; intro _ _ _) | simp only [kept_mk]
    | refine kept_fst (by assumption) ?_ | intro _ | apply kept_ite | split)

theorem kept_forward {k s : State} (hk : Kept k s) (op : Nat) (h' : HostId) (p : Packet) : Kept k (forward op h' p s) := by
  unfold forward
  try simp only []
  repeat' (with_reducible first
    | assumption | apply kept_reply | apply kept_nextCmdSeq | apply kept_sendRouted | apply kept_modHost
    | (apply kept_foldS; intro _ _ _) | (apply kept_foldP; intro _ _ _) | (apply kept_foldL; intro _ _ _)
    | simp only [kept_mk] | refine kept_fst (by assumption) ?_ | intro _ | apply kept_ite | split)

theorem kept_takenFrom {k s : State} (hk : Kept k s) (h' : HostId) (urgent : Bool) : Kept k (takenFrom h' urgent s) := by
  unfold takenFrom
  try simp only []
  repeat' (with_reducible first
    | assumption | (apply kept_foldS; intro _ _ _) | (apply kept_foldP; intro _ _ _)
    | (apply kept_foldL; intro _ _ _) | simp only [kept_mk] | refine kept_fst (by assumption) ?_ | intro _
    | apply kept_ite | split)

theorem kept_enter {k s : State} (hk : Kept k s) (op : Nat) (c : Option CmdSpec) (q : Option Nat) (p : Packet)
    (hc : ∀ d, c = some d → SpecKept d) : Kept k (enter op c q p s) := by
  unfold enter
  try simp only []
  repeat' (with_reducible first
    | assumption | apply kept_refuse | apply kept_forward | apply kept_pushFixed | apply kept_startOp | apply kept_takenFrom
    | exact hc _ rfl | simp only [kept_mk] | split)

theorem kept_serve {k s : State} (hk : Kept k s) (op : Nat) (c : CmdSpec) (p : Packet) (hc : SpecKept c) : Kept k (serve op c p s) := by
  unfold serve
  try simp only []
  repeat' (with_reducible first
    | assumption | apply hc | apply kept_setSqc | apply kept_enter | (intro d hd; cases hd; assumption)
    | (apply kept_foldS; intro _ _ _) | (apply kept_foldP; intro _ _ _) | (apply kept_foldL; intro _ _ _)
    | simp only [kept_mk] | refine kept_fst (by assumption) ?_ | intro _ | apply kept_ite | split)

theorem kept_bindHost {k s : State} (hk : Kept k s) (h' : HostId) (v : Via) (wd : Nat) : Kept k (bindHost h' v wd s) := by
  unfold bindHost
  try simp only []
  repeat' (with_reducible first
    | assumption | apply kept_modHost | apply kept_postTo | apply kept_updateChoice | apply kept_restoreHost
    | (apply kept_foldS; intro _ _ _) | (apply kept_foldP; intro _ _ _) | (apply kept_foldL; intro _ _ _)
    | simp only [kept_mk] | refine kept_fst (by assumption) ?_ | intro _ | apply kept_ite | split)

theorem kept_releaseSems {k s : State} (hk : Kept k s) (h' : HostId) : Kept k (releaseSems h' s) := by
  unfold releaseSems
  try simp only []
  repeat' (with_reducible first
    | assumption | apply kept_setOwner | apply kept_modHost | apply kept_postTo | exact hOwner_le _
    | exact Nat.zero_le _ | (apply kept_foldS; intro _ _ _) | (apply kept_foldP; intro _ _ _)
    | (apply kept_foldL; intro _ _ _) | simp only [kept_mk] | refine kept_fst (by assumption) ?_ | intro _
    | apply kept_ite | split)

theorem kept_endWaiting {k s : State} (hk : Kept k s) (h' : HostId) : Kept k (endWaiting h' s) := by
  unfold endWaiting
  try simp only []
  repeat' (with_reducible first
    | assumption | apply kept_finishOp | (apply kept_foldS; intro _ _ _) | (apply kept_foldP; intro _ _ _)
    | (apply kept_foldL; intro _ _ _) | simp only [kept_mk] | refine kept_fst (by assumption) ?_ | intro _
    | apply kept_ite | split)

theorem kept_ownReplies {k s : State} (hk : Kept k s) (h' : HostId) (keep : Bool) : Kept k (ownReplies h' keep s) := by
  unfold ownReplies
  try simp only []
  repeat' (with_reducible first
    | assumption | (apply kept_foldS; intro _ _ _) | (apply kept_foldP; intro _ _ _)
    | (apply kept_foldL; intro _ _ _) | simp only [kept_mk] | refine kept_fst (by assumption) ?_ | intro _
    | apply kept_ite | split)

theorem kept_unbindHost {k s : State} (hk : Kept k s) (h' : HostId) (cause : Nat) (keep : Bool) : Kept k (unbindHost h' cause keep s) := by
  unfold unbindHost
  try simp only []
  repeat' (with_reducible first
    | assumption | apply kept_ownReplies | apply kept_setSqc | apply kept_modHost | apply kept_raise
    | apply kept_postTo | apply kept_flightHost | apply kept_endWaiting | apply kept_releaseSems
    | apply kept_updateChoice | (apply kept_foldS; intro _ _ _) | (apply kept_foldP; intro _ _ _)
    | (apply kept_foldL; intro _ _ _) | simp only [kept_mk] | refine kept_fst (by assumption) ?_ | intro _
    | apply kept_ite | split)

theorem kept_loseBinding {k s : State} (hk : Kept k s) (h' : HostId) (cause : Nat) : Kept k (loseBinding h' cause s) := by
  unfold loseBinding
  try simp only []
  repeat' (with_reducible first
    | assumption | apply kept_unbindHost | (apply kept_foldS; intro _ _ _) | (apply kept_foldP; intro _ _ _)
    | (apply kept_foldL; intro _ _ _) | simp only [kept_mk] | refine kept_fst (by assumption) ?_ | intro _
    | apply kept_ite | split)

theorem kept_loseVia {k s : State} (hk : Kept k s) (v : Via) : Kept k (loseVia v s) := by
  unfold loseVia
  try simp only []
  repeat' (with_reducible first
    | assumption | apply kept_loseBinding | (apply kept_foldS; intro _ _ _) | (apply kept_foldP; intro _ _ _)
    | (apply kept_foldL; intro _ _ _) | simp only [kept_mk] | refine kept_fst (by assumption) ?_ | intro _
    | apply kept_ite | split)

end Sys2Proof.Machine
end

