-- ==== Sys2Proof/Laws/KeptTrunks.lean ====
section
/-!
SUPPORT. `Kept` (Laws/Kept.lean) for trunks, contexts and placement.
-/
set_option linter.all false
namespace Sys2Proof.Machine

theorem kept_linkEvent {k s : State} (hk : Kept k s) (n : Nat) (code : Nat) (a : Nat) : Kept k (linkEvent n code a s) := by
  unfold linkEvent
  try simp only []
  repeat' (with_reducible first
    | assumption | apply kept_post | (apply kept_foldS; intro _ _ _) | (apply kept_foldP; intro _ _ _)
    | (apply kept_foldL; intro _ _ _) | simp only [kept_mk] | refine kept_fst (by assumption) ?_ | intro _
    | apply kept_ite | split)

theorem kept_frameError {k s : State} (hk : Kept k s) (n : Nat) (what : Nat) : Kept k (frameError n what s) := by
  unfold frameError
  try simp only []
  repeat' (with_reducible first
    | assumption | apply kept_modTrunk | (apply kept_foldS; intro _ _ _) | (apply kept_foldP; intro _ _ _)
    | (apply kept_foldL; intro _ _ _) | simp only [kept_mk] | refine kept_fst (by assumption) ?_ | intro _
    | apply kept_ite | split)

theorem kept_frameErrorsEnd {k s : State} (hk : Kept k s) (n : Nat) : Kept k (frameErrorsEnd n s) := by
  unfold frameErrorsEnd
  try simp only []
  repeat' (with_reducible first
    | assumption | apply kept_modTrunk | apply kept_post | (apply kept_foldS; intro _ _ _)
    | (apply kept_foldP; intro _ _ _) | (apply kept_foldL; intro _ _ _) | simp only [kept_mk]
    | refine kept_fst (by assumption) ?_ | intro _ | apply kept_ite | split)

theorem kept_postTopology {k s : State} (hk : Kept k s) : Kept k (postTopology s) := by
  unfold postTopology
  try simp only []
  repeat' (with_reducible first
    | assumption | apply kept_post | (apply kept_foldS; intro _ _ _) | (apply kept_foldP; intro _ _ _)
    | (apply kept_foldL; intro _ _ _) | simp only [kept_mk] | refine kept_fst (by assumption) ?_ | intro _
    | apply kept_ite | split)

theorem kept_topologyChanged {k s : State} (hk : Kept k s) : Kept k (topologyChanged s) := by
  unfold topologyChanged
  try simp only []
  repeat' (with_reducible first
    | assumption | apply kept_modNet | apply kept_postTopology | (apply kept_foldS; intro _ _ _)
    | (apply kept_foldP; intro _ _ _) | (apply kept_foldL; intro _ _ _) | simp only [kept_mk]
    | refine kept_fst (by assumption) ?_ | intro _ | apply kept_ite | split)

theorem kept_topologyIntervalEnd {k s : State} (hk : Kept k s) : Kept k (topologyIntervalEnd s) := by
  unfold topologyIntervalEnd
  try simp only []
  repeat' (with_reducible first
    | assumption | apply kept_postTopology | apply kept_modNet | (apply kept_foldS; intro _ _ _)
    | (apply kept_foldP; intro _ _ _) | (apply kept_foldL; intro _ _ _) | simp only [kept_mk]
    | refine kept_fst (by assumption) ?_ | intro _ | apply kept_ite | split)

theorem kept_sendPlain {k s : State} (hk : Kept k s) (n : Nat) (body : List Byte) : Kept k (sendPlain n body s) := by
  unfold sendPlain
  try simp only []
  repeat' (with_reducible first
    | assumption | apply kept_enqueueEgress | (apply kept_foldS; intro _ _ _) | (apply kept_foldP; intro _ _ _)
    | (apply kept_foldL; intro _ _ _) | simp only [kept_mk] | refine kept_fst (by assumption) ?_ | intro _
    | apply kept_ite | split)

theorem kept_floodRec {k s : State} (hk : Kept k s) (except : Option Nat) (hops : Nat) (r : Topo) : Kept k (floodRec except hops r s) := by
  unfold floodRec
  try simp only []
  repeat' (with_reducible first
    | assumption | apply kept_sendPlain | (apply kept_foldS; intro _ _ _) | (apply kept_foldP; intro _ _ _)
    | (apply kept_foldL; intro _ _ _) | simp only [kept_mk] | refine kept_fst (by assumption) ?_ | intro _
    | apply kept_ite | split)

theorem kept_flood {k s : State} (hk : Kept k s) : Kept k (flood s) := by
  unfold flood
  try simp only []
  repeat' (with_reducible first
    | assumption | apply kept_modNet | apply kept_floodRec | (apply kept_foldS; intro _ _ _)
    | (apply kept_foldP; intro _ _ _) | (apply kept_foldL; intro _ _ _) | simp only [kept_mk]
    | refine kept_fst (by assumption) ?_ | intro _ | apply kept_ite | split)

theorem kept_sendKa {k s : State} (hk : Kept k s) (n : Nat) : Kept k (sendKa n s) := by
  unfold sendKa
  try simp only []
  repeat' (with_reducible first
    | assumption | apply kept_sendPlain | apply kept_modTrunk | (apply kept_foldS; intro _ _ _)
    | (apply kept_foldP; intro _ _ _) | (apply kept_foldL; intro _ _ _) | simp only [kept_mk]
    | refine kept_fst (by assumption) ?_ | intro _ | apply kept_ite | split)

theorem kept_freeCredit {k s : State} (hk : Kept k s) (n : Nat) (cls : Nat) (units : Nat) : Kept k (freeCredit n cls units s) := by
  unfold freeCredit
  try simp only []
  repeat' (with_reducible first
    | assumption | apply kept_setTrunk | apply kept_sendKa | (apply kept_foldS; intro _ _ _)
    | (apply kept_foldP; intro _ _ _) | (apply kept_foldL; intro _ _ _) | simp only [kept_mk]
    | refine kept_fst (by assumption) ?_ | intro _ | apply kept_ite | split)

theorem kept_setNb {k s : State} (hk : Kept k s) (n : Nat) (b : Nb) : Kept k (setNb n b s) := by
  unfold setNb
  try simp only []
  repeat' (with_reducible first
    | assumption | apply kept_setSqc | apply kept_modTrunk | apply kept_flood | (apply kept_foldS; intro _ _ _)
    | (apply kept_foldP; intro _ _ _) | (apply kept_foldL; intro _ _ _) | simp only [kept_mk]
    | refine kept_fst (by assumption) ?_ | intro _ | apply kept_ite | split)

theorem kept_releaseEgress {k s : State} (hk : Kept k s) (n : Nat) : Kept k (releaseEgress n s) := by
  unfold releaseEgress
  try simp only []
  repeat' (with_reducible first
    | assumption | apply kept_freeCredit | apply kept_modTrunk | (apply kept_foldS; intro _ _ _)
    | (apply kept_foldP; intro _ _ _) | (apply kept_foldL; intro _ _ _) | simp only [kept_mk]
    | refine kept_fst (by assumption) ?_ | intro _ | apply kept_ite | split)

theorem kept_loseLink {k s : State} (hk : Kept k s) (n : Nat) (cause : Nat) (b : Nb) : Kept k (loseLink n cause b s) := by
  unfold loseLink
  try simp only []
  repeat' (with_reducible first
    | assumption | apply kept_releaseEgress | apply kept_modTrunk | apply kept_linkEvent | apply kept_setNb
    | (apply kept_foldS; intro _ _ _) | (apply kept_foldP; intro _ _ _) | (apply kept_foldL; intro _ _ _)
    | simp only [kept_mk] | refine kept_fst (by assumption) ?_ | intro _ | apply kept_ite | split)

theorem kept_unblock {k s : State} (hk : Kept k s) (n : Nat) : Kept k (unblock n s) := by
  unfold unblock
  try simp only []
  repeat' (with_reducible first
    | assumption | apply kept_startEgress | apply kept_setNb | apply kept_linkEvent | (apply kept_foldS; intro _ _ _)
    | (apply kept_foldP; intro _ _ _) | (apply kept_foldL; intro _ _ _) | simp only [kept_mk]
    | refine kept_fst (by assumption) ?_ | intro _ | apply kept_ite | split)

theorem kept_repair {k s : State} (hk : Kept k s) (before : List Edge) (x1 : Nat) : Kept k (repair before x1 s) := by
  induction x1 generalizing s with
  | zero =>
    unfold repair
    try simp only []
    repeat' (with_reducible first
      | assumption | apply kept_modNet | apply kept_unblock | (apply kept_foldS; intro _ _ _)
      | (apply kept_foldP; intro _ _ _) | (apply kept_foldL; intro _ _ _) | simp only [kept_mk]
      | refine kept_fst (by assumption) ?_ | intro _ | apply kept_ite | split)
  | succ n ih =>
    unfold repair
    try simp only []
    repeat' (with_reducible first
      | assumption | apply ih | apply kept_modNet | apply kept_unblock | (apply kept_foldS; intro _ _ _)
      | (apply kept_foldP; intro _ _ _) | (apply kept_foldL; intro _ _ _) | simp only [kept_mk]
      | refine kept_fst (by assumption) ?_ | intro _ | apply kept_ite | split)

theorem kept_followPeer {k s : State} (hk : Kept k s) (n : Nat) : Kept k (followPeer n s) := by
  unfold followPeer
  try simp only []
  repeat' (with_reducible first
    | assumption | apply kept_unblock | (apply kept_foldS; intro _ _ _) | (apply kept_foldP; intro _ _ _)
    | (apply kept_foldL; intro _ _ _) | simp only [kept_mk] | refine kept_fst (by assumption) ?_ | intro _
    | apply kept_ite | split)

theorem kept_blockLoop {k s : State} (hk : Kept k s) (e : Edge) : Kept k (blockLoop e s) := by
  unfold blockLoop
  try simp only []
  repeat' (with_reducible first
    | assumption | apply kept_setSqc | apply kept_raise | apply kept_post | apply kept_setNb | apply kept_linkEvent
    | (apply kept_foldS; intro _ _ _) | (apply kept_foldP; intro _ _ _) | (apply kept_foldL; intro _ _ _)
    | simp only [kept_mk] | refine kept_fst (by assumption) ?_ | intro _ | apply kept_ite | split)

theorem kept_breakCycle {k s : State} (hk : Kept k s) : Kept k (breakCycle s) := by
  unfold breakCycle
  try simp only []
  repeat' (with_reducible first
    | assumption | apply kept_blockLoop | apply kept_setSqc | apply kept_raise | apply kept_post | apply kept_setNb
    | apply kept_linkEvent | (apply kept_foldS; intro _ _ _) | (apply kept_foldP; intro _ _ _)
    | (apply kept_foldL; intro _ _ _) | simp only [kept_mk] | refine kept_fst (by assumption) ?_ | intro _
    | apply kept_ite | split)

theorem kept_checkFlags {k s : State} (hk : Kept k s) (n : Nat) : Kept k (checkFlags n s) := by
  unfold checkFlags
  try simp only []
  repeat' (with_reducible first
    | assumption | apply kept_setSqc | apply kept_raise | apply kept_modTrunk | apply kept_post
    | (apply kept_foldS; intro _ _ _) | (apply kept_foldP; intro _ _ _) | (apply kept_foldL; intro _ _ _)
    | simp only [kept_mk] | refine kept_fst (by assumption) ?_ | intro _ | apply kept_ite | split)

theorem kept_afterTopology {k s : State} (hk : Kept k s) (old : State) : Kept k (afterTopology old s) := by
  unfold afterTopology
  try simp only []
  repeat' (with_reducible first
    | assumption | apply kept_repair | apply kept_followPeer | apply kept_checkFlags | apply kept_breakCycle
    | apply kept_followRoutes | apply kept_resend | apply kept_sendCredit | apply kept_sendEvCredit
    | (apply kept_foldS; intro _ _ _) | (apply kept_foldP; intro _ _ _) | (apply kept_foldL; intro _ _ _)
    | simp only [kept_mk] | refine kept_fst (by assumption) ?_ | intro _ | apply kept_ite | split)

theorem kept_withTopology {k s : State} (hk : Kept k s) (f : State → State) (hf : ∀ t : State, Kept k t → Kept k (f t)) : Kept k (withTopology f s) := by
  unfold withTopology
  try simp only []
  repeat' (with_reducible first
    | assumption | apply hf | apply kept_afterTopology | (apply kept_foldS; intro _ _ _)
    | (apply kept_foldP; intro _ _ _) | (apply kept_foldL; intro _ _ _) | simp only [kept_mk]
    | refine kept_fst (by assumption) ?_ | intro _ | apply kept_ite | split)

theorem kept_trunkPhyLinkUp {k s : State} (hk : Kept k s) (n : Nat) : Kept k (trunkPhyLinkUp n s) := by
  unfold trunkPhyLinkUp
  try simp only []
  repeat' (with_reducible first
    | assumption | apply kept_withTopology | apply kept_setNb | apply kept_modTrunk
    | (apply kept_foldS; intro _ _ _) | (apply kept_foldP; intro _ _ _) | (apply kept_foldL; intro _ _ _)
    | simp only [kept_mk] | refine kept_fst (by assumption) ?_ | intro _ | apply kept_ite | split)

theorem kept_trkPhy {k s : State} (hk : Kept k s) (n : Nat) : Kept k (trkPhy n s) := by
  unfold trkPhy
  try simp only []
  repeat' (with_reducible first
    | assumption | apply kept_setSqc | apply kept_raise | (apply kept_foldS; intro _ _ _)
    | (apply kept_foldP; intro _ _ _) | (apply kept_foldL; intro _ _ _) | simp only [kept_mk]
    | refine kept_fst (by assumption) ?_ | intro _ | apply kept_ite | split)

theorem kept_phyFails {k s : State} (hk : Kept k s) (n : Nat) : Kept k (phyFails n s) := by
  unfold phyFails
  try simp only []
  repeat' (with_reducible first
    | assumption | apply kept_trkPhy | apply kept_modTrunk | (apply kept_foldS; intro _ _ _)
    | (apply kept_foldP; intro _ _ _) | (apply kept_foldL; intro _ _ _) | simp only [kept_mk]
    | refine kept_fst (by assumption) ?_ | intro _ | apply kept_ite | split)

theorem kept_trunkPhyLinkDown {k s : State} (hk : Kept k s) (n : Nat) (why : PhyDown) : Kept k (trunkPhyLinkDown n why s) := by
  unfold trunkPhyLinkDown
  try simp only []
  repeat' (with_reducible first
    | assumption | apply kept_withTopology | apply kept_loseLink | apply kept_trkPhy | apply kept_phyFails
    | (apply kept_foldS; intro _ _ _) | (apply kept_foldP; intro _ _ _) | (apply kept_foldL; intro _ _ _)
    | simp only [kept_mk] | refine kept_fst (by assumption) ?_ | intro _ | apply kept_ite | split)

theorem kept_tphyrstExpires {k s : State} (hk : Kept k s) (n : Nat) (answers : Bool) : Kept k (tphyrstExpires n answers s) := by
  unfold tphyrstExpires
  try simp only []
  repeat' (with_reducible first
    | assumption | apply kept_emit | apply kept_modTrunk | apply kept_phyFails | (apply kept_foldS; intro _ _ _)
    | (apply kept_foldP; intro _ _ _) | (apply kept_foldL; intro _ _ _) | simp only [kept_mk]
    | refine kept_fst (by assumption) ?_ | intro _ | apply kept_ite | split)

theorem kept_trunkPhyLinkTimeout {k s : State} (hk : Kept k s) (n : Nat) : Kept k (trunkPhyLinkTimeout n s) := by
  unfold trunkPhyLinkTimeout
  try simp only []
  repeat' (with_reducible first
    | assumption | apply kept_phyFails | (apply kept_foldS; intro _ _ _) | (apply kept_foldP; intro _ _ _)
    | (apply kept_foldL; intro _ _ _) | simp only [kept_mk] | refine kept_fst (by assumption) ?_ | intro _
    | apply kept_ite | split)

theorem kept_tkeepaliveTick {k s : State} (hk : Kept k s) : Kept k (tkeepaliveTick s) := by
  unfold tkeepaliveTick
  try simp only []
  repeat' (with_reducible first
    | assumption | apply kept_sendKa | apply kept_modTrunk | (apply kept_foldS; intro _ _ _)
    | (apply kept_foldP; intro _ _ _) | (apply kept_foldL; intro _ _ _) | simp only [kept_mk]
    | refine kept_fst (by assumption) ?_ | intro _ | apply kept_ite | split)

theorem kept_keepaliveTimeout {k s : State} (hk : Kept k s) (n : Nat) : Kept k (keepaliveTimeout n s) := by
  unfold keepaliveTimeout
  try simp only []
  repeat' (with_reducible first
    | assumption | apply kept_withTopology | apply kept_loseLink | apply kept_raise
    | (apply kept_foldS; intro _ _ _) | (apply kept_foldP; intro _ _ _) | (apply kept_foldL; intro _ _ _)
    | simp only [kept_mk] | refine kept_fst (by assumption) ?_ | intro _ | apply kept_ite | split)

theorem kept_tlinkHoldExpires {k s : State} (hk : Kept k s) (n : Nat) : Kept k (tlinkHoldExpires n s) := by
  unfold tlinkHoldExpires
  try simp only []
  repeat' (with_reducible first
    | assumption | apply kept_modTrunk | (apply kept_foldS; intro _ _ _) | (apply kept_foldP; intro _ _ _)
    | (apply kept_foldL; intro _ _ _) | simp only [kept_mk] | refine kept_fst (by assumption) ?_ | intro _
    | apply kept_ite | split)

theorem kept_learn {k s : State} (hk : Kept k s) (n : Nat) (ka : KeepAlive) : Kept k (learn n ka s) := by
  unfold learn
  try simp only []
  repeat' (with_reducible first
    | assumption | apply kept_modTrunk | apply kept_bumpSeq | (apply kept_foldS; intro _ _ _)
    | (apply kept_foldP; intro _ _ _) | (apply kept_foldL; intro _ _ _) | simp only [kept_mk]
    | refine kept_fst (by assumption) ?_ | intro _ | apply kept_ite | split)

theorem kept_establish {k s : State} (hk : Kept k s) (n : Nat) (ka : KeepAlive) : Kept k (establish n ka s) := by
  unfold establish
  try simp only []
  repeat' (with_reducible first
    | assumption | apply kept_learn | apply kept_modTrunk | apply kept_setNb | apply kept_linkEvent
    | apply kept_bumpSeq | (apply kept_foldS; intro _ _ _) | (apply kept_foldP; intro _ _ _)
    | (apply kept_foldL; intro _ _ _) | simp only [kept_mk] | refine kept_fst (by assumption) ?_ | intro _
    | apply kept_ite | split)

theorem kept_returnCredit {k s : State} (hk : Kept k s) (n : Nat) (ka : KeepAlive) : Kept k (returnCredit n ka s) := by
  unfold returnCredit
  try simp only []
  repeat' (with_reducible first
    | assumption | apply kept_startEgress | apply kept_setTrunk | apply kept_bumpSeq
    | (apply kept_foldS; intro _ _ _) | (apply kept_foldP; intro _ _ _) | (apply kept_foldL; intro _ _ _)
    | simp only [kept_mk] | refine kept_fst (by assumption) ?_ | intro _ | apply kept_ite | split)

theorem kept_keepaliveReceived {k s : State} (hk : Kept k s) (n : Nat) (ka : KeepAlive) : Kept k (keepaliveReceived n ka s) := by
  unfold keepaliveReceived
  try simp only []
  repeat' (with_reducible first
    | assumption | apply kept_modTrunk | apply kept_withTopology | apply kept_establish | apply kept_returnCredit
    | apply kept_flood | apply kept_learn | (apply kept_foldS; intro _ _ _) | (apply kept_foldP; intro _ _ _)
    | (apply kept_foldL; intro _ _ _) | simp only [kept_mk] | refine kept_fst (by assumption) ?_ | intro _
    | apply kept_ite | split)

theorem kept_tsettleExpires {k s : State} (hk : Kept k s) (n : Nat) : Kept k (tsettleExpires n s) := by
  unfold tsettleExpires
  try simp only []
  repeat' (with_reducible first
    | assumption | apply kept_withTopology | apply kept_unblock | apply kept_checkFlags
    | (apply kept_foldS; intro _ _ _) | (apply kept_foldP; intro _ _ _) | (apply kept_foldL; intro _ _ _)
    | simp only [kept_mk] | refine kept_fst (by assumption) ?_ | intro _ | apply kept_ite | split)

theorem kept_withdrawId {k s : State} (hk : Kept k s) : Kept k (withdrawId s) := by
  unfold withdrawId
  try simp only []
  repeat' (with_reducible first
    | assumption | apply kept_flood | apply kept_setSqc | apply kept_modDev | (apply kept_foldS; intro _ _ _)
    | (apply kept_foldP; intro _ _ _) | (apply kept_foldL; intro _ _ _) | simp only [kept_mk]
    | refine kept_fst (by assumption) ?_ | intro _ | apply kept_ite | split)

theorem kept_checkConflict {k s : State} (hk : Kept k s) (r : Topo) : Kept k (checkConflict r s) := by
  unfold checkConflict
  try simp only []
  repeat' (with_reducible first
    | assumption | apply kept_post | apply kept_raise | apply kept_modNet | apply kept_withdrawId
    | (apply kept_foldS; intro _ _ _) | (apply kept_foldP; intro _ _ _) | (apply kept_foldL; intro _ _ _)
    | simp only [kept_mk] | refine kept_fst (by assumption) ?_ | intro _ | apply kept_ite | split)

theorem kept_storeRec {k s : State} (hk : Kept k s) (r : Topo) : Kept k (storeRec r s) := by
  unfold storeRec
  try simp only []
  repeat' (with_reducible first
    | assumption | apply kept_modNet | (apply kept_foldS; intro _ _ _) | (apply kept_foldP; intro _ _ _)
    | (apply kept_foldL; intro _ _ _) | simp only [kept_mk] | refine kept_fst (by assumption) ?_ | intro _
    | apply kept_ite | split)

theorem kept_topologyReceived {k s : State} (hk : Kept k s) (n : Nat) (hops : Nat) (r : Topo) : Kept k (topologyReceived n hops r s) := by
  unfold topologyReceived
  try simp only []
  repeat' (with_reducible first
    | assumption | apply kept_modTrunk | apply kept_floodRec | apply kept_withTopology | apply kept_storeRec
    | apply kept_checkConflict | apply kept_topologyChanged | (apply kept_foldS; intro _ _ _)
    | (apply kept_foldP; intro _ _ _) | (apply kept_foldL; intro _ _ _) | simp only [kept_mk]
    | refine kept_fst (by assumption) ?_ | intro _ | apply kept_ite | split)

theorem kept_ttopoAgeExpires {k s : State} (hk : Kept k s) (id : Half) : Kept k (ttopoAgeExpires id s) := by
  unfold ttopoAgeExpires
  try simp only []
  repeat' (with_reducible first
    | assumption | apply kept_topologyChanged | apply kept_withTopology | apply kept_modNet
    | (apply kept_foldS; intro _ _ _) | (apply kept_foldP; intro _ _ _) | (apply kept_foldL; intro _ _ _)
    | simp only [kept_mk] | refine kept_fst (by assumption) ?_ | intro _ | apply kept_ite | split)

theorem kept_setDeviceId {k s : State} (hk : Kept k s) (id : Half) : Kept k (setDeviceId id s) := by
  unfold setDeviceId
  try simp only []
  repeat' (with_reducible first
    | assumption | apply kept_modLich | apply kept_modDev | apply kept_setSqc | apply kept_sendKa
    | apply kept_withTopology | apply kept_flood | apply kept_floodRec | (apply kept_foldS; intro _ _ _)
    | (apply kept_foldP; intro _ _ _) | (apply kept_foldL; intro _ _ _) | simp only [kept_mk]
    | refine kept_fst (by assumption) ?_ | intro _ | apply kept_ite | split)

theorem kept_forwardFrame {k s : State} (hk : Kept k s) (n : Nat) (type : Nat) (credit : Bool) (f : FrameHdr) (payload : List Byte) : Kept k (forwardFrame n type credit f payload s) := by
  unfold forwardFrame
  try simp only []
  repeat' (with_reducible first
    | assumption | apply kept_modTrunk | apply kept_frameError | apply kept_freeCredit | apply kept_beginFrame
    | apply kept_enqueueEgress | (apply kept_foldS; intro _ _ _) | (apply kept_foldP; intro _ _ _)
    | (apply kept_foldL; intro _ _ _) | simp only [kept_mk] | refine kept_fst (by assumption) ?_ | intro _
    | apply kept_ite | split)

theorem kept_passBad {k s : State} (hk : Kept k s) (n : Nat) (x : Passing) : Kept k (passBad n x s) := by
  unfold passBad
  try simp only []
  repeat' (with_reducible first
    | assumption | apply kept_beginFrame | (apply kept_foldS; intro _ _ _) | (apply kept_foldP; intro _ _ _)
    | (apply kept_foldL; intro _ _ _) | simp only [kept_mk] | refine kept_fst (by assumption) ?_ | intro _
    | apply kept_ite | split)

theorem kept_takeFrame {k s : State} (hk : Kept k s) (n : Nat) (f : FrameHdr) (len : Nat) : Kept k (takeFrame n f len s) := by
  unfold takeFrame
  try simp only []
  repeat' (with_reducible first
    | assumption | apply kept_freeCredit | apply kept_modTrunk | (apply kept_foldS; intro _ _ _)
    | (apply kept_foldP; intro _ _ _) | (apply kept_foldL; intro _ _ _) | simp only [kept_mk]
    | refine kept_fst (by assumption) ?_ | intro _ | apply kept_ite | split)

theorem kept_deliver {k s : State} (hk : Kept k s) (q : Nat) (e : Nat) (bs : List Byte) : Kept k (deliver q e bs s) := by
  unfold deliver
  try simp only []
  repeat' (with_reducible first
    | assumption | apply kept_pushItem | (apply kept_foldS; intro _ _ _) | (apply kept_foldP; intro _ _ _)
    | (apply kept_foldL; intro _ _ _) | simp only [kept_mk] | refine kept_fst (by assumption) ?_ | intro _
    | apply kept_ite | split)

theorem kept_replyFrameReceived {k s : State} (hk : Kept k s) (n : Nat) (f : FrameHdr) (bytes : List Byte) : Kept k (replyFrameReceived n f bytes s) := by
  unfold replyFrameReceived
  try simp only []
  repeat' (with_reducible first
    | assumption | apply kept_deliver | apply kept_forwardFrame | apply kept_takeFrame | apply kept_replyQueue
    | apply kept_modHost | apply kept_modNet | apply kept_sendEvCredit | (apply kept_foldS; intro _ _ _)
    | (apply kept_foldP; intro _ _ _) | (apply kept_foldL; intro _ _ _) | simp only [kept_mk]
    | refine kept_fst (by assumption) ?_ | intro _ | apply kept_ite | split)

theorem kept_eventFrameReceived {k s : State} (hk : Kept k s) (n : Nat) (f : FrameHdr) (i : Item) : Kept k (eventFrameReceived n f i s) := by
  unfold eventFrameReceived
  try simp only []
  repeat' (with_reducible first
    | assumption | apply kept_forwardFrame | apply kept_takeFrame | apply kept_modNet | apply kept_pushKept
    | apply kept_sendEvCredit | apply kept_frameError | (apply kept_foldS; intro _ _ _)
    | (apply kept_foldP; intro _ _ _) | (apply kept_foldL; intro _ _ _) | simp only [kept_mk]
    | refine kept_fst (by assumption) ?_ | intro _ | apply kept_ite | split)

theorem kept_deliveryFrameReceived {k s : State} (hk : Kept k s) (n : Nat) (f : FrameHdr) (i : Item) : Kept k (deliveryFrameReceived n f i s) := by
  unfold deliveryFrameReceived
  try simp only []
  repeat' (with_reducible first
    | assumption | apply kept_takeFrame | apply kept_forwardFrame | apply kept_pushItem | apply kept_setQueue
    | apply kept_sendCredit | apply kept_frameError | (apply kept_foldS; intro _ _ _)
    | (apply kept_foldP; intro _ _ _) | (apply kept_foldL; intro _ _ _) | simp only [kept_mk]
    | refine kept_fst (by assumption) ?_ | intro _ | apply kept_ite | split)

theorem kept_takeCredit {k s : State} (hk : Kept k s) (q : Nat) (admitted : Half) (window : Nat) (reset : Bool) : Kept k (takeCredit q admitted window reset s) := by
  unfold takeCredit
  try simp only []
  repeat' (with_reducible first
    | assumption | apply kept_pump | apply kept_setQueue | apply kept_replayCheck | apply kept_putQueue
    | (apply kept_foldS; intro _ _ _) | (apply kept_foldP; intro _ _ _) | (apply kept_foldL; intro _ _ _)
    | simp only [kept_mk] | refine kept_fst (by assumption) ?_ | intro _ | apply kept_ite | split)

theorem kept_creditRecordReceived {k s : State} (hk : Kept k s) (n : Nat) (f : FrameHdr) (admitted : Half) (window : Nat) (reset : Bool) : Kept k (creditRecordReceived n f admitted window reset s) := by
  unfold creditRecordReceived
  try simp only []
  repeat' (with_reducible first
    | assumption | apply kept_takeFrame | apply kept_forwardFrame | apply kept_takeCredit | apply kept_drainHeld
    | (apply kept_foldS; intro _ _ _) | (apply kept_foldP; intro _ _ _) | (apply kept_foldL; intro _ _ _)
    | simp only [kept_mk] | refine kept_fst (by assumption) ?_ | intro _ | apply kept_ite | split)

theorem kept_te2eRetryExpires {k s : State} (hk : Kept k s) (q : Nat) : Kept k (te2eRetryExpires q s) := by
  unfold te2eRetryExpires
  try simp only []
  repeat' (with_reducible first
    | assumption | apply kept_resend | (apply kept_foldS; intro _ _ _) | (apply kept_foldP; intro _ _ _)
    | (apply kept_foldL; intro _ _ _) | simp only [kept_mk] | refine kept_fst (by assumption) ?_ | intro _
    | apply kept_ite | split)

theorem kept_tcreditExpires {k s : State} (hk : Kept k s) (q : Nat) : Kept k (tcreditExpires q s) := by
  unfold tcreditExpires
  try simp only []
  repeat' (with_reducible first
    | assumption | apply kept_sendEvCredit | apply kept_sendCredit | (apply kept_foldS; intro _ _ _)
    | (apply kept_foldP; intro _ _ _) | (apply kept_foldL; intro _ _ _) | simp only [kept_mk]
    | refine kept_fst (by assumption) ?_ | intro _ | apply kept_ite | split)

theorem kept_timeFrameReceived {k s : State} (hk : Kept k s) (n : Nat) (ns : DWord) (locked : Bool) : Kept k (timeFrameReceived n ns locked s) := by
  unfold timeFrameReceived
  try simp only []
  repeat' (with_reducible first
    | assumption | apply kept_modTrunk | apply kept_post | (apply kept_foldS; intro _ _ _)
    | (apply kept_foldP; intro _ _ _) | (apply kept_foldL; intro _ _ _) | simp only [kept_mk]
    | refine kept_fst (by assumption) ?_ | intro _ | apply kept_ite | split)

theorem kept_receivedFrameDiscarded {k s : State} (hk : Kept k s) (n : Nat) (why : Discard) : Kept k (receivedFrameDiscarded n why s) := by
  unfold receivedFrameDiscarded
  try simp only []
  repeat' (with_reducible first
    | assumption | apply kept_frameError | apply kept_raise | apply kept_modTrunk | apply kept_passBad
    | (apply kept_foldS; intro _ _ _) | (apply kept_foldP; intro _ _ _) | (apply kept_foldL; intro _ _ _)
    | simp only [kept_mk] | refine kept_fst (by assumption) ?_ | intro _ | apply kept_ite | split)

theorem kept_atMac {k s : State} (hk : Kept k s) (n : Nat) (f : FrameHdr) (g : State → State) (hf : ∀ t : State, Kept k t → Kept k (g t)) : Kept k (atMac n f g s) := by
  unfold atMac
  try simp only []
  repeat' (with_reducible first
    | assumption | apply hf | apply kept_receivedFrameDiscarded | (apply kept_foldS; intro _ _ _)
    | (apply kept_foldP; intro _ _ _) | (apply kept_foldL; intro _ _ _) | simp only [kept_mk]
    | refine kept_fst (by assumption) ?_ | intro _ | apply kept_ite | split)

theorem kept_egressFrameEnd {k s : State} (hk : Kept k s) (n : Nat) : Kept k (egressFrameEnd n s) := by
  unfold egressFrameEnd
  try simp only []
  repeat' (with_reducible first
    | assumption | apply kept_modTrunk | apply kept_freeCredit | apply kept_startEgress | apply kept_bumpSeq
    | (apply kept_foldS; intro _ _ _) | (apply kept_foldP; intro _ _ _) | (apply kept_foldL; intro _ _ _)
    | simp only [kept_mk] | refine kept_fst (by assumption) ?_ | intro _ | apply kept_ite | split)

theorem kept_trunkOff {k s : State} (hk : Kept k s) (n : Nat) : Kept k (trunkOff n s) := by
  unfold trunkOff
  try simp only []
  repeat' (with_reducible first
    | assumption | apply kept_emit | apply kept_withTopology | apply kept_loseLink
    | (apply kept_foldS; intro _ _ _) | (apply kept_foldP; intro _ _ _) | (apply kept_foldL; intro _ _ _)
    | simp only [kept_mk] | refine kept_fst (by assumption) ?_ | intro _ | apply kept_ite | split)

theorem kept_trunkOn {k s : State} (hk : Kept k s) (n : Nat) : Kept k (trunkOn n s) := by
  unfold trunkOn
  try simp only []
  repeat' (with_reducible first
    | assumption | apply kept_emit | apply kept_withTopology | apply kept_setNb | apply kept_modTrunk
    | (apply kept_foldS; intro _ _ _) | (apply kept_foldP; intro _ _ _) | (apply kept_foldL; intro _ _ _)
    | simp only [kept_mk] | refine kept_fst (by assumption) ?_ | intro _ | apply kept_ite | split)

theorem kept_applyTrk {k s : State} (hk : Kept k s) (n : Nat) (new : TrunkCfg) : Kept k (applyTrk n new s) := by
  unfold applyTrk
  try simp only []
  repeat' (with_reducible first
    | assumption | apply kept_modLich | apply kept_modTrunk | apply kept_trunkOff | apply kept_trunkOn
    | apply kept_withTopology | apply kept_loseLink | apply kept_flood | (apply kept_foldS; intro _ _ _)
    | (apply kept_foldP; intro _ _ _) | (apply kept_foldL; intro _ _ _) | simp only [kept_mk]
    | refine kept_fst (by assumption) ?_ | intro _ | apply kept_ite | split)

theorem kept_trkConfigCmd  : SpecKept trkConfigCmd := by
  intro k x s hk
  simp only [trkConfigCmd]
  repeat' (with_reducible first
    | assumption | apply kept_applyTrk | (apply kept_foldS; intro _ _ _) | (apply kept_foldP; intro _ _ _)
    | (apply kept_foldL; intro _ _ _) | simp only [kept_mk] | refine kept_fst (by assumption) ?_ | intro _
    | apply kept_ite | split)

theorem kept_trkStatusCmd  : SpecKept trkStatusCmd := by
  intro k x s hk
  simp only [trkStatusCmd]
  repeat' (with_reducible first
    | assumption | (apply kept_foldS; intro _ _ _) | (apply kept_foldP; intro _ _ _)
    | (apply kept_foldL; intro _ _ _) | simp only [kept_mk] | refine kept_fst (by assumption) ?_ | intro _
    | apply kept_ite | split)

theorem kept_trkRouteCmd  : SpecKept trkRouteCmd := by
  intro k x s hk
  simp only [trkRouteCmd]
  repeat' (with_reducible first
    | assumption | apply kept_withTopology | apply kept_modNet | (apply kept_foldS; intro _ _ _)
    | (apply kept_foldP; intro _ _ _) | (apply kept_foldL; intro _ _ _) | simp only [kept_mk]
    | refine kept_fst (by assumption) ?_ | intro _ | apply kept_ite | split)

theorem kept_trkDiscoverCmd  : SpecKept trkDiscoverCmd := by
  intro k x s hk
  simp only [trkDiscoverCmd]
  repeat' (with_reducible first
    | assumption | (apply kept_foldS; intro _ _ _) | (apply kept_foldP; intro _ _ _)
    | (apply kept_foldL; intro _ _ _) | simp only [kept_mk] | refine kept_fst (by assumption) ?_ | intro _
    | apply kept_ite | split)

theorem kept_portEvent {k s : State} (hk : Kept k s) (p : Nat) (code : Nat) (addr : Nat) (a : Nat) (b : Nat) (rec : List Byte) : Kept k (portEvent p code addr a b rec s) := by
  unfold portEvent
  try simp only []
  repeat' (with_reducible first
    | assumption | apply kept_post | apply kept_setSqc | (apply kept_foldS; intro _ _ _)
    | (apply kept_foldP; intro _ _ _) | (apply kept_foldL; intro _ _ _) | simp only [kept_mk]
    | refine kept_fst (by assumption) ?_ | intro _ | apply kept_ite | split)

theorem kept_fetchCtx {k s : State} (hk : Kept k s) (e : Nat) : Kept k (fetchCtx e s) := by
  unfold fetchCtx
  try simp only []
  repeat' (with_reducible first
    | assumption | apply kept_useFree | (apply kept_foldS; intro _ _ _) | (apply kept_foldP; intro _ _ _)
    | (apply kept_foldL; intro _ _ _) | simp only [kept_mk] | refine kept_fst (by assumption) ?_ | intro _
    | apply kept_ite | split)

theorem kept_noteService {k s : State} (hk : Kept k s) : Kept k (noteService s) := by
  unfold noteService
  try simp only []
  repeat' (with_reducible first
    | assumption | apply kept_setCtx | apply kept_modPort | (apply kept_foldS; intro _ _ _)
    | (apply kept_foldP; intro _ _ _) | (apply kept_foldL; intro _ _ _) | simp only [kept_mk]
    | refine kept_fst (by assumption) ?_ | intro _ | apply kept_ite | split)

theorem kept_quiet {k s : State} (hk : Kept k s) (es : List Nat) : Kept k (quiet es s) := by
  unfold quiet
  try simp only []
  repeat' (with_reducible first
    | assumption | apply kept_setCtx | (apply kept_foldS; intro _ _ _) | (apply kept_foldP; intro _ _ _)
    | (apply kept_foldL; intro _ _ _) | simp only [kept_mk] | refine kept_fst (by assumption) ?_ | intro _
    | apply kept_ite | split)

theorem kept_postService {k s : State} (hk : Kept k s) (p : Nat) : Kept k (postService p s) := by
  unfold postService
  try simp only []
  repeat' (with_reducible first
    | assumption | apply kept_portEvent | apply kept_modPort | (apply kept_foldS; intro _ _ _)
    | (apply kept_foldP; intro _ _ _) | (apply kept_foldL; intro _ _ _) | simp only [kept_mk]
    | refine kept_fst (by assumption) ?_ | intro _ | apply kept_ite | split)

theorem kept_flushService {k s : State} (hk : Kept k s) : Kept k (flushService s) := by
  unfold flushService
  try simp only []
  repeat' (with_reducible first
    | assumption | apply kept_postService | (apply kept_foldS; intro _ _ _) | (apply kept_foldP; intro _ _ _)
    | (apply kept_foldL; intro _ _ _) | simp only [kept_mk] | refine kept_fst (by assumption) ?_ | intro _
    | apply kept_ite | split)

theorem kept_serviceEnd {k s : State} (hk : Kept k s) (p : Nat) : Kept k (serviceEnd p s) := by
  unfold serviceEnd
  try simp only []
  repeat' (with_reducible first
    | assumption | apply kept_modPort | apply kept_postService | (apply kept_foldS; intro _ _ _)
    | (apply kept_foldP; intro _ _ _) | (apply kept_foldL; intro _ _ _) | simp only [kept_mk]
    | refine kept_fst (by assumption) ?_ | intro _ | apply kept_ite | split)

theorem kept_changeEngine {k s : State} (hk : Kept k s) (e : Nat) (f : Engine → Engine) : Kept k (changeEngine e f s) := by
  unfold changeEngine
  try simp only []
  repeat' (with_reducible first
    | assumption | apply kept_modEngine | apply kept_bumpSeq | (apply kept_foldS; intro _ _ _)
    | (apply kept_foldP; intro _ _ _) | (apply kept_foldL; intro _ _ _) | simp only [kept_mk]
    | refine kept_fst (by assumption) ?_ | intro _ | apply kept_ite | split)

theorem kept_bumpMig {k s : State} (hk : Kept k s) (m : Mig) : Kept k (bumpMig m s) := by
  unfold bumpMig
  try simp only []
  repeat' (with_reducible first
    | assumption | apply kept_bumpSeq | (apply kept_foldS; intro _ _ _) | (apply kept_foldP; intro _ _ _)
    | (apply kept_foldL; intro _ _ _) | simp only [kept_mk] | refine kept_fst (by assumption) ?_ | intro _
    | apply kept_ite | split)

theorem kept_stokEvent {k s : State} (hk : Kept k s) (code : Nat) (a : Nat) (b : Nat) (w : Nat) : Kept k (stokEvent code a b w s) := by
  unfold stokEvent
  try simp only []
  repeat' (with_reducible first
    | assumption | apply kept_post | (apply kept_foldS; intro _ _ _) | (apply kept_foldP; intro _ _ _)
    | (apply kept_foldL; intro _ _ _) | simp only [kept_mk] | refine kept_fst (by assumption) ?_ | intro _
    | apply kept_ite | split)

theorem kept_pinMoved {k s : State} (hk : Kept k s) (g : Nat) (e : Nat) : Kept k (pinMoved g e s) := by
  unfold pinMoved
  try simp only []
  repeat' (with_reducible first
    | assumption | apply kept_setSqc | apply kept_stokEvent | (apply kept_foldS; intro _ _ _)
    | (apply kept_foldP; intro _ _ _) | (apply kept_foldL; intro _ _ _) | simp only [kept_mk]
    | refine kept_fst (by assumption) ?_ | intro _ | apply kept_ite | split)

theorem kept_settle {k s : State} (hk : Kept k s) (g : Nat) : Kept k (settle g s) := by
  unfold settle
  try simp only []
  repeat' (with_reducible first
    | assumption | apply kept_setCtx | (apply kept_foldS; intro _ _ _) | (apply kept_foldP; intro _ _ _)
    | (apply kept_foldL; intro _ _ _) | simp only [kept_mk] | refine kept_fst (by assumption) ?_ | intro _
    | apply kept_ite | split)

theorem kept_putGroup {k s : State} (hk : Kept k s) (g : Nat) (e : Nat) : Kept k (putGroup g e s) := by
  unfold putGroup
  try simp only []
  repeat' (with_reducible first
    | assumption | apply kept_settle | apply kept_modStok | apply kept_changeEngine | apply kept_pinMoved
    | (apply kept_foldS; intro _ _ _) | (apply kept_foldP; intro _ _ _) | (apply kept_foldL; intro _ _ _)
    | simp only [kept_mk] | refine kept_fst (by assumption) ?_ | intro _ | apply kept_ite | split)

theorem kept_dropMig {k s : State} (hk : Kept k s) (g : Nat) : Kept k (dropMig g s) := by
  unfold dropMig
  try simp only []
  repeat' (with_reducible first
    | assumption | apply kept_bumpMig | apply kept_modStok | (apply kept_foldS; intro _ _ _)
    | (apply kept_foldP; intro _ _ _) | (apply kept_foldL; intro _ _ _) | simp only [kept_mk]
    | refine kept_fst (by assumption) ?_ | intro _ | apply kept_ite | split)

theorem kept_takeover {k s : State} (hk : Kept k s) (src : Nat) (g : Nat) : Kept k (takeover src g s) := by
  unfold takeover
  try simp only []
  repeat' (with_reducible first
    | assumption | apply kept_modStok | apply kept_putGroup | (apply kept_foldS; intro _ _ _)
    | (apply kept_foldP; intro _ _ _) | (apply kept_foldL; intro _ _ _) | simp only [kept_mk]
    | refine kept_fst (by assumption) ?_ | intro _ | apply kept_ite | split)

theorem kept_capacityLost {k s : State} (hk : Kept k s) : Kept k (capacityLost s) := by
  unfold capacityLost
  try simp only []
  repeat' (with_reducible first
    | assumption | apply kept_setSqc | apply kept_raise | (apply kept_foldS; intro _ _ _)
    | (apply kept_foldP; intro _ _ _) | (apply kept_foldL; intro _ _ _) | simp only [kept_mk]
    | refine kept_fst (by assumption) ?_ | intro _ | apply kept_ite | split)

theorem kept_abandonMig {k s : State} (hk : Kept k s) (g : Nat) : Kept k (abandonMig g s) := by
  unfold abandonMig
  try simp only []
  repeat' (with_reducible first
    | assumption | apply kept_takeover | apply kept_capacityLost | apply kept_setSqc | apply kept_stokEvent
    | apply kept_dropMig | (apply kept_foldS; intro _ _ _) | (apply kept_foldP; intro _ _ _)
    | (apply kept_foldL; intro _ _ _) | simp only [kept_mk] | refine kept_fst (by assumption) ?_ | intro _
    | apply kept_ite | split)

theorem kept_issueOrders {k s : State} (hk : Kept k s) (x1 : Nat) : Kept k (issueOrders x1 s) := by
  induction x1 generalizing s with
  | zero =>
    unfold issueOrders
    try simp only []
    repeat' (with_reducible first
      | assumption | apply kept_modStok | apply kept_changeEngine | apply kept_bumpMig
      | (apply kept_foldS; intro _ _ _) | (apply kept_foldP; intro _ _ _) | (apply kept_foldL; intro _ _ _)
      | simp only [kept_mk] | refine kept_fst (by assumption) ?_ | intro _ | apply kept_ite | split)
  | succ n ih =>
    unfold issueOrders
    try simp only []
    repeat' (with_reducible first
      | assumption | apply ih | apply kept_modStok | apply kept_changeEngine | apply kept_bumpMig
      | (apply kept_foldS; intro _ _ _) | (apply kept_foldP; intro _ _ _) | (apply kept_foldL; intro _ _ _)
      | simp only [kept_mk] | refine kept_fst (by assumption) ?_ | intro _ | apply kept_ite | split)

theorem kept_addOrder {k s : State} (hk : Kept k s) (prio : Nat) (g : Nat) (dst : Nat) : Kept k (addOrder prio g dst s) := by
  unfold addOrder
  try simp only []
  repeat' (with_reducible first
    | assumption | apply kept_modStok | (apply kept_foldS; intro _ _ _) | (apply kept_foldP; intro _ _ _)
    | (apply kept_foldL; intro _ _ _) | simp only [kept_mk] | refine kept_fst (by assumption) ?_ | intro _
    | apply kept_ite | split)

theorem kept_order {k s : State} (hk : Kept k s) (prio : Nat) (g : Nat) (dst : Nat) : Kept k (order prio g dst s) := by
  unfold order
  try simp only []
  repeat' (with_reducible first
    | assumption | apply kept_addOrder | apply kept_issueOrders | apply kept_modStok
    | (apply kept_foldS; intro _ _ _) | (apply kept_foldP; intro _ _ _) | (apply kept_foldL; intro _ _ _)
    | simp only [kept_mk] | refine kept_fst (by assumption) ?_ | intro _ | apply kept_ite | split)

theorem kept_pushHeld {k s : State} (hk : Kept k s) (g : Nat) : Kept k (pushHeld g s) := by
  unfold pushHeld
  try simp only []
  repeat' (with_reducible first
    | assumption | apply kept_pushItem | (apply kept_foldS; intro _ _ _) | (apply kept_foldP; intro _ _ _)
    | (apply kept_foldL; intro _ _ _) | simp only [kept_mk] | refine kept_fst (by assumption) ?_ | intro _
    | apply kept_ite | split)

theorem kept_releaseGroup {k s : State} (hk : Kept k s) (g : Nat) : Kept k (releaseGroup g s) := by
  unfold releaseGroup
  try simp only []
  repeat' (with_reducible first
    | assumption | apply kept_pushHeld | apply kept_modStok | apply kept_dropMig | (apply kept_foldS; intro _ _ _)
    | (apply kept_foldP; intro _ _ _) | (apply kept_foldL; intro _ _ _) | simp only [kept_mk]
    | refine kept_fst (by assumption) ?_ | intro _ | apply kept_ite | split)

theorem kept_claimGroup {k s : State} (hk : Kept k s) (g : Nat) : Kept k (claimGroup g s) := by
  unfold claimGroup
  try simp only []
  repeat' (with_reducible first
    | assumption | apply kept_putGroup | apply kept_capacityLost | apply kept_modStok
    | (apply kept_foldS; intro _ _ _) | (apply kept_foldP; intro _ _ _) | (apply kept_foldL; intro _ _ _)
    | simp only [kept_mk] | refine kept_fst (by assumption) ?_ | intro _ | apply kept_ite | split)

theorem kept_takeoverAll {k s : State} (hk : Kept k s) (e : Nat) : Kept k (takeoverAll e s) := by
  unfold takeoverAll
  try simp only []
  repeat' (with_reducible first
    | assumption | apply kept_abandonMig | apply kept_putGroup | apply kept_dropMig | apply kept_modStok
    | apply kept_takeover | apply kept_capacityLost | (apply kept_foldS; intro _ _ _)
    | (apply kept_foldP; intro _ _ _) | (apply kept_foldL; intro _ _ _) | simp only [kept_mk]
    | refine kept_fst (by assumption) ?_ | intro _ | apply kept_ite | split)

theorem kept_replaceUnplaced {k s : State} (hk : Kept k s) : Kept k (replaceUnplaced s) := by
  unfold replaceUnplaced
  try simp only []
  repeat' (with_reducible first
    | assumption | apply kept_putGroup | (apply kept_foldS; intro _ _ _) | (apply kept_foldP; intro _ _ _)
    | (apply kept_foldL; intro _ _ _) | simp only [kept_mk] | refine kept_fst (by assumption) ?_ | intro _
    | apply kept_ite | split)

theorem kept_refreshReserve {k s : State} (hk : Kept k s) (q : Nat) : Kept k (refreshReserve q s) := by
  unfold refreshReserve
  try simp only []
  repeat' (with_reducible first
    | assumption | apply kept_putQueue | (apply kept_foldS; intro _ _ _) | (apply kept_foldP; intro _ _ _)
    | (apply kept_foldL; intro _ _ _) | simp only [kept_mk] | refine kept_fst (by assumption) ?_ | intro _
    | apply kept_ite | split)

theorem kept_commitBind {k s : State} (hk : Kept k s) (e : Nat) (q : Nat) (cls : Nat) (exp : Nat) (phase : Nat) : Kept k (commitBind e q cls exp phase s) := by
  unfold commitBind
  try simp only []
  repeat' (with_reducible first
    | assumption | apply kept_addOrder | apply kept_refreshReserve | apply kept_setCtx | apply kept_order
    | apply kept_modCtx | (apply kept_foldS; intro _ _ _) | (apply kept_foldP; intro _ _ _)
    | (apply kept_foldL; intro _ _ _) | simp only [kept_mk] | refine kept_fst (by assumption) ?_ | intro _
    | apply kept_ite | split)

theorem kept_endXfer {k s : State} (hk : Kept k s) (x : Xfer) (code : Nat) : Kept k (endXfer x code s) := by
  unfold endXfer
  try simp only []
  repeat' (with_reducible first
    | assumption | apply kept_finishOp | (apply kept_foldS; intro _ _ _) | (apply kept_foldP; intro _ _ _)
    | (apply kept_foldL; intro _ _ _) | simp only [kept_mk] | refine kept_fst (by assumption) ?_ | intro _
    | apply kept_ite | split)

theorem kept_endBare {k s : State} (hk : Kept k s) (e : Nat) : Kept k (endBare e s) := by
  unfold endBare
  try simp only []
  repeat' (with_reducible first
    | assumption | apply kept_endXfer | (apply kept_foldS; intro _ _ _) | (apply kept_foldP; intro _ _ _)
    | (apply kept_foldL; intro _ _ _) | simp only [kept_mk] | refine kept_fst (by assumption) ?_ | intro _
    | apply kept_ite | split)

theorem kept_endXfers {k s : State} (hk : Kept k s) (f : Xfer → Bool) (code : Nat) : Kept k (endXfers f code s) := by
  unfold endXfers
  try simp only []
  repeat' (with_reducible first
    | assumption | apply kept_endBare | apply kept_endXfer | (apply kept_foldS; intro _ _ _)
    | (apply kept_foldP; intro _ _ _) | (apply kept_foldL; intro _ _ _) | simp only [kept_mk]
    | refine kept_fst (by assumption) ?_ | intro _ | apply kept_ite | split)

theorem kept_endWait {k s : State} (hk : Kept k s) (e : Nat) : Kept k (endWait e s) := by
  unfold endWait
  try simp only []
  repeat' (with_reducible first
    | assumption | apply kept_finishOp | apply kept_setCtx | (apply kept_foldS; intro _ _ _)
    | (apply kept_foldP; intro _ _ _) | (apply kept_foldL; intro _ _ _) | simp only [kept_mk]
    | refine kept_fst (by assumption) ?_ | intro _ | apply kept_ite | split)

theorem kept_unbind {k s : State} (hk : Kept k s) (e : Nat) : Kept k (unbind e s) := by
  unfold unbind
  try simp only []
  repeat' (with_reducible first
    | assumption | apply kept_endWait | apply kept_modCtx | apply kept_refreshReserve
    | (apply kept_foldS; intro _ _ _) | (apply kept_foldP; intro _ _ _) | (apply kept_foldL; intro _ _ _)
    | simp only [kept_mk] | refine kept_fst (by assumption) ?_ | intro _ | apply kept_ite | split)

theorem kept_freeCtx {k s : State} (hk : Kept k s) (code : Nat) (e : Nat) : Kept k (freeCtx code e s) := by
  unfold freeCtx
  try simp only []
  repeat' (with_reducible first
    | assumption | apply kept_unbind | apply kept_endXfers | apply kept_releaseGroup | apply kept_modPort
    | (apply kept_foldS; intro _ _ _) | (apply kept_foldP; intro _ _ _) | (apply kept_foldL; intro _ _ _)
    | simp only [kept_mk] | refine kept_fst (by assumption) ?_ | intro _ | apply kept_ite | split)

theorem kept_retryWait {k s : State} (hk : Kept k s) (e : Nat) : Kept k (retryWait e s) := by
  unfold retryWait
  try simp only []
  repeat' (with_reducible first
    | assumption | apply kept_setCtx | apply kept_quiet | apply kept_finishOp | apply kept_commitBind
    | (apply kept_foldS; intro _ _ _) | (apply kept_foldP; intro _ _ _) | (apply kept_foldL; intro _ _ _)
    | simp only [kept_mk] | refine kept_fst (by assumption) ?_ | intro _ | apply kept_ite | split)

theorem kept_trimCache {k s : State} (hk : Kept k s) (room : Nat) : Kept k (trimCache room s) := by
  unfold trimCache
  try simp only []
  repeat' (with_reducible first
    | assumption | apply kept_useFree | (apply kept_foldS; intro _ _ _) | (apply kept_foldP; intro _ _ _)
    | (apply kept_foldL; intro _ _ _) | simp only [kept_mk] | refine kept_fst (by assumption) ?_ | intro _
    | apply kept_ite | split)

theorem kept_beginTest {k s : State} (hk : Kept k s) (t' : Test) : Kept k (beginTest t' s) := by
  unfold beginTest
  try simp only []
  repeat' (with_reducible first
    | assumption | apply kept_trimCache | apply kept_changeEngine | apply kept_modPbank | apply kept_modCbank
    | (apply kept_foldS; intro _ _ _) | (apply kept_foldP; intro _ _ _) | (apply kept_foldL; intro _ _ _)
    | simp only [kept_mk] | refine kept_fst (by assumption) ?_ | intro _ | apply kept_ite | split)

theorem kept_engineEmpty {k s : State} (hk : Kept k s) : Kept k (engineEmpty s) := by
  unfold engineEmpty
  try simp only []
  repeat' (with_reducible first
    | assumption | apply kept_beginTest | (apply kept_foldS; intro _ _ _) | (apply kept_foldP; intro _ _ _)
    | (apply kept_foldL; intro _ _ _) | simp only [kept_mk] | refine kept_fst (by assumption) ?_ | intro _
    | apply kept_ite | split)

theorem kept_evacOrder {k : State} {acc : State × Nat} (hk : Kept k acc.1) (limit : Nat) (e : Nat) (g : Nat) : Kept k (evacOrder limit e acc g).1 := by
  unfold evacOrder
  try simp only []
  repeat' (with_reducible first
    | assumption | apply kept_addOrder | apply kept_order | (apply kept_foldS; intro _ _ _)
    | (apply kept_foldP; intro _ _ _) | (apply kept_foldL; intro _ _ _) | simp only [kept_mk]
    | refine kept_fst (by assumption) ?_ | intro _ | apply kept_ite | split)

theorem kept_evacOrders {k : State} (limit : Nat) (e : Nat) {acc : State × Nat} (hk : Kept k acc.1) : Kept k (evacOrders limit e acc).1 := by
  unfold evacOrders
  try simp only []
  repeat' (with_reducible first
    | assumption | apply kept_evacOrder | (apply kept_foldS; intro _ _ _) | (apply kept_foldP; intro _ _ _)
    | (apply kept_foldL; intro _ _ _) | simp only [kept_mk] | refine kept_fst (by assumption) ?_ | intro _
    | apply kept_ite | split)

theorem kept_startEvac {k s : State} (hk : Kept k s) (t' : Test) : Kept k (startEvac t' s) := by
  unfold startEvac
  try simp only []
  repeat' (with_reducible first
    | assumption | apply kept_issueOrders | apply kept_trimCache | apply kept_engineEmpty | apply kept_evacOrders
    | apply kept_changeEngine | (apply kept_foldS; intro _ _ _) | (apply kept_foldP; intro _ _ _)
    | (apply kept_foldL; intro _ _ _) | simp only [kept_mk] | refine kept_fst (by assumption) ?_ | intro _
    | apply kept_ite | split)

theorem kept_nextTest {k s : State} (hk : Kept k s) : Kept k (nextTest s) := by
  unfold nextTest
  try simp only []
  repeat' (with_reducible first
    | assumption | apply kept_beginTest | apply kept_startEvac | (apply kept_foldS; intro _ _ _)
    | (apply kept_foldP; intro _ _ _) | (apply kept_foldL; intro _ _ _) | simp only [kept_mk]
    | refine kept_fst (by assumption) ?_ | intro _ | apply kept_ite | split)

theorem kept_askTest {k s : State} (hk : Kept k s) (t' : Test) : Kept k (askTest t' s) := by
  unfold askTest
  try simp only []
  repeat' (with_reducible first
    | assumption | apply kept_nextTest | (apply kept_foldS; intro _ _ _) | (apply kept_foldP; intro _ _ _)
    | (apply kept_foldL; intro _ _ _) | simp only [kept_mk] | refine kept_fst (by assumption) ?_ | intro _
    | apply kept_ite | split)

theorem kept_endTest {k s : State} (hk : Kept k s) : Kept k (endTest s) := by
  unfold endTest
  try simp only []
  repeat' (with_reducible first
    | assumption | apply kept_nextTest | (apply kept_foldS; intro _ _ _) | (apply kept_foldP; intro _ _ _)
    | (apply kept_foldL; intro _ _ _) | simp only [kept_mk] | refine kept_fst (by assumption) ?_ | intro _
    | apply kept_ite | split)

theorem kept_unitBack {k s : State} (hk : Kept k s) (u : TUnit) : Kept k (unitBack u s) := by
  unfold unitBack
  try simp only []
  repeat' (with_reducible first
    | assumption | apply kept_changeEngine | apply kept_modPbank | apply kept_modCbank
    | (apply kept_foldS; intro _ _ _) | (apply kept_foldP; intro _ _ _) | (apply kept_foldL; intro _ _ _)
    | simp only [kept_mk] | refine kept_fst (by assumption) ?_ | intro _ | apply kept_ite | split)

end Sys2Proof.Machine
end

