-- ==== Sys2Proof/Laws/KeptPorts.lean ====
section
/-!
SUPPORT. `Kept` (Laws/Kept.lean) for ports, enumeration and the port commands.
-/
set_option linter.all false
namespace Sys2Proof.Machine

theorem kept_measure {k s : State} (hk : Kept k s) (p : Nat) : Kept k (measure p s) := by
  unfold measure
  try simp only []
  repeat' (with_reducible first
    | assumption | apply kept_modPort | (apply kept_foldS; intro _ _ _) | (apply kept_foldP; intro _ _ _)
    | (apply kept_foldL; intro _ _ _) | simp only [kept_mk] | refine kept_fst (by assumption) ?_ | intro _
    | apply kept_ite | split)

theorem kept_pathEvent {k s : State} (hk : Kept k s) (p : Nat) (code : Nat) (a : Nat) (b : Nat) : Kept k (pathEvent p code a b s) := by
  unfold pathEvent
  try simp only []
  repeat' (with_reducible first
    | assumption | apply kept_post | (apply kept_foldS; intro _ _ _) | (apply kept_foldP; intro _ _ _)
    | (apply kept_foldL; intro _ _ _) | simp only [kept_mk] | refine kept_fst (by assumption) ?_ | intro _
    | apply kept_ite | split)

theorem kept_pdEvent {k s : State} (hk : Kept k s) (p : Nat) (code : Nat) (a : Nat) (b : Nat) : Kept k (pdEvent p code a b s) := by
  unfold pdEvent
  try simp only []
  repeat' (with_reducible first
    | assumption | apply kept_post | apply kept_setSqc | (apply kept_foldS; intro _ _ _)
    | (apply kept_foldP; intro _ _ _) | (apply kept_foldL; intro _ _ _) | simp only [kept_mk]
    | refine kept_fst (by assumption) ?_ | intro _ | apply kept_ite | split)

theorem kept_feedEvent {k s : State} (hk : Kept k s) (f : HostId) (code : Nat) (a : Nat) (w : Nat) : Kept k (feedEvent f code a w s) := by
  unfold feedEvent
  try simp only []
  repeat' (with_reducible first
    | assumption | apply kept_post | (apply kept_foldS; intro _ _ _) | (apply kept_foldP; intro _ _ _)
    | (apply kept_foldL; intro _ _ _) | simp only [kept_mk] | refine kept_fst (by assumption) ?_ | intro _
    | apply kept_ite | split)

theorem kept_boardEvent {k s : State} (hk : Kept k s) (code : Nat) (a : Nat) (w : Nat) : Kept k (boardEvent code a w s) := by
  unfold boardEvent
  try simp only []
  repeat' (with_reducible first
    | assumption | apply kept_post | (apply kept_foldS; intro _ _ _) | (apply kept_foldP; intro _ _ _)
    | (apply kept_foldL; intro _ _ _) | simp only [kept_mk] | refine kept_fst (by assumption) ?_ | intro _
    | apply kept_ite | split)

theorem kept_modTree {k s : State} (hk : Kept k s) (p : Nat) (a : Nat) (f : Inst → Inst) : Kept k (modTree p a f s) := by
  unfold modTree
  try simp only []
  repeat' (with_reducible first
    | assumption | apply kept_modPort | (apply kept_foldS; intro _ _ _) | (apply kept_foldP; intro _ _ _)
    | (apply kept_foldL; intro _ _ _) | simp only [kept_mk] | refine kept_fst (by assumption) ?_ | intro _
    | apply kept_ite | split)

theorem kept_preempt {k s : State} (hk : Kept k s) (p : Nat) : Kept k (preempt p s) := by
  unfold preempt
  try simp only []
  repeat' (with_reducible first
    | assumption | apply kept_pdEvent | apply kept_finishOp | (apply kept_foldS; intro _ _ _)
    | (apply kept_foldP; intro _ _ _) | (apply kept_foldL; intro _ _ _) | simp only [kept_mk]
    | refine kept_fst (by assumption) ?_ | intro _ | apply kept_ite | split)

theorem kept_finishPort {k s : State} (hk : Kept k s) (p : Nat) (opcode : Nat) (status : Nat) (result : List Byte) : Kept k (finishPort p opcode status result s) := by
  unfold finishPort
  try simp only []
  repeat' (with_reducible first
    | assumption | apply kept_finishOp | (apply kept_foldS; intro _ _ _) | (apply kept_foldP; intro _ _ _)
    | (apply kept_foldL; intro _ _ _) | simp only [kept_mk] | refine kept_fst (by assumption) ?_ | intro _
    | apply kept_ite | split)

theorem kept_freeInst {k s : State} (hk : Kept k s) (p : Nat) (code : Nat) (i : Inst) : Kept k (freeInst p code i s) := by
  unfold freeInst
  try simp only []
  repeat' (with_reducible first
    | assumption | apply kept_portEvent | apply kept_modPort | apply kept_freeCtx | apply kept_finishPort
    | (apply kept_foldS; intro _ _ _) | (apply kept_foldP; intro _ _ _) | (apply kept_foldL; intro _ _ _)
    | simp only [kept_mk] | refine kept_fst (by assumption) ?_ | intro _ | apply kept_ite | split)

theorem kept_dropJob {k s : State} (hk : Kept k s) (p : Nat) (j : Job) : Kept k (dropJob p j s) := by
  unfold dropJob
  try simp only []
  repeat' (with_reducible first
    | assumption | apply kept_modPort | (apply kept_foldS; intro _ _ _) | (apply kept_foldP; intro _ _ _)
    | (apply kept_foldL; intro _ _ _) | simp only [kept_mk] | refine kept_fst (by assumption) ?_ | intro _
    | apply kept_ite | split)

theorem kept_freeWhere {k s : State} (hk : Kept k s) (p : Nat) (code : Nat) (f : Inst → Bool) (g : At → Bool) : Kept k (freeWhere p code f g s) := by
  unfold freeWhere
  try simp only []
  repeat' (with_reducible first
    | assumption | apply kept_freeInst | apply kept_dropJob | (apply kept_foldS; intro _ _ _)
    | (apply kept_foldP; intro _ _ _) | (apply kept_foldL; intro _ _ _) | simp only [kept_mk]
    | refine kept_fst (by assumption) ?_ | intro _ | apply kept_ite | split)

theorem kept_freeTree {k s : State} (hk : Kept k s) (p : Nat) (code : Nat) : Kept k (freeTree p code s) := by
  unfold freeTree
  try simp only []
  repeat' (with_reducible first
    | assumption | apply kept_modPort | apply kept_freeWhere | (apply kept_foldS; intro _ _ _)
    | (apply kept_foldP; intro _ _ _) | (apply kept_foldL; intro _ _ _) | simp only [kept_mk]
    | refine kept_fst (by assumption) ?_ | intro _ | apply kept_ite | split)

theorem kept_freeSub {k s : State} (hk : Kept k s) (p : Nat) (code : Nat) (a : Nat) : Kept k (freeSub p code a s) := by
  unfold freeSub
  try simp only []
  repeat' (with_reducible first
    | assumption | apply kept_freeWhere | (apply kept_foldS; intro _ _ _) | (apply kept_foldP; intro _ _ _)
    | (apply kept_foldL; intro _ _ _) | simp only [kept_mk] | refine kept_fst (by assumption) ?_ | intro _
    | apply kept_ite | split)

theorem kept_freeBelow {k s : State} (hk : Kept k s) (p : Nat) (code : Nat) (hub : Nat) (hport : Nat) : Kept k (freeBelow p code hub hport s) := by
  unfold freeBelow
  try simp only []
  repeat' (with_reducible first
    | assumption | apply kept_freeWhere | (apply kept_foldS; intro _ _ _) | (apply kept_foldP; intro _ _ _)
    | (apply kept_foldL; intro _ _ _) | simp only [kept_mk] | refine kept_fst (by assumption) ?_ | intro _
    | apply kept_ite | split)

theorem kept_setWeight {k s : State} (hk : Kept k s) (p : Nat) (w : Nat) : Kept k (setWeight p w s) := by
  unfold setWeight
  try simp only []
  repeat' (with_reducible first
    | assumption | apply kept_modPort | (apply kept_foldS; intro _ _ _) | (apply kept_foldP; intro _ _ _)
    | (apply kept_foldL; intro _ _ _) | simp only [kept_mk] | refine kept_fst (by assumption) ?_ | intro _
    | apply kept_ite | split)

theorem kept_altExit {k s : State} (hk : Kept k s) (p : Nat) (cause : Nat) : Kept k (altExit p cause s) := by
  unfold altExit
  try simp only []
  repeat' (with_reducible first
    | assumption | apply kept_pdEvent | apply kept_emit | apply kept_modPd | (apply kept_foldS; intro _ _ _)
    | (apply kept_foldP; intro _ _ _) | (apply kept_foldL; intro _ _ _) | simp only [kept_mk]
    | refine kept_fst (by assumption) ?_ | intro _ | apply kept_ite | split)

theorem kept_releasePd {k s : State} (hk : Kept k s) (p : Nat) : Kept k (releasePd p s) := by
  unfold releasePd
  try simp only []
  repeat' (with_reducible first
    | assumption | apply kept_setWeight | apply kept_modPd | apply kept_altExit | (apply kept_foldS; intro _ _ _)
    | (apply kept_foldP; intro _ _ _) | (apply kept_foldL; intro _ _ _) | simp only [kept_mk]
    | refine kept_fst (by assumption) ?_ | intro _ | apply kept_ite | split)

theorem kept_endInstance {k s : State} (hk : Kept k s) (i : Nat) : Kept k (endInstance i s) := by
  unfold endInstance
  try simp only []
  repeat' (with_reducible first
    | assumption | apply kept_modInst | apply kept_loseVia | (apply kept_foldS; intro _ _ _)
    | (apply kept_foldP; intro _ _ _) | (apply kept_foldL; intro _ _ _) | simp only [kept_mk]
    | refine kept_fst (by assumption) ?_ | intro _ | apply kept_ite | split)

theorem kept_openPaths {k s : State} (hk : Kept k s) (p : Nat) : Kept k (openPaths p s) := by
  unfold openPaths
  try simp only []
  repeat' (with_reducible first
    | assumption | apply kept_modPort | (apply kept_foldS; intro _ _ _) | (apply kept_foldP; intro _ _ _)
    | (apply kept_foldL; intro _ _ _) | simp only [kept_mk] | refine kept_fst (by assumption) ?_ | intro _
    | apply kept_ite | split)

theorem kept_leaveBus {k s : State} (hk : Kept k s) (p : Nat) (code : Nat) : Kept k (leaveBus p code s) := by
  unfold leaveBus
  try simp only []
  repeat' (with_reducible first
    | assumption | apply kept_modPort | apply kept_releasePd | apply kept_endInstance | apply kept_freeTree
    | apply kept_preempt | (apply kept_foldS; intro _ _ _) | (apply kept_foldP; intro _ _ _)
    | (apply kept_foldL; intro _ _ _) | simp only [kept_mk] | refine kept_fst (by assumption) ?_ | intro _
    | apply kept_ite | split)

theorem kept_latchOff {k s : State} (hk : Kept k s) (p : Nat) (sw : Sw) (last : Nat) (rail : Bool) : Kept k (latchOff p sw last rail s) := by
  unfold latchOff
  try simp only []
  repeat' (with_reducible first
    | assumption | apply kept_modPort | apply kept_leaveBus | (apply kept_foldS; intro _ _ _)
    | (apply kept_foldP; intro _ _ _) | (apply kept_foldL; intro _ _ _) | simp only [kept_mk]
    | refine kept_fst (by assumption) ?_ | intro _ | apply kept_ite | split)

theorem kept_closeLow {k s : State} (hk : Kept k s) (p : Nat) : Kept k (closeLow p s) := by
  unfold closeLow
  try simp only []
  repeat' (with_reducible first
    | assumption | apply kept_useFree | apply kept_latchOff | apply kept_modPort | (apply kept_foldS; intro _ _ _)
    | (apply kept_foldP; intro _ _ _) | (apply kept_foldL; intro _ _ _) | simp only [kept_mk]
    | refine kept_fst (by assumption) ?_ | intro _ | apply kept_ite | split)

theorem kept_seeRd {k s : State} (hk : Kept k s) (p : Nat) : Kept k (seeRd p s) := by
  unfold seeRd
  try simp only []
  repeat' (with_reducible first
    | assumption | apply kept_portEvent | apply kept_modPort | (apply kept_foldS; intro _ _ _)
    | (apply kept_foldP; intro _ _ _) | (apply kept_foldL; intro _ _ _) | simp only [kept_mk]
    | refine kept_fst (by assumption) ?_ | intro _ | apply kept_ite | split)

theorem kept_toUnattached {k s : State} (hk : Kept k s) (p : Nat) : Kept k (toUnattached p s) := by
  unfold toUnattached
  try simp only []
  repeat' (with_reducible first
    | assumption | apply kept_seeRd | apply kept_emit | apply kept_modPort | (apply kept_foldS; intro _ _ _)
    | (apply kept_foldP; intro _ _ _) | (apply kept_foldL; intro _ _ _) | simp only [kept_mk]
    | refine kept_fst (by assumption) ?_ | intro _ | apply kept_ite | split)

theorem kept_toDisabled {k s : State} (hk : Kept k s) (p : Nat) : Kept k (toDisabled p s) := by
  unfold toDisabled
  try simp only []
  repeat' (with_reducible first
    | assumption | apply kept_openPaths | apply kept_leaveBus | apply kept_pathEvent | apply kept_modPort
    | apply kept_emit | (apply kept_foldS; intro _ _ _) | (apply kept_foldP; intro _ _ _)
    | (apply kept_foldL; intro _ _ _) | simp only [kept_mk] | refine kept_fst (by assumption) ?_ | intro _
    | apply kept_ite | split)

theorem kept_detachPort {k s : State} (hk : Kept k s) (p : Nat) : Kept k (detachPort p s) := by
  unfold detachPort
  try simp only []
  repeat' (with_reducible first
    | assumption | apply kept_emit | apply kept_toUnattached | apply kept_modPort | apply kept_openPaths
    | apply kept_leaveBus | (apply kept_foldS; intro _ _ _) | (apply kept_foldP; intro _ _ _)
    | (apply kept_foldL; intro _ _ _) | simp only [kept_mk] | refine kept_fst (by assumption) ?_ | intro _
    | apply kept_ite | split)

theorem kept_addCtxs {k s : State} (hk : Kept k s) (p : Nat) (idx : Nat) (cs : List Ctx) : Kept k (addCtxs p idx cs s) := by
  unfold addCtxs
  try simp only []
  repeat' (with_reducible first
    | assumption | apply kept_claimGroup | apply kept_quiet | apply kept_setCtx | (apply kept_foldS; intro _ _ _)
    | (apply kept_foldP; intro _ _ _) | (apply kept_foldL; intro _ _ _) | simp only [kept_mk]
    | refine kept_fst (by assumption) ?_ | intro _ | apply kept_ite | split)

theorem kept_setJob {k s : State} (hk : Kept k s) (p : Nat) (j : Job) : Kept k (setJob p j s) := by
  unfold setJob
  try simp only []
  repeat' (with_reducible first
    | assumption | apply kept_modPort | (apply kept_foldS; intro _ _ _) | (apply kept_foldP; intro _ _ _)
    | (apply kept_foldL; intro _ _ _) | simp only [kept_mk] | refine kept_fst (by assumption) ?_ | intro _
    | apply kept_ite | split)

theorem kept_ask {k s : State} (hk : Kept k s) (p : Nat) (j : Job) (step : Nat) (sub : Nat) : Kept k (ask p j step sub s) := by
  unfold ask
  try simp only []
  repeat' (with_reducible first
    | assumption | apply kept_emit | apply kept_setJob | (apply kept_foldS; intro _ _ _)
    | (apply kept_foldP; intro _ _ _) | (apply kept_foldL; intro _ _ _) | simp only [kept_mk]
    | refine kept_fst (by assumption) ?_ | intro _ | apply kept_ite | split)

theorem kept_resetBelow {k s : State} (hk : Kept k s) (p : Nat) (hub : Nat) (hport : Nat) (j : Job) : Kept k (resetBelow p hub hport j s) := by
  unfold resetBelow
  try simp only []
  repeat' (with_reducible first
    | assumption | apply kept_emit | apply kept_setJob | (apply kept_foldS; intro _ _ _)
    | (apply kept_foldP; intro _ _ _) | (apply kept_foldL; intro _ _ _) | simp only [kept_mk]
    | refine kept_fst (by assumption) ?_ | intro _ | apply kept_ite | split)

theorem kept_nextJob {k s : State} (hk : Kept k s) (p : Nat) (l : At) : Kept k (nextJob p l s) := by
  unfold nextJob
  try simp only []
  repeat' (with_reducible first
    | assumption | apply kept_resetBelow | apply kept_setJob | (apply kept_foldS; intro _ _ _)
    | (apply kept_foldP; intro _ _ _) | (apply kept_foldL; intro _ _ _) | simp only [kept_mk]
    | refine kept_fst (by assumption) ?_ | intro _ | apply kept_ite | split)

theorem kept_askWake {k s : State} (hk : Kept k s) (p : Nat) (f : Inst → Bool) : Kept k (askWake p f s) := by
  unfold askWake
  try simp only []
  repeat' (with_reducible first
    | assumption | apply kept_emit | (apply kept_foldS; intro _ _ _) | (apply kept_foldP; intro _ _ _)
    | (apply kept_foldL; intro _ _ _) | simp only [kept_mk] | refine kept_fst (by assumption) ?_ | intro _
    | apply kept_ite | split)

theorem kept_doSuspend {k s : State} (hk : Kept k s) (p : Nat) (l : At) : Kept k (doSuspend p l s) := by
  unfold doSuspend
  try simp only []
  repeat' (with_reducible first
    | assumption | apply kept_portEvent | apply kept_emit | apply kept_modPort | apply kept_askWake
    | (apply kept_foldS; intro _ _ _) | (apply kept_foldP; intro _ _ _) | (apply kept_foldL; intro _ _ _)
    | simp only [kept_mk] | refine kept_fst (by assumption) ?_ | intro _ | apply kept_ite | split)

theorem kept_deferredSuspend {k s : State} (hk : Kept k s) (p : Nat) : Kept k (deferredSuspend p s) := by
  unfold deferredSuspend
  try simp only []
  repeat' (with_reducible first
    | assumption | apply kept_modPort | apply kept_finishPort | apply kept_doSuspend
    | (apply kept_foldS; intro _ _ _) | (apply kept_foldP; intro _ _ _) | (apply kept_foldL; intro _ _ _)
    | simp only [kept_mk] | refine kept_fst (by assumption) ?_ | intro _ | apply kept_ite | split)

theorem kept_endJob {k s : State} (hk : Kept k s) (p : Nat) (l : At) : Kept k (endJob p l s) := by
  unfold endJob
  try simp only []
  repeat' (with_reducible first
    | assumption | apply kept_deferredSuspend | apply kept_nextJob | apply kept_modPort
    | (apply kept_foldS; intro _ _ _) | (apply kept_foldP; intro _ _ _) | (apply kept_foldL; intro _ _ _)
    | simp only [kept_mk] | refine kept_fst (by assumption) ?_ | intro _ | apply kept_ite | split)

theorem kept_rootEnds {k s : State} (hk : Kept k s) (p : Nat) (b : Bus) : Kept k (rootEnds p b s) := by
  unfold rootEnds
  try simp only []
  repeat' (with_reducible first
    | assumption | apply kept_finishPort | apply kept_modPort | (apply kept_foldS; intro _ _ _)
    | (apply kept_foldP; intro _ _ _) | (apply kept_foldL; intro _ _ _) | simp only [kept_mk]
    | refine kept_fst (by assumption) ?_ | intro _ | apply kept_ite | split)

theorem kept_freeAttempt {k s : State} (hk : Kept k s) (p : Nat) (j : Job) : Kept k (freeAttempt p j s) := by
  unfold freeAttempt
  try simp only []
  repeat' (with_reducible first
    | assumption | apply kept_modPort | apply kept_freeSub | (apply kept_foldS; intro _ _ _)
    | (apply kept_foldP; intro _ _ _) | (apply kept_foldL; intro _ _ _) | simp only [kept_mk]
    | refine kept_fst (by assumption) ?_ | intro _ | apply kept_ite | split)

theorem kept_enumFailed {k s : State} (hk : Kept k s) (p : Nat) (j : Job) (step : Nat) (cause : Nat) (posted : Bool) : Kept k (enumFailed p j step cause posted s) := by
  unfold enumFailed
  try simp only []
  repeat' (with_reducible first
    | assumption | apply kept_portEvent | apply kept_modPort | apply kept_endJob | apply kept_rootEnds
    | apply kept_emit | (apply kept_foldS; intro _ _ _) | (apply kept_foldP; intro _ _ _)
    | (apply kept_foldL; intro _ _ _) | simp only [kept_mk] | refine kept_fst (by assumption) ?_ | intro _
    | apply kept_ite | split)

theorem kept_attemptFails {k s : State} (hk : Kept k s) (p : Nat) (j : Job) (cause : Nat) : Kept k (attemptFails p j cause s) := by
  unfold attemptFails
  try simp only []
  repeat' (with_reducible first
    | assumption | apply kept_freeAttempt | apply kept_modPort | apply kept_enumFailed | apply kept_setJob
    | (apply kept_foldS; intro _ _ _) | (apply kept_foldP; intro _ _ _) | (apply kept_foldL; intro _ _ _)
    | simp only [kept_mk] | refine kept_fst (by assumption) ?_ | intro _ | apply kept_ite | split)

theorem kept_abortReset {k s : State} (hk : Kept k s) (p : Nat) : Kept k (abortReset p s) := by
  unfold abortReset
  try simp only []
  repeat' (with_reducible first
    | assumption | apply kept_modPort | apply kept_freeTree | apply kept_abortOp | (apply kept_foldS; intro _ _ _)
    | (apply kept_foldP; intro _ _ _) | (apply kept_foldL; intro _ _ _) | simp only [kept_mk]
    | refine kept_fst (by assumption) ?_ | intro _ | apply kept_ite | split)

theorem kept_attach {k s : State} (hk : Kept k s) (p : Nat) (i : Inst) : Kept k (attach p i s) := by
  unfold attach
  try simp only []
  repeat' (with_reducible first
    | assumption | apply kept_modPort | apply kept_portEvent | apply kept_rootEnds
    | (apply kept_foldS; intro _ _ _) | (apply kept_foldP; intro _ _ _) | (apply kept_foldL; intro _ _ _)
    | simp only [kept_mk] | refine kept_fst (by assumption) ?_ | intro _ | apply kept_ite | split)

theorem kept_attachBare {k s : State} (hk : Kept k s) (p : Nat) (i : Inst) (held : Bool) : Kept k (attachBare p i held s) := by
  unfold attachBare
  try simp only []
  repeat' (with_reducible first
    | assumption | apply kept_attach | apply kept_addCtxs | (apply kept_foldS; intro _ _ _)
    | (apply kept_foldP; intro _ _ _) | (apply kept_foldL; intro _ _ _) | simp only [kept_mk]
    | refine kept_fst (by assumption) ?_ | intro _ | apply kept_ite | split)

theorem kept_noRun {k s : State} (hk : Kept k s) (p : Nat) (j : Job) : Kept k (noRun p j s) := by
  unfold noRun
  try simp only []
  repeat' (with_reducible first
    | assumption | apply kept_endJob | apply kept_attachBare | apply kept_portEvent
    | (apply kept_foldS; intro _ _ _) | (apply kept_foldP; intro _ _ _) | (apply kept_foldL; intro _ _ _)
    | simp only [kept_mk] | refine kept_fst (by assumption) ?_ | intro _ | apply kept_ite | split)

theorem kept_configured {k s : State} (hk : Kept k s) (p : Nat) (j : Job) (c : CfgDesc) : Kept k (configured p j c s) := by
  unfold configured
  try simp only []
  repeat' (with_reducible first
    | assumption | apply kept_noRun | apply kept_emit | apply kept_ask | apply kept_attach | apply kept_addCtxs
    | apply kept_endJob | (apply kept_foldS; intro _ _ _) | (apply kept_foldP; intro _ _ _)
    | (apply kept_foldL; intro _ _ _) | simp only [kept_mk] | refine kept_fst (by assumption) ?_ | intro _
    | apply kept_ite | split)

theorem kept_chooseConfig {k s : State} (hk : Kept k s) (p : Nat) (j : Job) : Kept k (chooseConfig p j s) := by
  unfold chooseConfig
  try simp only []
  repeat' (with_reducible first
    | assumption | apply kept_endJob | apply kept_attachBare | apply kept_portEvent | apply kept_noRun
    | apply kept_ask | apply kept_attemptFails | (apply kept_foldS; intro _ _ _) | (apply kept_foldP; intro _ _ _)
    | (apply kept_foldL; intro _ _ _) | simp only [kept_mk] | refine kept_fst (by assumption) ?_ | intro _
    | apply kept_ite | split)

theorem kept_afterConfigs {k s : State} (hk : Kept k s) (p : Nat) (j : Job) : Kept k (afterConfigs p j s) := by
  unfold afterConfigs
  try simp only []
  repeat' (with_reducible first
    | assumption | apply kept_chooseConfig | apply kept_ask | (apply kept_foldS; intro _ _ _)
    | (apply kept_foldP; intro _ _ _) | (apply kept_foldL; intro _ _ _) | simp only [kept_mk]
    | refine kept_fst (by assumption) ?_ | intro _ | apply kept_ite | split)

theorem kept_powerPort {k s : State} (hk : Kept k s) (p : Nat) (j : Job) (hubPorts : Nat) (k' : Nat) : Kept k (powerPort p j hubPorts k' s) := by
  unfold powerPort
  try simp only []
  repeat' (with_reducible first
    | assumption | apply kept_ask | apply kept_setJob | (apply kept_foldS; intro _ _ _)
    | (apply kept_foldP; intro _ _ _) | (apply kept_foldL; intro _ _ _) | simp only [kept_mk]
    | refine kept_fst (by assumption) ?_ | intro _ | apply kept_ite | split)

theorem kept_replied {k s : State} (hk : Kept k s) (p : Nat) (j : Job) (bs : List Byte) : Kept k (replied p j bs s) := by
  unfold replied
  try simp only []
  repeat' (with_reducible first
    | assumption | apply kept_attemptFails | apply kept_ask | apply kept_portEvent | apply kept_modPort
    | apply kept_endJob | apply kept_emit | apply kept_setJob | apply kept_afterConfigs | apply kept_chooseConfig
    | apply kept_configured | apply kept_modTree | apply kept_powerPort | (apply kept_foldS; intro _ _ _)
    | (apply kept_foldP; intro _ _ _) | (apply kept_foldL; intro _ _ _) | simp only [kept_mk]
    | refine kept_fst (by assumption) ?_ | intro _ | apply kept_ite | split)

theorem kept_enumResult {k s : State} (hk : Kept k s) (p : Nat) (l : At) (r : EnumReply) : Kept k (enumResult p l r s) := by
  unfold enumResult
  try simp only []
  repeat' (with_reducible first
    | assumption | apply kept_abortReset | apply kept_replied | apply kept_chooseConfig | apply kept_attemptFails
    | (apply kept_foldS; intro _ _ _) | (apply kept_foldP; intro _ _ _) | (apply kept_foldL; intro _ _ _)
    | simp only [kept_mk] | refine kept_fst (by assumption) ?_ | intro _ | apply kept_ite | split)

theorem kept_hubReady {k s : State} (hk : Kept k s) (p : Nat) (hub : Nat) : Kept k (hubReady p hub s) := by
  unfold hubReady
  try simp only []
  repeat' (with_reducible first
    | assumption | apply kept_endJob | apply kept_addCtxs | (apply kept_foldS; intro _ _ _)
    | (apply kept_foldP; intro _ _ _) | (apply kept_foldL; intro _ _ _) | simp only [kept_mk]
    | refine kept_fst (by assumption) ?_ | intro _ | apply kept_ite | split)

theorem kept_startReset {k s : State} (hk : Kept k s) (p : Nat) : Kept k (startReset p s) := by
  unfold startReset
  try simp only []
  repeat' (with_reducible first
    | assumption | apply kept_emit | apply kept_modPort | (apply kept_foldS; intro _ _ _)
    | (apply kept_foldP; intro _ _ _) | (apply kept_foldL; intro _ _ _) | simp only [kept_mk]
    | refine kept_fst (by assumption) ?_ | intro _ | apply kept_ite | split)

theorem kept_queueBelow {k s : State} (hk : Kept k s) (direct : Bool) (p : Nat) (hub : Nat) (hport : Nat) : Kept k (queueBelow direct p hub hport s) := by
  unfold queueBelow
  try simp only []
  repeat' (with_reducible first
    | assumption | apply kept_nextJob | apply kept_modPort | (apply kept_foldS; intro _ _ _)
    | (apply kept_foldP; intro _ _ _) | (apply kept_foldL; intro _ _ _) | simp only [kept_mk]
    | refine kept_fst (by assumption) ?_ | intro _ | apply kept_ite | split)

theorem kept_connectBelow {k s : State} (hk : Kept k s) (p : Nat) (hub : Nat) (hport : Nat) : Kept k (connectBelow p hub hport s) := by
  unfold connectBelow
  try simp only []
  repeat' (with_reducible first
    | assumption | apply kept_queueBelow | (apply kept_foldS; intro _ _ _) | (apply kept_foldP; intro _ _ _)
    | (apply kept_foldL; intro _ _ _) | simp only [kept_mk] | refine kept_fst (by assumption) ?_ | intro _
    | apply kept_ite | split)

theorem kept_resetAgain {k s : State} (hk : Kept k s) (p : Nat) (j : Job) : Kept k (resetAgain p j s) := by
  unfold resetAgain
  try simp only []
  repeat' (with_reducible first
    | assumption | apply kept_emit | apply kept_setJob | apply kept_modPort | apply kept_resetBelow
    | (apply kept_foldS; intro _ _ _) | (apply kept_foldP; intro _ _ _) | (apply kept_foldL; intro _ _ _)
    | simp only [kept_mk] | refine kept_fst (by assumption) ?_ | intro _ | apply kept_ite | split)

theorem kept_firstRequest {k s : State} (hk : Kept k s) (p : Nat) (j : Job) (hubSpeed : Nat) : Kept k (firstRequest p j hubSpeed s) := by
  unfold firstRequest
  try simp only []
  repeat' (with_reducible first
    | assumption | apply kept_ask | (apply kept_foldS; intro _ _ _) | (apply kept_foldP; intro _ _ _)
    | (apply kept_foldL; intro _ _ _) | simp only [kept_mk] | refine kept_fst (by assumption) ?_ | intro _
    | apply kept_ite | split)

theorem kept_hostConfigured {k s : State} (hk : Kept k s) (p : Nat) (a : Nat) (value : Nat) : Kept k (hostConfigured p a value s) := by
  unfold hostConfigured
  try simp only []
  repeat' (with_reducible first
    | assumption | apply kept_freeCtx | apply kept_portEvent | apply kept_modTree | apply kept_emit
    | apply kept_addCtxs | (apply kept_foldS; intro _ _ _) | (apply kept_foldP; intro _ _ _)
    | (apply kept_foldL; intro _ _ _) | simp only [kept_mk] | refine kept_fst (by assumption) ?_ | intro _
    | apply kept_ite | split)

theorem kept_hostInterface {k s : State} (hk : Kept k s) (p : Nat) (a : Nat) (iface : Nat) (alt : Nat) : Kept k (hostInterface p a iface alt s) := by
  unfold hostInterface
  try simp only []
  repeat' (with_reducible first
    | assumption | apply kept_modTree | apply kept_quiet | apply kept_modCtx | apply kept_unbind
    | apply kept_endXfers | (apply kept_foldS; intro _ _ _) | (apply kept_foldP; intro _ _ _)
    | (apply kept_foldL; intro _ _ _) | simp only [kept_mk] | refine kept_fst (by assumption) ?_ | intro _
    | apply kept_ite | split)

theorem kept_portEnableCmd  : SpecKept portEnableCmd := by
  intro k x s hk
  simp only [portEnableCmd]
  repeat' (with_reducible first
    | assumption | apply kept_toUnattached | (apply kept_foldS; intro _ _ _) | (apply kept_foldP; intro _ _ _)
    | (apply kept_foldL; intro _ _ _) | simp only [kept_mk] | refine kept_fst (by assumption) ?_ | intro _
    | apply kept_ite | split)

theorem kept_disablePort {k s : State} (hk : Kept k s) (p : Nat) : Kept k (disablePort p s) := by
  unfold disablePort
  try simp only []
  repeat' (with_reducible first
    | assumption | apply kept_modPort | apply kept_toDisabled | (apply kept_foldS; intro _ _ _)
    | (apply kept_foldP; intro _ _ _) | (apply kept_foldL; intro _ _ _) | simp only [kept_mk]
    | refine kept_fst (by assumption) ?_ | intro _ | apply kept_ite | split)

theorem kept_portDisableCmd  : SpecKept portDisableCmd := by
  intro k x s hk
  simp only [portDisableCmd]
  repeat' (with_reducible first
    | assumption | apply kept_disablePort | (apply kept_foldS; intro _ _ _) | (apply kept_foldP; intro _ _ _)
    | (apply kept_foldL; intro _ _ _) | simp only [kept_mk] | refine kept_fst (by assumption) ?_ | intro _
    | apply kept_ite | split)

theorem kept_portStatusCmd  : SpecKept portStatusCmd := by
  intro k x s hk
  simp only [portStatusCmd]
  repeat' (with_reducible first
    | assumption | apply kept_measure | (apply kept_foldS; intro _ _ _) | (apply kept_foldP; intro _ _ _)
    | (apply kept_foldL; intro _ _ _) | simp only [kept_mk] | refine kept_fst (by assumption) ?_ | intro _
    | apply kept_ite | split)

theorem kept_treeListCmd  : SpecKept treeListCmd := by
  intro k x s hk
  simp only [treeListCmd]
  repeat' (with_reducible first
    | assumption | (apply kept_foldS; intro _ _ _) | (apply kept_foldP; intro _ _ _)
    | (apply kept_foldL; intro _ _ _) | simp only [kept_mk] | refine kept_fst (by assumption) ?_ | intro _
    | apply kept_ite | split)

theorem kept_portBusResetCmd  : SpecKept portBusResetCmd := by
  intro k x s hk
  simp only [portBusResetCmd]
  repeat' (with_reducible first
    | assumption | apply kept_startReset | apply kept_freeTree | (apply kept_foldS; intro _ _ _)
    | (apply kept_foldP; intro _ _ _) | (apply kept_foldL; intro _ _ _) | simp only [kept_mk]
    | refine kept_fst (by assumption) ?_ | intro _ | apply kept_ite | split)

theorem kept_portSuspendCmd  : SpecKept portSuspendCmd := by
  intro k x s hk
  simp only [portSuspendCmd]
  repeat' (with_reducible first
    | assumption | apply kept_modPort | apply kept_doSuspend | (apply kept_foldS; intro _ _ _)
    | (apply kept_foldP; intro _ _ _) | (apply kept_foldL; intro _ _ _) | simp only [kept_mk]
    | refine kept_fst (by assumption) ?_ | intro _ | apply kept_ite | split)

theorem kept_startResume {k s : State} (hk : Kept k s) (p : Nat) (w : Resume) : Kept k (startResume p w s) := by
  unfold startResume
  try simp only []
  repeat' (with_reducible first
    | assumption | apply kept_emit | apply kept_modPort | (apply kept_foldS; intro _ _ _)
    | (apply kept_foldP; intro _ _ _) | (apply kept_foldL; intro _ _ _) | simp only [kept_mk]
    | refine kept_fst (by assumption) ?_ | intro _ | apply kept_ite | split)

theorem kept_setResume {k s : State} (hk : Kept k s) (p : Nat) (w : Resume) : Kept k (setResume p w s) := by
  unfold setResume
  try simp only []
  repeat' (with_reducible first
    | assumption | apply kept_modPort | (apply kept_foldS; intro _ _ _) | (apply kept_foldP; intro _ _ _)
    | (apply kept_foldL; intro _ _ _) | simp only [kept_mk] | refine kept_fst (by assumption) ?_ | intro _
    | apply kept_ite | split)

theorem kept_portResumeCmd  : SpecKept portResumeCmd := by
  intro k x s hk
  simp only [portResumeCmd]
  repeat' (with_reducible first
    | assumption | apply kept_setResume | apply kept_startResume | (apply kept_foldS; intro _ _ _)
    | (apply kept_foldP; intro _ _ _) | (apply kept_foldL; intro _ _ _) | simp only [kept_mk]
    | refine kept_fst (by assumption) ?_ | intro _ | apply kept_ite | split)

theorem kept_remoteWake {k s : State} (hk : Kept k s) (p : Nat) : Kept k (remoteWake p s) := by
  unfold remoteWake
  try simp only []
  repeat' (with_reducible first
    | assumption | apply kept_startResume | apply kept_modPort | (apply kept_foldS; intro _ _ _)
    | (apply kept_foldP; intro _ _ _) | (apply kept_foldL; intro _ _ _) | simp only [kept_mk]
    | refine kept_fst (by assumption) ?_ | intro _ | apply kept_ite | split)

theorem kept_hubResumed {k s : State} (hk : Kept k s) (p : Nat) (a : Nat) (h' : Nat) : Kept k (hubResumed p a h' s) := by
  unfold hubResumed
  try simp only []
  repeat' (with_reducible first
    | assumption | apply kept_setResume | apply kept_modPort | (apply kept_foldS; intro _ _ _)
    | (apply kept_foldP; intro _ _ _) | (apply kept_foldL; intro _ _ _) | simp only [kept_mk]
    | refine kept_fst (by assumption) ?_ | intro _ | apply kept_ite | split)

theorem kept_resumeKEnds {k s : State} (hk : Kept k s) (p : Nat) : Kept k (resumeKEnds p s) := by
  unfold resumeKEnds
  try simp only []
  repeat' (with_reducible first
    | assumption | apply kept_emit | apply kept_modPort | (apply kept_foldS; intro _ _ _)
    | (apply kept_foldP; intro _ _ _) | (apply kept_foldL; intro _ _ _) | simp only [kept_mk]
    | refine kept_fst (by assumption) ?_ | intro _ | apply kept_ite | split)

theorem kept_freshDue {k s : State} (hk : Kept k s) (p : Nat) (l : At) : Kept k (freshDue p l s) := by
  unfold freshDue
  try simp only []
  repeat' (with_reducible first
    | assumption | apply kept_modCtx | (apply kept_foldS; intro _ _ _) | (apply kept_foldP; intro _ _ _)
    | (apply kept_foldL; intro _ _ _) | simp only [kept_mk] | refine kept_fst (by assumption) ?_ | intro _
    | apply kept_ite | split)

theorem kept_resumed {k s : State} (hk : Kept k s) (p : Nat) (w : Resume) (waker : Nat) : Kept k (resumed p w waker s) := by
  unfold resumed
  try simp only []
  repeat' (with_reducible first
    | assumption | apply kept_finishPort | apply kept_portEvent | (apply kept_foldS; intro _ _ _)
    | (apply kept_foldP; intro _ _ _) | (apply kept_foldL; intro _ _ _) | simp only [kept_mk]
    | refine kept_fst (by assumption) ?_ | intro _ | apply kept_ite | split)

theorem kept_scanOn {k s : State} (hk : Kept k s) (p : Nat) (k' : Scan) (asked : Bool) : Kept k (scanOn p k' asked s) := by
  unfold scanOn
  try simp only []
  repeat' (with_reducible first
    | assumption | apply kept_ask | apply kept_modPort | apply kept_emit | apply kept_resumed
    | (apply kept_foldS; intro _ _ _) | (apply kept_foldP; intro _ _ _) | (apply kept_foldL; intro _ _ _)
    | simp only [kept_mk] | refine kept_fst (by assumption) ?_ | intro _ | apply kept_ite | split)

theorem kept_startScan {k s : State} (hk : Kept k s) (p : Nat) (w : Resume) : Kept k (startScan p w s) := by
  unfold startScan
  try simp only []
  repeat' (with_reducible first
    | assumption | apply kept_scanOn | apply kept_emit | (apply kept_foldS; intro _ _ _)
    | (apply kept_foldP; intro _ _ _) | (apply kept_foldL; intro _ _ _) | simp only [kept_mk]
    | refine kept_fst (by assumption) ?_ | intro _ | apply kept_ite | split)

theorem kept_portStatusRead {k s : State} (hk : Kept k s) (p : Nat) (a : Nat) (h' : Nat) (res : Bool) : Kept k (portStatusRead p a h' res s) := by
  unfold portStatusRead
  try simp only []
  repeat' (with_reducible first
    | assumption | apply kept_scanOn | apply kept_hubResumed | (apply kept_foldS; intro _ _ _)
    | (apply kept_foldP; intro _ _ _) | (apply kept_foldL; intro _ _ _) | simp only [kept_mk]
    | refine kept_fst (by assumption) ?_ | intro _ | apply kept_ite | split)

theorem kept_devStatusRead {k s : State} (hk : Kept k s) (p : Nat) (a : Nat) (waking : Bool) : Kept k (devStatusRead p a waking s) := by
  unfold devStatusRead
  try simp only []
  repeat' (with_reducible first
    | assumption | apply kept_scanOn | (apply kept_foldS; intro _ _ _) | (apply kept_foldP; intro _ _ _)
    | (apply kept_foldL; intro _ _ _) | simp only [kept_mk] | refine kept_fst (by assumption) ?_ | intro _
    | apply kept_ite | split)

theorem kept_scanTimeout {k s : State} (hk : Kept k s) (p : Nat) : Kept k (scanTimeout p s) := by
  unfold scanTimeout
  try simp only []
  repeat' (with_reducible first
    | assumption | apply kept_portStatusRead | apply kept_devStatusRead | (apply kept_foldS; intro _ _ _)
    | (apply kept_foldP; intro _ _ _) | (apply kept_foldL; intro _ _ _) | simp only [kept_mk]
    | refine kept_fst (by assumption) ?_ | intro _ | apply kept_ite | split)

theorem kept_recoveryDone {k s : State} (hk : Kept k s) (p : Nat) : Kept k (recoveryDone p s) := by
  unfold recoveryDone
  try simp only []
  repeat' (with_reducible first
    | assumption | apply kept_portEvent | apply kept_modPort | (apply kept_foldS; intro _ _ _)
    | (apply kept_foldP; intro _ _ _) | (apply kept_foldL; intro _ _ _) | simp only [kept_mk]
    | refine kept_fst (by assumption) ?_ | intro _ | apply kept_ite | split)

theorem kept_verifyInst {k s : State} (hk : Kept k s) (p : Nat) (i : Inst) : Kept k (verifyInst p i s) := by
  unfold verifyInst
  try simp only []
  repeat' (with_reducible first
    | assumption | apply kept_emit | (apply kept_foldS; intro _ _ _) | (apply kept_foldP; intro _ _ _)
    | (apply kept_foldL; intro _ _ _) | simp only [kept_mk] | refine kept_fst (by assumption) ?_ | intro _
    | apply kept_ite | split)

theorem kept_startVerify {k s : State} (hk : Kept k s) (p : Nat) : Kept k (startVerify p s) := by
  unfold startVerify
  try simp only []
  repeat' (with_reducible first
    | assumption | apply kept_order | apply kept_modPort | apply kept_recoveryDone | apply kept_verifyInst
    | (apply kept_foldS; intro _ _ _) | (apply kept_foldP; intro _ _ _) | (apply kept_foldL; intro _ _ _)
    | simp only [kept_mk] | refine kept_fst (by assumption) ?_ | intro _ | apply kept_ite | split)

theorem kept_hubChange {k s : State} (hk : Kept k s) (p : Nat) (hub : Nat) (c : Nat × HubChange) : Kept k (hubChange p hub c s) := by
  unfold hubChange
  try simp only []
  repeat' (with_reducible first
    | assumption | apply kept_connectBelow | apply kept_freeBelow | (apply kept_foldS; intro _ _ _)
    | (apply kept_foldP; intro _ _ _) | (apply kept_foldL; intro _ _ _) | simp only [kept_mk]
    | refine kept_fst (by assumption) ?_ | intro _ | apply kept_ite | split)

theorem kept_verified {k s : State} (hk : Kept k s) (p : Nat) (a : Nat) (ans : Option (List Byte × Nat)) (changes : List (Nat × HubChange)) : Kept k (verified p a ans changes s) := by
  unfold verified
  try simp only []
  repeat' (with_reducible first
    | assumption | apply kept_modTree | apply kept_modPort | apply kept_modCtx | apply kept_recoveryDone
    | apply kept_hubChange | apply kept_freeSub | apply kept_startReset | apply kept_queueBelow
    | (apply kept_foldS; intro _ _ _) | (apply kept_foldP; intro _ _ _) | (apply kept_foldL; intro _ _ _)
    | simp only [kept_mk] | refine kept_fst (by assumption) ?_ | intro _ | apply kept_ite | split)

theorem kept_recoveryFails {k s : State} (hk : Kept k s) (p : Nat) : Kept k (recoveryFails p s) := by
  unfold recoveryFails
  try simp only []
  repeat' (with_reducible first
    | assumption | apply kept_startReset | apply kept_freeTree | (apply kept_foldS; intro _ _ _)
    | (apply kept_foldP; intro _ _ _) | (apply kept_foldL; intro _ _ _) | simp only [kept_mk]
    | refine kept_fst (by assumption) ?_ | intro _ | apply kept_ite | split)

theorem kept_runsAgain {k s : State} (hk : Kept k s) (p : Nat) (w : Resume) : Kept k (runsAgain p w s) := by
  unfold runsAgain
  try simp only []
  repeat' (with_reducible first
    | assumption | apply kept_freshDue | apply kept_startScan | apply kept_resumed
    | (apply kept_foldS; intro _ _ _) | (apply kept_foldP; intro _ _ _) | (apply kept_foldL; intro _ _ _)
    | simp only [kept_mk] | refine kept_fst (by assumption) ?_ | intro _ | apply kept_ite | split)

theorem kept_recoveryEnds {k s : State} (hk : Kept k s) (p : Nat) (l : At) : Kept k (recoveryEnds p l s) := by
  unfold recoveryEnds
  try simp only []
  repeat' (with_reducible first
    | assumption | apply kept_startVerify | apply kept_runsAgain | apply kept_modPort
    | (apply kept_foldS; intro _ _ _) | (apply kept_foldP; intro _ _ _) | (apply kept_foldL; intro _ _ _)
    | simp only [kept_mk] | refine kept_fst (by assumption) ?_ | intro _ | apply kept_ite | split)

theorem kept_portPowerCycleCmd  : SpecKept portPowerCycleCmd := by
  intro k x s hk
  simp only [portPowerCycleCmd]
  repeat' (with_reducible first
    | assumption | apply kept_openPaths | apply kept_leaveBus | apply kept_pathEvent | apply kept_modPort
    | (apply kept_foldS; intro _ _ _) | (apply kept_foldP; intro _ _ _) | (apply kept_foldL; intro _ _ _)
    | simp only [kept_mk] | refine kept_fst (by assumption) ?_ | intro _ | apply kept_ite | split)

theorem kept_offTimeEnds {k s : State} (hk : Kept k s) (p : Nat) : Kept k (offTimeEnds p s) := by
  unfold offTimeEnds
  try simp only []
  repeat' (with_reducible first
    | assumption | apply kept_toUnattached | apply kept_finishPort | (apply kept_foldS; intro _ _ _)
    | (apply kept_foldP; intro _ _ _) | (apply kept_foldL; intro _ _ _) | simp only [kept_mk]
    | refine kept_fst (by assumption) ?_ | intro _ | apply kept_ite | split)

theorem kept_portSetPolicyCmd  : SpecKept portSetPolicyCmd := by
  intro k x s hk
  simp only [portSetPolicyCmd]
  repeat' (with_reducible first
    | assumption | apply kept_modPort | (apply kept_foldS; intro _ _ _) | (apply kept_foldP; intro _ _ _)
    | (apply kept_foldL; intro _ _ _) | simp only [kept_mk] | refine kept_fst (by assumption) ?_ | intro _
    | apply kept_ite | split)

theorem kept_ccSeen {k s : State} (hk : Kept k s) (p : Nat) (cc : CcSeen) : Kept k (ccSeen p cc s) := by
  unfold ccSeen
  try simp only []
  repeat' (with_reducible first
    | assumption | apply kept_modPort | apply kept_seeRd | (apply kept_foldS; intro _ _ _)
    | (apply kept_foldP; intro _ _ _) | (apply kept_foldL; intro _ _ _) | simp only [kept_mk]
    | refine kept_fst (by assumption) ?_ | intro _ | apply kept_ite | split)

theorem kept_ccLost {k s : State} (hk : Kept k s) (p : Nat) : Kept k (ccLost p s) := by
  unfold ccLost
  try simp only []
  repeat' (with_reducible first
    | assumption | apply kept_modPort | (apply kept_foldS; intro _ _ _) | (apply kept_foldP; intro _ _ _)
    | (apply kept_foldL; intro _ _ _) | simp only [kept_mk] | refine kept_fst (by assumption) ?_ | intro _
    | apply kept_ite | split)

theorem kept_ccDebounced {k s : State} (hk : Kept k s) (p : Nat) : Kept k (ccDebounced p s) := by
  unfold ccDebounced
  try simp only []
  repeat' (with_reducible first
    | assumption | apply kept_closeLow | apply kept_modPort | (apply kept_foldS; intro _ _ _)
    | (apply kept_foldP; intro _ _ _) | (apply kept_foldL; intro _ _ _) | simp only [kept_mk]
    | refine kept_fst (by assumption) ?_ | intro _ | apply kept_ite | split)

theorem kept_pullup {k s : State} (hk : Kept k s) (p : Nat) : Kept k (pullup p s) := by
  unfold pullup
  try simp only []
  repeat' (with_reducible first
    | assumption | apply kept_modPort | (apply kept_foldS; intro _ _ _) | (apply kept_foldP; intro _ _ _)
    | (apply kept_foldL; intro _ _ _) | simp only [kept_mk] | refine kept_fst (by assumption) ?_ | intro _
    | apply kept_ite | split)

theorem kept_pullupGone {k s : State} (hk : Kept k s) (p : Nat) : Kept k (pullupGone p s) := by
  unfold pullupGone
  try simp only []
  repeat' (with_reducible first
    | assumption | apply kept_modPort | (apply kept_foldS; intro _ _ _) | (apply kept_foldP; intro _ _ _)
    | (apply kept_foldL; intro _ _ _) | simp only [kept_mk] | refine kept_fst (by assumption) ?_ | intro _
    | apply kept_ite | split)

theorem kept_connectTimeout {k s : State} (hk : Kept k s) (p : Nat) : Kept k (connectTimeout p s) := by
  unfold connectTimeout
  try simp only []
  repeat' (with_reducible first
    | assumption | apply kept_portEvent | apply kept_modPort | (apply kept_foldS; intro _ _ _)
    | (apply kept_foldP; intro _ _ _) | (apply kept_foldL; intro _ _ _) | simp only [kept_mk]
    | refine kept_fst (by assumption) ?_ | intro _ | apply kept_ite | split)

theorem kept_debounced {k s : State} (hk : Kept k s) (p : Nat) (l : At) (dplus : Bool) : Kept k (debounced p l dplus s) := by
  unfold debounced
  try simp only []
  repeat' (with_reducible first
    | assumption | apply kept_startReset | apply kept_modPort | apply kept_resetBelow
    | (apply kept_foldS; intro _ _ _) | (apply kept_foldP; intro _ _ _) | (apply kept_foldL; intro _ _ _)
    | simp only [kept_mk] | refine kept_fst (by assumption) ?_ | intro _ | apply kept_ite | split)

theorem kept_chirpK {k s : State} (hk : Kept k s) (p : Nat) (us : Nat) : Kept k (chirpK p us s) := by
  unfold chirpK
  try simp only []
  repeat' (with_reducible first
    | assumption | apply kept_emit | apply kept_modPort | (apply kept_foldS; intro _ _ _)
    | (apply kept_foldP; intro _ _ _) | (apply kept_foldL; intro _ _ _) | simp only [kept_mk]
    | refine kept_fst (by assumption) ?_ | intro _ | apply kept_ite | split)

theorem kept_rootResetEnds {k s : State} (hk : Kept k s) (p : Nat) : Kept k (rootResetEnds p s) := by
  unfold rootResetEnds
  try simp only []
  repeat' (with_reducible first
    | assumption | apply kept_setJob | apply kept_emit | apply kept_modPort | (apply kept_foldS; intro _ _ _)
    | (apply kept_foldP; intro _ _ _) | (apply kept_foldL; intro _ _ _) | simp only [kept_mk]
    | refine kept_fst (by assumption) ?_ | intro _ | apply kept_ite | split)

theorem kept_babble {k s : State} (hk : Kept k s) (p : Nat) : Kept k (babble p s) := by
  unfold babble
  try simp only []
  repeat' (with_reducible first
    | assumption | apply kept_portEvent | apply kept_modPort | apply kept_deferredSuspend | apply kept_rootEnds
    | apply kept_startReset | apply kept_freeTree | apply kept_preempt | (apply kept_foldS; intro _ _ _)
    | (apply kept_foldP; intro _ _ _) | (apply kept_foldL; intro _ _ _) | simp only [kept_mk]
    | refine kept_fst (by assumption) ?_ | intro _ | apply kept_ite | split)

theorem kept_belowGone {k s : State} (hk : Kept k s) (p : Nat) (hub : Nat) (hport : Nat) (why : HubGone) : Kept k (belowGone p hub hport why s) := by
  unfold belowGone
  try simp only []
  repeat' (with_reducible first
    | assumption | apply kept_portEvent | apply kept_deferredSuspend | apply kept_nextJob | apply kept_freeBelow
    | (apply kept_foldS; intro _ _ _) | (apply kept_foldP; intro _ _ _) | (apply kept_foldL; intro _ _ _)
    | simp only [kept_mk] | refine kept_fst (by assumption) ?_ | intro _ | apply kept_ite | split)

end Sys2Proof.Machine
end

