-- ==== Sys2Proof/Laws/KeptPd.lean ====
section
/-!
SUPPORT. `Kept` (Laws/Kept.lean) for contracts and the power path.
-/
set_option linter.all false
namespace Sys2Proof.Machine

theorem kept_modPdOf {k s : State} (hk : Kept k s) (p : Nat) (f : PdRec → PdRec) : Kept k (modPdOf p f s) := by
  unfold modPdOf
  try simp only []
  repeat' (with_reducible first
    | assumption | apply kept_modSvc | apply kept_modPd | (apply kept_foldS; intro _ _ _)
    | (apply kept_foldP; intro _ _ _) | (apply kept_foldL; intro _ _ _) | simp only [kept_mk]
    | refine kept_fst (by assumption) ?_ | intro _ | apply kept_ite | split)

theorem kept_pdSend {k s : State} (hk : Kept k s) (p : Nat) (m : PdMsg) (words : List Nat) : Kept k (pdSend p m words s) := by
  unfold pdSend
  try simp only []
  repeat' (with_reducible first
    | assumption | apply kept_emit | (apply kept_foldS; intro _ _ _) | (apply kept_foldP; intro _ _ _)
    | (apply kept_foldL; intro _ _ _) | simp only [kept_mk] | refine kept_fst (by assumption) ?_ | intro _
    | apply kept_ite | split)

theorem kept_sendCaps {k s : State} (hk : Kept k s) (p : Nat) : Kept k (sendCaps p s) := by
  unfold sendCaps
  try simp only []
  repeat' (with_reducible first
    | assumption | apply kept_pdSend | apply kept_modPd | (apply kept_foldS; intro _ _ _)
    | (apply kept_foldP; intro _ _ _) | (apply kept_foldL; intro _ _ _) | simp only [kept_mk]
    | refine kept_fst (by assumption) ?_ | intro _ | apply kept_ite | split)

theorem kept_newOffer {k s : State} (hk : Kept k s) (p : Nat) : Kept k (newOffer p s) := by
  unfold newOffer
  try simp only []
  repeat' (with_reducible first
    | assumption | apply kept_sendCaps | apply kept_modPd | (apply kept_foldS; intro _ _ _)
    | (apply kept_foldP; intro _ _ _) | (apply kept_foldL; intro _ _ _) | simp only [kept_mk]
    | refine kept_fst (by assumption) ?_ | intro _ | apply kept_ite | split)

theorem kept_startCaps {k s : State} (hk : Kept k s) (p : Nat) : Kept k (startCaps p s) := by
  unfold startCaps
  try simp only []
  repeat' (with_reducible first
    | assumption | apply kept_sendCaps | apply kept_modPd | (apply kept_foldS; intro _ _ _)
    | (apply kept_foldP; intro _ _ _) | (apply kept_foldL; intro _ _ _) | simp only [kept_mk]
    | refine kept_fst (by assumption) ?_ | intro _ | apply kept_ite | split)

theorem kept_capsRepeat {k s : State} (hk : Kept k s) (p : Nat) : Kept k (capsRepeat p s) := by
  unfold capsRepeat
  try simp only []
  repeat' (with_reducible first
    | assumption | apply kept_pdEvent | apply kept_modPd | apply kept_sendCaps | (apply kept_foldS; intro _ _ _)
    | (apply kept_foldP; intro _ _ _) | (apply kept_foldL; intro _ _ _) | simp only [kept_mk]
    | refine kept_fst (by assumption) ?_ | intro _ | apply kept_ite | split)

theorem kept_request {k s : State} (hk : Kept k s) (p : Nat) (rdo : Word) : Kept k (request p rdo s) := by
  unfold request
  try simp only []
  repeat' (with_reducible first
    | assumption | apply kept_modPd | apply kept_pdSend | apply kept_pdEvent | apply kept_setSqc
    | apply kept_setWeight | (apply kept_foldS; intro _ _ _) | (apply kept_foldP; intro _ _ _)
    | (apply kept_foldL; intro _ _ _) | simp only [kept_mk] | refine kept_fst (by assumption) ?_ | intro _
    | apply kept_ite | split)

theorem kept_psReady {k s : State} (hk : Kept k s) (p : Nat) : Kept k (psReady p s) := by
  unfold psReady
  try simp only []
  repeat' (with_reducible first
    | assumption | apply kept_modPort | apply kept_pdSend | apply kept_modPd | apply kept_pdEvent
    | apply kept_newOffer | (apply kept_foldS; intro _ _ _) | (apply kept_foldP; intro _ _ _)
    | (apply kept_foldL; intro _ _ _) | simp only [kept_mk] | refine kept_fst (by assumption) ?_ | intro _
    | apply kept_ite | split)

theorem kept_transStart {k s : State} (hk : Kept k s) (p : Nat) : Kept k (transStart p s) := by
  unfold transStart
  try simp only []
  repeat' (with_reducible first
    | assumption | apply kept_modPd | apply kept_psReady | apply kept_modPort | (apply kept_foldS; intro _ _ _)
    | (apply kept_foldP; intro _ _ _) | (apply kept_foldL; intro _ _ _) | simp only [kept_mk]
    | refine kept_fst (by assumption) ?_ | intro _ | apply kept_ite | split)

theorem kept_hrPreempt {k s : State} (hk : Kept k s) (p : Nat) : Kept k (hrPreempt p s) := by
  unfold hrPreempt
  try simp only []
  repeat' (with_reducible first
    | assumption | apply kept_finishOp | (apply kept_foldS; intro _ _ _) | (apply kept_foldP; intro _ _ _)
    | (apply kept_foldL; intro _ _ _) | simp only [kept_mk] | refine kept_fst (by assumption) ?_ | intro _
    | apply kept_ite | split)

theorem kept_hardReset {k s : State} (hk : Kept k s) (p : Nat) (sent : Bool) (cause : Nat) : Kept k (hardReset p sent cause s) := by
  unfold hardReset
  try simp only []
  repeat' (with_reducible first
    | assumption | apply kept_hrPreempt | apply kept_altExit | apply kept_emit | apply kept_modPd
    | apply kept_pdEvent | apply kept_setSqc | apply kept_freeTree | (apply kept_foldS; intro _ _ _)
    | (apply kept_foldP; intro _ _ _) | (apply kept_foldL; intro _ _ _) | simp only [kept_mk]
    | refine kept_fst (by assumption) ?_ | intro _ | apply kept_ite | split)

theorem kept_hrOpen {k s : State} (hk : Kept k s) (p : Nat) : Kept k (hrOpen p s) := by
  unfold hrOpen
  try simp only []
  repeat' (with_reducible first
    | assumption | apply kept_modPd | apply kept_openPaths | (apply kept_foldS; intro _ _ _)
    | (apply kept_foldP; intro _ _ _) | (apply kept_foldL; intro _ _ _) | simp only [kept_mk]
    | refine kept_fst (by assumption) ?_ | intro _ | apply kept_ite | split)

theorem kept_srcRecovered {k s : State} (hk : Kept k s) (p : Nat) : Kept k (srcRecovered p s) := by
  unfold srcRecovered
  try simp only []
  repeat' (with_reducible first
    | assumption | apply kept_modPort | apply kept_closeLow | apply kept_modPd | (apply kept_foldS; intro _ _ _)
    | (apply kept_foldP; intro _ _ _) | (apply kept_foldL; intro _ _ _) | simp only [kept_mk]
    | refine kept_fst (by assumption) ?_ | intro _ | apply kept_ite | split)

theorem kept_hrEnds {k s : State} (hk : Kept k s) (p : Nat) : Kept k (hrEnds p s) := by
  unfold hrEnds
  try simp only []
  repeat' (with_reducible first
    | assumption | apply kept_finishPort | apply kept_modPort | apply kept_pdEvent | apply kept_modPd
    | apply kept_startCaps | (apply kept_foldS; intro _ _ _) | (apply kept_foldP; intro _ _ _)
    | (apply kept_foldL; intro _ _ _) | simp only [kept_mk] | refine kept_fst (by assumption) ?_ | intro _
    | apply kept_ite | split)

theorem kept_powerGood {k s : State} (hk : Kept k s) (p : Nat) : Kept k (powerGood p s) := by
  unfold powerGood
  try simp only []
  repeat' (with_reducible first
    | assumption | apply kept_modPort | apply kept_psReady | apply kept_hrEnds | apply kept_startCaps
    | (apply kept_foldS; intro _ _ _) | (apply kept_foldP; intro _ _ _) | (apply kept_foldL; intro _ _ _)
    | simp only [kept_mk] | refine kept_fst (by assumption) ?_ | intro _ | apply kept_ite | split)

theorem kept_enterSwapped {k s : State} (hk : Kept k s) (p : Nat) : Kept k (enterSwapped p s) := by
  unfold enterSwapped
  try simp only []
  repeat' (with_reducible first
    | assumption | apply kept_freeTree | apply kept_modPort | apply kept_openPaths | apply kept_modPd
    | (apply kept_foldS; intro _ _ _) | (apply kept_foldP; intro _ _ _) | (apply kept_foldL; intro _ _ _)
    | simp only [kept_mk] | refine kept_fst (by assumption) ?_ | intro _ | apply kept_ite | split)

theorem kept_leaveSwapped {k s : State} (hk : Kept k s) (p : Nat) : Kept k (leaveSwapped p s) := by
  unfold leaveSwapped
  try simp only []
  repeat' (with_reducible first
    | assumption | apply kept_emit | apply kept_modPd | apply kept_endInstance | (apply kept_foldS; intro _ _ _)
    | (apply kept_foldP; intro _ _ _) | (apply kept_foldL; intro _ _ _) | simp only [kept_mk]
    | refine kept_fst (by assumption) ?_ | intro _ | apply kept_ite | split)

theorem kept_swapOutcome {k s : State} (hk : Kept k s) (p : Nat) (outcome : Nat) : Kept k (swapOutcome p outcome s) := by
  unfold swapOutcome
  try simp only []
  repeat' (with_reducible first
    | assumption | apply kept_pdEvent | apply kept_finishPort | apply kept_modPdOf
    | (apply kept_foldS; intro _ _ _) | (apply kept_foldP; intro _ _ _) | (apply kept_foldL; intro _ _ _)
    | simp only [kept_mk] | refine kept_fst (by assumption) ?_ | intro _ | apply kept_ite | split)

theorem kept_swappedToUnattached {k s : State} (hk : Kept k s) (p : Nat) : Kept k (swappedToUnattached p s) := by
  unfold swappedToUnattached
  try simp only []
  repeat' (with_reducible first
    | assumption | apply kept_toUnattached | apply kept_modPort | apply kept_endInstance | apply kept_finishPort
    | (apply kept_foldS; intro _ _ _) | (apply kept_foldP; intro _ _ _) | (apply kept_foldL; intro _ _ _)
    | simp only [kept_mk] | refine kept_fst (by assumption) ?_ | intro _ | apply kept_ite | split)

theorem kept_safe0 {k s : State} (hk : Kept k s) (p : Nat) : Kept k (safe0 p s) := by
  unfold safe0
  try simp only []
  repeat' (with_reducible first
    | assumption | apply kept_seeRd | apply kept_modPort | apply kept_setWeight | apply kept_modPd | apply kept_emit
    | apply kept_swappedToUnattached | apply kept_pdEvent | apply kept_finishPort | (apply kept_foldS; intro _ _ _)
    | (apply kept_foldP; intro _ _ _) | (apply kept_foldL; intro _ _ _) | simp only [kept_mk]
    | refine kept_fst (by assumption) ?_ | intro _ | apply kept_ite | split)

theorem kept_safe0Late {k s : State} (hk : Kept k s) (p : Nat) : Kept k (safe0Late p s) := by
  unfold safe0Late
  try simp only []
  repeat' (with_reducible first
    | assumption | apply kept_modPort | apply kept_raise | (apply kept_foldS; intro _ _ _)
    | (apply kept_foldP; intro _ _ _) | (apply kept_foldL; intro _ _ _) | simp only [kept_mk]
    | refine kept_fst (by assumption) ?_ | intro _ | apply kept_ite | split)

theorem kept_swappedRd {k s : State} (hk : Kept k s) (p : Nat) : Kept k (swappedRd p s) := by
  unfold swappedRd
  try simp only []
  repeat' (with_reducible first
    | assumption | apply kept_modPd | (apply kept_foldS; intro _ _ _) | (apply kept_foldP; intro _ _ _)
    | (apply kept_foldL; intro _ _ _) | simp only [kept_mk] | refine kept_fst (by assumption) ?_ | intro _
    | apply kept_ite | split)

theorem kept_swappedHardReset {k s : State} (hk : Kept k s) (p : Nat) (sent : Bool) (cause : Nat) : Kept k (swappedHardReset p sent cause s) := by
  unfold swappedHardReset
  try simp only []
  repeat' (with_reducible first
    | assumption | apply kept_emit | apply kept_swapOutcome | apply kept_endInstance | apply kept_pdEvent
    | apply kept_setSqc | apply kept_modPort | (apply kept_foldS; intro _ _ _) | (apply kept_foldP; intro _ _ _)
    | (apply kept_foldL; intro _ _ _) | simp only [kept_mk] | refine kept_fst (by assumption) ?_ | intro _
    | apply kept_ite | split)

theorem kept_holdHardReset {k s : State} (hk : Kept k s) (p : Nat) : Kept k (holdHardReset p s) := by
  unfold holdHardReset
  try simp only []
  repeat' (with_reducible first
    | assumption | apply kept_modPort | (apply kept_foldS; intro _ _ _) | (apply kept_foldP; intro _ _ _)
    | (apply kept_foldL; intro _ _ _) | simp only [kept_mk] | refine kept_fst (by assumption) ?_ | intro _
    | apply kept_ite | split)

theorem kept_holdPowerGood {k s : State} (hk : Kept k s) (p : Nat) : Kept k (holdPowerGood p s) := by
  unfold holdPowerGood
  try simp only []
  repeat' (with_reducible first
    | assumption | apply kept_modPort | (apply kept_foldS; intro _ _ _) | (apply kept_foldP; intro _ _ _)
    | (apply kept_foldL; intro _ _ _) | simp only [kept_mk] | refine kept_fst (by assumption) ?_ | intro _
    | apply kept_ite | split)

theorem kept_holdDetach {k s : State} (hk : Kept k s) (p : Nat) : Kept k (holdDetach p s) := by
  unfold holdDetach
  try simp only []
  repeat' (with_reducible first
    | assumption | apply kept_openPaths | apply kept_modPort | (apply kept_foldS; intro _ _ _)
    | (apply kept_foldP; intro _ _ _) | (apply kept_foldL; intro _ _ _) | simp only [kept_mk]
    | refine kept_fst (by assumption) ?_ | intro _ | apply kept_ite | split)

theorem kept_holdRail15 {k s : State} (hk : Kept k s) : Kept k (holdRail15 s) := by
  unfold holdRail15
  try simp only []
  repeat' (with_reducible first
    | assumption | apply kept_modPort | apply kept_raise | apply kept_modBoard | (apply kept_foldS; intro _ _ _)
    | (apply kept_foldP; intro _ _ _) | (apply kept_foldL; intro _ _ _) | simp only [kept_mk]
    | refine kept_fst (by assumption) ?_ | intro _ | apply kept_ite | split)

theorem kept_swappedDetach {k s : State} (hk : Kept k s) (p : Nat) : Kept k (swappedDetach p s) := by
  unfold swappedDetach
  try simp only []
  repeat' (with_reducible first
    | assumption | apply kept_swappedToUnattached | apply kept_swapOutcome | (apply kept_foldS; intro _ _ _)
    | (apply kept_foldP; intro _ _ _) | (apply kept_foldL; intro _ _ _) | simp only [kept_mk]
    | refine kept_fst (by assumption) ?_ | intro _ | apply kept_ite | split)

theorem kept_swapSource {k s : State} (hk : Kept k s) (p : Nat) : Kept k (swapSource p s) := by
  unfold swapSource
  try simp only []
  repeat' (with_reducible first
    | assumption | apply kept_modPd | apply kept_modInst | (apply kept_foldS; intro _ _ _)
    | (apply kept_foldP; intro _ _ _) | (apply kept_foldL; intro _ _ _) | simp only [kept_mk]
    | refine kept_fst (by assumption) ?_ | intro _ | apply kept_ite | split)

theorem kept_swapNoSource {k s : State} (hk : Kept k s) (p : Nat) : Kept k (swapNoSource p s) := by
  unfold swapNoSource
  try simp only []
  repeat' (with_reducible first
    | assumption | apply kept_swappedDetach | apply kept_pdEvent | (apply kept_foldS; intro _ _ _)
    | (apply kept_foldP; intro _ _ _) | (apply kept_foldL; intro _ _ _) | simp only [kept_mk]
    | refine kept_fst (by assumption) ?_ | intro _ | apply kept_ite | split)

theorem kept_swappedNoRd {k s : State} (hk : Kept k s) (p : Nat) : Kept k (swappedNoRd p s) := by
  unfold swappedNoRd
  try simp only []
  repeat' (with_reducible first
    | assumption | apply kept_swappedToUnattached | (apply kept_foldS; intro _ _ _)
    | (apply kept_foldP; intro _ _ _) | (apply kept_foldL; intro _ _ _) | simp only [kept_mk]
    | refine kept_fst (by assumption) ?_ | intro _ | apply kept_ite | split)

theorem kept_anyHardReset {k s : State} (hk : Kept k s) (p : Nat) (sent : Bool) (cause : Nat) : Kept k (anyHardReset p sent cause s) := by
  unfold anyHardReset
  try simp only []
  repeat' (with_reducible first
    | assumption | apply kept_swappedHardReset | apply kept_hardReset | (apply kept_foldS; intro _ _ _)
    | (apply kept_foldP; intro _ _ _) | (apply kept_foldL; intro _ _ _) | simp only [kept_mk]
    | refine kept_fst (by assumption) ?_ | intro _ | apply kept_ite | split)

theorem kept_servicePower {k s : State} (hk : Kept k s) (kind : Nat) (ma : Nat) : Kept k (servicePower kind ma s) := by
  unfold servicePower
  try simp only []
  repeat' (with_reducible first
    | assumption | apply kept_pdEvent | (apply kept_foldS; intro _ _ _) | (apply kept_foldP; intro _ _ _)
    | (apply kept_foldL; intro _ _ _) | simp only [kept_mk] | refine kept_fst (by assumption) ?_ | intro _
    | apply kept_ite | split)

theorem kept_powerEvent {k s : State} (hk : Kept k s) (code : Nat) (a : Nat) (b : Nat) (w : Nat) : Kept k (powerEvent code a b w s) := by
  unfold powerEvent
  try simp only []
  repeat' (with_reducible first
    | assumption | apply kept_post | (apply kept_foldS; intro _ _ _) | (apply kept_foldP; intro _ _ _)
    | (apply kept_foldL; intro _ _ _) | simp only [kept_mk] | refine kept_fst (by assumption) ?_ | intro _
    | apply kept_ite | split)

theorem kept_setPower {k s : State} (hk : Kept k s) (new : PowerState) (cause : Nat) : Kept k (setPower new cause s) := by
  unfold setPower
  try simp only []
  repeat' (with_reducible first
    | assumption | apply kept_powerEvent | apply kept_setSqc | apply kept_modDev | (apply kept_foldS; intro _ _ _)
    | (apply kept_foldP; intro _ _ _) | (apply kept_foldL; intro _ _ _) | simp only [kept_mk]
    | refine kept_fst (by assumption) ?_ | intro _ | apply kept_ite | split)

theorem kept_closeSvcGate {k s : State} (hk : Kept k s) : Kept k (closeSvcGate s) := by
  unfold closeSvcGate
  try simp only []
  repeat' (with_reducible first
    | assumption | apply kept_setPower | apply kept_ashRecord | apply kept_modDev | apply kept_modSvc
    | (apply kept_foldS; intro _ _ _) | (apply kept_foldP; intro _ _ _) | (apply kept_foldL; intro _ _ _)
    | simp only [kept_mk] | refine kept_fst (by assumption) ?_ | intro _ | apply kept_ite | split)

theorem kept_svcRequest {k s : State} (hk : Kept k s) (pdo : Word) : Kept k (svcRequest pdo s) := by
  unfold svcRequest
  try simp only []
  repeat' (with_reducible first
    | assumption | apply kept_pdSend | apply kept_modSvc | (apply kept_foldS; intro _ _ _)
    | (apply kept_foldP; intro _ _ _) | (apply kept_foldL; intro _ _ _) | simp only [kept_mk]
    | refine kept_fst (by assumption) ?_ | intro _ | apply kept_ite | split)

theorem kept_svcSwap {k s : State} (hk : Kept k s) : Kept k (svcSwap s) := by
  unfold svcSwap
  try simp only []
  repeat' (with_reducible first
    | assumption | apply kept_modSvc | apply kept_modInst | apply kept_endInstance | apply kept_swapOutcome
    | apply kept_pdEvent | (apply kept_foldS; intro _ _ _) | (apply kept_foldP; intro _ _ _)
    | (apply kept_foldL; intro _ _ _) | simp only [kept_mk] | refine kept_fst (by assumption) ?_ | intro _
    | apply kept_ite | split)

theorem kept_svcHardReset {k s : State} (hk : Kept k s) : Kept k (svcHardReset s) := by
  unfold svcHardReset
  try simp only []
  repeat' (with_reducible first
    | assumption | apply kept_swapOutcome | apply kept_modSvc | apply kept_pdEvent | apply kept_modInst
    | (apply kept_foldS; intro _ _ _) | (apply kept_foldP; intro _ _ _) | (apply kept_foldL; intro _ _ _)
    | simp only [kept_mk] | refine kept_fst (by assumption) ?_ | intro _ | apply kept_ite | split)

theorem kept_vdmRequest {k s : State} (hk : Kept k s) (p : Nat) (r : VdmReq) : Kept k (vdmRequest p r s) := by
  unfold vdmRequest
  try simp only []
  repeat' (with_reducible first
    | assumption | apply kept_pdSend | (apply kept_foldS; intro _ _ _) | (apply kept_foldP; intro _ _ _)
    | (apply kept_foldL; intro _ _ _) | simp only [kept_mk] | refine kept_fst (by assumption) ?_ | intro _
    | apply kept_ite | split)

theorem kept_vdmEnd {k s : State} (hk : Kept k s) (p : Nat) (status : Nat) (result : List Byte) : Kept k (vdmEnd p status result s) := by
  unfold vdmEnd
  try simp only []
  repeat' (with_reducible first
    | assumption | apply kept_modPd | apply kept_finishOp | (apply kept_foldS; intro _ _ _)
    | (apply kept_foldP; intro _ _ _) | (apply kept_foldL; intro _ _ _) | simp only [kept_mk]
    | refine kept_fst (by assumption) ?_ | intro _ | apply kept_ite | split)

theorem kept_enterAt {k s : State} (hk : Kept k s) (p : Nat) (k' : Nat) : Kept k (enterAt p k' s) := by
  unfold enterAt
  try simp only []
  repeat' (with_reducible first
    | assumption | apply kept_pdSend | apply kept_modPd | (apply kept_foldS; intro _ _ _)
    | (apply kept_foldP; intro _ _ _) | (apply kept_foldL; intro _ _ _) | simp only [kept_mk]
    | refine kept_fst (by assumption) ?_ | intro _ | apply kept_ite | split)

theorem kept_unlessAborted {k s : State} (hk : Kept k s) (p : Nat) (f : State → State) (hf : ∀ t : State, Kept k t → Kept k (f t)) : Kept k (unlessAborted p f s) := by
  unfold unlessAborted
  try simp only []
  repeat' (with_reducible first
    | assumption | apply hf | apply kept_abortOp | apply kept_modPd | (apply kept_foldS; intro _ _ _)
    | (apply kept_foldP; intro _ _ _) | (apply kept_foldL; intro _ _ _) | simp only [kept_mk]
    | refine kept_fst (by assumption) ?_ | intro _ | apply kept_ite | split)

theorem kept_sendEnter {k s : State} (hk : Kept k s) (p : Nat) : Kept k (sendEnter p s) := by
  unfold sendEnter
  try simp only []
  repeat' (with_reducible first
    | assumption | apply kept_unlessAborted | apply kept_enterAt | apply kept_pdSend | apply kept_modPd
    | apply kept_vdmEnd | (apply kept_foldS; intro _ _ _) | (apply kept_foldP; intro _ _ _)
    | (apply kept_foldL; intro _ _ _) | simp only [kept_mk] | refine kept_fst (by assumption) ?_ | intro _
    | apply kept_ite | split)

theorem kept_vdmResponse {k s : State} (hk : Kept k s) (p : Nat) (a : VdmAns) (vdos : List Word) : Kept k (vdmResponse p a vdos s) := by
  unfold vdmResponse
  try simp only []
  repeat' (with_reducible first
    | assumption | apply kept_unlessAborted | apply kept_modPd | apply kept_vdmEnd | apply kept_pdSend
    | apply kept_sendEnter | apply kept_pdEvent | apply kept_altExit | (apply kept_foldS; intro _ _ _)
    | (apply kept_foldP; intro _ _ _) | (apply kept_foldL; intro _ _ _) | simp only [kept_mk]
    | refine kept_fst (by assumption) ?_ | intro _ | apply kept_ite | split)

theorem kept_vdmTimeout {k s : State} (hk : Kept k s) (p : Nat) : Kept k (vdmTimeout p s) := by
  unfold vdmTimeout
  try simp only []
  repeat' (with_reducible first
    | assumption | apply kept_vdmEnd | apply kept_altExit | (apply kept_foldS; intro _ _ _)
    | (apply kept_foldP; intro _ _ _) | (apply kept_foldL; intro _ _ _) | simp only [kept_mk]
    | refine kept_fst (by assumption) ?_ | intro _ | apply kept_ite | split)

theorem kept_enterTimeout {k s : State} (hk : Kept k s) (p : Nat) : Kept k (enterTimeout p s) := by
  unfold enterTimeout
  try simp only []
  repeat' (with_reducible first
    | assumption | apply kept_vdmEnd | (apply kept_foldS; intro _ _ _) | (apply kept_foldP; intro _ _ _)
    | (apply kept_foldL; intro _ _ _) | simp only [kept_mk] | refine kept_fst (by assumption) ?_ | intro _
    | apply kept_ite | split)

theorem kept_pdSetCapsCmd  : SpecKept pdSetCapsCmd := by
  intro k x s hk
  simp only [pdSetCapsCmd]
  repeat' (with_reducible first
    | assumption | apply kept_modSvc | apply kept_modPd | apply kept_setWeight | apply kept_newOffer
    | (apply kept_foldS; intro _ _ _) | (apply kept_foldP; intro _ _ _) | (apply kept_foldL; intro _ _ _)
    | simp only [kept_mk] | refine kept_fst (by assumption) ?_ | intro _ | apply kept_ite | split)

theorem kept_pdStatusCmd  : SpecKept pdStatusCmd := by
  intro k x s hk
  simp only [pdStatusCmd]
  repeat' (with_reducible first
    | assumption | apply kept_useFree | apply kept_measure | (apply kept_foldS; intro _ _ _)
    | (apply kept_foldP; intro _ _ _) | (apply kept_foldL; intro _ _ _) | simp only [kept_mk]
    | refine kept_fst (by assumption) ?_ | intro _ | apply kept_ite | split)

theorem kept_pdHardResetCmd  : SpecKept pdHardResetCmd := by
  intro k x s hk
  simp only [pdHardResetCmd]
  repeat' (with_reducible first
    | assumption | apply kept_hrPreempt | apply kept_anyHardReset | (apply kept_foldS; intro _ _ _)
    | (apply kept_foldP; intro _ _ _) | (apply kept_foldL; intro _ _ _) | simp only [kept_mk]
    | refine kept_fst (by assumption) ?_ | intro _ | apply kept_ite | split)

theorem kept_pdDrSwapCmd  : SpecKept pdDrSwapCmd := by
  intro k x s hk
  simp only [pdDrSwapCmd]
  repeat' (with_reducible first
    | assumption | apply kept_pdSend | apply kept_modPdOf | (apply kept_foldS; intro _ _ _)
    | (apply kept_foldP; intro _ _ _) | (apply kept_foldL; intro _ _ _) | simp only [kept_mk]
    | refine kept_fst (by assumption) ?_ | intro _ | apply kept_ite | split)

theorem kept_pdDiscoverCmd  : SpecKept pdDiscoverCmd := by
  intro k x s hk
  simp only [pdDiscoverCmd]
  repeat' (with_reducible first
    | assumption | apply kept_pdSend | apply kept_modPd | (apply kept_foldS; intro _ _ _)
    | (apply kept_foldP; intro _ _ _) | (apply kept_foldL; intro _ _ _) | simp only [kept_mk]
    | refine kept_fst (by assumption) ?_ | intro _ | apply kept_ite | split)

theorem kept_pdAltmodeCmd  : SpecKept pdAltmodeCmd := by
  intro k x s hk
  simp only [pdAltmodeCmd]
  repeat' (with_reducible first
    | assumption | apply kept_enter | apply kept_enterAt | apply kept_pdSend | apply kept_modPd
    | (apply kept_foldS; intro _ _ _) | (apply kept_foldP; intro _ _ _) | (apply kept_foldL; intro _ _ _)
    | simp only [kept_mk] | refine kept_fst (by assumption) ?_ | intro _ | apply kept_ite | split)

theorem kept_goodCrc {k s : State} (hk : Kept k s) (p : Nat) (m : PdSent) : Kept k (goodCrc p m s) := by
  unfold goodCrc
  try simp only []
  repeat' (with_reducible first
    | assumption | apply kept_modPd | apply kept_modPdOf | apply kept_svcSwap | apply kept_leaveSwapped
    | apply kept_enterSwapped | (apply kept_foldS; intro _ _ _) | (apply kept_foldP; intro _ _ _)
    | (apply kept_foldL; intro _ _ _) | simp only [kept_mk] | refine kept_fst (by assumption) ?_ | intro _
    | apply kept_ite | split)

theorem kept_senderTimeout {k s : State} (hk : Kept k s) (p : Nat) : Kept k (senderTimeout p s) := by
  unfold senderTimeout
  try simp only []
  repeat' (with_reducible first
    | assumption | apply kept_hardReset | apply kept_swapOutcome | (apply kept_foldS; intro _ _ _)
    | (apply kept_foldP; intro _ _ _) | (apply kept_foldL; intro _ _ _) | simp only [kept_mk]
    | refine kept_fst (by assumption) ?_ | intro _ | apply kept_ite | split)

theorem kept_softReset {k s : State} (hk : Kept k s) (p : Nat) : Kept k (softReset p s) := by
  unfold softReset
  try simp only []
  repeat' (with_reducible first
    | assumption | apply kept_pdSend | apply kept_sendCaps | apply kept_modPd | (apply kept_foldS; intro _ _ _)
    | (apply kept_foldP; intro _ _ _) | (apply kept_foldL; intro _ _ _) | simp only [kept_mk]
    | refine kept_fst (by assumption) ?_ | intro _ | apply kept_ite | split)

theorem kept_getSourceCap {k s : State} (hk : Kept k s) (p : Nat) : Kept k (getSourceCap p s) := by
  unfold getSourceCap
  try simp only []
  repeat' (with_reducible first
    | assumption | apply kept_pdSend | apply kept_newOffer | apply kept_sendCaps | (apply kept_foldS; intro _ _ _)
    | (apply kept_foldP; intro _ _ _) | (apply kept_foldL; intro _ _ _) | simp only [kept_mk]
    | refine kept_fst (by assumption) ?_ | intro _ | apply kept_ite | split)

theorem kept_getSinkCap {k s : State} (hk : Kept k s) (p : Nat) : Kept k (getSinkCap p s) := by
  unfold getSinkCap
  try simp only []
  repeat' (with_reducible first
    | assumption | apply kept_pdSend | (apply kept_foldS; intro _ _ _) | (apply kept_foldP; intro _ _ _)
    | (apply kept_foldL; intro _ _ _) | simp only [kept_mk] | refine kept_fst (by assumption) ?_ | intro _
    | apply kept_ite | split)

theorem kept_drSwap {k s : State} (hk : Kept k s) (p : Nat) : Kept k (drSwap p s) := by
  unfold drSwap
  try simp only []
  repeat' (with_reducible first
    | assumption | apply kept_pdSend | (apply kept_foldS; intro _ _ _) | (apply kept_foldP; intro _ _ _)
    | (apply kept_foldL; intro _ _ _) | simp only [kept_mk] | refine kept_fst (by assumption) ?_ | intro _
    | apply kept_ite | split)

theorem kept_pdResponse {k s : State} (hk : Kept k s) (p : Nat) (a : PdAnswer) : Kept k (pdResponse p a s) := by
  unfold pdResponse
  try simp only []
  repeat' (with_reducible first
    | assumption | apply kept_closeSvcGate | apply kept_svcSwap | apply kept_leaveSwapped | apply kept_enterSwapped
    | apply kept_swapOutcome | apply kept_abortOp | apply kept_modPdOf | (apply kept_foldS; intro _ _ _)
    | (apply kept_foldP; intro _ _ _) | (apply kept_foldL; intro _ _ _) | simp only [kept_mk]
    | refine kept_fst (by assumption) ?_ | intro _ | apply kept_ite | split)

theorem kept_waitEnds {k s : State} (hk : Kept k s) (p : Nat) : Kept k (waitEnds p s) := by
  unfold waitEnds
  try simp only []
  repeat' (with_reducible first
    | assumption | apply kept_pdSend | apply kept_modPdOf | (apply kept_foldS; intro _ _ _)
    | (apply kept_foldP; intro _ _ _) | (apply kept_foldL; intro _ _ _) | simp only [kept_mk]
    | refine kept_fst (by assumption) ?_ | intro _ | apply kept_ite | split)

theorem kept_capsReceived {k s : State} (hk : Kept k s) (p : Nat) (pdo : Word) : Kept k (capsReceived p pdo s) := by
  unfold capsReceived
  try simp only []
  repeat' (with_reducible first
    | assumption | apply kept_svcRequest | apply kept_pdSend | apply kept_pdEvent | apply kept_modPd
    | apply kept_swapOutcome | (apply kept_foldS; intro _ _ _) | (apply kept_foldP; intro _ _ _)
    | (apply kept_foldL; intro _ _ _) | simp only [kept_mk] | refine kept_fst (by assumption) ?_ | intro _
    | apply kept_ite | split)

theorem kept_psRdyReceived {k s : State} (hk : Kept k s) (p : Nat) : Kept k (psRdyReceived p s) := by
  unfold psRdyReceived
  try simp only []
  repeat' (with_reducible first
    | assumption | apply kept_closeSvcGate | apply kept_servicePower | apply kept_modSvc
    | (apply kept_foldS; intro _ _ _) | (apply kept_foldP; intro _ _ _) | (apply kept_foldL; intro _ _ _)
    | simp only [kept_mk] | refine kept_fst (by assumption) ?_ | intro _ | apply kept_ite | split)

theorem kept_rail15Lost {k s : State} (hk : Kept k s) : Kept k (rail15Lost s) := by
  unfold rail15Lost
  try simp only []
  repeat' (with_reducible first
    | assumption | apply kept_raise | apply kept_modBoard | apply kept_hardReset | apply kept_newOffer
    | (apply kept_foldS; intro _ _ _) | (apply kept_foldP; intro _ _ _) | (apply kept_foldL; intro _ _ _)
    | simp only [kept_mk] | refine kept_fst (by assumption) ?_ | intro _ | apply kept_ite | split)

theorem kept_rail15Back {k s : State} (hk : Kept k s) : Kept k (rail15Back s) := by
  unfold rail15Back
  try simp only []
  repeat' (with_reducible first
    | assumption | apply kept_clearFlt | apply kept_modBoard | apply kept_newOffer
    | (apply kept_foldS; intro _ _ _) | (apply kept_foldP; intro _ _ _) | (apply kept_foldL; intro _ _ _)
    | simp only [kept_mk] | refine kept_fst (by assumption) ?_ | intro _ | apply kept_ite | split)

theorem kept_transDetach {k s : State} (hk : Kept k s) (p : Nat) : Kept k (transDetach p s) := by
  unfold transDetach
  try simp only []
  repeat' (with_reducible first
    | assumption | apply kept_modPd | apply kept_raise | apply kept_pdEvent | apply kept_releasePd
    | apply kept_openPaths | apply kept_modPort | (apply kept_foldS; intro _ _ _) | (apply kept_foldP; intro _ _ _)
    | (apply kept_foldL; intro _ _ _) | simp only [kept_mk] | refine kept_fst (by assumption) ?_ | intro _
    | apply kept_ite | split)

theorem kept_protect {k s : State} (hk : Kept k s) (p : Nat) (sw : Sw) (last : Nat) (code : Nat) (sub : Nat) (path : Nat) (b : Nat) : Kept k (protect p sw last code sub path b s) := by
  unfold protect
  try simp only []
  repeat' (with_reducible first
    | assumption | apply kept_raise | apply kept_pathEvent | apply kept_latchOff | (apply kept_foldS; intro _ _ _)
    | (apply kept_foldP; intro _ _ _) | (apply kept_foldL; intro _ _ _) | simp only [kept_mk]
    | refine kept_fst (by assumption) ?_ | intro _ | apply kept_ite | split)

theorem kept_atLimit {k s : State} (hk : Kept k s) (p : Nat) : Kept k (atLimit p s) := by
  unfold atLimit
  try simp only []
  repeat' (with_reducible first
    | assumption | apply kept_modPort | (apply kept_foldS; intro _ _ _) | (apply kept_foldP; intro _ _ _)
    | (apply kept_foldL; intro _ _ _) | simp only [kept_mk] | refine kept_fst (by assumption) ?_ | intro _
    | apply kept_ite | split)

theorem kept_limitLeft {k s : State} (hk : Kept k s) (p : Nat) : Kept k (limitLeft p s) := by
  unfold limitLeft
  try simp only []
  repeat' (with_reducible first
    | assumption | apply kept_modPort | (apply kept_foldS; intro _ _ _) | (apply kept_foldP; intro _ _ _)
    | (apply kept_foldL; intro _ _ _) | simp only [kept_mk] | refine kept_fst (by assumption) ?_ | intro _
    | apply kept_ite | split)

theorem kept_faultTime {k s : State} (hk : Kept k s) (p : Nat) : Kept k (faultTime p s) := by
  unfold faultTime
  try simp only []
  repeat' (with_reducible first
    | assumption | apply kept_protect | (apply kept_foldS; intro _ _ _) | (apply kept_foldP; intro _ _ _)
    | (apply kept_foldL; intro _ _ _) | simp only [kept_mk] | refine kept_fst (by assumption) ?_ | intro _
    | apply kept_ite | split)

theorem kept_rampTime {k s : State} (hk : Kept k s) (p : Nat) (vsns : Nat) : Kept k (rampTime p vsns s) := by
  unfold rampTime
  try simp only []
  repeat' (with_reducible first
    | assumption | apply kept_protect | (apply kept_foldS; intro _ _ _) | (apply kept_foldP; intro _ _ _)
    | (apply kept_foldL; intro _ _ _) | simp only [kept_mk] | refine kept_fst (by assumption) ?_ | intro _
    | apply kept_ite | split)

theorem kept_pgLost {k s : State} (hk : Kept k s) (p : Nat) (vsns : Nat) : Kept k (pgLost p vsns s) := by
  unfold pgLost
  try simp only []
  repeat' (with_reducible first
    | assumption | apply kept_pathEvent | apply kept_setSqc | apply kept_modPort | (apply kept_foldS; intro _ _ _)
    | (apply kept_foldP; intro _ _ _) | (apply kept_foldL; intro _ _ _) | simp only [kept_mk]
    | refine kept_fst (by assumption) ?_ | intro _ | apply kept_ite | split)

theorem kept_fetCheck {k s : State} (hk : Kept k s) (p : Nat) (sense : FetSense) : Kept k (fetCheck p sense s) := by
  unfold fetCheck
  try simp only []
  repeat' (with_reducible first
    | assumption | apply kept_protect | (apply kept_foldS; intro _ _ _) | (apply kept_foldP; intro _ _ _)
    | (apply kept_foldL; intro _ _ _) | simp only [kept_mk] | refine kept_fst (by assumption) ?_ | intro _
    | apply kept_ite | split)

theorem kept_gapEnds {k s : State} (hk : Kept k s) (p : Nat) : Kept k (gapEnds p s) := by
  unfold gapEnds
  try simp only []
  repeat' (with_reducible first
    | assumption | apply kept_modPort | (apply kept_foldS; intro _ _ _) | (apply kept_foldP; intro _ _ _)
    | (apply kept_foldL; intro _ _ _) | simp only [kept_mk] | refine kept_fst (by assumption) ?_ | intro _
    | apply kept_ite | split)

theorem kept_stepdownDone {k s : State} (hk : Kept k s) (p : Nat) : Kept k (stepdownDone p s) := by
  unfold stepdownDone
  try simp only []
  repeat' (with_reducible first
    | assumption | apply kept_closeLow | apply kept_modPort | (apply kept_foldS; intro _ _ _)
    | (apply kept_foldP; intro _ _ _) | (apply kept_foldL; intro _ _ _) | simp only [kept_mk]
    | refine kept_fst (by assumption) ?_ | intro _ | apply kept_ite | split)

theorem kept_stepdownLate {k s : State} (hk : Kept k s) (p : Nat) : Kept k (stepdownLate p s) := by
  unfold stepdownLate
  try simp only []
  repeat' (with_reducible first
    | assumption | apply kept_raise | apply kept_modPort | apply kept_hardReset | (apply kept_foldS; intro _ _ _)
    | (apply kept_foldP; intro _ _ _) | (apply kept_foldL; intro _ _ _) | simp only [kept_mk]
    | refine kept_fst (by assumption) ?_ | intro _ | apply kept_ite | split)

theorem kept_voltageLate {k s : State} (hk : Kept k s) (p : Nat) : Kept k (voltageLate p s) := by
  unfold voltageLate
  try simp only []
  repeat' (with_reducible first
    | assumption | apply kept_hardReset | (apply kept_foldS; intro _ _ _) | (apply kept_foldP; intro _ _ _)
    | (apply kept_foldL; intro _ _ _) | simp only [kept_mk] | refine kept_fst (by assumption) ?_ | intro _
    | apply kept_ite | split)

theorem kept_rail5Lost {k s : State} (hk : Kept k s) (mv : Nat) : Kept k (rail5Lost mv s) := by
  unfold rail5Lost
  try simp only []
  repeat' (with_reducible first
    | assumption | apply kept_raise | apply kept_boardEvent | apply kept_modBoard | apply kept_latchOff
    | (apply kept_foldS; intro _ _ _) | (apply kept_foldP; intro _ _ _) | (apply kept_foldL; intro _ _ _)
    | simp only [kept_mk] | refine kept_fst (by assumption) ?_ | intro _ | apply kept_ite | split)

theorem kept_rail5Back {k s : State} (hk : Kept k s) (mv : Nat) : Kept k (rail5Back mv s) := by
  unfold rail5Back
  try simp only []
  repeat' (with_reducible first
    | assumption | apply kept_clearFlt | apply kept_boardEvent | apply kept_modBoard | apply kept_toUnattached
    | apply kept_modPort | apply kept_pathEvent | (apply kept_foldS; intro _ _ _) | (apply kept_foldP; intro _ _ _)
    | (apply kept_foldL; intro _ _ _) | simp only [kept_mk] | refine kept_fst (by assumption) ?_ | intro _
    | apply kept_ite | split)

theorem kept_feedChanged {k s : State} (hk : Kept k s) (old : State) : Kept k (feedChanged old s) := by
  unfold feedChanged
  try simp only []
  repeat' (with_reducible first
    | assumption | apply kept_modLedger | (apply kept_foldS; intro _ _ _) | (apply kept_foldP; intro _ _ _)
    | (apply kept_foldL; intro _ _ _) | simp only [kept_mk] | refine kept_fst (by assumption) ?_ | intro _
    | apply kept_ite | split)

theorem kept_noteLimit {k s : State} (hk : Kept k s) : Kept k (noteLimit s) := by
  unfold noteLimit
  try simp only []
  repeat' (with_reducible first
    | assumption | apply kept_modLedger | (apply kept_foldS; intro _ _ _) | (apply kept_foldP; intro _ _ _)
    | (apply kept_foldL; intro _ _ _) | simp only [kept_mk] | refine kept_fst (by assumption) ?_ | intro _
    | apply kept_ite | split)

theorem kept_recordFeed {k s : State} (hk : Kept k s) (f : HostId) (st : FeedState) : Kept k (recordFeed f st s) := by
  unfold recordFeed
  try simp only []
  repeat' (with_reducible first
    | assumption | apply kept_ashPut | (apply kept_foldS; intro _ _ _) | (apply kept_foldP; intro _ _ _)
    | (apply kept_foldL; intro _ _ _) | simp only [kept_mk] | refine kept_fst (by assumption) ?_ | intro _
    | apply kept_ite | split)

theorem kept_shareLimit {k s : State} (hk : Kept k s) : Kept k (shareLimit s) := by
  unfold shareLimit
  try simp only []
  repeat' (with_reducible first
    | assumption | apply kept_boardEvent | apply kept_modBoard | (apply kept_foldS; intro _ _ _)
    | (apply kept_foldP; intro _ _ _) | (apply kept_foldL; intro _ _ _) | simp only [kept_mk]
    | refine kept_fst (by assumption) ?_ | intro _ | apply kept_ite | split)

theorem kept_setFeedSt {k s : State} (hk : Kept k s) (f : HostId) (st : FeedState) : Kept k (setFeedSt f st s) := by
  unfold setFeedSt
  try simp only []
  repeat' (with_reducible first
    | assumption | apply kept_shareLimit | apply kept_recordFeed | apply kept_noteLimit | apply kept_modFeed
    | apply kept_modBoard | apply kept_feedChanged | (apply kept_foldS; intro _ _ _)
    | (apply kept_foldP; intro _ _ _) | (apply kept_foldL; intro _ _ _) | simp only [kept_mk]
    | refine kept_fst (by assumption) ?_ | intro _ | apply kept_ite | split)

theorem kept_tryFeed {k s : State} (hk : Kept k s) (f : HostId) : Kept k (tryFeed f s) := by
  unfold tryFeed
  try simp only []
  repeat' (with_reducible first
    | assumption | apply kept_setFeedSt | (apply kept_foldS; intro _ _ _) | (apply kept_foldP; intro _ _ _)
    | (apply kept_foldL; intro _ _ _) | simp only [kept_mk] | refine kept_fst (by assumption) ?_ | intro _
    | apply kept_ite | split)

theorem kept_feedPresentNow {k s : State} (hk : Kept k s) (f : HostId) (mv : Nat) : Kept k (feedPresentNow f mv s) := by
  unfold feedPresentNow
  try simp only []
  repeat' (with_reducible first
    | assumption | apply kept_shareLimit | apply kept_tryFeed | apply kept_setFeedSt | apply kept_modFeed
    | (apply kept_foldS; intro _ _ _) | (apply kept_foldP; intro _ _ _) | (apply kept_foldL; intro _ _ _)
    | simp only [kept_mk] | refine kept_fst (by assumption) ?_ | intro _ | apply kept_ite | split)

theorem kept_bulkReady {k s : State} (hk : Kept k s) (f : HostId) : Kept k (bulkReady f s) := by
  unfold bulkReady
  try simp only []
  repeat' (with_reducible first
    | assumption | apply kept_modBoard | apply kept_modFeed | (apply kept_foldS; intro _ _ _)
    | (apply kept_foldP; intro _ _ _) | (apply kept_foldL; intro _ _ _) | simp only [kept_mk]
    | refine kept_fst (by assumption) ?_ | intro _ | apply kept_ite | split)

theorem kept_feedLost {k s : State} (hk : Kept k s) (f : HostId) (mv : Nat) : Kept k (feedLost f mv s) := by
  unfold feedLost
  try simp only []
  repeat' (with_reducible first
    | assumption | apply kept_modFeed | apply kept_setFeedSt | apply kept_raise | apply kept_feedEvent
    | (apply kept_foldS; intro _ _ _) | (apply kept_foldP; intro _ _ _) | (apply kept_foldL; intro _ _ _)
    | simp only [kept_mk] | refine kept_fst (by assumption) ?_ | intro _ | apply kept_ite | split)

theorem kept_feedFault {k s : State} (hk : Kept k s) (f : HostId) (code : Nat) (sub : Nat) (w : Nat) : Kept k (feedFault f code sub w s) := by
  unfold feedFault
  try simp only []
  repeat' (with_reducible first
    | assumption | apply kept_raise | apply kept_feedEvent | apply kept_modFeed | apply kept_setFeedSt
    | (apply kept_foldS; intro _ _ _) | (apply kept_foldP; intro _ _ _) | (apply kept_foldL; intro _ _ _)
    | simp only [kept_mk] | refine kept_fst (by assumption) ?_ | intro _ | apply kept_ite | split)

theorem kept_feedOn {k s : State} (hk : Kept k s) (f : HostId) (mv : Nat) : Kept k (feedOn f mv s) := by
  unfold feedOn
  try simp only []
  repeat' (with_reducible first
    | assumption | apply kept_feedEvent | apply kept_setFeedSt | apply kept_modFeed | apply kept_shareLimit
    | apply kept_modBoard | apply kept_modSvc | apply kept_clearFlt | (apply kept_foldS; intro _ _ _)
    | (apply kept_foldP; intro _ _ _) | (apply kept_foldL; intro _ _ _) | simp only [kept_mk]
    | refine kept_fst (by assumption) ?_ | intro _ | apply kept_ite | split)

theorem kept_prechargeLate {k s : State} (hk : Kept k s) (f : HostId) (mv : Nat) : Kept k (prechargeLate f mv s) := by
  unfold prechargeLate
  try simp only []
  repeat' (with_reducible first
    | assumption | apply kept_modBoard | apply kept_feedFault | (apply kept_foldS; intro _ _ _)
    | (apply kept_foldP; intro _ _ _) | (apply kept_foldL; intro _ _ _) | simp only [kept_mk]
    | refine kept_fst (by assumption) ?_ | intro _ | apply kept_ite | split)

theorem kept_feedLimitOn {k s : State} (hk : Kept k s) (f : HostId) (ma : Nat) : Kept k (feedLimitOn f ma s) := by
  unfold feedLimitOn
  try simp only []
  repeat' (with_reducible first
    | assumption | apply kept_feedEvent | apply kept_setFeedSt | (apply kept_foldS; intro _ _ _)
    | (apply kept_foldP; intro _ _ _) | (apply kept_foldL; intro _ _ _) | simp only [kept_mk]
    | refine kept_fst (by assumption) ?_ | intro _ | apply kept_ite | split)

theorem kept_feedLimitOff {k s : State} (hk : Kept k s) (f : HostId) (ma : Nat) : Kept k (feedLimitOff f ma s) := by
  unfold feedLimitOff
  try simp only []
  repeat' (with_reducible first
    | assumption | apply kept_feedEvent | apply kept_setFeedSt | (apply kept_foldS; intro _ _ _)
    | (apply kept_foldP; intro _ _ _) | (apply kept_foldL; intro _ _ _) | simp only [kept_mk]
    | refine kept_fst (by assumption) ?_ | intro _ | apply kept_ite | split)

theorem kept_feedOverload {k s : State} (hk : Kept k s) (f : HostId) (ma : Nat) : Kept k (feedOverload f ma s) := by
  unfold feedOverload
  try simp only []
  repeat' (with_reducible first
    | assumption | apply kept_feedFault | (apply kept_foldS; intro _ _ _) | (apply kept_foldP; intro _ _ _)
    | (apply kept_foldL; intro _ _ _) | simp only [kept_mk] | refine kept_fst (by assumption) ?_ | intro _
    | apply kept_ite | split)

theorem kept_feedReverse {k s : State} (hk : Kept k s) (f : HostId) (ma : Nat) : Kept k (feedReverse f ma s) := by
  unfold feedReverse
  try simp only []
  repeat' (with_reducible first
    | assumption | apply kept_feedFault | (apply kept_foldS; intro _ _ _) | (apply kept_foldP; intro _ _ _)
    | (apply kept_foldL; intro _ _ _) | simp only [kept_mk] | refine kept_fst (by assumption) ?_ | intro _
    | apply kept_ite | split)

theorem kept_retryEnds {k s : State} (hk : Kept k s) (f : HostId) : Kept k (retryEnds f s) := by
  unfold retryEnds
  try simp only []
  repeat' (with_reducible first
    | assumption | apply kept_modFeed | apply kept_tryFeed | apply kept_setFeedSt | (apply kept_foldS; intro _ _ _)
    | (apply kept_foldP; intro _ _ _) | (apply kept_foldL; intro _ _ _) | simp only [kept_mk]
    | refine kept_fst (by assumption) ?_ | intro _ | apply kept_ite | split)

theorem kept_seatDone {k s : State} (hk : Kept k s) : Kept k (seatDone s) := by
  unfold seatDone
  try simp only []
  repeat' (with_reducible first
    | assumption | apply kept_modLich | apply kept_modBoard | apply kept_clearFlt | apply kept_boardEvent
    | apply kept_tryFeed | (apply kept_foldS; intro _ _ _) | (apply kept_foldP; intro _ _ _)
    | (apply kept_foldL; intro _ _ _) | simp only [kept_mk] | refine kept_fst (by assumption) ?_ | intro _
    | apply kept_ite | split)

theorem kept_seatHigh {k s : State} (hk : Kept k s) (one : Bool) (two : Bool) : Kept k (seatHigh one two s) := by
  unfold seatHigh
  try simp only []
  repeat' (with_reducible first
    | assumption | apply kept_modBoard | apply kept_modFeed | apply kept_setFeedSt | apply kept_raise
    | apply kept_boardEvent | apply kept_setSqc | (apply kept_foldS; intro _ _ _) | (apply kept_foldP; intro _ _ _)
    | (apply kept_foldL; intro _ _ _) | simp only [kept_mk] | refine kept_fst (by assumption) ?_ | intro _
    | apply kept_ite | split)

theorem kept_holdPorts {k s : State} (hk : Kept k s) : Kept k (holdPorts s) := by
  unfold holdPorts
  try simp only []
  repeat' (with_reducible first
    | assumption | apply kept_modPort | (apply kept_foldS; intro _ _ _) | (apply kept_foldP; intro _ _ _)
    | (apply kept_foldL; intro _ _ _) | simp only [kept_mk] | refine kept_fst (by assumption) ?_ | intro _
    | apply kept_ite | split)

theorem kept_safePort {k s : State} (hk : Kept k s) (safe : Nat) (p : Nat) : Kept k (safePort safe p s) := by
  unfold safePort
  try simp only []
  repeat' (with_reducible first
    | assumption | apply kept_openPaths | apply kept_modPort | (apply kept_foldS; intro _ _ _)
    | (apply kept_foldP; intro _ _ _) | (apply kept_foldL; intro _ _ _) | simp only [kept_mk]
    | refine kept_fst (by assumption) ?_ | intro _ | apply kept_ite | split)

theorem kept_holdExpires {k s : State} (hk : Kept k s) : Kept k (holdExpires s) := by
  unfold holdExpires
  try simp only []
  repeat' (with_reducible first
    | assumption | apply kept_safePort | apply kept_modBoard | apply kept_pathEvent | apply kept_ashRecord
    | (apply kept_foldS; intro _ _ _) | (apply kept_foldP; intro _ _ _) | (apply kept_foldL; intro _ _ _)
    | simp only [kept_mk] | refine kept_fst (by assumption) ?_ | intro _ | apply kept_ite | split)

end Sys2Proof.Machine
end

