-- ==== Sys2Proof/Laws/KeptLedger.lean ====
section
/-!
SUPPORT. `Kept` (Laws/Kept.lean) for the Ledger, microframes and the endpoint and queue commands.
-/
set_option linter.all false
namespace Sys2Proof.Machine

theorem kept_ledgerStep {k s : State} (hk : Kept k s) (old : Ledger) : Kept k (ledgerStep old s) := by
  unfold ledgerStep
  try simp only []
  repeat' (with_reducible first
    | assumption | apply kept_stokEvent | (apply kept_foldS; intro _ _ _) | (apply kept_foldP; intro _ _ _)
    | (apply kept_foldL; intro _ _ _) | simp only [kept_mk] | refine kept_fst (by assumption) ?_ | intro _
    | apply kept_ite | split)

theorem kept_applyStretch {k s : State} (hk : Kept k s) (old : Nat) : Kept k (applyStretch old s) := by
  unfold applyStretch
  try simp only []
  repeat' (with_reducible first
    | assumption | (apply kept_foldS; intro _ _ _) | (apply kept_foldP; intro _ _ _)
    | (apply kept_foldL; intro _ _ _) | simp only [kept_mk] | refine kept_fst (by assumption) ?_ | intro _
    | apply kept_ite | split)

theorem kept_gateEmpty {k s : State} (hk : Kept k s) : Kept k (gateEmpty s) := by
  unfold gateEmpty
  try simp only []
  repeat' (with_reducible first
    | assumption | apply kept_changeEngine | (apply kept_foldS; intro _ _ _) | (apply kept_foldP; intro _ _ _)
    | (apply kept_foldL; intro _ _ _) | simp only [kept_mk] | refine kept_fst (by assumption) ?_ | intro _
    | apply kept_ite | split)

theorem kept_noteMoved {k s : State} (hk : Kept k s) (g : Nat) : Kept k (noteMoved g s) := by
  unfold noteMoved
  try simp only []
  repeat' (with_reducible first
    | assumption | apply kept_modStok | (apply kept_foldS; intro _ _ _) | (apply kept_foldP; intro _ _ _)
    | (apply kept_foldL; intro _ _ _) | simp only [kept_mk] | refine kept_fst (by assumption) ?_ | intro _
    | apply kept_ite | split)

theorem kept_consolidate {k s : State} (hk : Kept k s) : Kept k (consolidate s) := by
  unfold consolidate
  try simp only []
  repeat' (with_reducible first
    | assumption | apply kept_gateEmpty | apply kept_order | apply kept_noteMoved | (apply kept_foldS; intro _ _ _)
    | (apply kept_foldP; intro _ _ _) | (apply kept_foldL; intro _ _ _) | simp only [kept_mk]
    | refine kept_fst (by assumption) ?_ | intro _ | apply kept_ite | split)

theorem kept_lowerClocks {k s : State} (hk : Kept k s) : Kept k (lowerClocks s) := by
  unfold lowerClocks
  try simp only []
  repeat' (with_reducible first
    | assumption | apply kept_modEngine | (apply kept_foldS; intro _ _ _) | (apply kept_foldP; intro _ _ _)
    | (apply kept_foldL; intro _ _ _) | simp only [kept_mk] | refine kept_fst (by assumption) ?_ | intro _
    | apply kept_ite | split)

theorem kept_fullClocks {k s : State} (hk : Kept k s) : Kept k (fullClocks s) := by
  unfold fullClocks
  try simp only []
  repeat' (with_reducible first
    | assumption | apply kept_modEngine | (apply kept_foldS; intro _ _ _) | (apply kept_foldP; intro _ _ _)
    | (apply kept_foldL; intro _ _ _) | simp only [kept_mk] | refine kept_fst (by assumption) ?_ | intro _
    | apply kept_ite | split)

theorem kept_ungate {k s : State} (hk : Kept k s) : Kept k (ungate s) := by
  unfold ungate
  try simp only []
  repeat' (with_reducible first
    | assumption | apply kept_changeEngine | (apply kept_foldS; intro _ _ _) | (apply kept_foldP; intro _ _ _)
    | (apply kept_foldL; intro _ _ _) | simp only [kept_mk] | refine kept_fst (by assumption) ?_ | intro _
    | apply kept_ite | split)

theorem kept_takeStep {k s : State} (hk : Kept k s) (step : Nat) : Kept k (takeStep step s) := by
  unfold takeStep
  try simp only []
  repeat' (with_reducible first
    | assumption | apply kept_consolidate | apply kept_lowerClocks | (apply kept_foldS; intro _ _ _)
    | (apply kept_foldP; intro _ _ _) | (apply kept_foldL; intro _ _ _) | simp only [kept_mk]
    | refine kept_fst (by assumption) ?_ | intro _ | apply kept_ite | split)

theorem kept_undoStep {k s : State} (hk : Kept k s) (step : Nat) : Kept k (undoStep step s) := by
  unfold undoStep
  try simp only []
  repeat' (with_reducible first
    | assumption | apply kept_ungate | apply kept_fullClocks | (apply kept_foldS; intro _ _ _)
    | (apply kept_foldP; intro _ _ _) | (apply kept_foldL; intro _ _ _) | simp only [kept_mk]
    | refine kept_fst (by assumption) ?_ | intro _ | apply kept_ite | split)

theorem kept_takeHeat {k s : State} (hk : Kept k s) (m : LedgerMeas) (x1 : Nat) (x2 : Int) : Kept k (takeHeat m x1 x2 s) := by
  induction x1 generalizing s x2 with
  | zero =>
    unfold takeHeat
    try simp only []
    repeat' (with_reducible first
      | assumption | apply kept_modLedger | apply kept_applyStretch | apply kept_takeStep
      | (apply kept_foldS; intro _ _ _) | (apply kept_foldP; intro _ _ _) | (apply kept_foldL; intro _ _ _)
      | simp only [kept_mk] | refine kept_fst (by assumption) ?_ | intro _ | apply kept_ite | split)
  | succ n ih =>
    unfold takeHeat
    try simp only []
    repeat' (with_reducible first
      | assumption | apply ih | apply kept_modLedger | apply kept_applyStretch | apply kept_takeStep
      | (apply kept_foldS; intro _ _ _) | (apply kept_foldP; intro _ _ _) | (apply kept_foldL; intro _ _ _)
      | simp only [kept_mk] | refine kept_fst (by assumption) ?_ | intro _ | apply kept_ite | split)

theorem kept_relax {k s : State} (hk : Kept k s) : Kept k (relax s) := by
  unfold relax
  try simp only []
  repeat' (with_reducible first
    | assumption | apply kept_applyStretch | apply kept_modLedger | apply kept_undoStep | apply kept_ledgerStep
    | (apply kept_foldS; intro _ _ _) | (apply kept_foldP; intro _ _ _) | (apply kept_foldL; intro _ _ _)
    | simp only [kept_mk] | refine kept_fst (by assumption) ?_ | intro _ | apply kept_ite | split)

theorem kept_renegotiate {k s : State} (hk : Kept k s) (p : Nat) : Kept k (renegotiate p s) := by
  unfold renegotiate
  try simp only []
  repeat' (with_reducible first
    | assumption | apply kept_newOffer | apply kept_modPort | (apply kept_foldS; intro _ _ _)
    | (apply kept_foldP; intro _ _ _) | (apply kept_foldL; intro _ _ _) | simp only [kept_mk]
    | refine kept_fst (by assumption) ?_ | intro _ | apply kept_ite | split)

theorem kept_shedPort {k s : State} (hk : Kept k s) (p : Nat) : Kept k (shedPort p s) := by
  unfold shedPort
  try simp only []
  repeat' (with_reducible first
    | assumption | apply kept_pathEvent | apply kept_modPort | apply kept_toDisabled
    | (apply kept_foldS; intro _ _ _) | (apply kept_foldP; intro _ _ _) | (apply kept_foldL; intro _ _ _)
    | simp only [kept_mk] | refine kept_fst (by assumption) ?_ | intro _ | apply kept_ite | split)

theorem kept_shedAll {k s : State} (hk : Kept k s) : Kept k (shedAll s) := by
  unfold shedAll
  try simp only []
  repeat' (with_reducible first
    | assumption | apply kept_shedPort | (apply kept_foldS; intro _ _ _) | (apply kept_foldP; intro _ _ _)
    | (apply kept_foldL; intro _ _ _) | simp only [kept_mk] | refine kept_fst (by assumption) ?_ | intro _
    | apply kept_ite | split)

theorem kept_takeFeed {k s : State} (hk : Kept k s) (m : LedgerMeas) (x1 : Nat) (x2 : Int) : Kept k (takeFeed m x1 x2 s) := by
  induction x1 generalizing s x2 with
  | zero =>
    unfold takeFeed
    try simp only []
    repeat' (with_reducible first
      | assumption | apply kept_modLedger | apply kept_applyStretch | apply kept_takeStep
      | (apply kept_foldS; intro _ _ _) | (apply kept_foldP; intro _ _ _) | (apply kept_foldL; intro _ _ _)
      | simp only [kept_mk] | refine kept_fst (by assumption) ?_ | intro _ | apply kept_ite | split)
  | succ n ih =>
    unfold takeFeed
    try simp only []
    repeat' (with_reducible first
      | assumption | apply ih | apply kept_modLedger | apply kept_applyStretch | apply kept_takeStep
      | (apply kept_foldS; intro _ _ _) | (apply kept_foldP; intro _ _ _) | (apply kept_foldL; intro _ _ _)
      | simp only [kept_mk] | refine kept_fst (by assumption) ?_ | intro _ | apply kept_ite | split)

theorem kept_shedNow {k s : State} (hk : Kept k s) : Kept k (shedNow s) := by
  unfold shedNow
  try simp only []
  repeat' (with_reducible first
    | assumption | apply kept_modLedger | apply kept_shedAll | (apply kept_foldS; intro _ _ _)
    | (apply kept_foldP; intro _ _ _) | (apply kept_foldL; intro _ _ _) | simp only [kept_mk]
    | refine kept_fst (by assumption) ?_ | intro _ | apply kept_ite | split)

theorem kept_feedOrderStep {k s : State} (hk : Kept k s) (m : LedgerMeas) : Kept k (feedOrderStep m s) := by
  unfold feedOrderStep
  try simp only []
  repeat' (with_reducible first
    | assumption | apply kept_modLedger | apply kept_shedNow | apply kept_raise | apply kept_takeFeed
    | apply kept_renegotiate | apply kept_clearFlt | apply kept_undoStep | apply kept_applyStretch
    | (apply kept_foldS; intro _ _ _) | (apply kept_foldP; intro _ _ _) | (apply kept_foldL; intro _ _ _)
    | simp only [kept_mk] | refine kept_fst (by assumption) ?_ | intro _ | apply kept_ite | split)

theorem kept_restoreStart {k s : State} (hk : Kept k s) : Kept k (restoreStart s) := by
  unfold restoreStart
  try simp only []
  repeat' (with_reducible first
    | assumption | apply kept_modLedger | (apply kept_foldS; intro _ _ _) | (apply kept_foldP; intro _ _ _)
    | (apply kept_foldL; intro _ _ _) | simp only [kept_mk] | refine kept_fst (by assumption) ?_ | intro _
    | apply kept_ite | split)

theorem kept_restoreOne {k s : State} (hk : Kept k s) : Kept k (restoreOne s) := by
  unfold restoreOne
  try simp only []
  repeat' (with_reducible first
    | assumption | apply kept_modLedger | apply kept_modPort | apply kept_pathEvent | apply kept_toUnattached
    | apply kept_newOffer | (apply kept_foldS; intro _ _ _) | (apply kept_foldP; intro _ _ _)
    | (apply kept_foldL; intro _ _ _) | simp only [kept_mk] | refine kept_fst (by assumption) ?_ | intro _
    | apply kept_ite | split)

theorem kept_freshStep {k s : State} (hk : Kept k s) (old : Ledger) : Kept k (freshStep old s) := by
  unfold freshStep
  try simp only []
  repeat' (with_reducible first
    | assumption | apply kept_ledgerStep | apply kept_modLedger | (apply kept_foldS; intro _ _ _)
    | (apply kept_foldP; intro _ _ _) | (apply kept_foldL; intro _ _ _) | simp only [kept_mk]
    | refine kept_fst (by assumption) ?_ | intro _ | apply kept_ite | split)

theorem kept_limitShed {k s : State} (hk : Kept k s) : Kept k (limitShed s) := by
  unfold limitShed
  try simp only []
  repeat' (with_reducible first
    | assumption | apply kept_freshStep | apply kept_ledgerStep | apply kept_shedPort | apply kept_modLedger
    | (apply kept_foldS; intro _ _ _) | (apply kept_foldP; intro _ _ _) | (apply kept_foldL; intro _ _ _)
    | simp only [kept_mk] | refine kept_fst (by assumption) ?_ | intro _ | apply kept_ite | split)

theorem kept_engineMw {k s : State} (hk : Kept k s) (m : LedgerMeas) (e : Nat) : Kept k (engineMw m e s) := by
  unfold engineMw
  try simp only []
  repeat' (with_reducible first
    | assumption | apply kept_modEngine | (apply kept_foldS; intro _ _ _) | (apply kept_foldP; intro _ _ _)
    | (apply kept_foldL; intro _ _ _) | simp only [kept_mk] | refine kept_fst (by assumption) ?_ | intro _
    | apply kept_ite | split)

theorem kept_measureLedger {k s : State} (hk : Kept k s) (m : LedgerMeas) : Kept k (measureLedger m s) := by
  unfold measureLedger
  try simp only []
  repeat' (with_reducible first
    | assumption | apply kept_modLedger | (apply kept_foldS; intro _ _ _) | (apply kept_foldP; intro _ _ _)
    | (apply kept_foldL; intro _ _ _) | simp only [kept_mk] | refine kept_fst (by assumption) ?_ | intro _
    | apply kept_ite | split)

theorem kept_thermalCheck {k s : State} (hk : Kept k s) (m : LedgerMeas) : Kept k (thermalCheck m s) := by
  unfold thermalCheck
  try simp only []
  repeat' (with_reducible first
    | assumption | apply kept_raise | apply kept_clearFlt | (apply kept_foldS; intro _ _ _)
    | (apply kept_foldP; intro _ _ _) | (apply kept_foldL; intro _ _ _) | simp only [kept_mk]
    | refine kept_fst (by assumption) ?_ | intro _ | apply kept_ite | split)

theorem kept_applyBudget {k s : State} (hk : Kept k s) (ps : List Byte) : Kept k (applyBudget ps s) := by
  unfold applyBudget
  try simp only []
  repeat' (with_reducible first
    | assumption | apply kept_modLedger | apply kept_modPort | (apply kept_foldS; intro _ _ _)
    | (apply kept_foldP; intro _ _ _) | (apply kept_foldL; intro _ _ _) | simp only [kept_mk]
    | refine kept_fst (by assumption) ?_ | intro _ | apply kept_ite | split)

theorem kept_takeBudgets {k s : State} (hk : Kept k s) : Kept k (takeBudgets s) := by
  unfold takeBudgets
  try simp only []
  repeat' (with_reducible first
    | assumption | apply kept_applyBudget | apply kept_modLedger | (apply kept_foldS; intro _ _ _)
    | (apply kept_foldP; intro _ _ _) | (apply kept_foldL; intro _ _ _) | simp only [kept_mk]
    | refine kept_fst (by assumption) ?_ | intro _ | apply kept_ite | split)

theorem kept_recompute {k s : State} (hk : Kept k s) (m : LedgerMeas) : Kept k (recompute m s) := by
  unfold recompute
  try simp only []
  repeat' (with_reducible first
    | assumption | apply kept_takeBudgets | apply kept_applyStretch | apply kept_measureLedger
    | apply kept_engineMw | apply kept_thermalCheck | apply kept_takeHeat | apply kept_feedOrderStep
    | apply kept_modLedger | apply kept_lowerClocks | apply kept_gateEmpty | apply kept_ledgerStep
    | (apply kept_foldS; intro _ _ _) | (apply kept_foldP; intro _ _ _) | (apply kept_foldL; intro _ _ _)
    | simp only [kept_mk] | refine kept_fst (by assumption) ?_ | intro _ | apply kept_ite | split)

theorem kept_ledgerReady {k s : State} (hk : Kept k s) : Kept k (ledgerReady s) := by
  unfold ledgerReady
  try simp only []
  repeat' (with_reducible first
    | assumption | apply kept_consolidate | (apply kept_foldS; intro _ _ _) | (apply kept_foldP; intro _ _ _)
    | (apply kept_foldL; intro _ _ _) | simp only [kept_mk] | refine kept_fst (by assumption) ?_ | intro _
    | apply kept_ite | split)

theorem kept_budgetSetCmd  : SpecKept budgetSetCmd := by
  intro k x s hk
  simp only [budgetSetCmd]
  repeat' (with_reducible first
    | assumption | apply kept_modLedger | (apply kept_foldS; intro _ _ _) | (apply kept_foldP; intro _ _ _)
    | (apply kept_foldL; intro _ _ _) | simp only [kept_mk] | refine kept_fst (by assumption) ?_ | intro _
    | apply kept_ite | split)

theorem kept_budgetStatusCmd  : SpecKept budgetStatusCmd := by
  intro k x s hk
  simp only [budgetStatusCmd]
  repeat' (with_reducible first
    | assumption | (apply kept_foldS; intro _ _ _) | (apply kept_foldP; intro _ _ _)
    | (apply kept_foldL; intro _ _ _) | simp only [kept_mk] | refine kept_fst (by assumption) ?_ | intro _
    | apply kept_ite | split)

theorem kept_tePop {k s : State} (hk : Kept k s) (q : Nat) (x1 : Nat) : Kept k (tePop q x1 s).1 := by
  induction x1 generalizing s with
  | zero =>
    unfold tePop
    try simp only []
    repeat' (with_reducible first
      | assumption | apply kept_putQueue | apply kept_markUnderrun | apply kept_setQueue
      | (apply kept_foldS; intro _ _ _) | (apply kept_foldP; intro _ _ _) | (apply kept_foldL; intro _ _ _)
      | simp only [kept_mk] | refine kept_fst (by assumption) ?_ | intro _ | apply kept_ite | split)
  | succ n ih =>
    unfold tePop
    try simp only []
    repeat' (with_reducible first
      | assumption | apply ih | apply kept_putQueue | apply kept_markUnderrun | apply kept_setQueue
      | (apply kept_foldS; intro _ _ _) | (apply kept_foldP; intro _ _ _) | (apply kept_foldL; intro _ _ _)
      | simp only [kept_mk] | refine kept_fst (by assumption) ?_ | intro _ | apply kept_ite | split)

theorem kept_outSlot {k s : State} (hk : Kept k s) (e : Nat) (c : Ctx) : Kept k (outSlot e c s).1 := by
  unfold outSlot
  try simp only []
  repeat' (with_reducible first
    | assumption | apply kept_tePop | apply kept_modCtx | (apply kept_foldS; intro _ _ _)
    | (apply kept_foldP; intro _ _ _) | (apply kept_foldL; intro _ _ _) | simp only [kept_mk]
    | refine kept_fst (by assumption) ?_ | intro _ | apply kept_ite | split)

theorem kept_setXfer {k s : State} (hk : Kept k s) (x : Xfer) : Kept k (setXfer x s) := by
  unfold setXfer
  try simp only []
  repeat' (with_reducible first
    | assumption | (apply kept_foldS; intro _ _ _) | (apply kept_foldP; intro _ _ _)
    | (apply kept_foldL; intro _ _ _) | simp only [kept_mk] | refine kept_fst (by assumption) ?_ | intro _
    | apply kept_ite | split)

theorem kept_fillXfer {k s : State} (hk : Kept k s) (need : Nat) (x1 : Nat) (x2 : Xfer) : Kept k (fillXfer need x1 x2 s).1 := by
  induction x1 generalizing s x2 with
  | zero =>
    unfold fillXfer
    try simp only []
    repeat' (with_reducible first
      | assumption | apply kept_putQueue | (apply kept_foldS; intro _ _ _)
      | (apply kept_foldP; intro _ _ _) | (apply kept_foldL; intro _ _ _) | simp only [kept_mk]
      | refine kept_fst (by assumption) ?_ | intro _ | apply kept_ite | split)
  | succ n ih =>
    unfold fillXfer
    try simp only []
    repeat' (with_reducible first
      | assumption | apply ih | apply kept_putQueue | (apply kept_foldS; intro _ _ _)
      | (apply kept_foldP; intro _ _ _) | (apply kept_foldL; intro _ _ _) | simp only [kept_mk]
      | refine kept_fst (by assumption) ?_ | intro _ | apply kept_ite | split)

theorem kept_prepareXfer {k s : State} (hk : Kept k s) (x : Xfer) (c : Ctx) : Kept k (prepareXfer x c s).1 := by
  unfold prepareXfer
  try simp only []
  repeat' (with_reducible first
    | assumption | apply kept_fillXfer | apply kept_setXfer | (apply kept_foldS; intro _ _ _)
    | (apply kept_foldP; intro _ _ _) | (apply kept_foldL; intro _ _ _) | simp only [kept_mk]
    | refine kept_fst (by assumption) ?_ | intro _ | apply kept_ite | split)

theorem kept_serveSlot {k : State} {acc : State × List Nat} (hk : Kept k acc.1) (n : Nat) (e : Nat) (c : Ctx) : Kept k (serveSlot n e c acc).1 := by
  unfold serveSlot
  try simp only []
  repeat' (with_reducible first
    | assumption | apply kept_setCtx | apply kept_outSlot | apply kept_modCtx | (apply kept_foldS; intro _ _ _)
    | (apply kept_foldP; intro _ _ _) | (apply kept_foldL; intro _ _ _) | simp only [kept_mk]
    | refine kept_fst (by assumption) ?_ | intro _ | apply kept_ite | split)

theorem kept_placeSlot {k : State} {acc : State × List Nat} (hk : Kept k acc.1) (te : Nat) (cls : Nat) (n : Nat) (e : Nat) : Kept k (placeSlot te cls n acc e).1 := by
  unfold placeSlot
  try simp only []
  repeat' (with_reducible first
    | assumption | apply kept_setCtx | apply kept_fetchCtx | apply kept_serveSlot | (apply kept_foldS; intro _ _ _)
    | (apply kept_foldP; intro _ _ _) | (apply kept_foldL; intro _ _ _) | simp only [kept_mk]
    | refine kept_fst (by assumption) ?_ | intro _ | apply kept_ite | split)

theorem kept_placeRetry {k : State} (te : Nat) (n : Nat) {acc : State × List Nat} (e : Nat) (hk : Kept k acc.1) : Kept k (placeRetry te n acc e).1 := by
  unfold placeRetry
  try simp only []
  repeat' (with_reducible first
    | assumption | apply kept_setCtx | (apply kept_foldS; intro _ _ _) | (apply kept_foldP; intro _ _ _)
    | (apply kept_foldL; intro _ _ _) | simp only [kept_mk] | refine kept_fst (by assumption) ?_ | intro _
    | apply kept_ite | split)

theorem kept_fetchWork {k : State} {acc : State × List (Nat × Nat × Bool)} (hk : Kept k acc.1) (x : Nat × Nat × Bool) : Kept k (fetchWork acc x).1 := by
  unfold fetchWork
  try simp only []
  repeat' (with_reducible first
    | assumption | apply kept_setCtx | apply kept_fetchCtx | (apply kept_foldS; intro _ _ _)
    | (apply kept_foldP; intro _ _ _) | (apply kept_foldL; intro _ _ _) | simp only [kept_mk]
    | refine kept_fst (by assumption) ?_ | intro _ | apply kept_ite | split)

theorem kept_placeAcyclic {k : State} {acc : State × List Nat} (hk : Kept k acc.1) (room : Nat) (cal : Option Nat) (x : Nat × Nat × Bool) : Kept k (placeAcyclic room cal acc x).1 := by
  unfold placeAcyclic
  try simp only []
  repeat' (with_reducible first
    | assumption | apply kept_prepareXfer | (apply kept_foldS; intro _ _ _) | (apply kept_foldP; intro _ _ _)
    | (apply kept_foldL; intro _ _ _) | simp only [kept_mk] | refine kept_fst (by assumption) ?_ | intro _
    | apply kept_ite | split)

theorem kept_commitEntries {k : State} (te : Nat) (g : Nat) (acyclic : List Nat) {b : State × List Nat} (hk : Kept k b.1) : Kept k (commitEntries te g acyclic b) := by
  unfold commitEntries
  try simp only []
  repeat' (with_reducible first
    | assumption | apply kept_placeRetry | apply kept_fetchWork | apply kept_placeAcyclic | apply kept_modEngine
    | apply kept_modStok | (apply kept_foldS; intro _ _ _) | (apply kept_foldP; intro _ _ _)
    | (apply kept_foldL; intro _ _ _) | simp only [kept_mk] | refine kept_fst (by assumption) ?_ | intro _
    | apply kept_ite | split)

theorem kept_slotEntries {k s : State} (hk : Kept k s) (te : Nat) (g : Nat) : Kept k (slotEntries te g s).1 := by
  unfold slotEntries
  try simp only []
  repeat' (with_reducible first
    | assumption | apply kept_placeSlot | (apply kept_foldS; intro _ _ _) | (apply kept_foldP; intro _ _ _)
    | (apply kept_foldL; intro _ _ _) | simp only [kept_mk] | refine kept_fst (by assumption) ?_ | intro _
    | apply kept_ite | split)

theorem kept_commitList {k s : State} (hk : Kept k s) (te : Nat) (g : Nat) : Kept k (commitList te g s) := by
  unfold commitList
  try simp only []
  repeat' (with_reducible first
    | assumption | apply kept_commitEntries | apply kept_slotEntries | apply kept_modEngine | apply kept_modStok
    | apply kept_buildList | (apply kept_foldS; intro _ _ _) | (apply kept_foldP; intro _ _ _)
    | (apply kept_foldL; intro _ _ _) | simp only [kept_mk] | refine kept_fst (by assumption) ?_ | intro _
    | apply kept_ite | split)

theorem kept_passTo {k s : State} (hk : Kept k s) (ns : Nat) : Kept k (passTo ns s) := by
  unfold passTo
  try simp only []
  repeat' (with_reducible first
    | assumption | apply kept_modLich | apply kept_modTime | apply kept_modDev | (apply kept_foldS; intro _ _ _)
    | (apply kept_foldP; intro _ _ _) | (apply kept_foldL; intro _ _ _) | simp only [kept_mk]
    | refine kept_fst (by assumption) ?_ | intro _ | apply kept_ite | split)

theorem kept_renumber {k s : State} (hk : Kept k s) : Kept k (renumber s) := by
  unfold renumber
  try simp only []
  repeat' (with_reducible first
    | assumption | apply kept_passTo | apply kept_modTime | (apply kept_foldS; intro _ _ _)
    | (apply kept_foldP; intro _ _ _) | (apply kept_foldL; intro _ _ _) | simp only [kept_mk]
    | refine kept_fst (by assumption) ?_ | intro _ | apply kept_ite | split)

theorem kept_nextBoundary {k s : State} (hk : Kept k s) : Kept k (nextBoundary s) := by
  unfold nextBoundary
  try simp only []
  repeat' (with_reducible first
    | assumption | apply kept_modTime | apply kept_passTo | (apply kept_foldS; intro _ _ _)
    | (apply kept_foldP; intro _ _ _) | (apply kept_foldL; intro _ _ _) | simp only [kept_mk]
    | refine kept_fst (by assumption) ?_ | intro _ | apply kept_ite | split)

theorem kept_addPin {k s : State} (hk : Kept k s) (p : Pin) : Kept k (addPin p s) := by
  unfold addPin
  try simp only []
  repeat' (with_reducible first
    | assumption | apply kept_modStok | (apply kept_foldS; intro _ _ _) | (apply kept_foldP; intro _ _ _)
    | (apply kept_foldL; intro _ _ _) | simp only [kept_mk] | refine kept_fst (by assumption) ?_ | intro _
    | apply kept_ite | split)

theorem kept_handOff {k s : State} (hk : Kept k s) (m : Mig) : Kept k (handOff m s) := by
  unfold handOff
  try simp only []
  repeat' (with_reducible first
    | assumption | apply kept_bumpMig | apply kept_modStok | apply kept_putGroup | apply kept_addPin
    | apply kept_finishOp | (apply kept_foldS; intro _ _ _) | (apply kept_foldP; intro _ _ _)
    | (apply kept_foldL; intro _ _ _) | simp only [kept_mk] | refine kept_fst (by assumption) ?_ | intro _
    | apply kept_ite | split)

theorem kept_migBoundary {k s : State} (hk : Kept k s) : Kept k (migBoundary s) := by
  unfold migBoundary
  try simp only []
  repeat' (with_reducible first
    | assumption | apply kept_handOff | apply kept_abandonMig | (apply kept_foldS; intro _ _ _)
    | (apply kept_foldP; intro _ _ _) | (apply kept_foldL; intro _ _ _) | simp only [kept_mk]
    | refine kept_fst (by assumption) ?_ | intro _ | apply kept_ite | split)

theorem kept_missSlots {k s : State} (hk : Kept k s) : Kept k (missSlots s) := by
  unfold missSlots
  try simp only []
  repeat' (with_reducible first
    | assumption | (apply kept_foldS; intro _ _ _) | (apply kept_foldP; intro _ _ _)
    | (apply kept_foldL; intro _ _ _) | simp only [kept_mk] | refine kept_fst (by assumption) ?_ | intro _
    | apply kept_ite | split)

theorem kept_passSlots {k s : State} (hk : Kept k s) : Kept k (passSlots s) := by
  unfold passSlots
  try simp only []
  repeat' (with_reducible first
    | assumption | (apply kept_foldS; intro _ _ _) | (apply kept_foldP; intro _ _ _)
    | (apply kept_foldL; intro _ _ _) | simp only [kept_mk] | refine kept_fst (by assumption) ?_ | intro _
    | apply kept_ite | split)

theorem kept_dropEntries {k s : State} (hk : Kept k s) (l : List Nat) : Kept k (dropEntries l s) := by
  unfold dropEntries
  try simp only []
  repeat' (with_reducible first
    | assumption | apply kept_modCtx | (apply kept_foldS; intro _ _ _) | (apply kept_foldP; intro _ _ _)
    | (apply kept_foldL; intro _ _ _) | simp only [kept_mk] | refine kept_fst (by assumption) ?_ | intro _
    | apply kept_ite | split)

theorem kept_missedList {k s : State} (hk : Kept k s) (g : Nat) : Kept k (missedList g s) := by
  unfold missedList
  try simp only []
  repeat' (with_reducible first
    | assumption | apply kept_raiseAt | apply kept_setSqc | apply kept_modEngine | (apply kept_foldS; intro _ _ _)
    | (apply kept_foldP; intro _ _ _) | (apply kept_foldL; intro _ _ _) | simp only [kept_mk]
    | refine kept_fst (by assumption) ?_ | intro _ | apply kept_ite | split)

theorem kept_dropBuilt {k s : State} (hk : Kept k s) (g : Nat) : Kept k (dropBuilt g s) := by
  unfold dropBuilt
  try simp only []
  repeat' (with_reducible first
    | assumption | apply kept_dropEntries | (apply kept_foldS; intro _ _ _) | (apply kept_foldP; intro _ _ _)
    | (apply kept_foldL; intro _ _ _) | simp only [kept_mk] | refine kept_fst (by assumption) ?_ | intro _
    | apply kept_ite | split)

theorem kept_onWire {k s : State} (hk : Kept k s) (e : Nat) (b : Bool) : Kept k (onWire e b s) := by
  unfold onWire
  try simp only []
  repeat' (with_reducible first
    | assumption | apply kept_setXfer | (apply kept_foldS; intro _ _ _) | (apply kept_foldP; intro _ _ _)
    | (apply kept_foldL; intro _ _ _) | simp only [kept_mk] | refine kept_fst (by assumption) ?_ | intro _
    | apply kept_ite | split)

theorem kept_runPort {k s : State} (hk : Kept k s) (p : Nat) : Kept k (runPort p s) := by
  unfold runPort
  try simp only []
  repeat' (with_reducible first
    | assumption | apply kept_emit | apply kept_dropBuilt | apply kept_missedList | apply kept_onWire
    | (apply kept_foldS; intro _ _ _) | (apply kept_foldP; intro _ _ _) | (apply kept_foldL; intro _ _ _)
    | simp only [kept_mk] | refine kept_fst (by assumption) ?_ | intro _ | apply kept_ite | split)

theorem kept_keepStamp {k s : State} (hk : Kept k s) : Kept k (keepStamp s) := by
  unfold keepStamp
  try simp only []
  repeat' (with_reducible first
    | assumption | apply kept_modTime | (apply kept_foldS; intro _ _ _) | (apply kept_foldP; intro _ _ _)
    | (apply kept_foldL; intro _ _ _) | simp only [kept_mk] | refine kept_fst (by assumption) ?_ | intro _
    | apply kept_ite | split)

theorem kept_boundary {k s : State} (hk : Kept k s) : Kept k (boundary s) := by
  unfold boundary
  try simp only []
  repeat' (with_reducible first
    | assumption | apply kept_keepStamp | apply kept_migBoundary | apply kept_renumber | apply kept_nextBoundary
    | apply kept_runPort | apply kept_passSlots | apply kept_missSlots | apply kept_issueOrders | apply kept_modStok
    | apply kept_engineEmpty | apply kept_gateEmpty | (apply kept_foldS; intro _ _ _)
    | (apply kept_foldP; intro _ _ _) | (apply kept_foldL; intro _ _ _) | simp only [kept_mk]
    | refine kept_fst (by assumption) ?_ | intro _ | apply kept_ite | split)

theorem kept_migReady {k s : State} (hk : Kept k s) (p : Nat) (g : Nat) : Kept k (migReady p g s) := by
  unfold migReady
  try simp only []
  repeat' (with_reducible first
    | assumption | (apply kept_foldS; intro _ _ _) | (apply kept_foldP; intro _ _ _)
    | (apply kept_foldL; intro _ _ _) | simp only [kept_mk] | refine kept_fst (by assumption) ?_ | intro _
    | apply kept_ite | split)

theorem kept_migDrained {k s : State} (hk : Kept k s) (p : Nat) (g : Nat) : Kept k (migDrained p g s) := by
  unfold migDrained
  try simp only []
  repeat' (with_reducible first
    | assumption | apply kept_issueOrders | apply kept_engineEmpty | apply kept_pushItem | apply kept_dropMig
    | (apply kept_foldS; intro _ _ _) | (apply kept_foldP; intro _ _ _) | (apply kept_foldL; intro _ _ _)
    | simp only [kept_mk] | refine kept_fst (by assumption) ?_ | intro _ | apply kept_ite | split)

theorem kept_coldReady {k s : State} (hk : Kept k s) (p : Nat) (g : Nat) : Kept k (coldReady p g s) := by
  unfold coldReady
  try simp only []
  repeat' (with_reducible first
    | assumption | apply kept_modStok | (apply kept_foldS; intro _ _ _) | (apply kept_foldP; intro _ _ _)
    | (apply kept_foldL; intro _ _ _) | simp only [kept_mk] | refine kept_fst (by assumption) ?_ | intro _
    | apply kept_ite | split)

theorem kept_clearTT {k s : State} (hk : Kept k s) (e : Nat) (c : Ctx) : Kept k (clearTT e c s) := by
  unfold clearTT
  try simp only []
  repeat' (with_reducible first
    | assumption | apply kept_emit | (apply kept_foldS; intro _ _ _) | (apply kept_foldP; intro _ _ _)
    | (apply kept_foldL; intro _ _ _) | simp only [kept_mk] | refine kept_fst (by assumption) ?_ | intro _
    | apply kept_ite | split)

theorem kept_boundError {k s : State} (hk : Kept k s) (e : Nat) (c : Ctx) (retries : Bool) : Kept k (boundError e c retries s) := by
  unfold boundError
  try simp only []
  repeat' (with_reducible first
    | assumption | apply kept_setCtx | apply kept_clearTT | (apply kept_foldS; intro _ _ _)
    | (apply kept_foldP; intro _ _ _) | (apply kept_foldL; intro _ _ _) | simp only [kept_mk]
    | refine kept_fst (by assumption) ?_ | intro _ | apply kept_ite | split)

theorem kept_hubChanges {k s : State} (hk : Kept k s) (p : Nat) (a : Nat) (bs : List Byte) : Kept k (hubChanges p a bs s) := by
  unfold hubChanges
  try simp only []
  repeat' (with_reducible first
    | assumption | apply kept_emit | (apply kept_foldS; intro _ _ _) | (apply kept_foldP; intro _ _ _)
    | (apply kept_foldL; intro _ _ _) | simp only [kept_mk] | refine kept_fst (by assumption) ?_ | intro _
    | apply kept_ite | split)

theorem kept_takeData {k s : State} (hk : Kept k s) (e : Nat) (c : Ctx) (bs : List Byte) : Kept k (takeData e c bs s) := by
  unfold takeData
  try simp only []
  repeat' (with_reducible first
    | assumption | apply kept_hubChanges | apply kept_deliver | (apply kept_foldS; intro _ _ _)
    | (apply kept_foldP; intro _ _ _) | (apply kept_foldL; intro _ _ _) | simp only [kept_mk]
    | refine kept_fst (by assumption) ?_ | intro _ | apply kept_ite | split)

theorem kept_boundResult {k s : State} (hk : Kept k s) (e : Nat) (c : Ctx) (r : Txn) (retries : Bool) : Kept k (boundResult e c r retries s) := by
  unfold boundResult
  try simp only []
  repeat' (with_reducible first
    | assumption | apply kept_boundError | apply kept_takeData | apply kept_setCtx
    | (apply kept_foldS; intro _ _ _) | (apply kept_foldP; intro _ _ _) | (apply kept_foldL; intro _ _ _)
    | simp only [kept_mk] | refine kept_fst (by assumption) ?_ | intro _ | apply kept_ite | split)

theorem kept_watchControl {k s : State} (hk : Kept k s) (x : Xfer) : Kept k (watchControl x s) := by
  unfold watchControl
  try simp only []
  repeat' (with_reducible first
    | assumption | apply kept_hostConfigured | apply kept_hostInterface | apply kept_modCtx
    | (apply kept_foldS; intro _ _ _) | (apply kept_foldP; intro _ _ _) | (apply kept_foldL; intro _ _ _)
    | simp only [kept_mk] | refine kept_fst (by assumption) ?_ | intro _ | apply kept_ite | split)

theorem kept_flushGot {k s : State} (hk : Kept k s) (x : Xfer) (last : Bool) : Kept k (flushGot x last s).1 := by
  unfold flushGot
  try simp only []
  repeat' (with_reducible first
    | assumption | apply kept_deliver | (apply kept_foldS; intro _ _ _) | (apply kept_foldP; intro _ _ _)
    | (apply kept_foldL; intro _ _ _) | simp only [kept_mk] | refine kept_fst (by assumption) ?_ | intro _
    | apply kept_ite | split)

theorem kept_endControl {k s : State} (hk : Kept k s) (x : Xfer) : Kept k (endControl x s) := by
  unfold endControl
  try simp only []
  repeat' (with_reducible first
    | assumption | apply kept_endXfer | apply kept_watchControl | (apply kept_foldS; intro _ _ _)
    | (apply kept_foldP; intro _ _ _) | (apply kept_foldL; intro _ _ _) | simp only [kept_mk]
    | refine kept_fst (by assumption) ?_ | intro _ | apply kept_ite | split)

theorem kept_okCtx {k s : State} (hk : Kept k s) (e : Nat) (toggle : Bool) (ping : Bool) : Kept k (okCtx e toggle ping s) := by
  unfold okCtx
  try simp only []
  repeat' (with_reducible first
    | assumption | apply kept_modCtx | (apply kept_foldS; intro _ _ _) | (apply kept_foldP; intro _ _ _)
    | (apply kept_foldL; intro _ _ _) | simp only [kept_mk] | refine kept_fst (by assumption) ?_ | intro _
    | apply kept_ite | split)

theorem kept_xferData {k s : State} (hk : Kept k s) (x : Xfer) (c : Ctx) (bs : List Byte) : Kept k (xferData x c bs s) := by
  unfold xferData
  try simp only []
  repeat' (with_reducible first
    | assumption | apply kept_okCtx | apply kept_flushGot | apply kept_setXfer | apply kept_deliver
    | apply kept_endXfer | (apply kept_foldS; intro _ _ _) | (apply kept_foldP; intro _ _ _)
    | (apply kept_foldL; intro _ _ _) | simp only [kept_mk] | refine kept_fst (by assumption) ?_ | intro _
    | apply kept_ite | split)

theorem kept_xferSent {k s : State} (hk : Kept k s) (x : Xfer) (c : Ctx) (ping : Bool) : Kept k (xferSent x c ping s) := by
  unfold xferSent
  try simp only []
  repeat' (with_reducible first
    | assumption | apply kept_setXfer | apply kept_okCtx | apply kept_endControl | apply kept_endXfer
    | (apply kept_foldS; intro _ _ _) | (apply kept_foldP; intro _ _ _) | (apply kept_foldL; intro _ _ _)
    | simp only [kept_mk] | refine kept_fst (by assumption) ?_ | intro _ | apply kept_ite | split)

theorem kept_xferError {k s : State} (hk : Kept k s) (x : Xfer) (c : Ctx) : Kept k (xferError x c s) := by
  unfold xferError
  try simp only []
  repeat' (with_reducible first
    | assumption | apply kept_modCtx | apply kept_setXfer | apply kept_endXfer | apply kept_clearTT
    | (apply kept_foldS; intro _ _ _) | (apply kept_foldP; intro _ _ _) | (apply kept_foldL; intro _ _ _)
    | simp only [kept_mk] | refine kept_fst (by assumption) ?_ | intro _ | apply kept_ite | split)

theorem kept_xferNak {k s : State} (hk : Kept k s) (x : Xfer) : Kept k (xferNak x s) := by
  unfold xferNak
  try simp only []
  repeat' (with_reducible first
    | assumption | apply kept_modCtx | apply kept_setXfer | apply kept_endXfer | (apply kept_foldS; intro _ _ _)
    | (apply kept_foldP; intro _ _ _) | (apply kept_foldL; intro _ _ _) | simp only [kept_mk]
    | refine kept_fst (by assumption) ?_ | intro _ | apply kept_ite | split)

theorem kept_xferResultOf {k s : State} (hk : Kept k s) (x : Xfer) (c : Ctx) (r : Txn) : Kept k (xferResultOf x c r s) := by
  unfold xferResultOf
  try simp only []
  repeat' (with_reducible first
    | assumption | apply kept_xferError | apply kept_endControl | apply kept_okCtx | apply kept_xferData
    | apply kept_setXfer | apply kept_modCtx | apply kept_xferSent | apply kept_xferNak | apply kept_endXfer
    | (apply kept_foldS; intro _ _ _) | (apply kept_foldP; intro _ _ _) | (apply kept_foldL; intro _ _ _)
    | simp only [kept_mk] | refine kept_fst (by assumption) ?_ | intro _ | apply kept_ite | split)

theorem kept_ctxResult {k s : State} (hk : Kept k s) (e : Nat) (r : Txn) (retries : Bool) : Kept k (ctxResult e r retries s) := by
  unfold ctxResult
  try simp only []
  repeat' (with_reducible first
    | assumption | apply kept_boundResult | apply kept_xferResultOf | (apply kept_foldS; intro _ _ _)
    | (apply kept_foldP; intro _ _ _) | (apply kept_foldL; intro _ _ _) | simp only [kept_mk]
    | refine kept_fst (by assumption) ?_ | intro _ | apply kept_ite | split)

theorem kept_startSplit {k s : State} (hk : Kept k s) (e : Nat) (r : Txn) : Kept k (startSplit e r s) := by
  unfold startSplit
  try simp only []
  repeat' (with_reducible first
    | assumption | apply kept_modCtx | apply kept_ctxResult | (apply kept_foldS; intro _ _ _)
    | (apply kept_foldP; intro _ _ _) | (apply kept_foldL; intro _ _ _) | simp only [kept_mk]
    | refine kept_fst (by assumption) ?_ | intro _ | apply kept_ite | split)

theorem kept_completeSplit {k s : State} (hk : Kept k s) (e : Nat) (off : Nat) (r : Txn) : Kept k (completeSplit e off r s) := by
  unfold completeSplit
  try simp only []
  repeat' (with_reducible first
    | assumption | apply kept_ctxResult | apply kept_setCtx | (apply kept_foldS; intro _ _ _)
    | (apply kept_foldP; intro _ _ _) | (apply kept_foldL; intro _ _ _) | simp only [kept_mk]
    | refine kept_fst (by assumption) ?_ | intro _ | apply kept_ite | split)

theorem kept_notRun {k s : State} (hk : Kept k s) (e : Nat) : Kept k (notRun e s) := by
  unfold notRun
  try simp only []
  repeat' (with_reducible first
    | assumption | apply kept_modCtx | (apply kept_foldS; intro _ _ _) | (apply kept_foldP; intro _ _ _)
    | (apply kept_foldL; intro _ _ _) | simp only [kept_mk] | refine kept_fst (by assumption) ?_ | intro _
    | apply kept_ite | split)

theorem kept_lateResult {k s : State} (hk : Kept k s) (e : Nat) (f : State → State) (hf : ∀ t : State, Kept k t → Kept k (f t)) : Kept k (lateResult e f s) := by
  unfold lateResult
  try simp only []
  repeat' (with_reducible first
    | assumption | apply kept_modTime | apply hf | apply kept_modStok | (apply kept_foldS; intro _ _ _)
    | (apply kept_foldP; intro _ _ _) | (apply kept_foldL; intro _ _ _) | simp only [kept_mk]
    | refine kept_fst (by assumption) ?_ | intro _ | apply kept_ite | split)

theorem kept_abortXfer {k s : State} (hk : Kept k s) (x : Xfer) : Kept k (abortXfer x s) := by
  unfold abortXfer
  try simp only []
  repeat' (with_reducible first
    | assumption | apply kept_endBare | apply kept_useFree | apply kept_abortOp | (apply kept_foldS; intro _ _ _)
    | (apply kept_foldP; intro _ _ _) | (apply kept_foldL; intro _ _ _) | simp only [kept_mk]
    | refine kept_fst (by assumption) ?_ | intro _ | apply kept_ite | split)

theorem kept_afterTxn {k s : State} (hk : Kept k s) (e : Nat) (f : State → State) (hf : ∀ t : State, Kept k t → Kept k (f t)) : Kept k (afterTxn e f s) := by
  unfold afterTxn
  try simp only []
  repeat' (with_reducible first
    | assumption | apply hf | apply kept_endBare | apply kept_onWire | apply kept_abortXfer
    | (apply kept_foldS; intro _ _ _) | (apply kept_foldP; intro _ _ _) | (apply kept_foldL; intro _ _ _)
    | simp only [kept_mk] | refine kept_fst (by assumption) ?_ | intro _ | apply kept_ite | split)

theorem kept_txnResult {k s : State} (hk : Kept k s) (r : TxnRes) : Kept k (txnResult r s) := by
  unfold txnResult
  try simp only []
  repeat' (with_reducible first
    | assumption | apply kept_afterTxn | apply kept_ctxResult | apply kept_startSplit | apply kept_lateResult
    | apply kept_completeSplit | apply kept_notRun | apply kept_enumResult | apply kept_verified
    | apply kept_portStatusRead | apply kept_devStatusRead | (apply kept_foldS; intro _ _ _)
    | (apply kept_foldP; intro _ _ _) | (apply kept_foldL; intro _ _ _) | simp only [kept_mk]
    | refine kept_fst (by assumption) ?_ | intro _ | apply kept_ite | split)

theorem kept_epListCmd  : SpecKept epListCmd := by
  intro k x s hk
  simp only [epListCmd]
  repeat' (with_reducible first
    | assumption | (apply kept_foldS; intro _ _ _) | (apply kept_foldP; intro _ _ _)
    | (apply kept_foldL; intro _ _ _) | simp only [kept_mk] | refine kept_fst (by assumption) ?_ | intro _
    | apply kept_ite | split)

theorem kept_epStateCmd  : SpecKept epStateCmd := by
  intro k x s hk
  simp only [epStateCmd]
  repeat' (with_reducible first
    | assumption | (apply kept_foldS; intro _ _ _) | (apply kept_foldP; intro _ _ _)
    | (apply kept_foldL; intro _ _ _) | simp only [kept_mk] | refine kept_fst (by assumption) ?_ | intro _
    | apply kept_ite | split)

theorem kept_runBind {k s : State} (hk : Kept k s) (cmd : Cmd) : Kept k (runBind cmd s).1 := by
  unfold runBind
  try simp only []
  repeat' (with_reducible first
    | assumption | apply kept_issueOrders | apply kept_quiet | apply kept_commitBind | apply kept_setCtx
    | (apply kept_foldS; intro _ _ _) | (apply kept_foldP; intro _ _ _) | (apply kept_foldL; intro _ _ _)
    | simp only [kept_mk] | refine kept_fst (by assumption) ?_ | intro _ | apply kept_ite | split)

theorem kept_epBindCmd  : SpecKept epBindCmd := by
  intro k x s hk
  simp only [epBindCmd]
  repeat' (with_reducible first
    | assumption | apply kept_runBind | (apply kept_foldS; intro _ _ _) | (apply kept_foldP; intro _ _ _)
    | (apply kept_foldL; intro _ _ _) | simp only [kept_mk] | refine kept_fst (by assumption) ?_ | intro _
    | apply kept_ite | split)

theorem kept_epUnbindCmd  : SpecKept epUnbindCmd := by
  intro k x s hk
  simp only [epUnbindCmd]
  repeat' (with_reducible first
    | assumption | apply kept_quiet | apply kept_unbind | apply kept_endXfers | (apply kept_foldS; intro _ _ _)
    | (apply kept_foldP; intro _ _ _) | (apply kept_foldL; intro _ _ _) | simp only [kept_mk]
    | refine kept_fst (by assumption) ?_ | intro _ | apply kept_ite | split)

theorem kept_startXfer {k s : State} (hk : Kept k s) (c : Cmd) (kind : XferKind) (setup : List Byte) (out : List Byte) (left : Nat) (queue : Nat) (flag : Bool) (nakMs : Nat) : Kept k (startXfer c kind setup out left queue flag nakMs s).1 := by
  unfold startXfer
  try simp only []
  repeat' (with_reducible first
    | assumption | (apply kept_foldS; intro _ _ _) | (apply kept_foldP; intro _ _ _)
    | (apply kept_foldL; intro _ _ _) | simp only [kept_mk] | refine kept_fst (by assumption) ?_ | intro _
    | apply kept_ite | split)

theorem kept_epControlCmd  : SpecKept epControlCmd := by
  intro k x s hk
  simp only [epControlCmd]
  repeat' (with_reducible first
    | assumption | apply kept_startXfer | (apply kept_foldS; intro _ _ _) | (apply kept_foldP; intro _ _ _)
    | (apply kept_foldL; intro _ _ _) | simp only [kept_mk] | refine kept_fst (by assumption) ?_ | intro _
    | apply kept_ite | split)

theorem kept_epWriteCmd  : SpecKept epWriteCmd := by
  intro k x s hk
  simp only [epWriteCmd]
  repeat' (with_reducible first
    | assumption | apply kept_startXfer | (apply kept_foldS; intro _ _ _) | (apply kept_foldP; intro _ _ _)
    | (apply kept_foldL; intro _ _ _) | simp only [kept_mk] | refine kept_fst (by assumption) ?_ | intro _
    | apply kept_ite | split)

theorem kept_epReadCmd  : SpecKept epReadCmd := by
  intro k x s hk
  simp only [epReadCmd]
  repeat' (with_reducible first
    | assumption | apply kept_startXfer | (apply kept_foldS; intro _ _ _) | (apply kept_foldP; intro _ _ _)
    | (apply kept_foldL; intro _ _ _) | simp only [kept_mk] | refine kept_fst (by assumption) ?_ | intro _
    | apply kept_ite | split)

theorem kept_endQueueUsers {k s : State} (hk : Kept k s) (q : Nat) : Kept k (endQueueUsers q s) := by
  unfold endQueueUsers
  try simp only []
  repeat' (with_reducible first
    | assumption | apply kept_endXfers | apply kept_quiet | apply kept_endWait | (apply kept_foldS; intro _ _ _)
    | (apply kept_foldP; intro _ _ _) | (apply kept_foldL; intro _ _ _) | simp only [kept_mk]
    | refine kept_fst (by assumption) ?_ | intro _ | apply kept_ite | split)

theorem kept_qConfigCmd  : SpecKept qConfigCmd := by
  intro k x s hk
  simp only [qConfigCmd]
  repeat' (with_reducible first
    | assumption | apply kept_setQueue | apply kept_endQueueUsers | apply kept_sendCredit
    | (apply kept_foldS; intro _ _ _) | (apply kept_foldP; intro _ _ _) | (apply kept_foldL; intro _ _ _)
    | simp only [kept_mk] | refine kept_fst (by assumption) ?_ | intro _ | apply kept_ite | split)

theorem kept_qStatusCmd  : SpecKept qStatusCmd := by
  intro k x s hk
  simp only [qStatusCmd]
  repeat' (with_reducible first
    | assumption | (apply kept_foldS; intro _ _ _) | (apply kept_foldP; intro _ _ _)
    | (apply kept_foldL; intro _ _ _) | simp only [kept_mk] | refine kept_fst (by assumption) ?_ | intro _
    | apply kept_ite | split)

theorem kept_qFlushCmd  : SpecKept qFlushCmd := by
  intro k x s hk
  simp only [qFlushCmd]
  repeat' (with_reducible first
    | assumption | apply kept_putQueue | (apply kept_foldS; intro _ _ _) | (apply kept_foldP; intro _ _ _)
    | (apply kept_foldL; intro _ _ _) | simp only [kept_mk] | refine kept_fst (by assumption) ?_ | intro _
    | apply kept_ite | split)

theorem kept_discardFlagged {k s : State} (hk : Kept k s) (q : Nat) : Kept k (discardFlagged q s) := by
  unfold discardFlagged
  try simp only []
  repeat' (with_reducible first
    | assumption | apply kept_putQueue | apply kept_setSqc | (apply kept_foldS; intro _ _ _)
    | (apply kept_foldP; intro _ _ _) | (apply kept_foldL; intro _ _ _) | simp only [kept_mk]
    | refine kept_fst (by assumption) ?_ | intro _ | apply kept_ite | split)

theorem kept_qReplayCmd  : SpecKept qReplayCmd := by
  intro k x s hk
  simp only [qReplayCmd]
  repeat' (with_reducible first
    | assumption | apply kept_discardFlagged | apply kept_replayCheck | apply kept_pump | apply kept_setQueue
    | (apply kept_foldS; intro _ _ _) | (apply kept_foldP; intro _ _ _) | (apply kept_foldL; intro _ _ _)
    | simp only [kept_mk] | refine kept_fst (by assumption) ?_ | intro _ | apply kept_ite | split)

theorem kept_placeHintCmd  : SpecKept placeHintCmd := by
  intro k x s hk
  simp only [placeHintCmd]
  repeat' (with_reducible first
    | assumption | apply kept_modStok | apply kept_followRoutes | apply kept_fetchCtx
    | (apply kept_foldS; intro _ _ _) | (apply kept_foldP; intro _ _ _) | (apply kept_foldL; intro _ _ _)
    | simp only [kept_mk] | refine kept_fst (by assumption) ?_ | intro _ | apply kept_ite | split)

theorem kept_stayPut {k s : State} (hk : Kept k s) (g : Nat) : Kept k (stayPut g s) := by
  unfold stayPut
  try simp only []
  repeat' (with_reducible first
    | assumption | apply kept_abandonMig | apply kept_modStok | (apply kept_foldS; intro _ _ _)
    | (apply kept_foldP; intro _ _ _) | (apply kept_foldL; intro _ _ _) | simp only [kept_mk]
    | refine kept_fst (by assumption) ?_ | intro _ | apply kept_ite | split)

theorem kept_placePinCmd  : SpecKept placePinCmd := by
  intro k x s hk
  simp only [placePinCmd]
  repeat' (with_reducible first
    | assumption | apply kept_stayPut | apply kept_modStok | apply kept_addPin | apply kept_order
    | (apply kept_foldS; intro _ _ _) | (apply kept_foldP; intro _ _ _) | (apply kept_foldL; intro _ _ _)
    | simp only [kept_mk] | refine kept_fst (by assumption) ?_ | intro _ | apply kept_ite | split)

theorem kept_placeReportCmd  : SpecKept placeReportCmd := by
  intro k x s hk
  simp only [placeReportCmd]
  repeat' (with_reducible first
    | assumption | apply kept_reply | (apply kept_foldS; intro _ _ _) | (apply kept_foldP; intro _ _ _)
    | (apply kept_foldL; intro _ _ _) | simp only [kept_mk] | refine kept_fst (by assumption) ?_ | intro _
    | apply kept_ite | split)

theorem kept_settlePins {k s : State} (hk : Kept k s) : Kept k (settlePins s) := by
  unfold settlePins
  try simp only []
  repeat' (with_reducible first
    | assumption | apply kept_addPin | apply kept_finishOp | (apply kept_foldS; intro _ _ _)
    | (apply kept_foldP; intro _ _ _) | (apply kept_foldL; intro _ _ _) | simp only [kept_mk]
    | refine kept_fst (by assumption) ?_ | intro _ | apply kept_ite | split)

theorem kept_settleMoves {k s : State} (hk : Kept k s) : Kept k (settleMoves s) := by
  unfold settleMoves
  try simp only []
  repeat' (with_reducible first
    | assumption | apply kept_settle | (apply kept_foldS; intro _ _ _) | (apply kept_foldP; intro _ _ _)
    | (apply kept_foldL; intro _ _ _) | simp only [kept_mk] | refine kept_fst (by assumption) ?_ | intro _
    | apply kept_ite | split)

theorem kept_planMove {k : State} {acc : State × Nat} (hk : Kept k acc.1) (limit : Nat) (prio : Nat) (m : Option (Nat × Nat)) : Kept k (planMove limit prio acc m).1 := by
  unfold planMove
  try simp only []
  repeat' (with_reducible first
    | assumption | apply kept_addOrder | apply kept_order | (apply kept_foldS; intro _ _ _)
    | (apply kept_foldP; intro _ _ _) | (apply kept_foldL; intro _ _ _) | simp only [kept_mk]
    | refine kept_fst (by assumption) ?_ | intro _ | apply kept_ite | split)

theorem kept_planPin {k : State} {acc : State × Nat} (hk : Kept k acc.1) (limit : Nat) (prio : Nat) (p : Pin) : Kept k (planPin limit prio acc p).1 := by
  unfold planPin
  try simp only []
  repeat' (with_reducible first
    | assumption | apply kept_planMove | (apply kept_foldS; intro _ _ _) | (apply kept_foldP; intro _ _ _)
    | (apply kept_foldL; intro _ _ _) | simp only [kept_mk] | refine kept_fst (by assumption) ?_ | intro _
    | apply kept_ite | split)

theorem kept_planSpare {k : State} {acc : State × Nat} (hk : Kept k acc.1) (limit : Nat) (prio : Nat) (g : Nat) : Kept k (planSpare limit prio acc g).1 := by
  unfold planSpare
  try simp only []
  repeat' (with_reducible first
    | assumption | apply kept_planMove | (apply kept_foldS; intro _ _ _) | (apply kept_foldP; intro _ _ _)
    | (apply kept_foldL; intro _ _ _) | simp only [kept_mk] | refine kept_fst (by assumption) ?_ | intro _
    | apply kept_ite | split)

theorem kept_planUndo {k : State} {acc : State × Nat} (hk : Kept k acc.1) (limit : Nat) (prio : Nat) (x : Nat × Nat) : Kept k (planUndo limit prio acc x).1 := by
  unfold planUndo
  try simp only []
  repeat' (with_reducible first
    | assumption | apply kept_planMove | (apply kept_foldS; intro _ _ _) | (apply kept_foldP; intro _ _ _)
    | (apply kept_foldL; intro _ _ _) | simp only [kept_mk] | refine kept_fst (by assumption) ?_ | intro _
    | apply kept_ite | split)

theorem kept_planAff {k : State} {acc : State × Nat} (hk : Kept k acc.1) (limit : Nat) (prio : Nat) (a : Aff) : Kept k (planAff limit prio acc a).1 := by
  unfold planAff
  try simp only []
  repeat' (with_reducible first
    | assumption | apply kept_planMove | (apply kept_foldS; intro _ _ _) | (apply kept_foldP; intro _ _ _)
    | (apply kept_foldL; intro _ _ _) | simp only [kept_mk] | refine kept_fst (by assumption) ?_ | intro _
    | apply kept_ite | split)

theorem kept_planOwed {k : State} {acc : State × Nat} (hk : Kept k acc.1) (limit : Nat) (m : Nat × Nat) : Kept k (planOwed limit acc m).1 := by
  unfold planOwed
  try simp only []
  repeat' (with_reducible first
    | assumption | apply kept_planMove | (apply kept_foldS; intro _ _ _) | (apply kept_foldP; intro _ _ _)
    | (apply kept_foldL; intro _ _ _) | simp only [kept_mk] | refine kept_fst (by assumption) ?_ | intro _
    | apply kept_ite | split)

theorem kept_planEvac {k : State} (limit : Nat) {acc : State × Nat} (hk : Kept k acc.1) : Kept k (planEvac limit acc).1 := by
  unfold planEvac
  try simp only []
  repeat' (with_reducible first
    | assumption | apply kept_evacOrders | (apply kept_foldS; intro _ _ _) | (apply kept_foldP; intro _ _ _)
    | (apply kept_foldL; intro _ _ _) | simp only [kept_mk] | refine kept_fst (by assumption) ?_ | intro _
    | apply kept_ite | split)

theorem kept_settleMoved {k s : State} (hk : Kept k s) : Kept k (settleMoved s) := by
  unfold settleMoved
  try simp only []
  repeat' (with_reducible first
    | assumption | apply kept_modStok | (apply kept_foldS; intro _ _ _) | (apply kept_foldP; intro _ _ _)
    | (apply kept_foldL; intro _ _ _) | simp only [kept_mk] | refine kept_fst (by assumption) ?_ | intro _
    | apply kept_ite | split)

theorem kept_planOwn {k : State} (limit : Nat) (prio : Nat) {acc : State × Nat} (hk : Kept k acc.1) : Kept k (planOwn limit prio acc).1 := by
  unfold planOwn
  try simp only []
  repeat' (with_reducible first
    | assumption | apply kept_planPin | apply kept_planSpare | apply kept_planUndo | apply kept_planAff
    | (apply kept_foldS; intro _ _ _) | (apply kept_foldP; intro _ _ _) | (apply kept_foldL; intro _ _ _)
    | simp only [kept_mk] | refine kept_fst (by assumption) ?_ | intro _ | apply kept_ite | split)

theorem kept_planWaiting {k : State} (limit : Nat) {acc : State × Nat} (hk : Kept k acc.1) : Kept k (planWaiting limit acc).1 := by
  unfold planWaiting
  try simp only []
  repeat' (with_reducible first
    | assumption | apply kept_planEvac | apply kept_planOwed | (apply kept_foldS; intro _ _ _)
    | (apply kept_foldP; intro _ _ _) | (apply kept_foldL; intro _ _ _) | simp only [kept_mk]
    | refine kept_fst (by assumption) ?_ | intro _ | apply kept_ite | split)

theorem kept_replan {k s : State} (hk : Kept k s) (why : Replan) : Kept k (replan why s) := by
  unfold replan
  try simp only []
  repeat' (with_reducible first
    | assumption | apply kept_planWaiting | apply kept_planOwn | apply kept_replaceUnplaced | apply kept_claimGroup
    | apply kept_settleMoved | apply kept_settleMoves | apply kept_settlePins | apply kept_retryWait
    | apply kept_planEvac | apply kept_planOwed | apply kept_planPin | apply kept_planSpare | apply kept_planUndo
    | apply kept_issueOrders | apply kept_planAff | (apply kept_foldS; intro _ _ _) | (apply kept_foldP; intro _ _ _)
    | (apply kept_foldL; intro _ _ _) | simp only [kept_mk] | refine kept_fst (by assumption) ?_ | intro _
    | apply kept_ite | split)

theorem kept_testRunCmd  : SpecKept testRunCmd := by
  intro k x s hk
  simp only [testRunCmd]
  repeat' (with_reducible first
    | assumption | apply kept_askTest | (apply kept_foldS; intro _ _ _) | (apply kept_foldP; intro _ _ _)
    | (apply kept_foldL; intro _ _ _) | simp only [kept_mk] | refine kept_fst (by assumption) ?_ | intro _
    | apply kept_ite | split)

theorem kept_calMark {k s : State} (hk : Kept k s) : Kept k (calMark s) := by
  unfold calMark
  try simp only []
  repeat' (with_reducible first
    | assumption | apply kept_modPort | (apply kept_foldS; intro _ _ _) | (apply kept_foldP; intro _ _ _)
    | (apply kept_foldL; intro _ _ _) | simp only [kept_mk] | refine kept_fst (by assumption) ?_ | intro _
    | apply kept_ite | split)

theorem kept_calAfter {k s : State} (hk : Kept k s) (c : Cal) : Kept k (calAfter c s) := by
  unfold calAfter
  try simp only []
  repeat' (with_reducible first
    | assumption | apply kept_calMark | (apply kept_foldS; intro _ _ _) | (apply kept_foldP; intro _ _ _)
    | (apply kept_foldL; intro _ _ _) | simp only [kept_mk] | refine kept_fst (by assumption) ?_ | intro _
    | apply kept_ite | split)

theorem kept_calNext {k s : State} (hk : Kept k s) : Kept k (calNext s) := by
  unfold calNext
  try simp only []
  repeat' (with_reducible first
    | assumption | apply kept_calMark | apply kept_finishOp | apply kept_calAfter | (apply kept_foldS; intro _ _ _)
    | (apply kept_foldP; intro _ _ _) | (apply kept_foldL; intro _ _ _) | simp only [kept_mk]
    | refine kept_fst (by assumption) ?_ | intro _ | apply kept_ite | split)

theorem kept_calStart {k s : State} (hk : Kept k s) (ps : List Nat) (who : Option (HostId × Half)) : Kept k (calStart ps who s) := by
  unfold calStart
  try simp only []
  repeat' (with_reducible first
    | assumption | apply kept_calMark | apply kept_modPort | (apply kept_foldS; intro _ _ _)
    | (apply kept_foldP; intro _ _ _) | (apply kept_foldL; intro _ _ _) | simp only [kept_mk]
    | refine kept_fst (by assumption) ?_ | intro _ | apply kept_ite | split)

theorem kept_rotateCal {k s : State} (hk : Kept k s) (p : Nat) : Kept k (rotateCal p s) := by
  unfold rotateCal
  try simp only []
  repeat' (with_reducible first
    | assumption | apply kept_calStart | (apply kept_foldS; intro _ _ _) | (apply kept_foldP; intro _ _ _)
    | (apply kept_foldL; intro _ _ _) | simp only [kept_mk] | refine kept_fst (by assumption) ?_ | intro _
    | apply kept_ite | split)

theorem kept_calRunCmd  : SpecKept calRunCmd := by
  intro k x s hk
  simp only [calRunCmd]
  repeat' (with_reducible first
    | assumption | apply kept_calStart | (apply kept_foldS; intro _ _ _) | (apply kept_foldP; intro _ _ _)
    | (apply kept_foldL; intro _ _ _) | simp only [kept_mk] | refine kept_fst (by assumption) ?_ | intro _
    | apply kept_ite | split)

theorem kept_testStatusCmd  : SpecKept testStatusCmd := by
  intro k x s hk
  simp only [testStatusCmd]
  repeat' (with_reducible first
    | assumption | (apply kept_foldS; intro _ _ _) | (apply kept_foldP; intro _ _ _)
    | (apply kept_foldL; intro _ _ _) | simp only [kept_mk] | refine kept_fst (by assumption) ?_ | intro _
    | apply kept_ite | split)

theorem kept_rotation {k s : State} (hk : Kept k s) (u : Option TUnit) (port : Nat) : Kept k (rotation u port s) := by
  unfold rotation
  try simp only []
  repeat' (with_reducible first
    | assumption | apply kept_modStok | apply kept_stokEvent | apply kept_askTest | apply kept_rotateCal
    | (apply kept_foldS; intro _ _ _) | (apply kept_foldP; intro _ _ _) | (apply kept_foldL; intro _ _ _)
    | simp only [kept_mk] | refine kept_fst (by assumption) ?_ | intro _ | apply kept_ite | split)

theorem kept_recalibrate {k s : State} (hk : Kept k s) : Kept k (recalibrate s) := by
  unfold recalibrate
  try simp only []
  repeat' (with_reducible first
    | assumption | apply kept_rotateCal | (apply kept_foldS; intro _ _ _) | (apply kept_foldP; intro _ _ _)
    | (apply kept_foldL; intro _ _ _) | simp only [kept_mk] | refine kept_fst (by assumption) ?_ | intro _
    | apply kept_ite | split)

theorem kept_evacRetry {k s : State} (hk : Kept k s) : Kept k (evacRetry s) := by
  unfold evacRetry
  try simp only []
  repeat' (with_reducible first
    | assumption | apply kept_startEvac | apply kept_nextTest | (apply kept_foldS; intro _ _ _)
    | (apply kept_foldP; intro _ _ _) | (apply kept_foldL; intro _ _ _) | simp only [kept_mk]
    | refine kept_fst (by assumption) ?_ | intro _ | apply kept_ite | split)

theorem kept_evacTimeout {k s : State} (hk : Kept k s) : Kept k (evacTimeout s) := by
  unfold evacTimeout
  try simp only []
  repeat' (with_reducible first
    | assumption | apply kept_finishOp | apply kept_stokEvent | apply kept_endTest
    | (apply kept_foldS; intro _ _ _) | (apply kept_foldP; intro _ _ _) | (apply kept_foldL; intro _ _ _)
    | simp only [kept_mk] | refine kept_fst (by assumption) ?_ | intro _ | apply kept_ite | split)

theorem kept_evacCopied {k s : State} (hk : Kept k s) : Kept k (evacCopied s) := by
  unfold evacCopied
  try simp only []
  repeat' (with_reducible first
    | assumption | apply kept_beginTest | apply kept_useFree | (apply kept_foldS; intro _ _ _)
    | (apply kept_foldP; intro _ _ _) | (apply kept_foldL; intro _ _ _) | simp only [kept_mk]
    | refine kept_fst (by assumption) ?_ | intro _ | apply kept_ite | split)

end Sys2Proof.Machine
end

