-- ==== Sys2Proof/Laws/KeptCan.lean ====
section
/-!
SUPPORT. `Kept` (Laws/Kept.lean) for CAN, plant time and CONFIG writes.
-/
set_option linter.all false
namespace Sys2Proof.Machine

theorem kept_canEvent {k s : State} (hk : Kept k s) (ch : Nat) (code : Nat) (a : Nat) (w : Nat) : Kept k (canEvent ch code a w s) := by
  unfold canEvent
  try simp only []
  repeat' (with_reducible first
    | assumption | apply kept_post | (apply kept_foldS; intro _ _ _) | (apply kept_foldP; intro _ _ _)
    | (apply kept_foldL; intro _ _ _) | simp only [kept_mk] | refine kept_fst (by assumption) ?_ | intro _
    | apply kept_ite | split)

theorem kept_canStateEvent {k s : State} (hk : Kept k s) (ch : Nat) : Kept k (canStateEvent ch s) := by
  unfold canStateEvent
  try simp only []
  repeat' (with_reducible first
    | assumption | apply kept_canEvent | (apply kept_foldS; intro _ _ _) | (apply kept_foldP; intro _ _ _)
    | (apply kept_foldL; intro _ _ _) | simp only [kept_mk] | refine kept_fst (by assumption) ?_ | intro _
    | apply kept_ite | split)

theorem kept_postObjects {k s : State} (hk : Kept k s) (ch : Nat) : Kept k (postObjects ch s) := by
  unfold postObjects
  try simp only []
  repeat' (with_reducible first
    | assumption | apply kept_post | apply kept_modCan | (apply kept_foldS; intro _ _ _)
    | (apply kept_foldP; intro _ _ _) | (apply kept_foldL; intro _ _ _) | simp only [kept_mk]
    | refine kept_fst (by assumption) ?_ | intro _ | apply kept_ite | split)

theorem kept_noteObject {k s : State} (hk : Kept k s) (ch : Nat) (k' : Nat) : Kept k (noteObject ch k' s) := by
  unfold noteObject
  try simp only []
  repeat' (with_reducible first
    | assumption | apply kept_modCan | apply kept_postObjects | (apply kept_foldS; intro _ _ _)
    | (apply kept_foldP; intro _ _ _) | (apply kept_foldL; intro _ _ _) | simp only [kept_mk]
    | refine kept_fst (by assumption) ?_ | intro _ | apply kept_ite | split)

theorem kept_objectsEnd {k s : State} (hk : Kept k s) (ch : Nat) : Kept k (objectsEnd ch s) := by
  unfold objectsEnd
  try simp only []
  repeat' (with_reducible first
    | assumption | apply kept_modCan | apply kept_postObjects | (apply kept_foldS; intro _ _ _)
    | (apply kept_foldP; intro _ _ _) | (apply kept_foldL; intro _ _ _) | simp only [kept_mk]
    | refine kept_fst (by assumption) ?_ | intro _ | apply kept_ite | split)

theorem kept_updateWarning {k s : State} (hk : Kept k s) (ch : Nat) : Kept k (updateWarning ch s) := by
  unfold updateWarning
  try simp only []
  repeat' (with_reducible first
    | assumption | apply kept_canEvent | apply kept_modCan | (apply kept_foldS; intro _ _ _)
    | (apply kept_foldP; intro _ _ _) | (apply kept_foldL; intro _ _ _) | simp only [kept_mk]
    | refine kept_fst (by assumption) ?_ | intro _ | apply kept_ite | split)

theorem kept_driveStb {k s : State} (hk : Kept k s) (ch : Nat) : Kept k (driveStb ch s) := by
  unfold driveStb
  try simp only []
  repeat' (with_reducible first
    | assumption | apply kept_emit | (apply kept_foldS; intro _ _ _) | (apply kept_foldP; intro _ _ _)
    | (apply kept_foldL; intro _ _ _) | simp only [kept_mk] | refine kept_fst (by assumption) ?_ | intro _
    | apply kept_ite | split)

theorem kept_offer {k s : State} (hk : Kept k s) (ch : Nat) : Kept k (offer ch s) := by
  unfold offer
  try simp only []
  repeat' (with_reducible first
    | assumption | apply kept_emit | (apply kept_foldS; intro _ _ _) | (apply kept_foldP; intro _ _ _)
    | (apply kept_foldL; intro _ _ _) | simp only [kept_mk] | refine kept_fst (by assumption) ?_ | intro _
    | apply kept_ite | split)

theorem kept_finishSend {k s : State} (hk : Kept k s) (h' : HostId) (tag : Half) (o : CanObj) : Kept k (finishSend h' tag o s) := by
  unfold finishSend
  try simp only []
  repeat' (with_reducible first
    | assumption | apply kept_abortOp | apply kept_finishOp | (apply kept_foldS; intro _ _ _)
    | (apply kept_foldP; intro _ _ _) | (apply kept_foldL; intro _ _ _) | simp only [kept_mk]
    | refine kept_fst (by assumption) ?_ | intro _ | apply kept_ite | split)

theorem kept_endSend {k s : State} (hk : Kept k s) (ch : Nat) (k' : Nat) (result : Nat) : Kept k (endSend ch k' result s) := by
  unfold endSend
  try simp only []
  repeat' (with_reducible first
    | assumption | apply kept_noteObject | apply kept_modObj | apply kept_finishSend
    | (apply kept_foldS; intro _ _ _) | (apply kept_foldP; intro _ _ _) | (apply kept_foldL; intro _ _ _)
    | simp only [kept_mk] | refine kept_fst (by assumption) ?_ | intro _ | apply kept_ite | split)

theorem kept_endSends {k s : State} (hk : Kept k s) (ch : Nat) (result : Nat) (f : CanObj → Bool) : Kept k (endSends ch result f s) := by
  unfold endSends
  try simp only []
  repeat' (with_reducible first
    | assumption | apply kept_endSend | (apply kept_foldS; intro _ _ _) | (apply kept_foldP; intro _ _ _)
    | (apply kept_foldL; intro _ _ _) | simp only [kept_mk] | refine kept_fst (by assumption) ?_ | intro _
    | apply kept_ite | split)

theorem kept_requestSend {k s : State} (hk : Kept k s) (ch : Nat) (k' : Nat) (op : Option (HostId × Half)) : Kept k (requestSend ch k' op s) := by
  unfold requestSend
  try simp only []
  repeat' (with_reducible first
    | assumption | apply kept_modObj | apply kept_endSend | apply kept_offer | (apply kept_foldS; intro _ _ _)
    | (apply kept_foldP; intro _ _ _) | (apply kept_foldL; intro _ _ _) | simp only [kept_mk]
    | refine kept_fst (by assumption) ?_ | intro _ | apply kept_ite | split)

theorem kept_requestAbort {k s : State} (hk : Kept k s) (ch : Nat) (k' : Nat) : Kept k (requestAbort ch k' s) := by
  unfold requestAbort
  try simp only []
  repeat' (with_reducible first
    | assumption | apply kept_endSend | apply kept_modObj | (apply kept_foldS; intro _ _ _)
    | (apply kept_foldP; intro _ _ _) | (apply kept_foldL; intro _ _ _) | simp only [kept_mk]
    | refine kept_fst (by assumption) ?_ | intro _ | apply kept_ite | split)

theorem kept_canOff {k s : State} (hk : Kept k s) (ch : Nat) : Kept k (canOff ch s) := by
  unfold canOff
  try simp only []
  repeat' (with_reducible first
    | assumption | apply kept_modCan | apply kept_clearFlt | apply kept_updateWarning
    | (apply kept_foldS; intro _ _ _) | (apply kept_foldP; intro _ _ _) | (apply kept_foldL; intro _ _ _)
    | simp only [kept_mk] | refine kept_fst (by assumption) ?_ | intro _ | apply kept_ite | split)

theorem kept_endFall {k s : State} (hk : Kept k s) (ch : Nat) : Kept k (endFall ch s) := by
  unfold endFall
  try simp only []
  repeat' (with_reducible first
    | assumption | apply kept_clearFlt | apply kept_modCan | (apply kept_foldS; intro _ _ _)
    | (apply kept_foldP; intro _ _ _) | (apply kept_foldL; intro _ _ _) | simp only [kept_mk]
    | refine kept_fst (by assumption) ?_ | intro _ | apply kept_ite | split)

theorem kept_canStop {k s : State} (hk : Kept k s) (ch : Nat) : Kept k (canStop ch s) := by
  unfold canStop
  try simp only []
  repeat' (with_reducible first
    | assumption | apply kept_endFall | apply kept_modCan | apply kept_canOff | apply kept_endSends
    | (apply kept_foldS; intro _ _ _) | (apply kept_foldP; intro _ _ _) | (apply kept_foldL; intro _ _ _)
    | simp only [kept_mk] | refine kept_fst (by assumption) ?_ | intro _ | apply kept_ite | split)

theorem kept_canStart {k s : State} (hk : Kept k s) (ch : Nat) : Kept k (canStart ch s) := by
  unfold canStart
  try simp only []
  repeat' (with_reducible first
    | assumption | apply kept_modCan | (apply kept_foldS; intro _ _ _) | (apply kept_foldP; intro _ _ _)
    | (apply kept_foldL; intro _ _ _) | simp only [kept_mk] | refine kept_fst (by assumption) ?_ | intro _
    | apply kept_ite | split)

theorem kept_protocolException {k s : State} (hk : Kept k s) (ch : Nat) : Kept k (protocolException ch s) := by
  unfold protocolException
  try simp only []
  repeat' (with_reducible first
    | assumption | apply kept_modCan | (apply kept_foldS; intro _ _ _) | (apply kept_foldP; intro _ _ _)
    | (apply kept_foldL; intro _ _ _) | simp only [kept_mk] | refine kept_fst (by assumption) ?_ | intro _
    | apply kept_ite | split)

theorem kept_busOffRecovers {k s : State} (hk : Kept k s) (ch : Nat) : Kept k (busOffRecovers ch s) := by
  unfold busOffRecovers
  try simp only []
  repeat' (with_reducible first
    | assumption | apply kept_offer | apply kept_updateWarning | apply kept_canStateEvent | apply kept_clearFlt
    | apply kept_modCan | (apply kept_foldS; intro _ _ _) | (apply kept_foldP; intro _ _ _)
    | (apply kept_foldL; intro _ _ _) | simp only [kept_mk] | refine kept_fst (by assumption) ?_ | intro _
    | apply kept_ite | split)

theorem kept_enterBusOff {k s : State} (hk : Kept k s) (ch : Nat) : Kept k (enterBusOff ch s) := by
  unfold enterBusOff
  try simp only []
  repeat' (with_reducible first
    | assumption | apply kept_raise | apply kept_modCan | apply kept_endSends | apply kept_canEvent
    | (apply kept_foldS; intro _ _ _) | (apply kept_foldP; intro _ _ _) | (apply kept_foldL; intro _ _ _)
    | simp only [kept_mk] | refine kept_fst (by assumption) ?_ | intro _ | apply kept_ite | split)

theorem kept_followCounters {k s : State} (hk : Kept k s) (ch : Nat) : Kept k (followCounters ch s) := by
  unfold followCounters
  try simp only []
  repeat' (with_reducible first
    | assumption | apply kept_updateWarning | apply kept_enterBusOff | apply kept_canStateEvent | apply kept_modCan
    | (apply kept_foldS; intro _ _ _) | (apply kept_foldP; intro _ _ _) | (apply kept_foldL; intro _ _ _)
    | simp only [kept_mk] | refine kept_fst (by assumption) ?_ | intro _ | apply kept_ite | split)

theorem kept_integrated {k s : State} (hk : Kept k s) (ch : Nat) : Kept k (integrated ch s) := by
  unfold integrated
  try simp only []
  repeat' (with_reducible first
    | assumption | apply kept_offer | apply kept_followCounters | apply kept_canStateEvent | apply kept_modCan
    | (apply kept_foldS; intro _ _ _) | (apply kept_foldP; intro _ _ _) | (apply kept_foldL; intro _ _ _)
    | simp only [kept_mk] | refine kept_fst (by assumption) ?_ | intro _ | apply kept_ite | split)

theorem kept_fallBack {k s : State} (hk : Kept k s) (ch : Nat) : Kept k (fallBack ch s) := by
  unfold fallBack
  try simp only []
  repeat' (with_reducible first
    | assumption | apply kept_modCan | apply kept_endSends | apply kept_raise | apply kept_canEvent
    | (apply kept_foldS; intro _ _ _) | (apply kept_foldP; intro _ _ _) | (apply kept_foldL; intro _ _ _)
    | simp only [kept_mk] | refine kept_fst (by assumption) ?_ | intro _ | apply kept_ite | split)

theorem kept_dataError {k s : State} (hk : Kept k s) (ch : Nat) : Kept k (dataError ch s) := by
  unfold dataError
  try simp only []
  repeat' (with_reducible first
    | assumption | apply kept_modCan | apply kept_fallBack | (apply kept_foldS; intro _ _ _)
    | (apply kept_foldP; intro _ _ _) | (apply kept_foldL; intro _ _ _) | simp only [kept_mk]
    | refine kept_fst (by assumption) ?_ | intro _ | apply kept_ite | split)

theorem kept_ackError {k s : State} (hk : Kept k s) (ch : Nat) (ident : Word) : Kept k (ackError ch ident s) := by
  unfold ackError
  try simp only []
  repeat' (with_reducible first
    | assumption | apply kept_modCan | apply kept_raise | apply kept_canEvent | (apply kept_foldS; intro _ _ _)
    | (apply kept_foldP; intro _ _ _) | (apply kept_foldL; intro _ _ _) | simp only [kept_mk]
    | refine kept_fst (by assumption) ?_ | intro _ | apply kept_ite | split)

theorem kept_acknowledged {k s : State} (hk : Kept k s) (ch : Nat) : Kept k (acknowledged ch s) := by
  unfold acknowledged
  try simp only []
  repeat' (with_reducible first
    | assumption | apply kept_modCan | apply kept_clearFlt | apply kept_canEvent | (apply kept_foldS; intro _ _ _)
    | (apply kept_foldP; intro _ _ _) | (apply kept_foldL; intro _ _ _) | simp only [kept_mk]
    | refine kept_fst (by assumption) ?_ | intro _ | apply kept_ite | split)

theorem kept_bitError {k s : State} (hk : Kept k s) (ch : Nat) (k' : Nat) : Kept k (bitError ch k' s) := by
  unfold bitError
  try simp only []
  repeat' (with_reducible first
    | assumption | apply kept_modCan | apply kept_raise | apply kept_canEvent | (apply kept_foldS; intro _ _ _)
    | (apply kept_foldP; intro _ _ _) | (apply kept_foldL; intro _ _ _) | simp only [kept_mk]
    | refine kept_fst (by assumption) ?_ | intro _ | apply kept_ite | split)

theorem kept_attempt {k s : State} (hk : Kept k s) (ch : Nat) (k' : Nat) (ago : Nat) : Kept k (attempt ch k' ago s) := by
  unfold attempt
  try simp only []
  repeat' (with_reducible first
    | assumption | apply kept_modObj | (apply kept_foldS; intro _ _ _) | (apply kept_foldP; intro _ _ _)
    | (apply kept_foldL; intro _ _ _) | simp only [kept_mk] | refine kept_fst (by assumption) ?_ | intro _
    | apply kept_ite | split)

theorem kept_sendAttemptFails {k s : State} (hk : Kept k s) (ch : Nat) (k' : Nat) (ago : Nat) (errored : Bool) : Kept k (sendAttemptFails ch k' ago errored s) := by
  unfold sendAttemptFails
  try simp only []
  repeat' (with_reducible first
    | assumption | apply kept_modObj | apply kept_attempt | apply kept_endSend | (apply kept_foldS; intro _ _ _)
    | (apply kept_foldP; intro _ _ _) | (apply kept_foldL; intro _ _ _) | simp only [kept_mk]
    | refine kept_fst (by assumption) ?_ | intro _ | apply kept_ite | split)

theorem kept_lostArb {k s : State} (hk : Kept k s) (ch : Nat) (ago : Nat) (lost : Option Nat) : Kept k (lostArb ch ago lost s) := by
  unfold lostArb
  try simp only []
  repeat' (with_reducible first
    | assumption | apply kept_sendAttemptFails | (apply kept_foldS; intro _ _ _) | (apply kept_foldP; intro _ _ _)
    | (apply kept_foldL; intro _ _ _) | simp only [kept_mk] | refine kept_fst (by assumption) ?_ | intro _
    | apply kept_ite | split)

theorem kept_tdcMeasure {k s : State} (hk : Kept k s) (ch : Nat) (d : Nat) : Kept k (tdcMeasure ch d s) := by
  unfold tdcMeasure
  try simp only []
  repeat' (with_reducible first
    | assumption | apply kept_bumpSeq | apply kept_modCan | apply kept_setSqc | apply kept_canEvent
    | (apply kept_foldS; intro _ _ _) | (apply kept_foldP; intro _ _ _) | (apply kept_foldL; intro _ _ _)
    | simp only [kept_mk] | refine kept_fst (by assumption) ?_ | intro _ | apply kept_ite | split)

theorem kept_tdcFrame {k s : State} (hk : Kept k s) (ch : Nat) (k' : Nat) (tdc : Option Nat) : Kept k (tdcFrame ch k' tdc s) := by
  unfold tdcFrame
  try simp only []
  repeat' (with_reducible first
    | assumption | apply kept_tdcMeasure | (apply kept_foldS; intro _ _ _) | (apply kept_foldP; intro _ _ _)
    | (apply kept_foldL; intro _ _ _) | simp only [kept_mk] | refine kept_fst (by assumption) ?_ | intro _
    | apply kept_ite | split)

theorem kept_canError {k s : State} (hk : Kept k s) (ch : Nat) (e : CanErr) : Kept k (canError ch e s) := by
  unfold canError
  try simp only []
  repeat' (with_reducible first
    | assumption | apply kept_lostArb | apply kept_sendAttemptFails | apply kept_tdcFrame | apply kept_modCan
    | apply kept_dataError | apply kept_ackError | apply kept_bitError | apply kept_erroredAttempt | apply kept_offer
    | apply kept_followCounters | (apply kept_foldS; intro _ _ _) | (apply kept_foldP; intro _ _ _)
    | (apply kept_foldL; intro _ _ _) | simp only [kept_mk] | refine kept_fst (by assumption) ?_ | intro _
    | apply kept_ite | split)

theorem kept_frameSent {k s : State} (hk : Kept k s) (ch : Nat) (fdBrs : Bool) : Kept k (frameSent ch fdBrs s) := by
  unfold frameSent
  try simp only []
  repeat' (with_reducible first
    | assumption | apply kept_acknowledged | apply kept_modCan | (apply kept_foldS; intro _ _ _)
    | (apply kept_foldP; intro _ _ _) | (apply kept_foldL; intro _ _ _) | simp only [kept_mk]
    | refine kept_fst (by assumption) ?_ | intro _ | apply kept_ite | split)

theorem kept_referenceSent {k s : State} (hk : Kept k s) (ch : Nat) : Kept k (referenceSent ch s) := by
  unfold referenceSent
  try simp only []
  repeat' (with_reducible first
    | assumption | apply kept_modCan | apply kept_offer | apply kept_followCounters | apply kept_frameSent
    | (apply kept_foldS; intro _ _ _) | (apply kept_foldP; intro _ _ _) | (apply kept_foldL; intro _ _ _)
    | simp only [kept_mk] | refine kept_fst (by assumption) ?_ | intro _ | apply kept_ite | split)

theorem kept_sendEnds {k s : State} (hk : Kept k s) (ch : Nat) (k' : Nat) (result : Nat) (ago : Nat) (tdc : Option Nat) : Kept k (sendEnds ch k' result ago tdc s) := by
  unfold sendEnds
  try simp only []
  repeat' (with_reducible first
    | assumption | apply kept_referenceSent | apply kept_attempt | apply kept_tdcFrame | apply kept_frameSent
    | apply kept_offer | apply kept_endSend | apply kept_followCounters | (apply kept_foldS; intro _ _ _)
    | (apply kept_foldP; intro _ _ _) | (apply kept_foldL; intro _ _ _) | simp only [kept_mk]
    | refine kept_fst (by assumption) ?_ | intro _ | apply kept_ite | split)

theorem kept_receiveOk {k s : State} (hk : Kept k s) (ch : Nat) (brs : Bool) : Kept k (receiveOk ch brs s) := by
  unfold receiveOk
  try simp only []
  repeat' (with_reducible first
    | assumption | apply kept_followCounters | apply kept_modCan | apply kept_useFree
    | (apply kept_foldS; intro _ _ _) | (apply kept_foldP; intro _ _ _) | (apply kept_foldL; intro _ _ _)
    | simp only [kept_mk] | refine kept_fst (by assumption) ?_ | intro _ | apply kept_ite | split)

theorem kept_storeFrame {k s : State} (hk : Kept k s) (ch : Nat) (f : CanFrame) : Kept k (storeFrame ch f s) := by
  unfold storeFrame
  try simp only []
  repeat' (with_reducible first
    | assumption | apply kept_modObj | apply kept_noteObject | apply kept_pushItem | (apply kept_foldS; intro _ _ _)
    | (apply kept_foldP; intro _ _ _) | (apply kept_foldL; intro _ _ _) | simp only [kept_mk]
    | refine kept_fst (by assumption) ?_ | intro _ | apply kept_ite | split)

theorem kept_canReceive {k s : State} (hk : Kept k s) (ch : Nat) (f : CanFrame) : Kept k (canReceive ch f s) := by
  unfold canReceive
  try simp only []
  repeat' (with_reducible first
    | assumption | apply kept_modCan | apply kept_storeFrame | apply kept_offer | apply kept_lostArb
    | apply kept_receiveOk | apply kept_modObj | apply kept_noteObject | apply kept_pushItem
    | (apply kept_foldS; intro _ _ _) | (apply kept_foldP; intro _ _ _) | (apply kept_foldL; intro _ _ _)
    | simp only [kept_mk] | refine kept_fst (by assumption) ?_ | intro _ | apply kept_ite | split)

theorem kept_unlock {k s : State} (hk : Kept k s) (ch : Nat) (k' : Nat) : Kept k (unlock ch k' s) := by
  unfold unlock
  try simp only []
  repeat' (with_reducible first
    | assumption | apply kept_noteObject | apply kept_modObj | (apply kept_foldS; intro _ _ _)
    | (apply kept_foldP; intro _ _ _) | (apply kept_foldL; intro _ _ _) | simp only [kept_mk]
    | refine kept_fst (by assumption) ?_ | intro _ | apply kept_ite | split)

theorem kept_lockExpires {k s : State} (hk : Kept k s) (ch : Nat) (k' : Nat) : Kept k (lockExpires ch k' s) := by
  unfold lockExpires
  try simp only []
  repeat' (with_reducible first
    | assumption | apply kept_unlock | apply kept_modObj | (apply kept_foldS; intro _ _ _)
    | (apply kept_foldP; intro _ _ _) | (apply kept_foldL; intro _ _ _) | simp only [kept_mk]
    | refine kept_fst (by assumption) ?_ | intro _ | apply kept_ite | split)

theorem kept_readControl {k s : State} (hk : Kept k s) (h' : HostId) (ch : Nat) (k' : Nat) : Kept k (readControl h' ch k' s) := by
  unfold readControl
  try simp only []
  repeat' (with_reducible first
    | assumption | apply kept_emit | apply kept_modObj | (apply kept_foldS; intro _ _ _)
    | (apply kept_foldP; intro _ _ _) | (apply kept_foldL; intro _ _ _) | simp only [kept_mk]
    | refine kept_fst (by assumption) ?_ | intro _ | apply kept_ite | split)

theorem kept_readRelease {k s : State} (hk : Kept k s) (h' : HostId) (ch : Nat) (k' : Nat) : Kept k (readRelease h' ch k' s) := by
  unfold readRelease
  try simp only []
  repeat' (with_reducible first
    | assumption | apply kept_emit | apply kept_unlock | apply kept_modObj | (apply kept_foldS; intro _ _ _)
    | (apply kept_foldP; intro _ _ _) | (apply kept_foldL; intro _ _ _) | simp only [kept_mk]
    | refine kept_fst (by assumption) ?_ | intro _ | apply kept_ite | split)

theorem kept_writeSend {k s : State} (hk : Kept k s) (h' : HostId) (ch : Nat) (k' : Nat) : Kept k (writeSend h' ch k' s) := by
  unfold writeSend
  try simp only []
  repeat' (with_reducible first
    | assumption | apply kept_requestSend | (apply kept_foldS; intro _ _ _) | (apply kept_foldP; intro _ _ _)
    | (apply kept_foldL; intro _ _ _) | simp only [kept_mk] | refine kept_fst (by assumption) ?_ | intro _
    | apply kept_ite | split)

theorem kept_writeAbort {k s : State} (hk : Kept k s) (h' : HostId) (ch : Nat) (k' : Nat) : Kept k (writeAbort h' ch k' s) := by
  unfold writeAbort
  try simp only []
  repeat' (with_reducible first
    | assumption | apply kept_requestAbort | (apply kept_foldS; intro _ _ _) | (apply kept_foldP; intro _ _ _)
    | (apply kept_foldL; intro _ _ _) | simp only [kept_mk] | refine kept_fst (by assumption) ?_ | intro _
    | apply kept_ite | split)

theorem kept_abortAll {k s : State} (hk : Kept k s) (h' : HostId) (ch : Nat) (v : Word) : Kept k (abortAll h' ch v s) := by
  unfold abortAll
  try simp only []
  repeat' (with_reducible first
    | assumption | apply kept_requestAbort | (apply kept_foldS; intro _ _ _) | (apply kept_foldP; intro _ _ _)
    | (apply kept_foldL; intro _ _ _) | simp only [kept_mk] | refine kept_fst (by assumption) ?_ | intro _
    | apply kept_ite | split)

theorem kept_writeObject {k s : State} (hk : Kept k s) (h' : HostId) (ch : Nat) (k' : Nat) (w : Nat) (v : Word) : Kept k (writeObject h' ch k' w v s) := by
  unfold writeObject
  try simp only []
  repeat' (with_reducible first
    | assumption | apply kept_writeSend | apply kept_writeAbort | apply kept_modObj
    | (apply kept_foldS; intro _ _ _) | (apply kept_foldP; intro _ _ _) | (apply kept_foldL; intro _ _ _)
    | simp only [kept_mk] | refine kept_fst (by assumption) ?_ | intro _ | apply kept_ite | split)

theorem kept_cycleStart {k s : State} (hk : Kept k s) (ch : Nat) : Kept k (cycleStart ch s) := by
  unfold cycleStart
  try simp only []
  repeat' (with_reducible first
    | assumption | apply kept_offer | apply kept_emit | apply kept_canEvent | apply kept_modCan
    | (apply kept_foldS; intro _ _ _) | (apply kept_foldP; intro _ _ _) | (apply kept_foldL; intro _ _ _)
    | simp only [kept_mk] | refine kept_fst (by assumption) ?_ | intro _ | apply kept_ite | split)

theorem kept_referenceSeen {k s : State} (hk : Kept k s) (ch : Nat) (ide : Bool) (id : BitVec 29) : Kept k (referenceSeen ch ide id s) := by
  unfold referenceSeen
  try simp only []
  repeat' (with_reducible first
    | assumption | apply kept_modCan | apply kept_canEvent | (apply kept_foldS; intro _ _ _)
    | (apply kept_foldP; intro _ _ _) | (apply kept_foldL; intro _ _ _) | simp only [kept_mk]
    | refine kept_fst (by assumption) ?_ | intro _ | apply kept_ite | split)

theorem kept_canConfigCmd  : SpecKept canConfigCmd := by
  intro k x s hk
  simp only [canConfigCmd]
  repeat' (with_reducible first
    | assumption | apply kept_endFall | apply kept_setCan | apply kept_canStop | apply kept_canOff
    | apply kept_canStart | apply kept_driveStb | apply kept_updateWarning | (apply kept_foldS; intro _ _ _)
    | (apply kept_foldP; intro _ _ _) | (apply kept_foldL; intro _ _ _) | simp only [kept_mk]
    | refine kept_fst (by assumption) ?_ | intro _ | apply kept_ite | split)

theorem kept_canObjConfigCmd  : SpecKept canObjConfigCmd := by
  intro k x s hk
  simp only [canObjConfigCmd]
  repeat' (with_reducible first
    | assumption | apply kept_modObj | (apply kept_foldS; intro _ _ _) | (apply kept_foldP; intro _ _ _)
    | (apply kept_foldL; intro _ _ _) | simp only [kept_mk] | refine kept_fst (by assumption) ?_ | intro _
    | apply kept_ite | split)

theorem kept_canFilterSetCmd  : SpecKept canFilterSetCmd := by
  intro k x s hk
  simp only [canFilterSetCmd]
  repeat' (with_reducible first
    | assumption | apply kept_modCan | (apply kept_foldS; intro _ _ _) | (apply kept_foldP; intro _ _ _)
    | (apply kept_foldL; intro _ _ _) | simp only [kept_mk] | refine kept_fst (by assumption) ?_ | intro _
    | apply kept_ite | split)

theorem kept_canSendCmd  : SpecKept canSendCmd := by
  intro k x s hk
  simp only [canSendCmd]
  repeat' (with_reducible first
    | assumption | apply kept_modObj | apply kept_endSend | apply kept_requestSend
    | (apply kept_foldS; intro _ _ _) | (apply kept_foldP; intro _ _ _) | (apply kept_foldL; intro _ _ _)
    | simp only [kept_mk] | refine kept_fst (by assumption) ?_ | intro _ | apply kept_ite | split)

theorem kept_canStatusCmd  : SpecKept canStatusCmd := by
  intro k x s hk
  simp only [canStatusCmd]
  repeat' (with_reducible first
    | assumption | (apply kept_foldS; intro _ _ _) | (apply kept_foldP; intro _ _ _)
    | (apply kept_foldL; intro _ _ _) | simp only [kept_mk] | refine kept_fst (by assumption) ?_ | intro _
    | apply kept_ite | split)

theorem kept_canTimeMasterCmd  : SpecKept canTimeMasterCmd := by
  intro k x s hk
  simp only [canTimeMasterCmd]
  repeat' (with_reducible first
    | assumption | apply kept_modCan | (apply kept_foldS; intro _ _ _) | (apply kept_foldP; intro _ _ _)
    | (apply kept_foldL; intro _ _ _) | simp only [kept_mk] | refine kept_fst (by assumption) ?_ | intro _
    | apply kept_ite | split)

theorem kept_canReset {k s : State} (hk : Kept k s) (ch : Nat) : Kept k (canReset ch s) := by
  unfold canReset
  try simp only []
  repeat' (with_reducible first
    | assumption | apply kept_clearFlt | apply kept_driveStb | apply kept_modCan | apply kept_canOff
    | (apply kept_foldS; intro _ _ _) | (apply kept_foldP; intro _ _ _) | (apply kept_foldL; intro _ _ _)
    | simp only [kept_mk] | refine kept_fst (by assumption) ?_ | intro _ | apply kept_ite | split)

theorem kept_timeEvent {k s : State} (hk : Kept k s) (code : Nat) (a : Nat) (b : Nat) (w : Nat) : Kept k (timeEvent code a b w s) := by
  unfold timeEvent
  try simp only []
  repeat' (with_reducible first
    | assumption | apply kept_post | (apply kept_foldS; intro _ _ _) | (apply kept_foldP; intro _ _ _)
    | (apply kept_foldL; intro _ _ _) | simp only [kept_mk] | refine kept_fst (by assumption) ?_ | intro _
    | apply kept_ite | split)

theorem kept_saveF {k s : State} (hk : Kept k s) : Kept k (saveF s) := by
  unfold saveF
  try simp only []
  repeat' (with_reducible first
    | assumption | apply kept_modLich | (apply kept_foldS; intro _ _ _) | (apply kept_foldP; intro _ _ _)
    | (apply kept_foldL; intro _ _ _) | simp only [kept_mk] | refine kept_fst (by assumption) ?_ | intro _
    | apply kept_ite | split)

theorem kept_endPpsFaults {k s : State} (hk : Kept k s) : Kept k (endPpsFaults s) := by
  unfold endPpsFaults
  try simp only []
  repeat' (with_reducible first
    | assumption | apply kept_clearFlt | (apply kept_foldS; intro _ _ _) | (apply kept_foldP; intro _ _ _)
    | (apply kept_foldL; intro _ _ _) | simp only [kept_mk] | refine kept_fst (by assumption) ?_ | intro _
    | apply kept_ite | split)

theorem kept_toPps {k s : State} (hk : Kept k s) (p : Pps) : Kept k (toPps p s) := by
  unfold toPps
  try simp only []
  repeat' (with_reducible first
    | assumption | apply kept_modTime | apply kept_timeEvent | apply kept_setSqc | apply kept_saveF
    | apply kept_endPpsFaults | (apply kept_foldS; intro _ _ _) | (apply kept_foldP; intro _ _ _)
    | (apply kept_foldL; intro _ _ _) | simp only [kept_mk] | refine kept_fst (by assumption) ?_ | intro _
    | apply kept_ite | split)

theorem kept_stepTime {k s : State} (hk : Kept k s) (d : Int) (who : Nat) : Kept k (stepTime d who s) := by
  unfold stepTime
  try simp only []
  repeat' (with_reducible first
    | assumption | apply kept_timeEvent | apply kept_modTime | (apply kept_foldS; intro _ _ _)
    | (apply kept_foldP; intro _ _ _) | (apply kept_foldL; intro _ _ _) | simp only [kept_mk]
    | refine kept_fst (by assumption) ?_ | intro _ | apply kept_ite | split)

theorem kept_validEdge {k s : State} (hk : Kept k s) (c : Int) : Kept k (validEdge c s) := by
  unfold validEdge
  try simp only []
  repeat' (with_reducible first
    | assumption | apply kept_setSqc | apply kept_modTime | apply kept_stepTime | apply kept_toPps
    | (apply kept_foldS; intro _ _ _) | (apply kept_foldP; intro _ _ _) | (apply kept_foldL; intro _ _ _)
    | simp only [kept_mk] | refine kept_fst (by assumption) ?_ | intro _ | apply kept_ite | split)

theorem kept_postGlitch {k s : State} (hk : Kept k s) : Kept k (postGlitch s) := by
  unfold postGlitch
  try simp only []
  repeat' (with_reducible first
    | assumption | apply kept_modTime | apply kept_timeEvent | (apply kept_foldS; intro _ _ _)
    | (apply kept_foldP; intro _ _ _) | (apply kept_foldL; intro _ _ _) | simp only [kept_mk]
    | refine kept_fst (by assumption) ?_ | intro _ | apply kept_ite | split)

theorem kept_edge {k s : State} (hk : Kept k s) (capture : DWord) : Kept k (edge capture s) := by
  unfold edge
  try simp only []
  repeat' (with_reducible first
    | assumption | apply kept_passTo | apply kept_validEdge | apply kept_setSqc | apply kept_modTime
    | apply kept_postGlitch | (apply kept_foldS; intro _ _ _) | (apply kept_foldP; intro _ _ _)
    | (apply kept_foldL; intro _ _ _) | simp only [kept_mk] | refine kept_fst (by assumption) ?_ | intro _
    | apply kept_ite | split)

theorem kept_ppsMissed {k s : State} (hk : Kept k s) : Kept k (ppsMissed s) := by
  unfold ppsMissed
  try simp only []
  repeat' (with_reducible first
    | assumption | apply kept_modTime | apply kept_toPps | apply kept_raise | (apply kept_foldS; intro _ _ _)
    | (apply kept_foldP; intro _ _ _) | (apply kept_foldL; intro _ _ _) | simp only [kept_mk]
    | refine kept_fst (by assumption) ?_ | intro _ | apply kept_ite | split)

theorem kept_holdoverEnds {k s : State} (hk : Kept k s) : Kept k (holdoverEnds s) := by
  unfold holdoverEnds
  try simp only []
  repeat' (with_reducible first
    | assumption | apply kept_toPps | apply kept_raise | apply kept_modTime | (apply kept_foldS; intro _ _ _)
    | (apply kept_foldP; intro _ _ _) | (apply kept_foldL; intro _ _ _) | simp only [kept_mk]
    | refine kept_fst (by assumption) ?_ | intro _ | apply kept_ite | split)

theorem kept_refSwitch {k s : State} (hk : Kept k s) : Kept k (refSwitch s) := by
  unfold refSwitch
  try simp only []
  repeat' (with_reducible first
    | assumption | apply kept_modTime | apply kept_raise | apply kept_timeEvent | apply kept_toPps
    | (apply kept_foldS; intro _ _ _) | (apply kept_foldP; intro _ _ _) | (apply kept_foldL; intro _ _ _)
    | simp only [kept_mk] | refine kept_fst (by assumption) ?_ | intro _ | apply kept_ite | split)

theorem kept_ppsOut {k s : State} (hk : Kept k s) (at_ : Nat) : Kept k (ppsOut at_ s) := by
  unfold ppsOut
  try simp only []
  repeat' (with_reducible first
    | assumption | apply kept_emit | apply kept_modTime | (apply kept_foldS; intro _ _ _)
    | (apply kept_foldP; intro _ _ _) | (apply kept_foldL; intro _ _ _) | simp only [kept_mk]
    | refine kept_fst (by assumption) ?_ | intro _ | apply kept_ite | split)

theorem kept_timeFrames {k s : State} (hk : Kept k s) (second : Nat) : Kept k (timeFrames second s) := by
  unfold timeFrames
  try simp only []
  repeat' (with_reducible first
    | assumption | apply kept_sendPlain | (apply kept_foldS; intro _ _ _) | (apply kept_foldP; intro _ _ _)
    | (apply kept_foldL; intro _ _ _) | simp only [kept_mk] | refine kept_fst (by assumption) ?_ | intro _
    | apply kept_ite | split)

theorem kept_sbuFrames {k s : State} (hk : Kept k s) (second : Nat) : Kept k (sbuFrames second s) := by
  unfold sbuFrames
  try simp only []
  repeat' (with_reducible first
    | assumption | apply kept_emit | (apply kept_foldS; intro _ _ _) | (apply kept_foldP; intro _ _ _)
    | (apply kept_foldL; intro _ _ _) | simp only [kept_mk] | refine kept_fst (by assumption) ?_ | intro _
    | apply kept_ite | split)

theorem kept_crossSecond {k s : State} (hk : Kept k s) (n : Nat) : Kept k (crossSecond n s) := by
  unfold crossSecond
  try simp only []
  repeat' (with_reducible first
    | assumption | apply kept_modTime | apply kept_modLich | apply kept_sbuFrames | apply kept_timeFrames
    | apply kept_ppsOut | (apply kept_foldS; intro _ _ _) | (apply kept_foldP; intro _ _ _)
    | (apply kept_foldL; intro _ _ _) | simp only [kept_mk] | refine kept_fst (by assumption) ?_ | intro _
    | apply kept_ite | split)

theorem kept_secondCrossing {k s : State} (hk : Kept k s) : Kept k (secondCrossing s) := by
  unfold secondCrossing
  try simp only []
  repeat' (with_reducible first
    | assumption | apply kept_passTo | apply kept_modLich | apply kept_sbuFrames | apply kept_timeFrames
    | apply kept_ppsOut | (apply kept_foldS; intro _ _ _) | (apply kept_foldP; intro _ _ _)
    | (apply kept_foldL; intro _ _ _) | simp only [kept_mk] | refine kept_fst (by assumption) ?_ | intro _
    | apply kept_ite | split)

theorem kept_timeStart {k s : State} (hk : Kept k s) (alt : Bool) : Kept k (timeStart alt s) := by
  unfold timeStart
  try simp only []
  repeat' (with_reducible first
    | assumption | apply kept_modTime | (apply kept_foldS; intro _ _ _) | (apply kept_foldP; intro _ _ _)
    | (apply kept_foldL; intro _ _ _) | simp only [kept_mk] | refine kept_fst (by assumption) ?_ | intro _
    | apply kept_ite | split)

theorem kept_gridStart {k s : State} (hk : Kept k s) : Kept k (gridStart s) := by
  unfold gridStart
  try simp only []
  repeat' (with_reducible first
    | assumption | apply kept_modTime | apply kept_timeEvent | (apply kept_foldS; intro _ _ _)
    | (apply kept_foldP; intro _ _ _) | (apply kept_foldL; intro _ _ _) | simp only [kept_mk]
    | refine kept_fst (by assumption) ?_ | intro _ | apply kept_ite | split)

theorem kept_timeSetCmd  : SpecKept timeSetCmd := by
  intro k x s hk
  simp only [timeSetCmd]
  repeat' (with_reducible first
    | assumption | apply kept_modTime | apply kept_stepTime | apply kept_setSqc | (apply kept_foldS; intro _ _ _)
    | (apply kept_foldP; intro _ _ _) | (apply kept_foldL; intro _ _ _) | simp only [kept_mk]
    | refine kept_fst (by assumption) ?_ | intro _ | apply kept_ite | split)

theorem kept_timeGetCmd  : SpecKept timeGetCmd := by
  intro k x s hk
  simp only [timeGetCmd]
  repeat' (with_reducible first
    | assumption | (apply kept_foldS; intro _ _ _) | (apply kept_foldP; intro _ _ _)
    | (apply kept_foldL; intro _ _ _) | simp only [kept_mk] | refine kept_fst (by assumption) ?_ | intro _
    | apply kept_ite | split)

theorem kept_timeStatusCmd  : SpecKept timeStatusCmd := by
  intro k x s hk
  simp only [timeStatusCmd]
  repeat' (with_reducible first
    | assumption | (apply kept_foldS; intro _ _ _) | (apply kept_foldP; intro _ _ _)
    | (apply kept_foldL; intro _ _ _) | simp only [kept_mk] | refine kept_fst (by assumption) ?_ | intro _
    | apply kept_ite | split)

theorem kept_rejectCfg {k s : State} (hk : Kept k s) (a : Nat) : Kept k (rejectCfg a s) := by
  unfold rejectCfg
  try simp only []
  repeat' (with_reducible first
    | assumption | apply kept_setSqc | (apply kept_foldS; intro _ _ _) | (apply kept_foldP; intro _ _ _)
    | (apply kept_foldL; intro _ _ _) | simp only [kept_mk] | refine kept_fst (by assumption) ?_ | intro _
    | apply kept_ite | split)

theorem kept_saveEvt {k s : State} (hk : Kept k s) (a : Nat) (v : Word) : Kept k (saveEvt a v s) := by
  unfold saveEvt
  try simp only []
  repeat' (with_reducible first
    | assumption | apply kept_modLich | (apply kept_foldS; intro _ _ _) | (apply kept_foldP; intro _ _ _)
    | (apply kept_foldL; intro _ _ _) | simp only [kept_mk] | refine kept_fst (by assumption) ?_ | intro _
    | apply kept_ite | split)

theorem kept_writeCfg {k s : State} (hk : Kept k s) (h' : HostId) (a : Nat) (v : Word) : Kept k (writeCfg h' a v s) := by
  unfold writeCfg
  try simp only []
  repeat' (with_reducible first
    | assumption | apply kept_rejectCfg | apply kept_saveEvt | apply kept_setCfg | (apply kept_foldS; intro _ _ _)
    | (apply kept_foldP; intro _ _ _) | (apply kept_foldL; intro _ _ _) | simp only [kept_mk]
    | refine kept_fst (by assumption) ?_ | intro _ | apply kept_ite | split)

theorem kept_holdOrWrite {k s : State} (hk : Kept k s) (h' : HostId) (a : Nat) (v : Word) : Kept k (holdOrWrite h' a v s) := by
  unfold holdOrWrite
  try simp only []
  repeat' (with_reducible first
    | assumption | apply kept_writeCfg | (apply kept_foldS; intro _ _ _) | (apply kept_foldP; intro _ _ _)
    | (apply kept_foldL; intro _ _ _) | simp only [kept_mk] | refine kept_fst (by assumption) ?_ | intro _
    | apply kept_ite | split)

theorem kept_applyHeld {k s : State} (hk : Kept k s) : Kept k (applyHeld s) := by
  unfold applyHeld
  try simp only []
  repeat' (with_reducible first
    | assumption | apply kept_holdOrWrite | (apply kept_foldS; intro _ _ _) | (apply kept_foldP; intro _ _ _)
    | (apply kept_foldL; intro _ _ _) | simp only [kept_mk] | refine kept_fst (by assumption) ?_ | intro _
    | apply kept_ite | split)

theorem kept_queueLich {k s : State} (hk : Kept k s) (k' : Nat) (v : Word) : Kept k (queueLich k' v s) := by
  unfold queueLich
  try simp only []
  repeat' (with_reducible first
    | assumption | apply kept_setSqc | apply kept_modLich | (apply kept_foldS; intro _ _ _)
    | (apply kept_foldP; intro _ _ _) | (apply kept_foldL; intro _ _ _) | simp only [kept_mk]
    | refine kept_fst (by assumption) ?_ | intro _ | apply kept_ite | split)

theorem kept_lichApplied {k s : State} (hk : Kept k s) : Kept k (lichApplied s) := by
  unfold lichApplied
  try simp only []
  repeat' (with_reducible first
    | assumption | apply kept_modLich | (apply kept_foldS; intro _ _ _) | (apply kept_foldP; intro _ _ _)
    | (apply kept_foldL; intro _ _ _) | simp only [kept_mk] | refine kept_fst (by assumption) ?_ | intro _
    | apply kept_ite | split)

theorem kept_setRaw {k s : State} (hk : Kept k s) (a : Nat) (v : Word) : Kept k (setRaw a v s) := by
  unfold setRaw
  try simp only []
  repeat' (with_reducible first
    | assumption | apply kept_modLich | (apply kept_foldS; intro _ _ _) | (apply kept_foldP; intro _ _ _)
    | (apply kept_foldL; intro _ _ _) | simp only [kept_mk] | refine kept_fst (by assumption) ?_ | intro _
    | apply kept_ite | split)

theorem kept_repairLocks {k s : State} (hk : Kept k s) : Kept k (repairLocks s) := by
  unfold repairLocks
  try simp only []
  repeat' (with_reducible first
    | assumption | (apply kept_foldS; intro _ _ _) | (apply kept_foldP; intro _ _ _)
    | (apply kept_foldL; intro _ _ _) | simp only [kept_mk] | refine kept_fst (by assumption) ?_ | intro _
    | apply kept_ite | split)

theorem kept_parityCheck {k s : State} (hk : Kept k s) (upset : Option (Nat × Word)) : Kept k (parityCheck upset s) := by
  unfold parityCheck
  try simp only []
  repeat' (with_reducible first
    | assumption | apply kept_repairLocks | apply kept_raiseAt | apply kept_setRaw
    | (apply kept_foldS; intro _ _ _) | (apply kept_foldP; intro _ _ _) | (apply kept_foldL; intro _ _ _)
    | simp only [kept_mk] | refine kept_fst (by assumption) ?_ | intro _ | apply kept_ite | split)

end Sys2Proof.Machine
end

