-- ==== Sys2Proof/Laws/KeptIslands.lean ====
section
/-!
SUPPORT. `Kept` (Laws/Kept.lean) for islands, power states, start, firmware and security.
-/
set_option linter.all false
namespace Sys2Proof.Machine

theorem kept_followTrim {k s : State} (hk : Kept k s) : Kept k (followTrim s) := by
  unfold followTrim
  try simp only []
  repeat' (with_reducible first
    | assumption | apply kept_setPower | (apply kept_foldS; intro _ _ _) | (apply kept_foldP; intro _ _ _)
    | (apply kept_foldL; intro _ _ _) | simp only [kept_mk] | refine kept_fst (by assumption) ?_ | intro _
    | apply kept_ite | split)

theorem kept_wakeEngines {k s : State} (hk : Kept k s) : Kept k (wakeEngines s) := by
  unfold wakeEngines
  try simp only []
  repeat' (with_reducible first
    | assumption | apply kept_gateEmpty | apply kept_ungate | (apply kept_foldS; intro _ _ _)
    | (apply kept_foldP; intro _ _ _) | (apply kept_foldL; intro _ _ _) | simp only [kept_mk]
    | refine kept_fst (by assumption) ?_ | intro _ | apply kept_ite | split)

theorem kept_peatActive {k s : State} (hk : Kept k s) : Kept k (peatActive s) := by
  unfold peatActive
  try simp only []
  repeat' (with_reducible first
    | assumption | apply kept_modPeat | (apply kept_foldS; intro _ _ _) | (apply kept_foldP; intro _ _ _)
    | (apply kept_foldL; intro _ _ _) | simp only [kept_mk] | refine kept_fst (by assumption) ?_ | intro _
    | apply kept_ite | split)

theorem kept_peatRefresh {k s : State} (hk : Kept k s) : Kept k (peatRefresh s) := by
  unfold peatRefresh
  try simp only []
  repeat' (with_reducible first
    | assumption | apply kept_modPeat | (apply kept_foldS; intro _ _ _) | (apply kept_foldP; intro _ _ _)
    | (apply kept_foldL; intro _ _ _) | simp only [kept_mk] | refine kept_fst (by assumption) ?_ | intro _
    | apply kept_ite | split)

theorem kept_lostInst {k s : State} (hk : Kept k s) (p : Nat) (a : Nat) : Kept k (lostInst p a s) := by
  unfold lostInst
  try simp only []
  repeat' (with_reducible first
    | assumption | apply kept_freeSub | apply kept_startReset | apply kept_queueBelow
    | (apply kept_foldS; intro _ _ _) | (apply kept_foldP; intro _ _ _) | (apply kept_foldL; intro _ _ _)
    | simp only [kept_mk] | refine kept_fst (by assumption) ?_ | intro _ | apply kept_ite | split)

theorem kept_lostCtx {k s : State} (hk : Kept k s) (e : Nat) : Kept k (lostCtx e s) := by
  unfold lostCtx
  try simp only []
  repeat' (with_reducible first
    | assumption | apply kept_lostInst | (apply kept_foldS; intro _ _ _) | (apply kept_foldP; intro _ _ _)
    | (apply kept_foldL; intro _ _ _) | simp only [kept_mk] | refine kept_fst (by assumption) ?_ | intro _
    | apply kept_ite | split)

theorem kept_loseFrom {k : State} {acc : State × Nat} (hk : Kept k acc.1) (bad : Item → Bool) (q : Nat) : Kept k (loseFrom bad q acc).1 := by
  unfold loseFrom
  try simp only []
  repeat' (with_reducible first
    | assumption | apply kept_setQueue | apply kept_putQueue | apply kept_setSqc | (apply kept_foldS; intro _ _ _)
    | (apply kept_foldP; intro _ _ _) | (apply kept_foldL; intro _ _ _) | simp only [kept_mk]
    | refine kept_fst (by assumption) ?_ | intro _ | apply kept_ite | split)

theorem kept_losePayload {k s : State} (hk : Kept k s) (b : Nat) : Kept k (losePayload b s) := by
  unfold losePayload
  try simp only []
  repeat' (with_reducible first
    | assumption | apply kept_loseFrom | apply kept_raise | apply kept_powerEvent | apply kept_modPbank
    | (apply kept_foldS; intro _ _ _) | (apply kept_foldP; intro _ _ _) | (apply kept_foldL; intro _ _ _)
    | simp only [kept_mk] | refine kept_fst (by assumption) ?_ | intro _ | apply kept_ite | split)

theorem kept_loseControl {k s : State} (hk : Kept k s) (b : Nat) : Kept k (loseControl b s) := by
  unfold loseControl
  try simp only []
  repeat' (with_reducible first
    | assumption | apply kept_loseFrom | apply kept_useFree | apply kept_raise | apply kept_powerEvent
    | apply kept_modFlt | apply kept_modCbank | (apply kept_foldS; intro _ _ _) | (apply kept_foldP; intro _ _ _)
    | (apply kept_foldL; intro _ _ _) | simp only [kept_mk] | refine kept_fst (by assumption) ?_ | intro _
    | apply kept_ite | split)

theorem kept_loseNonResident {k s : State} (hk : Kept k s) : Kept k (loseNonResident s) := by
  unfold loseNonResident
  try simp only []
  repeat' (with_reducible first
    | assumption | apply kept_lostInst | (apply kept_foldS; intro _ _ _) | (apply kept_foldP; intro _ _ _)
    | (apply kept_foldL; intro _ _ _) | simp only [kept_mk] | refine kept_fst (by assumption) ?_ | intro _
    | apply kept_ite | split)

theorem kept_loseSpill {k s : State} (hk : Kept k s) (q : Nat) (bad : Nat → Bool) : Kept k (loseSpill q bad s) := by
  unfold loseSpill
  try simp only []
  repeat' (with_reducible first
    | assumption | apply kept_putQueue | apply kept_setSqc | (apply kept_foldS; intro _ _ _)
    | (apply kept_foldP; intro _ _ _) | (apply kept_foldL; intro _ _ _) | simp only [kept_mk]
    | refine kept_fst (by assumption) ?_ | intro _ | apply kept_ite | split)

theorem kept_refillHead {k s : State} (hk : Kept k s) (q : Nat) (bad : List Nat) : Kept k (refillHead q bad s) := by
  unfold refillHead
  try simp only []
  repeat' (with_reducible first
    | assumption | apply kept_putQueue | apply kept_raise | apply kept_setSqc | (apply kept_foldS; intro _ _ _)
    | (apply kept_foldP; intro _ _ _) | (apply kept_foldL; intro _ _ _) | simp only [kept_mk]
    | refine kept_fst (by assumption) ?_ | intro _ | apply kept_ite | split)

theorem kept_heldLost {k s : State} (hk : Kept k s) : Kept k (heldLost s) := by
  unfold heldLost
  try simp only []
  repeat' (with_reducible first
    | assumption | (apply kept_foldS; intro _ _ _) | (apply kept_foldP; intro _ _ _)
    | (apply kept_foldL; intro _ _ _) | simp only [kept_mk] | refine kept_fst (by assumption) ?_ | intro _
    | apply kept_ite | split)

theorem kept_peatLost {k s : State} (hk : Kept k s) (st : Nat) : Kept k (peatLost st s) := by
  unfold peatLost
  try simp only []
  repeat' (with_reducible first
    | assumption | apply kept_heldLost | apply kept_loseSpill | apply kept_raise | apply kept_loseNonResident
    | apply kept_modPeat | (apply kept_foldS; intro _ _ _) | (apply kept_foldP; intro _ _ _)
    | (apply kept_foldL; intro _ _ _) | simp only [kept_mk] | refine kept_fst (by assumption) ?_ | intro _
    | apply kept_ite | split)

theorem kept_pgOff {k s : State} (hk : Kept k s) (g : Nat) : Kept k (pgOff g s) := by
  unfold pgOff
  try simp only []
  repeat' (with_reducible first
    | assumption | apply kept_toDisabled | (apply kept_foldS; intro _ _ _) | (apply kept_foldP; intro _ _ _)
    | (apply kept_foldL; intro _ _ _) | simp only [kept_mk] | refine kept_fst (by assumption) ?_ | intro _
    | apply kept_ite | split)

theorem kept_tkOff {k s : State} (hk : Kept k s) : Kept k (tkOff s) := by
  unfold tkOff
  try simp only []
  repeat' (with_reducible first
    | assumption | apply kept_trunkOff | (apply kept_foldS; intro _ _ _) | (apply kept_foldP; intro _ _ _)
    | (apply kept_foldL; intro _ _ _) | simp only [kept_mk] | refine kept_fst (by assumption) ?_ | intro _
    | apply kept_ite | split)

theorem kept_tkOn {k s : State} (hk : Kept k s) : Kept k (tkOn s) := by
  unfold tkOn
  try simp only []
  repeat' (with_reducible first
    | assumption | apply kept_trunkOn | (apply kept_foldS; intro _ _ _) | (apply kept_foldP; intro _ _ _)
    | (apply kept_foldL; intro _ _ _) | simp only [kept_mk] | refine kept_fst (by assumption) ?_ | intro _
    | apply kept_ite | split)

theorem kept_cnOff {k s : State} (hk : Kept k s) : Kept k (cnOff s) := by
  unfold cnOff
  try simp only []
  repeat' (with_reducible first
    | assumption | apply kept_driveStb | apply kept_canOff | (apply kept_foldS; intro _ _ _)
    | (apply kept_foldP; intro _ _ _) | (apply kept_foldL; intro _ _ _) | simp only [kept_mk]
    | refine kept_fst (by assumption) ?_ | intro _ | apply kept_ite | split)

theorem kept_cnOn {k s : State} (hk : Kept k s) : Kept k (cnOn s) := by
  unfold cnOn
  try simp only []
  repeat' (with_reducible first
    | assumption | apply kept_driveStb | apply kept_canStart | (apply kept_foldS; intro _ _ _)
    | (apply kept_foldP; intro _ _ _) | (apply kept_foldL; intro _ _ _) | simp only [kept_mk]
    | refine kept_fst (by assumption) ?_ | intro _ | apply kept_ite | split)

theorem kept_portLost {k s : State} (hk : Kept k s) (h' : HostId) : Kept k (portLost h' s) := by
  unfold portLost
  try simp only []
  repeat' (with_reducible first
    | assumption | apply kept_loseVia | (apply kept_foldS; intro _ _ _) | (apply kept_foldP; intro _ _ _)
    | (apply kept_foldL; intro _ _ _) | simp only [kept_mk] | refine kept_fst (by assumption) ?_ | intro _
    | apply kept_ite | split)

theorem kept_portReturns {k s : State} (hk : Kept k s) (p : Nat) : Kept k (portReturns p s) := by
  unfold portReturns
  try simp only []
  repeat' (with_reducible first
    | assumption | apply kept_toUnattached | (apply kept_foldS; intro _ _ _) | (apply kept_foldP; intro _ _ _)
    | (apply kept_foldL; intro _ _ _) | simp only [kept_mk] | refine kept_fst (by assumption) ?_ | intro _
    | apply kept_ite | split)

theorem kept_portStart {k s : State} (hk : Kept k s) (p : Nat) : Kept k (portStart p s) := by
  unfold portStart
  try simp only []
  repeat' (with_reducible first
    | assumption | apply kept_portReturns | (apply kept_foldS; intro _ _ _) | (apply kept_foldP; intro _ _ _)
    | (apply kept_foldL; intro _ _ _) | simp only [kept_mk] | refine kept_fst (by assumption) ?_ | intro _
    | apply kept_ite | split)

theorem kept_saveQueues {k s : State} (hk : Kept k s) : Kept k (saveQueues s) := by
  unfold saveQueues
  try simp only []
  repeat' (with_reducible first
    | assumption | (apply kept_foldS; intro _ _ _) | (apply kept_foldP; intro _ _ _)
    | (apply kept_foldL; intro _ _ _) | simp only [kept_mk] | refine kept_fst (by assumption) ?_ | intro _
    | apply kept_ite | split)

theorem kept_writeCanaries {k s : State} (hk : Kept k s) : Kept k (writeCanaries s) := by
  unfold writeCanaries
  try simp only []
  repeat' (with_reducible first
    | assumption | (apply kept_foldS; intro _ _ _) | (apply kept_foldP; intro _ _ _)
    | (apply kept_foldL; intro _ _ _) | simp only [kept_mk] | refine kept_fst (by assumption) ?_ | intro _
    | apply kept_ite | split)

theorem kept_entryAction {k s : State} (hk : Kept k s) (target : Nat) (code : Nat) : Kept k (entryAction target code s) := by
  unfold entryAction
  try simp only []
  repeat' (with_reducible first
    | assumption | apply kept_writeCanaries | apply kept_saveQueues | apply kept_doSuspend | apply kept_modPower
    | apply kept_cnOff | apply kept_tkOff | apply kept_peatRefresh | apply kept_toDisabled
    | (apply kept_foldS; intro _ _ _) | (apply kept_foldP; intro _ _ _) | (apply kept_foldL; intro _ _ _)
    | simp only [kept_mk] | refine kept_fst (by assumption) ?_ | intro _ | apply kept_ite | split)

theorem kept_pullupBack {k s : State} (hk : Kept k s) (p : Nat) : Kept k (pullupBack p s) := by
  unfold pullupBack
  try simp only []
  repeat' (with_reducible first
    | assumption | apply kept_modPort | (apply kept_foldS; intro _ _ _) | (apply kept_foldP; intro _ _ _)
    | (apply kept_foldL; intro _ _ _) | simp only [kept_mk] | refine kept_fst (by assumption) ?_ | intro _
    | apply kept_ite | split)

theorem kept_resumeTrees {k s : State} (hk : Kept k s) (ps : List Nat) : Kept k (resumeTrees ps s) := by
  unfold resumeTrees
  try simp only []
  repeat' (with_reducible first
    | assumption | apply kept_pullupBack | apply kept_startResume | (apply kept_foldS; intro _ _ _)
    | (apply kept_foldP; intro _ _ _) | (apply kept_foldL; intro _ _ _) | simp only [kept_mk]
    | refine kept_fst (by assumption) ?_ | intro _ | apply kept_ite | split)

theorem kept_dropEntry {k s : State} (hk : Kept k s) : Kept k (dropEntry s) := by
  unfold dropEntry
  try simp only []
  repeat' (with_reducible first
    | assumption | apply kept_modPower | apply kept_peatActive | apply kept_cnOn | apply kept_tkOn
    | apply kept_resumeTrees | apply kept_portReturns | (apply kept_foldS; intro _ _ _)
    | (apply kept_foldP; intro _ _ _) | (apply kept_foldL; intro _ _ _) | simp only [kept_mk]
    | refine kept_fst (by assumption) ?_ | intro _ | apply kept_ite | split)

theorem kept_entryEnds {k s : State} (hk : Kept k s) (status : Nat) (island : Nat) (reason : Nat) : Kept k (entryEnds status island reason s) := by
  unfold entryEnds
  try simp only []
  repeat' (with_reducible first
    | assumption | apply kept_finishOp | apply kept_dropEntry | (apply kept_foldS; intro _ _ _)
    | (apply kept_foldP; intro _ _ _) | (apply kept_foldL; intro _ _ _) | simp only [kept_mk]
    | refine kept_fst (by assumption) ?_ | intro _ | apply kept_ite | split)

theorem kept_enterDoze {k s : State} (hk : Kept k s) (e : Entry) : Kept k (enterDoze e s) := by
  unfold enterDoze
  try simp only []
  repeat' (with_reducible first
    | assumption | apply kept_modPower | apply kept_setPower | apply kept_finishOp
    | (apply kept_foldS; intro _ _ _) | (apply kept_foldP; intro _ _ _) | (apply kept_foldL; intro _ _ _)
    | simp only [kept_mk] | refine kept_fst (by assumption) ?_ | intro _ | apply kept_ite | split)

theorem kept_unbindAll {k s : State} (hk : Kept k s) : Kept k (unbindAll s) := by
  unfold unbindAll
  try simp only []
  repeat' (with_reducible first
    | assumption | apply kept_updateChoice | apply kept_noSems | (apply kept_foldS; intro _ _ _)
    | (apply kept_foldP; intro _ _ _) | (apply kept_foldL; intro _ _ _) | simp only [kept_mk]
    | refine kept_fst (by assumption) ?_ | intro _ | apply kept_ite | split)

theorem kept_stbAll {k s : State} (hk : Kept k s) (high : Bool) : Kept k (stbAll high s) := by
  unfold stbAll
  try simp only []
  repeat' (with_reducible first
    | assumption | apply kept_emit | apply kept_driveStb | (apply kept_foldS; intro _ _ _)
    | (apply kept_foldP; intro _ _ _) | (apply kept_foldL; intro _ _ _) | simp only [kept_mk]
    | refine kept_fst (by assumption) ?_ | intro _ | apply kept_ite | split)

theorem kept_enterHibernate {k s : State} (hk : Kept k s) (e : Entry) : Kept k (enterHibernate e s) := by
  unfold enterHibernate
  try simp only []
  repeat' (with_reducible first
    | assumption | apply kept_saveQueues | apply kept_stbAll | apply kept_modPower | apply kept_setPower
    | apply kept_finishOp | apply kept_unbindAll | apply kept_modLich | apply kept_modInst | apply kept_emit
    | apply kept_modDev | (apply kept_foldS; intro _ _ _) | (apply kept_foldP; intro _ _ _)
    | (apply kept_foldL; intro _ _ _) | simp only [kept_mk] | refine kept_fst (by assumption) ?_ | intro _
    | apply kept_ite | split)

theorem kept_islandAnswers {k s : State} (hk : Kept k s) (busy : Bool) : Kept k (islandAnswers busy s) := by
  unfold islandAnswers
  try simp only []
  repeat' (with_reducible first
    | assumption | apply kept_order | apply kept_modPower | apply kept_setSqc | apply kept_powerEvent
    | apply kept_entryEnds | apply kept_entryAction | apply kept_enterDoze | apply kept_enterHibernate
    | (apply kept_foldS; intro _ _ _) | (apply kept_foldP; intro _ _ _) | (apply kept_foldL; intro _ _ _)
    | simp only [kept_mk] | refine kept_fst (by assumption) ?_ | intro _ | apply kept_ite | split)

theorem kept_delayEnds {k s : State} (hk : Kept k s) : Kept k (delayEnds s) := by
  unfold delayEnds
  try simp only []
  repeat' (with_reducible first
    | assumption | apply kept_modPower | (apply kept_foldS; intro _ _ _) | (apply kept_foldP; intro _ _ _)
    | (apply kept_foldL; intro _ _ _) | simp only [kept_mk] | refine kept_fst (by assumption) ?_ | intro _
    | apply kept_ite | split)

theorem kept_startWake {k s : State} (hk : Kept k s) (left : PowerState) (cause : Nat) : Kept k (startWake left cause s) := by
  unfold startWake
  try simp only []
  repeat' (with_reducible first
    | assumption | apply kept_modPower | apply kept_emit | (apply kept_foldS; intro _ _ _)
    | (apply kept_foldP; intro _ _ _) | (apply kept_foldL; intro _ _ _) | simp only [kept_mk]
    | refine kept_fst (by assumption) ?_ | intro _ | apply kept_ite | split)

theorem kept_wakeTrigger {k s : State} (hk : Kept k s) (code : Nat) : Kept k (wakeTrigger code s) := by
  unfold wakeTrigger
  try simp only []
  repeat' (with_reducible first
    | assumption | apply kept_entryEnds | apply kept_startWake | apply kept_ashRecord
    | (apply kept_foldS; intro _ _ _) | (apply kept_foldP; intro _ _ _) | (apply kept_foldL; intro _ _ _)
    | simp only [kept_mk] | refine kept_fst (by assumption) ?_ | intro _ | apply kept_ite | split)

theorem kept_wakeDone {k s : State} (hk : Kept k s) (w : Wake) : Kept k (wakeDone w s) := by
  unfold wakeDone
  try simp only []
  repeat' (with_reducible first
    | assumption | apply kept_modPower | apply kept_followTrim | apply kept_setPower
    | (apply kept_foldS; intro _ _ _) | (apply kept_foldP; intro _ _ _) | (apply kept_foldL; intro _ _ _)
    | simp only [kept_mk] | refine kept_fst (by assumption) ?_ | intro _ | apply kept_ite | split)

theorem kept_dozeOver {k s : State} (hk : Kept k s) (w : Wake) : Kept k (dozeOver w s) := by
  unfold dozeOver
  try simp only []
  repeat' (with_reducible first
    | assumption | apply kept_wakeDone | apply kept_wakeEngines | apply kept_resumeTrees | apply kept_modPower
    | apply kept_finishKey | (apply kept_foldS; intro _ _ _) | (apply kept_foldP; intro _ _ _)
    | (apply kept_foldL; intro _ _ _) | simp only [kept_mk] | refine kept_fst (by assumption) ?_ | intro _
    | apply kept_ite | split)

theorem kept_checkCanaries {k s : State} (hk : Kept k s) (read : List (Nat × Nat × Word)) : Kept k (checkCanaries read s) := by
  unfold checkCanaries
  try simp only []
  repeat' (with_reducible first
    | assumption | apply kept_losePayload | (apply kept_foldS; intro _ _ _) | (apply kept_foldP; intro _ _ _)
    | (apply kept_foldL; intro _ _ _) | simp only [kept_mk] | refine kept_fst (by assumption) ?_ | intro _
    | apply kept_ite | split)

theorem kept_loseAt {k s : State} (hk : Kept k s) (q : Nat) (idx : Nat) : Kept k (loseAt q idx s) := by
  unfold loseAt
  try simp only []
  repeat' (with_reducible first
    | assumption | apply kept_putQueue | apply kept_setSqc | (apply kept_foldS; intro _ _ _)
    | (apply kept_foldP; intro _ _ _) | (apply kept_foldL; intro _ _ _) | simp only [kept_mk]
    | refine kept_fst (by assumption) ?_ | intro _ | apply kept_ite | split)

theorem kept_loseContent {k s : State} (hk : Kept k s) (b : Nat) (c : CtrlContent) : Kept k (loseContent b c s) := by
  unfold loseContent
  try simp only []
  repeat' (with_reducible first
    | assumption | apply kept_raise | apply kept_lostCtx | apply kept_loseAt | apply kept_modHost
    | (apply kept_foldS; intro _ _ _) | (apply kept_foldP; intro _ _ _) | (apply kept_foldL; intro _ _ _)
    | simp only [kept_mk] | refine kept_fst (by assumption) ?_ | intro _ | apply kept_ite | split)

theorem kept_checkControl {k s : State} (hk : Kept k s) (words : List (Nat × CtrlContent)) : Kept k (checkControl words s) := by
  unfold checkControl
  try simp only []
  repeat' (with_reducible first
    | assumption | apply kept_loseHeaders | apply kept_loseContent | apply kept_loseControl
    | (apply kept_foldS; intro _ _ _) | (apply kept_foldP; intro _ _ _) | (apply kept_foldL; intro _ _ _)
    | simp only [kept_mk] | refine kept_fst (by assumption) ?_ | intro _ | apply kept_ite | split)

theorem kept_loadQueues {k s : State} (hk : Kept k s) : Kept k (loadQueues s) := by
  unfold loadQueues
  try simp only []
  repeat' (with_reducible first
    | assumption | (apply kept_foldS; intro _ _ _) | (apply kept_foldP; intro _ _ _)
    | (apply kept_foldL; intro _ _ _) | simp only [kept_mk] | refine kept_fst (by assumption) ?_ | intro _
    | apply kept_ite | split)

theorem kept_retention {k s : State} (hk : Kept k s) (read : List (Nat × Nat × Word)) (words : List (Nat × CtrlContent)) : Kept k (retention read words s) := by
  unfold retention
  try simp only []
  repeat' (with_reducible first
    | assumption | apply kept_checkCanaries | apply kept_checkControl | apply kept_loadQueues
    | (apply kept_foldS; intro _ _ _) | (apply kept_foldP; intro _ _ _) | (apply kept_foldL; intro _ _ _)
    | simp only [kept_mk] | refine kept_fst (by assumption) ?_ | intro _ | apply kept_ite | split)

theorem kept_peatInit {k s : State} (hk : Kept k s) (ok : Bool) : Kept k (peatInit ok s) := by
  unfold peatInit
  try simp only []
  repeat' (with_reducible first
    | assumption | apply kept_heldLost | apply kept_raise | apply kept_modPeat | apply kept_clearFlt
    | (apply kept_foldS; intro _ _ _) | (apply kept_foldP; intro _ _ _) | (apply kept_foldL; intro _ _ _)
    | simp only [kept_mk] | refine kept_fst (by assumption) ?_ | intro _ | apply kept_ite | split)

theorem kept_peatReturns {k s : State} (hk : Kept k s) : Kept k (peatReturns s) := by
  unfold peatReturns
  try simp only []
  repeat' (with_reducible first
    | assumption | apply kept_peatInit | apply kept_modPower | (apply kept_foldS; intro _ _ _)
    | (apply kept_foldP; intro _ _ _) | (apply kept_foldL; intro _ _ _) | simp only [kept_mk]
    | refine kept_fst (by assumption) ?_ | intro _ | apply kept_ite | split)

theorem kept_svcAttach {k s : State} (hk : Kept k s) : Kept k (svcAttach s) := by
  unfold svcAttach
  try simp only []
  repeat' (with_reducible first
    | assumption | apply kept_modInst | (apply kept_foldS; intro _ _ _) | (apply kept_foldP; intro _ _ _)
    | (apply kept_foldL; intro _ _ _) | simp only [kept_mk] | refine kept_fst (by assumption) ?_ | intro _
    | apply kept_ite | split)

theorem kept_railsUp {k s : State} (hk : Kept k s) : Kept k (railsUp s) := by
  unfold railsUp
  try simp only []
  repeat' (with_reducible first
    | assumption | apply kept_modPower | apply kept_tkOn | apply kept_svcAttach | (apply kept_foldS; intro _ _ _)
    | (apply kept_foldP; intro _ _ _) | (apply kept_foldL; intro _ _ _) | simp only [kept_mk]
    | refine kept_fst (by assumption) ?_ | intro _ | apply kept_ite | split)

theorem kept_railReady {k s : State} (hk : Kept k s) : Kept k (railReady s) := by
  unfold railReady
  try simp only []
  repeat' (with_reducible first
    | assumption | apply kept_modPower | apply kept_peatReturns | apply kept_railsUp
    | (apply kept_foldS; intro _ _ _) | (apply kept_foldP; intro _ _ _) | (apply kept_foldL; intro _ _ _)
    | simp only [kept_mk] | refine kept_fst (by assumption) ?_ | intro _ | apply kept_ite | split)

theorem kept_wakeReady {k s : State} (hk : Kept k s) (read : List (Nat × Nat × Word)) (words : List (Nat × CtrlContent)) : Kept k (wakeReady read words s) := by
  unfold wakeReady
  try simp only []
  repeat' (with_reducible first
    | assumption | apply kept_modPower | apply kept_modTime | apply kept_peatReturns | apply kept_peatActive
    | apply kept_retention | apply kept_railsUp | apply kept_dozeOver | apply kept_modDev | apply kept_timeStart
    | (apply kept_foldS; intro _ _ _) | (apply kept_foldP; intro _ _ _) | (apply kept_foldL; intro _ _ _)
    | simp only [kept_mk] | refine kept_fst (by assumption) ?_ | intro _ | apply kept_ite | split)

theorem kept_stepTimeout {k s : State} (hk : Kept k s) (step : Nat) (island : Nat) (us : Nat) : Kept k (stepTimeout step island us s) := by
  unfold stepTimeout
  try simp only []
  repeat' (with_reducible first
    | assumption | apply kept_setSqc | apply kept_raise | apply kept_powerEvent | (apply kept_foldS; intro _ _ _)
    | (apply kept_foldP; intro _ _ _) | (apply kept_foldL; intro _ _ _) | simp only [kept_mk]
    | refine kept_fst (by assumption) ?_ | intro _ | apply kept_ite | split)

theorem kept_wakeFails {k s : State} (hk : Kept k s) : Kept k (wakeFails s) := by
  unfold wakeFails
  try simp only []
  repeat' (with_reducible first
    | assumption | apply kept_unbindAll | apply kept_modInst | apply kept_cnOff | apply kept_tkOff
    | apply kept_modDev | apply kept_modPower | (apply kept_foldS; intro _ _ _) | (apply kept_foldP; intro _ _ _)
    | (apply kept_foldL; intro _ _ _) | simp only [kept_mk] | refine kept_fst (by assumption) ?_ | intro _
    | apply kept_ite | split)

theorem kept_bankFails {k s : State} (hk : Kept k s) (r : Nat) : Kept k (bankFails r s) := by
  unfold bankFails
  try simp only []
  repeat' (with_reducible first
    | assumption | apply kept_losePayload | apply kept_modFlt | apply kept_modPbank | apply kept_loseControl
    | apply kept_peatLost | (apply kept_foldS; intro _ _ _) | (apply kept_foldP; intro _ _ _)
    | (apply kept_foldL; intro _ _ _) | simp only [kept_mk] | refine kept_fst (by assumption) ?_ | intro _
    | apply kept_ite | split)

theorem kept_railLost {k s : State} (hk : Kept k s) (code : Nat) : Kept k (railLost code s) := by
  unfold railLost
  try simp only []
  repeat' (with_reducible first
    | assumption | apply kept_modPower | apply kept_tkOff | apply kept_portLost | apply kept_pgOff
    | apply kept_endInstance | apply kept_peatLost | apply kept_setSqc | apply kept_raise | apply kept_powerEvent
    | (apply kept_foldS; intro _ _ _) | (apply kept_foldP; intro _ _ _) | (apply kept_foldL; intro _ _ _)
    | simp only [kept_mk] | refine kept_fst (by assumption) ?_ | intro _ | apply kept_ite | split)

theorem kept_railBack {k s : State} (hk : Kept k s) (code : Nat) : Kept k (railBack code s) := by
  unfold railBack
  try simp only []
  repeat' (with_reducible first
    | assumption | apply kept_modPower | apply kept_tkOn | apply kept_svcReturns | apply kept_peatInit
    | apply kept_clearFlt | apply kept_setSqc | apply kept_powerEvent | (apply kept_foldS; intro _ _ _)
    | (apply kept_foldP; intro _ _ _) | (apply kept_foldL; intro _ _ _) | simp only [kept_mk]
    | refine kept_fst (by assumption) ?_ | intro _ | apply kept_ite | split)

theorem kept_railLate {k s : State} (hk : Kept k s) (unit : Nat) (us : Nat) : Kept k (railLate unit us s) := by
  unfold railLate
  try simp only []
  repeat' (with_reducible first
    | assumption | apply kept_stepTimeout | apply kept_railLost | apply kept_wakeFails | apply kept_refSwitch
    | apply kept_bankFails | apply kept_raise | (apply kept_foldS; intro _ _ _) | (apply kept_foldP; intro _ _ _)
    | (apply kept_foldL; intro _ _ _) | simp only [kept_mk] | refine kept_fst (by assumption) ?_ | intro _
    | apply kept_ite | split)

theorem kept_wakeStepLate {k s : State} (hk : Kept k s) (unit : Nat) (us : Nat) : Kept k (wakeStepLate unit us s) := by
  unfold wakeStepLate
  try simp only []
  repeat' (with_reducible first
    | assumption | apply kept_railLate | apply kept_stepTimeout | apply kept_modPower | apply kept_railLost
    | apply kept_wakeFails | apply kept_refSwitch | apply kept_bankFails | apply kept_raise
    | (apply kept_foldS; intro _ _ _) | (apply kept_foldP; intro _ _ _) | (apply kept_foldL; intro _ _ _)
    | simp only [kept_mk] | refine kept_fst (by assumption) ?_ | intro _ | apply kept_ite | split)

theorem kept_wakeRetry {k s : State} (hk : Kept k s) : Kept k (wakeRetry s) := by
  unfold wakeRetry
  try simp only []
  repeat' (with_reducible first
    | assumption | apply kept_modPower | (apply kept_foldS; intro _ _ _) | (apply kept_foldP; intro _ _ _)
    | (apply kept_foldL; intro _ _ _) | simp only [kept_mk] | refine kept_fst (by assumption) ?_ | intro _
    | apply kept_ite | split)

theorem kept_devPowerStateCmd  : SpecKept devPowerStateCmd := by
  intro k x s hk
  simp only [devPowerStateCmd]
  repeat' (with_reducible first
    | assumption | apply kept_wakeTrigger | apply kept_startWake | apply kept_modPower
    | (apply kept_foldS; intro _ _ _) | (apply kept_foldP; intro _ _ _) | (apply kept_foldL; intro _ _ _)
    | simp only [kept_mk] | refine kept_fst (by assumption) ?_ | intro _ | apply kept_ite | split)

theorem kept_bankIdleOff {k s : State} (hk : Kept k s) (b : Nat) : Kept k (bankIdleOff b s) := by
  unfold bankIdleOff
  try simp only []
  repeat' (with_reducible first
    | assumption | apply kept_modPbank | (apply kept_foldS; intro _ _ _) | (apply kept_foldP; intro _ _ _)
    | (apply kept_foldL; intro _ _ _) | simp only [kept_mk] | refine kept_fst (by assumption) ?_ | intro _
    | apply kept_ite | split)

theorem kept_followBanks {k s : State} (hk : Kept k s) : Kept k (followBanks s) := by
  unfold followBanks
  try simp only []
  repeat' (with_reducible first
    | assumption | apply kept_modPbank | (apply kept_foldS; intro _ _ _) | (apply kept_foldP; intro _ _ _)
    | (apply kept_foldL; intro _ _ _) | simp only [kept_mk] | refine kept_fst (by assumption) ?_ | intro _
    | apply kept_ite | split)

theorem kept_shrinkSet {k s : State} (hk : Kept k s) : Kept k (shrinkSet s) := by
  unfold shrinkSet
  try simp only []
  repeat' (with_reducible first
    | assumption | (apply kept_foldS; intro _ _ _) | (apply kept_foldP; intro _ _ _)
    | (apply kept_foldL; intro _ _ _) | simp only [kept_mk] | refine kept_fst (by assumption) ?_ | intro _
    | apply kept_ite | split)

theorem kept_loseEntry {k s : State} (hk : Kept k s) : Kept k (loseEntry s) := by
  unfold loseEntry
  try simp only []
  repeat' (with_reducible first
    | assumption | apply kept_loseSpill | apply kept_useFree | (apply kept_foldS; intro _ _ _)
    | (apply kept_foldP; intro _ _ _) | (apply kept_foldL; intro _ _ _) | simp only [kept_mk]
    | refine kept_fst (by assumption) ?_ | intro _ | apply kept_ite | split)

theorem kept_peatScrub {k s : State} (hk : Kept k s) (f : PeatFound) : Kept k (peatScrub f s) := by
  unfold peatScrub
  try simp only []
  repeat' (with_reducible first
    | assumption | apply kept_modPeat | apply kept_setSqc | apply kept_raise | apply kept_raiseAt
    | apply kept_lostCtx | apply kept_loseEntry | (apply kept_foldS; intro _ _ _) | (apply kept_foldP; intro _ _ _)
    | (apply kept_foldL; intro _ _ _) | simp only [kept_mk] | refine kept_fst (by assumption) ?_ | intro _
    | apply kept_ite | split)

theorem kept_ctrlCorrected {k s : State} (hk : Kept k s) (b : Nat) (column : Nat) : Kept k (ctrlCorrected b column s) := by
  unfold ctrlCorrected
  try simp only []
  repeat' (with_reducible first
    | assumption | apply kept_raise | apply kept_setSqc | apply kept_askTest | (apply kept_foldS; intro _ _ _)
    | (apply kept_foldP; intro _ _ _) | (apply kept_foldL; intro _ _ _) | simp only [kept_mk]
    | refine kept_fst (by assumption) ?_ | intro _ | apply kept_ite | split)

theorem kept_ctrlUncorrectable {k s : State} (hk : Kept k s) (b : Nat) (a : Nat) (c : CtrlContent) : Kept k (ctrlUncorrectable b a c s) := by
  unfold ctrlUncorrectable
  try simp only []
  repeat' (with_reducible first
    | assumption | apply kept_setSqc | apply kept_loseContent | apply kept_raise | (apply kept_foldS; intro _ _ _)
    | (apply kept_foldP; intro _ _ _) | (apply kept_foldL; intro _ _ _) | simp only [kept_mk]
    | refine kept_fst (by assumption) ?_ | intro _ | apply kept_ite | split)

theorem kept_ctrlScrub {k s : State} (hk : Kept k s) (f : CtrlFound) : Kept k (ctrlScrub f s) := by
  unfold ctrlScrub
  try simp only []
  repeat' (with_reducible first
    | assumption | apply kept_ctrlCorrected | apply kept_ctrlUncorrectable | apply kept_loseAt | apply kept_raise
    | apply kept_setSqc | apply kept_askTest | apply kept_lostCtx | apply kept_modHost
    | (apply kept_foldS; intro _ _ _) | (apply kept_foldP; intro _ _ _) | (apply kept_foldL; intro _ _ _)
    | simp only [kept_mk] | refine kept_fst (by assumption) ?_ | intro _ | apply kept_ite | split)

theorem kept_captureWindow {k s : State} (hk : Kept k s) (off : Bool) (code : Nat) : Kept k (captureWindow off code s) := by
  unfold captureWindow
  try simp only []
  repeat' (with_reducible first
    | assumption | (apply kept_foldS; intro _ _ _) | (apply kept_foldP; intro _ _ _)
    | (apply kept_foldL; intro _ _ _) | simp only [kept_mk] | refine kept_fst (by assumption) ?_ | intro _
    | apply kept_ite | split)

theorem kept_followIslands {k s : State} (hk : Kept k s) : Kept k (followIslands s) := by
  unfold followIslands
  try simp only []
  repeat' (with_reducible first
    | assumption | apply kept_captureWindow | apply kept_setSqc | apply kept_modDev
    | (apply kept_foldS; intro _ _ _) | (apply kept_foldP; intro _ _ _) | (apply kept_foldL; intro _ _ _)
    | simp only [kept_mk] | refine kept_fst (by assumption) ?_ | intro _ | apply kept_ite | split)

theorem kept_countBoot {k s : State} (hk : Kept k s) : Kept k (countBoot s) := by
  unfold countBoot
  try simp only []
  repeat' (with_reducible first
    | assumption | apply kept_modLich | (apply kept_foldS; intro _ _ _) | (apply kept_foldP; intro _ _ _)
    | (apply kept_foldL; intro _ _ _) | simp only [kept_mk] | refine kept_fst (by assumption) ?_ | intro _
    | apply kept_ite | split)

theorem kept_endTrial {k s : State} (hk : Kept k s) : Kept k (endTrial s) := by
  unfold endTrial
  try simp only []
  repeat' (with_reducible first
    | assumption | apply kept_modLich | (apply kept_foldS; intro _ _ _) | (apply kept_foldP; intro _ _ _)
    | (apply kept_foldL; intro _ _ _) | simp only [kept_mk] | refine kept_fst (by assumption) ?_ | intro _
    | apply kept_ite | split)

theorem kept_tryOut {k s : State} (hk : Kept k s) (k' : Nat) : Kept k (tryOut k' s) := by
  unfold tryOut
  try simp only []
  repeat' (with_reducible first
    | assumption | apply kept_modLich | (apply kept_foldS; intro _ _ _) | (apply kept_foldP; intro _ _ _)
    | (apply kept_foldL; intro _ _ _) | simp only [kept_mk] | refine kept_fst (by assumption) ?_ | intro _
    | apply kept_ite | split)

theorem kept_cutFlash {k s : State} (hk : Kept k s) : Kept k (cutFlash s) := by
  unfold cutFlash
  try simp only []
  repeat' (with_reducible first
    | assumption | apply kept_modFw | apply kept_modSlot | (apply kept_foldS; intro _ _ _)
    | (apply kept_foldP; intro _ _ _) | (apply kept_foldL; intro _ _ _) | simp only [kept_mk]
    | refine kept_fst (by assumption) ?_ | intro _ | apply kept_ite | split)

theorem kept_ppsFall {k s : State} (hk : Kept k s) : Kept k (ppsFall s) := by
  unfold ppsFall
  try simp only []
  repeat' (with_reducible first
    | assumption | apply kept_emit | apply kept_modTime | (apply kept_foldS; intro _ _ _)
    | (apply kept_foldP; intro _ _ _) | (apply kept_foldL; intro _ _ _) | simp only [kept_mk]
    | refine kept_fst (by assumption) ?_ | intro _ | apply kept_ite | split)

theorem kept_restoreEvents {k s : State} (hk : Kept k s) : Kept k (restoreEvents s) := by
  unfold restoreEvents
  try simp only []
  repeat' (with_reducible first
    | assumption | apply kept_setCfg | (apply kept_foldS; intro _ _ _) | (apply kept_foldP; intro _ _ _)
    | (apply kept_foldL; intro _ _ _) | simp only [kept_mk] | refine kept_fst (by assumption) ?_ | intro _
    | apply kept_ite | split)

theorem kept_logicReset {k s : State} (hk : Kept k s) (resetN : Bool) : Kept k (logicReset resetN s) := by
  unfold logicReset
  try simp only []
  repeat' (with_reducible first
    | assumption | apply kept_ppsFall | apply kept_setPower | apply kept_restoreEvents | apply kept_cutFlash
    | apply kept_emit | apply kept_reset | (apply kept_foldS; intro _ _ _) | (apply kept_foldP; intro _ _ _)
    | (apply kept_foldL; intro _ _ _) | simp only [kept_mk] | refine kept_fst (by assumption) ?_ | intro _
    | apply kept_ite | split)

theorem kept_dieReset {k s : State} (hk : Kept k s) (resetN : Bool) : Kept k (dieReset resetN s) := by
  unfold dieReset
  try simp only []
  repeat' (with_reducible first
    | assumption | apply kept_logicReset | apply kept_endTrial | (apply kept_foldS; intro _ _ _)
    | (apply kept_foldP; intro _ _ _) | (apply kept_foldL; intro _ _ _) | simp only [kept_mk]
    | refine kept_fst (by assumption) ?_ | intro _ | apply kept_ite | split)

theorem kept_failedStart {k s : State} (hk : Kept k s) : Kept k (failedStart s) := by
  unfold failedStart
  try simp only []
  repeat' (with_reducible first
    | assumption | apply kept_dieReset | (apply kept_foldS; intro _ _ _) | (apply kept_foldP; intro _ _ _)
    | (apply kept_foldL; intro _ _ _) | simp only [kept_mk] | refine kept_fst (by assumption) ?_ | intro _
    | apply kept_ite | split)

theorem kept_kindlePort {k s : State} (hk : Kept k s) (cause : Nat) (p : Nat) : Kept k (kindlePort cause p s) := by
  unfold kindlePort
  try simp only []
  repeat' (with_reducible first
    | assumption | apply kept_modPort | apply kept_closeLow | apply kept_openPaths
    | (apply kept_foldS; intro _ _ _) | (apply kept_foldP; intro _ _ _) | (apply kept_foldL; intro _ _ _)
    | simp only [kept_mk] | refine kept_fst (by assumption) ?_ | intro _ | apply kept_ite | split)

theorem kept_trunksStart {k s : State} (hk : Kept k s) (kindling : Bool) : Kept k (trunksStart kindling s) := by
  unfold trunksStart
  try simp only []
  repeat' (with_reducible first
    | assumption | apply kept_modTrunk | apply kept_trunkOn | (apply kept_foldS; intro _ _ _)
    | (apply kept_foldP; intro _ _ _) | (apply kept_foldL; intro _ _ _) | simp only [kept_mk]
    | refine kept_fst (by assumption) ?_ | intro _ | apply kept_ite | split)

theorem kept_startId {k s : State} (hk : Kept k s) : Kept k (startId s) := by
  unfold startId
  try simp only []
  repeat' (with_reducible first
    | assumption | apply kept_modDev | (apply kept_foldS; intro _ _ _) | (apply kept_foldP; intro _ _ _)
    | (apply kept_foldL; intro _ _ _) | simp only [kept_mk] | refine kept_fst (by assumption) ?_ | intro _
    | apply kept_ite | split)

theorem kept_deliverWaiting {k s : State} (hk : Kept k s) : Kept k (deliverWaiting s) := by
  unfold deliverWaiting
  try simp only []
  repeat' (with_reducible first
    | assumption | apply kept_storeEvent | (apply kept_foldS; intro _ _ _) | (apply kept_foldP; intro _ _ _)
    | (apply kept_foldL; intro _ _ _) | simp only [kept_mk] | refine kept_fst (by assumption) ?_ | intro _
    | apply kept_ite | split)

theorem kept_kindleHolds {k s : State} (hk : Kept k s) (cause : Nat) : Kept k (kindleHolds cause s) := by
  unfold kindleHolds
  try simp only []
  repeat' (with_reducible first
    | assumption | apply kept_modBoard | apply kept_ashRecord | (apply kept_foldS; intro _ _ _)
    | (apply kept_foldP; intro _ _ _) | (apply kept_foldL; intro _ _ _) | simp only [kept_mk]
    | refine kept_fst (by assumption) ?_ | intro _ | apply kept_ite | split)

theorem kept_postHolds {k s : State} (hk : Kept k s) : Kept k (postHolds s) := by
  unfold postHolds
  try simp only []
  repeat' (with_reducible first
    | assumption | apply kept_pathEvent | apply kept_modBoard | (apply kept_foldS; intro _ _ _)
    | (apply kept_foldP; intro _ _ _) | (apply kept_foldL; intro _ _ _) | simp only [kept_mk]
    | refine kept_fst (by assumption) ?_ | intro _ | apply kept_ite | split)

theorem kept_startRecord {k s : State} (hk : Kept k s) (power : Nat) (cause : Nat) : Kept k (startRecord power cause s) := by
  unfold startRecord
  try simp only []
  repeat' (with_reducible first
    | assumption | apply kept_ashRecord | apply kept_modLich | (apply kept_foldS; intro _ _ _)
    | (apply kept_foldP; intro _ _ _) | (apply kept_foldL; intro _ _ _) | simp only [kept_mk]
    | refine kept_fst (by assumption) ?_ | intro _ | apply kept_ite | split)

theorem kept_kindle {k s : State} (hk : Kept k s) (cause : Nat) : Kept k (kindle cause s) := by
  unfold kindle
  try simp only []
  repeat' (with_reducible first
    | assumption | apply kept_kindleHolds | apply kept_stbAll | apply kept_startRecord | apply kept_postHolds
    | apply kept_modLich | apply kept_modDev | apply kept_kindlePort | apply kept_modBoard | apply kept_setPower
    | apply kept_unbindAll | apply kept_cnOff | apply kept_svcAttach | apply kept_trunksStart | apply kept_startId
    | apply kept_ashRecord | apply kept_deliverWaiting | (apply kept_foldS; intro _ _ _)
    | (apply kept_foldP; intro _ _ _) | (apply kept_foldL; intro _ _ _) | simp only [kept_mk]
    | refine kept_fst (by assumption) ?_ | intro _ | apply kept_ite | split)

theorem kept_kinStart {k s : State} (hk : Kept k s) (cause : Nat) : Kept k (kinStart cause s) := by
  unfold kinStart
  try simp only []
  repeat' (with_reducible first
    | assumption | apply kept_timeStart | apply kept_kindle | (apply kept_foldS; intro _ _ _)
    | (apply kept_foldP; intro _ _ _) | (apply kept_foldL; intro _ _ _) | simp only [kept_mk]
    | refine kept_fst (by assumption) ?_ | intro _ | apply kept_ite | split)

theorem kept_enterKindling {k s : State} (hk : Kept k s) (cause : Nat) : Kept k (enterKindling cause s) := by
  unfold enterKindling
  try simp only []
  repeat' (with_reducible first
    | assumption | apply kept_kinStart | apply kept_kindle | apply kept_restoreEvents | apply kept_dieReset
    | (apply kept_foldS; intro _ _ _) | (apply kept_foldP; intro _ _ _) | (apply kept_foldL; intro _ _ _)
    | simp only [kept_mk] | refine kept_fst (by assumption) ?_ | intro _ | apply kept_ite | split)

theorem kept_lostRecord_lostRepairs {k s : State} (hk : Kept k s) : Kept k (lostRecord.lostRepairs s) := by
  unfold lostRecord.lostRepairs
  try simp only []
  repeat' (with_reducible first
    | assumption | apply kept_modFlt | apply kept_modPbank | apply kept_modCbank | apply kept_modLich
    | (apply kept_foldS; intro _ _ _) | (apply kept_foldP; intro _ _ _) | (apply kept_foldL; intro _ _ _)
    | simp only [kept_mk] | refine kept_fst (by assumption) ?_ | intro _ | apply kept_ite | split)

theorem kept_lostRecord {k s : State} (hk : Kept k s) (off : Nat) : Kept k (lostRecord off s) := by
  unfold lostRecord
  try simp only []
  repeat' (with_reducible first
    | assumption | apply kept_modLich | apply kept_lostRecord_lostRepairs | apply kept_ashRecord
    | apply kept_modFlt | apply kept_modPbank | apply kept_modCbank | (apply kept_foldS; intro _ _ _)
    | (apply kept_foldP; intro _ _ _) | (apply kept_foldL; intro _ _ _) | simp only [kept_mk]
    | refine kept_fst (by assumption) ?_ | intro _ | apply kept_ite | split)

theorem kept_startMboter {k s : State} (hk : Kept k s) (k' : Nat) : Kept k (startMboter k' s) := by
  unfold startMboter
  try simp only []
  repeat' (with_reducible first
    | assumption | apply kept_countBoot | apply kept_modLich | apply kept_modFw | apply kept_modDev
    | apply kept_startRecord | apply kept_timeStart | (apply kept_foldS; intro _ _ _)
    | (apply kept_foldP; intro _ _ _) | (apply kept_foldL; intro _ _ _) | simp only [kept_mk]
    | refine kept_fst (by assumption) ?_ | intro _ | apply kept_ite | split)

theorem kept_startPeat {k s : State} (hk : Kept k s) (ok : Bool) : Kept k (startPeat ok s) := by
  unfold startPeat
  try simp only []
  repeat' (with_reducible first
    | assumption | apply kept_peatInit | (apply kept_foldS; intro _ _ _) | (apply kept_foldP; intro _ _ _)
    | (apply kept_foldL; intro _ _ _) | simp only [kept_mk] | refine kept_fst (by assumption) ?_ | intro _
    | apply kept_ite | split)

theorem kept_tryStart {k s : State} (hk : Kept k s) (env : StartEnv) : Kept k (tryStart env s) := by
  unfold tryStart
  try simp only []
  repeat' (with_reducible first
    | assumption | apply kept_kinStart | apply kept_modSlot | apply kept_raise | apply kept_startMboter
    | apply kept_startId | apply kept_startPeat | (apply kept_foldS; intro _ _ _) | (apply kept_foldP; intro _ _ _)
    | (apply kept_foldL; intro _ _ _) | simp only [kept_mk] | refine kept_fst (by assumption) ?_ | intro _
    | apply kept_ite | split)

theorem kept_startClock {k s : State} (hk : Kept k s) (xtal : Bool) : Kept k (startClock xtal s) := by
  unfold startClock
  try simp only []
  repeat' (with_reducible first
    | assumption | apply kept_modTime | apply kept_stepTimeout | apply kept_refSwitch
    | (apply kept_foldS; intro _ _ _) | (apply kept_foldP; intro _ _ _) | (apply kept_foldL; intro _ _ _)
    | simp only [kept_mk] | refine kept_fst (by assumption) ?_ | intro _ | apply kept_ite | split)

theorem kept_otpLive {k s : State} (hk : Kept k s) (l : Fields) : Kept k { s with otp := { s.otp with live := l } } := hk

theorem kept_startRecords {k s : State} (hk : Kept k s) (env : StartEnv) : Kept k (startRecords env s) := by
  unfold startRecords
  try simp only []
  repeat' (with_reducible first
    | assumption | apply kept_restoreEvents | apply kept_lostRecord | (apply kept_foldS; intro _ _ _)
    | (apply kept_foldP; intro _ _ _) | (apply kept_foldL; intro _ _ _) | simp only [kept_mk]
    | refine kept_fst (by assumption) ?_ | intro _ | apply kept_ite | split)

theorem kept_startSteps {k s : State} (hk : Kept k s) (env : StartEnv) : Kept k (startSteps env s) := by
  unfold startSteps
  try simp only []
  repeat' (with_reducible first
    | assumption | apply kept_stepTimeout | apply kept_bankFails | apply kept_raise | (apply kept_foldS; intro _ _ _)
    | (apply kept_foldP; intro _ _ _) | (apply kept_foldL; intro _ _ _) | simp only [kept_mk]
    | refine kept_fst (by assumption) ?_ | intro _ | apply kept_ite | split)

theorem kept_coldStart {k s : State} (hk : Kept k s) (env : StartEnv) : Kept k (coldStart env s) := by
  have h0 : Kept k (startRecords env
      (modDev (fun d => { d with resetLow := false }) { s with otp := { s.otp with live := s.otp.fields } })) :=
    kept_startRecords (kept_modDev (kept_otpLive hk _) _) _
  unfold coldStart
  split
  · exact hk
  · simp only []
    split
    · exact kept_modPower h0 _
    · exact kept_tryStart (kept_startSteps (kept_startClock (kept_modPower h0 _) _) _) _

theorem kept_portReady {k s : State} (hk : Kept k s) (peat : Bool) (expired : Bool) (failed : List Nat) (p : Nat) : Kept k (portReady peat expired failed p s) := by
  unfold portReady
  try simp only []
  repeat' (with_reducible first
    | assumption | apply kept_emit | apply kept_modPort | apply kept_recoveryFails | apply kept_freeTree
    | apply kept_startCaps | apply kept_toUnattached | apply kept_openPaths | apply kept_releasePd
    | apply kept_portStart | (apply kept_foldS; intro _ _ _) | (apply kept_foldP; intro _ _ _)
    | (apply kept_foldL; intro _ _ _) | simp only [kept_mk] | refine kept_fst (by assumption) ?_ | intro _
    | apply kept_ite | split)

theorem kept_claimWaiting {k s : State} (hk : Kept k s) : Kept k (claimWaiting s) := by
  unfold claimWaiting
  try simp only []
  repeat' (with_reducible first
    | assumption | apply kept_claimGroup | (apply kept_foldS; intro _ _ _) | (apply kept_foldP; intro _ _ _)
    | (apply kept_foldL; intro _ _ _) | simp only [kept_mk] | refine kept_fst (by assumption) ?_ | intro _
    | apply kept_ite | split)

theorem kept_sendsReady {k s : State} (hk : Kept k s) : Kept k (sendsReady s) := by
  unfold sendsReady
  try simp only []
  repeat' (with_reducible first
    | assumption | apply kept_finishSend | apply kept_modObj | (apply kept_foldS; intro _ _ _)
    | (apply kept_foldP; intro _ _ _) | (apply kept_foldL; intro _ _ _) | simp only [kept_mk]
    | refine kept_fst (by assumption) ?_ | intro _ | apply kept_ite | split)

theorem kept_warmReady {k s : State} (hk : Kept k s) (w : Warm) : Kept k (warmReady w s) := by
  unfold warmReady
  try simp only []
  repeat' (with_reducible first
    | assumption | apply kept_claimWaiting | apply kept_sendsReady | apply kept_modDev | apply kept_modFw
    | apply kept_finishKey | apply kept_ledgerReady | apply kept_deliverWaiting | apply kept_finishOp
    | (apply kept_foldS; intro _ _ _) | (apply kept_foldP; intro _ _ _) | (apply kept_foldL; intro _ _ _)
    | simp only [kept_mk] | refine kept_fst (by assumption) ?_ | intro _ | apply kept_ite | split)

theorem kept_loadUcode {k s : State} (hk : Kept k s) : Kept k (loadUcode s) := by
  unfold loadUcode
  try simp only []
  repeat' (with_reducible first
    | assumption | apply kept_modEngine | (apply kept_foldS; intro _ _ _) | (apply kept_foldP; intro _ _ _)
    | (apply kept_foldL; intro _ _ _) | simp only [kept_mk] | refine kept_fst (by assumption) ?_ | intro _
    | apply kept_ite | split)

theorem kept_claimStored {k s : State} (hk : Kept k s) (peat : Bool) (expired : Bool) (failed : List Nat) : Kept k (claimStored peat expired failed s) := by
  unfold claimStored
  try simp only []
  repeat' (with_reducible first
    | assumption | apply kept_claimGroup | (apply kept_foldS; intro _ _ _) | (apply kept_foldP; intro _ _ _)
    | (apply kept_foldL; intro _ _ _) | simp only [kept_mk] | refine kept_fst (by assumption) ?_ | intro _
    | apply kept_ite | split)

theorem kept_startUnits {k s : State} (hk : Kept k s) (failed : List Nat) : Kept k (startUnits failed s) := by
  unfold startUnits
  try simp only []
  repeat' (with_reducible first
    | assumption | apply kept_modPeat | apply kept_stbAll | apply kept_gridStart | apply kept_modBoard
    | apply kept_portReady | apply kept_claimStored | apply kept_svcAttach | apply kept_trunksStart
    | (apply kept_foldS; intro _ _ _) | (apply kept_foldP; intro _ _ _) | (apply kept_foldL; intro _ _ _)
    | simp only [kept_mk] | refine kept_fst (by assumption) ?_ | intro _ | apply kept_ite | split)

theorem kept_mboterReady {k s : State} (hk : Kept k s) (failed : List Nat) : Kept k (mboterReady failed s) := by
  unfold mboterReady
  try simp only []
  repeat' (with_reducible first
    | assumption | apply kept_postHolds | apply kept_railsUp | apply kept_finishKey | apply kept_resumeTrees
    | apply kept_modPower | apply kept_deliverWaiting | apply kept_startUnits | apply kept_loadUcode
    | apply kept_modDev | apply kept_warmReady | apply kept_peatInit | apply kept_wakeDone | apply kept_wakeEngines
    | apply kept_cnOn | apply kept_tkOn | (apply kept_foldS; intro _ _ _) | (apply kept_foldP; intro _ _ _)
    | (apply kept_foldL; intro _ _ _) | simp only [kept_mk] | refine kept_fst (by assumption) ?_ | intro _
    | apply kept_ite | split)

theorem kept_startLate {k s : State} (hk : Kept k s) : Kept k (startLate s) := by
  unfold startLate
  try simp only []
  repeat' (with_reducible first
    | assumption | apply kept_failedStart | apply kept_stepTimeout | (apply kept_foldS; intro _ _ _)
    | (apply kept_foldP; intro _ _ _) | (apply kept_foldL; intro _ _ _) | simp only [kept_mk]
    | refine kept_fst (by assumption) ?_ | intro _ | apply kept_ite | split)

theorem kept_warmRestart {k s : State} (hk : Kept k s) (slot : Nat) (update : Bool) : Kept k (warmRestart slot update s) := by
  unfold warmRestart
  try simp only []
  repeat' (with_reducible first
    | assumption | apply kept_abandonMig | apply kept_modDev | (apply kept_foldS; intro _ _ _)
    | (apply kept_foldP; intro _ _ _) | (apply kept_foldL; intro _ _ _) | simp only [kept_mk]
    | refine kept_fst (by assumption) ?_ | intro _ | apply kept_ite | split)

theorem kept_warmLate {k s : State} (hk : Kept k s) : Kept k (warmLate s) := by
  unfold warmLate
  try simp only []
  repeat' (with_reducible first
    | assumption | apply kept_failedStart | apply kept_countBoot | apply kept_endTrial
    | (apply kept_foldS; intro _ _ _) | (apply kept_foldP; intro _ _ _) | (apply kept_foldL; intro _ _ _)
    | simp only [kept_mk] | refine kept_fst (by assumption) ?_ | intro _ | apply kept_ite | split)

theorem kept_endStage {k s : State} (hk : Kept k s) : Kept k (endStage s) := by
  unfold endStage
  try simp only []
  repeat' (with_reducible first
    | assumption | apply kept_finishOp | apply kept_cutFlash | (apply kept_foldS; intro _ _ _)
    | (apply kept_foldP; intro _ _ _) | (apply kept_foldL; intro _ _ _) | simp only [kept_mk]
    | refine kept_fst (by assumption) ?_ | intro _ | apply kept_ite | split)

theorem kept_actionL4 {k s : State} (hk : Kept k s) (src : Nat) : Kept k (actionL4 src s) := by
  unfold actionL4
  try simp only []
  repeat' (with_reducible first
    | assumption | apply kept_modDev | apply kept_countBoot | apply kept_enterKindling | apply kept_ashRecord
    | apply kept_warmRestart | apply kept_endTrial | apply kept_endStage | apply kept_failedStart
    | apply kept_startLate | (apply kept_foldS; intro _ _ _) | (apply kept_foldP; intro _ _ _)
    | (apply kept_foldL; intro _ _ _) | simp only [kept_mk] | refine kept_fst (by assumption) ?_ | intro _
    | apply kept_ite | split)

theorem kept_actionL5 {k s : State} (hk : Kept k s) (src : Nat) : Kept k (actionL5 src s) := by
  unfold actionL5
  try simp only []
  repeat' (with_reducible first
    | assumption | apply kept_enterKindling | apply kept_ashRecord | apply kept_failedStart | apply kept_startLate
    | (apply kept_foldS; intro _ _ _) | (apply kept_foldP; intro _ _ _) | (apply kept_foldL; intro _ _ _)
    | simp only [kept_mk] | refine kept_fst (by assumption) ?_ | intro _ | apply kept_ite | split)

theorem kept_bootCleared {k s : State} (hk : Kept k s) : Kept k (bootCleared s) := by
  unfold bootCleared
  try simp only []
  repeat' (with_reducible first
    | assumption | apply kept_modLich | (apply kept_foldS; intro _ _ _) | (apply kept_foldP; intro _ _ _)
    | (apply kept_foldL; intro _ _ _) | simp only [kept_mk] | refine kept_fst (by assumption) ?_ | intro _
    | apply kept_ite | split)

theorem kept_longReset {k s : State} (hk : Kept k s) : Kept k (longReset s) := by
  unfold longReset
  try simp only []
  repeat' (with_reducible first
    | assumption | apply kept_modLich | (apply kept_foldS; intro _ _ _) | (apply kept_foldP; intro _ _ _)
    | (apply kept_foldL; intro _ _ _) | simp only [kept_mk] | refine kept_fst (by assumption) ?_ | intro _
    | apply kept_ite | split)

theorem kept_fromNothing {k s : State} (hk : Kept k s) (phase : Phase) : Kept k (fromNothing phase s) := by
  unfold fromNothing
  try simp only []
  repeat' (with_reducible first
    | assumption | apply kept_reset | (apply kept_foldS; intro _ _ _) | (apply kept_foldP; intro _ _ _)
    | (apply kept_foldL; intro _ _ _) | simp only [kept_mk] | refine kept_fst (by assumption) ?_ | intro _
    | apply kept_ite | split)

theorem kept_powerOn {k s : State} (hk : Kept k s) : Kept k (powerOn s) := by
  unfold powerOn
  try simp only []
  repeat' (with_reducible first
    | assumption | apply kept_emit | apply kept_fromNothing | (apply kept_foldS; intro _ _ _)
    | (apply kept_foldP; intro _ _ _) | (apply kept_foldL; intro _ _ _) | simp only [kept_mk]
    | refine kept_fst (by assumption) ?_ | intro _ | apply kept_ite | split)

theorem otpAfter_trans {a b c : Otp} (h : Safety.otpAfter a b) (g : Safety.otpAfter b c) : Safety.otpAfter a c :=
  ⟨Nat.le_trans h.1 g.1, fun f v e => g.2 f v (h.2 f v e)⟩

/-- A step that changes OTP itself. -/
theorem kept_otp {k s : State} (hk : Kept k s) {o : Otp} (ha : Safety.otpAfter s.otp o) (hl : Safety.otpLegal o = true) :
    Kept k { s with otp := o } :=
  ⟨hk.1, hk.2.1, otpAfter_trans hk.2.2.1 ha, hk.2.2.2.1, hk.2.2.2.2.1, hl⟩

theorem otp_le {k s : State} (hk : Kept k s) : s.otp.lifeCycle ≤ 3 := by
  have h := hk.2.2.2.2.2
  unfold Safety.otpLegal at h
  simp only [Bool.and_eq_true, decide_eq_true_eq] at h
  exact h.1

/-- A provisioning write keeps every written field. -/
theorem provisioned_write {f : Fields} {n : Nat} (hn : f.written n = false) (v : Word) {k x : Nat}
    (h : Safety.provisioned f k = some x) : Safety.provisioned (f.write n v) k = some x := by
  unfold Fields.write
  split <;> try exact h
  all_goals
    simp only [Fields.written] at hn
    unfold Safety.provisioned at h ⊢
    split at h <;> simp_all

theorem kept_cutOtp {k s : State} (hk : Kept k s) : Kept k (cutOtp s) := by
  have hl := hk.2.2.2.2.2
  have hn : Safety.otpLegal { s.otp with writing := none } = true := by simp [Safety.otpLegal, otp_le hk]
  unfold cutOtp
  split
  · exact hk
  · rename_i w hw
    have ht : Kept k (useFree { s with otp := { s.otp with writing := none } }) :=
      kept_useFree (kept_otp hk ⟨Nat.le_refl _, fun _ _ e => e⟩ hn)
    simp only []
    split
    · exact ht
    · split
      · rename_i f v
        refine kept_otp ht ⟨Nat.le_refl _, fun n x e => provisioned_write ?_ v e⟩ ?_
        · simpa [Safety.otpLegal, hw, otp_le hk, useFree] using hl
        · simp [Safety.otpLegal, otp_le hk, useFree]
      · rename_i l
        have h2 : s.otp.lifeCycle < l ∧ l ≤ 3 := by simpa [Safety.otpLegal, hw, otp_le hk] using hl
        refine kept_otp ht ⟨?_, fun _ _ e => e⟩ ?_
        · exact Nat.le_of_lt h2.1
        · simp [Safety.otpLegal, h2.2, useFree]

theorem kept_sourcesLost {k s : State} (hk : Kept k s) : Kept k (sourcesLost s) := by
  unfold sourcesLost
  try simp only []
  repeat' (with_reducible first
    | assumption | apply kept_cutOtp | apply kept_fromNothing | apply kept_cutFlash | (apply kept_foldS; intro _ _ _)
    | (apply kept_foldP; intro _ _ _) | (apply kept_foldL; intro _ _ _) | simp only [kept_mk]
    | refine kept_fst (by assumption) ?_ | intro _ | apply kept_ite | split)

theorem kept_devWarmRestartCmd  : SpecKept devWarmRestartCmd := by
  intro k x s hk
  simp only [devWarmRestartCmd]
  repeat' (with_reducible first
    | assumption | apply kept_warmRestart | (apply kept_foldS; intro _ _ _) | (apply kept_foldP; intro _ _ _)
    | (apply kept_foldL; intro _ _ _) | simp only [kept_mk] | refine kept_fst (by assumption) ?_ | intro _
    | apply kept_ite | split)

theorem kept_fwStageCmd  : SpecKept fwStageCmd := by
  intro k x s hk
  simp only [fwStageCmd]
  repeat' (with_reducible first
    | assumption | apply kept_modFw | apply kept_modSlot | (apply kept_foldS; intro _ _ _)
    | (apply kept_foldP; intro _ _ _) | (apply kept_foldL; intro _ _ _) | simp only [kept_mk]
    | refine kept_fst (by assumption) ?_ | intro _ | apply kept_ite | split)

theorem kept_eraseEnds {k s : State} (hk : Kept k s) (inTime : Bool) : Kept k (eraseEnds inTime s) := by
  unfold eraseEnds
  try simp only []
  repeat' (with_reducible first
    | assumption | apply kept_modFw | apply kept_finishOp | apply kept_modSlot | (apply kept_foldS; intro _ _ _)
    | (apply kept_foldP; intro _ _ _) | (apply kept_foldL; intro _ _ _) | simp only [kept_mk]
    | refine kept_fst (by assumption) ?_ | intro _ | apply kept_ite | split)

theorem kept_verifyEnds {k s : State} (hk : Kept k s) (r : VerifyEnd) (version : Word) (ucode : Word) (compat : Word) : Kept k (verifyEnds r version ucode compat s) := by
  unfold verifyEnds
  try simp only []
  repeat' (with_reducible first
    | assumption | apply kept_modSlot | apply kept_modFw | apply kept_finishOp | (apply kept_foldS; intro _ _ _)
    | (apply kept_foldP; intro _ _ _) | (apply kept_foldL; intro _ _ _) | simp only [kept_mk]
    | refine kept_fst (by assumption) ?_ | intro _ | apply kept_ite | split)

theorem kept_updateNext {k s : State} (hk : Kept k s) : Kept k (updateNext s) := by
  unfold updateNext
  try simp only []
  repeat' (with_reducible first
    | assumption | apply kept_modEngine | apply kept_modFw | apply kept_abortOp | apply kept_askTest
    | apply kept_finishOp | (apply kept_foldS; intro _ _ _) | (apply kept_foldP; intro _ _ _)
    | (apply kept_foldL; intro _ _ _) | simp only [kept_mk] | refine kept_fst (by assumption) ?_ | intro _
    | apply kept_ite | split)

theorem kept_fwActivateCmd  : SpecKept fwActivateCmd := by
  intro k x s hk
  simp only [fwActivateCmd]
  repeat' (with_reducible first
    | assumption | apply kept_modFw | apply kept_tryOut | apply kept_modLich | apply kept_warmRestart
    | (apply kept_foldS; intro _ _ _) | (apply kept_foldP; intro _ _ _) | (apply kept_foldL; intro _ _ _)
    | simp only [kept_mk] | refine kept_fst (by assumption) ?_ | intro _ | apply kept_ite | split)

theorem kept_fwStatusCmd  : SpecKept fwStatusCmd := by
  intro k x s hk
  simp only [fwStatusCmd]
  repeat' (with_reducible first
    | assumption | (apply kept_foldS; intro _ _ _) | (apply kept_foldP; intro _ _ _)
    | (apply kept_foldL; intro _ _ _) | simp only [kept_mk] | refine kept_fst (by assumption) ?_ | intro _
    | apply kept_ite | split)

theorem kept_zeroise {k s : State} (hk : Kept k s) : Kept k (zeroise s) := by
  unfold zeroise
  try simp only []
  repeat' (with_reducible first
    | assumption | (apply kept_foldS; intro _ _ _) | (apply kept_foldP; intro _ _ _)
    | (apply kept_foldL; intro _ _ _) | simp only [kept_mk] | refine kept_fst (by assumption) ?_ | intro _
    | apply kept_ite | split)

theorem kept_secLifecycleCmd : SpecKept secLifecycleCmd := by
  intro k x s hk
  simp only [secLifecycleCmd]
  split
  · exact hk
  · split
    · exact hk
    · rename_i hw hm
      refine kept_otp hk ⟨Nat.le_refl _, fun _ _ e => e⟩ ?_
      have := otp_le hk
      unfold Safety.otpLegal
      simp only [State.mayMove, Bool.not_eq_true', Bool.not_eq_false, Bool.or_eq_true, Bool.and_eq_true, beq_iff_eq,
        decide_eq_true_eq, bne_iff_ne, ne_eq] at hm ⊢
      omega

theorem kept_secProvisionCmd : SpecKept secProvisionCmd := by
  intro k x s hk
  simp only [secProvisionCmd]
  split
  · exact hk
  · rename_i hw
    refine kept_otp hk ⟨Nat.le_refl _, fun _ _ e => e⟩ ?_
    have := otp_le hk
    unfold Safety.otpLegal
    simp only [Bool.or_eq_true, not_or, Bool.not_eq_true] at hw
    simp [this, hw.1.1.1]

theorem kept_otpWritten {k s : State} (hk : Kept k s) : Kept k (otpWritten s) := by
  have hl := hk.2.2.2.2.2
  unfold otpWritten
  split
  · exact hk
  · rename_i f v hw
    refine kept_finishKey (kept_otp hk ?_ ?_) _ _ _
    · refine ⟨Nat.le_refl _, fun n x e => provisioned_write ?_ v e⟩
      simpa [Safety.otpLegal, hw, otp_le hk] using hl
    · simp [Safety.otpLegal, otp_le hk]
  · rename_i t hw
    have ht : s.otp.lifeCycle < t ∧ t ≤ 3 := by simpa [Safety.otpLegal, hw, otp_le hk] using hl
    refine kept_finishKey (kept_zeroise (kept_otp hk ?_ ?_)) _ _ _
    · exact ⟨Nat.le_of_lt ht.1, fun _ _ e => e⟩
    · simp [Safety.otpLegal, ht.2]

theorem kept_secKeyCmd  : SpecKept secKeyCmd := by
  intro k x s hk
  simp only [secKeyCmd]
  repeat' (with_reducible first
    | assumption | (apply kept_foldS; intro _ _ _) | (apply kept_foldP; intro _ _ _)
    | (apply kept_foldL; intro _ _ _) | simp only [kept_mk] | refine kept_fst (by assumption) ?_ | intro _
    | apply kept_ite | split)

theorem kept_tamper {k s : State} (hk : Kept k s) : Kept k (tamper s) := by
  unfold tamper
  try simp only []
  repeat' (with_reducible first
    | assumption | apply kept_raise | apply kept_setSqc | apply kept_zeroise | (apply kept_foldS; intro _ _ _)
    | (apply kept_foldP; intro _ _ _) | (apply kept_foldL; intro _ _ _) | simp only [kept_mk]
    | refine kept_fst (by assumption) ?_ | intro _ | apply kept_ite | split)

theorem kept_tamperEnds {k s : State} (hk : Kept k s) : Kept k (tamperEnds s) := by
  unfold tamperEnds
  try simp only []
  repeat' (with_reducible first
    | assumption | apply kept_clearFlt | (apply kept_foldS; intro _ _ _) | (apply kept_foldP; intro _ _ _)
    | (apply kept_foldL; intro _ _ _) | simp only [kept_mk] | refine kept_fst (by assumption) ?_ | intro _
    | apply kept_ite | split)

theorem kept_readBack {k s : State} (hk : Kept k s) (zero : Bool) : Kept k (readBack zero s) := by
  unfold readBack
  try simp only []
  repeat' (with_reducible first
    | assumption | apply kept_setSqc | apply kept_zeroise | (apply kept_foldS; intro _ _ _)
    | (apply kept_foldP; intro _ _ _) | (apply kept_foldL; intro _ _ _) | simp only [kept_mk]
    | refine kept_fst (by assumption) ?_ | intro _ | apply kept_ite | split)

end Sys2Proof.Machine
end

