-- ==== Sys2Proof/Laws/KeptFaults.lean ====
section
/-!
SUPPORT. `Kept` (Laws/Kept.lean) for the fault collector, the end of every command and the command table.
-/
set_option linter.all false
namespace Sys2Proof.Machine

theorem kept_followMarks {k s : State} (hk : Kept k s) (old : State) : Kept k (followMarks old s) := by
  unfold followMarks
  try simp only []
  repeat' (with_reducible first
    | assumption | apply kept_bumpSeq | (apply kept_foldS; intro _ _ _) | (apply kept_foldP; intro _ _ _)
    | (apply kept_foldL; intro _ _ _) | simp only [kept_mk] | refine kept_fst (by assumption) ?_ | intro _
    | apply kept_ite | split)

theorem kept_fltEvent {k s : State} (hk : Kept k s) (code : Nat) (src : Nat) (sub : Nat) : Kept k (fltEvent code src sub s) := by
  unfold fltEvent
  try simp only []
  repeat' (with_reducible first
    | assumption | apply kept_post | (apply kept_foldS; intro _ _ _) | (apply kept_foldP; intro _ _ _)
    | (apply kept_foldL; intro _ _ _) | simp only [kept_mk] | refine kept_fst (by assumption) ?_ | intro _
    | apply kept_ite | split)

theorem kept_ashFault {k s : State} (hk : Kept k s) (kind : Nat) (src : Nat) (sub : Nat) : Kept k (ashFault kind src sub s) := by
  unfold ashFault
  try simp only []
  repeat' (with_reducible first
    | assumption | apply kept_ashPut | (apply kept_foldS; intro _ _ _) | (apply kept_foldP; intro _ _ _)
    | (apply kept_foldL; intro _ _ _) | simp only [kept_mk] | refine kept_fst (by assumption) ?_ | intro _
    | apply kept_ite | split)

theorem kept_raisedEvent {k s : State} (hk : Kept k s) (first : Bool) (src : Nat) (sub : Nat) : Kept k (raisedEvent first src sub s) := by
  unfold raisedEvent
  try simp only []
  repeat' (with_reducible first
    | assumption | apply kept_modFlt | apply kept_fltEvent | (apply kept_foldS; intro _ _ _)
    | (apply kept_foldP; intro _ _ _) | (apply kept_foldL; intro _ _ _) | simp only [kept_mk]
    | refine kept_fst (by assumption) ?_ | intro _ | apply kept_ite | split)

theorem kept_repeatEnds {k s : State} (hk : Kept k s) (src : Nat) : Kept k (repeatEnds src s) := by
  unfold repeatEnds
  try simp only []
  repeat' (with_reducible first
    | assumption | apply kept_fltEvent | apply kept_modFlt | (apply kept_foldS; intro _ _ _)
    | (apply kept_foldP; intro _ _ _) | (apply kept_foldL; intro _ _ _) | simp only [kept_mk]
    | refine kept_fst (by assumption) ?_ | intro _ | apply kept_ite | split)

theorem kept_testCut {k s : State} (hk : Kept k s) (t : Test) : Kept k (testCut t s) := by
  unfold testCut
  try simp only []
  repeat' (with_reducible first
    | assumption | apply kept_finishOp | (apply kept_foldS; intro _ _ _) | (apply kept_foldP; intro _ _ _)
    | (apply kept_foldL; intro _ _ _) | simp only [kept_mk] | refine kept_fst (by assumption) ?_ | intro _
    | apply kept_ite | split)

theorem kept_dropTest {k s : State} (hk : Kept k s) (u : TUnit) : Kept k (dropTest u s) := by
  unfold dropTest
  try simp only []
  repeat' (with_reducible first
    | assumption | apply kept_testCut | apply kept_finishOp | (apply kept_foldS; intro _ _ _)
    | (apply kept_foldP; intro _ _ _) | (apply kept_foldL; intro _ _ _) | simp only [kept_mk]
    | refine kept_fst (by assumption) ?_ | intro _ | apply kept_ite | split)

theorem kept_isolateUnit {k s : State} (hk : Kept k s) (src : Nat) : Kept k (isolateUnit src s) := by
  unfold isolateUnit
  try simp only []
  repeat' (with_reducible first
    | assumption | apply kept_latchOff | apply kept_takeoverAll | apply kept_changeEngine | apply kept_dropTest
    | apply kept_pgOff | apply kept_cnOff | apply kept_tkOff | apply kept_portLost | apply kept_modPbank
    | apply kept_modCbank | apply kept_driveStb | apply kept_modCan | apply kept_canOff | apply kept_modTrunk
    | apply kept_trunkOff | apply kept_modFeed | apply kept_setFeedSt | apply kept_modLedger
    | (apply kept_foldS; intro _ _ _) | (apply kept_foldP; intro _ _ _) | (apply kept_foldL; intro _ _ _)
    | simp only [kept_mk] | refine kept_fst (by assumption) ?_ | intro _ | apply kept_ite | split)

theorem kept_actionL3 {k s : State} (hk : Kept k s) (src : Nat) (sub : Nat) : Kept k (actionL3 src sub s) := by
  unfold actionL3
  try simp only []
  repeat' (with_reducible first
    | assumption | apply kept_ashRecord | apply kept_isolateUnit | apply kept_modFlt
    | (apply kept_foldS; intro _ _ _) | (apply kept_foldP; intro _ _ _) | (apply kept_foldL; intro _ _ _)
    | simp only [kept_mk] | refine kept_fst (by assumption) ?_ | intro _ | apply kept_ite | split)

theorem kept_actLow {k s : State} (hk : Kept k s) (src : Nat) (sub : Nat) (lvl : Nat) (floor : Nat) : Kept k (actLow src sub lvl floor s) := by
  unfold actLow
  try simp only []
  repeat' (with_reducible first
    | assumption | apply kept_actionL3 | apply kept_replan | apply kept_wakeTrigger
    | (apply kept_foldS; intro _ _ _) | (apply kept_foldP; intro _ _ _) | (apply kept_foldL; intro _ _ _)
    | simp only [kept_mk] | refine kept_fst (by assumption) ?_ | intro _ | apply kept_ite | split)

theorem kept_actHigh {k s : State} (hk : Kept k s) (src : Nat) (lvl : Nat) (floor : Nat) : Kept k (actHigh src lvl floor s) := by
  unfold actHigh
  try simp only []
  repeat' (with_reducible first
    | assumption | apply kept_actionL5 | apply kept_actionL4 | (apply kept_foldS; intro _ _ _)
    | (apply kept_foldP; intro _ _ _) | (apply kept_foldL; intro _ _ _) | simp only [kept_mk]
    | refine kept_fst (by assumption) ?_ | intro _ | apply kept_ite | split)

theorem kept_occur {k s : State} (hk : Kept k s) (src : Nat) (sub : Nat) (b : Nat) (detail : Word) (injected : Bool) : Kept k (occur src sub b detail injected s) := by
  unfold occur
  try simp only []
  repeat' (with_reducible first
    | assumption | apply kept_setFlt | apply kept_ashPut | apply kept_ashFault | apply kept_bumpSeq
    | apply kept_setSqc | apply kept_raisedEvent | apply kept_actLow | apply kept_actHigh
    | (apply kept_foldS; intro _ _ _) | (apply kept_foldP; intro _ _ _) | (apply kept_foldL; intro _ _ _)
    | simp only [kept_mk] | refine kept_fst (by assumption) ?_ | intro _ | apply kept_ite | split)

theorem kept_endActive {k s : State} (hk : Kept k s) (src : Nat) (sub : Nat) : Kept k (endActive src sub s) := by
  unfold endActive
  try simp only []
  repeat' (with_reducible first
    | assumption | apply kept_setFlt | apply kept_fltEvent | apply kept_ashFault | (apply kept_foldS; intro _ _ _)
    | (apply kept_foldP; intro _ _ _) | (apply kept_foldL; intro _ _ _) | simp only [kept_mk]
    | refine kept_fst (by assumption) ?_ | intro _ | apply kept_ite | split)

theorem kept_endConditions {k s : State} (hk : Kept k s) : Kept k (endConditions s) := by
  unfold endConditions
  try simp only []
  repeat' (with_reducible first
    | assumption | apply kept_endActive | (apply kept_foldS; intro _ _ _) | (apply kept_foldP; intro _ _ _)
    | (apply kept_foldL; intro _ _ _) | simp only [kept_mk] | refine kept_fst (by assumption) ?_ | intro _
    | apply kept_ite | split)

theorem kept_takeFlt {k s : State} (hk : Kept k s) (x : FltIn) : Kept k (takeFlt x s) := by
  unfold takeFlt
  try simp only []
  repeat' (with_reducible first
    | assumption | apply kept_modFlt | apply kept_occur | apply kept_endActive | (apply kept_foldS; intro _ _ _)
    | (apply kept_foldP; intro _ _ _) | (apply kept_foldL; intro _ _ _) | simp only [kept_mk]
    | refine kept_fst (by assumption) ?_ | intro _ | apply kept_ite | split)

theorem kept_collectRounds {k s : State} (hk : Kept k s) (x1 : Nat) : Kept k (collectRounds x1 s) := by
  induction x1 generalizing s with
  | zero =>
    unfold collectRounds
    try simp only []
    repeat' (with_reducible first
      | assumption | apply kept_takeFlt | (apply kept_foldS; intro _ _ _)
      | (apply kept_foldP; intro _ _ _) | (apply kept_foldL; intro _ _ _) | simp only [kept_mk]
      | refine kept_fst (by assumption) ?_ | intro _ | apply kept_ite | split)
  | succ n ih =>
    unfold collectRounds
    try simp only []
    repeat' (with_reducible first
      | assumption | apply ih | apply kept_takeFlt | (apply kept_foldS; intro _ _ _)
      | (apply kept_foldP; intro _ _ _) | (apply kept_foldL; intro _ _ _) | simp only [kept_mk]
      | refine kept_fst (by assumption) ?_ | intro _ | apply kept_ite | split)

theorem kept_silent {k s : State} (hk : Kept k s) (x : FltIn) : Kept k (silent x s) := by
  unfold silent
  try simp only []
  repeat' (with_reducible first
    | assumption | apply kept_ashPut | (apply kept_foldS; intro _ _ _) | (apply kept_foldP; intro _ _ _)
    | (apply kept_foldL; intro _ _ _) | simp only [kept_mk] | refine kept_fst (by assumption) ?_ | intro _
    | apply kept_ite | split)

theorem kept_collect {k s : State} (hk : Kept k s) : Kept k (collect s) := by
  unfold collect
  try simp only []
  repeat' (with_reducible first
    | assumption | apply kept_silent | apply kept_followMarks | apply kept_endConditions | apply kept_collectRounds
    | (apply kept_foldS; intro _ _ _) | (apply kept_foldP; intro _ _ _) | (apply kept_foldL; intro _ _ _)
    | simp only [kept_mk] | refine kept_fst (by assumption) ?_ | intro _ | apply kept_ite | split)

theorem kept_unmark {k s : State} (hk : Kept k s) (src : Nat) : Kept k (unmark src s) := by
  unfold unmark
  try simp only []
  repeat' (with_reducible first
    | assumption | apply kept_endActive | apply kept_modFlt | (apply kept_foldS; intro _ _ _)
    | (apply kept_foldP; intro _ _ _) | (apply kept_foldL; intro _ _ _) | simp only [kept_mk]
    | refine kept_fst (by assumption) ?_ | intro _ | apply kept_ite | split)

theorem kept_returnUnit {k s : State} (hk : Kept k s) (src : Nat) : Kept k (returnUnit src s) := by
  unfold returnUnit
  try simp only []
  repeat' (with_reducible first
    | assumption | apply kept_driveStb | apply kept_measure | apply kept_unmark | apply kept_pathEvent
    | apply kept_modPort | apply kept_cnOn | apply kept_tkOn | apply kept_modCan | apply kept_canStart
    | apply kept_modTrunk | apply kept_trunkOn | apply kept_setFeedSt | apply kept_modFeed | apply kept_tryFeed
    | apply kept_modLedger | (apply kept_foldS; intro _ _ _) | (apply kept_foldP; intro _ _ _)
    | (apply kept_foldL; intro _ _ _) | simp only [kept_mk] | refine kept_fst (by assumption) ?_ | intro _
    | apply kept_ite | split)

theorem kept_ackFlt {k s : State} (hk : Kept k s) (src : Nat) (ret : Bool) : Kept k (ackFlt src ret s).1 := by
  unfold ackFlt
  try simp only []
  repeat' (with_reducible first
    | assumption | apply kept_fltEvent | apply kept_ashFault | apply kept_setFlt | apply kept_followMarks
    | apply kept_askTest | apply kept_returnUnit | (apply kept_foldS; intro _ _ _)
    | (apply kept_foldP; intro _ _ _) | (apply kept_foldL; intro _ _ _) | simp only [kept_mk]
    | refine kept_fst (by assumption) ?_ | intro _ | apply kept_ite | split)

theorem kept_ackReplies {k s : State} (hk : Kept k s) (src : Nat) : Kept k (ackReplies src s) := by
  unfold ackReplies
  try simp only []
  repeat' (with_reducible first
    | assumption | apply kept_endAborter | (apply kept_foldS; intro _ _ _) | (apply kept_foldP; intro _ _ _)
    | (apply kept_foldL; intro _ _ _) | simp only [kept_mk] | refine kept_fst (by assumption) ?_ | intro _
    | apply kept_ite | split)

theorem kept_fltAckCmd  : SpecKept fltAckCmd := by
  intro k x s hk
  simp only [fltAckCmd]
  repeat' (with_reducible first
    | assumption | apply kept_ackFlt | (apply kept_foldS; intro _ _ _) | (apply kept_foldP; intro _ _ _)
    | (apply kept_foldL; intro _ _ _) | simp only [kept_mk] | refine kept_fst (by assumption) ?_ | intro _
    | apply kept_ite | split)

theorem kept_injectPulse {k s : State} (hk : Kept k s) (src : Nat) : Kept k (injectPulse src s) := by
  unfold injectPulse
  try simp only []
  repeat' (with_reducible first
    | assumption | (apply kept_foldS; intro _ _ _) | (apply kept_foldP; intro _ _ _)
    | (apply kept_foldL; intro _ _ _) | simp only [kept_mk] | refine kept_fst (by assumption) ?_ | intro _
    | apply kept_ite | split)

theorem kept_injectHold {k s : State} (hk : Kept k s) (src : Nat) : Kept k (injectHold src s) := by
  unfold injectHold
  try simp only []
  repeat' (with_reducible first
    | assumption | apply kept_injectPulse | apply kept_modFlt | (apply kept_foldS; intro _ _ _)
    | (apply kept_foldP; intro _ _ _) | (apply kept_foldL; intro _ _ _) | simp only [kept_mk]
    | refine kept_fst (by assumption) ?_ | intro _ | apply kept_ite | split)

theorem kept_releaseHold {k s : State} (hk : Kept k s) (src : Nat) : Kept k (releaseHold src s) := by
  unfold releaseHold
  try simp only []
  repeat' (with_reducible first
    | assumption | apply kept_modFlt | apply kept_endActive | (apply kept_foldS; intro _ _ _)
    | (apply kept_foldP; intro _ _ _) | (apply kept_foldL; intro _ _ _) | simp only [kept_mk]
    | refine kept_fst (by assumption) ?_ | intro _ | apply kept_ite | split)

theorem kept_fltForceCmd  : SpecKept fltForceCmd := by
  intro k x s hk
  simp only [fltForceCmd]
  repeat' (with_reducible first
    | assumption | apply kept_releaseHold | apply kept_injectPulse | apply kept_injectHold
    | (apply kept_foldS; intro _ _ _) | (apply kept_foldP; intro _ _ _) | (apply kept_foldL; intro _ _ _)
    | simp only [kept_mk] | refine kept_fst (by assumption) ?_ | intro _ | apply kept_ite | split)

theorem kept_writeForce {k s : State} (hk : Kept k s) (k' : Nat) (v : Word) : Kept k (writeForce k' v s) := by
  unfold writeForce
  try simp only []
  repeat' (with_reducible first
    | assumption | apply kept_releaseHold | apply kept_injectHold | (apply kept_foldS; intro _ _ _)
    | (apply kept_foldP; intro _ _ _) | (apply kept_foldL; intro _ _ _) | simp only [kept_mk]
    | refine kept_fst (by assumption) ?_ | intro _ | apply kept_ite | split)

theorem kept_fltReadCmd  : SpecKept fltReadCmd := by
  intro k x s hk
  simp only [fltReadCmd]
  repeat' (with_reducible first
    | assumption | (apply kept_foldS; intro _ _ _) | (apply kept_foldP; intro _ _ _)
    | (apply kept_foldL; intro _ _ _) | simp only [kept_mk] | refine kept_fst (by assumption) ?_ | intro _
    | apply kept_ite | split)

theorem kept_ashReadCmd  : SpecKept ashReadCmd := by
  intro k x s hk
  simp only [ashReadCmd]
  repeat' (with_reducible first
    | assumption | (apply kept_foldS; intro _ _ _) | (apply kept_foldP; intro _ _ _)
    | (apply kept_foldL; intro _ _ _) | simp only [kept_mk] | refine kept_fst (by assumption) ?_ | intro _
    | apply kept_ite | split)

theorem kept_ashDrain {k s : State} (hk : Kept k s) : Kept k (ashDrain s) := by
  unfold ashDrain
  try simp only []
  repeat' (with_reducible first
    | assumption | apply kept_modLich | apply kept_modPeat | (apply kept_foldS; intro _ _ _)
    | (apply kept_foldP; intro _ _ _) | (apply kept_foldL; intro _ _ _) | simp only [kept_mk]
    | refine kept_fst (by assumption) ?_ | intro _ | apply kept_ite | split)

theorem kept_noteTest {k s : State} (hk : Kept k s) (u : TUnit) (fails : Bool) : Kept k (noteTest u fails s) := by
  unfold noteTest
  try simp only []
  repeat' (with_reducible first
    | assumption | apply kept_modEngine | apply kept_modPbank | apply kept_modCbank
    | (apply kept_foldS; intro _ _ _) | (apply kept_foldP; intro _ _ _) | (apply kept_foldL; intro _ _ _)
    | simp only [kept_mk] | refine kept_fst (by assumption) ?_ | intro _ | apply kept_ite | split)

theorem kept_evacDone {k s : State} (hk : Kept k s) (t' : Test) : Kept k (evacDone t' s) := by
  unfold evacDone
  try simp only []
  repeat' (with_reducible first
    | assumption | apply kept_stokEvent | (apply kept_foldS; intro _ _ _) | (apply kept_foldP; intro _ _ _)
    | (apply kept_foldL; intro _ _ _) | simp only [kept_mk] | refine kept_fst (by assumption) ?_ | intro _
    | apply kept_ite | split)

theorem kept_takeUcode {k s : State} (hk : Kept k s) (u : TUnit) : Kept k (takeUcode u s) := by
  unfold takeUcode
  try simp only []
  repeat' (with_reducible first
    | assumption | apply kept_modEngine | (apply kept_foldS; intro _ _ _) | (apply kept_foldP; intro _ _ _)
    | (apply kept_foldL; intro _ _ _) | simp only [kept_mk] | refine kept_fst (by assumption) ?_ | intro _
    | apply kept_ite | split)

theorem kept_testPasses {k s : State} (hk : Kept k s) (t' : Test) (us : Nat) : Kept k (testPasses t' us s) := by
  unfold testPasses
  try simp only []
  repeat' (with_reducible first
    | assumption | apply kept_evacDone | apply kept_unitBack | apply kept_noteTest | apply kept_finishOp
    | apply kept_modFw | apply kept_takeUcode | apply kept_ackReplies | apply kept_unmark
    | apply kept_replaceUnplaced | apply kept_endTest | (apply kept_foldS; intro _ _ _)
    | (apply kept_foldP; intro _ _ _) | (apply kept_foldL; intro _ _ _) | simp only [kept_mk]
    | refine kept_fst (by assumption) ?_ | intro _ | apply kept_ite | split)

theorem kept_testFails {k s : State} (hk : Kept k s) (t' : Test) (us : Nat) (sub : Nat) : Kept k (testFails t' us sub s) := by
  unfold testFails
  try simp only []
  repeat' (with_reducible first
    | assumption | apply kept_evacDone | apply kept_noteTest | apply kept_takeoverAll | apply kept_changeEngine
    | apply kept_modPbank | apply kept_modCbank | apply kept_raise | apply kept_finishOp | apply kept_ackReplies
    | apply kept_collect | apply kept_endTest | (apply kept_foldS; intro _ _ _) | (apply kept_foldP; intro _ _ _)
    | (apply kept_foldL; intro _ _ _) | simp only [kept_mk] | refine kept_fst (by assumption) ?_ | intro _
    | apply kept_ite | split)

theorem kept_testColumn {k s : State} (hk : Kept k s) (t' : Test) (us : Nat) (col : Nat) (repeatPasses : Bool) : Kept k (testColumn t' us col repeatPasses s) := by
  unfold testColumn
  try simp only []
  repeat' (with_reducible first
    | assumption | apply kept_testFails | apply kept_setSqc | apply kept_modLich | apply kept_testPasses
    | (apply kept_foldS; intro _ _ _) | (apply kept_foldP; intro _ _ _) | (apply kept_foldL; intro _ _ _)
    | simp only [kept_mk] | refine kept_fst (by assumption) ?_ | intro _ | apply kept_ite | split)

theorem kept_calEnds {k s : State} (hk : Kept k s) (trims : Option (BitVec 8 × BitVec 8)) : Kept k (calEnds trims s) := by
  unfold calEnds
  try simp only []
  repeat' (with_reducible first
    | assumption | apply kept_modPort | apply kept_raise | apply kept_setSqc | apply kept_abortOp
    | apply kept_calAfter | apply kept_calNext | (apply kept_foldS; intro _ _ _) | (apply kept_foldP; intro _ _ _)
    | (apply kept_foldL; intro _ _ _) | simp only [kept_mk] | refine kept_fst (by assumption) ?_ | intro _
    | apply kept_ite | split)

theorem kept_testEnds {k s : State} (hk : Kept k s) (r : TestEnd) : Kept k (testEnds r s) := by
  unfold testEnds
  try simp only []
  repeat' (with_reducible first
    | assumption | apply kept_calEnds | apply kept_testPasses | apply kept_testFails | apply kept_testColumn
    | (apply kept_foldS; intro _ _ _) | (apply kept_foldP; intro _ _ _) | (apply kept_foldL; intro _ _ _)
    | simp only [kept_mk] | refine kept_fst (by assumption) ?_ | intro _ | apply kept_ite | split)

theorem kept_followLoads {k s : State} (hk : Kept k s) : Kept k (followLoads s) := by
  unfold followLoads
  try simp only []
  repeat' (with_reducible first
    | assumption | apply kept_bumpSeq | apply kept_modEngine | apply kept_modStok | (apply kept_foldS; intro _ _ _)
    | (apply kept_foldP; intro _ _ _) | (apply kept_foldL; intro _ _ _) | simp only [kept_mk]
    | refine kept_fst (by assumption) ?_ | intro _ | apply kept_ite | split)

theorem kept_followSecond {k s : State} (hk : Kept k s) : Kept k (followSecond s) := by
  unfold followSecond
  try simp only []
  repeat' (with_reducible first
    | assumption | apply kept_ppsFall | apply kept_crossSecond | (apply kept_foldS; intro _ _ _)
    | (apply kept_foldP; intro _ _ _) | (apply kept_foldL; intro _ _ _) | simp only [kept_mk]
    | refine kept_fst (by assumption) ?_ | intro _ | apply kept_ite | split)

theorem kept_finish {k s : State} (hk : Kept k s) : Kept k (finish s) := by
  unfold finish
  try simp only []
  repeat' (with_reducible first
    | assumption | apply kept_followSecond | apply kept_collect | apply kept_updateNext | apply kept_refreshFull
    | apply kept_followLoads | apply kept_applyHeld | apply kept_followIslands | apply kept_followTrim
    | apply kept_followBanks | apply kept_flushService | apply kept_noteService | apply kept_logicReset
    | (apply kept_foldS; intro _ _ _) | (apply kept_foldP; intro _ _ _) | (apply kept_foldL; intro _ _ _)
    | simp only [kept_mk] | refine kept_fst (by assumption) ?_ | intro _ | apply kept_ite | split)

theorem kept_devIdentifyCmd  : SpecKept devIdentifyCmd := by
  intro k x s hk
  simp only [devIdentifyCmd]
  repeat' (with_reducible first
    | assumption | (apply kept_foldS; intro _ _ _) | (apply kept_foldP; intro _ _ _)
    | (apply kept_foldL; intro _ _ _) | simp only [kept_mk] | refine kept_fst (by assumption) ?_ | intro _
    | apply kept_ite | split)

theorem kept_devStatusCmd  : SpecKept devStatusCmd := by
  intro k x s hk
  simp only [devStatusCmd]
  repeat' (with_reducible first
    | assumption | (apply kept_foldS; intro _ _ _) | (apply kept_foldP; intro _ _ _)
    | (apply kept_foldL; intro _ _ _) | simp only [kept_mk] | refine kept_fst (by assumption) ?_ | intro _
    | apply kept_ite | split)

theorem kept_devSetIdCmd  : SpecKept devSetIdCmd := by
  intro k x s hk
  simp only [devSetIdCmd]
  repeat' (with_reducible first
    | assumption | apply kept_setDeviceId | (apply kept_foldS; intro _ _ _) | (apply kept_foldP; intro _ _ _)
    | (apply kept_foldL; intro _ _ _) | simp only [kept_mk] | refine kept_fst (by assumption) ?_ | intro _
    | apply kept_ite | split)

theorem kept_devEchoCmd  : SpecKept devEchoCmd := by
  intro k x s hk
  simp only [devEchoCmd]
  repeat' (with_reducible first
    | assumption | (apply kept_foldS; intro _ _ _) | (apply kept_foldP; intro _ _ _)
    | (apply kept_foldL; intro _ _ _) | simp only [kept_mk] | refine kept_fst (by assumption) ?_ | intro _
    | apply kept_ite | split)

theorem kept_hostBindCmd  : SpecKept hostBindCmd := by
  intro k x s hk
  simp only [hostBindCmd]
  repeat' (with_reducible first
    | assumption | apply kept_modHost | apply kept_bindHost | apply kept_loseBinding
    | (apply kept_foldS; intro _ _ _) | (apply kept_foldP; intro _ _ _) | (apply kept_foldL; intro _ _ _)
    | simp only [kept_mk] | refine kept_fst (by assumption) ?_ | intro _ | apply kept_ite | split)

theorem kept_semTakeCmd  : SpecKept semTakeCmd := by
  intro k x s hk
  simp only [semTakeCmd]
  repeat' (with_reducible first
    | assumption | apply kept_modHost | apply kept_setOwner | exact hOwner_le _ | exact Nat.zero_le _
    | (apply kept_foldS; intro _ _ _) | (apply kept_foldP; intro _ _ _) | (apply kept_foldL; intro _ _ _)
    | simp only [kept_mk] | refine kept_fst (by assumption) ?_ | intro _ | apply kept_ite | split)

theorem kept_semGiveCmd  : SpecKept semGiveCmd := by
  intro k x s hk
  simp only [semGiveCmd]
  repeat' (with_reducible first
    | assumption | apply kept_setOwner | exact hOwner_le _ | exact Nat.zero_le _ | (apply kept_foldS; intro _ _ _)
    | (apply kept_foldP; intro _ _ _) | (apply kept_foldL; intro _ _ _) | simp only [kept_mk]
    | refine kept_fst (by assumption) ?_ | intro _ | apply kept_ite | split)

theorem kept_opQueryCmd  : SpecKept opQueryCmd := by
  intro k x s hk
  simp only [opQueryCmd]
  repeat' (with_reducible first
    | assumption | (apply kept_foldS; intro _ _ _) | (apply kept_foldP; intro _ _ _)
    | (apply kept_foldL; intro _ _ _) | simp only [kept_mk] | refine kept_fst (by assumption) ?_ | intro _
    | apply kept_ite | split)

theorem kept_abortNowXfer {k s : State} (hk : Kept k s) (o : Op) {r : State} (he : abortNowXfer o s = some r) : Kept k r := by
  unfold abortNowXfer at he
  try simp only [] at he
  repeat' (split at he)
  all_goals (try cases he)
  repeat' (with_reducible first
    | assumption | apply kept_abortXfer | (apply kept_foldS; intro _ _ _) | (apply kept_foldP; intro _ _ _)
    | (apply kept_foldL; intro _ _ _) | simp only [kept_mk] | refine kept_fst (by assumption) ?_ | intro _
    | apply kept_ite | split)

theorem kept_abortTest {k s : State} (hk : Kept k s) (o : Op) {r : State} (he : abortTest o s = some r) : Kept k r := by
  unfold abortTest at he
  try simp only [] at he
  repeat' (split at he)
  all_goals (try cases he)
  repeat' (with_reducible first
    | assumption | apply kept_abortOp | apply kept_endTest | apply kept_unitBack | (apply kept_foldS; intro _ _ _)
    | (apply kept_foldP; intro _ _ _) | (apply kept_foldL; intro _ _ _) | simp only [kept_mk]
    | refine kept_fst (by assumption) ?_ | intro _ | apply kept_ite | split)

theorem kept_abortNow {k s : State} (hk : Kept k s) (o : Op) {r : State} (he : abortNow o s = some r) : Kept k r := by
  unfold abortNow at he
  try simp only [] at he
  repeat' (split at he)
  all_goals (try cases he)
  repeat' (with_reducible first
    | assumption | apply kept_endAborter | apply kept_abortOp | apply kept_dropEntry | apply kept_abortReset
    | apply kept_modPort | apply kept_quiet | apply kept_setCtx | refine kept_abortNowXfer ?_ _ (by assumption)
    | apply kept_modStok | apply kept_abandonMig | apply kept_modPdOf | apply kept_requestAbort
    | refine kept_abortTest ?_ _ (by assumption) | apply kept_modFw | apply kept_endTest
    | (apply kept_foldS; intro _ _ _) | (apply kept_foldP; intro _ _ _) | (apply kept_foldL; intro _ _ _)
    | simp only [kept_mk] | refine kept_fst (by assumption) ?_ | intro _ | apply kept_ite | split)

theorem kept_runAbort {k s : State} (hk : Kept k s) (c : Cmd) : Kept k (runAbort c s).1 := by
  unfold runAbort
  try simp only []
  repeat' (with_reducible first
    | assumption | apply kept_abortOp | refine kept_abortNow ?_ _ (by assumption) | (apply kept_foldS; intro _ _ _)
    | (apply kept_foldP; intro _ _ _) | (apply kept_foldL; intro _ _ _) | simp only [kept_mk]
    | refine kept_fst (by assumption) ?_ | intro _ | apply kept_ite | split)

theorem kept_opAbortCmd  : SpecKept opAbortCmd := by
  intro k x s hk
  simp only [opAbortCmd]
  repeat' (with_reducible first
    | assumption | apply kept_runAbort | (apply kept_foldS; intro _ _ _) | (apply kept_foldP; intro _ _ _)
    | (apply kept_foldL; intro _ _ _) | simp only [kept_mk] | refine kept_fst (by assumption) ?_ | intro _
    | apply kept_ite | split)

theorem kept_inDoze (op : Nat) (c : CmdSpec) (hc : SpecKept c) : SpecKept (inDoze op c) := by
  intro k x s hk
  simp only [inDoze]
  repeat' (with_reducible first
    | assumption | apply hc | (apply kept_foldS; intro _ _ _) | (apply kept_foldP; intro _ _ _)
    | (apply kept_foldL; intro _ _ _) | simp only [kept_mk] | refine kept_fst (by assumption) ?_ | intro _
    | apply kept_ite | split)

theorem kept_command {k s : State} (hk : Kept k s) (op : Nat) (c : CmdSpec) (p : Packet) (hc : SpecKept c) : Kept k (command op c p s) := by
  unfold command
  try simp only []
  repeat' (with_reducible first
    | assumption | apply hc | apply kept_finish | apply kept_serve | apply kept_inDoze
    | (apply kept_foldS; intro _ _ _) | (apply kept_foldP; intro _ _ _) | (apply kept_foldL; intro _ _ _)
    | simp only [kept_mk] | refine kept_fst (by assumption) ?_ | intro _ | apply kept_ite | split)

theorem kept_cmdGroup0 {n : Nat} {c : CmdSpec} (h : cmdGroup0 n = some c) : SpecKept c := by
  unfold cmdGroup0 at h
  split at h <;> first
    | (cases h; done)
    | (cases h; exact kept_devIdentifyCmd)
    | (cases h; exact kept_devStatusCmd)
    | (cases h; exact kept_devSetIdCmd)
    | (cases h; exact kept_devEchoCmd)
    | (cases h; exact kept_opAbortCmd)
    | (cases h; exact kept_opQueryCmd)
    | (cases h; exact kept_devWarmRestartCmd)
    | (cases h; exact kept_hostBindCmd)
    | (cases h; exact kept_semTakeCmd)
    | (cases h; exact kept_semGiveCmd)
    | (cases h; exact kept_devPowerStateCmd)

theorem kept_cmdGroup1 {n : Nat} {c : CmdSpec} (h : cmdGroup1 n = some c) : SpecKept c := by
  unfold cmdGroup1 at h
  split at h <;> first
    | (cases h; done)
    | (cases h; exact kept_portEnableCmd)
    | (cases h; exact kept_portDisableCmd)
    | (cases h; exact kept_portStatusCmd)
    | (cases h; exact kept_portBusResetCmd)
    | (cases h; exact kept_portSuspendCmd)
    | (cases h; exact kept_portResumeCmd)
    | (cases h; exact kept_portPowerCycleCmd)
    | (cases h; exact kept_portSetPolicyCmd)
    | (cases h; exact kept_treeListCmd)

theorem kept_cmdGroup2 {n : Nat} {c : CmdSpec} (h : cmdGroup2 n = some c) : SpecKept c := by
  unfold cmdGroup2 at h
  split at h <;> first
    | (cases h; done)
    | (cases h; exact kept_epListCmd)
    | (cases h; exact kept_epBindCmd)
    | (cases h; exact kept_epUnbindCmd)
    | (cases h; exact kept_epControlCmd)
    | (cases h; exact kept_epWriteCmd)
    | (cases h; exact kept_epReadCmd)
    | (cases h; exact kept_epStateCmd)

theorem kept_cmdGroup3 {n : Nat} {c : CmdSpec} (h : cmdGroup3 n = some c) : SpecKept c := by
  unfold cmdGroup3 at h
  split at h <;> first
    | (cases h; done)
    | (cases h; exact kept_qConfigCmd)
    | (cases h; exact kept_qStatusCmd)
    | (cases h; exact kept_qFlushCmd)
    | (cases h; exact kept_qReplayCmd)

theorem kept_cmdGroup4 {n : Nat} {c : CmdSpec} (h : cmdGroup4 n = some c) : SpecKept c := by
  unfold cmdGroup4 at h
  split at h <;> first
    | (cases h; done)
    | (cases h; exact kept_budgetSetCmd)
    | (cases h; exact kept_budgetStatusCmd)
    | (cases h; exact kept_placeHintCmd)
    | (cases h; exact kept_placePinCmd)
    | (cases h; exact kept_placeReportCmd)

theorem kept_cmdGroup5 {n : Nat} {c : CmdSpec} (h : cmdGroup5 n = some c) : SpecKept c := by
  unfold cmdGroup5 at h
  split at h <;> first
    | (cases h; done)
    | (cases h; exact kept_pdSetCapsCmd)
    | (cases h; exact kept_pdStatusCmd)
    | (cases h; exact kept_pdDrSwapCmd)
    | (cases h; exact kept_pdHardResetCmd)
    | (cases h; exact kept_pdDiscoverCmd)
    | (cases h; exact kept_pdAltmodeCmd)

theorem kept_cmdGroup6 {n : Nat} {c : CmdSpec} (h : cmdGroup6 n = some c) : SpecKept c := by
  unfold cmdGroup6 at h
  split at h <;> first
    | (cases h; done)
    | (cases h; exact kept_canConfigCmd)
    | (cases h; exact kept_canObjConfigCmd)
    | (cases h; exact kept_canFilterSetCmd)
    | (cases h; exact kept_canSendCmd)
    | (cases h; exact kept_canStatusCmd)
    | (cases h; exact kept_canTimeMasterCmd)

theorem kept_cmdGroup7 {n : Nat} {c : CmdSpec} (h : cmdGroup7 n = some c) : SpecKept c := by
  unfold cmdGroup7 at h
  split at h <;> first
    | (cases h; done)
    | (cases h; exact kept_trkConfigCmd)
    | (cases h; exact kept_trkStatusCmd)
    | (cases h; exact kept_trkRouteCmd)
    | (cases h; exact kept_trkDiscoverCmd)

theorem kept_cmdGroup8 {n : Nat} {c : CmdSpec} (h : cmdGroup8 n = some c) : SpecKept c := by
  unfold cmdGroup8 at h
  split at h <;> first
    | (cases h; done)
    | (cases h; exact kept_timeSetCmd)
    | (cases h; exact kept_timeGetCmd)
    | (cases h; exact kept_timeStatusCmd)

theorem kept_cmdGroup9 {n : Nat} {c : CmdSpec} (h : cmdGroup9 n = some c) : SpecKept c := by
  unfold cmdGroup9 at h
  split at h <;> first
    | (cases h; done)
    | (cases h; exact kept_fltReadCmd)
    | (cases h; exact kept_fltAckCmd)
    | (cases h; exact kept_fltForceCmd)
    | (cases h; exact kept_ashReadCmd)

theorem kept_cmdGroupA {n : Nat} {c : CmdSpec} (h : cmdGroupA n = some c) : SpecKept c := by
  unfold cmdGroupA at h
  split at h <;> first
    | (cases h; done)
    | (cases h; exact kept_testRunCmd)
    | (cases h; exact kept_calRunCmd)
    | (cases h; exact kept_testStatusCmd)

theorem kept_cmdGroupB {n : Nat} {c : CmdSpec} (h : cmdGroupB n = some c) : SpecKept c := by
  unfold cmdGroupB at h
  split at h <;> first
    | (cases h; done)
    | (cases h; exact kept_fwStageCmd)
    | (cases h; exact kept_fwActivateCmd)
    | (cases h; exact kept_fwStatusCmd)
    | (cases h; exact kept_secLifecycleCmd)
    | (cases h; exact kept_secKeyCmd)
    | (cases h; exact kept_secProvisionCmd)

theorem kept_cmdOf {op : Nat} {c : CmdSpec} (h : cmdOf op = some c) : SpecKept c := by
  unfold cmdOf at h
  simp only [Option.map_eq_some_iff] at h
  obtain ⟨d, hd, rfl⟩ := h
  refine kept_inDoze op d ?_
  split at hd
  · exact kept_cmdGroup0 hd
  · exact kept_cmdGroup1 hd
  · exact kept_cmdGroup2 hd
  · exact kept_cmdGroup3 hd
  · exact kept_cmdGroup4 hd
  · exact kept_cmdGroup5 hd
  · exact kept_cmdGroup6 hd
  · exact kept_cmdGroup7 hd
  · exact kept_cmdGroup8 hd
  · exact kept_cmdGroup9 hd
  · exact kept_cmdGroupA hd
  · exact kept_cmdGroupB hd
  · cases hd

theorem kept_startEntered {k s : State} (hk : Kept k s) (o : Op) : Kept k (startEntered o s) := by
  unfold startEntered
  split
  · exact kept_startOp hk _ _ (kept_cmdOf (by assumption))
  · exact hk

end Sys2Proof.Machine
end

