-- ==== Sys2Proof/Laws/KeptHosts.lean ====
section
/-!
SUPPORT. `Kept` (Laws/Kept.lean) for the host ports, the service function and idle steps.
-/
set_option linter.all false
namespace Sys2Proof.Machine

/-- In a canonical list every later address is higher. -/
theorem memWf_head : ∀ {c : Host.Cell} {r : List Host.Cell}, Memory.wf (c :: r) = true → ∀ x ∈ r, c.1 < x.1
  | _, [], _ => by simp
  | c, d :: r, h => by
    simp only [Memory.wf, Bool.and_eq_true, decide_eq_true_eq] at h
    intro x hx
    rcases List.mem_cons.1 hx with rfl | hx
    · exact h.1.2
    · exact Nat.lt_trans h.1.2 (memWf_head h.2 x hx)

theorem memWf_cons {c : Host.Cell} (hc : c.2 ≠ 0) : ∀ {r : List Host.Cell}, (∀ x ∈ r, c.1 < x.1) → Memory.wf r = true →
    Memory.wf (c :: r) = true
  | [], _, _ => by simpa [Memory.wf] using hc
  | d :: r, h, hr => by
    simp only [Memory.wf, Bool.and_eq_true, bne_iff_ne, ne_eq, decide_eq_true_eq]
    exact ⟨⟨hc, h d List.mem_cons_self⟩, hr⟩

/-- A byte write keeps the canonical form: addresses rise and no entry is 0. -/
theorem memSet_wf (a : Nat) (b : Byte) : ∀ (m : List Host.Cell), Memory.wf m = true → Memory.wf (memSet a b m) = true ∧
    (∀ lo, lo < a → (∀ c ∈ m, lo < c.1) → ∀ c ∈ memSet a b m, lo < c.1)
  | [], _ => by
    unfold memSet
    split <;> simp_all [Memory.wf]
  | c :: r, h => by
    have hr : Memory.wf r = true := by
      cases r with
      | nil => rfl
      | cons d r => simp only [Memory.wf, Bool.and_eq_true] at h; exact h.2
    have hc : c.2 ≠ 0 := by
      cases r with
      | nil => simpa [Memory.wf] using h
      | cons d r => simp only [Memory.wf, Bool.and_eq_true, bne_iff_ne, ne_eq] at h; exact h.1.1
    have hlt : ∀ x ∈ r, c.1 < x.1 := memWf_head h
    obtain ⟨ih, ihl⟩ := memSet_wf a b r hr
    unfold memSet
    split
    · rename_i hac
      split
      · exact ⟨h, fun lo _ hm x hx => hm x hx⟩
      · rename_i hb
        refine ⟨memWf_cons (by simpa using hb) ?_ h, fun lo hlo hm x hx => ?_⟩
        · intro x hx
          rcases List.mem_cons.1 hx with rfl | hx
          · exact hac
          · exact Nat.lt_trans hac (hlt x hx)
        · rcases List.mem_cons.1 hx with rfl | hx
          · exact hlo
          · exact hm x hx
    · split
      · rename_i hac
        split
        · exact ⟨hr, fun lo _ hm x hx => hm x (List.mem_cons_of_mem _ hx)⟩
        · rename_i hb
          refine ⟨memWf_cons (by simpa using hb) (fun x hx => hac ▸ hlt x hx) hr, fun lo hlo hm x hx => ?_⟩
          rcases List.mem_cons.1 hx with rfl | hx
          · exact hlo
          · exact hm x (List.mem_cons_of_mem _ hx)
      · rename_i h1 h2
        have hca : c.1 < a := by omega
        refine ⟨memWf_cons hc (ihl c.1 hca hlt) ih, fun lo hlo hm x hx => ?_⟩
        rcases List.mem_cons.1 hx with rfl | hx
        · exact hm _ List.mem_cons_self
        · exact ihl lo hlo (fun y hy => hm y (List.mem_cons_of_mem _ hy)) x hx

theorem kept_setMail {k s : State} (hk : Kept k s) (a : Nat) (b : Byte) : Kept k (setMail a b s) := by
  unfold setMail
  split
  · exact ⟨hk.1, hk.2.1, hk.2.2.1, (memSet_wf a b _ hk.2.2.2.1).1, hk.2.2.2.2⟩
  · exact hk

theorem kept_writeMail {k s : State} (hk : Kept k s) (a : Nat) (v : Word) : Kept k (writeMail a v s) := by
  unfold writeMail
  try simp only []
  repeat' (with_reducible first
    | assumption | apply kept_setMail | (apply kept_foldS; intro _ _ _) | (apply kept_foldP; intro _ _ _)
    | (apply kept_foldL; intro _ _ _) | simp only [kept_mk] | refine kept_fst (by assumption) ?_ | intro _
    | apply kept_ite | split)

theorem kept_decodeFault {k s : State} (hk : Kept k s) : Kept k (decodeFault s) := by
  unfold decodeFault
  try simp only []
  repeat' (with_reducible first
    | assumption | apply kept_raise | (apply kept_foldS; intro _ _ _) | (apply kept_foldP; intro _ _ _)
    | (apply kept_foldL; intro _ _ _) | simp only [kept_mk] | refine kept_fst (by assumption) ?_ | intro _
    | apply kept_ite | split)

theorem kept_setHeld {k s : State} (hk : Kept k s) (h' : HostId) (urgent : Bool) (v : Bool) : Kept k (setHeld h' urgent v s) := by
  unfold setHeld
  try simp only []
  repeat' (with_reducible first
    | assumption | apply kept_modHost | (apply kept_foldS; intro _ _ _) | (apply kept_foldP; intro _ _ _)
    | (apply kept_foldL; intro _ _ _) | simp only [kept_mk] | refine kept_fst (by assumption) ?_ | intro _
    | apply kept_ite | split)

theorem kept_readSlot {k s : State} (hk : Kept k s) (h' : HostId) (urgent : Bool) {r : State} (he : readSlot h' urgent s = some r) : Kept k r := by
  unfold readSlot at he
  try simp only [] at he
  repeat' (split at he)
  all_goals (try cases he)
  repeat' (with_reducible first
    | assumption | apply kept_setHeld | apply kept_modHost | apply kept_refuse | apply kept_enter
    | exact fun d hd => kept_cmdOf hd | (apply kept_foldS; intro _ _ _) | (apply kept_foldP; intro _ _ _)
    | (apply kept_foldL; intro _ _ _) | simp only [kept_mk] | refine kept_fst (by assumption) ?_ | intro _
    | apply kept_ite | split)

theorem kept_readRing {k s : State} (hk : Kept k s) (h' : HostId) (urgent : Bool) (x1 : Nat) : Kept k (readRing h' urgent x1 s) := by
  induction x1 generalizing s with
  | zero =>
    unfold readRing
    try simp only []
    repeat' (with_reducible first
      | assumption | apply kept_setHeld | refine kept_readSlot ?_ _ _ (by assumption)
      | (apply kept_foldS; intro _ _ _) | (apply kept_foldP; intro _ _ _) | (apply kept_foldL; intro _ _ _)
      | simp only [kept_mk] | refine kept_fst (by assumption) ?_ | intro _ | apply kept_ite | split)
  | succ n ih =>
    unfold readRing
    try simp only []
    repeat' (with_reducible first
      | assumption | apply ih | apply kept_setHeld | refine kept_readSlot ?_ _ _ (by assumption)
      | (apply kept_foldS; intro _ _ _) | (apply kept_foldP; intro _ _ _) | (apply kept_foldL; intro _ _ _)
      | simp only [kept_mk] | refine kept_fst (by assumption) ?_ | intro _ | apply kept_ite | split)

theorem kept_readRings {k s : State} (hk : Kept k s) (h' : HostId) : Kept k (readRings h' s) := by
  unfold readRings
  try simp only []
  repeat' (with_reducible first
    | assumption | apply kept_readRing | (apply kept_foldS; intro _ _ _) | (apply kept_foldP; intro _ _ _)
    | (apply kept_foldL; intro _ _ _) | simp only [kept_mk] | refine kept_fst (by assumption) ?_ | intro _
    | apply kept_ite | split)

theorem kept_doorbell {k s : State} (hk : Kept k s) (h' : HostId) (v : Word) : Kept k (doorbell h' v s) := by
  unfold doorbell
  try simp only []
  repeat' (with_reducible first
    | assumption | apply kept_setSqc | apply kept_modHost | apply kept_readRings | (apply kept_foldS; intro _ _ _)
    | (apply kept_foldP; intro _ _ _) | (apply kept_foldL; intro _ _ _) | simp only [kept_mk]
    | refine kept_fst (by assumption) ?_ | intro _ | apply kept_ite | split)

theorem kept_hostCtrl {k s : State} (hk : Kept k s) (h' : HostId) (v : Word) : Kept k (hostCtrl h' v s) := by
  unfold hostCtrl
  try simp only []
  repeat' (with_reducible first
    | assumption | apply kept_setCfg | apply kept_unbindHost | apply kept_setSqc | apply kept_readRings
    | (apply kept_foldS; intro _ _ _) | (apply kept_foldP; intro _ _ _) | (apply kept_foldL; intro _ _ _)
    | simp only [kept_mk] | refine kept_fst (by assumption) ?_ | intro _ | apply kept_ite | split)

theorem kept_takeSem {k s : State} (hk : Kept k s) (h' : HostId) (n : Nat) (tie : Bool) : Kept k (takeSem h' n tie s) := by
  unfold takeSem
  try simp only []
  repeat' (with_reducible first
    | assumption | apply kept_setOwner | apply kept_setSem | exact sem_owner_le hk _ | exact hOwner_le _
    | exact Nat.zero_le _ | (apply kept_foldS; intro _ _ _) | (apply kept_foldP; intro _ _ _)
    | (apply kept_foldL; intro _ _ _) | simp only [kept_mk] | refine kept_fst (by assumption) ?_ | intro _
    | apply kept_ite | split)

theorem kept_readSem {k s : State} (hk : Kept k s) (h' : HostId) (n : Nat) (ready : Bool) (tie : Bool) : Kept k (readSem h' n ready tie s) := by
  unfold readSem
  try simp only []
  repeat' (with_reducible first
    | assumption | apply kept_emit | apply kept_takeSem | (apply kept_foldS; intro _ _ _)
    | (apply kept_foldP; intro _ _ _) | (apply kept_foldL; intro _ _ _) | simp only [kept_mk]
    | refine kept_fst (by assumption) ?_ | intro _ | apply kept_ite | split)

theorem kept_writeSem {k s : State} (hk : Kept k s) (h' : HostId) (n : Nat) : Kept k (writeSem h' n s) := by
  unfold writeSem
  try simp only []
  repeat' (with_reducible first
    | assumption | apply kept_setOwner | exact hOwner_le _ | exact Nat.zero_le _ | (apply kept_foldS; intro _ _ _)
    | (apply kept_foldP; intro _ _ _) | (apply kept_foldL; intro _ _ _) | simp only [kept_mk]
    | refine kept_fst (by assumption) ?_ | intro _ | apply kept_ite | split)

theorem kept_popQueue {k s : State} (hk : Kept k s) (h' : HostId) (q : Nat) : Kept k (popQueue h' q s).1 := by
  unfold popQueue
  try simp only []
  repeat' (with_reducible first
    | assumption | apply kept_putQueue | apply kept_replayCheck | apply kept_markUnderrun | apply kept_drainHeld
    | (apply kept_foldS; intro _ _ _) | (apply kept_foldP; intro _ _ _) | (apply kept_foldL; intro _ _ _)
    | simp only [kept_mk] | refine kept_fst (by assumption) ?_ | intro _ | apply kept_ite | split)

theorem kept_popHeader {k s : State} (hk : Kept k s) (h' : HostId) (q : Nat) (ready : Bool) : Kept k (popHeader h' q ready s) := by
  unfold popHeader
  try simp only []
  repeat' (with_reducible first
    | assumption | apply kept_emit | apply kept_setSqc | apply kept_popQueue | (apply kept_foldS; intro _ _ _)
    | (apply kept_foldP; intro _ _ _) | (apply kept_foldL; intro _ _ _) | simp only [kept_mk]
    | refine kept_fst (by assumption) ?_ | intro _ | apply kept_ite | split)

theorem kept_popData {k s : State} (hk : Kept k s) (h' : HostId) (q : Nat) (ready : Bool) : Kept k (popData h' q ready s) := by
  unfold popData
  try simp only []
  repeat' (with_reducible first
    | assumption | apply kept_emit | apply kept_setSqc | apply kept_setQueue | (apply kept_foldS; intro _ _ _)
    | (apply kept_foldP; intro _ _ _) | (apply kept_foldL; intro _ _ _) | simp only [kept_mk]
    | refine kept_fst (by assumption) ?_ | intro _ | apply kept_ite | split)

theorem kept_commitPush {k s : State} (hk : Kept k s) (h' : HostId) (q : Nat) (payload : List Byte) : Kept k (commitPush h' q payload s) := by
  unfold commitPush
  try simp only []
  repeat' (with_reducible first
    | assumption | apply kept_pushItem | apply kept_modQueue | (apply kept_foldS; intro _ _ _)
    | (apply kept_foldP; intro _ _ _) | (apply kept_foldL; intro _ _ _) | simp only [kept_mk]
    | refine kept_fst (by assumption) ?_ | intro _ | apply kept_ite | split)

theorem kept_pushHeader {k s : State} (hk : Kept k s) (h' : HostId) (q : Nat) (v : Word) : Kept k (pushHeader h' q v s) := by
  unfold pushHeader
  try simp only []
  repeat' (with_reducible first
    | assumption | apply kept_setSqc | apply kept_modQueue | apply kept_commitPush
    | (apply kept_foldS; intro _ _ _) | (apply kept_foldP; intro _ _ _) | (apply kept_foldL; intro _ _ _)
    | simp only [kept_mk] | refine kept_fst (by assumption) ?_ | intro _ | apply kept_ite | split)

theorem kept_pushData {k s : State} (hk : Kept k s) (h' : HostId) (q : Nat) (v : Word) : Kept k (pushData h' q v s) := by
  unfold pushData
  try simp only []
  repeat' (with_reducible first
    | assumption | apply kept_setSqc | apply kept_commitPush | apply kept_modQueue
    | (apply kept_foldS; intro _ _ _) | (apply kept_foldP; intro _ _ _) | (apply kept_foldL; intro _ _ _)
    | simp only [kept_mk] | refine kept_fst (by assumption) ?_ | intro _ | apply kept_ite | split)

theorem kept_writeObj {k s : State} (hk : Kept k s) (h' : HostId) (a : Nat) (v : Word) : Kept k (writeObj h' a v s) := by
  unfold writeObj
  try simp only []
  repeat' (with_reducible first
    | assumption | apply kept_decodeFault | apply kept_writeObject | (apply kept_foldS; intro _ _ _)
    | (apply kept_foldP; intro _ _ _) | (apply kept_foldL; intro _ _ _) | simp only [kept_mk]
    | refine kept_fst (by assumption) ?_ | intro _ | apply kept_ite | split)

theorem kept_writeFlt {k s : State} (hk : Kept k s) (a : Nat) (v : Word) : Kept k (writeFlt a v s) := by
  unfold writeFlt
  try simp only []
  repeat' (with_reducible first
    | assumption | apply kept_writeForce | apply kept_injectPulse | apply kept_ackFlt
    | (apply kept_foldS; intro _ _ _) | (apply kept_foldP; intro _ _ _) | (apply kept_foldL; intro _ _ _)
    | simp only [kept_mk] | refine kept_fst (by assumption) ?_ | intro _ | apply kept_ite | split)

theorem kept_writeStatus {k s : State} (hk : Kept k s) (a : Nat) (v : Word) : Kept k (writeStatus a v s) := by
  unfold writeStatus
  try simp only []
  repeat' (with_reducible first
    | assumption | (apply kept_foldS; intro _ _ _) | (apply kept_foldP; intro _ _ _)
    | (apply kept_foldL; intro _ _ _) | simp only [kept_mk] | refine kept_fst (by assumption) ?_ | intro _
    | apply kept_ite | split)

theorem kept_writeHostBlock {k s : State} (hk : Kept k s) (h' : HostId) (off : Nat) (v : Word) : Kept k (writeHostBlock h' off v s) := by
  unfold writeHostBlock
  try simp only []
  repeat' (with_reducible first
    | assumption | apply kept_hostCtrl | apply kept_doorbell | apply kept_writeSem | apply kept_writeStatus
    | (apply kept_foldS; intro _ _ _) | (apply kept_foldP; intro _ _ _) | (apply kept_foldL; intro _ _ _)
    | simp only [kept_mk] | refine kept_fst (by assumption) ?_ | intro _ | apply kept_ite | split)

theorem kept_scrubNow {k s : State} (hk : Kept k s) : Kept k (scrubNow s) := by
  unfold scrubNow
  try simp only []
  repeat' (with_reducible first
    | assumption | apply kept_modPeat | (apply kept_foldS; intro _ _ _) | (apply kept_foldP; intro _ _ _)
    | (apply kept_foldL; intro _ _ _) | simp only [kept_mk] | refine kept_fst (by assumption) ?_ | intro _
    | apply kept_ite | split)

theorem kept_writeReg {k s : State} (hk : Kept k s) (h' : HostId) (a : Nat) (v : Word) : Kept k (writeReg h' a v s) := by
  unfold writeReg
  try simp only []
  repeat' (with_reducible first
    | assumption | apply kept_writeHostBlock | apply kept_decodeFault | apply kept_queueLich
    | apply kept_holdOrWrite | apply kept_writeFlt | apply kept_replan | apply kept_scrubNow
    | apply kept_pushHeader | apply kept_pushData | apply kept_abortAll | apply kept_writeStatus
    | (apply kept_foldS; intro _ _ _) | (apply kept_foldP; intro _ _ _) | (apply kept_foldL; intro _ _ _)
    | simp only [kept_mk] | refine kept_fst (by assumption) ?_ | intro _ | apply kept_ite | split)

theorem kept_conflict {k s : State} (hk : Kept k s) (reader : HostId) (pulsed : HostId) (w : Nat) : Kept k (conflict reader pulsed w s) := by
  unfold conflict
  try simp only []
  repeat' (with_reducible first
    | assumption | apply kept_emit | apply kept_setSqc | apply kept_raise | (apply kept_foldS; intro _ _ _)
    | (apply kept_foldP; intro _ _ _) | (apply kept_foldL; intro _ _ _) | simp only [kept_mk]
    | refine kept_fst (by assumption) ?_ | intro _ | apply kept_ite | split)

theorem kept_portAccess {k s : State} (hk : Kept k s) (h' : HostId) (o : Option MbxOp) (other : Option MbxOp) (later : HostId) : Kept k (portAccess h' o other later s) := by
  unfold portAccess
  try simp only []
  repeat' (with_reducible first
    | assumption | apply kept_conflict | apply kept_emit | apply kept_useFree | (apply kept_foldS; intro _ _ _)
    | (apply kept_foldP; intro _ _ _) | (apply kept_foldL; intro _ _ _) | simp only [kept_mk]
    | refine kept_fst (by assumption) ?_ | intro _ | apply kept_ite | split)

theorem kept_portWrite {k s : State} (hk : Kept k s) (o : Option MbxOp) : Kept k (portWrite o s) := by
  unfold portWrite
  try simp only []
  repeat' (with_reducible first
    | assumption | apply kept_writeMail | (apply kept_foldS; intro _ _ _) | (apply kept_foldP; intro _ _ _)
    | (apply kept_foldL; intro _ _ _) | simp only [kept_mk] | refine kept_fst (by assumption) ?_ | intro _
    | apply kept_ite | split)

theorem kept_ringAccess {k s : State} (hk : Kept k s) (r : Option (HostId × Nat)) (a : Option MbxOp) (b : Option MbxOp) : Kept k (ringAccess r a b s) := by
  unfold ringAccess
  try simp only []
  repeat' (with_reducible first
    | assumption | apply kept_conflict | (apply kept_foldS; intro _ _ _) | (apply kept_foldP; intro _ _ _)
    | (apply kept_foldL; intro _ _ _) | simp only [kept_mk] | refine kept_fst (by assumption) ?_ | intro _
    | apply kept_ite | split)

theorem kept_mailboxCycle {k s : State} (hk : Kept k s) (c : MbxCycle) : Kept k (mailboxCycle c s) := by
  unfold mailboxCycle
  try simp only []
  repeat' (with_reducible first
    | assumption | apply kept_ringAccess | apply kept_portWrite | apply kept_portAccess
    | (apply kept_foldS; intro _ _ _) | (apply kept_foldP; intro _ _ _) | (apply kept_foldL; intro _ _ _)
    | simp only [kept_mk] | refine kept_fst (by assumption) ?_ | intro _ | apply kept_ite | split)

theorem kept_hostWrite {k s : State} (hk : Kept k s) (h' : HostId) (a : Nat) (v : Word) : Kept k (hostWrite h' a v s) := by
  unfold hostWrite
  try simp only []
  repeat' (with_reducible first
    | assumption | apply kept_portWrite | apply kept_decodeFault | apply kept_writeObj | apply kept_writeReg
    | (apply kept_foldS; intro _ _ _) | (apply kept_foldP; intro _ _ _) | (apply kept_foldL; intro _ _ _)
    | simp only [kept_mk] | refine kept_fst (by assumption) ?_ | intro _ | apply kept_ite | split)

theorem kept_writeBurst {k s : State} (hk : Kept k s) (h' : HostId) (a : Nat) (vs : List Word) : Kept k (writeBurst h' a vs s) := by
  unfold writeBurst
  try simp only []
  repeat' (with_reducible first
    | assumption | apply kept_hostWrite | (apply kept_foldS; intro _ _ _) | (apply kept_foldP; intro _ _ _)
    | (apply kept_foldL; intro _ _ _) | simp only [kept_mk] | refine kept_fst (by assumption) ?_ | intro _
    | apply kept_ite | split)

theorem kept_hostBurst {k s : State} (hk : Kept k s) (h' : HostId) (a : Nat) (vs : List Word) (room : Bool) : Kept k (hostBurst h' a vs room s) := by
  unfold hostBurst
  try simp only []
  repeat' (with_reducible first
    | assumption | apply kept_writeBurst | apply kept_emit | (apply kept_foldS; intro _ _ _)
    | (apply kept_foldP; intro _ _ _) | (apply kept_foldL; intro _ _ _) | simp only [kept_mk]
    | refine kept_fst (by assumption) ?_ | intro _ | apply kept_ite | split)

theorem kept_ownBlock {k s : State} (hk : Kept k s) (port : HostId) (blk : HostId) (a : Nat) (f : State → State) (hf : ∀ t : State, Kept k t → Kept k (f t)) : Kept k (ownBlock port blk a f s) := by
  unfold ownBlock
  try simp only []
  repeat' (with_reducible first
    | assumption | apply hf | apply kept_emit | apply kept_decodeFault | (apply kept_foldS; intro _ _ _)
    | (apply kept_foldP; intro _ _ _) | (apply kept_foldL; intro _ _ _) | simp only [kept_mk]
    | refine kept_fst (by assumption) ?_ | intro _ | apply kept_ite | split)

theorem kept_readObj {k s : State} (hk : Kept k s) (h' : HostId) (ch : Nat) (k' : Nat) (w : Nat) (f : State → State) (hf : ∀ t : State, Kept k t → Kept k (f t)) : Kept k (readObj h' ch k' w f s) := by
  unfold readObj
  try simp only []
  repeat' (with_reducible first
    | assumption | apply hf | apply kept_emit | (apply kept_foldS; intro _ _ _) | (apply kept_foldP; intro _ _ _)
    | (apply kept_foldL; intro _ _ _) | simp only [kept_mk] | refine kept_fst (by assumption) ?_ | intro _
    | apply kept_ite | split)

theorem kept_enterFrame {k s : State} (hk : Kept k s) (n : Nat) (f : FrameHdr) (bytes : List Byte) : Kept k (enterFrame n f bytes s) := by
  unfold enterFrame
  try simp only []
  repeat' (with_reducible first
    | assumption | apply kept_modTrunk | apply kept_enter | apply kept_takeFrame | exact fun d hd => kept_cmdOf hd
    | (apply kept_foldS; intro _ _ _) | (apply kept_foldP; intro _ _ _) | (apply kept_foldL; intro _ _ _)
    | simp only [kept_mk] | refine kept_fst (by assumption) ?_ | intro _ | apply kept_ite | split)

theorem kept_commandFrame {k s : State} (hk : Kept k s) (n : Nat) (f : FrameHdr) (bytes : List Byte) : Kept k (commandFrame n f bytes s) := by
  unfold commandFrame
  try simp only []
  repeat' (with_reducible first
    | assumption | apply kept_enterFrame | apply kept_forwardFrame | (apply kept_foldS; intro _ _ _)
    | (apply kept_foldP; intro _ _ _) | (apply kept_foldL; intro _ _ _) | simp only [kept_mk]
    | refine kept_fst (by assumption) ?_ | intro _ | apply kept_ite | split)

theorem kept_readQueue {k s : State} (hk : Kept k s) (h' : HostId) (q : Nat) (off : Nat) (ready : Bool) : Kept k (readQueue h' q off ready s) := by
  unfold readQueue
  try simp only []
  repeat' (with_reducible first
    | assumption | apply kept_popHeader | apply kept_popData | apply kept_emit | apply kept_setSqc
    | (apply kept_foldS; intro _ _ _) | (apply kept_foldP; intro _ _ _) | (apply kept_foldL; intro _ _ _)
    | simp only [kept_mk] | refine kept_fst (by assumption) ?_ | intro _ | apply kept_ite | split)

theorem kept_readBurst {k s : State} (hk : Kept k s) (h' : HostId) (q : Nat) (off : Nat) (n : Nat) (ready : Bool) : Kept k (readBurst h' q off n ready s) := by
  unfold readBurst
  try simp only []
  repeat' (with_reducible first
    | assumption | apply kept_readQueue | (apply kept_foldS; intro _ _ _) | (apply kept_foldP; intro _ _ _)
    | (apply kept_foldL; intro _ _ _) | simp only [kept_mk] | refine kept_fst (by assumption) ?_ | intro _
    | apply kept_ite | split)

theorem kept_svcEnd {k s : State} (hk : Kept k s) (i : Nat) : Kept k (svcEnd i s) := by
  unfold svcEnd
  try simp only []
  repeat' (with_reducible first
    | assumption | apply kept_emit | apply kept_modInst | (apply kept_foldS; intro _ _ _)
    | (apply kept_foldP; intro _ _ _) | (apply kept_foldL; intro _ _ _) | simp only [kept_mk]
    | refine kept_fst (by assumption) ?_ | intro _ | apply kept_ite | split)

theorem kept_svcFeed {k s : State} (hk : Kept k s) (i : Nat) : Kept k (svcFeed i s) := by
  unfold svcFeed
  try simp only []
  repeat' (with_reducible first
    | assumption | apply kept_svcEnd | apply kept_emit | apply kept_modInst | (apply kept_foldS; intro _ _ _)
    | (apply kept_foldP; intro _ _ _) | (apply kept_foldL; intro _ _ _) | simp only [kept_mk]
    | refine kept_fst (by assumption) ?_ | intro _ | apply kept_ite | split)

theorem kept_svcDrop {k s : State} (hk : Kept k s) (h' : HostId) (q : Nat) (it : Item) : Kept k (svcDrop h' q it s) := by
  unfold svcDrop
  try simp only []
  repeat' (with_reducible first
    | assumption | apply kept_replayCheck | apply kept_putQueue | apply kept_drainHeld
    | (apply kept_foldS; intro _ _ _) | (apply kept_foldP; intro _ _ _) | (apply kept_foldL; intro _ _ _)
    | simp only [kept_mk] | refine kept_fst (by assumption) ?_ | intro _ | apply kept_ite | split)

theorem kept_svcAcked {k s : State} (hk : Kept k s) (i : Nat) : Kept k (svcAcked i s) := by
  unfold svcAcked
  try simp only []
  repeat' (with_reducible first
    | assumption | apply kept_modInst | apply kept_svcDrop | apply kept_svcFeed | (apply kept_foldS; intro _ _ _)
    | (apply kept_foldP; intro _ _ _) | (apply kept_foldL; intro _ _ _) | simp only [kept_mk]
    | refine kept_fst (by assumption) ?_ | intro _ | apply kept_ite | split)

theorem kept_svcReply {k s : State} (hk : Kept k s) (i : Nat) (bytes : List Byte) (len : Nat) : Kept k (svcReply i bytes len s) := by
  unfold svcReply
  try simp only []
  repeat' (with_reducible first
    | assumption | apply kept_emit | (apply kept_foldS; intro _ _ _) | (apply kept_foldP; intro _ _ _)
    | (apply kept_foldL; intro _ _ _) | simp only [kept_mk] | refine kept_fst (by assumption) ?_ | intro _
    | apply kept_ite | split)

theorem kept_svcSetup {k s : State} (hk : Kept k s) (i : Nat) (len : Nat) : Kept k (svcSetup i len s) := by
  unfold svcSetup
  try simp only []
  repeat' (with_reducible first
    | assumption | apply kept_modInst | apply kept_emit | (apply kept_foldS; intro _ _ _)
    | (apply kept_foldP; intro _ _ _) | (apply kept_foldL; intro _ _ _) | simp only [kept_mk]
    | refine kept_fst (by assumption) ?_ | intro _ | apply kept_ite | split)

theorem kept_svcFeature {k s : State} (hk : Kept k s) (i : Nat) (rt : Nat) (val : Nat) (idx : Nat) (set : Bool) : Kept k (svcFeature i rt val idx set s) := by
  unfold svcFeature
  try simp only []
  repeat' (with_reducible first
    | assumption | apply kept_emit | apply kept_modInst | (apply kept_foldS; intro _ _ _)
    | (apply kept_foldP; intro _ _ _) | (apply kept_foldL; intro _ _ _) | simp only [kept_mk]
    | refine kept_fst (by assumption) ?_ | intro _ | apply kept_ite | split)

theorem kept_svcStatus {k s : State} (hk : Kept k s) (i : Nat) (rt : Nat) (idx : Nat) (len : Nat) : Kept k (svcStatus i rt idx len s) := by
  unfold svcStatus
  try simp only []
  repeat' (with_reducible first
    | assumption | apply kept_svcReply | apply kept_emit | (apply kept_foldS; intro _ _ _)
    | (apply kept_foldP; intro _ _ _) | (apply kept_foldL; intro _ _ _) | simp only [kept_mk]
    | refine kept_fst (by assumption) ?_ | intro _ | apply kept_ite | split)

theorem kept_svcConfigure {k s : State} (hk : Kept k s) (i : Nat) (val : Nat) : Kept k (svcConfigure i val s) := by
  unfold svcConfigure
  try simp only []
  repeat' (with_reducible first
    | assumption | apply kept_svcFeed | apply kept_emit | apply kept_modInst | (apply kept_foldS; intro _ _ _)
    | (apply kept_foldP; intro _ _ _) | (apply kept_foldL; intro _ _ _) | simp only [kept_mk]
    | refine kept_fst (by assumption) ?_ | intro _ | apply kept_ite | split)

theorem kept_svcRequestOf {k s : State} (hk : Kept k s) (i : Nat) (su : List Byte) : Kept k (svcRequestOf i su s) := by
  unfold svcRequestOf
  try simp only []
  repeat' (with_reducible first
    | assumption | apply kept_svcSetup | apply kept_emit | apply kept_svcStatus | apply kept_svcFeature
    | apply kept_modInst | apply kept_svcReply | apply kept_svcConfigure | (apply kept_foldS; intro _ _ _)
    | (apply kept_foldP; intro _ _ _) | (apply kept_foldL; intro _ _ _) | simp only [kept_mk]
    | refine kept_fst (by assumption) ?_ | intro _ | apply kept_ite | split)

theorem kept_svcCommit {k s : State} (hk : Kept k s) (i : Nat) (bytes : List Byte) : Kept k (svcCommit i bytes s) := by
  unfold svcCommit
  try simp only []
  repeat' (with_reducible first
    | assumption | apply kept_emit | apply kept_enter | apply kept_modInst | exact fun d hd => kept_cmdOf hd
    | (apply kept_foldS; intro _ _ _) | (apply kept_foldP; intro _ _ _) | (apply kept_foldL; intro _ _ _)
    | simp only [kept_mk] | refine kept_fst (by assumption) ?_ | intro _ | apply kept_ite | split)

theorem kept_svcReset {k s : State} (hk : Kept k s) (i : Nat) : Kept k (svcReset i s) := by
  unfold svcReset
  try simp only []
  repeat' (with_reducible first
    | assumption | apply kept_modInst | (apply kept_foldS; intro _ _ _) | (apply kept_foldP; intro _ _ _)
    | (apply kept_foldL; intro _ _ _) | simp only [kept_mk] | refine kept_fst (by assumption) ?_ | intro _
    | apply kept_ite | split)

theorem kept_svcPush {k s : State} (hk : Kept k s) (i : Nat) (rec : List Byte) : Kept k (svcPush i rec s) := by
  unfold svcPush
  try simp only []
  repeat' (with_reducible first
    | assumption | apply kept_emit | apply kept_setSqc | apply kept_commitPush | (apply kept_foldS; intro _ _ _)
    | (apply kept_foldP; intro _ _ _) | (apply kept_foldL; intro _ _ _) | simp only [kept_mk]
    | refine kept_fst (by assumption) ?_ | intro _ | apply kept_ite | split)

theorem kept_svcPoll {k s : State} (hk : Kept k s) (i : Nat) : Kept k (svcPoll i s) := by
  unfold svcPoll
  try simp only []
  repeat' (with_reducible first
    | assumption | apply kept_emit | apply kept_modInst | (apply kept_foldS; intro _ _ _)
    | (apply kept_foldP; intro _ _ _) | (apply kept_foldL; intro _ _ _) | simp only [kept_mk]
    | refine kept_fst (by assumption) ?_ | intro _ | apply kept_ite | split)

theorem kept_svcSuspend {k s : State} (hk : Kept k s) (i : Nat) : Kept k (svcSuspend i s) := by
  unfold svcSuspend
  try simp only []
  repeat' (with_reducible first
    | assumption | apply kept_modInst | (apply kept_foldS; intro _ _ _) | (apply kept_foldP; intro _ _ _)
    | (apply kept_foldL; intro _ _ _) | simp only [kept_mk] | refine kept_fst (by assumption) ?_ | intro _
    | apply kept_ite | split)

theorem kept_svcResume {k s : State} (hk : Kept k s) (i : Nat) : Kept k (svcResume i s) := by
  unfold svcResume
  try simp only []
  repeat' (with_reducible first
    | assumption | apply kept_svcFeed | apply kept_modInst | (apply kept_foldS; intro _ _ _)
    | (apply kept_foldP; intro _ _ _) | (apply kept_foldL; intro _ _ _) | simp only [kept_mk]
    | refine kept_fst (by assumption) ?_ | intro _ | apply kept_ite | split)

theorem kept_svcDetach {k s : State} (hk : Kept k s) : Kept k (svcDetach s) := by
  unfold svcDetach
  try simp only []
  repeat' (with_reducible first
    | assumption | apply kept_modSvc | apply kept_endInstance | apply kept_swapOutcome | apply kept_dieReset
    | (apply kept_foldS; intro _ _ _) | (apply kept_foldP; intro _ _ _) | (apply kept_foldL; intro _ _ _)
    | simp only [kept_mk] | refine kept_fst (by assumption) ?_ | intro _ | apply kept_ite | split)

theorem kept_watchdogEnds {k s : State} (hk : Kept k s) (h' : HostId) : Kept k (watchdogEnds h' s) := by
  unfold watchdogEnds
  try simp only []
  repeat' (with_reducible first
    | assumption | apply kept_loseBinding | (apply kept_foldS; intro _ _ _) | (apply kept_foldP; intro _ _ _)
    | (apply kept_foldL; intro _ _ _) | simp only [kept_mk] | refine kept_fst (by assumption) ?_ | intro _
    | apply kept_ite | split)

theorem kept_semLoss {k s : State} (hk : Kept k s) (h' : HostId) : Kept k (semLoss h' s) := by
  unfold semLoss
  try simp only []
  repeat' (with_reducible first
    | assumption | apply kept_releaseSems | (apply kept_foldS; intro _ _ _) | (apply kept_foldP; intro _ _ _)
    | (apply kept_foldL; intro _ _ _) | simp only [kept_mk] | refine kept_fst (by assumption) ?_ | intro _
    | apply kept_ite | split)

theorem kept_svcFeedAll {k s : State} (hk : Kept k s) : Kept k (svcFeedAll s) := by
  unfold svcFeedAll
  try simp only []
  repeat' (with_reducible first
    | assumption | apply kept_svcFeed | (apply kept_foldS; intro _ _ _) | (apply kept_foldP; intro _ _ _)
    | (apply kept_foldL; intro _ _ _) | simp only [kept_mk] | refine kept_fst (by assumption) ?_ | intro _
    | apply kept_ite | split)

theorem kept_enterArrival {k s : State} (hk : Kept k s) (a : Arrival) {r : State} (he : enterArrival a s = some r) : Kept k r := by
  unfold enterArrival at he
  try simp only [] at he
  repeat' (split at he)
  all_goals (try cases he)
  repeat' (with_reducible first
    | assumption | apply kept_freeCredit | apply kept_enter | exact fun d hd => kept_cmdOf hd
    | (apply kept_foldS; intro _ _ _) | (apply kept_foldP; intro _ _ _) | (apply kept_foldL; intro _ _ _)
    | simp only [kept_mk] | refine kept_fst (by assumption) ?_ | intro _ | apply kept_ite | split)

theorem kept_enterArrivals {k s : State} (hk : Kept k s) (x1 : List Arrival) :
    Kept k (enterArrivals x1 s) := by
  induction x1 generalizing s with
  | nil => exact hk
  | cons a l ih =>
    unfold enterArrivals
    split
    · rename_i t he
      refine ih ?_
      split at he
      · cases he
      · exact kept_enterArrival hk a he
    · exact ih (by simp only [kept_mk]; exact hk)

theorem kept_takeArrivals {k s : State} (hk : Kept k s) : Kept k (takeArrivals s) := by
  unfold takeArrivals
  try simp only []
  repeat' (with_reducible first
    | assumption | apply kept_enterArrivals | (apply kept_foldS; intro _ _ _) | (apply kept_foldP; intro _ _ _)
    | (apply kept_foldL; intro _ _ _) | simp only [kept_mk] | refine kept_fst (by assumption) ?_ | intro _
    | apply kept_ite | split)

theorem kept_startNext {k s : State} (hk : Kept k s) : Kept k (startNext s) := by
  unfold startNext
  try simp only []
  repeat' (with_reducible first
    | assumption | apply kept_startEntered | apply kept_takenFrom | (apply kept_foldS; intro _ _ _)
    | (apply kept_foldP; intro _ _ _) | (apply kept_foldL; intro _ _ _) | simp only [kept_mk]
    | refine kept_fst (by assumption) ?_ | intro _ | apply kept_ite | split)

theorem kept_passClock {k s : State} (hk : Kept k s) : Kept k (passClock s) := by
  unfold passClock
  try simp only []
  repeat' (with_reducible first
    | assumption | apply kept_followSecond | apply kept_modDev | apply kept_modTime | apply kept_modLich
    | (apply kept_foldS; intro _ _ _) | (apply kept_foldP; intro _ _ _) | (apply kept_foldL; intro _ _ _)
    | simp only [kept_mk] | refine kept_fst (by assumption) ?_ | intro _ | apply kept_ite | split)

theorem kept_idle {k s : State} (hk : Kept k s) : Kept k (idle s) := by
  unfold idle
  try simp only []
  repeat' (with_reducible first
    | assumption | apply kept_drainHeld | apply kept_readRings | apply kept_passClock | apply kept_finish
    | apply kept_svcFeedAll | apply kept_startNext | apply kept_takeArrivals | (apply kept_foldS; intro _ _ _)
    | (apply kept_foldP; intro _ _ _) | (apply kept_foldL; intro _ _ _) | simp only [kept_mk]
    | refine kept_fst (by assumption) ?_ | intro _ | apply kept_ite | split)

end Sys2Proof.Machine
end

