-- ==== Sys2Proof/Laws/Mailbox.lean ====
section
/-!
SUPPORT. The mailbox RAM: a read after a write to the same byte gives the byte written, and a write leaves every other byte.
-/
set_option linter.all false
namespace Sys2Proof.Machine

theorem wf_tail {c : Host.Cell} {r : List Host.Cell} (h : Memory.wf (c :: r) = true) : Memory.wf r = true := by
  cases r with
  | nil => rfl
  | cons d r => simp only [Memory.wf, Bool.and_eq_true] at h; exact h.2

theorem wf_head {c : Host.Cell} {r : List Host.Cell} (h : Memory.wf (c :: r) = true) : ∀ d ∈ r, c.1 < d.1 := by
  induction r generalizing c with
  | nil => intro d hd; cases hd
  | cons e r ih =>
    simp only [Memory.wf, Bool.and_eq_true, decide_eq_true_eq] at h
    intro d hd
    cases hd with
    | head => exact h.1.2
    | tail _ hd => exact Nat.lt_trans h.1.2 (ih h.2 d hd)

theorem tfind_none {α : Type} {k : Nat} : ∀ {m : Tab α}, (∀ d ∈ m, k < d.1) → tfind k m = none
  | [], _ => rfl
  | (j, a) :: r, h => by
    have hj : k < j := h (j, a) (by simp)
    unfold tfind
    rw [if_neg (by omega)]
    exact tfind_none fun d hd => h d (by simp [hd])

/-- A read of one byte after a write of one byte. -/
theorem memGet_memSet (a : Nat) (b : Byte) (j : Nat) :
    ∀ m : List Host.Cell, Memory.wf m = true → memGet (memSet a b m) j = if j = a then b else memGet m j
  | [], _ => by
    unfold memSet memGet tget
    by_cases hb : b = 0
    · simp only [hb, if_true, tfind]; split <;> rfl
    · simp only [hb, if_false]
      by_cases hj : j = a
      · simp [hj, tfind]
      · have : ¬ a = j := fun h => hj h.symm
        simp [hj, tfind, this]
  | (k, v) :: r, h => by
    have hr := wf_tail h
    have hh := wf_head h
    have ih := memGet_memSet a b j r hr
    have hlt : a < k → tfind a ((k, v) :: r) = none := fun hak =>
      tfind_none (by intro d hd; cases hd with
        | head => exact hak
        | tail _ hd => exact Nat.lt_trans hak (hh d hd))
    unfold memSet
    unfold memGet tget at *
    by_cases h1 : a < k
    · rw [if_pos h1]
      by_cases hb : b = 0
      · rw [if_pos hb]
        by_cases hj : j = a
        · rw [hj, hlt h1, if_pos rfl, hb]; rfl
        · rw [if_neg hj]
      · rw [if_neg hb]
        by_cases hj : j = a
        · rw [if_pos hj, hj]; simp [tfind]
        · rw [if_neg hj]
          have : tfind j ((a, b) :: (k, v) :: r) = tfind j ((k, v) :: r) := by
            rw [tfind.eq_2, if_neg (fun h => hj h.symm)]
          rw [this]
    · rw [if_neg h1]
      by_cases h2 : a = k
      · rw [if_pos h2]
        by_cases hb : b = 0
        · rw [if_pos hb]
          by_cases hj : j = a
          · rw [if_pos hj, hj, tfind_none (fun d hd => h2 ▸ hh d hd), hb]; rfl
          · rw [if_neg hj]
            have : tfind j ((k, v) :: r) = tfind j r := by rw [tfind.eq_2, if_neg (fun h => hj (by rw [h2, h]))]
            rw [this]
        · rw [if_neg hb]
          by_cases hj : j = a
          · rw [if_pos hj, hj]; simp [tfind]
          · rw [if_neg hj]
            have e1 : tfind j ((k, v) :: r) = tfind j r := by rw [tfind.eq_2, if_neg (fun h => hj (by rw [h2, h]))]
            have e2 : tfind j ((a, b) :: r) = tfind j r := by rw [tfind.eq_2, if_neg (fun h => hj h.symm)]
            rw [e1, e2]
      · rw [if_neg h2]
        by_cases hk : k = j
        · have : j ≠ a := by omega
          rw [if_neg this]
          simp [tfind, hk]
        · have e1 : ∀ l : List Host.Cell, tfind j ((k, v) :: l) = tfind j l := fun l => by rw [tfind.eq_2, if_neg hk]
          rw [e1, e1]
          exact ih

/-- A byte of the mailbox RAM after a write of one byte. -/
theorem mailByte_setMail (a : Nat) (b : Byte) (j : Nat) (s : State) (hw : Memory.wf s.mail = true) :
    (setMail a b s).mailByte j = if j = a ∧ mailRam a = true then b else s.mailByte j := by
  unfold setMail State.mailByte
  by_cases ha : mailRam a = true
  · simp only [ha, if_true, memGet_memSet a b j _ hw, and_true]
    by_cases hj : j = a
    · simp [hj, ha]
    · simp [hj]
  · simp [ha]

theorem setMail_wf (a : Nat) (b : Byte) (s : State) (hw : Memory.wf s.mail = true) : Memory.wf (setMail a b s).mail = true := by
  unfold setMail
  split
  · exact (memSet_wf a b _ hw).1
  · exact hw

/-- Writing does not change anything but the mailbox RAM. -/
theorem setMail_rest (a : Nat) (b : Byte) (s : State) (m : List Host.Cell) :
    ({ setMail a b s with mail := m } : State) = { s with mail := m } := by
  unfold setMail
  split <;> rfl

theorem writeMail_bytes (a : Nat) (v : Word) (j : Nat) : ∀ (l : List Nat) (s : State), Memory.wf s.mail = true → l.Nodup →
    Memory.wf (foldS l (fun i => setMail (a + i) (BitVec.ofNat 8 (v.toNat / 256 ^ i))) s).mail = true ∧
    (foldS l (fun i => setMail (a + i) (BitVec.ofNat 8 (v.toNat / 256 ^ i))) s).mailByte j =
      (if a ≤ j ∧ (j - a) ∈ l ∧ mailRam j = true then BitVec.ofNat 8 (v.toNat / 256 ^ (j - a)) else s.mailByte j) ∧
    ∀ m, ({ foldS l (fun i => setMail (a + i) (BitVec.ofNat 8 (v.toNat / 256 ^ i))) s with mail := m } : State) =
      { s with mail := m }
  | [], s, hw, _ => ⟨hw, by simp [foldS], fun _ => rfl⟩
  | i :: l, s, hw, hn => by
    have hn' := List.nodup_cons.1 hn
    have hw' := setMail_wf (a + i) (BitVec.ofNat 8 (v.toNat / 256 ^ i)) s hw
    obtain ⟨h1, h2, h3⟩ := writeMail_bytes a v j l _ hw' hn'.2
    refine ⟨h1, ?_, fun m => (h3 m).trans (setMail_rest _ _ _ m)⟩
    show (foldS l (fun i => setMail (a + i) (BitVec.ofNat 8 (v.toNat / 256 ^ i)))
      (setMail (a + i) (BitVec.ofNat 8 (v.toNat / 256 ^ i)) s)).mailByte j = _
    rw [h2, mailByte_setMail _ _ _ _ hw]
    by_cases hj : j = a + i
    · have : j - a = i := by omega
      subst hj
      by_cases hm : mailRam (a + i) = true
      · simp [this, hn'.1, hm]
      · simp [this, hn'.1, hm]
    · have hne : ¬ (a ≤ j ∧ j - a = i) := by omega
      by_cases hl : a ≤ j ∧ (j - a) ∈ l ∧ mailRam j = true
      · rw [if_pos hl, if_pos ⟨hl.1, List.mem_cons_of_mem _ hl.2.1, hl.2.2⟩]
      · rw [if_neg hl, if_neg (by simp [hj])]
        rw [if_neg]
        rintro ⟨x, y, z⟩
        rcases List.mem_cons.1 y with y | y
        · exact hne ⟨x, y⟩
        · exact hl ⟨x, y, z⟩

/-- A word write: the bytes from the address to the end of its aligned word, and no other byte. -/
theorem mailByte_writeMail (a : Nat) (v : Word) (s : State) (hw : Memory.wf s.mail = true) (j : Nat) :
    (writeMail a v s).mailByte j =
      if a ≤ j ∧ j < a - a % 4 + 4 ∧ mailRam j = true then BitVec.ofNat 8 (v.toNat / 256 ^ (j - a)) else s.mailByte j := by
  unfold writeMail
  rw [(writeMail_bytes a v j (upTo (4 - a % 4)) s hw (List.nodup_range)).2.1]
  have : (j - a) ∈ upTo (4 - a % 4) ↔ j - a < 4 - a % 4 := by simp [upTo]
  have e : (a ≤ j ∧ (j - a) ∈ upTo (4 - a % 4) ∧ mailRam j = true) ↔ (a ≤ j ∧ j < a - a % 4 + 4 ∧ mailRam j = true) := by
    rw [this]
    constructor <;> rintro ⟨x, y, z⟩ <;> exact ⟨x, by omega, z⟩
  simp only [e]

theorem writeMail_wf (a : Nat) (v : Word) (s : State) (hw : Memory.wf s.mail = true) : Memory.wf (writeMail a v s).mail = true :=
  (writeMail_bytes a v 0 (upTo (4 - a % 4)) s hw (List.nodup_range)).1

theorem writeMail_rest (a : Nat) (v : Word) (s : State) (hw : Memory.wf s.mail = true) (m : List Host.Cell) :
    ({ writeMail a v s with mail := m } : State) = { s with mail := m } :=
  (writeMail_bytes a v 0 (upTo (4 - a % 4)) s hw (List.nodup_range)).2.2 m

end Sys2Proof.Machine
end

