-- ==== Sys2Proof/Laws/KeptEvents.lean ====
section
/-!
SUPPORT. `Kept` (Laws/Kept.lean) for the steps that the events of the table take.
-/
set_option linter.all false
namespace Sys2Proof.Machine

theorem kept_atCore {k s : State} (hk : Kept k s) (f : State → State) (hf : ∀ t : State, Kept k t → Kept k (f t)) : Kept k (atCore f s) := by
  unfold atCore
  try simp only []
  repeat' (with_reducible first
    | assumption | apply hf | apply kept_finish | (apply kept_foldS; intro _ _ _) | (apply kept_foldP; intro _ _ _)
    | (apply kept_foldL; intro _ _ _) | simp only [kept_mk] | refine kept_fst (by assumption) ?_ | intro _
    | apply kept_ite | split)

theorem kept_atChip {k s : State} (hk : Kept k s) (f : State → State) (hf : ∀ t : State, Kept k t → Kept k (f t)) : Kept k (atChip f s) := by
  unfold atChip
  try simp only []
  repeat' (with_reducible first
    | assumption | apply hf | apply kept_finish | (apply kept_foldS; intro _ _ _) | (apply kept_foldP; intro _ _ _)
    | (apply kept_foldL; intro _ _ _) | simp only [kept_mk] | refine kept_fst (by assumption) ?_ | intro _
    | apply kept_ite | split)

theorem kept_atMboter {k s : State} (hk : Kept k s) (f : State → State) (hf : ∀ t : State, Kept k t → Kept k (f t)) : Kept k (atMboter f s) := by
  unfold atMboter
  try simp only []
  repeat' (with_reducible first
    | assumption | apply hf | apply kept_finish | (apply kept_foldS; intro _ _ _) | (apply kept_foldP; intro _ _ _)
    | (apply kept_foldL; intro _ _ _) | simp only [kept_mk] | refine kept_fst (by assumption) ?_ | intro _
    | apply kept_ite | split)

theorem kept_atGroup {k s : State} (hk : Kept k s) (p : Nat) (g : Nat) (f : State → State) (hf : ∀ t : State, Kept k t → Kept k (f t)) : Kept k (atGroup p g f s) := by
  unfold atGroup
  try simp only []
  repeat' (with_reducible first
    | assumption | apply hf | apply kept_atCore | (apply kept_foldS; intro _ _ _) | (apply kept_foldP; intro _ _ _)
    | (apply kept_foldL; intro _ _ _) | simp only [kept_mk] | refine kept_fst (by assumption) ?_ | intro _
    | apply kept_ite | split)

theorem kept_noAck {k s : State} (hk : Kept k s) (e : Nat) : Kept k (noAck e s) := by
  unfold noAck
  try simp only []
  repeat' (with_reducible first
    | assumption | apply kept_raise | apply kept_setSqc | (apply kept_foldS; intro _ _ _)
    | (apply kept_foldP; intro _ _ _) | (apply kept_foldL; intro _ _ _) | simp only [kept_mk]
    | refine kept_fst (by assumption) ?_ | intro _ | apply kept_ite | split)

theorem kept_shedDue {k s : State} (hk : Kept k s) : Kept k (shedDue s) := by
  unfold shedDue
  try simp only []
  repeat' (with_reducible first
    | assumption | apply kept_freshStep | apply kept_ledgerStep | apply kept_shedNow
    | (apply kept_foldS; intro _ _ _) | (apply kept_foldP; intro _ _ _) | (apply kept_foldL; intro _ _ _)
    | simp only [kept_mk] | refine kept_fst (by assumption) ?_ | intro _ | apply kept_ite | split)

theorem kept_atCan {k s : State} (hk : Kept k s) (ch : Nat) (f : State → State) (hf : ∀ t : State, Kept k t → Kept k (f t)) : Kept k (atCan ch f s) := by
  unfold atCan
  try simp only []
  repeat' (with_reducible first
    | assumption | apply hf | apply kept_atCore | (apply kept_foldS; intro _ _ _) | (apply kept_foldP; intro _ _ _)
    | (apply kept_foldL; intro _ _ _) | simp only [kept_mk] | refine kept_fst (by assumption) ?_ | intro _
    | apply kept_ite | split)

theorem kept_atObj {k s : State} (hk : Kept k s) (ch : Nat) (k' : Nat) (f : State → State) (hf : ∀ t : State, Kept k t → Kept k (f t)) : Kept k (atObj ch k' f s) := by
  unfold atObj
  try simp only []
  repeat' (with_reducible first
    | assumption | apply hf | apply kept_atCan | (apply kept_foldS; intro _ _ _) | (apply kept_foldP; intro _ _ _)
    | (apply kept_foldL; intro _ _ _) | simp only [kept_mk] | refine kept_fst (by assumption) ?_ | intro _
    | apply kept_ite | split)

theorem kept_atPort {k s : State} (hk : Kept k s) (p : Nat) (f : State → State) (hf : ∀ t : State, Kept k t → Kept k (f t)) : Kept k (atPort p f s) := by
  unfold atPort
  try simp only []
  repeat' (with_reducible first
    | assumption | apply hf | apply kept_finish | (apply kept_foldS; intro _ _ _) | (apply kept_foldP; intro _ _ _)
    | (apply kept_foldL; intro _ _ _) | simp only [kept_mk] | refine kept_fst (by assumption) ?_ | intro _
    | apply kept_ite | split)

theorem kept_atBus {k s : State} (hk : Kept k s) (p : Nat) (f : State → State) (hf : ∀ t : State, Kept k t → Kept k (f t)) : Kept k (atBus p f s) := by
  unfold atBus
  try simp only []
  repeat' (with_reducible first
    | assumption | apply hf | apply kept_finish | (apply kept_foldS; intro _ _ _) | (apply kept_foldP; intro _ _ _)
    | (apply kept_foldL; intro _ _ _) | simp only [kept_mk] | refine kept_fst (by assumption) ?_ | intro _
    | apply kept_ite | split)

theorem kept_jobStep {k s : State} (hk : Kept k s) (p : Nat) (l : At) (ok : JobPhase → Bool) (f : Job → State → State) (hf : ∀ a t, Kept k t → Kept k (f a t)) : Kept k (jobStep p l ok f s) := by
  unfold jobStep
  try simp only []
  repeat' (with_reducible first
    | assumption | apply hf | apply kept_abortReset | (apply kept_foldS; intro _ _ _)
    | (apply kept_foldP; intro _ _ _) | (apply kept_foldL; intro _ _ _) | simp only [kept_mk]
    | refine kept_fst (by assumption) ?_ | intro _ | apply kept_ite | split)

theorem kept_ccDetached {k s : State} (hk : Kept k s) (p : Nat) : Kept k (ccDetached p s) := by
  unfold ccDetached
  try simp only []
  repeat' (with_reducible first
    | assumption | apply kept_holdDetach | apply kept_swappedDetach | apply kept_modPort | apply kept_detachPort
    | (apply kept_foldS; intro _ _ _) | (apply kept_foldP; intro _ _ _) | (apply kept_foldL; intro _ _ _)
    | simp only [kept_mk] | refine kept_fst (by assumption) ?_ | intro _ | apply kept_ite | split)

theorem kept_ctrlTimeout {k s : State} (hk : Kept k s) (p : Nat) (l : At) : Kept k (ctrlTimeout p l s) := by
  unfold ctrlTimeout
  try simp only []
  repeat' (with_reducible first
    | assumption | apply kept_abortReset | apply kept_attemptFails | apply kept_verified | apply kept_scanTimeout
    | (apply kept_foldS; intro _ _ _) | (apply kept_foldP; intro _ _ _) | (apply kept_foldL; intro _ _ _)
    | simp only [kept_mk] | refine kept_fst (by assumption) ?_ | intro _ | apply kept_ite | split)

theorem kept_resumeElapsed {k s : State} (hk : Kept k s) (p : Nat) : Kept k (resumeElapsed p s) := by
  unfold resumeElapsed
  try simp only []
  repeat' (with_reducible first
    | assumption | apply kept_resumeKEnds | (apply kept_foldS; intro _ _ _) | (apply kept_foldP; intro _ _ _)
    | (apply kept_foldL; intro _ _ _) | simp only [kept_mk] | refine kept_fst (by assumption) ?_ | intro _
    | apply kept_ite | split)

theorem kept_atPd {k s : State} (hk : Kept k s) (p : Nat) (f : State → State) (hf : ∀ t : State, Kept k t → Kept k (f t)) : Kept k (atPd p f s) := by
  unfold atPd
  try simp only []
  repeat' (with_reducible first
    | assumption | apply hf | apply kept_finish | apply kept_atBus | (apply kept_foldS; intro _ _ _)
    | (apply kept_foldP; intro _ _ _) | (apply kept_foldL; intro _ _ _) | simp only [kept_mk]
    | refine kept_fst (by assumption) ?_ | intro _ | apply kept_ite | split)

theorem kept_atDown {k s : State} (hk : Kept k s) (p : Nat) (f : State → State) (hf : ∀ t : State, Kept k t → Kept k (f t)) : Kept k (atDown p f s) := by
  unfold atDown
  try simp only []
  repeat' (with_reducible first
    | assumption | apply hf | apply kept_atBus | (apply kept_foldS; intro _ _ _) | (apply kept_foldP; intro _ _ _)
    | (apply kept_foldL; intro _ _ _) | simp only [kept_mk] | refine kept_fst (by assumption) ?_ | intro _
    | apply kept_ite | split)

theorem kept_svcDfpEnds {k s : State} (hk : Kept k s) : Kept k (svcDfpEnds s) := by
  unfold svcDfpEnds
  try simp only []
  repeat' (with_reducible first
    | assumption | apply kept_pdSend | apply kept_modPdOf | (apply kept_foldS; intro _ _ _)
    | (apply kept_foldP; intro _ _ _) | (apply kept_foldL; intro _ _ _) | simp only [kept_mk]
    | refine kept_fst (by assumption) ?_ | intro _ | apply kept_ite | split)

theorem kept_exitMode {k s : State} (hk : Kept k s) (p : Nat) : Kept k (exitMode p s) := by
  unfold exitMode
  try simp only []
  repeat' (with_reducible first
    | assumption | apply kept_useFree | apply kept_pdSend | apply kept_altExit | (apply kept_foldS; intro _ _ _)
    | (apply kept_foldP; intro _ _ _) | (apply kept_foldL; intro _ _ _) | simp only [kept_mk]
    | refine kept_fst (by assumption) ?_ | intro _ | apply kept_ite | split)

theorem kept_svcVbusSeen {k s : State} (hk : Kept k s) (rp : Nat) : Kept k (svcVbusSeen rp s) := by
  unfold svcVbusSeen
  try simp only []
  repeat' (with_reducible first
    | assumption | apply kept_servicePower | apply kept_modSvc | apply kept_svcAttach
    | (apply kept_foldS; intro _ _ _) | (apply kept_foldP; intro _ _ _) | (apply kept_foldL; intro _ _ _)
    | simp only [kept_mk] | refine kept_fst (by assumption) ?_ | intro _ | apply kept_ite | split)

theorem kept_svcOverload {k s : State} (hk : Kept k s) : Kept k (svcOverload s) := by
  unfold svcOverload
  try simp only []
  repeat' (with_reducible first
    | assumption | apply kept_ashRecord | apply kept_modSvc | apply kept_dieReset | (apply kept_foldS; intro _ _ _)
    | (apply kept_foldP; intro _ _ _) | (apply kept_foldL; intro _ _ _) | simp only [kept_mk]
    | refine kept_fst (by assumption) ?_ | intro _ | apply kept_ite | split)

theorem kept_atPower {k s : State} (hk : Kept k s) (f : State → State) (hf : ∀ t : State, Kept k t → Kept k (f t)) : Kept k (atPower f s) := by
  unfold atPower
  try simp only []
  repeat' (with_reducible first
    | assumption | apply hf | apply kept_finish | (apply kept_foldS; intro _ _ _) | (apply kept_foldP; intro _ _ _)
    | (apply kept_foldL; intro _ _ _) | simp only [kept_mk] | refine kept_fst (by assumption) ?_ | intro _
    | apply kept_ite | split)

theorem kept_atSwitch {k s : State} (hk : Kept k s) (p : Nat) (f : State → State) (hf : ∀ t : State, Kept k t → Kept k (f t)) : Kept k (atSwitch p f s) := by
  unfold atSwitch
  try simp only []
  repeat' (with_reducible first
    | assumption | apply hf | apply kept_atPower | (apply kept_foldS; intro _ _ _)
    | (apply kept_foldP; intro _ _ _) | (apply kept_foldL; intro _ _ _) | simp only [kept_mk]
    | refine kept_fst (by assumption) ?_ | intro _ | apply kept_ite | split)

theorem kept_feedGateOn {k s : State} (hk : Kept k s) (f : HostId) (mv : Nat) : Kept k (feedGateOn f mv s) := by
  unfold feedGateOn
  try simp only []
  repeat' (with_reducible first
    | assumption | apply kept_feedOn | apply kept_startWake | (apply kept_foldS; intro _ _ _)
    | (apply kept_foldP; intro _ _ _) | (apply kept_foldL; intro _ _ _) | simp only [kept_mk]
    | refine kept_fst (by assumption) ?_ | intro _ | apply kept_ite | split)

theorem kept_coreFault {k s : State} (hk : Kept k s) (src : Nat) : Kept k (coreFault src s) := by
  unfold coreFault
  try simp only []
  repeat' (with_reducible first
    | assumption | apply kept_startLate | apply kept_ashFault | apply kept_raise | (apply kept_foldS; intro _ _ _)
    | (apply kept_foldP; intro _ _ _) | (apply kept_foldL; intro _ _ _) | simp only [kept_mk]
    | refine kept_fst (by assumption) ?_ | intro _ | apply kept_ite | split)

theorem kept_sensorDiverges {k s : State} (hk : Kept k s) (k' : Nat) : Kept k (sensorDiverges k' s) := by
  unfold sensorDiverges
  try simp only []
  repeat' (with_reducible first
    | assumption | apply kept_raise | apply kept_setSqc | apply kept_modLedger | (apply kept_foldS; intro _ _ _)
    | (apply kept_foldP; intro _ _ _) | (apply kept_foldL; intro _ _ _) | simp only [kept_mk]
    | refine kept_fst (by assumption) ?_ | intro _ | apply kept_ite | split)

theorem kept_intervalEnds {k s : State} (hk : Kept k s) (kind : MergeKind) : Kept k (intervalEnds kind s) := by
  unfold intervalEnds
  try simp only []
  repeat' (with_reducible first
    | assumption | apply kept_serviceEnd | apply kept_objectsEnd | apply kept_frameErrorsEnd
    | apply kept_topologyIntervalEnd | apply kept_postGlitch | apply kept_repeatEnds
    | (apply kept_foldS; intro _ _ _) | (apply kept_foldP; intro _ _ _) | (apply kept_foldL; intro _ _ _)
    | simp only [kept_mk] | refine kept_fst (by assumption) ?_ | intro _ | apply kept_ite | split)

theorem kept_wakeAfterEnds {k s : State} (hk : Kept k s) : Kept k (wakeAfterEnds s) := by
  unfold wakeAfterEnds
  try simp only []
  repeat' (with_reducible first
    | assumption | apply kept_wakeTrigger | (apply kept_foldS; intro _ _ _) | (apply kept_foldP; intro _ _ _)
    | (apply kept_foldL; intro _ _ _) | simp only [kept_mk] | refine kept_fst (by assumption) ?_ | intro _
    | apply kept_ite | split)

theorem kept_supplyLost {k s : State} (hk : Kept k s) (code : Nat) : Kept k (supplyLost code s) := by
  unfold supplyLost
  try simp only []
  repeat' (with_reducible first
    | assumption | apply kept_railLost | apply kept_dieReset | (apply kept_foldS; intro _ _ _)
    | (apply kept_foldP; intro _ _ _) | (apply kept_foldL; intro _ _ _) | simp only [kept_mk]
    | refine kept_fst (by assumption) ?_ | intro _ | apply kept_ite | split)

theorem kept_atInst {k s : State} (hk : Kept k s) (i : Nat) (f : State → State) (hf : ∀ t : State, Kept k t → Kept k (f t)) : Kept k (atInst i f s) := by
  unfold atInst
  try simp only []
  repeat' (with_reducible first
    | assumption | apply hf | apply kept_finish | (apply kept_foldS; intro _ _ _) | (apply kept_foldP; intro _ _ _)
    | (apply kept_foldL; intro _ _ _) | simp only [kept_mk] | refine kept_fst (by assumption) ?_ | intro _
    | apply kept_ite | split)

theorem kept_atTime {k s : State} (hk : Kept k s) (f : State → State) (hf : ∀ t : State, Kept k t → Kept k (f t)) : Kept k (atTime f s) := by
  unfold atTime
  try simp only []
  repeat' (with_reducible first
    | assumption | apply hf | apply kept_finish | (apply kept_foldS; intro _ _ _) | (apply kept_foldP; intro _ _ _)
    | (apply kept_foldL; intro _ _ _) | simp only [kept_mk] | refine kept_fst (by assumption) ?_ | intro _
    | apply kept_ite | split)

theorem kept_saveTick {k s : State} (hk : Kept k s) : Kept k (saveTick s) := by
  unfold saveTick
  try simp only []
  repeat' (with_reducible first
    | assumption | apply kept_saveF | (apply kept_foldS; intro _ _ _) | (apply kept_foldP; intro _ _ _)
    | (apply kept_foldL; intro _ _ _) | simp only [kept_mk] | refine kept_fst (by assumption) ?_ | intro _
    | apply kept_ite | split)

theorem kept_clocksLost {k s : State} (hk : Kept k s) : Kept k (clocksLost s) := by
  unfold clocksLost
  try simp only []
  repeat' (with_reducible first
    | assumption | apply kept_stepTimeout | apply kept_modPower | apply kept_dieReset | apply kept_useFree
    | (apply kept_foldS; intro _ _ _) | (apply kept_foldP; intro _ _ _) | (apply kept_foldL; intro _ _ _)
    | simp only [kept_mk] | refine kept_fst (by assumption) ?_ | intro _ | apply kept_ite | split)

theorem kept_refFails {k s : State} (hk : Kept k s) : Kept k (refFails s) := by
  unfold refFails
  try simp only []
  repeat' (with_reducible first
    | assumption | apply kept_clocksLost | apply kept_refSwitch | (apply kept_foldS; intro _ _ _)
    | (apply kept_foldP; intro _ _ _) | (apply kept_foldL; intro _ _ _) | simp only [kept_mk]
    | refine kept_fst (by assumption) ?_ | intro _ | apply kept_ite | split)

theorem kept_xtal32Fails {k s : State} (hk : Kept k s) : Kept k (xtal32Fails s) := by
  unfold xtal32Fails
  try simp only []
  repeat' (with_reducible first
    | assumption | apply kept_ashRecord | apply kept_modLich | (apply kept_foldS; intro _ _ _)
    | (apply kept_foldP; intro _ _ _) | (apply kept_foldL; intro _ _ _) | simp only [kept_mk]
    | refine kept_fst (by assumption) ?_ | intro _ | apply kept_ite | split)

theorem kept_atTrunk {k s : State} (hk : Kept k s) (n : Nat) (f : State → State) (hf : ∀ t : State, Kept k t → Kept k (f t)) : Kept k (atTrunk n f s) := by
  unfold atTrunk
  try simp only []
  repeat' (with_reducible first
    | assumption | apply hf | apply kept_atChip | (apply kept_foldS; intro _ _ _) | (apply kept_foldP; intro _ _ _)
    | (apply kept_foldL; intro _ _ _) | simp only [kept_mk] | refine kept_fst (by assumption) ?_ | intro _
    | apply kept_ite | split)

end Sys2Proof.Machine
end

