-- ==== Sys2Proof/Laws/KeptExec.lean ====
section
/-!
SUPPORT. `Kept` (Laws/Kept.lean) for the meaning of every command.
-/
set_option linter.all false
namespace Sys2Proof.Machine

theorem kept_execMicroframeBoundary {k s t : State} (hk : Kept k s)  (h : execMicroframeBoundary s = .next t) : Kept k t := by
  simp only [execMicroframeBoundary, Host.Outcome.next.injEq] at h
  subst h
  repeat' (with_reducible first
    | assumption | apply kept_atCore | apply kept_boundary | exact hOwner_le _ | intro _ | apply kept_ite
    | simp only [kept_mk] | split)

theorem kept_execSublistCommit {k s t : State} (hk : Kept k s) (te : Nat) (p : Nat) (g : Nat) (h : execSublistCommit te p g s = .next t) : Kept k t := by
  simp only [execSublistCommit, Host.Outcome.next.injEq] at h
  subst h
  repeat' (with_reducible first
    | assumption | apply kept_atGroup | apply kept_commitList | exact hOwner_le _ | intro _ | apply kept_ite
    | simp only [kept_mk] | split)

theorem kept_execTransactionResult {k s t : State} (hk : Kept k s) (r : TxnRes) (h : execTransactionResult r s = .next t) : Kept k t := by
  simp only [execTransactionResult, Host.Outcome.next.injEq] at h
  subst h
  repeat' (with_reducible first
    | assumption | apply kept_atCore | apply kept_txnResult | exact hOwner_le _ | intro _ | apply kept_ite
    | simp only [kept_mk] | split)

theorem kept_execQueueRefillDone {k s t : State} (hk : Kept k s) (q : Nat) (bad : List Nat) (h : execQueueRefillDone q bad s = .next t) : Kept k t := by
  unfold execQueueRefillDone at h
  cases h
  try simp only []
  repeat' (with_reducible first
    | assumption | apply kept_atChip | apply kept_refillHead | (apply kept_foldS; intro _ _ _)
    | (apply kept_foldP; intro _ _ _) | (apply kept_foldL; intro _ _ _) | simp only [kept_mk]
    | refine kept_fst (by assumption) ?_ | intro _ | apply kept_ite | split)

theorem kept_execStokerReplan {k s t : State} (hk : Kept k s) (why : Replan) (h : execStokerReplan why s = .next t) : Kept k t := by
  simp only [execStokerReplan, Host.Outcome.next.injEq] at h
  subst h
  repeat' (with_reducible first
    | assumption | apply kept_atMboter | apply kept_setSqc | apply kept_replan | exact hOwner_le _ | intro _
    | apply kept_ite | simp only [kept_mk] | split)

theorem kept_execMigrationReady {k s t : State} (hk : Kept k s) (p : Nat) (g : Nat) (h : execMigrationReady p g s = .next t) : Kept k t := by
  simp only [execMigrationReady, Host.Outcome.next.injEq] at h
  subst h
  repeat' (with_reducible first
    | assumption | apply kept_atGroup | apply kept_migReady | exact hOwner_le _ | intro _ | apply kept_ite
    | simp only [kept_mk] | split)

theorem kept_execMigrationDrainMarker {k s t : State} (hk : Kept k s) (p : Nat) (g : Nat) (h : execMigrationDrainMarker p g s = .next t) : Kept k t := by
  simp only [execMigrationDrainMarker, Host.Outcome.next.injEq] at h
  subst h
  repeat' (with_reducible first
    | assumption | apply kept_atGroup | apply kept_migDrained | exact hOwner_le _ | intro _ | apply kept_ite
    | simp only [kept_mk] | split)

theorem kept_execColdTakeoverReady {k s t : State} (hk : Kept k s) (p : Nat) (g : Nat) (h : execColdTakeoverReady p g s = .next t) : Kept k t := by
  simp only [execColdTakeoverReady, Host.Outcome.next.injEq] at h
  subst h
  repeat' (with_reducible first
    | assumption | apply kept_atGroup | apply kept_coldReady | exact hOwner_le _ | intro _ | apply kept_ite
    | simp only [kept_mk] | split)

theorem kept_execEngineNoAck {k s t : State} (hk : Kept k s) (te : Nat) (h : execEngineNoAck te s = .next t) : Kept k t := by
  simp only [execEngineNoAck, Host.Outcome.next.injEq] at h
  subst h
  repeat' (with_reducible first
    | assumption | apply kept_atCore | apply kept_noAck | exact hOwner_le _ | intro _ | apply kept_ite
    | simp only [kept_mk] | split)

theorem kept_execLedgerRecompute {k s t : State} (hk : Kept k s) (m : LedgerMeas) (h : execLedgerRecompute m s = .next t) : Kept k t := by
  simp only [execLedgerRecompute, Host.Outcome.next.injEq] at h
  subst h
  repeat' (with_reducible first
    | assumption | apply kept_atCore | apply kept_recalibrate | apply kept_recompute | exact hOwner_le _ | intro _
    | apply kept_ite | simp only [kept_mk] | split)

theorem kept_execLedgerMeasurementElapsed {k s t : State} (hk : Kept k s)  (h : execLedgerMeasurementElapsed s = .next t) : Kept k t := by
  simp only [execLedgerMeasurementElapsed, Host.Outcome.next.injEq] at h
  subst h
  repeat' (with_reducible first
    | assumption | apply kept_atCore | apply kept_modLedger | exact hOwner_le _ | intro _ | apply kept_ite
    | simp only [kept_mk] | split)

theorem kept_execTrelaxExpires {k s t : State} (hk : Kept k s)  (h : execTrelaxExpires s = .next t) : Kept k t := by
  simp only [execTrelaxExpires, Host.Outcome.next.injEq] at h
  subst h
  repeat' (with_reducible first
    | assumption | apply kept_atCore | apply kept_relax | exact hOwner_le _ | intro _ | apply kept_ite
    | simp only [kept_mk] | split)

theorem kept_execTshedExpires {k s t : State} (hk : Kept k s)  (h : execTshedExpires s = .next t) : Kept k t := by
  simp only [execTshedExpires, Host.Outcome.next.injEq] at h
  subst h
  repeat' (with_reducible first
    | assumption | apply kept_atMboter | apply kept_shedDue | exact hOwner_le _ | intro _ | apply kept_ite
    | simp only [kept_mk] | split)

theorem kept_execFeedLimitShedTick {k s t : State} (hk : Kept k s)  (h : execFeedLimitShedTick s = .next t) : Kept k t := by
  simp only [execFeedLimitShedTick, Host.Outcome.next.injEq] at h
  subst h
  repeat' (with_reducible first
    | assumption | apply kept_atCore | apply kept_limitShed | exact hOwner_le _ | intro _ | apply kept_ite
    | simp only [kept_mk] | split)

theorem kept_execTrestoreExpires {k s t : State} (hk : Kept k s)  (h : execTrestoreExpires s = .next t) : Kept k t := by
  simp only [execTrestoreExpires, Host.Outcome.next.injEq] at h
  subst h
  repeat' (with_reducible first
    | assumption | apply kept_atCore | apply kept_restoreStart | exact hOwner_le _ | intro _ | apply kept_ite
    | simp only [kept_mk] | split)

theorem kept_execShedRestoreTick {k s t : State} (hk : Kept k s)  (h : execShedRestoreTick s = .next t) : Kept k t := by
  simp only [execShedRestoreTick, Host.Outcome.next.injEq] at h
  subst h
  repeat' (with_reducible first
    | assumption | apply kept_atCore | apply kept_restoreOne | exact hOwner_le _ | intro _ | apply kept_ite
    | simp only [kept_mk] | split)

theorem kept_execEvacuationRetryTick {k s t : State} (hk : Kept k s)  (h : execEvacuationRetryTick s = .next t) : Kept k t := by
  simp only [execEvacuationRetryTick, Host.Outcome.next.injEq] at h
  subst h
  repeat' (with_reducible first
    | assumption | apply kept_atMboter | apply kept_evacRetry | exact hOwner_le _ | intro _ | apply kept_ite
    | simp only [kept_mk] | split)

theorem kept_execEvacuationTimeout {k s t : State} (hk : Kept k s) (h : execEvacuationTimeout s = .next t) : Kept k t := by
  simp only [execEvacuationTimeout, Host.Outcome.next.injEq] at h
  subst h
  repeat' (with_reducible first
    | assumption | apply kept_atMboter | apply kept_evacTimeout | exact hOwner_le _ | intro _ | apply kept_ite
    | simp only [kept_mk] | split)

theorem kept_execRotationTick {k s t : State} (hk : Kept k s) (u : Option TUnit) (port : Nat) (h : execRotationTick u port s = .next t) : Kept k t := by
  simp only [execRotationTick, Host.Outcome.next.injEq] at h
  subst h
  repeat' (with_reducible first
    | assumption | apply kept_atMboter | apply kept_rotation | exact hOwner_le _ | intro _ | apply kept_ite
    | simp only [kept_mk] | split)

theorem kept_execEvacuationCopyComplete {k s t : State} (hk : Kept k s)  (h : execEvacuationCopyComplete s = .next t) : Kept k t := by
  simp only [execEvacuationCopyComplete, Host.Outcome.next.injEq] at h
  subst h
  repeat' (with_reducible first
    | assumption | apply kept_atCore | apply kept_evacCopied | exact hOwner_le _ | intro _ | apply kept_ite
    | simp only [kept_mk] | split)

theorem kept_execTestComplete {k s t : State} (hk : Kept k s) (r : TestEnd) (h : execTestComplete r s = .next t) : Kept k t := by
  simp only [execTestComplete, Host.Outcome.next.injEq] at h
  subst h
  repeat' (with_reducible first
    | assumption | apply kept_atCore | apply kept_testEnds | exact hOwner_le _ | intro _ | apply kept_ite
    | simp only [kept_mk] | split)

theorem kept_execPayloadBankIdleOff {k s t : State} (hk : Kept k s) (b : Nat) (h : execPayloadBankIdleOff b s = .next t) : Kept k t := by
  simp only [execPayloadBankIdleOff, Host.Outcome.next.injEq] at h
  subst h
  repeat' (with_reducible first
    | assumption | apply kept_atChip | apply kept_bankIdleOff | exact hOwner_le _ | intro _ | apply kept_ite
    | simp only [kept_mk] | split)

theorem kept_execActiveSetShrink {k s t : State} (hk : Kept k s)  (h : execActiveSetShrink s = .next t) : Kept k t := by
  simp only [execActiveSetShrink, Host.Outcome.next.injEq] at h
  subst h
  repeat' (with_reducible first
    | assumption | apply kept_atChip | apply kept_shrinkSet | exact hOwner_le _ | intro _ | apply kept_ite
    | simp only [kept_mk] | split)

theorem kept_execPeatScrub {k s t : State} (hk : Kept k s) (f : PeatFound) (h : execPeatScrub f s = .next t) : Kept k t := by
  simp only [execPeatScrub, Host.Outcome.next.injEq] at h
  subst h
  repeat' (with_reducible first
    | assumption | apply kept_atChip | apply kept_peatScrub | exact hOwner_le _ | intro _ | apply kept_ite
    | simp only [kept_mk] | split)

theorem kept_execCtrlSramScrub {k s t : State} (hk : Kept k s) (f : CtrlFound) (h : execCtrlSramScrub f s = .next t) : Kept k t := by
  simp only [execCtrlSramScrub, Host.Outcome.next.injEq] at h
  subst h
  repeat' (with_reducible first
    | assumption | apply kept_atChip | apply kept_ctrlScrub | exact hOwner_le _ | intro _ | apply kept_ite
    | simp only [kept_mk] | split)

theorem kept_execCanIntegrationComplete {k s t : State} (hk : Kept k s) (ch : Nat) (h : execCanIntegrationComplete ch s = .next t) : Kept k t := by
  simp only [execCanIntegrationComplete, Host.Outcome.next.injEq] at h
  subst h
  repeat' (with_reducible first
    | assumption | apply kept_atCan | apply kept_integrated | exact hOwner_le _ | intro _ | apply kept_ite
    | simp only [kept_mk] | split)

theorem kept_execCanFrameReceived {k s t : State} (hk : Kept k s) (ch : Nat) (f : CanFrame) (h : execCanFrameReceived ch f s = .next t) : Kept k t := by
  simp only [execCanFrameReceived, Host.Outcome.next.injEq] at h
  subst h
  repeat' (with_reducible first
    | assumption | apply kept_atCan | apply kept_canReceive | exact hOwner_le _ | intro _ | apply kept_ite
    | simp only [kept_mk] | split)

theorem kept_execCanReferenceMessageReceived {k s t : State} (hk : Kept k s) (ch : Nat) (ide : Bool) (id : BitVec 29) (h : execCanReferenceMessageReceived ch ide id s = .next t) : Kept k t := by
  simp only [execCanReferenceMessageReceived, Host.Outcome.next.injEq] at h
  subst h
  repeat' (with_reducible first
    | assumption | apply kept_atCan | apply kept_referenceSeen | exact hOwner_le _ | intro _ | apply kept_ite
    | simp only [kept_mk] | split)

theorem kept_atSend {k s : State} (hk : Kept k s) (ch : Nat) (k' : Nat) (f : State → State) (hf : ∀ t : State, Kept k t → Kept k (f t)) : Kept k (atSend ch k' f s) := by
  unfold atSend
  try simp only []
  repeat' (with_reducible first
    | assumption | apply hf | apply kept_atCan | (apply kept_foldS; intro _ _ _) | (apply kept_foldP; intro _ _ _)
    | (apply kept_foldL; intro _ _ _) | simp only [kept_mk] | refine kept_fst (by assumption) ?_ | intro _
    | apply kept_ite | split)

theorem kept_execCanErrorDetected {k s t : State} (hk : Kept k s) (ch : Nat) (e : CanErr) (h : execCanErrorDetected ch e s = .next t) : Kept k t := by
  simp only [execCanErrorDetected, Host.Outcome.next.injEq] at h
  subst h
  repeat' (with_reducible first
    | assumption | apply kept_atSend | apply kept_atObj | apply kept_canError | exact hOwner_le _ | intro _
    | apply kept_ite | simp only [kept_mk] | split)

theorem kept_execCanBusOffRecovery {k s t : State} (hk : Kept k s) (ch : Nat) (h : execCanBusOffRecovery ch s = .next t) : Kept k t := by
  simp only [execCanBusOffRecovery, Host.Outcome.next.injEq] at h
  subst h
  repeat' (with_reducible first
    | assumption | apply kept_atCan | apply kept_busOffRecovers | exact hOwner_le _ | intro _ | apply kept_ite
    | simp only [kept_mk] | split)

theorem kept_execCanSendComplete {k s t : State} (hk : Kept k s) (ch : Nat) (obj : Nat) (result : Nat) (ago : Nat) (tdcMeasured : Option Nat) (h : execCanSendComplete ch obj result ago tdcMeasured s = .next t) : Kept k t := by
  unfold execCanSendComplete at h
  cases h
  try simp only []
  repeat' (with_reducible first
    | assumption | apply kept_atSend | apply kept_sendEnds | (apply kept_foldS; intro _ _ _)
    | (apply kept_foldP; intro _ _ _) | (apply kept_foldL; intro _ _ _) | simp only [kept_mk]
    | refine kept_fst (by assumption) ?_ | intro _ | apply kept_ite | split)

theorem kept_execTlockExpires {k s t : State} (hk : Kept k s) (ch : Nat) (obj : Nat) (h : execTlockExpires ch obj s = .next t) : Kept k t := by
  simp only [execTlockExpires, Host.Outcome.next.injEq] at h
  subst h
  repeat' (with_reducible first
    | assumption | apply kept_atObj | apply kept_lockExpires | exact hOwner_le _ | intro _ | apply kept_ite
    | simp only [kept_mk] | split)

theorem kept_execCanCycleStart {k s t : State} (hk : Kept k s) (ch : Nat) (h : execCanCycleStart ch s = .next t) : Kept k t := by
  simp only [execCanCycleStart, Host.Outcome.next.injEq] at h
  subst h
  repeat' (with_reducible first
    | assumption | apply kept_atCan | apply kept_cycleStart | exact hOwner_le _ | intro _ | apply kept_ite
    | simp only [kept_mk] | split)

theorem kept_execCanProtocolException {k s t : State} (hk : Kept k s) (ch : Nat) (h : execCanProtocolException ch s = .next t) : Kept k t := by
  simp only [execCanProtocolException, Host.Outcome.next.injEq] at h
  subst h
  repeat' (with_reducible first
    | assumption | apply kept_atCan | apply kept_protocolException | exact hOwner_le _ | intro _ | apply kept_ite
    | simp only [kept_mk] | split)

theorem kept_execCcRdSeen {k s t : State} (hk : Kept k s) (p : Nat) (cc : CcSeen) (h : execCcRdSeen p cc s = .next t) : Kept k t := by
  simp only [execCcRdSeen, Host.Outcome.next.injEq] at h
  subst h
  repeat' (with_reducible first
    | assumption | apply kept_atPort | apply kept_swappedRd | apply kept_ccSeen | exact hOwner_le _ | intro _
    | apply kept_ite | simp only [kept_mk] | split)

theorem kept_execCcRdLost {k s t : State} (hk : Kept k s) (p : Nat) (h : execCcRdLost p s = .next t) : Kept k t := by
  simp only [execCcRdLost, Host.Outcome.next.injEq] at h
  subst h
  repeat' (with_reducible first
    | assumption | apply kept_atPort | apply kept_ccLost | exact hOwner_le _ | intro _ | apply kept_ite
    | simp only [kept_mk] | split)

theorem kept_execTccdebounceExpires {k s t : State} (hk : Kept k s) (p : Nat) (h : execTccdebounceExpires p s = .next t) : Kept k t := by
  simp only [execTccdebounceExpires, Host.Outcome.next.injEq] at h
  subst h
  repeat' (with_reducible first
    | assumption | apply kept_atPort | apply kept_ccDebounced | exact hOwner_le _ | intro _ | apply kept_ite
    | simp only [kept_mk] | split)

theorem kept_execTpddebounceExpires {k s t : State} (hk : Kept k s) (p : Nat) (h : execTpddebounceExpires p s = .next t) : Kept k t := by
  simp only [execTpddebounceExpires, Host.Outcome.next.injEq] at h
  subst h
  repeat' (with_reducible first
    | assumption | apply kept_atPort | apply kept_ccDetached | exact hOwner_le _ | intro _ | apply kept_ite
    | simp only [kept_mk] | split)

theorem kept_execPowerGood {k s t : State} (hk : Kept k s) (p : Nat) (h : execPowerGood p s = .next t) : Kept k t := by
  simp only [execPowerGood, Host.Outcome.next.injEq] at h
  subst h
  repeat' (with_reducible first
    | assumption | apply kept_atPort | apply kept_holdPowerGood | apply kept_powerGood | exact hOwner_le _
    | intro _ | apply kept_ite | simp only [kept_mk] | split)

theorem kept_execPowerGoodLost {k s t : State} (hk : Kept k s) (p : Nat) (vsns : Nat) (h : execPowerGoodLost p vsns s = .next t) : Kept k t := by
  simp only [execPowerGoodLost, Host.Outcome.next.injEq] at h
  subst h
  repeat' (with_reducible first
    | assumption | apply kept_atPort | apply kept_pgLost | exact hOwner_le _ | intro _ | apply kept_ite
    | simp only [kept_mk] | split)

theorem kept_execPullupSeen {k s t : State} (hk : Kept k s) (p : Nat) (h : execPullupSeen p s = .next t) : Kept k t := by
  simp only [execPullupSeen, Host.Outcome.next.injEq] at h
  subst h
  repeat' (with_reducible first
    | assumption | apply kept_atPort | apply kept_pullup | exact hOwner_le _ | intro _ | apply kept_ite
    | simp only [kept_mk] | split)

theorem kept_execPullupLost {k s t : State} (hk : Kept k s) (p : Nat) (h : execPullupLost p s = .next t) : Kept k t := by
  simp only [execPullupLost, Host.Outcome.next.injEq] at h
  subst h
  repeat' (with_reducible first
    | assumption | apply kept_atPort | apply kept_pullupGone | exact hOwner_le _ | intro _ | apply kept_ite
    | simp only [kept_mk] | split)

theorem kept_execTconnectExpires {k s t : State} (hk : Kept k s) (p : Nat) (h : execTconnectExpires p s = .next t) : Kept k t := by
  simp only [execTconnectExpires, Host.Outcome.next.injEq] at h
  subst h
  repeat' (with_reducible first
    | assumption | apply kept_atPort | apply kept_connectTimeout | exact hOwner_le _ | intro _ | apply kept_ite
    | simp only [kept_mk] | split)

theorem kept_execTattdbExpires {k s t : State} (hk : Kept k s) (p : Nat) (loc : At) (dplus : Bool) (h : execTattdbExpires p loc dplus s = .next t) : Kept k t := by
  simp only [execTattdbExpires, Host.Outcome.next.injEq] at h
  subst h
  repeat' (with_reducible first
    | assumption | apply kept_atBus | apply kept_debounced | exact hOwner_le _ | intro _ | apply kept_ite
    | simp only [kept_mk] | split)

theorem kept_execChirpKDetected {k s t : State} (hk : Kept k s) (p : Nat) (us : Nat) (h : execChirpKDetected p us s = .next t) : Kept k t := by
  simp only [execChirpKDetected, Host.Outcome.next.injEq] at h
  subst h
  repeat' (with_reducible first
    | assumption | apply kept_atBus | apply kept_chirpK | exact hOwner_le _ | intro _ | apply kept_ite
    | simp only [kept_mk] | split)

theorem kept_execTrstrootExpires {k s t : State} (hk : Kept k s) (p : Nat) (h : execTrstrootExpires p s = .next t) : Kept k t := by
  simp only [execTrstrootExpires, Host.Outcome.next.injEq] at h
  subst h
  repeat' (with_reducible first
    | assumption | apply kept_atBus | apply kept_rootResetEnds | exact hOwner_le _ | intro _ | apply kept_ite
    | simp only [kept_mk] | split)

theorem kept_execTrstrcyExpires {k s t : State} (hk : Kept k s) (p : Nat) (loc : At) (hubSpeed : Nat) (h : execTrstrcyExpires p loc hubSpeed s = .next t) : Kept k t := by
  simp only [execTrstrcyExpires, Host.Outcome.next.injEq] at h
  subst h
  repeat' (with_reducible first
    | assumption | apply kept_atBus | apply kept_jobStep | apply kept_firstRequest | exact hOwner_le _ | intro _
    | apply kept_ite | simp only [kept_mk] | split)

theorem kept_execTsetaddrExpires {k s t : State} (hk : Kept k s) (p : Nat) (loc : At) (h : execTsetaddrExpires p loc s = .next t) : Kept k t := by
  simp only [execTsetaddrExpires, Host.Outcome.next.injEq] at h
  subst h
  repeat' (with_reducible first
    | assumption | apply kept_atBus | apply kept_jobStep | apply kept_ask | exact hOwner_le _ | intro _
    | apply kept_ite | simp only [kept_mk] | split)

theorem kept_execTctrlExpires {k s t : State} (hk : Kept k s) (p : Nat) (loc : At) (h : execTctrlExpires p loc s = .next t) : Kept k t := by
  simp only [execTctrlExpires, Host.Outcome.next.injEq] at h
  subst h
  repeat' (with_reducible first
    | assumption | apply kept_atBus | apply kept_ctrlTimeout | exact hOwner_le _ | intro _ | apply kept_ite
    | simp only [kept_mk] | split)

theorem kept_execTenumRetryExpires {k s t : State} (hk : Kept k s) (p : Nat) (loc : At) (h : execTenumRetryExpires p loc s = .next t) : Kept k t := by
  simp only [execTenumRetryExpires, Host.Outcome.next.injEq] at h
  subst h
  repeat' (with_reducible first
    | assumption | apply kept_atBus | apply kept_jobStep | apply kept_resetAgain | exact hOwner_le _ | intro _
    | apply kept_ite | simp only [kept_mk] | split)

theorem kept_execTaddrQuietExpires {k s t : State} (hk : Kept k s) (p : Nat) (what : Quiet) (h : execTaddrQuietExpires p what s = .next t) : Kept k t := by
  simp only [execTaddrQuietExpires, Host.Outcome.next.injEq] at h
  subst h
  repeat' (with_reducible first
    | assumption | apply kept_atPort | apply kept_modPort | exact hOwner_le _ | intro _ | apply kept_ite
    | simp only [kept_mk] | split)

theorem kept_execRootBabble {k s t : State} (hk : Kept k s) (p : Nat) (h : execRootBabble p s = .next t) : Kept k t := by
  simp only [execRootBabble, Host.Outcome.next.injEq] at h
  subst h
  repeat' (with_reducible first
    | assumption | apply kept_atBus | apply kept_babble | exact hOwner_le _ | intro _ | apply kept_ite
    | simp only [kept_mk] | split)

theorem kept_execRemoteWakeK {k s t : State} (hk : Kept k s) (p : Nat) (h : execRemoteWakeK p s = .next t) : Kept k t := by
  simp only [execRemoteWakeK, Host.Outcome.next.injEq] at h
  subst h
  repeat' (with_reducible first
    | assumption | apply kept_atBus | apply kept_remoteWake | exact hOwner_le _ | intro _ | apply kept_ite
    | simp only [kept_mk] | split)

theorem kept_execTresumeExpires {k s t : State} (hk : Kept k s) (p : Nat) (h : execTresumeExpires p s = .next t) : Kept k t := by
  simp only [execTresumeExpires, Host.Outcome.next.injEq] at h
  subst h
  repeat' (with_reducible first
    | assumption | apply kept_atBus | apply kept_resumeElapsed | exact hOwner_le _ | intro _ | apply kept_ite
    | simp only [kept_mk] | split)

theorem kept_execTrsmrcyExpires {k s t : State} (hk : Kept k s) (p hub hport : Nat) (h : execTrsmrcyExpires p hub hport s = .next t) : Kept k t := by
  simp only [execTrsmrcyExpires, Host.Outcome.next.injEq] at h
  subst h
  repeat' (with_reducible first
    | assumption | apply kept_atBus | apply kept_recoveryEnds | exact hOwner_le _ | intro _ | apply kept_ite
    | simp only [kept_mk] | split)

theorem kept_execHubPortConnectChange {k s t : State} (hk : Kept k s) (p : Nat) (hub : Nat) (hport : Nat) (h : execHubPortConnectChange p hub hport s = .next t) : Kept k t := by
  simp only [execHubPortConnectChange, Host.Outcome.next.injEq] at h
  subst h
  repeat' (with_reducible first
    | assumption | apply kept_atBus | apply kept_connectBelow | exact hOwner_le _ | intro _ | apply kept_ite
    | simp only [kept_mk] | split)

theorem kept_execHubPortDisconnectChange {k s t : State} (hk : Kept k s) (p : Nat) (hub : Nat) (hport : Nat) (why : HubGone) (h : execHubPortDisconnectChange p hub hport why s = .next t) : Kept k t := by
  simp only [execHubPortDisconnectChange, Host.Outcome.next.injEq] at h
  subst h
  repeat' (with_reducible first
    | assumption | apply kept_atBus | apply kept_belowGone | exact hOwner_le _ | intro _ | apply kept_ite
    | simp only [kept_mk] | split)

theorem kept_execOffTimeExpires {k s t : State} (hk : Kept k s) (p : Nat) (h : execOffTimeExpires p s = .next t) : Kept k t := by
  simp only [execOffTimeExpires, Host.Outcome.next.injEq] at h
  subst h
  repeat' (with_reducible first
    | assumption | apply kept_atPort | apply kept_offTimeEnds | exact hOwner_le _ | intro _ | apply kept_ite
    | simp only [kept_mk] | split)

theorem kept_execPwron2pwrgoodWaitExpires {k s t : State} (hk : Kept k s) (p : Nat) (hub : Nat) (h : execPwron2pwrgoodWaitExpires p hub s = .next t) : Kept k t := by
  simp only [execPwron2pwrgoodWaitExpires, Host.Outcome.next.injEq] at h
  subst h
  repeat' (with_reducible first
    | assumption | apply kept_atBus | apply kept_hubReady | exact hOwner_le _ | intro _ | apply kept_ite
    | simp only [kept_mk] | split)

theorem kept_execPortAtLimit {k s t : State} (hk : Kept k s) (p : Nat) (h : execPortAtLimit p s = .next t) : Kept k t := by
  simp only [execPortAtLimit, Host.Outcome.next.injEq] at h
  subst h
  repeat' (with_reducible first
    | assumption | apply kept_atPort | apply kept_atLimit | exact hOwner_le _ | intro _ | apply kept_ite
    | simp only [kept_mk] | split)

theorem kept_execPortLimitLeft {k s t : State} (hk : Kept k s) (p : Nat) (h : execPortLimitLeft p s = .next t) : Kept k t := by
  simp only [execPortLimitLeft, Host.Outcome.next.injEq] at h
  subst h
  repeat' (with_reducible first
    | assumption | apply kept_atPort | apply kept_limitLeft | exact hOwner_le _ | intro _ | apply kept_ite
    | simp only [kept_mk] | split)

theorem kept_execTcapsRepeatExpires {k s t : State} (hk : Kept k s) (p : Nat) (h : execTcapsRepeatExpires p s = .next t) : Kept k t := by
  simp only [execTcapsRepeatExpires, Host.Outcome.next.injEq] at h
  subst h
  repeat' (with_reducible first
    | assumption | apply kept_atDown | apply kept_capsRepeat | exact hOwner_le _ | intro _ | apply kept_ite
    | simp only [kept_mk] | split)

theorem kept_execGoodcrcReceived {k s t : State} (hk : Kept k s) (p : Nat) (msg : PdSent) (h : execGoodcrcReceived p msg s = .next t) : Kept k t := by
  simp only [execGoodcrcReceived, Host.Outcome.next.injEq] at h
  subst h
  repeat' (with_reducible first
    | assumption | apply kept_atPd | apply kept_goodCrc | exact hOwner_le _ | intro _ | apply kept_ite
    | simp only [kept_mk] | split)

theorem kept_execTsenderExpires {k s t : State} (hk : Kept k s) (p : Nat) (h : execTsenderExpires p s = .next t) : Kept k t := by
  simp only [execTsenderExpires, Host.Outcome.next.injEq] at h
  subst h
  repeat' (with_reducible first
    | assumption | apply kept_atPd | apply kept_senderTimeout | exact hOwner_le _ | intro _ | apply kept_ite
    | simp only [kept_mk] | split)

theorem kept_execRequestReceived {k s t : State} (hk : Kept k s) (p : Nat) (rdo : Word) (h : execRequestReceived p rdo s = .next t) : Kept k t := by
  simp only [execRequestReceived, Host.Outcome.next.injEq] at h
  subst h
  repeat' (with_reducible first
    | assumption | apply kept_atDown | apply kept_request | exact hOwner_le _ | intro _ | apply kept_ite
    | simp only [kept_mk] | split)

theorem kept_execTsrcTransExpires {k s t : State} (hk : Kept k s) (p : Nat) (h : execTsrcTransExpires p s = .next t) : Kept k t := by
  simp only [execTsrcTransExpires, Host.Outcome.next.injEq] at h
  subst h
  repeat' (with_reducible first
    | assumption | apply kept_atDown | apply kept_transStart | exact hOwner_le _ | intro _ | apply kept_ite
    | simp only [kept_mk] | split)

theorem kept_execGapDelayExpires {k s t : State} (hk : Kept k s) (p : Nat) (h : execGapDelayExpires p s = .next t) : Kept k t := by
  simp only [execGapDelayExpires, Host.Outcome.next.injEq] at h
  subst h
  repeat' (with_reducible first
    | assumption | apply kept_atPort | apply kept_gapEnds | exact hOwner_le _ | intro _ | apply kept_ite
    | simp only [kept_mk] | split)

theorem kept_execVsnsStepdownReached {k s t : State} (hk : Kept k s) (p : Nat) (h : execVsnsStepdownReached p s = .next t) : Kept k t := by
  simp only [execVsnsStepdownReached, Host.Outcome.next.injEq] at h
  subst h
  repeat' (with_reducible first
    | assumption | apply kept_atPort | apply kept_stepdownDone | exact hOwner_le _ | intro _ | apply kept_ite
    | simp only [kept_mk] | split)

theorem kept_execTstepdownExpires {k s t : State} (hk : Kept k s) (p : Nat) (h : execTstepdownExpires p s = .next t) : Kept k t := by
  simp only [execTstepdownExpires, Host.Outcome.next.injEq] at h
  subst h
  repeat' (with_reducible first
    | assumption | apply kept_atPort | apply kept_stepdownLate | exact hOwner_le _ | intro _ | apply kept_ite
    | simp only [kept_mk] | split)

theorem kept_execCcNoRdInTransition {k s t : State} (hk : Kept k s) (p : Nat) (h : execCcNoRdInTransition p s = .next t) : Kept k t := by
  simp only [execCcNoRdInTransition, Host.Outcome.next.injEq] at h
  subst h
  repeat' (with_reducible first
    | assumption | apply kept_atDown | apply kept_transDetach | exact hOwner_le _ | intro _ | apply kept_ite
    | simp only [kept_mk] | split)

theorem kept_execSoftResetReceived {k s t : State} (hk : Kept k s) (p : Nat) (h : execSoftResetReceived p s = .next t) : Kept k t := by
  simp only [execSoftResetReceived, Host.Outcome.next.injEq] at h
  subst h
  repeat' (with_reducible first
    | assumption | apply kept_atPd | apply kept_softReset | exact hOwner_le _ | intro _ | apply kept_ite
    | simp only [kept_mk] | split)

theorem kept_execHardResetReceived {k s t : State} (hk : Kept k s) (p : Nat) (h : execHardResetReceived p s = .next t) : Kept k t := by
  simp only [execHardResetReceived, Host.Outcome.next.injEq] at h
  subst h
  repeat' (with_reducible first
    | assumption | apply kept_atPd | apply kept_svcHardReset | apply kept_atPort | apply kept_anyHardReset
    | apply kept_holdHardReset | exact hOwner_le _ | intro _ | apply kept_ite | simp only [kept_mk] | split)

theorem kept_execTpsHardresetExpires {k s t : State} (hk : Kept k s) (p : Nat) (h : execTpsHardresetExpires p s = .next t) : Kept k t := by
  simp only [execTpsHardresetExpires, Host.Outcome.next.injEq] at h
  subst h
  repeat' (with_reducible first
    | assumption | apply kept_atPort | apply kept_hrOpen | exact hOwner_le _ | intro _ | apply kept_ite
    | simp only [kept_mk] | split)

theorem kept_execVsnsSafe0vReached {k s t : State} (hk : Kept k s) (p : Nat) (h : execVsnsSafe0vReached p s = .next t) : Kept k t := by
  simp only [execVsnsSafe0vReached, Host.Outcome.next.injEq] at h
  subst h
  repeat' (with_reducible first
    | assumption | apply kept_atPort | apply kept_safe0 | exact hOwner_le _ | intro _ | apply kept_ite
    | simp only [kept_mk] | split)

theorem kept_execTsafe0vExpires {k s t : State} (hk : Kept k s) (p : Nat) (h : execTsafe0vExpires p s = .next t) : Kept k t := by
  simp only [execTsafe0vExpires, Host.Outcome.next.injEq] at h
  subst h
  repeat' (with_reducible first
    | assumption | apply kept_atPort | apply kept_safe0Late | exact hOwner_le _ | intro _ | apply kept_ite
    | simp only [kept_mk] | split)

theorem kept_execTsrcRecoverExpires {k s t : State} (hk : Kept k s) (p : Nat) (h : execTsrcRecoverExpires p s = .next t) : Kept k t := by
  simp only [execTsrcRecoverExpires, Host.Outcome.next.injEq] at h
  subst h
  repeat' (with_reducible first
    | assumption | apply kept_atPort | apply kept_srcRecovered | exact hOwner_le _ | intro _ | apply kept_ite
    | simp only [kept_mk] | split)

theorem kept_execGetSourceCapReceived {k s t : State} (hk : Kept k s) (p : Nat) (h : execGetSourceCapReceived p s = .next t) : Kept k t := by
  simp only [execGetSourceCapReceived, Host.Outcome.next.injEq] at h
  subst h
  repeat' (with_reducible first
    | assumption | apply kept_atPd | apply kept_getSourceCap | exact hOwner_le _ | intro _ | apply kept_ite
    | simp only [kept_mk] | split)

theorem kept_execGetSinkCapReceived {k s t : State} (hk : Kept k s) (p : Nat) (h : execGetSinkCapReceived p s = .next t) : Kept k t := by
  simp only [execGetSinkCapReceived, Host.Outcome.next.injEq] at h
  subst h
  repeat' (with_reducible first
    | assumption | apply kept_atPd | apply kept_getSinkCap | exact hOwner_le _ | intro _ | apply kept_ite
    | simp only [kept_mk] | split)

theorem kept_execDrSwapReceived {k s t : State} (hk : Kept k s) (p : Nat) (h : execDrSwapReceived p s = .next t) : Kept k t := by
  simp only [execDrSwapReceived, Host.Outcome.next.injEq] at h
  subst h
  repeat' (with_reducible first
    | assumption | apply kept_atPd | apply kept_drSwap | exact hOwner_le _ | intro _ | apply kept_ite
    | simp only [kept_mk] | split)

theorem kept_execPrSwapReceived {k s t : State} (hk : Kept k s) (p : Nat) (x1 : PdSwapKind) (h : execPrSwapReceived p x1 s = .next t) : Kept k t := by
  simp only [execPrSwapReceived, Host.Outcome.next.injEq] at h
  subst h
  repeat' (with_reducible first
    | assumption | apply kept_atPd | apply kept_pdSend | exact hOwner_le _ | intro _ | apply kept_ite
    | simp only [kept_mk] | split)

theorem kept_execPdUnsupportedMessage {k s t : State} (hk : Kept k s) (p : Nat) (h : execPdUnsupportedMessage p s = .next t) : Kept k t := by
  simp only [execPdUnsupportedMessage, Host.Outcome.next.injEq] at h
  subst h
  repeat' (with_reducible first
    | assumption | apply kept_atPd | apply kept_pdSend | exact hOwner_le _ | intro _ | apply kept_ite
    | simp only [kept_mk] | split)

theorem kept_execPdResponseReceived {k s t : State} (hk : Kept k s) (p : Nat) (ans : PdAnswer) (h : execPdResponseReceived p ans s = .next t) : Kept k t := by
  simp only [execPdResponseReceived, Host.Outcome.next.injEq] at h
  subst h
  repeat' (with_reducible first
    | assumption | apply kept_atPd | apply kept_pdResponse | exact hOwner_le _ | intro _ | apply kept_ite
    | simp only [kept_mk] | split)

theorem kept_execTwaitExpires {k s t : State} (hk : Kept k s) (p : Nat) (h : execTwaitExpires p s = .next t) : Kept k t := by
  simp only [execTwaitExpires, Host.Outcome.next.injEq] at h
  subst h
  repeat' (with_reducible first
    | assumption | apply kept_atPd | apply kept_waitEnds | exact hOwner_le _ | intro _ | apply kept_ite
    | simp only [kept_mk] | split)

theorem kept_execSourceCapabilitiesReceived {k s t : State} (hk : Kept k s) (p : Nat) (pdo : Word) (h : execSourceCapabilitiesReceived p pdo s = .next t) : Kept k t := by
  simp only [execSourceCapabilitiesReceived, Host.Outcome.next.injEq] at h
  subst h
  repeat' (with_reducible first
    | assumption | apply kept_atPd | apply kept_capsReceived | exact hOwner_le _ | intro _ | apply kept_ite
    | simp only [kept_mk] | split)

theorem kept_execPsRdyReceived {k s t : State} (hk : Kept k s) (p : Nat) (h : execPsRdyReceived p s = .next t) : Kept k t := by
  simp only [execPsRdyReceived, Host.Outcome.next.injEq] at h
  subst h
  repeat' (with_reducible first
    | assumption | apply kept_atPd | apply kept_psRdyReceived | exact hOwner_le _ | intro _ | apply kept_ite
    | simp only [kept_mk] | split)

theorem kept_execSwapPartnerSourceSeen {k s t : State} (hk : Kept k s) (p : Nat) (h : execSwapPartnerSourceSeen p s = .next t) : Kept k t := by
  simp only [execSwapPartnerSourceSeen, Host.Outcome.next.injEq] at h
  subst h
  repeat' (with_reducible first
    | assumption | apply kept_atDown | apply kept_swapSource | exact hOwner_le _ | intro _ | apply kept_ite
    | simp only [kept_mk] | split)

theorem kept_execTswapAttachExpires {k s t : State} (hk : Kept k s) (p : Nat) (h : execTswapAttachExpires p s = .next t) : Kept k t := by
  simp only [execTswapAttachExpires, Host.Outcome.next.injEq] at h
  subst h
  repeat' (with_reducible first
    | assumption | apply kept_atDown | apply kept_swapNoSource | exact hOwner_le _ | intro _ | apply kept_ite
    | simp only [kept_mk] | split)

theorem kept_execSwappedVbusLost {k s t : State} (hk : Kept k s) (p : Nat) (h : execSwappedVbusLost p s = .next t) : Kept k t := by
  simp only [execSwappedVbusLost, Host.Outcome.next.injEq] at h
  subst h
  repeat' (with_reducible first
    | assumption | apply kept_atDown | apply kept_swappedDetach | exact hOwner_le _ | intro _ | apply kept_ite
    | simp only [kept_mk] | split)

theorem kept_execSwappedHrRdTimeout {k s t : State} (hk : Kept k s) (p : Nat) (h : execSwappedHrRdTimeout p s = .next t) : Kept k t := by
  simp only [execSwappedHrRdTimeout, Host.Outcome.next.injEq] at h
  subst h
  repeat' (with_reducible first
    | assumption | apply kept_atDown | apply kept_swappedNoRd | exact hOwner_le _ | intro _ | apply kept_ite
    | simp only [kept_mk] | split)

theorem kept_execTsvcDfpExpires {k s t : State} (hk : Kept k s)  (h : execTsvcDfpExpires s = .next t) : Kept k t := by
  simp only [execTsvcDfpExpires, Host.Outcome.next.injEq] at h
  subst h
  repeat' (with_reducible first
    | assumption | apply kept_atPd | apply kept_svcDfpEnds | exact hOwner_le _ | intro _ | apply kept_ite
    | simp only [kept_mk] | split)

theorem kept_execVdmRequestReceived {k s t : State} (hk : Kept k s) (p : Nat) (req : VdmReq) (h : execVdmRequestReceived p req s = .next t) : Kept k t := by
  simp only [execVdmRequestReceived, Host.Outcome.next.injEq] at h
  subst h
  repeat' (with_reducible first
    | assumption | apply kept_atPd | apply kept_vdmRequest | exact hOwner_le _ | intro _ | apply kept_ite
    | simp only [kept_mk] | split)

theorem kept_execVdmResponseReceived {k s t : State} (hk : Kept k s) (p : Nat) (ans : VdmAns) (vdos : List Word) (h : execVdmResponseReceived p ans vdos s = .next t) : Kept k t := by
  simp only [execVdmResponseReceived, Host.Outcome.next.injEq] at h
  subst h
  repeat' (with_reducible first
    | assumption | apply kept_atDown | apply kept_vdmResponse | exact hOwner_le _ | intro _ | apply kept_ite
    | simp only [kept_mk] | split)

theorem kept_execTvdmExpires {k s t : State} (hk : Kept k s) (p : Nat) (h : execTvdmExpires p s = .next t) : Kept k t := by
  simp only [execTvdmExpires, Host.Outcome.next.injEq] at h
  subst h
  repeat' (with_reducible first
    | assumption | apply kept_atDown | apply kept_vdmTimeout | exact hOwner_le _ | intro _ | apply kept_ite
    | simp only [kept_mk] | split)

theorem kept_execTvdmEnterExpires {k s t : State} (hk : Kept k s) (p : Nat) (h : execTvdmEnterExpires p s = .next t) : Kept k t := by
  simp only [execTvdmEnterExpires, Host.Outcome.next.injEq] at h
  subst h
  repeat' (with_reducible first
    | assumption | apply kept_atDown | apply kept_enterTimeout | exact hOwner_le _ | intro _ | apply kept_ite
    | simp only [kept_mk] | split)

theorem kept_execExitModeReceived {k s t : State} (hk : Kept k s) (p : Nat) (h : execExitModeReceived p s = .next t) : Kept k t := by
  simp only [execExitModeReceived, Host.Outcome.next.injEq] at h
  subst h
  repeat' (with_reducible first
    | assumption | apply kept_atPd | apply kept_exitMode | exact hOwner_le _ | intro _ | apply kept_ite
    | simp only [kept_mk] | split)

theorem kept_execPrail15Low {k s t : State} (hk : Kept k s)  (h : execPrail15Low s = .next t) : Kept k t := by
  simp only [execPrail15Low, Host.Outcome.next.injEq] at h
  subst h
  repeat' (with_reducible first
    | assumption | apply kept_finish | apply kept_rail15Lost | apply kept_holdRail15 | exact hOwner_le _ | intro _
    | apply kept_ite | simp only [kept_mk] | split)

theorem kept_execPrail15Restored {k s t : State} (hk : Kept k s)  (h : execPrail15Restored s = .next t) : Kept k t := by
  simp only [execPrail15Restored, Host.Outcome.next.injEq] at h
  subst h
  repeat' (with_reducible first
    | assumption | apply kept_finish | apply kept_rail15Back | exact hOwner_le _ | intro _ | apply kept_ite
    | simp only [kept_mk] | split)

theorem kept_svcRpChanged {k s : State} (hk : Kept k s) (rp : Nat) : Kept k (svcRpChanged rp s) := by
  unfold svcRpChanged
  try simp only []
  repeat' (with_reducible first
    | assumption | apply kept_servicePower | apply kept_modSvc | apply kept_closeSvcGate
    | (apply kept_foldS; intro _ _ _) | (apply kept_foldP; intro _ _ _) | (apply kept_foldL; intro _ _ _)
    | simp only [kept_mk] | refine kept_fst (by assumption) ?_ | intro _ | apply kept_ite | split)

theorem kept_execSvcVbusPresent {k s t : State} (hk : Kept k s) (rp : Nat) (h : execSvcVbusPresent rp s = .next t) : Kept k t := by
  simp only [execSvcVbusPresent, Host.Outcome.next.injEq] at h
  subst h
  repeat' (with_reducible first
    | assumption | apply kept_svcRpChanged | apply kept_finish | apply kept_svcVbusSeen | exact hOwner_le _ | intro _
    | apply kept_ite | simp only [kept_mk] | split)

theorem kept_svcCapsWaitEnds {k s : State} (hk : Kept k s) : Kept k (svcCapsWaitEnds s) := by
  unfold svcCapsWaitEnds
  try simp only []
  repeat' (with_reducible first
    | assumption | apply kept_modSvc | apply kept_closeSvcGate | (apply kept_foldS; intro _ _ _)
    | (apply kept_foldP; intro _ _ _) | (apply kept_foldL; intro _ _ _) | simp only [kept_mk]
    | refine kept_fst (by assumption) ?_ | intro _ | apply kept_ite | split)

theorem kept_execSvcCapsWaitExpires {k s t : State} (hk : Kept k s)  (h : execSvcCapsWaitExpires s = .next t) : Kept k t := by
  simp only [execSvcCapsWaitExpires, Host.Outcome.next.injEq] at h
  subst h
  repeat' (with_reducible first
    | assumption | apply kept_svcCapsWaitEnds | apply kept_atPd | apply kept_closeSvcGate | exact hOwner_le _
    | intro _ | apply kept_ite | simp only [kept_mk] | split)

theorem kept_execSvcGateOverload {k s t : State} (hk : Kept k s)  (h : execSvcGateOverload s = .next t) : Kept k t := by
  simp only [execSvcGateOverload, Host.Outcome.next.injEq] at h
  subst h
  repeat' (with_reducible first
    | assumption | apply kept_atPd | apply kept_svcOverload | exact hOwner_le _ | intro _ | apply kept_ite
    | simp only [kept_mk] | split)

theorem kept_execSvcGateReclose {k s t : State} (hk : Kept k s)  (h : execSvcGateReclose s = .next t) : Kept k t := by
  simp only [execSvcGateReclose, Host.Outcome.next.injEq] at h
  subst h
  repeat' (with_reducible first
    | assumption | apply kept_atPd | apply kept_closeSvcGate | apply kept_modSvc | exact hOwner_le _ | intro _
    | apply kept_ite | simp only [kept_mk] | split)

theorem kept_execNewVoltageNotGood {k s t : State} (hk : Kept k s) (p : Nat) (h : execNewVoltageNotGood p s = .next t) : Kept k t := by
  simp only [execNewVoltageNotGood, Host.Outcome.next.injEq] at h
  subst h
  repeat' (with_reducible first
    | assumption | apply kept_atDown | apply kept_voltageLate | exact hOwner_le _ | intro _ | apply kept_ite
    | simp only [kept_mk] | split)

theorem kept_execTfaultReached {k s t : State} (hk : Kept k s) (p : Nat) (h : execTfaultReached p s = .next t) : Kept k t := by
  simp only [execTfaultReached, Host.Outcome.next.injEq] at h
  subst h
  repeat' (with_reducible first
    | assumption | apply kept_atSwitch | apply kept_faultTime | exact hOwner_le _ | intro _ | apply kept_ite
    | simp only [kept_mk] | split)

theorem kept_execTrampPgExpires {k s t : State} (hk : Kept k s) (p : Nat) (vsns : Nat) (h : execTrampPgExpires p vsns s = .next t) : Kept k t := by
  simp only [execTrampPgExpires, Host.Outcome.next.injEq] at h
  subst h
  repeat' (with_reducible first
    | assumption | apply kept_atSwitch | apply kept_rampTime | exact hOwner_le _ | intro _ | apply kept_ite
    | simp only [kept_mk] | split)

theorem kept_execTfetCheckExpires {k s t : State} (hk : Kept k s) (p : Nat) (vsns : FetSense) (h : execTfetCheckExpires p vsns s = .next t) : Kept k t := by
  unfold execTfetCheckExpires at h
  cases h
  try simp only []
  repeat' (with_reducible first
    | assumption | apply kept_atSwitch | apply kept_fetCheck | (apply kept_foldS; intro _ _ _)
    | (apply kept_foldP; intro _ _ _) | (apply kept_foldL; intro _ _ _) | simp only [kept_mk]
    | refine kept_fst (by assumption) ?_ | intro _ | apply kept_ite | split)

theorem kept_execPrail5Low {k s t : State} (hk : Kept k s) (mv : Nat) (h : execPrail5Low mv s = .next t) : Kept k t := by
  simp only [execPrail5Low, Host.Outcome.next.injEq] at h
  subst h
  repeat' (with_reducible first
    | assumption | apply kept_atPower | apply kept_rail5Lost | exact hOwner_le _ | intro _ | apply kept_ite
    | simp only [kept_mk] | split)

theorem kept_execPrail5Restored {k s t : State} (hk : Kept k s) (mv : Nat) (h : execPrail5Restored mv s = .next t) : Kept k t := by
  simp only [execPrail5Restored, Host.Outcome.next.injEq] at h
  subst h
  repeat' (with_reducible first
    | assumption | apply kept_atPower | apply kept_rail5Back | exact hOwner_le _ | intro _ | apply kept_ite
    | simp only [kept_mk] | split)

theorem kept_execFeedVoltagePresent {k s t : State} (hk : Kept k s) (f : HostId) (mv : Nat) (h : execFeedVoltagePresent f mv s = .next t) : Kept k t := by
  simp only [execFeedVoltagePresent, Host.Outcome.next.injEq] at h
  subst h
  repeat' (with_reducible first
    | assumption | apply kept_atPower | apply kept_feedPresentNow | exact hOwner_le _ | intro _ | apply kept_ite
    | simp only [kept_mk] | split)

theorem kept_execFeedVoltageLost {k s t : State} (hk : Kept k s) (f : HostId) (mv : Nat) (h : execFeedVoltageLost f mv s = .next t) : Kept k t := by
  simp only [execFeedVoltageLost, Host.Outcome.next.injEq] at h
  subst h
  repeat' (with_reducible first
    | assumption | apply kept_atPower | apply kept_feedLost | exact hOwner_le _ | intro _ | apply kept_ite
    | simp only [kept_mk] | split)

theorem kept_execSeatDebounceComplete {k s t : State} (hk : Kept k s)  (h : execSeatDebounceComplete s = .next t) : Kept k t := by
  simp only [execSeatDebounceComplete, Host.Outcome.next.injEq] at h
  subst h
  repeat' (with_reducible first
    | assumption | apply kept_atPower | apply kept_seatDone | exact hOwner_le _ | intro _ | apply kept_ite
    | simp only [kept_mk] | split)

theorem kept_execSeatPinHigh {k s t : State} (hk : Kept k s) (seat1 : Bool) (seat2 : Bool) (h : execSeatPinHigh seat1 seat2 s = .next t) : Kept k t := by
  simp only [execSeatPinHigh, Host.Outcome.next.injEq] at h
  subst h
  repeat' (with_reducible first
    | assumption | apply kept_atPower | apply kept_seatHigh | exact hOwner_le _ | intro _ | apply kept_ite
    | simp only [kept_mk] | split)

theorem kept_execBulkPrecharged {k s t : State} (hk : Kept k s) (f : HostId) (h : execBulkPrecharged f s = .next t) : Kept k t := by
  simp only [execBulkPrecharged, Host.Outcome.next.injEq] at h
  subst h
  repeat' (with_reducible first
    | assumption | apply kept_atPower | apply kept_bulkReady | exact hOwner_le _ | intro _ | apply kept_ite
    | simp only [kept_mk] | split)

theorem kept_execFeedGateOn {k s t : State} (hk : Kept k s) (f : HostId) (mv : Nat) (h : execFeedGateOn f mv s = .next t) : Kept k t := by
  simp only [execFeedGateOn, Host.Outcome.next.injEq] at h
  subst h
  repeat' (with_reducible first
    | assumption | apply kept_atPower | apply kept_feedGateOn | exact hOwner_le _ | intro _ | apply kept_ite
    | simp only [kept_mk] | split)

theorem kept_execTprechargeExpires {k s t : State} (hk : Kept k s) (f : HostId) (bulkMv : Nat) (h : execTprechargeExpires f bulkMv s = .next t) : Kept k t := by
  simp only [execTprechargeExpires, Host.Outcome.next.injEq] at h
  subst h
  repeat' (with_reducible first
    | assumption | apply kept_atPower | apply kept_prechargeLate | exact hOwner_le _ | intro _ | apply kept_ite
    | simp only [kept_mk] | split)

theorem kept_execFeedLimitReached {k s t : State} (hk : Kept k s) (f : HostId) (ma : Nat) (h : execFeedLimitReached f ma s = .next t) : Kept k t := by
  simp only [execFeedLimitReached, Host.Outcome.next.injEq] at h
  subst h
  repeat' (with_reducible first
    | assumption | apply kept_atPower | apply kept_feedLimitOn | exact hOwner_le _ | intro _ | apply kept_ite
    | simp only [kept_mk] | split)

theorem kept_execFeedLimitLeft {k s t : State} (hk : Kept k s) (f : HostId) (ma : Nat) (h : execFeedLimitLeft f ma s = .next t) : Kept k t := by
  simp only [execFeedLimitLeft, Host.Outcome.next.injEq] at h
  subst h
  repeat' (with_reducible first
    | assumption | apply kept_atPower | apply kept_feedLimitOff | exact hOwner_le _ | intro _ | apply kept_ite
    | simp only [kept_mk] | split)

theorem kept_execTfaultFeedExpires {k s t : State} (hk : Kept k s) (f : HostId) (ma : Nat) (h : execTfaultFeedExpires f ma s = .next t) : Kept k t := by
  simp only [execTfaultFeedExpires, Host.Outcome.next.injEq] at h
  subst h
  repeat' (with_reducible first
    | assumption | apply kept_atPower | apply kept_feedOverload | exact hOwner_le _ | intro _ | apply kept_ite
    | simp only [kept_mk] | split)

theorem kept_execReverseCurrentDetected {k s t : State} (hk : Kept k s) (f : HostId) (ma : Nat) (h : execReverseCurrentDetected f ma s = .next t) : Kept k t := by
  simp only [execReverseCurrentDetected, Host.Outcome.next.injEq] at h
  subst h
  repeat' (with_reducible first
    | assumption | apply kept_atPower | apply kept_feedReverse | exact hOwner_le _ | intro _ | apply kept_ite
    | simp only [kept_mk] | split)

theorem kept_execTretryFeedExpires {k s t : State} (hk : Kept k s) (f : HostId) (h : execTretryFeedExpires f s = .next t) : Kept k t := by
  simp only [execTretryFeedExpires, Host.Outcome.next.injEq] at h
  subst h
  repeat' (with_reducible first
    | assumption | apply kept_atPower | apply kept_retryEnds | exact hOwner_le _ | intro _ | apply kept_ite
    | simp only [kept_mk] | split)

theorem kept_execLogicDieReset {k s t : State} (hk : Kept k s) (cause : ResetCause) (h : execLogicDieReset cause s = .next t) : Kept k t := by
  simp only [execLogicDieReset, Host.Outcome.next.injEq] at h
  subst h
  repeat' (with_reducible first
    | assumption | apply kept_atPower | apply kept_dieReset | exact hOwner_le _ | intro _ | apply kept_ite
    | simp only [kept_mk] | split)

theorem kept_execTholdExpires {k s t : State} (hk : Kept k s)  (h : execTholdExpires s = .next t) : Kept k t := by
  simp only [execTholdExpires, Host.Outcome.next.injEq] at h
  subst h
  repeat' (with_reducible first
    | assumption | apply kept_atPower | apply kept_holdExpires | exact hOwner_le _ | intro _ | apply kept_ite
    | simp only [kept_mk] | split)

theorem kept_execLockstepMismatch {k s t : State} (hk : Kept k s)  (h : execLockstepMismatch s = .next t) : Kept k t := by
  simp only [execLockstepMismatch, Host.Outcome.next.injEq] at h
  subst h
  repeat' (with_reducible first
    | assumption | apply kept_atPower | apply kept_coreFault | exact hOwner_le _ | intro _ | apply kept_ite
    | simp only [kept_mk] | split)

theorem kept_execMboterWatchdogExpires {k s t : State} (hk : Kept k s)  (h : execMboterWatchdogExpires s = .next t) : Kept k t := by
  simp only [execMboterWatchdogExpires, Host.Outcome.next.injEq] at h
  subst h
  repeat' (with_reducible first
    | assumption | apply kept_atPower | apply kept_coreFault | exact hOwner_le _ | intro _ | apply kept_ite
    | simp only [kept_mk] | split)

theorem kept_execSensorDivergence {k s t : State} (hk : Kept k s) (k' : Nat) (h : execSensorDivergence k' s = .next t) : Kept k t := by
  simp only [execSensorDivergence, Host.Outcome.next.injEq] at h
  subst h
  repeat' (with_reducible first
    | assumption | apply kept_atCore | apply kept_sensorDiverges | exact hOwner_le _ | intro _ | apply kept_ite
    | simp only [kept_mk] | split)

theorem kept_execDieLinkCheckFailure {k s t : State} (hk : Kept k s)  (h : execDieLinkCheckFailure s = .next t) : Kept k t := by
  simp only [execDieLinkCheckFailure, Host.Outcome.next.injEq] at h
  subst h
  repeat' (with_reducible first
    | assumption | apply kept_atChip | apply kept_raise | exact hOwner_le _ | intro _ | apply kept_ite
    | simp only [kept_mk] | split)

theorem kept_execAshLogDrain {k s t : State} (hk : Kept k s)  (h : execAshLogDrain s = .next t) : Kept k t := by
  simp only [execAshLogDrain, Host.Outcome.next.injEq] at h
  subst h
  repeat' (with_reducible first
    | assumption | apply kept_atPower | apply kept_ashDrain | exact hOwner_le _ | intro _ | apply kept_ite
    | simp only [kept_mk] | split)

theorem kept_execCfgParityCheck {k s t : State} (hk : Kept k s) (upset : Option (Nat × Word)) (h : execCfgParityCheck upset s = .next t) : Kept k t := by
  simp only [execCfgParityCheck, Host.Outcome.next.injEq] at h
  subst h
  repeat' (with_reducible first
    | assumption | apply kept_atChip | apply kept_parityCheck | exact hOwner_le _ | intro _ | apply kept_ite
    | simp only [kept_mk] | split)

theorem kept_execEventMergeIntervalEnd {k s t : State} (hk : Kept k s) (kind : MergeKind) (h : execEventMergeIntervalEnd kind s = .next t) : Kept k t := by
  simp only [execEventMergeIntervalEnd, Host.Outcome.next.injEq] at h
  subst h
  repeat' (with_reducible first
    | assumption | apply kept_atChip | apply kept_intervalEnds | exact hOwner_le _ | intro _ | apply kept_ite
    | simp only [kept_mk] | split)

theorem kept_execDevIdentify {k s t : State} (hk : Kept k s) (p : Packet) (h : execDevIdentify p s = .next t) : Kept k t := by
  simp only [execDevIdentify, Host.Outcome.next.injEq] at h
  subst h
  repeat' (with_reducible first
    | assumption | apply kept_command | apply kept_devIdentifyCmd | exact hOwner_le _ | intro _ | apply kept_ite
    | simp only [kept_mk] | split)

theorem kept_execDevStatus {k s t : State} (hk : Kept k s) (p : Packet) (h : execDevStatus p s = .next t) : Kept k t := by
  simp only [execDevStatus, Host.Outcome.next.injEq] at h
  subst h
  repeat' (with_reducible first
    | assumption | apply kept_command | apply kept_devStatusCmd | exact hOwner_le _ | intro _ | apply kept_ite
    | simp only [kept_mk] | split)

theorem kept_execDevSetId {k s t : State} (hk : Kept k s) (p : Packet) (h : execDevSetId p s = .next t) : Kept k t := by
  simp only [execDevSetId, Host.Outcome.next.injEq] at h
  subst h
  repeat' (with_reducible first
    | assumption | apply kept_command | apply kept_devSetIdCmd | exact hOwner_le _ | intro _ | apply kept_ite
    | simp only [kept_mk] | split)

theorem kept_execDevEcho {k s t : State} (hk : Kept k s) (p : Packet) (h : execDevEcho p s = .next t) : Kept k t := by
  simp only [execDevEcho, Host.Outcome.next.injEq] at h
  subst h
  repeat' (with_reducible first
    | assumption | apply kept_command | apply kept_devEchoCmd | exact hOwner_le _ | intro _ | apply kept_ite
    | simp only [kept_mk] | split)

theorem kept_execOpAbort {k s t : State} (hk : Kept k s) (p : Packet) (h : execOpAbort p s = .next t) : Kept k t := by
  simp only [execOpAbort, Host.Outcome.next.injEq] at h
  subst h
  repeat' (with_reducible first
    | assumption | apply kept_command | apply kept_opAbortCmd | exact hOwner_le _ | intro _ | apply kept_ite
    | simp only [kept_mk] | split)

theorem kept_execOpQuery {k s t : State} (hk : Kept k s) (p : Packet) (h : execOpQuery p s = .next t) : Kept k t := by
  simp only [execOpQuery, Host.Outcome.next.injEq] at h
  subst h
  repeat' (with_reducible first
    | assumption | apply kept_command | apply kept_opQueryCmd | exact hOwner_le _ | intro _ | apply kept_ite
    | simp only [kept_mk] | split)

theorem kept_execDevWarmRestart {k s t : State} (hk : Kept k s) (p : Packet) (h : execDevWarmRestart p s = .next t) : Kept k t := by
  simp only [execDevWarmRestart, Host.Outcome.next.injEq] at h
  subst h
  repeat' (with_reducible first
    | assumption | apply kept_command | apply kept_devWarmRestartCmd | exact hOwner_le _ | intro _ | apply kept_ite
    | simp only [kept_mk] | split)

theorem kept_execHostBind {k s t : State} (hk : Kept k s) (p : Packet) (h : execHostBind p s = .next t) : Kept k t := by
  simp only [execHostBind, Host.Outcome.next.injEq] at h
  subst h
  repeat' (with_reducible first
    | assumption | apply kept_command | apply kept_hostBindCmd | exact hOwner_le _ | intro _ | apply kept_ite
    | simp only [kept_mk] | split)

theorem kept_execSemTake {k s t : State} (hk : Kept k s) (p : Packet) (h : execSemTake p s = .next t) : Kept k t := by
  simp only [execSemTake, Host.Outcome.next.injEq] at h
  subst h
  repeat' (with_reducible first
    | assumption | apply kept_command | apply kept_semTakeCmd | exact hOwner_le _ | intro _ | apply kept_ite
    | simp only [kept_mk] | split)

theorem kept_execSemGive {k s t : State} (hk : Kept k s) (p : Packet) (h : execSemGive p s = .next t) : Kept k t := by
  simp only [execSemGive, Host.Outcome.next.injEq] at h
  subst h
  repeat' (with_reducible first
    | assumption | apply kept_command | apply kept_semGiveCmd | exact hOwner_le _ | intro _ | apply kept_ite
    | simp only [kept_mk] | split)

theorem kept_execDevPowerState {k s t : State} (hk : Kept k s) (p : Packet) (h : execDevPowerState p s = .next t) : Kept k t := by
  simp only [execDevPowerState, Host.Outcome.next.injEq] at h
  subst h
  repeat' (with_reducible first
    | assumption | apply kept_command | apply kept_devPowerStateCmd | exact hOwner_le _ | intro _ | apply kept_ite
    | simp only [kept_mk] | split)

theorem kept_execPortEnable {k s t : State} (hk : Kept k s) (p : Packet) (h : execPortEnable p s = .next t) : Kept k t := by
  simp only [execPortEnable, Host.Outcome.next.injEq] at h
  subst h
  repeat' (with_reducible first
    | assumption | apply kept_command | apply kept_portEnableCmd | exact hOwner_le _ | intro _ | apply kept_ite
    | simp only [kept_mk] | split)

theorem kept_execPortDisable {k s t : State} (hk : Kept k s) (p : Packet) (h : execPortDisable p s = .next t) : Kept k t := by
  simp only [execPortDisable, Host.Outcome.next.injEq] at h
  subst h
  repeat' (with_reducible first
    | assumption | apply kept_command | apply kept_portDisableCmd | exact hOwner_le _ | intro _ | apply kept_ite
    | simp only [kept_mk] | split)

theorem kept_execPortStatus {k s t : State} (hk : Kept k s) (p : Packet) (h : execPortStatus p s = .next t) : Kept k t := by
  simp only [execPortStatus, Host.Outcome.next.injEq] at h
  subst h
  repeat' (with_reducible first
    | assumption | apply kept_command | apply kept_portStatusCmd | exact hOwner_le _ | intro _ | apply kept_ite
    | simp only [kept_mk] | split)

theorem kept_execPortBusReset {k s t : State} (hk : Kept k s) (p : Packet) (h : execPortBusReset p s = .next t) : Kept k t := by
  simp only [execPortBusReset, Host.Outcome.next.injEq] at h
  subst h
  repeat' (with_reducible first
    | assumption | apply kept_command | apply kept_portBusResetCmd | exact hOwner_le _ | intro _ | apply kept_ite
    | simp only [kept_mk] | split)

theorem kept_execPortSuspend {k s t : State} (hk : Kept k s) (p : Packet) (h : execPortSuspend p s = .next t) : Kept k t := by
  simp only [execPortSuspend, Host.Outcome.next.injEq] at h
  subst h
  repeat' (with_reducible first
    | assumption | apply kept_command | apply kept_portSuspendCmd | exact hOwner_le _ | intro _ | apply kept_ite
    | simp only [kept_mk] | split)

theorem kept_execPortResume {k s t : State} (hk : Kept k s) (p : Packet) (h : execPortResume p s = .next t) : Kept k t := by
  simp only [execPortResume, Host.Outcome.next.injEq] at h
  subst h
  repeat' (with_reducible first
    | assumption | apply kept_command | apply kept_portResumeCmd | exact hOwner_le _ | intro _ | apply kept_ite
    | simp only [kept_mk] | split)

theorem kept_execPortPowerCycle {k s t : State} (hk : Kept k s) (p : Packet) (h : execPortPowerCycle p s = .next t) : Kept k t := by
  simp only [execPortPowerCycle, Host.Outcome.next.injEq] at h
  subst h
  repeat' (with_reducible first
    | assumption | apply kept_command | apply kept_portPowerCycleCmd | exact hOwner_le _ | intro _ | apply kept_ite
    | simp only [kept_mk] | split)

theorem kept_execPortSetPolicy {k s t : State} (hk : Kept k s) (p : Packet) (h : execPortSetPolicy p s = .next t) : Kept k t := by
  simp only [execPortSetPolicy, Host.Outcome.next.injEq] at h
  subst h
  repeat' (with_reducible first
    | assumption | apply kept_command | apply kept_portSetPolicyCmd | exact hOwner_le _ | intro _ | apply kept_ite
    | simp only [kept_mk] | split)

theorem kept_execTreeList {k s t : State} (hk : Kept k s) (p : Packet) (h : execTreeList p s = .next t) : Kept k t := by
  simp only [execTreeList, Host.Outcome.next.injEq] at h
  subst h
  repeat' (with_reducible first
    | assumption | apply kept_command | apply kept_treeListCmd | exact hOwner_le _ | intro _ | apply kept_ite
    | simp only [kept_mk] | split)

theorem kept_execEpList {k s t : State} (hk : Kept k s) (p : Packet) (h : execEpList p s = .next t) : Kept k t := by
  simp only [execEpList, Host.Outcome.next.injEq] at h
  subst h
  repeat' (with_reducible first
    | assumption | apply kept_command | apply kept_epListCmd | exact hOwner_le _ | intro _ | apply kept_ite
    | simp only [kept_mk] | split)

theorem kept_execEpBind {k s t : State} (hk : Kept k s) (p : Packet) (h : execEpBind p s = .next t) : Kept k t := by
  simp only [execEpBind, Host.Outcome.next.injEq] at h
  subst h
  repeat' (with_reducible first
    | assumption | apply kept_command | apply kept_epBindCmd | exact hOwner_le _ | intro _ | apply kept_ite
    | simp only [kept_mk] | split)

theorem kept_execEpUnbind {k s t : State} (hk : Kept k s) (p : Packet) (h : execEpUnbind p s = .next t) : Kept k t := by
  simp only [execEpUnbind, Host.Outcome.next.injEq] at h
  subst h
  repeat' (with_reducible first
    | assumption | apply kept_command | apply kept_epUnbindCmd | exact hOwner_le _ | intro _ | apply kept_ite
    | simp only [kept_mk] | split)

theorem kept_execEpControl {k s t : State} (hk : Kept k s) (p : Packet) (h : execEpControl p s = .next t) : Kept k t := by
  simp only [execEpControl, Host.Outcome.next.injEq] at h
  subst h
  repeat' (with_reducible first
    | assumption | apply kept_command | apply kept_epControlCmd | exact hOwner_le _ | intro _ | apply kept_ite
    | simp only [kept_mk] | split)

theorem kept_execEpWrite {k s t : State} (hk : Kept k s) (p : Packet) (h : execEpWrite p s = .next t) : Kept k t := by
  simp only [execEpWrite, Host.Outcome.next.injEq] at h
  subst h
  repeat' (with_reducible first
    | assumption | apply kept_command | apply kept_epWriteCmd | exact hOwner_le _ | intro _ | apply kept_ite
    | simp only [kept_mk] | split)

theorem kept_execEpRead {k s t : State} (hk : Kept k s) (p : Packet) (h : execEpRead p s = .next t) : Kept k t := by
  simp only [execEpRead, Host.Outcome.next.injEq] at h
  subst h
  repeat' (with_reducible first
    | assumption | apply kept_command | apply kept_epReadCmd | exact hOwner_le _ | intro _ | apply kept_ite
    | simp only [kept_mk] | split)

theorem kept_execEpState {k s t : State} (hk : Kept k s) (p : Packet) (h : execEpState p s = .next t) : Kept k t := by
  simp only [execEpState, Host.Outcome.next.injEq] at h
  subst h
  repeat' (with_reducible first
    | assumption | apply kept_command | apply kept_epStateCmd | exact hOwner_le _ | intro _ | apply kept_ite
    | simp only [kept_mk] | split)

theorem kept_execQConfig {k s t : State} (hk : Kept k s) (p : Packet) (h : execQConfig p s = .next t) : Kept k t := by
  simp only [execQConfig, Host.Outcome.next.injEq] at h
  subst h
  repeat' (with_reducible first
    | assumption | apply kept_command | apply kept_qConfigCmd | exact hOwner_le _ | intro _ | apply kept_ite
    | simp only [kept_mk] | split)

theorem kept_execQStatus {k s t : State} (hk : Kept k s) (p : Packet) (h : execQStatus p s = .next t) : Kept k t := by
  simp only [execQStatus, Host.Outcome.next.injEq] at h
  subst h
  repeat' (with_reducible first
    | assumption | apply kept_command | apply kept_qStatusCmd | exact hOwner_le _ | intro _ | apply kept_ite
    | simp only [kept_mk] | split)

theorem kept_execQFlush {k s t : State} (hk : Kept k s) (p : Packet) (h : execQFlush p s = .next t) : Kept k t := by
  simp only [execQFlush, Host.Outcome.next.injEq] at h
  subst h
  repeat' (with_reducible first
    | assumption | apply kept_command | apply kept_qFlushCmd | exact hOwner_le _ | intro _ | apply kept_ite
    | simp only [kept_mk] | split)

theorem kept_execQReplay {k s t : State} (hk : Kept k s) (p : Packet) (h : execQReplay p s = .next t) : Kept k t := by
  simp only [execQReplay, Host.Outcome.next.injEq] at h
  subst h
  repeat' (with_reducible first
    | assumption | apply kept_command | apply kept_qReplayCmd | exact hOwner_le _ | intro _ | apply kept_ite
    | simp only [kept_mk] | split)

theorem kept_execBudgetSet {k s t : State} (hk : Kept k s) (p : Packet) (h : execBudgetSet p s = .next t) : Kept k t := by
  simp only [execBudgetSet, Host.Outcome.next.injEq] at h
  subst h
  repeat' (with_reducible first
    | assumption | apply kept_command | apply kept_budgetSetCmd | exact hOwner_le _ | intro _ | apply kept_ite
    | simp only [kept_mk] | split)

theorem kept_execBudgetStatus {k s t : State} (hk : Kept k s) (p : Packet) (h : execBudgetStatus p s = .next t) : Kept k t := by
  simp only [execBudgetStatus, Host.Outcome.next.injEq] at h
  subst h
  repeat' (with_reducible first
    | assumption | apply kept_command | apply kept_budgetStatusCmd | exact hOwner_le _ | intro _ | apply kept_ite
    | simp only [kept_mk] | split)

theorem kept_execPlaceHint {k s t : State} (hk : Kept k s) (p : Packet) (h : execPlaceHint p s = .next t) : Kept k t := by
  simp only [execPlaceHint, Host.Outcome.next.injEq] at h
  subst h
  repeat' (with_reducible first
    | assumption | apply kept_command | apply kept_placeHintCmd | exact hOwner_le _ | intro _ | apply kept_ite
    | simp only [kept_mk] | split)

theorem kept_execPlacePin {k s t : State} (hk : Kept k s) (p : Packet) (h : execPlacePin p s = .next t) : Kept k t := by
  simp only [execPlacePin, Host.Outcome.next.injEq] at h
  subst h
  repeat' (with_reducible first
    | assumption | apply kept_command | apply kept_placePinCmd | exact hOwner_le _ | intro _ | apply kept_ite
    | simp only [kept_mk] | split)

theorem kept_execPlaceReport {k s t : State} (hk : Kept k s) (p : Packet) (h : execPlaceReport p s = .next t) : Kept k t := by
  simp only [execPlaceReport, Host.Outcome.next.injEq] at h
  subst h
  repeat' (with_reducible first
    | assumption | apply kept_command | apply kept_placeReportCmd | exact hOwner_le _ | intro _ | apply kept_ite
    | simp only [kept_mk] | split)

theorem kept_execPdSetCaps {k s t : State} (hk : Kept k s) (p : Packet) (h : execPdSetCaps p s = .next t) : Kept k t := by
  simp only [execPdSetCaps, Host.Outcome.next.injEq] at h
  subst h
  repeat' (with_reducible first
    | assumption | apply kept_command | apply kept_pdSetCapsCmd | exact hOwner_le _ | intro _ | apply kept_ite
    | simp only [kept_mk] | split)

theorem kept_execPdStatus {k s t : State} (hk : Kept k s) (p : Packet) (h : execPdStatus p s = .next t) : Kept k t := by
  simp only [execPdStatus, Host.Outcome.next.injEq] at h
  subst h
  repeat' (with_reducible first
    | assumption | apply kept_command | apply kept_pdStatusCmd | exact hOwner_le _ | intro _ | apply kept_ite
    | simp only [kept_mk] | split)

theorem kept_execPdDrSwap {k s t : State} (hk : Kept k s) (p : Packet) (h : execPdDrSwap p s = .next t) : Kept k t := by
  simp only [execPdDrSwap, Host.Outcome.next.injEq] at h
  subst h
  repeat' (with_reducible first
    | assumption | apply kept_command | apply kept_pdDrSwapCmd | exact hOwner_le _ | intro _ | apply kept_ite
    | simp only [kept_mk] | split)

theorem kept_execPdHardReset {k s t : State} (hk : Kept k s) (p : Packet) (h : execPdHardReset p s = .next t) : Kept k t := by
  simp only [execPdHardReset, Host.Outcome.next.injEq] at h
  subst h
  repeat' (with_reducible first
    | assumption | apply kept_command | apply kept_pdHardResetCmd | exact hOwner_le _ | intro _ | apply kept_ite
    | simp only [kept_mk] | split)

theorem kept_execPdDiscover {k s t : State} (hk : Kept k s) (p : Packet) (h : execPdDiscover p s = .next t) : Kept k t := by
  simp only [execPdDiscover, Host.Outcome.next.injEq] at h
  subst h
  repeat' (with_reducible first
    | assumption | apply kept_command | apply kept_pdDiscoverCmd | exact hOwner_le _ | intro _ | apply kept_ite
    | simp only [kept_mk] | split)

theorem kept_execPdAltmode {k s t : State} (hk : Kept k s) (p : Packet) (h : execPdAltmode p s = .next t) : Kept k t := by
  simp only [execPdAltmode, Host.Outcome.next.injEq] at h
  subst h
  repeat' (with_reducible first
    | assumption | apply kept_command | apply kept_pdAltmodeCmd | exact hOwner_le _ | intro _ | apply kept_ite
    | simp only [kept_mk] | split)

theorem kept_execCanConfig {k s t : State} (hk : Kept k s) (p : Packet) (h : execCanConfig p s = .next t) : Kept k t := by
  simp only [execCanConfig, Host.Outcome.next.injEq] at h
  subst h
  repeat' (with_reducible first
    | assumption | apply kept_command | apply kept_canConfigCmd | exact hOwner_le _ | intro _ | apply kept_ite
    | simp only [kept_mk] | split)

theorem kept_execCanObjConfig {k s t : State} (hk : Kept k s) (p : Packet) (h : execCanObjConfig p s = .next t) : Kept k t := by
  simp only [execCanObjConfig, Host.Outcome.next.injEq] at h
  subst h
  repeat' (with_reducible first
    | assumption | apply kept_command | apply kept_canObjConfigCmd | exact hOwner_le _ | intro _ | apply kept_ite
    | simp only [kept_mk] | split)

theorem kept_execCanFilterSet {k s t : State} (hk : Kept k s) (p : Packet) (h : execCanFilterSet p s = .next t) : Kept k t := by
  simp only [execCanFilterSet, Host.Outcome.next.injEq] at h
  subst h
  repeat' (with_reducible first
    | assumption | apply kept_command | apply kept_canFilterSetCmd | exact hOwner_le _ | intro _ | apply kept_ite
    | simp only [kept_mk] | split)

theorem kept_execCanSend {k s t : State} (hk : Kept k s) (p : Packet) (h : execCanSend p s = .next t) : Kept k t := by
  simp only [execCanSend, Host.Outcome.next.injEq] at h
  subst h
  repeat' (with_reducible first
    | assumption | apply kept_command | apply kept_canSendCmd | exact hOwner_le _ | intro _ | apply kept_ite
    | simp only [kept_mk] | split)

theorem kept_execCanStatus {k s t : State} (hk : Kept k s) (p : Packet) (h : execCanStatus p s = .next t) : Kept k t := by
  simp only [execCanStatus, Host.Outcome.next.injEq] at h
  subst h
  repeat' (with_reducible first
    | assumption | apply kept_command | apply kept_canStatusCmd | exact hOwner_le _ | intro _ | apply kept_ite
    | simp only [kept_mk] | split)

theorem kept_execCanTimeMaster {k s t : State} (hk : Kept k s) (p : Packet) (h : execCanTimeMaster p s = .next t) : Kept k t := by
  simp only [execCanTimeMaster, Host.Outcome.next.injEq] at h
  subst h
  repeat' (with_reducible first
    | assumption | apply kept_command | apply kept_canTimeMasterCmd | exact hOwner_le _ | intro _ | apply kept_ite
    | simp only [kept_mk] | split)

theorem kept_execTrkConfig {k s t : State} (hk : Kept k s) (p : Packet) (h : execTrkConfig p s = .next t) : Kept k t := by
  simp only [execTrkConfig, Host.Outcome.next.injEq] at h
  subst h
  repeat' (with_reducible first
    | assumption | apply kept_command | apply kept_trkConfigCmd | exact hOwner_le _ | intro _ | apply kept_ite
    | simp only [kept_mk] | split)

theorem kept_execTrkStatus {k s t : State} (hk : Kept k s) (p : Packet) (h : execTrkStatus p s = .next t) : Kept k t := by
  simp only [execTrkStatus, Host.Outcome.next.injEq] at h
  subst h
  repeat' (with_reducible first
    | assumption | apply kept_command | apply kept_trkStatusCmd | exact hOwner_le _ | intro _ | apply kept_ite
    | simp only [kept_mk] | split)

theorem kept_execTrkRoute {k s t : State} (hk : Kept k s) (p : Packet) (h : execTrkRoute p s = .next t) : Kept k t := by
  simp only [execTrkRoute, Host.Outcome.next.injEq] at h
  subst h
  repeat' (with_reducible first
    | assumption | apply kept_command | apply kept_trkRouteCmd | exact hOwner_le _ | intro _ | apply kept_ite
    | simp only [kept_mk] | split)

theorem kept_execTrkDiscover {k s t : State} (hk : Kept k s) (p : Packet) (h : execTrkDiscover p s = .next t) : Kept k t := by
  simp only [execTrkDiscover, Host.Outcome.next.injEq] at h
  subst h
  repeat' (with_reducible first
    | assumption | apply kept_command | apply kept_trkDiscoverCmd | exact hOwner_le _ | intro _ | apply kept_ite
    | simp only [kept_mk] | split)

theorem kept_execTimeSet {k s t : State} (hk : Kept k s) (p : Packet) (h : execTimeSet p s = .next t) : Kept k t := by
  simp only [execTimeSet, Host.Outcome.next.injEq] at h
  subst h
  repeat' (with_reducible first
    | assumption | apply kept_command | apply kept_timeSetCmd | exact hOwner_le _ | intro _ | apply kept_ite
    | simp only [kept_mk] | split)

theorem kept_execTimeGet {k s t : State} (hk : Kept k s) (p : Packet) (h : execTimeGet p s = .next t) : Kept k t := by
  simp only [execTimeGet, Host.Outcome.next.injEq] at h
  subst h
  repeat' (with_reducible first
    | assumption | apply kept_command | apply kept_timeGetCmd | exact hOwner_le _ | intro _ | apply kept_ite
    | simp only [kept_mk] | split)

theorem kept_execTimeStatus {k s t : State} (hk : Kept k s) (p : Packet) (h : execTimeStatus p s = .next t) : Kept k t := by
  simp only [execTimeStatus, Host.Outcome.next.injEq] at h
  subst h
  repeat' (with_reducible first
    | assumption | apply kept_command | apply kept_timeStatusCmd | exact hOwner_le _ | intro _ | apply kept_ite
    | simp only [kept_mk] | split)

theorem kept_execFltRead {k s t : State} (hk : Kept k s) (p : Packet) (h : execFltRead p s = .next t) : Kept k t := by
  simp only [execFltRead, Host.Outcome.next.injEq] at h
  subst h
  repeat' (with_reducible first
    | assumption | apply kept_command | apply kept_fltReadCmd | exact hOwner_le _ | intro _ | apply kept_ite
    | simp only [kept_mk] | split)

theorem kept_execFltAck {k s t : State} (hk : Kept k s) (p : Packet) (h : execFltAck p s = .next t) : Kept k t := by
  simp only [execFltAck, Host.Outcome.next.injEq] at h
  subst h
  repeat' (with_reducible first
    | assumption | apply kept_command | apply kept_fltAckCmd | exact hOwner_le _ | intro _ | apply kept_ite
    | simp only [kept_mk] | split)

theorem kept_execFltForce {k s t : State} (hk : Kept k s) (p : Packet) (h : execFltForce p s = .next t) : Kept k t := by
  simp only [execFltForce, Host.Outcome.next.injEq] at h
  subst h
  repeat' (with_reducible first
    | assumption | apply kept_command | apply kept_fltForceCmd | exact hOwner_le _ | intro _ | apply kept_ite
    | simp only [kept_mk] | split)

theorem kept_execAshRead {k s t : State} (hk : Kept k s) (p : Packet) (h : execAshRead p s = .next t) : Kept k t := by
  simp only [execAshRead, Host.Outcome.next.injEq] at h
  subst h
  repeat' (with_reducible first
    | assumption | apply kept_command | apply kept_ashReadCmd | exact hOwner_le _ | intro _ | apply kept_ite
    | simp only [kept_mk] | split)

theorem kept_execTestRun {k s t : State} (hk : Kept k s) (p : Packet) (h : execTestRun p s = .next t) : Kept k t := by
  simp only [execTestRun, Host.Outcome.next.injEq] at h
  subst h
  repeat' (with_reducible first
    | assumption | apply kept_command | apply kept_testRunCmd | exact hOwner_le _ | intro _ | apply kept_ite
    | simp only [kept_mk] | split)

theorem kept_execCalRun {k s t : State} (hk : Kept k s) (p : Packet) (h : execCalRun p s = .next t) : Kept k t := by
  simp only [execCalRun, Host.Outcome.next.injEq] at h
  subst h
  repeat' (with_reducible first
    | assumption | apply kept_command | apply kept_calRunCmd | exact hOwner_le _ | intro _ | apply kept_ite
    | simp only [kept_mk] | split)

theorem kept_execTestStatus {k s t : State} (hk : Kept k s) (p : Packet) (h : execTestStatus p s = .next t) : Kept k t := by
  simp only [execTestStatus, Host.Outcome.next.injEq] at h
  subst h
  repeat' (with_reducible first
    | assumption | apply kept_command | apply kept_testStatusCmd | exact hOwner_le _ | intro _ | apply kept_ite
    | simp only [kept_mk] | split)

theorem kept_execFwStage {k s t : State} (hk : Kept k s) (p : Packet) (h : execFwStage p s = .next t) : Kept k t := by
  simp only [execFwStage, Host.Outcome.next.injEq] at h
  subst h
  repeat' (with_reducible first
    | assumption | apply kept_command | apply kept_fwStageCmd | exact hOwner_le _ | intro _ | apply kept_ite
    | simp only [kept_mk] | split)

theorem kept_execFwActivate {k s t : State} (hk : Kept k s) (p : Packet) (h : execFwActivate p s = .next t) : Kept k t := by
  simp only [execFwActivate, Host.Outcome.next.injEq] at h
  subst h
  repeat' (with_reducible first
    | assumption | apply kept_command | apply kept_fwActivateCmd | exact hOwner_le _ | intro _ | apply kept_ite
    | simp only [kept_mk] | split)

theorem kept_execFwStatus {k s t : State} (hk : Kept k s) (p : Packet) (h : execFwStatus p s = .next t) : Kept k t := by
  simp only [execFwStatus, Host.Outcome.next.injEq] at h
  subst h
  repeat' (with_reducible first
    | assumption | apply kept_command | apply kept_fwStatusCmd | exact hOwner_le _ | intro _ | apply kept_ite
    | simp only [kept_mk] | split)

theorem kept_execSecLifecycle {k s t : State} (hk : Kept k s) (p : Packet) (h : execSecLifecycle p s = .next t) : Kept k t := by
  simp only [execSecLifecycle, Host.Outcome.next.injEq] at h
  subst h
  repeat' (with_reducible first
    | assumption | apply kept_command | apply kept_secLifecycleCmd | exact hOwner_le _ | intro _ | apply kept_ite
    | simp only [kept_mk] | split)

theorem kept_execSecKey {k s t : State} (hk : Kept k s) (p : Packet) (h : execSecKey p s = .next t) : Kept k t := by
  simp only [execSecKey, Host.Outcome.next.injEq] at h
  subst h
  repeat' (with_reducible first
    | assumption | apply kept_command | apply kept_secKeyCmd | exact hOwner_le _ | intro _ | apply kept_ite
    | simp only [kept_mk] | split)

theorem kept_execSecProvision {k s t : State} (hk : Kept k s) (p : Packet) (h : execSecProvision p s = .next t) : Kept k t := by
  simp only [execSecProvision, Host.Outcome.next.injEq] at h
  subst h
  repeat' (with_reducible first
    | assumption | apply kept_command | apply kept_secProvisionCmd | exact hOwner_le _ | intro _ | apply kept_ite
    | simp only [kept_mk] | split)

theorem kept_execIslandEntryAnswer {k s t : State} (hk : Kept k s) (busy : Bool) (h : execIslandEntryAnswer busy s = .next t) : Kept k t := by
  simp only [execIslandEntryAnswer, Host.Outcome.next.injEq] at h
  subst h
  repeat' (with_reducible first
    | assumption | apply kept_atPower | apply kept_islandAnswers | exact hOwner_le _ | intro _ | apply kept_ite
    | simp only [kept_mk] | split)

theorem kept_execEntryDelayExpires {k s t : State} (hk : Kept k s)  (h : execEntryDelayExpires s = .next t) : Kept k t := by
  simp only [execEntryDelayExpires, Host.Outcome.next.injEq] at h
  subst h
  repeat' (with_reducible first
    | assumption | apply kept_atPower | apply kept_delayEnds | exact hOwner_le _ | intro _ | apply kept_ite
    | simp only [kept_mk] | split)

theorem kept_execTentryExpires {k s t : State} (hk : Kept k s)  (h : execTentryExpires s = .next t) : Kept k t := by
  simp only [execTentryExpires, Host.Outcome.next.injEq] at h
  subst h
  repeat' (with_reducible first
    | assumption | apply kept_atPower | apply kept_entryEnds | exact hOwner_le _ | intro _ | apply kept_ite
    | simp only [kept_mk] | split)

theorem kept_execWakeTrigger {k s t : State} (hk : Kept k s) (code : Nat) (h : execWakeTrigger code s = .next t) : Kept k t := by
  simp only [execWakeTrigger, Host.Outcome.next.injEq] at h
  subst h
  repeat' (with_reducible first
    | assumption | apply kept_atPower | apply kept_wakeTrigger | exact hOwner_le _ | intro _ | apply kept_ite
    | simp only [kept_mk] | split)

theorem kept_execWakeAfterExpires {k s t : State} (hk : Kept k s)  (h : execWakeAfterExpires s = .next t) : Kept k t := by
  simp only [execWakeAfterExpires, Host.Outcome.next.injEq] at h
  subst h
  repeat' (with_reducible first
    | assumption | apply kept_atPower | apply kept_wakeAfterEnds | exact hOwner_le _ | intro _ | apply kept_ite
    | simp only [kept_mk] | split)

theorem kept_stepReady {k s : State} (hk : Kept k s) (read : List (Nat × Nat × Word)) (words : List (Nat × CtrlContent)) : Kept k (stepReady read words s) := by
  unfold stepReady
  try simp only []
  repeat' (with_reducible first
    | assumption | apply kept_wakeReady | apply kept_railReady | (apply kept_foldS; intro _ _ _)
    | (apply kept_foldP; intro _ _ _) | (apply kept_foldL; intro _ _ _) | simp only [kept_mk]
    | refine kept_fst (by assumption) ?_ | intro _ | apply kept_ite | split)

theorem kept_execWakeStepReady {k s t : State} (hk : Kept k s) (lostPayload : List (Nat × Nat × Word)) (lostControl : List (Nat × CtrlContent)) (h : execWakeStepReady lostPayload lostControl s = .next t) : Kept k t := by
  unfold execWakeStepReady at h
  cases h
  try simp only []
  repeat' (with_reducible first
    | assumption | apply kept_atPower | apply kept_stepReady | (apply kept_foldS; intro _ _ _)
    | (apply kept_foldP; intro _ _ _) | (apply kept_foldL; intro _ _ _) | simp only [kept_mk]
    | refine kept_fst (by assumption) ?_ | intro _ | apply kept_ite | split)

theorem kept_execWakeStepLimitExpires {k s t : State} (hk : Kept k s) (unit : Nat) (elapsedUs : Nat) (h : execWakeStepLimitExpires unit elapsedUs s = .next t) : Kept k t := by
  simp only [execWakeStepLimitExpires, Host.Outcome.next.injEq] at h
  subst h
  repeat' (with_reducible first
    | assumption | apply kept_atPower | apply kept_wakeStepLate | exact hOwner_le _ | intro _ | apply kept_ite
    | simp only [kept_mk] | split)

theorem kept_execWakeRetryTick {k s t : State} (hk : Kept k s)  (h : execWakeRetryTick s = .next t) : Kept k t := by
  simp only [execWakeRetryTick, Host.Outcome.next.injEq] at h
  subst h
  repeat' (with_reducible first
    | assumption | apply kept_atPower | apply kept_wakeRetry | exact hOwner_le _ | intro _ | apply kept_ite
    | simp only [kept_mk] | split)

theorem kept_execSupplyRailLost {k s t : State} (hk : Kept k s) (code : Nat) (h : execSupplyRailLost code s = .next t) : Kept k t := by
  simp only [execSupplyRailLost, Host.Outcome.next.injEq] at h
  subst h
  repeat' (with_reducible first
    | assumption | apply kept_atPower | apply kept_supplyLost | exact hOwner_le _ | intro _ | apply kept_ite
    | simp only [kept_mk] | split)

theorem kept_execSupplyRailStable {k s t : State} (hk : Kept k s) (code : Nat) (h : execSupplyRailStable code s = .next t) : Kept k t := by
  simp only [execSupplyRailStable, Host.Outcome.next.injEq] at h
  subst h
  repeat' (with_reducible first
    | assumption | apply kept_atPower | apply kept_railBack | exact hOwner_le _ | intro _ | apply kept_ite
    | simp only [kept_mk] | split)

theorem kept_execQuePopHdr0Read {k s t : State} (hk : Kept k s) (h' : HostId) (q : Nat) (b : ReadBurst) (h : execQuePopHdr0Read h' q b s = .next t) : Kept k t := by
  simp only [execQuePopHdr0Read, Host.Outcome.next.injEq] at h
  subst h
  repeat' (with_reducible first
    | assumption | apply kept_finish | apply kept_readBurst | exact hOwner_le _ | intro _ | apply kept_ite
    | simp only [kept_mk] | split)

theorem kept_execQuePopDataRead {k s t : State} (hk : Kept k s) (h' : HostId) (q : Nat) (b : ReadBurst) (h : execQuePopDataRead h' q b s = .next t) : Kept k t := by
  simp only [execQuePopDataRead, Host.Outcome.next.injEq] at h
  subst h
  repeat' (with_reducible first
    | assumption | apply kept_finish | apply kept_readBurst | exact hOwner_le _ | intro _ | apply kept_ite
    | simp only [kept_mk] | split)

theorem kept_execQuePushHdrWrite {k s t : State} (hk : Kept k s) (h' : HostId) (q : Nat) (v : Word) (h : execQuePushHdrWrite h' q v s = .next t) : Kept k t := by
  simp only [execQuePushHdrWrite, Host.Outcome.next.injEq] at h
  subst h
  repeat' (with_reducible first
    | assumption | apply kept_finish | apply kept_hostWrite | exact hOwner_le _ | intro _ | apply kept_ite
    | simp only [kept_mk] | split)

theorem kept_execQuePushDataWrite {k s t : State} (hk : Kept k s) (h' : HostId) (q : Nat) (vs : List Word) (h : execQuePushDataWrite h' q vs s = .next t) : Kept k t := by
  simp only [execQuePushDataWrite, Host.Outcome.next.injEq] at h
  subst h
  repeat' (with_reducible first
    | assumption | apply kept_finish | apply kept_writeBurst | exact hOwner_le _ | intro _ | apply kept_ite
    | simp only [kept_mk] | split)

theorem kept_execHostxDoorbellWrite {k s t : State} (hk : Kept k s) (port : HostId) (blk : HostId) (v : Word) (h : execHostxDoorbellWrite port blk v s = .next t) : Kept k t := by
  simp only [execHostxDoorbellWrite, Host.Outcome.next.injEq] at h
  subst h
  repeat' (with_reducible first
    | assumption | apply kept_finish | apply kept_hostWrite | exact hOwner_le _ | intro _ | apply kept_ite
    | simp only [kept_mk] | split)

theorem kept_execHostxHeartbeatWrite {k s t : State} (hk : Kept k s) (port : HostId) (blk : HostId) (v : Word) (h : execHostxHeartbeatWrite port blk v s = .next t) : Kept k t := by
  simp only [execHostxHeartbeatWrite, Host.Outcome.next.injEq] at h
  subst h
  repeat' (with_reducible first
    | assumption | apply kept_finish | apply kept_hostWrite | exact hOwner_le _ | intro _ | apply kept_ite
    | simp only [kept_mk] | split)

theorem kept_execHostxCtrlWrite {k s t : State} (hk : Kept k s) (port : HostId) (blk : HostId) (v : Word) (h : execHostxCtrlWrite port blk v s = .next t) : Kept k t := by
  simp only [execHostxCtrlWrite, Host.Outcome.next.injEq] at h
  subst h
  repeat' (with_reducible first
    | assumption | apply kept_finish | apply kept_hostWrite | exact hOwner_le _ | intro _ | apply kept_ite
    | simp only [kept_mk] | split)

theorem kept_execSemTakenRead {k s t : State} (hk : Kept k s) (port : HostId) (blk : HostId) (n : Nat) (ready : Bool) (tie : Bool) (h : execSemTakenRead port blk n ready tie s = .next t) : Kept k t := by
  simp only [execSemTakenRead, Host.Outcome.next.injEq] at h
  subst h
  repeat' (with_reducible first
    | assumption | apply kept_finish | apply kept_ownBlock | apply kept_readSem | exact hOwner_le _ | intro _
    | apply kept_ite | simp only [kept_mk] | split)

theorem kept_execSemTakenWrite {k s t : State} (hk : Kept k s) (port : HostId) (blk : HostId) (n : Nat) (v : Word) (h : execSemTakenWrite port blk n v s = .next t) : Kept k t := by
  simp only [execSemTakenWrite, Host.Outcome.next.injEq] at h
  subst h
  repeat' (with_reducible first
    | assumption | apply kept_finish | apply kept_hostWrite | exact hOwner_le _ | intro _ | apply kept_ite
    | simp only [kept_mk] | split)

theorem kept_execStatusSqcWrite {k s t : State} (hk : Kept k s) (h' : HostId) (addr : Nat) (v : Word) (h : execStatusSqcWrite h' addr v s = .next t) : Kept k t := by
  simp only [execStatusSqcWrite, Host.Outcome.next.injEq] at h
  subst h
  repeat' (with_reducible first
    | assumption | apply kept_finish | apply kept_hostWrite | exact hOwner_le _ | intro _ | apply kept_ite
    | simp only [kept_mk] | split)

theorem kept_execFltForcekWrite {k s t : State} (hk : Kept k s) (h' : HostId) (k' : Nat) (v : Word) (h : execFltForcekWrite h' k' v s = .next t) : Kept k t := by
  simp only [execFltForcekWrite, Host.Outcome.next.injEq] at h
  subst h
  repeat' (with_reducible first
    | assumption | apply kept_finish | apply kept_hostWrite | exact hOwner_le _ | intro _ | apply kept_ite
    | simp only [kept_mk] | split)

theorem kept_execFltPulseWrite {k s t : State} (hk : Kept k s) (h' : HostId) (v : Word) (h : execFltPulseWrite h' v s = .next t) : Kept k t := by
  simp only [execFltPulseWrite, Host.Outcome.next.injEq] at h
  subst h
  repeat' (with_reducible first
    | assumption | apply kept_finish | apply kept_hostWrite | exact hOwner_le _ | intro _ | apply kept_ite
    | simp only [kept_mk] | split)

theorem kept_execFltAckwWrite {k s t : State} (hk : Kept k s) (h' : HostId) (v : Word) (h : execFltAckwWrite h' v s = .next t) : Kept k t := by
  simp only [execFltAckwWrite, Host.Outcome.next.injEq] at h
  subst h
  repeat' (with_reducible first
    | assumption | apply kept_finish | apply kept_hostWrite | exact hOwner_le _ | intro _ | apply kept_ite
    | simp only [kept_mk] | split)

theorem kept_execStokCtrlReplan {k s t : State} (hk : Kept k s) (h' : HostId) (v : Word) (h : execStokCtrlReplan h' v s = .next t) : Kept k t := by
  simp only [execStokCtrlReplan, Host.Outcome.next.injEq] at h
  subst h
  repeat' (with_reducible first
    | assumption | apply kept_finish | apply kept_hostWrite | exact hOwner_le _ | intro _ | apply kept_ite
    | simp only [kept_mk] | split)

theorem kept_execMemcCtrlScrubNow {k s t : State} (hk : Kept k s) (h' : HostId) (v : Word) (h : execMemcCtrlScrubNow h' v s = .next t) : Kept k t := by
  simp only [execMemcCtrlScrubNow, Host.Outcome.next.injEq] at h
  subst h
  repeat' (with_reducible first
    | assumption | apply kept_finish | apply kept_hostWrite | exact hOwner_le _ | intro _ | apply kept_ite
    | simp only [kept_mk] | split)

theorem kept_execCanCtrlAbortAll {k s t : State} (hk : Kept k s) (h' : HostId) (ch : Nat) (v : Word) (h : execCanCtrlAbortAll h' ch v s = .next t) : Kept k t := by
  simp only [execCanCtrlAbortAll, Host.Outcome.next.injEq] at h
  subst h
  repeat' (with_reducible first
    | assumption | apply kept_finish | apply kept_hostWrite | exact hOwner_le _ | intro _ | apply kept_ite
    | simp only [kept_mk] | split)

theorem kept_execCanSendRequestWrite {k s t : State} (hk : Kept k s) (h' : HostId) (ch : Nat) (obj : Nat) (h : execCanSendRequestWrite h' ch obj s = .next t) : Kept k t := by
  simp only [execCanSendRequestWrite, Host.Outcome.next.injEq] at h
  subst h
  repeat' (with_reducible first
    | assumption | apply kept_finish | apply kept_hostWrite | exact hOwner_le _ | intro _ | apply kept_ite
    | simp only [kept_mk] | split)

theorem kept_execCanAbortRequestWrite {k s t : State} (hk : Kept k s) (h' : HostId) (ch : Nat) (obj : Nat) (h : execCanAbortRequestWrite h' ch obj s = .next t) : Kept k t := by
  simp only [execCanAbortRequestWrite, Host.Outcome.next.injEq] at h
  subst h
  repeat' (with_reducible first
    | assumption | apply kept_finish | apply kept_hostWrite | exact hOwner_le _ | intro _ | apply kept_ite
    | simp only [kept_mk] | split)

theorem kept_execCanObjectLockRead {k s t : State} (hk : Kept k s) (h' : HostId) (ch : Nat) (obj : Nat) (h : execCanObjectLockRead h' ch obj s = .next t) : Kept k t := by
  simp only [execCanObjectLockRead, Host.Outcome.next.injEq] at h
  subst h
  repeat' (with_reducible first
    | assumption | apply kept_finish | apply kept_readObj | apply kept_readControl | exact hOwner_le _ | intro _
    | apply kept_ite | simp only [kept_mk] | split)

theorem kept_execCanReleaseWordRead {k s t : State} (hk : Kept k s) (h' : HostId) (ch : Nat) (obj : Nat) (h : execCanReleaseWordRead h' ch obj s = .next t) : Kept k t := by
  simp only [execCanReleaseWordRead, Host.Outcome.next.injEq] at h
  subst h
  repeat' (with_reducible first
    | assumption | apply kept_finish | apply kept_readObj | apply kept_readRelease | exact hOwner_le _ | intro _
    | apply kept_ite | simp only [kept_mk] | split)

theorem kept_execLichConfigWrite {k s t : State} (hk : Kept k s) (h' : HostId) (k' : Nat) (v : Word) (h : execLichConfigWrite h' k' v s = .next t) : Kept k t := by
  simp only [execLichConfigWrite, Host.Outcome.next.injEq] at h
  subst h
  repeat' (with_reducible first
    | assumption | apply kept_finish | apply kept_hostWrite | exact hOwner_le _ | intro _ | apply kept_ite
    | simp only [kept_mk] | split)

theorem kept_execLichWriteApplied {k s t : State} (hk : Kept k s)  (h : execLichWriteApplied s = .next t) : Kept k t := by
  simp only [execLichWriteApplied, Host.Outcome.next.injEq] at h
  subst h
  repeat' (with_reducible first
    | assumption | apply kept_finish | apply kept_lichApplied | exact hOwner_le _ | intro _ | apply kept_ite
    | simp only [kept_mk] | split)

theorem kept_execMailboxAccess {k s t : State} (hk : Kept k s) (c : MbxCycle) (h : execMailboxAccess c s = .next t) : Kept k t := by
  simp only [execMailboxAccess, Host.Outcome.next.injEq] at h
  subst h
  repeat' (with_reducible first
    | assumption | apply kept_finish | apply kept_mailboxCycle | exact hOwner_le _ | intro _ | apply kept_ite
    | simp only [kept_mk] | split)

theorem kept_execXspiUnknownCommand {k s t : State} (hk : Kept k s) (h' : HostId) (cmd : Byte) (h : execXspiUnknownCommand h' cmd s = .next t) : Kept k t := by
  simp only [execXspiUnknownCommand, Host.Outcome.next.injEq] at h
  subst h
  repeat' (with_reducible first
    | assumption | apply kept_finish | apply kept_decodeFault | exact hOwner_le _ | intro _ | apply kept_ite
    | simp only [kept_mk] | split)

theorem kept_execRegisterWrite {k s t : State} (hk : Kept k s) (h' : HostId) (addr : Nat) (b : WriteBurst) (h : execRegisterWrite h' addr b s = .next t) : Kept k t := by
  simp only [execRegisterWrite, Host.Outcome.next.injEq] at h
  subst h
  repeat' (with_reducible first
    | assumption | apply kept_finish | apply kept_hostBurst | exact hOwner_le _ | intro _ | apply kept_ite
    | simp only [kept_mk] | split)

theorem kept_execThostwdExpires {k s t : State} (hk : Kept k s) (h' : HostId) (h : execThostwdExpires h' s = .next t) : Kept k t := by
  simp only [execThostwdExpires, Host.Outcome.next.injEq] at h
  subst h
  repeat' (with_reducible first
    | assumption | apply kept_finish | apply kept_watchdogEnds | exact hOwner_le _ | intro _ | apply kept_ite
    | simp only [kept_mk] | split)

theorem kept_execTsemlossExpires {k s t : State} (hk : Kept k s) (h' : HostId) (h : execTsemlossExpires h' s = .next t) : Kept k t := by
  simp only [execTsemlossExpires, Host.Outcome.next.injEq] at h
  subst h
  repeat' (with_reducible first
    | assumption | apply kept_finish | apply kept_semLoss | exact hOwner_le _ | intro _ | apply kept_ite
    | simp only [kept_mk] | split)

theorem kept_execSvcCommandSetup {k s t : State} (hk : Kept k s) (inst : Nat) (wLength : Nat) (h : execSvcCommandSetup inst wLength s = .next t) : Kept k t := by
  simp only [execSvcCommandSetup, Host.Outcome.next.injEq] at h
  subst h
  repeat' (with_reducible first
    | assumption | apply kept_atInst | apply kept_svcSetup | exact hOwner_le _ | intro _ | apply kept_ite
    | simp only [kept_mk] | split)

theorem kept_execSvcCommandStatusStage {k s t : State} (hk : Kept k s) (inst : Nat) (bytes : List Byte) (h : execSvcCommandStatusStage inst bytes s = .next t) : Kept k t := by
  simp only [execSvcCommandStatusStage, Host.Outcome.next.injEq] at h
  subst h
  repeat' (with_reducible first
    | assumption | apply kept_atInst | apply kept_svcCommit | exact hOwner_le _ | intro _ | apply kept_ite
    | simp only [kept_mk] | split)

theorem kept_execSvcStandardRequest {k s t : State} (hk : Kept k s) (inst : Nat) (setup : List Byte) (h : execSvcStandardRequest inst setup s = .next t) : Kept k t := by
  simp only [execSvcStandardRequest, Host.Outcome.next.injEq] at h
  subst h
  repeat' (with_reducible first
    | assumption | apply kept_atInst | apply kept_svcRequestOf | exact hOwner_le _ | intro _ | apply kept_ite
    | simp only [kept_mk] | split)

theorem kept_execSvcBusReset {k s t : State} (hk : Kept k s) (inst : Nat) (h : execSvcBusReset inst s = .next t) : Kept k t := by
  simp only [execSvcBusReset, Host.Outcome.next.injEq] at h
  subst h
  repeat' (with_reducible first
    | assumption | apply kept_atInst | apply kept_svcReset | exact hOwner_le _ | intro _ | apply kept_ite
    | simp only [kept_mk] | split)

theorem kept_execSvcBulkOutRecord {k s t : State} (hk : Kept k s) (inst : Nat) (record : List Byte) (h : execSvcBulkOutRecord inst record s = .next t) : Kept k t := by
  simp only [execSvcBulkOutRecord, Host.Outcome.next.injEq] at h
  subst h
  repeat' (with_reducible first
    | assumption | apply kept_record | apply kept_atInst | apply kept_svcPush | exact hOwner_le _ | intro _
    | apply kept_ite | simp only [kept_mk] | split)

theorem kept_execSvcBulkInAck {k s t : State} (hk : Kept k s) (inst : Nat) (h : execSvcBulkInAck inst s = .next t) : Kept k t := by
  simp only [execSvcBulkInAck, Host.Outcome.next.injEq] at h
  subst h
  repeat' (with_reducible first
    | assumption | apply kept_atInst | apply kept_svcAcked | exact hOwner_le _ | intro _ | apply kept_ite
    | simp only [kept_mk] | split)

theorem kept_execSvcInterruptInPoll {k s t : State} (hk : Kept k s) (inst : Nat) (h : execSvcInterruptInPoll inst s = .next t) : Kept k t := by
  simp only [execSvcInterruptInPoll, Host.Outcome.next.injEq] at h
  subst h
  repeat' (with_reducible first
    | assumption | apply kept_atInst | apply kept_svcPoll | exact hOwner_le _ | intro _ | apply kept_ite
    | simp only [kept_mk] | split)

theorem kept_execSvcSuspend {k s t : State} (hk : Kept k s) (inst : Nat) (h : execSvcSuspend inst s = .next t) : Kept k t := by
  simp only [execSvcSuspend, Host.Outcome.next.injEq] at h
  subst h
  repeat' (with_reducible first
    | assumption | apply kept_atInst | apply kept_svcSuspend | exact hOwner_le _ | intro _ | apply kept_ite
    | simp only [kept_mk] | split)

theorem kept_execSvcResume {k s t : State} (hk : Kept k s) (inst : Nat) (h : execSvcResume inst s = .next t) : Kept k t := by
  simp only [execSvcResume, Host.Outcome.next.injEq] at h
  subst h
  repeat' (with_reducible first
    | assumption | apply kept_atInst | apply kept_svcResume | exact hOwner_le _ | intro _ | apply kept_ite
    | simp only [kept_mk] | split)

theorem kept_execServicePortDetach {k s t : State} (hk : Kept k s)  (h : execServicePortDetach s = .next t) : Kept k t := by
  simp only [execServicePortDetach, Host.Outcome.next.injEq] at h
  subst h
  repeat' (with_reducible first
    | assumption | apply kept_finish | apply kept_svcDetach | exact hOwner_le _ | intro _ | apply kept_ite
    | simp only [kept_mk] | split)

theorem kept_execColdStart {k s t : State} (hk : Kept k s) (env : StartEnv) (h : execColdStart env s = .next t) : Kept k t := by
  simp only [execColdStart, Host.Outcome.next.injEq] at h
  subst h
  repeat' (with_reducible first
    | assumption | apply kept_atPower | apply kept_coldStart | exact hOwner_le _ | intro _ | apply kept_ite
    | simp only [kept_mk] | split)

theorem kept_execMboterReady {k s t : State} (hk : Kept k s) (failed : List Nat) (h : execMboterReady failed s = .next t) : Kept k t := by
  simp only [execMboterReady, Host.Outcome.next.injEq] at h
  subst h
  repeat' (with_reducible first
    | assumption | apply kept_atPower | apply kept_mboterReady | exact hOwner_le _ | intro _ | apply kept_ite
    | simp only [kept_mk] | split)

theorem kept_execMboterStartTimeout {k s t : State} (hk : Kept k s)  (h : execMboterStartTimeout s = .next t) : Kept k t := by
  simp only [execMboterStartTimeout, Host.Outcome.next.injEq] at h
  subst h
  repeat' (with_reducible first
    | assumption | apply kept_atPower | apply kept_startLate | exact hOwner_le _ | intro _ | apply kept_ite
    | simp only [kept_mk] | split)

theorem kept_execWarmRestartTimeout {k s t : State} (hk : Kept k s)  (h : execWarmRestartTimeout s = .next t) : Kept k t := by
  simp only [execWarmRestartTimeout, Host.Outcome.next.injEq] at h
  subst h
  repeat' (with_reducible first
    | assumption | apply kept_atPower | apply kept_warmLate | exact hOwner_le _ | intro _ | apply kept_ite
    | simp only [kept_mk] | split)

theorem kept_execUnhandledCoreException {k s t : State} (hk : Kept k s)  (h : execUnhandledCoreException s = .next t) : Kept k t := by
  simp only [execUnhandledCoreException, Host.Outcome.next.injEq] at h
  subst h
  repeat' (with_reducible first
    | assumption | apply kept_atPower | apply kept_warmLate | apply kept_startLate | exact hOwner_le _ | intro _
    | apply kept_ite | simp only [kept_mk] | split)

theorem kept_execBootCounterClear {k s t : State} (hk : Kept k s)  (h : execBootCounterClear s = .next t) : Kept k t := by
  simp only [execBootCounterClear, Host.Outcome.next.injEq] at h
  subst h
  repeat' (with_reducible first
    | assumption | apply kept_atPower | apply kept_bootCleared | exact hOwner_le _ | intro _ | apply kept_ite
    | simp only [kept_mk] | split)

theorem kept_execResetNLongHold {k s t : State} (hk : Kept k s)  (h : execResetNLongHold s = .next t) : Kept k t := by
  simp only [execResetNLongHold, Host.Outcome.next.injEq] at h
  subst h
  repeat' (with_reducible first
    | assumption | apply kept_atPower | apply kept_longReset | exact hOwner_le _ | intro _ | apply kept_ite
    | simp only [kept_mk] | split)

theorem kept_execFlashEraseComplete {k s t : State} (hk : Kept k s) (inTime : Bool) (h : execFlashEraseComplete inTime s = .next t) : Kept k t := by
  simp only [execFlashEraseComplete, Host.Outcome.next.injEq] at h
  subst h
  repeat' (with_reducible first
    | assumption | apply kept_atPower | apply kept_eraseEnds | exact hOwner_le _ | intro _ | apply kept_ite
    | simp only [kept_mk] | split)

theorem kept_execFlashVerifyComplete {k s t : State} (hk : Kept k s) (r : VerifyEnd) (version : Word) (ucode : Word) (compat : Word) (h : execFlashVerifyComplete r version ucode compat s = .next t) : Kept k t := by
  simp only [execFlashVerifyComplete, Host.Outcome.next.injEq] at h
  subst h
  repeat' (with_reducible first
    | assumption | apply kept_atPower | apply kept_verifyEnds | exact hOwner_le _ | intro _ | apply kept_ite
    | simp only [kept_mk] | split)

theorem kept_execOtpWriteComplete {k s t : State} (hk : Kept k s)  (h : execOtpWriteComplete s = .next t) : Kept k t := by
  simp only [execOtpWriteComplete, Host.Outcome.next.injEq] at h
  subst h
  repeat' (with_reducible first
    | assumption | apply kept_atPower | apply kept_otpWritten | exact hOwner_le _ | intro _ | apply kept_ite
    | simp only [kept_mk] | split)

theorem kept_execTamperNLow {k s t : State} (hk : Kept k s)  (h : execTamperNLow s = .next t) : Kept k t := by
  simp only [execTamperNLow, Host.Outcome.next.injEq] at h
  subst h
  repeat' (with_reducible first
    | assumption | apply kept_atPower | apply kept_tamper | exact hOwner_le _ | intro _ | apply kept_ite
    | simp only [kept_mk] | split)

theorem kept_execTamperNReleased {k s t : State} (hk : Kept k s)  (h : execTamperNReleased s = .next t) : Kept k t := by
  simp only [execTamperNReleased, Host.Outcome.next.injEq] at h
  subst h
  repeat' (with_reducible first
    | assumption | apply kept_atPower | apply kept_tamperEnds | exact hOwner_le _ | intro _ | apply kept_ite
    | simp only [kept_mk] | split)

theorem kept_execZeroisationReadback {k s t : State} (hk : Kept k s) (zero : Bool) (h : execZeroisationReadback zero s = .next t) : Kept k t := by
  simp only [execZeroisationReadback, Host.Outcome.next.injEq] at h
  subst h
  repeat' (with_reducible first
    | assumption | apply kept_atPower | apply kept_readBack | exact hOwner_le _ | intro _ | apply kept_ite
    | simp only [kept_mk] | split)

theorem kept_execPowerDiePowerOn {k s t : State} (hk : Kept k s)  (h : execPowerDiePowerOn s = .next t) : Kept k t := by
  simp only [execPowerDiePowerOn, Host.Outcome.next.injEq] at h
  subst h
  repeat' (with_reducible first
    | assumption | apply kept_powerOn | exact hOwner_le _ | intro _ | apply kept_ite | simp only [kept_mk] | split)

theorem kept_execLossOfAllSources {k s t : State} (hk : Kept k s)  (h : execLossOfAllSources s = .next t) : Kept k t := by
  simp only [execLossOfAllSources, Host.Outcome.next.injEq] at h
  subst h
  repeat' (with_reducible first
    | assumption | apply kept_sourcesLost | exact hOwner_le _ | intro _ | apply kept_ite | simp only [kept_mk]
    | split)

theorem kept_execPpsEdge {k s t : State} (hk : Kept k s) (capture : DWord) (h : execPpsEdge capture s = .next t) : Kept k t := by
  simp only [execPpsEdge, Host.Outcome.next.injEq] at h
  subst h
  repeat' (with_reducible first
    | assumption | apply kept_atTime | apply kept_edge | exact hOwner_le _ | intro _ | apply kept_ite
    | simp only [kept_mk] | split)

theorem kept_execTppsMissExpires {k s t : State} (hk : Kept k s)  (h : execTppsMissExpires s = .next t) : Kept k t := by
  simp only [execTppsMissExpires, Host.Outcome.next.injEq] at h
  subst h
  repeat' (with_reducible first
    | assumption | apply kept_atTime | apply kept_ppsMissed | exact hOwner_le _ | intro _ | apply kept_ite
    | simp only [kept_mk] | split)

theorem kept_execTholdoverTimeout {k s t : State} (hk : Kept k s)  (h : execTholdoverTimeout s = .next t) : Kept k t := by
  simp only [execTholdoverTimeout, Host.Outcome.next.injEq] at h
  subst h
  repeat' (with_reducible first
    | assumption | apply kept_atTime | apply kept_holdoverEnds | exact hOwner_le _ | intro _ | apply kept_ite
    | simp only [kept_mk] | split)

theorem kept_execTfSaveTick {k s t : State} (hk : Kept k s)  (h : execTfSaveTick s = .next t) : Kept k t := by
  simp only [execTfSaveTick, Host.Outcome.next.injEq] at h
  subst h
  repeat' (with_reducible first
    | assumption | apply kept_atTime | apply kept_saveTick | exact hOwner_le _ | intro _ | apply kept_ite
    | simp only [kept_mk] | split)

theorem kept_execPlantSecondCrossing {k s t : State} (hk : Kept k s)  (h : execPlantSecondCrossing s = .next t) : Kept k t := by
  simp only [execPlantSecondCrossing, Host.Outcome.next.injEq] at h
  subst h
  repeat' (with_reducible first
    | assumption | apply kept_atTime | apply kept_secondCrossing | exact hOwner_le _ | intro _ | apply kept_ite
    | simp only [kept_mk] | split)

theorem kept_execRefClockFailure {k s t : State} (hk : Kept k s)  (h : execRefClockFailure s = .next t) : Kept k t := by
  simp only [execRefClockFailure, Host.Outcome.next.injEq] at h
  subst h
  repeat' (with_reducible first
    | assumption | apply kept_atTime | apply kept_refFails | exact hOwner_le _ | intro _ | apply kept_ite
    | simp only [kept_mk] | split)

theorem kept_execXtal32Failure {k s t : State} (hk : Kept k s)  (h : execXtal32Failure s = .next t) : Kept k t := by
  simp only [execXtal32Failure, Host.Outcome.next.injEq] at h
  subst h
  repeat' (with_reducible first
    | assumption | apply kept_atPower | apply kept_xtal32Fails | exact hOwner_le _ | intro _ | apply kept_ite
    | simp only [kept_mk] | split)

theorem kept_execTrunkPhyLinkUp {k s t : State} (hk : Kept k s) (n : Nat) (h : execTrunkPhyLinkUp n s = .next t) : Kept k t := by
  simp only [execTrunkPhyLinkUp, Host.Outcome.next.injEq] at h
  subst h
  repeat' (with_reducible first
    | assumption | apply kept_atTrunk | apply kept_trunkPhyLinkUp | exact hOwner_le _ | intro _ | apply kept_ite
    | simp only [kept_mk] | split)

theorem kept_execTrunkPhyLinkDown {k s t : State} (hk : Kept k s) (d : LinkDown) (h : execTrunkPhyLinkDown d s = .next t) : Kept k t := by
  simp only [execTrunkPhyLinkDown, Host.Outcome.next.injEq] at h
  subst h
  repeat' (with_reducible first
    | assumption | apply kept_atTrunk | apply kept_trunkPhyLinkDown | exact hOwner_le _ | intro _ | apply kept_ite
    | simp only [kept_mk] | split)

theorem kept_execTphyrstExpires {k s t : State} (hk : Kept k s) (n : Nat) (answers : Bool) (h : execTphyrstExpires n answers s = .next t) : Kept k t := by
  simp only [execTphyrstExpires, Host.Outcome.next.injEq] at h
  subst h
  repeat' (with_reducible first
    | assumption | apply kept_atTrunk | apply kept_tphyrstExpires | exact hOwner_le _ | intro _ | apply kept_ite
    | simp only [kept_mk] | split)

theorem kept_execTrunkPhyLinkTimeout {k s t : State} (hk : Kept k s) (n : Nat) (h : execTrunkPhyLinkTimeout n s = .next t) : Kept k t := by
  simp only [execTrunkPhyLinkTimeout, Host.Outcome.next.injEq] at h
  subst h
  repeat' (with_reducible first
    | assumption | apply kept_atTrunk | apply kept_trunkPhyLinkTimeout | exact hOwner_le _ | intro _
    | apply kept_ite | simp only [kept_mk] | split)

theorem kept_execTkeepaliveTick {k s t : State} (hk : Kept k s)  (h : execTkeepaliveTick s = .next t) : Kept k t := by
  simp only [execTkeepaliveTick, Host.Outcome.next.injEq] at h
  subst h
  repeat' (with_reducible first
    | assumption | apply kept_atChip | apply kept_tkeepaliveTick | exact hOwner_le _ | intro _ | apply kept_ite
    | simp only [kept_mk] | split)

theorem kept_execKeepaliveReceived {k s t : State} (hk : Kept k s) (n : Nat) (ka : KeepAlive) (h : execKeepaliveReceived n ka s = .next t) : Kept k t := by
  simp only [execKeepaliveReceived, Host.Outcome.next.injEq] at h
  subst h
  repeat' (with_reducible first
    | assumption | apply kept_atTrunk | apply kept_keepaliveReceived | exact hOwner_le _ | intro _ | apply kept_ite
    | simp only [kept_mk] | split)

theorem kept_execKeepaliveTimeout {k s t : State} (hk : Kept k s) (n : Nat) (h : execKeepaliveTimeout n s = .next t) : Kept k t := by
  simp only [execKeepaliveTimeout, Host.Outcome.next.injEq] at h
  subst h
  repeat' (with_reducible first
    | assumption | apply kept_atTrunk | apply kept_keepaliveTimeout | exact hOwner_le _ | intro _ | apply kept_ite
    | simp only [kept_mk] | split)

theorem kept_execTlinkHoldExpires {k s t : State} (hk : Kept k s) (n : Nat) (h : execTlinkHoldExpires n s = .next t) : Kept k t := by
  simp only [execTlinkHoldExpires, Host.Outcome.next.injEq] at h
  subst h
  repeat' (with_reducible first
    | assumption | apply kept_atTrunk | apply kept_tlinkHoldExpires | exact hOwner_le _ | intro _ | apply kept_ite
    | simp only [kept_mk] | split)

theorem kept_execTsettleExpires {k s t : State} (hk : Kept k s) (n : Nat) (h : execTsettleExpires n s = .next t) : Kept k t := by
  simp only [execTsettleExpires, Host.Outcome.next.injEq] at h
  subst h
  repeat' (with_reducible first
    | assumption | apply kept_atTrunk | apply kept_tsettleExpires | exact hOwner_le _ | intro _ | apply kept_ite
    | simp only [kept_mk] | split)

theorem kept_execTopologyReceived {k s t : State} (hk : Kept k s) (n : Nat) (f : TopoFrame) (h : execTopologyReceived n f s = .next t) : Kept k t := by
  simp only [execTopologyReceived, Host.Outcome.next.injEq] at h
  subst h
  repeat' (with_reducible first
    | assumption | apply kept_atTrunk | apply kept_topologyReceived | exact hOwner_le _ | intro _ | apply kept_ite
    | simp only [kept_mk] | split)

theorem kept_execTtopoRefreshTick {k s t : State} (hk : Kept k s)  (h : execTtopoRefreshTick s = .next t) : Kept k t := by
  simp only [execTtopoRefreshTick, Host.Outcome.next.injEq] at h
  subst h
  repeat' (with_reducible first
    | assumption | apply kept_atChip | apply kept_flood | exact hOwner_le _ | intro _ | apply kept_ite
    | simp only [kept_mk] | split)

theorem kept_execTtopoAgeExpires {k s t : State} (hk : Kept k s) (id : Half) (h : execTtopoAgeExpires id s = .next t) : Kept k t := by
  simp only [execTtopoAgeExpires, Host.Outcome.next.injEq] at h
  subst h
  repeat' (with_reducible first
    | assumption | apply kept_atChip | apply kept_ttopoAgeExpires | exact hOwner_le _ | intro _ | apply kept_ite
    | simp only [kept_mk] | split)

theorem kept_execCommandFrameReceived {k s t : State} (hk : Kept k s) (n : Nat) (f : FrameHdr) (bytes : List Byte) (h : execCommandFrameReceived n f bytes s = .next t) : Kept k t := by
  simp only [execCommandFrameReceived, Host.Outcome.next.injEq] at h
  subst h
  repeat' (with_reducible first
    | assumption | apply kept_atTrunk | apply kept_atMac | apply kept_commandFrame | exact hOwner_le _ | intro _
    | apply kept_ite | simp only [kept_mk] | split)

theorem kept_execReplyFrameReceived {k s t : State} (hk : Kept k s) (n : Nat) (f : FrameHdr) (bytes : List Byte) (h : execReplyFrameReceived n f bytes s = .next t) : Kept k t := by
  simp only [execReplyFrameReceived, Host.Outcome.next.injEq] at h
  subst h
  repeat' (with_reducible first
    | assumption | apply kept_atTrunk | apply kept_atMac | apply kept_replyFrameReceived | exact hOwner_le _
    | intro _ | apply kept_ite | simp only [kept_mk] | split)

theorem kept_execEventFrameReceived {k s t : State} (hk : Kept k s) (n : Nat) (f : FrameHdr) (item : Item) (h : execEventFrameReceived n f item s = .next t) : Kept k t := by
  simp only [execEventFrameReceived, Host.Outcome.next.injEq] at h
  subst h
  repeat' (with_reducible first
    | assumption | apply kept_atTrunk | apply kept_atMac | apply kept_eventFrameReceived | exact hOwner_le _
    | intro _ | apply kept_ite | simp only [kept_mk] | split)

theorem kept_execDeliveryFrameReceived {k s t : State} (hk : Kept k s) (n : Nat) (f : FrameHdr) (item : Item) (h : execDeliveryFrameReceived n f item s = .next t) : Kept k t := by
  simp only [execDeliveryFrameReceived, Host.Outcome.next.injEq] at h
  subst h
  repeat' (with_reducible first
    | assumption | apply kept_atTrunk | apply kept_atMac | apply kept_deliveryFrameReceived | exact hOwner_le _
    | intro _ | apply kept_ite | simp only [kept_mk] | split)

theorem kept_execCreditRecordReceived {k s t : State} (hk : Kept k s) (n : Nat) (f : FrameHdr) (admitted : Half) (window : Nat) (reset : Bool) (h : execCreditRecordReceived n f admitted window reset s = .next t) : Kept k t := by
  simp only [execCreditRecordReceived, Host.Outcome.next.injEq] at h
  subst h
  repeat' (with_reducible first
    | assumption | apply kept_atTrunk | apply kept_atMac | apply kept_creditRecordReceived | exact hOwner_le _
    | intro _ | apply kept_ite | simp only [kept_mk] | split)

theorem kept_execTimeFrameReceived {k s t : State} (hk : Kept k s) (n : Nat) (x1 : Half) (ns : DWord) (locked : Bool) (x2 : Bool) (h : execTimeFrameReceived n x1 ns locked x2 s = .next t) : Kept k t := by
  simp only [execTimeFrameReceived, Host.Outcome.next.injEq] at h
  subst h
  repeat' (with_reducible first
    | assumption | apply kept_atTrunk | apply kept_timeFrameReceived | exact hOwner_le _ | intro _ | apply kept_ite
    | simp only [kept_mk] | split)

theorem kept_execTe2eRetryExpires {k s t : State} (hk : Kept k s) (q : Nat) (h : execTe2eRetryExpires q s = .next t) : Kept k t := by
  simp only [execTe2eRetryExpires, Host.Outcome.next.injEq] at h
  subst h
  repeat' (with_reducible first
    | assumption | apply kept_atChip | apply kept_te2eRetryExpires | exact hOwner_le _ | intro _ | apply kept_ite
    | simp only [kept_mk] | split)

theorem kept_execTcreditExpires {k s t : State} (hk : Kept k s) (q : Nat) (h : execTcreditExpires q s = .next t) : Kept k t := by
  simp only [execTcreditExpires, Host.Outcome.next.injEq] at h
  subst h
  repeat' (with_reducible first
    | assumption | apply kept_atChip | apply kept_tcreditExpires | exact hOwner_le _ | intro _ | apply kept_ite
    | simp only [kept_mk] | split)

theorem kept_execOldMacWindowEnd {k s t : State} (hk : Kept k s)  (h : execOldMacWindowEnd s = .next t) : Kept k t := by
  simp only [execOldMacWindowEnd, Host.Outcome.next.injEq] at h
  subst h
  repeat' (with_reducible first
    | assumption | apply kept_modDev | exact hOwner_le _ | intro _ | apply kept_ite | simp only [kept_mk] | split)

theorem kept_execReceivedFrameDiscarded {k s t : State} (hk : Kept k s) (n : Nat) (why : Discard) (h : execReceivedFrameDiscarded n why s = .next t) : Kept k t := by
  simp only [execReceivedFrameDiscarded, Host.Outcome.next.injEq] at h
  subst h
  repeat' (with_reducible first
    | assumption | apply kept_atTrunk | apply kept_receivedFrameDiscarded | exact hOwner_le _ | intro _
    | apply kept_ite | simp only [kept_mk] | split)

theorem kept_execEgressFrameEnd {k s t : State} (hk : Kept k s) (n : Nat) (h : execEgressFrameEnd n s = .next t) : Kept k t := by
  simp only [execEgressFrameEnd, Host.Outcome.next.injEq] at h
  subst h
  repeat' (with_reducible first
    | assumption | apply kept_atTrunk | apply kept_egressFrameEnd | exact hOwner_le _ | intro _ | apply kept_ite
    | simp only [kept_mk] | split)

end Sys2Proof.Machine
end

