-- ==== Sys2Proof/Laws/Steps.lean ====
section
/-!
SUPPORT. What every command and every step keeps, and a fold that changes nothing.
-/
set_option linter.all false
set_option maxRecDepth 20000
namespace Sys2Proof.Machine

/-- Every command leads from a kept state to a kept state. -/
theorem kept_exec {k s t : State} (hk : Kept k s) (c : Instr) (h : exec c s = .next t) : Kept k t := by
  cases c with
  | devIdentify p => exact kept_execDevIdentify hk p h
  | devStatus p => exact kept_execDevStatus hk p h
  | devSetId p => exact kept_execDevSetId hk p h
  | devEcho p => exact kept_execDevEcho hk p h
  | opAbort p => exact kept_execOpAbort hk p h
  | opQuery p => exact kept_execOpQuery hk p h
  | devWarmRestart p => exact kept_execDevWarmRestart hk p h
  | hostBind p => exact kept_execHostBind hk p h
  | semTake p => exact kept_execSemTake hk p h
  | semGive p => exact kept_execSemGive hk p h
  | devPowerState p => exact kept_execDevPowerState hk p h
  | portEnable p => exact kept_execPortEnable hk p h
  | portDisable p => exact kept_execPortDisable hk p h
  | portStatus p => exact kept_execPortStatus hk p h
  | portBusReset p => exact kept_execPortBusReset hk p h
  | portSuspend p => exact kept_execPortSuspend hk p h
  | portResume p => exact kept_execPortResume hk p h
  | portPowerCycle p => exact kept_execPortPowerCycle hk p h
  | portSetPolicy p => exact kept_execPortSetPolicy hk p h
  | treeList p => exact kept_execTreeList hk p h
  | epList p => exact kept_execEpList hk p h
  | epBind p => exact kept_execEpBind hk p h
  | epUnbind p => exact kept_execEpUnbind hk p h
  | epControl p => exact kept_execEpControl hk p h
  | epWrite p => exact kept_execEpWrite hk p h
  | epRead p => exact kept_execEpRead hk p h
  | epState p => exact kept_execEpState hk p h
  | qConfig p => exact kept_execQConfig hk p h
  | qStatus p => exact kept_execQStatus hk p h
  | qFlush p => exact kept_execQFlush hk p h
  | qReplay p => exact kept_execQReplay hk p h
  | budgetSet p => exact kept_execBudgetSet hk p h
  | budgetStatus p => exact kept_execBudgetStatus hk p h
  | placeHint p => exact kept_execPlaceHint hk p h
  | placePin p => exact kept_execPlacePin hk p h
  | placeReport p => exact kept_execPlaceReport hk p h
  | pdSetCaps p => exact kept_execPdSetCaps hk p h
  | pdStatus p => exact kept_execPdStatus hk p h
  | pdDrSwap p => exact kept_execPdDrSwap hk p h
  | pdHardReset p => exact kept_execPdHardReset hk p h
  | pdDiscover p => exact kept_execPdDiscover hk p h
  | pdAltmode p => exact kept_execPdAltmode hk p h
  | canConfig p => exact kept_execCanConfig hk p h
  | canObjConfig p => exact kept_execCanObjConfig hk p h
  | canFilterSet p => exact kept_execCanFilterSet hk p h
  | canSend p => exact kept_execCanSend hk p h
  | canStatus p => exact kept_execCanStatus hk p h
  | canTimeMaster p => exact kept_execCanTimeMaster hk p h
  | trkConfig p => exact kept_execTrkConfig hk p h
  | trkStatus p => exact kept_execTrkStatus hk p h
  | trkRoute p => exact kept_execTrkRoute hk p h
  | trkDiscover p => exact kept_execTrkDiscover hk p h
  | timeSet p => exact kept_execTimeSet hk p h
  | timeGet p => exact kept_execTimeGet hk p h
  | timeStatus p => exact kept_execTimeStatus hk p h
  | fltRead p => exact kept_execFltRead hk p h
  | fltAck p => exact kept_execFltAck hk p h
  | fltForce p => exact kept_execFltForce hk p h
  | ashRead p => exact kept_execAshRead hk p h
  | testRun p => exact kept_execTestRun hk p h
  | calRun p => exact kept_execCalRun hk p h
  | testStatus p => exact kept_execTestStatus hk p h
  | fwStage p => exact kept_execFwStage hk p h
  | fwActivate p => exact kept_execFwActivate hk p h
  | fwStatus p => exact kept_execFwStatus hk p h
  | secLifecycle p => exact kept_execSecLifecycle hk p h
  | secKey p => exact kept_execSecKey hk p h
  | secProvision p => exact kept_execSecProvision hk p h
  | quePopHdr0Read hh q b => exact kept_execQuePopHdr0Read hk hh q b h
  | quePopDataRead hh q b => exact kept_execQuePopDataRead hk hh q b h
  | quePushHdrWrite hh q v => exact kept_execQuePushHdrWrite hk hh q v h
  | quePushDataWrite hh q v => exact kept_execQuePushDataWrite hk hh q v h
  | hostxDoorbellWrite port blk v => exact kept_execHostxDoorbellWrite hk port blk v h
  | hostxHeartbeatWrite port blk v => exact kept_execHostxHeartbeatWrite hk port blk v h
  | hostxCtrlWrite port blk v => exact kept_execHostxCtrlWrite hk port blk v h
  | semTakenRead port blk n ready tie => exact kept_execSemTakenRead hk port blk n ready tie h
  | semTakenWrite port blk n v => exact kept_execSemTakenWrite hk port blk n v h
  | statusSqcWrite hh addr v => exact kept_execStatusSqcWrite hk hh addr v h
  | fltForcekWrite hh kk v => exact kept_execFltForcekWrite hk hh kk v h
  | fltPulseWrite hh v => exact kept_execFltPulseWrite hk hh v h
  | fltAckwWrite hh v => exact kept_execFltAckwWrite hk hh v h
  | stokCtrlReplan hh v => exact kept_execStokCtrlReplan hk hh v h
  | memcCtrlScrubNow hh v => exact kept_execMemcCtrlScrubNow hk hh v h
  | canCtrlAbortAll hh ch v => exact kept_execCanCtrlAbortAll hk hh ch v h
  | canSendRequestWrite hh ch obj => exact kept_execCanSendRequestWrite hk hh ch obj h
  | canAbortRequestWrite hh ch obj => exact kept_execCanAbortRequestWrite hk hh ch obj h
  | canObjectLockRead hh ch obj => exact kept_execCanObjectLockRead hk hh ch obj h
  | canReleaseWordRead hh ch obj => exact kept_execCanReleaseWordRead hk hh ch obj h
  | lichConfigWrite hh kk v => exact kept_execLichConfigWrite hk hh kk v h
  | lichWriteApplied => exact kept_execLichWriteApplied hk  h
  | mailboxAccess c => exact kept_execMailboxAccess hk c h
  | xspiUnknownCommand hh cmd => exact kept_execXspiUnknownCommand hk hh cmd h
  | registerWrite hh addr b => exact kept_execRegisterWrite hk hh addr b h
  | ccRdSeen p cc => exact kept_execCcRdSeen hk p cc h
  | ccRdLost p => exact kept_execCcRdLost hk p h
  | tccdebounceExpires p => exact kept_execTccdebounceExpires hk p h
  | tpddebounceExpires p => exact kept_execTpddebounceExpires hk p h
  | powerGood p => exact kept_execPowerGood hk p h
  | powerGoodLost p vsns => exact kept_execPowerGoodLost hk p vsns h
  | pullupSeen p => exact kept_execPullupSeen hk p h
  | pullupLost p => exact kept_execPullupLost hk p h
  | tconnectExpires p => exact kept_execTconnectExpires hk p h
  | tattdbExpires p loc dplus => exact kept_execTattdbExpires hk p loc dplus h
  | chirpKDetected p us => exact kept_execChirpKDetected hk p us h
  | trstrootExpires p => exact kept_execTrstrootExpires hk p h
  | trstrcyExpires p loc hubSpeed => exact kept_execTrstrcyExpires hk p loc hubSpeed h
  | tsetaddrExpires p loc => exact kept_execTsetaddrExpires hk p loc h
  | tctrlExpires p loc => exact kept_execTctrlExpires hk p loc h
  | tenumRetryExpires p loc => exact kept_execTenumRetryExpires hk p loc h
  | taddrQuietExpires p what => exact kept_execTaddrQuietExpires hk p what h
  | rootBabble p => exact kept_execRootBabble hk p h
  | remoteWakeK p => exact kept_execRemoteWakeK hk p h
  | tresumeExpires p => exact kept_execTresumeExpires hk p h
  | trsmrcyExpires p a b => exact kept_execTrsmrcyExpires hk p a b h
  | hubPortConnectChange p hub hport => exact kept_execHubPortConnectChange hk p hub hport h
  | hubPortDisconnectChange p hub hport why => exact kept_execHubPortDisconnectChange hk p hub hport why h
  | microframeBoundary => exact kept_execMicroframeBoundary hk  h
  | sublistCommit te p g => exact kept_execSublistCommit hk te p g h
  | transactionResult r => exact kept_execTransactionResult hk r h
  | queueRefillDone q good => exact kept_execQueueRefillDone hk q good h
  | stokerReplan why => exact kept_execStokerReplan hk why h
  | migrationReady p g => exact kept_execMigrationReady hk p g h
  | migrationDrainMarker p g => exact kept_execMigrationDrainMarker hk p g h
  | coldTakeoverReady p g => exact kept_execColdTakeoverReady hk p g h
  | engineNoAck te => exact kept_execEngineNoAck hk te h
  | ledgerRecompute m => exact kept_execLedgerRecompute hk m h
  | ledgerMeasurementElapsed => exact kept_execLedgerMeasurementElapsed hk  h
  | trelaxExpires => exact kept_execTrelaxExpires hk  h
  | tshedExpires => exact kept_execTshedExpires hk  h
  | feedLimitShedTick => exact kept_execFeedLimitShedTick hk  h
  | trestoreExpires => exact kept_execTrestoreExpires hk  h
  | shedRestoreTick => exact kept_execShedRestoreTick hk  h
  | evacuationRetryTick => exact kept_execEvacuationRetryTick hk  h
  | evacuationTimeout => exact kept_execEvacuationTimeout hk h
  | rotationTick u port => exact kept_execRotationTick hk u port h
  | testComplete r => exact kept_execTestComplete hk r h
  | payloadBankIdleOff b => exact kept_execPayloadBankIdleOff hk b h
  | activeSetShrink => exact kept_execActiveSetShrink hk  h
  | peatScrub f => exact kept_execPeatScrub hk f h
  | ctrlSramScrub f => exact kept_execCtrlSramScrub hk f h
  | thostwdExpires hh => exact kept_execThostwdExpires hk hh h
  | tsemlossExpires hh => exact kept_execTsemlossExpires hk hh h
  | svcCommandSetup inst wLength => exact kept_execSvcCommandSetup hk inst wLength h
  | svcCommandStatusStage inst bytes => exact kept_execSvcCommandStatusStage hk inst bytes h
  | svcStandardRequest inst setup => exact kept_execSvcStandardRequest hk inst setup h
  | svcBusReset inst => exact kept_execSvcBusReset hk inst h
  | svcBulkOutRecord inst record => exact kept_execSvcBulkOutRecord hk inst record h
  | svcBulkInAck inst => exact kept_execSvcBulkInAck hk inst h
  | svcInterruptInPoll inst => exact kept_execSvcInterruptInPoll hk inst h
  | svcSuspend inst => exact kept_execSvcSuspend hk inst h
  | trunkPhyLinkUp n => exact kept_execTrunkPhyLinkUp hk n h
  | trunkPhyLinkDown d => exact kept_execTrunkPhyLinkDown hk d h
  | tphyrstExpires n answers => exact kept_execTphyrstExpires hk n answers h
  | trunkPhyLinkTimeout n => exact kept_execTrunkPhyLinkTimeout hk n h
  | tkeepaliveTick => exact kept_execTkeepaliveTick hk  h
  | keepaliveReceived n ka => exact kept_execKeepaliveReceived hk n ka h
  | keepaliveTimeout n => exact kept_execKeepaliveTimeout hk n h
  | tlinkHoldExpires n => exact kept_execTlinkHoldExpires hk n h
  | tsettleExpires n => exact kept_execTsettleExpires hk n h
  | topologyReceived n f => exact kept_execTopologyReceived hk n f h
  | ttopoRefreshTick => exact kept_execTtopoRefreshTick hk  h
  | ttopoAgeExpires id => exact kept_execTtopoAgeExpires hk id h
  | commandFrameReceived n f bytes => exact kept_execCommandFrameReceived hk n f bytes h
  | replyFrameReceived n f bytes => exact kept_execReplyFrameReceived hk n f bytes h
  | eventFrameReceived n f item => exact kept_execEventFrameReceived hk n f item h
  | deliveryFrameReceived n f item => exact kept_execDeliveryFrameReceived hk n f item h
  | creditRecordReceived n f admitted window reset => exact kept_execCreditRecordReceived hk n f admitted window reset h
  | timeFrameReceived n src ns locked aligned => exact kept_execTimeFrameReceived hk n src ns locked aligned h
  | te2eRetryExpires q => exact kept_execTe2eRetryExpires hk q h
  | tcreditExpires q => exact kept_execTcreditExpires hk q h
  | oldMacWindowEnd => exact kept_execOldMacWindowEnd hk  h
  | tcapsRepeatExpires p => exact kept_execTcapsRepeatExpires hk p h
  | goodcrcReceived p msg => exact kept_execGoodcrcReceived hk p msg h
  | tsenderExpires p => exact kept_execTsenderExpires hk p h
  | requestReceived p rdo => exact kept_execRequestReceived hk p rdo h
  | tsrcTransExpires p => exact kept_execTsrcTransExpires hk p h
  | gapDelayExpires p => exact kept_execGapDelayExpires hk p h
  | vsnsStepdownReached p => exact kept_execVsnsStepdownReached hk p h
  | tstepdownExpires p => exact kept_execTstepdownExpires hk p h
  | ccNoRdInTransition p => exact kept_execCcNoRdInTransition hk p h
  | softResetReceived p => exact kept_execSoftResetReceived hk p h
  | hardResetReceived p => exact kept_execHardResetReceived hk p h
  | tpsHardresetExpires p => exact kept_execTpsHardresetExpires hk p h
  | vsnsSafe0vReached p => exact kept_execVsnsSafe0vReached hk p h
  | tsafe0vExpires p => exact kept_execTsafe0vExpires hk p h
  | tsrcRecoverExpires p => exact kept_execTsrcRecoverExpires hk p h
  | getSourceCapReceived p => exact kept_execGetSourceCapReceived hk p h
  | getSinkCapReceived p => exact kept_execGetSinkCapReceived hk p h
  | drSwapReceived p => exact kept_execDrSwapReceived hk p h
  | prSwapReceived p kind => exact kept_execPrSwapReceived hk p kind h
  | pdUnsupportedMessage p => exact kept_execPdUnsupportedMessage hk p h
  | pdResponseReceived p ans => exact kept_execPdResponseReceived hk p ans h
  | twaitExpires p => exact kept_execTwaitExpires hk p h
  | sourceCapabilitiesReceived p pdo => exact kept_execSourceCapabilitiesReceived hk p pdo h
  | psRdyReceived p => exact kept_execPsRdyReceived hk p h
  | swapPartnerSourceSeen p => exact kept_execSwapPartnerSourceSeen hk p h
  | tswapAttachExpires p => exact kept_execTswapAttachExpires hk p h
  | swappedVbusLost p => exact kept_execSwappedVbusLost hk p h
  | swappedHrRdTimeout p => exact kept_execSwappedHrRdTimeout hk p h
  | tsvcDfpExpires => exact kept_execTsvcDfpExpires hk  h
  | vdmRequestReceived p req => exact kept_execVdmRequestReceived hk p req h
  | vdmResponseReceived p ans vdos => exact kept_execVdmResponseReceived hk p ans vdos h
  | tvdmExpires p => exact kept_execTvdmExpires hk p h
  | tvdmEnterExpires p => exact kept_execTvdmEnterExpires hk p h
  | exitModeReceived p => exact kept_execExitModeReceived hk p h
  | prail15Low => exact kept_execPrail15Low hk  h
  | prail15Restored => exact kept_execPrail15Restored hk  h
  | svcVbusPresent rp => exact kept_execSvcVbusPresent hk rp h
  | svcCapsWaitExpires => exact kept_execSvcCapsWaitExpires hk  h
  | svcGateOverload => exact kept_execSvcGateOverload hk  h
  | svcGateReclose => exact kept_execSvcGateReclose hk  h
  | tfaultReached p => exact kept_execTfaultReached hk p h
  | trampPgExpires p vsns => exact kept_execTrampPgExpires hk p vsns h
  | tfetCheckExpires p vsns => exact kept_execTfetCheckExpires hk p vsns h
  | prail5Low mv => exact kept_execPrail5Low hk mv h
  | prail5Restored mv => exact kept_execPrail5Restored hk mv h
  | feedVoltagePresent f mv => exact kept_execFeedVoltagePresent hk f mv h
  | feedVoltageLost f mv => exact kept_execFeedVoltageLost hk f mv h
  | seatDebounceComplete => exact kept_execSeatDebounceComplete hk  h
  | seatPinHigh seat1 seat2 => exact kept_execSeatPinHigh hk seat1 seat2 h
  | bulkPrecharged f => exact kept_execBulkPrecharged hk f h
  | feedGateOn f mv => exact kept_execFeedGateOn hk f mv h
  | tprechargeExpires f bulkMv => exact kept_execTprechargeExpires hk f bulkMv h
  | feedLimitReached f ma => exact kept_execFeedLimitReached hk f ma h
  | feedLimitLeft f ma => exact kept_execFeedLimitLeft hk f ma h
  | tfaultFeedExpires f ma => exact kept_execTfaultFeedExpires hk f ma h
  | reverseCurrentDetected f ma => exact kept_execReverseCurrentDetected hk f ma h
  | tretryFeedExpires f => exact kept_execTretryFeedExpires hk f h
  | logicDieReset cause => exact kept_execLogicDieReset hk cause h
  | tholdExpires => exact kept_execTholdExpires hk  h
  | canIntegrationComplete ch => exact kept_execCanIntegrationComplete hk ch h
  | canFrameReceived ch f => exact kept_execCanFrameReceived hk ch f h
  | canReferenceMessageReceived ch ide id => exact kept_execCanReferenceMessageReceived hk ch ide id h
  | canErrorDetected ch e => exact kept_execCanErrorDetected hk ch e h
  | canBusOffRecovery ch => exact kept_execCanBusOffRecovery hk ch h
  | canSendComplete ch obj result sof tdcMeasured => exact kept_execCanSendComplete hk ch obj result sof tdcMeasured h
  | tlockExpires ch obj => exact kept_execTlockExpires hk ch obj h
  | canCycleStart ch => exact kept_execCanCycleStart hk ch h
  | ppsEdge capture => exact kept_execPpsEdge hk capture h
  | tppsMissExpires => exact kept_execTppsMissExpires hk  h
  | tholdoverTimeout => exact kept_execTholdoverTimeout hk  h
  | tfSaveTick => exact kept_execTfSaveTick hk  h
  | plantSecondCrossing => exact kept_execPlantSecondCrossing hk  h
  | refClockFailure => exact kept_execRefClockFailure hk  h
  | xtal32Failure => exact kept_execXtal32Failure hk  h
  | islandEntryAnswer busy => exact kept_execIslandEntryAnswer hk busy h
  | entryDelayExpires => exact kept_execEntryDelayExpires hk  h
  | tentryExpires => exact kept_execTentryExpires hk  h
  | wakeTrigger code => exact kept_execWakeTrigger hk code h
  | wakeAfterExpires => exact kept_execWakeAfterExpires hk  h
  | wakeStepReady lostPayload lostControl => exact kept_execWakeStepReady hk lostPayload lostControl h
  | wakeStepLimitExpires unit elapsedUs => exact kept_execWakeStepLimitExpires hk unit elapsedUs h
  | wakeRetryTick => exact kept_execWakeRetryTick hk  h
  | supplyRailLost code => exact kept_execSupplyRailLost hk code h
  | supplyRailStable code => exact kept_execSupplyRailStable hk code h
  | lockstepMismatch => exact kept_execLockstepMismatch hk  h
  | mboterWatchdogExpires => exact kept_execMboterWatchdogExpires hk  h
  | sensorDivergence kk => exact kept_execSensorDivergence hk kk h
  | dieLinkCheckFailure => exact kept_execDieLinkCheckFailure hk  h
  | ashLogDrain => exact kept_execAshLogDrain hk  h
  | cfgParityCheck upset => exact kept_execCfgParityCheck hk upset h
  | coldStart env => exact kept_execColdStart hk env h
  | mboterReady failed => exact kept_execMboterReady hk failed h
  | mboterStartTimeout => exact kept_execMboterStartTimeout hk  h
  | warmRestartTimeout => exact kept_execWarmRestartTimeout hk  h
  | bootCounterClear => exact kept_execBootCounterClear hk  h
  | resetNLongHold => exact kept_execResetNLongHold hk  h
  | flashEraseComplete inTime => exact kept_execFlashEraseComplete hk inTime h
  | flashVerifyComplete r version ucode compat => exact kept_execFlashVerifyComplete hk r version ucode compat h
  | otpWriteComplete => exact kept_execOtpWriteComplete hk  h
  | tamperNLow => exact kept_execTamperNLow hk  h
  | zeroisationReadback zero => exact kept_execZeroisationReadback hk zero h
  | offTimeExpires p => exact kept_execOffTimeExpires hk p h
  | pwron2pwrgoodWaitExpires p hub => exact kept_execPwron2pwrgoodWaitExpires hk p hub h
  | portAtLimit p => exact kept_execPortAtLimit hk p h
  | portLimitLeft p => exact kept_execPortLimitLeft hk p h
  | servicePortDetach => exact kept_execServicePortDetach hk  h
  | svcResume inst => exact kept_execSvcResume hk inst h
  | tamperNReleased => exact kept_execTamperNReleased hk  h
  | canProtocolException ch => exact kept_execCanProtocolException hk ch h
  | newVoltageNotGood p => exact kept_execNewVoltageNotGood hk p h
  | eventMergeIntervalEnd kind => exact kept_execEventMergeIntervalEnd hk kind h
  | receivedFrameDiscarded n why => exact kept_execReceivedFrameDiscarded hk n why h
  | egressFrameEnd n => exact kept_execEgressFrameEnd hk n h
  | powerDiePowerOn => exact kept_execPowerDiePowerOn hk  h
  | lossOfAllSources => exact kept_execLossOfAllSources hk  h
  | unhandledCoreException => exact kept_execUnhandledCoreException hk  h
  | evacuationCopyComplete => exact kept_execEvacuationCopyComplete hk  h

theorem step_nil {s : State} (hp : s.pending = []) : step s = .next (idle s) := by
  unfold step; rw [hp]
theorem step_cons {s : State} {c : Instr} {rest : List Instr} (hp : s.pending = c :: rest) :
    step s = exec c { s with pending := rest } := by
  unfold step; rw [hp]

/-- A step from a legal state leads to a kept state; what it is kept against has the queue's rest. -/
theorem kept_step {s t : State} (hl : Safety.Legal s) (h : step s = .next t) : Kept { s with pending := s.pending.tail } t := by
  cases hp : s.pending with
  | nil =>
    rw [step_nil hp] at h
    rw [← Host.Outcome.next.inj h]
    exact kept_idle ⟨hp, rfl, ⟨Nat.le_refl _, fun _ _ h => h⟩, hl⟩
  | cons c rest =>
    rw [step_cons hp] at h
    exact kept_exec ⟨rfl, rfl, ⟨Nat.le_refl _, fun _ _ h => h⟩, hl⟩ c h

/-- A fold over operations that change nothing changes nothing. -/
theorem foldS_same {α : Type} (f : α → State → State) (s : State) : ∀ (l : List α), (∀ a ∈ l, f a s = s) → foldS l f s = s
  | [], _ => rfl
  | a :: l, h => by
    show foldS l f (f a s) = s
    rw [h a (by simp)]
    exact foldS_same f s l fun b hb => h b (by simp [hb])

end Sys2Proof.Machine
end

