-- ==== Sys2Proof/Laws/Posts.lean ====
section
/-!
SUPPORT. What a post and a port event leave alone, field by field, and the guards of the events and commands met: under
its guard the meaning is its action followed by the shared end of a command.
-/
set_option linter.all false
namespace Sys2Proof.Machine

theorem posted_post' (n : Nat) (b : List Byte) (s : State) : Posted s (post n b s) := posted_post (Posted.refl s) n b
@[simp] theorem post_part (n : Nat) (b : List Byte) (s : State) : (post n b s).part = s.part := (posted_post' n b s).part
@[simp] theorem post_otp (n : Nat) (b : List Byte) (s : State) : (post n b s).otp = s.otp := (posted_post' n b s).otp
@[simp] theorem post_dev (n : Nat) (b : List Byte) (s : State) : (post n b s).dev = s.dev := (posted_post' n b s).dev
@[simp] theorem post_power (n : Nat) (b : List Byte) (s : State) : (post n b s).power = s.power := (posted_post' n b s).power
@[simp] theorem post_warm (n : Nat) (b : List Byte) (s : State) : (post n b s).warm = s.warm := (posted_post' n b s).warm
@[simp] theorem post_lich (n : Nat) (b : List Byte) (s : State) : (post n b s).lich = s.lich := (posted_post' n b s).lich
@[simp] theorem post_ops (n : Nat) (b : List Byte) (s : State) : (post n b s).ops = s.ops := (posted_post' n b s).ops
@[simp] theorem post_ports (n : Nat) (b : List Byte) (s : State) : (post n b s).ports = s.ports := (posted_post' n b s).ports
@[simp] theorem post_ctxs (n : Nat) (b : List Byte) (s : State) : (post n b s).ctxs = s.ctxs := (posted_post' n b s).ctxs
@[simp] theorem post_xfers (n : Nat) (b : List Byte) (s : State) : (post n b s).xfers = s.xfers := (posted_post' n b s).xfers
@[simp] theorem post_pool (n : Nat) (b : List Byte) (s : State) : (post n b s).pool = s.pool := (posted_post' n b s).pool
@[simp] theorem post_ctrl (n : Nat) (b : List Byte) (s : State) : (post n b s).ctrl = s.ctrl := (posted_post' n b s).ctrl
@[simp] theorem post_mail (n : Nat) (b : List Byte) (s : State) : (post n b s).mail = s.mail := (posted_post' n b s).mail
@[simp] theorem post_peat (n : Nat) (b : List Byte) (s : State) : (post n b s).peat = s.peat := (posted_post' n b s).peat
@[simp] theorem post_stok (n : Nat) (b : List Byte) (s : State) : (post n b s).stok = s.stok := (posted_post' n b s).stok
@[simp] theorem post_ledger (n : Nat) (b : List Byte) (s : State) : (post n b s).ledger = s.ledger := (posted_post' n b s).ledger
@[simp] theorem post_test (n : Nat) (b : List Byte) (s : State) : (post n b s).test = s.test := (posted_post' n b s).test
@[simp] theorem post_flts (n : Nat) (b : List Byte) (s : State) : (post n b s).flts = s.flts := (posted_post' n b s).flts
@[simp] theorem post_fltIn (n : Nat) (b : List Byte) (s : State) : (post n b s).fltIn = s.fltIn := (posted_post' n b s).fltIn
@[simp] theorem post_cans (n : Nat) (b : List Byte) (s : State) : (post n b s).cans = s.cans := (posted_post' n b s).cans
@[simp] theorem post_time (n : Nat) (b : List Byte) (s : State) : (post n b s).time = s.time := (posted_post' n b s).time
@[simp] theorem post_feedA (n : Nat) (b : List Byte) (s : State) : (post n b s).feedA = s.feedA := (posted_post' n b s).feedA
@[simp] theorem post_feedB (n : Nat) (b : List Byte) (s : State) : (post n b s).feedB = s.feedB := (posted_post' n b s).feedB
@[simp] theorem post_board (n : Nat) (b : List Byte) (s : State) : (post n b s).board = s.board := (posted_post' n b s).board
@[simp] theorem post_svc (n : Nat) (b : List Byte) (s : State) : (post n b s).svc = s.svc := (posted_post' n b s).svc
@[simp] theorem post_fw (n : Nat) (b : List Byte) (s : State) : (post n b s).fw = s.fw := (posted_post' n b s).fw
@[simp] theorem post_sec (n : Nat) (b : List Byte) (s : State) : (post n b s).sec = s.sec := (posted_post' n b s).sec
@[simp] theorem post_cfg (n : Nat) (b : List Byte) (s : State) : (post n b s).cfg = s.cfg := (posted_post' n b s).cfg
@[simp] theorem post_port (n : Nat) (b : List Byte) (s : State) (k : Nat) : (post n b s).port k = s.port k := by unfold State.port; simp only [post_ports]
@[simp] theorem post_busRuns (n : Nat) (b : List Byte) (s : State) : (post n b s).busRuns = s.busRuns := by unfold State.busRuns; simp only [post_dev]
@[simp] theorem post_hasPort (n : Nat) (b : List Byte) (s : State) (k : Nat) : (post n b s).hasPort k = s.hasPort k := by unfold State.hasPort State.nPorts; simp only [post_part]
@[simp] theorem post_opAt (n : Nat) (b : List Byte) (s : State) (k : Nat) : (post n b s).opAt k = s.opAt k := by unfold State.opAt; simp only [post_ops]
theorem posted_portEvent' (p c a x y : Nat) (r : List Byte) (s : State) : Posted s (portEvent p c a x y r s) := posted_post (posted_setSqc (Posted.refl s) _ _) _ _
@[simp] theorem portEvent_part (p c a x y : Nat) (r : List Byte) (s : State) : (portEvent p c a x y r s).part = s.part := (posted_portEvent' p c a x y r s).part
@[simp] theorem portEvent_otp (p c a x y : Nat) (r : List Byte) (s : State) : (portEvent p c a x y r s).otp = s.otp := (posted_portEvent' p c a x y r s).otp
@[simp] theorem portEvent_dev (p c a x y : Nat) (r : List Byte) (s : State) : (portEvent p c a x y r s).dev = s.dev := (posted_portEvent' p c a x y r s).dev
@[simp] theorem portEvent_power (p c a x y : Nat) (r : List Byte) (s : State) : (portEvent p c a x y r s).power = s.power := (posted_portEvent' p c a x y r s).power
@[simp] theorem portEvent_warm (p c a x y : Nat) (r : List Byte) (s : State) : (portEvent p c a x y r s).warm = s.warm := (posted_portEvent' p c a x y r s).warm
@[simp] theorem portEvent_lich (p c a x y : Nat) (r : List Byte) (s : State) : (portEvent p c a x y r s).lich = s.lich := (posted_portEvent' p c a x y r s).lich
@[simp] theorem portEvent_ops (p c a x y : Nat) (r : List Byte) (s : State) : (portEvent p c a x y r s).ops = s.ops := (posted_portEvent' p c a x y r s).ops
@[simp] theorem portEvent_ports (p c a x y : Nat) (r : List Byte) (s : State) : (portEvent p c a x y r s).ports = s.ports := (posted_portEvent' p c a x y r s).ports
@[simp] theorem portEvent_ctxs (p c a x y : Nat) (r : List Byte) (s : State) : (portEvent p c a x y r s).ctxs = s.ctxs := (posted_portEvent' p c a x y r s).ctxs
@[simp] theorem portEvent_xfers (p c a x y : Nat) (r : List Byte) (s : State) : (portEvent p c a x y r s).xfers = s.xfers := (posted_portEvent' p c a x y r s).xfers
@[simp] theorem portEvent_pool (p c a x y : Nat) (r : List Byte) (s : State) : (portEvent p c a x y r s).pool = s.pool := (posted_portEvent' p c a x y r s).pool
@[simp] theorem portEvent_ctrl (p c a x y : Nat) (r : List Byte) (s : State) : (portEvent p c a x y r s).ctrl = s.ctrl := (posted_portEvent' p c a x y r s).ctrl
@[simp] theorem portEvent_mail (p c a x y : Nat) (r : List Byte) (s : State) : (portEvent p c a x y r s).mail = s.mail := (posted_portEvent' p c a x y r s).mail
@[simp] theorem portEvent_peat (p c a x y : Nat) (r : List Byte) (s : State) : (portEvent p c a x y r s).peat = s.peat := (posted_portEvent' p c a x y r s).peat
@[simp] theorem portEvent_stok (p c a x y : Nat) (r : List Byte) (s : State) : (portEvent p c a x y r s).stok = s.stok := (posted_portEvent' p c a x y r s).stok
@[simp] theorem portEvent_ledger (p c a x y : Nat) (r : List Byte) (s : State) : (portEvent p c a x y r s).ledger = s.ledger := (posted_portEvent' p c a x y r s).ledger
@[simp] theorem portEvent_test (p c a x y : Nat) (r : List Byte) (s : State) : (portEvent p c a x y r s).test = s.test := (posted_portEvent' p c a x y r s).test
@[simp] theorem portEvent_flts (p c a x y : Nat) (r : List Byte) (s : State) : (portEvent p c a x y r s).flts = s.flts := (posted_portEvent' p c a x y r s).flts
@[simp] theorem portEvent_fltIn (p c a x y : Nat) (r : List Byte) (s : State) : (portEvent p c a x y r s).fltIn = s.fltIn := (posted_portEvent' p c a x y r s).fltIn
@[simp] theorem portEvent_cans (p c a x y : Nat) (r : List Byte) (s : State) : (portEvent p c a x y r s).cans = s.cans := (posted_portEvent' p c a x y r s).cans
@[simp] theorem portEvent_time (p c a x y : Nat) (r : List Byte) (s : State) : (portEvent p c a x y r s).time = s.time := (posted_portEvent' p c a x y r s).time
@[simp] theorem portEvent_feedA (p c a x y : Nat) (r : List Byte) (s : State) : (portEvent p c a x y r s).feedA = s.feedA := (posted_portEvent' p c a x y r s).feedA
@[simp] theorem portEvent_feedB (p c a x y : Nat) (r : List Byte) (s : State) : (portEvent p c a x y r s).feedB = s.feedB := (posted_portEvent' p c a x y r s).feedB
@[simp] theorem portEvent_board (p c a x y : Nat) (r : List Byte) (s : State) : (portEvent p c a x y r s).board = s.board := (posted_portEvent' p c a x y r s).board
@[simp] theorem portEvent_svc (p c a x y : Nat) (r : List Byte) (s : State) : (portEvent p c a x y r s).svc = s.svc := (posted_portEvent' p c a x y r s).svc
@[simp] theorem portEvent_fw (p c a x y : Nat) (r : List Byte) (s : State) : (portEvent p c a x y r s).fw = s.fw := (posted_portEvent' p c a x y r s).fw
@[simp] theorem portEvent_sec (p c a x y : Nat) (r : List Byte) (s : State) : (portEvent p c a x y r s).sec = s.sec := (posted_portEvent' p c a x y r s).sec
@[simp] theorem portEvent_cfg (p c a x y : Nat) (r : List Byte) (s : State) : (portEvent p c a x y r s).cfg = s.cfg := (posted_portEvent' p c a x y r s).cfg
@[simp] theorem portEvent_port (p c a x y : Nat) (r : List Byte) (s : State) (k : Nat) : (portEvent p c a x y r s).port k = s.port k := by unfold State.port; simp only [portEvent_ports]
@[simp] theorem portEvent_busRuns (p c a x y : Nat) (r : List Byte) (s : State) : (portEvent p c a x y r s).busRuns = s.busRuns := by unfold State.busRuns; simp only [portEvent_dev]
@[simp] theorem portEvent_hasPort (p c a x y : Nat) (r : List Byte) (s : State) (k : Nat) : (portEvent p c a x y r s).hasPort k = s.hasPort k := by unfold State.hasPort State.nPorts; simp only [portEvent_part]
@[simp] theorem portEvent_opAt (p c a x y : Nat) (r : List Byte) (s : State) (k : Nat) : (portEvent p c a x y r s).opAt k = s.opAt k := by unfold State.opAt; simp only [portEvent_ops]
theorem posted_pdEvent' (p c x y : Nat) (s : State) : Posted s (pdEvent p c x y s) := by
  unfold pdEvent; dsimp only; split
  · exact posted_post (Posted.refl s) _ _
  · exact posted_post (posted_setSqc (Posted.refl s) _ _) _ _
@[simp] theorem pdEvent_part (p c x y : Nat) (s : State) : (pdEvent p c x y s).part = s.part := (posted_pdEvent' p c x y s).part
@[simp] theorem pdEvent_otp (p c x y : Nat) (s : State) : (pdEvent p c x y s).otp = s.otp := (posted_pdEvent' p c x y s).otp
@[simp] theorem pdEvent_dev (p c x y : Nat) (s : State) : (pdEvent p c x y s).dev = s.dev := (posted_pdEvent' p c x y s).dev
@[simp] theorem pdEvent_power (p c x y : Nat) (s : State) : (pdEvent p c x y s).power = s.power := (posted_pdEvent' p c x y s).power
@[simp] theorem pdEvent_warm (p c x y : Nat) (s : State) : (pdEvent p c x y s).warm = s.warm := (posted_pdEvent' p c x y s).warm
@[simp] theorem pdEvent_lich (p c x y : Nat) (s : State) : (pdEvent p c x y s).lich = s.lich := (posted_pdEvent' p c x y s).lich
@[simp] theorem pdEvent_ops (p c x y : Nat) (s : State) : (pdEvent p c x y s).ops = s.ops := (posted_pdEvent' p c x y s).ops
@[simp] theorem pdEvent_ports (p c x y : Nat) (s : State) : (pdEvent p c x y s).ports = s.ports := (posted_pdEvent' p c x y s).ports
@[simp] theorem pdEvent_ctxs (p c x y : Nat) (s : State) : (pdEvent p c x y s).ctxs = s.ctxs := (posted_pdEvent' p c x y s).ctxs
@[simp] theorem pdEvent_xfers (p c x y : Nat) (s : State) : (pdEvent p c x y s).xfers = s.xfers := (posted_pdEvent' p c x y s).xfers
@[simp] theorem pdEvent_pool (p c x y : Nat) (s : State) : (pdEvent p c x y s).pool = s.pool := (posted_pdEvent' p c x y s).pool
@[simp] theorem pdEvent_ctrl (p c x y : Nat) (s : State) : (pdEvent p c x y s).ctrl = s.ctrl := (posted_pdEvent' p c x y s).ctrl
@[simp] theorem pdEvent_mail (p c x y : Nat) (s : State) : (pdEvent p c x y s).mail = s.mail := (posted_pdEvent' p c x y s).mail
@[simp] theorem pdEvent_peat (p c x y : Nat) (s : State) : (pdEvent p c x y s).peat = s.peat := (posted_pdEvent' p c x y s).peat
@[simp] theorem pdEvent_stok (p c x y : Nat) (s : State) : (pdEvent p c x y s).stok = s.stok := (posted_pdEvent' p c x y s).stok
@[simp] theorem pdEvent_ledger (p c x y : Nat) (s : State) : (pdEvent p c x y s).ledger = s.ledger := (posted_pdEvent' p c x y s).ledger
@[simp] theorem pdEvent_test (p c x y : Nat) (s : State) : (pdEvent p c x y s).test = s.test := (posted_pdEvent' p c x y s).test
@[simp] theorem pdEvent_flts (p c x y : Nat) (s : State) : (pdEvent p c x y s).flts = s.flts := (posted_pdEvent' p c x y s).flts
@[simp] theorem pdEvent_fltIn (p c x y : Nat) (s : State) : (pdEvent p c x y s).fltIn = s.fltIn := (posted_pdEvent' p c x y s).fltIn
@[simp] theorem pdEvent_cans (p c x y : Nat) (s : State) : (pdEvent p c x y s).cans = s.cans := (posted_pdEvent' p c x y s).cans
@[simp] theorem pdEvent_time (p c x y : Nat) (s : State) : (pdEvent p c x y s).time = s.time := (posted_pdEvent' p c x y s).time
@[simp] theorem pdEvent_feedA (p c x y : Nat) (s : State) : (pdEvent p c x y s).feedA = s.feedA := (posted_pdEvent' p c x y s).feedA
@[simp] theorem pdEvent_feedB (p c x y : Nat) (s : State) : (pdEvent p c x y s).feedB = s.feedB := (posted_pdEvent' p c x y s).feedB
@[simp] theorem pdEvent_board (p c x y : Nat) (s : State) : (pdEvent p c x y s).board = s.board := (posted_pdEvent' p c x y s).board
@[simp] theorem pdEvent_svc (p c x y : Nat) (s : State) : (pdEvent p c x y s).svc = s.svc := (posted_pdEvent' p c x y s).svc
@[simp] theorem pdEvent_fw (p c x y : Nat) (s : State) : (pdEvent p c x y s).fw = s.fw := (posted_pdEvent' p c x y s).fw
@[simp] theorem pdEvent_sec (p c x y : Nat) (s : State) : (pdEvent p c x y s).sec = s.sec := (posted_pdEvent' p c x y s).sec
@[simp] theorem pdEvent_cfg (p c x y : Nat) (s : State) : (pdEvent p c x y s).cfg = s.cfg := (posted_pdEvent' p c x y s).cfg
@[simp] theorem pdEvent_port (p c x y : Nat) (s : State) (k : Nat) : (pdEvent p c x y s).port k = s.port k := by unfold State.port; simp only [pdEvent_ports]
@[simp] theorem pdEvent_busRuns (p c x y : Nat) (s : State) : (pdEvent p c x y s).busRuns = s.busRuns := by unfold State.busRuns; simp only [pdEvent_dev]
@[simp] theorem pdEvent_hasPort (p c x y : Nat) (s : State) (k : Nat) : (pdEvent p c x y s).hasPort k = s.hasPort k := by unfold State.hasPort State.nPorts; simp only [pdEvent_part]
@[simp] theorem pdEvent_opAt (p c x y : Nat) (s : State) (k : Nat) : (pdEvent p c x y s).opAt k = s.opAt k := by unfold State.opAt; simp only [pdEvent_ops]
theorem posted_pathEvent' (p c x y : Nat) (s : State) : Posted s (pathEvent p c x y s) := posted_post (Posted.refl s) _ _
@[simp] theorem pathEvent_part (p c x y : Nat) (s : State) : (pathEvent p c x y s).part = s.part := (posted_pathEvent' p c x y s).part
@[simp] theorem pathEvent_otp (p c x y : Nat) (s : State) : (pathEvent p c x y s).otp = s.otp := (posted_pathEvent' p c x y s).otp
@[simp] theorem pathEvent_dev (p c x y : Nat) (s : State) : (pathEvent p c x y s).dev = s.dev := (posted_pathEvent' p c x y s).dev
@[simp] theorem pathEvent_power (p c x y : Nat) (s : State) : (pathEvent p c x y s).power = s.power := (posted_pathEvent' p c x y s).power
@[simp] theorem pathEvent_warm (p c x y : Nat) (s : State) : (pathEvent p c x y s).warm = s.warm := (posted_pathEvent' p c x y s).warm
@[simp] theorem pathEvent_lich (p c x y : Nat) (s : State) : (pathEvent p c x y s).lich = s.lich := (posted_pathEvent' p c x y s).lich
@[simp] theorem pathEvent_ops (p c x y : Nat) (s : State) : (pathEvent p c x y s).ops = s.ops := (posted_pathEvent' p c x y s).ops
@[simp] theorem pathEvent_ports (p c x y : Nat) (s : State) : (pathEvent p c x y s).ports = s.ports := (posted_pathEvent' p c x y s).ports
@[simp] theorem pathEvent_ctxs (p c x y : Nat) (s : State) : (pathEvent p c x y s).ctxs = s.ctxs := (posted_pathEvent' p c x y s).ctxs
@[simp] theorem pathEvent_xfers (p c x y : Nat) (s : State) : (pathEvent p c x y s).xfers = s.xfers := (posted_pathEvent' p c x y s).xfers
@[simp] theorem pathEvent_pool (p c x y : Nat) (s : State) : (pathEvent p c x y s).pool = s.pool := (posted_pathEvent' p c x y s).pool
@[simp] theorem pathEvent_ctrl (p c x y : Nat) (s : State) : (pathEvent p c x y s).ctrl = s.ctrl := (posted_pathEvent' p c x y s).ctrl
@[simp] theorem pathEvent_mail (p c x y : Nat) (s : State) : (pathEvent p c x y s).mail = s.mail := (posted_pathEvent' p c x y s).mail
@[simp] theorem pathEvent_peat (p c x y : Nat) (s : State) : (pathEvent p c x y s).peat = s.peat := (posted_pathEvent' p c x y s).peat
@[simp] theorem pathEvent_stok (p c x y : Nat) (s : State) : (pathEvent p c x y s).stok = s.stok := (posted_pathEvent' p c x y s).stok
@[simp] theorem pathEvent_ledger (p c x y : Nat) (s : State) : (pathEvent p c x y s).ledger = s.ledger := (posted_pathEvent' p c x y s).ledger
@[simp] theorem pathEvent_test (p c x y : Nat) (s : State) : (pathEvent p c x y s).test = s.test := (posted_pathEvent' p c x y s).test
@[simp] theorem pathEvent_flts (p c x y : Nat) (s : State) : (pathEvent p c x y s).flts = s.flts := (posted_pathEvent' p c x y s).flts
@[simp] theorem pathEvent_fltIn (p c x y : Nat) (s : State) : (pathEvent p c x y s).fltIn = s.fltIn := (posted_pathEvent' p c x y s).fltIn
@[simp] theorem pathEvent_cans (p c x y : Nat) (s : State) : (pathEvent p c x y s).cans = s.cans := (posted_pathEvent' p c x y s).cans
@[simp] theorem pathEvent_time (p c x y : Nat) (s : State) : (pathEvent p c x y s).time = s.time := (posted_pathEvent' p c x y s).time
@[simp] theorem pathEvent_feedA (p c x y : Nat) (s : State) : (pathEvent p c x y s).feedA = s.feedA := (posted_pathEvent' p c x y s).feedA
@[simp] theorem pathEvent_feedB (p c x y : Nat) (s : State) : (pathEvent p c x y s).feedB = s.feedB := (posted_pathEvent' p c x y s).feedB
@[simp] theorem pathEvent_board (p c x y : Nat) (s : State) : (pathEvent p c x y s).board = s.board := (posted_pathEvent' p c x y s).board
@[simp] theorem pathEvent_svc (p c x y : Nat) (s : State) : (pathEvent p c x y s).svc = s.svc := (posted_pathEvent' p c x y s).svc
@[simp] theorem pathEvent_fw (p c x y : Nat) (s : State) : (pathEvent p c x y s).fw = s.fw := (posted_pathEvent' p c x y s).fw
@[simp] theorem pathEvent_sec (p c x y : Nat) (s : State) : (pathEvent p c x y s).sec = s.sec := (posted_pathEvent' p c x y s).sec
@[simp] theorem pathEvent_cfg (p c x y : Nat) (s : State) : (pathEvent p c x y s).cfg = s.cfg := (posted_pathEvent' p c x y s).cfg
@[simp] theorem pathEvent_port (p c x y : Nat) (s : State) (k : Nat) : (pathEvent p c x y s).port k = s.port k := by unfold State.port; simp only [pathEvent_ports]
@[simp] theorem pathEvent_busRuns (p c x y : Nat) (s : State) : (pathEvent p c x y s).busRuns = s.busRuns := by unfold State.busRuns; simp only [pathEvent_dev]
@[simp] theorem pathEvent_hasPort (p c x y : Nat) (s : State) (k : Nat) : (pathEvent p c x y s).hasPort k = s.hasPort k := by unfold State.hasPort State.nPorts; simp only [pathEvent_part]
@[simp] theorem pathEvent_opAt (p c x y : Nat) (s : State) (k : Nat) : (pathEvent p c x y s).opAt k = s.opAt k := by unfold State.opAt; simp only [pathEvent_ops]
theorem posted_feedEvent' (f : HostId) (c a w : Nat) (s : State) : Posted s (feedEvent f c a w s) := posted_post (Posted.refl s) _ _
@[simp] theorem feedEvent_part (f : HostId) (c a w : Nat) (s : State) : (feedEvent f c a w s).part = s.part := (posted_feedEvent' f c a w s).part
@[simp] theorem feedEvent_otp (f : HostId) (c a w : Nat) (s : State) : (feedEvent f c a w s).otp = s.otp := (posted_feedEvent' f c a w s).otp
@[simp] theorem feedEvent_dev (f : HostId) (c a w : Nat) (s : State) : (feedEvent f c a w s).dev = s.dev := (posted_feedEvent' f c a w s).dev
@[simp] theorem feedEvent_power (f : HostId) (c a w : Nat) (s : State) : (feedEvent f c a w s).power = s.power := (posted_feedEvent' f c a w s).power
@[simp] theorem feedEvent_warm (f : HostId) (c a w : Nat) (s : State) : (feedEvent f c a w s).warm = s.warm := (posted_feedEvent' f c a w s).warm
@[simp] theorem feedEvent_lich (f : HostId) (c a w : Nat) (s : State) : (feedEvent f c a w s).lich = s.lich := (posted_feedEvent' f c a w s).lich
@[simp] theorem feedEvent_ops (f : HostId) (c a w : Nat) (s : State) : (feedEvent f c a w s).ops = s.ops := (posted_feedEvent' f c a w s).ops
@[simp] theorem feedEvent_ports (f : HostId) (c a w : Nat) (s : State) : (feedEvent f c a w s).ports = s.ports := (posted_feedEvent' f c a w s).ports
@[simp] theorem feedEvent_ctxs (f : HostId) (c a w : Nat) (s : State) : (feedEvent f c a w s).ctxs = s.ctxs := (posted_feedEvent' f c a w s).ctxs
@[simp] theorem feedEvent_xfers (f : HostId) (c a w : Nat) (s : State) : (feedEvent f c a w s).xfers = s.xfers := (posted_feedEvent' f c a w s).xfers
@[simp] theorem feedEvent_pool (f : HostId) (c a w : Nat) (s : State) : (feedEvent f c a w s).pool = s.pool := (posted_feedEvent' f c a w s).pool
@[simp] theorem feedEvent_ctrl (f : HostId) (c a w : Nat) (s : State) : (feedEvent f c a w s).ctrl = s.ctrl := (posted_feedEvent' f c a w s).ctrl
@[simp] theorem feedEvent_mail (f : HostId) (c a w : Nat) (s : State) : (feedEvent f c a w s).mail = s.mail := (posted_feedEvent' f c a w s).mail
@[simp] theorem feedEvent_peat (f : HostId) (c a w : Nat) (s : State) : (feedEvent f c a w s).peat = s.peat := (posted_feedEvent' f c a w s).peat
@[simp] theorem feedEvent_stok (f : HostId) (c a w : Nat) (s : State) : (feedEvent f c a w s).stok = s.stok := (posted_feedEvent' f c a w s).stok
@[simp] theorem feedEvent_ledger (f : HostId) (c a w : Nat) (s : State) : (feedEvent f c a w s).ledger = s.ledger := (posted_feedEvent' f c a w s).ledger
@[simp] theorem feedEvent_test (f : HostId) (c a w : Nat) (s : State) : (feedEvent f c a w s).test = s.test := (posted_feedEvent' f c a w s).test
@[simp] theorem feedEvent_flts (f : HostId) (c a w : Nat) (s : State) : (feedEvent f c a w s).flts = s.flts := (posted_feedEvent' f c a w s).flts
@[simp] theorem feedEvent_fltIn (f : HostId) (c a w : Nat) (s : State) : (feedEvent f c a w s).fltIn = s.fltIn := (posted_feedEvent' f c a w s).fltIn
@[simp] theorem feedEvent_cans (f : HostId) (c a w : Nat) (s : State) : (feedEvent f c a w s).cans = s.cans := (posted_feedEvent' f c a w s).cans
@[simp] theorem feedEvent_time (f : HostId) (c a w : Nat) (s : State) : (feedEvent f c a w s).time = s.time := (posted_feedEvent' f c a w s).time
@[simp] theorem feedEvent_feedA (f : HostId) (c a w : Nat) (s : State) : (feedEvent f c a w s).feedA = s.feedA := (posted_feedEvent' f c a w s).feedA
@[simp] theorem feedEvent_feedB (f : HostId) (c a w : Nat) (s : State) : (feedEvent f c a w s).feedB = s.feedB := (posted_feedEvent' f c a w s).feedB
@[simp] theorem feedEvent_board (f : HostId) (c a w : Nat) (s : State) : (feedEvent f c a w s).board = s.board := (posted_feedEvent' f c a w s).board
@[simp] theorem feedEvent_svc (f : HostId) (c a w : Nat) (s : State) : (feedEvent f c a w s).svc = s.svc := (posted_feedEvent' f c a w s).svc
@[simp] theorem feedEvent_fw (f : HostId) (c a w : Nat) (s : State) : (feedEvent f c a w s).fw = s.fw := (posted_feedEvent' f c a w s).fw
@[simp] theorem feedEvent_sec (f : HostId) (c a w : Nat) (s : State) : (feedEvent f c a w s).sec = s.sec := (posted_feedEvent' f c a w s).sec
@[simp] theorem feedEvent_cfg (f : HostId) (c a w : Nat) (s : State) : (feedEvent f c a w s).cfg = s.cfg := (posted_feedEvent' f c a w s).cfg
@[simp] theorem feedEvent_port (f : HostId) (c a w : Nat) (s : State) (k : Nat) : (feedEvent f c a w s).port k = s.port k := by unfold State.port; simp only [feedEvent_ports]
@[simp] theorem feedEvent_busRuns (f : HostId) (c a w : Nat) (s : State) : (feedEvent f c a w s).busRuns = s.busRuns := by unfold State.busRuns; simp only [feedEvent_dev]
@[simp] theorem feedEvent_hasPort (f : HostId) (c a w : Nat) (s : State) (k : Nat) : (feedEvent f c a w s).hasPort k = s.hasPort k := by unfold State.hasPort State.nPorts; simp only [feedEvent_part]
@[simp] theorem feedEvent_opAt (f : HostId) (c a w : Nat) (s : State) (k : Nat) : (feedEvent f c a w s).opAt k = s.opAt k := by unfold State.opAt; simp only [feedEvent_ops]
theorem posted_boardEvent' (c a w : Nat) (s : State) : Posted s (boardEvent c a w s) := posted_post (Posted.refl s) _ _
@[simp] theorem boardEvent_part (c a w : Nat) (s : State) : (boardEvent c a w s).part = s.part := (posted_boardEvent' c a w s).part
@[simp] theorem boardEvent_otp (c a w : Nat) (s : State) : (boardEvent c a w s).otp = s.otp := (posted_boardEvent' c a w s).otp
@[simp] theorem boardEvent_dev (c a w : Nat) (s : State) : (boardEvent c a w s).dev = s.dev := (posted_boardEvent' c a w s).dev
@[simp] theorem boardEvent_power (c a w : Nat) (s : State) : (boardEvent c a w s).power = s.power := (posted_boardEvent' c a w s).power
@[simp] theorem boardEvent_warm (c a w : Nat) (s : State) : (boardEvent c a w s).warm = s.warm := (posted_boardEvent' c a w s).warm
@[simp] theorem boardEvent_lich (c a w : Nat) (s : State) : (boardEvent c a w s).lich = s.lich := (posted_boardEvent' c a w s).lich
@[simp] theorem boardEvent_ops (c a w : Nat) (s : State) : (boardEvent c a w s).ops = s.ops := (posted_boardEvent' c a w s).ops
@[simp] theorem boardEvent_ports (c a w : Nat) (s : State) : (boardEvent c a w s).ports = s.ports := (posted_boardEvent' c a w s).ports
@[simp] theorem boardEvent_ctxs (c a w : Nat) (s : State) : (boardEvent c a w s).ctxs = s.ctxs := (posted_boardEvent' c a w s).ctxs
@[simp] theorem boardEvent_xfers (c a w : Nat) (s : State) : (boardEvent c a w s).xfers = s.xfers := (posted_boardEvent' c a w s).xfers
@[simp] theorem boardEvent_pool (c a w : Nat) (s : State) : (boardEvent c a w s).pool = s.pool := (posted_boardEvent' c a w s).pool
@[simp] theorem boardEvent_ctrl (c a w : Nat) (s : State) : (boardEvent c a w s).ctrl = s.ctrl := (posted_boardEvent' c a w s).ctrl
@[simp] theorem boardEvent_mail (c a w : Nat) (s : State) : (boardEvent c a w s).mail = s.mail := (posted_boardEvent' c a w s).mail
@[simp] theorem boardEvent_peat (c a w : Nat) (s : State) : (boardEvent c a w s).peat = s.peat := (posted_boardEvent' c a w s).peat
@[simp] theorem boardEvent_stok (c a w : Nat) (s : State) : (boardEvent c a w s).stok = s.stok := (posted_boardEvent' c a w s).stok
@[simp] theorem boardEvent_ledger (c a w : Nat) (s : State) : (boardEvent c a w s).ledger = s.ledger := (posted_boardEvent' c a w s).ledger
@[simp] theorem boardEvent_test (c a w : Nat) (s : State) : (boardEvent c a w s).test = s.test := (posted_boardEvent' c a w s).test
@[simp] theorem boardEvent_flts (c a w : Nat) (s : State) : (boardEvent c a w s).flts = s.flts := (posted_boardEvent' c a w s).flts
@[simp] theorem boardEvent_fltIn (c a w : Nat) (s : State) : (boardEvent c a w s).fltIn = s.fltIn := (posted_boardEvent' c a w s).fltIn
@[simp] theorem boardEvent_cans (c a w : Nat) (s : State) : (boardEvent c a w s).cans = s.cans := (posted_boardEvent' c a w s).cans
@[simp] theorem boardEvent_time (c a w : Nat) (s : State) : (boardEvent c a w s).time = s.time := (posted_boardEvent' c a w s).time
@[simp] theorem boardEvent_feedA (c a w : Nat) (s : State) : (boardEvent c a w s).feedA = s.feedA := (posted_boardEvent' c a w s).feedA
@[simp] theorem boardEvent_feedB (c a w : Nat) (s : State) : (boardEvent c a w s).feedB = s.feedB := (posted_boardEvent' c a w s).feedB
@[simp] theorem boardEvent_board (c a w : Nat) (s : State) : (boardEvent c a w s).board = s.board := (posted_boardEvent' c a w s).board
@[simp] theorem boardEvent_svc (c a w : Nat) (s : State) : (boardEvent c a w s).svc = s.svc := (posted_boardEvent' c a w s).svc
@[simp] theorem boardEvent_fw (c a w : Nat) (s : State) : (boardEvent c a w s).fw = s.fw := (posted_boardEvent' c a w s).fw
@[simp] theorem boardEvent_sec (c a w : Nat) (s : State) : (boardEvent c a w s).sec = s.sec := (posted_boardEvent' c a w s).sec
@[simp] theorem boardEvent_cfg (c a w : Nat) (s : State) : (boardEvent c a w s).cfg = s.cfg := (posted_boardEvent' c a w s).cfg
@[simp] theorem boardEvent_port (c a w : Nat) (s : State) (k : Nat) : (boardEvent c a w s).port k = s.port k := by unfold State.port; simp only [boardEvent_ports]
@[simp] theorem boardEvent_busRuns (c a w : Nat) (s : State) : (boardEvent c a w s).busRuns = s.busRuns := by unfold State.busRuns; simp only [boardEvent_dev]
@[simp] theorem boardEvent_hasPort (c a w : Nat) (s : State) (k : Nat) : (boardEvent c a w s).hasPort k = s.hasPort k := by unfold State.hasPort State.nPorts; simp only [boardEvent_part]
@[simp] theorem boardEvent_opAt (c a w : Nat) (s : State) (k : Nat) : (boardEvent c a w s).opAt k = s.opAt k := by unfold State.opAt; simp only [boardEvent_ops]
@[simp] theorem hasPort_modPort (p : Nat) (f : Port → Port) (s : State) (k : Nat) : (modPort p f s).hasPort k = s.hasPort k := rfl
@[simp] theorem hasPort_emit (o : Out) (s : State) (k : Nat) : (emit o s).hasPort k = s.hasPort k := rfl
@[simp] theorem busRuns_modPort (p : Nat) (f : Port → Port) (s : State) : (modPort p f s).busRuns = s.busRuns := rfl
@[simp] theorem busRuns_emit (o : Out) (s : State) : (emit o s).busRuns = s.busRuns := rfl
@[simp] theorem port_emit (o : Out) (s : State) (k : Nat) : (emit o s).port k = s.port k := rfl
@[simp] theorem opAt_modPort (p : Nat) (f : Port → Port) (s : State) (k : Nat) : (modPort p f s).opAt k = s.opAt k := rfl
@[simp] theorem opAt_emit (o : Out) (s : State) (k : Nat) : (emit o s).opAt k = s.opAt k := rfl
theorem modPort_congr {p : Nat} {f g : Port → Port} {s : State} (h : f (s.port p) = g (s.port p)) : modPort p f s = modPort p g s := by
  unfold modPort; rw [h]
theorem atP {s : State} {p : Nat} (h : s.hasPort p = true) (f : State → State) : atPort p f s = finish (f s) := if_pos h
theorem atB {s : State} {p : Nat} (h : s.hasPort p = true) (hb : s.busRuns = true) (f : State → State) : atBus p f s = finish (f s) := by
  unfold atBus; rw [h, hb]; rfl
theorem nf {a b : State} (h : a = b) : (Host.Outcome.next (finish a) : Res) = .next (finish b) := by rw [h]
theorem execP {s : State} {p : Nat} (hp : s.hasPort p = true) {f : State → State} {b : State} (h : f s = b) :
    (Host.Outcome.next (atPort p f s) : Res) = .next (finish b) := by rw [atP hp, h]
theorem execB {s : State} {p : Nat} (hp : s.hasPort p = true) (hb : s.busRuns = true) {f : State → State} {b : State} (h : f s = b) :
    (Host.Outcome.next (atBus p f s) : Res) = .next (finish b) := by rw [atB hp hb, h]

end Sys2Proof.Machine
end

