-- ==== Sys2Proof/Laws/Answers.lean ====
section
/-!
SUPPORT. How a host command that passes acceptance answers: at once (`completes`), later (`starts`), or in whatever way its
meaning answers (`answers`), and what its answer may leave beside its effect.
-/
set_option linter.all false
namespace Sys2Proof.Machine

theorem beside_of_posted {k s : State} (hk : Posted k s) : Safety.Beside s k := by
  refine ⟨?_, ?_, ?_, ?_, ?_⟩
  · unfold Safety.rest
    rw [hk.pending, hk.part, hk.otp, hk.dev, hk.power, hk.warm, hk.lich, hk.arrivals, hk.sems, hk.ports, hk.ctxs, hk.xfers,
      hk.pool, hk.ctrl, hk.mail, hk.mbx, hk.peat, hk.stok, hk.ledger, hk.test, hk.testQ, hk.cal, hk.flts, hk.fltLast, hk.fltIn, hk.cans,
      hk.time, hk.feedA, hk.feedB, hk.board, hk.svc, hk.fw, hk.sec, hk.cfg, hk.cfgCopy, hk.cfgBad, hk.cfgHeld, hk.regHeld]
  · intro h
    exact congrArg (fun r : HostRec => ({ r with cseq := 0, done := [], forced := 0 } : HostRec)) (hk.hosts h)
  · exact hk.trunks
  · exact hk.insts
  · exact hk.net
theorem Beside.trans {a b c : State} (h : Safety.Beside a b) (g : Safety.Beside b c) : Safety.Beside a c :=
  ⟨h.1.trans g.1, fun x => (h.2.1 x).trans (g.2.1 x), fun x => (h.2.2.1 x).trans (g.2.2.1 x),
   fun x => (h.2.2.2.1 x).trans (g.2.2.2.1 x), h.2.2.2.2.trans g.2.2.2.2⟩
theorem beside_modHost (g : HostId) (f : HostRec → HostRec) (s : State) (hf : Safety.hostRest (f (s.host g)) = Safety.hostRest (s.host g)) :
    Safety.Beside (modHost g f s) s := by
  cases g
  · exact ⟨rfl, fun h => by cases h; exact hf; rfl, fun _ => rfl, fun i => by cases i <;> rfl, rfl⟩
  · exact ⟨rfl, fun h => by cases h; rfl; exact hf, fun _ => rfl, fun i => by cases i <;> rfl, rfl⟩
theorem beside_dropOp (g : HostId) (tag : Half) (s : State) : Safety.Beside (dropOp g tag s) s :=
  ⟨rfl, fun h => by cases h <;> rfl, fun _ => rfl, fun i => by cases i <;> rfl, rfl⟩
theorem beside_countForced (x : Op) (s : State) : Safety.Beside (countForced x s) s := by
  unfold countForced
  split
  · exact beside_modHost _ _ _ rfl
  · exact ⟨rfl, fun _ => rfl, fun _ => rfl, fun _ => rfl, rfl⟩
theorem beside_ended (o x : Op) (st : Nat) (r : List Byte) (s : State) : Safety.Beside (ended o x st r s) s :=
  Beside.trans (beside_modHost _ _ _ rfl) (Beside.trans (beside_countForced _ _) (beside_dropOp _ _ _))
theorem beside_final {o x : Op} {s : State} (hx : s.opOf o.host o.tag = some x) (st : Nat) (r : List Byte) :
    Safety.Beside (answer o (.final st r) s) s :=
  Beside.trans (beside_of_posted (answer_final hx st r)) (beside_ended o x st r s)
theorem accepted_inDoze {op : Nat} {c : CmdSpec} {h : HostId} {p : Packet} {s : State} (ha : Safety.Accepted op c h p s) :
    Safety.Accepted op (inDoze op c) h p s := by
  unfold Safety.Accepted at *
  have : s.acceptStatus op (some (inDoze op c)) h p = s.acceptStatus op (some c) h p := by
    unfold inDoze; split <;> rfl
  rw [this]; exact ha
theorem run_inDoze {op : Nat} {c : CmdSpec} {s : State} (hz : s.dev.power ≠ .doze ∨ dozeLocked.contains op = false) (x : Cmd) :
    (inDoze op c).run x s = c.run x s := by
  unfold inDoze
  split
  · rename_i h; rcases hz with hz | hz
    · simp [hz]
    · rw [h] at hz; cases hz
  · rfl
theorem begun_opOf {op : Nat} {c : CmdSpec} {h : HostId} {p : Packet} {s : State} (ha : Safety.Accepted op c h p s) :
    (Safety.begun op h p s).opOf h p.tag =
      some { newOp op h p s with started := true, counts := p.flags.getLsbD 3 && s.sem0 h } :=
  opOf_append (accepted_fresh ha.2.2.2.2.2.2.2.1).1 rfl rfl
theorem completes {op : Nat} {i : Instr} {c : CmdSpec} {h : HostId} {p : Packet} {s s1 : State} {st : Nat} {r : List Byte}
    (hop : op < 65536) (hi : exec i s = .next (command op c p s)) (hz : s.dev.power ≠ .doze ∨ dozeLocked.contains op = false)
    (ha : Safety.Accepted op c h p s)
    (hr : c.run (Safety.cmdOf op h p) (Safety.begun op h p s) = (s1, .final st r))
    (ho : s1.opOf h p.tag ≠ none) (hc : (s1.host h).cseq = (s.host h).cseq) :
    Safety.Completes i op h p st r s s1 := by
  obtain ⟨x, hx⟩ := Option.ne_none_iff_exists'.1 ho
  refine ⟨answer (newOp op h p s) (.final st r) s1, ?_, completed_final hx hc st r, beside_final (o := newOp op h p s) hx st r⟩
  rw [hi]; unfold command
  rw [serve_accepted hop (accepted_inDoze ha), run_inDoze (s := Safety.begun op h p s) hz, hr]
theorem completes0 {op : Nat} {i : Instr} {c : CmdSpec} {h : HostId} {p : Packet} {s s1 : State} {st : Nat} {r : List Byte}
    (hop : op < 65536) (hi : exec i s = .next (command op c p s)) (hz : s.dev.power ≠ .doze ∨ dozeLocked.contains op = false)
    (ha : Safety.Accepted op c h p s)
    (hr : c.run (Safety.cmdOf op h p) (Safety.begun op h p s) = (s1, .final st r))
    (ho : s1.ops = (Safety.begun op h p s).ops) (hc : (s1.host h).cseq = ((Safety.begun op h p s).host h).cseq) :
    Safety.Completes i op h p st r s s1 := by
  refine completes hop hi hz ha hr ?_ ?_
  · have := begun_opOf ha; unfold State.opOf at *; rw [ho, this]; simp
  · rw [hc]; cases h <;> rfl
theorem find_map_key {l : List Op} {h : HostId} {tag : Half} {o : Op} {f : Op → Op}
    (hh : ∀ x, (f x).host = x.host) (ht : ∀ x, (f x).tag = x.tag) (hf : l.find? (fun o => o.host == h && o.tag == tag) = some o) :
    (l.map f).find? (fun o => o.host == h && o.tag == tag) = some (f o) := by
  induction l with
  | nil => simp at hf
  | cons a r ih =>
    rw [List.map_cons, List.find?_cons]
    rw [List.find?_cons] at hf
    simp only [hh, ht]
    cases hq : (a.host == h && a.tag == tag) with
    | true => rw [hq] at hf; simp at hf; subst hf; rfl
    | false => rw [hq] at hf; exact ih hf
theorem posted_running {o : Op} {s : State} (st unit : Nat) (args : List Nat) :
    Posted { s with ops := s.ops.map fun x => if x.host == o.host && x.tag == o.tag then { x with unit := unit, args := args } else x }
      (answer o (.running st unit args) s) := by
  unfold answer; dsimp only
  split
  · exact Posted.refl _
  · exact posted_reply (Posted.refl _) _ _ _ _ _ _ _ _ _
theorem starts {op : Nat} {i : Instr} {c : CmdSpec} {h : HostId} {p : Packet} {s s1 : State} {st unit : Nat} {args : List Nat}
    (hop : op < 65536) (hi : exec i s = .next (command op c p s)) (hz : s.dev.power ≠ .doze ∨ dozeLocked.contains op = false)
    (ha : Safety.Accepted op c h p s)
    (hr : c.run (Safety.cmdOf op h p) (Safety.begun op h p s) = (s1, .running st unit args))
    (ho : s1.ops = (Safety.begun op h p s).ops) :
    Safety.Starts i h p unit args s s1 := by
  have hp := posted_running (o := newOp op h p s) (s := s1) st unit args
  refine ⟨answer (newOp op h p s) (.running st unit args) s1, ?_, ?_, ?_⟩
  · rw [hi]; unfold command
    rw [serve_accepted hop (accepted_inDoze ha), run_inDoze (s := Safety.begun op h p s) hz, hr]
  · have hb := begun_opOf ha
    unfold State.opOf at hb
    have key : (answer (newOp op h p s) (.running st unit args) s1).opOf h p.tag =
        some { newOp op h p s with started := true, counts := p.flags.getLsbD 3 && s.sem0 h, unit := unit, args := args } := by
      unfold State.opOf
      rw [hp.ops]
      show (s1.ops.map _).find? _ = _
      rw [ho]
      refine (find_map_key ?_ ?_ hb).trans ?_
      · intro x; split <;> rfl
      · intro x; split <;> rfl
      · simp [newOp]
    exact ⟨_, key, rfl, rfl, rfl⟩
  · refine Beside.trans (beside_of_posted hp) ⟨?_, ?_, ?_, ?_, ?_⟩
    · rfl
    · intro h; cases h <;> rfl
    · intro n; rfl
    · intro n; cases n <;> rfl
    · rfl

end Sys2Proof.Machine
end

