-- ==== Sys2Proof/Laws/Clock.lean ====
section
/-!
SUPPORT. What a whole second of TIME leaves as it was (R333, R369, R448, R449): `Timed k s` says that `s` has the power die's count, the
mailbox RAM, the ports, the queues, the semaphores and the CONFIG registers of `k`.
-/
namespace Sys2Proof.Machine

/-- From `k` to `s` at most TIME, its copy, the trunks' frames and the wire have changed. -/
def Timed (k s : State) : Prop :=
  s.dev = k.dev ∧ s.mail = k.mail ∧ s.ports = k.ports ∧ s.queues = k.queues ∧ s.sems = k.sems ∧ s.cfg = k.cfg

theorem timed_refl (s : State) : Timed s s := ⟨rfl, rfl, rfl, rfl, rfl, rfl⟩

theorem timed_foldS {α : Type} {k : State} {f : α → State → State} (hf : ∀ a t, Timed k t → Timed k (f a t)) :
    ∀ (l : List α) {s : State}, Timed k s → Timed k (foldS l f s)
  | [], _, h => h
  | a :: l, s, h => timed_foldS hf l (hf a s h)

theorem timed_modTrunk {k s : State} (h : Timed k s) (n : Nat) (f : Trunk → Trunk) : Timed k (modTrunk n f s) := h
theorem timed_emit {k s : State} (h : Timed k s) (o : Out) : Timed k (emit o s) := h
theorem timed_modTime {k s : State} (h : Timed k s) (f : Time → Time) : Timed k (modTime f s) := h
theorem timed_modLich {k s : State} (h : Timed k s) (f : Lichen → Lichen) : Timed k (modLich f s) := h

theorem timed_startEgress {k s : State} (h : Timed k s) (n : Nat) : Timed k (startEgress n s) := by
  unfold startEgress; split <;> exact h

theorem timed_sendPlain {k s : State} (h : Timed k s) (n : Nat) (b : List Byte) : Timed k (sendPlain n b s) :=
  timed_startEgress (timed_modTrunk h _ _) _

theorem timed_ppsFall {k s : State} (h : Timed k s) : Timed k (ppsFall s) := by
  unfold ppsFall
  dsimp only
  repeat' split
  all_goals exact h
theorem timed_ppsOut {k s : State} (h : Timed k s) (a : Nat) : Timed k (ppsOut a s) := by
  unfold ppsOut
  dsimp only
  repeat' split
  all_goals exact h

theorem timed_timeFrames {k s : State} (h : Timed k s) (n : Nat) : Timed k (timeFrames n s) := by
  unfold timeFrames
  split
  · refine timed_foldS (fun a t ht => ?_) _ h
    split
    · exact timed_sendPlain ht _ _
    · exact ht
  · exact h

theorem timed_sbuFrames {k s : State} (h : Timed k s) (n : Nat) : Timed k (sbuFrames n s) := by
  unfold sbuFrames
  refine timed_foldS (fun a t ht => ?_) _ h
  split <;> exact ht

theorem timed_crossSecond {k s : State} (h : Timed k s) (n : Nat) : Timed k (crossSecond n s) := by
  unfold crossSecond
  exact timed_modLich (timed_sbuFrames (timed_timeFrames (timed_ppsOut (timed_modTime h _) _) _) _) _

theorem timed_followSecond {k s : State} (h : Timed k s) : Timed k (followSecond s) := by
  unfold followSecond
  split
  · exact timed_ppsFall h
  · exact timed_ppsFall (timed_foldS (fun a t ht => timed_crossSecond ht _) _ h)

end Sys2Proof.Machine
end

