-- ==== Sys2Proof/Laws/Outstanding.lean ====
section
/-!
SUPPORT. `Ck k s`: from `k` to `s` the outstanding commands and the completion sequences of the hosts are the same; `Cw`, the
weaker form: no command is dropped and no sequence advances. One lemma per operation a host command's effect uses.
-/
set_option linter.all false
namespace Sys2Proof.Machine

/-- Outstanding commands and completion sequences are as they were. -/
def Ck (k s : State) : Prop := s.ops = k.ops ∧ s.hostA.cseq = k.hostA.cseq ∧ s.hostB.cseq = k.hostB.cseq
theorem Ck.host {k s : State} (h : Ck k s) (g : HostId) : (s.host g).cseq = (k.host g).cseq := by
  cases g
  · exact h.2.1
  · exact h.2.2
theorem ck_of {k s t : State} (h : Ck k s) (ho : t.ops = s.ops) (ha : t.hostA.cseq = s.hostA.cseq) (hb : t.hostB.cseq = s.hostB.cseq) : Ck k t :=
  ⟨ho.trans h.1, ha.trans h.2.1, hb.trans h.2.2⟩
theorem ck_posted {k s t : State} (hk : Ck k s) (hp : Posted s t) : Ck k t :=
  ck_of hk hp.ops (hp.cseq .a) (hp.cseq .b)
theorem ck_foldS {α : Type} {k : State} {f : α → State → State} (hf : ∀ a t, Ck k t → Ck k (f a t)) :
    ∀ (l : List α) {s : State}, Ck k s → Ck k (foldS l f s)
  | [], _, h => h
  | a :: l, s, h => ck_foldS hf l (hf a s h)
theorem ck_foldL {α : Type} {k : State} {f : State → α → State} (hf : ∀ t a, Ck k t → Ck k (f t a)) :
    ∀ (l : List α) {s : State}, Ck k s → Ck k (l.foldl f s)
  | [], _, h => h
  | a :: l, s, h => ck_foldL hf l (hf s a h)
theorem ck_foldP {α β : Type} {k : State} {f : State × β → α → State × β}
    (hf : ∀ p a, Ck k p.1 → Ck k (f p a).1) :
    ∀ (l : List α) {p : State × β}, Ck k p.1 → Ck k (l.foldl f p).1
  | [], _, h => h
  | a :: l, p, h => ck_foldP hf l (hf p a h)
theorem ck_modHost {k s : State} (hk : Ck k s) (h : HostId) (f : HostRec → HostRec) (hf : ∀ r, (f r).cseq = r.cseq) : Ck k (modHost h f s) := by
  cases h
  · exact ck_of hk rfl (hf _) rfl
  · exact ck_of hk rfl rfl (hf _)
theorem ck_post {k s : State} (hk : Ck k s) (src : Nat) (p : List Byte) : Ck k (post src p s) := ck_posted hk (posted_post (Posted.refl _) src p)
theorem ck_postTo {k s : State} (hk : Ck k s) (src : Nat) (h : HostId) (p : List Byte) : Ck k (postTo src h p s) := ck_posted hk (posted_postTo (Posted.refl _) src h p)
theorem ck_postQueue {k s : State} (hk : Ck k s) (src : Nat) (p) : Ck k (postQueue src p s) := ck_posted hk (posted_postQueue (Posted.refl _) src p)
theorem ck_putQueue {k s : State} (hk : Ck k s) (q : Nat) (n : Queue) (g : Option Nat) : Ck k (putQueue q n g s) := ck_posted hk (posted_putQueue (Posted.refl _) q n g)
theorem ck_pump {k s : State} (hk : Ck k s) (q : Nat) : Ck k (pump q s) := ck_posted hk (posted_pump (Posted.refl _) q)
theorem ck_setQueue {k s : State} (hk : Ck k s) (q : Nat) (r : Queue) : Ck k (setQueue q r s) := ck_posted hk (posted_setQueue (Posted.refl _) q r)
theorem ck_replayCheck {k s : State} (hk : Ck k s) (q : Nat) : Ck k (replayCheck q s) := ck_posted hk (posted_replayCheck (Posted.refl _) q)
theorem ck_pushItem {k s : State} (hk : Ck k s) (q : Nat) (i : Item) : Ck k (pushItem q i s) := ck_posted hk (posted_pushItem (Posted.refl _) q i)
theorem ck_sendCredit {k s : State} (hk : Ck k s) (q : Nat) : Ck k (sendCredit q s) := ck_posted hk (posted_sendCredit (Posted.refl _) q)
theorem ck_sendEvCredit {k s : State} (hk : Ck k s) (h : HostId) (d : Half) : Ck k (sendEvCredit h d s) := ck_posted hk (posted_sendEvCredit (Posted.refl _) h d)
theorem ck_enqueueEgress {k s : State} (hk : Ck k s) (n : Nat) (e : Egress) : Ck k (enqueueEgress n e s) := ck_posted hk (posted_enqueueEgress (Posted.refl _) n e)
theorem ck_startEgress {k s : State} (hk : Ck k s) (n : Nat) : Ck k (startEgress n s) := ck_posted hk (posted_startEgress (Posted.refl _) n)
theorem ck_storeEvent {k s : State} (hk : Ck k s) (h : HostId) (i : Item) : Ck k (storeEvent h i s) := ck_posted hk (posted_storeEvent (Posted.refl _) h i)
theorem ck_ite {k a b : State} {c : Prop} [Decidable c] (ha : Ck k a) (hb : Ck k b) : Ck k (if c then a else b) := by split <;> assumption
theorem ck_modTrunk {k s : State} (hk : Ck k s) (n : Nat) (f : Trunk → Trunk) : Ck k (modTrunk n f s) := by
  unfold modTrunk

  repeat' first
    | assumption
    | with_reducible apply ck_storeEvent | with_reducible apply ck_enqueueEgress | with_reducible apply ck_sendEvCredit | with_reducible apply ck_sendCredit | with_reducible apply ck_pushItem | with_reducible apply ck_replayCheck | with_reducible apply ck_setQueue | with_reducible apply ck_pump | with_reducible apply ck_putQueue | with_reducible apply ck_postQueue | with_reducible apply ck_postTo | with_reducible apply ck_post
    | (apply ck_modHost _ _ _ (fun _ => rfl))
    | (with_reducible apply ck_foldS; intro _ _ _)
    | (with_reducible apply ck_foldL; intro _ _ _)
    | (with_reducible apply ck_foldP; intro _ _ _)
    | intro _
    | with_reducible apply ck_ite
    | split
    | (refine ck_of (by assumption) ?_ ?_ ?_ <;> rfl)
theorem ck_modNet {k s : State} (hk : Ck k s) (f : Net → Net) : Ck k (modNet f s) := by
  unfold modNet

  repeat' first
    | assumption
    | with_reducible apply ck_modTrunk | with_reducible apply ck_storeEvent | with_reducible apply ck_enqueueEgress | with_reducible apply ck_sendEvCredit | with_reducible apply ck_sendCredit | with_reducible apply ck_pushItem | with_reducible apply ck_replayCheck | with_reducible apply ck_setQueue | with_reducible apply ck_pump | with_reducible apply ck_putQueue | with_reducible apply ck_postQueue | with_reducible apply ck_postTo | with_reducible apply ck_post
    | (apply ck_modHost _ _ _ (fun _ => rfl))
    | (with_reducible apply ck_foldS; intro _ _ _)
    | (with_reducible apply ck_foldL; intro _ _ _)
    | (with_reducible apply ck_foldP; intro _ _ _)
    | intro _
    | with_reducible apply ck_ite
    | split
    | (refine ck_of (by assumption) ?_ ?_ ?_ <;> rfl)
theorem ck_modStok {k s : State} (hk : Ck k s) (f : Stoker → Stoker) : Ck k (modStok f s) := by
  unfold modStok

  repeat' first
    | assumption
    | with_reducible apply ck_modNet | with_reducible apply ck_modTrunk | with_reducible apply ck_storeEvent | with_reducible apply ck_enqueueEgress | with_reducible apply ck_sendEvCredit | with_reducible apply ck_sendCredit | with_reducible apply ck_pushItem | with_reducible apply ck_replayCheck | with_reducible apply ck_setQueue | with_reducible apply ck_pump | with_reducible apply ck_putQueue | with_reducible apply ck_postQueue | with_reducible apply ck_postTo | with_reducible apply ck_post
    | (apply ck_modHost _ _ _ (fun _ => rfl))
    | (with_reducible apply ck_foldS; intro _ _ _)
    | (with_reducible apply ck_foldL; intro _ _ _)
    | (with_reducible apply ck_foldP; intro _ _ _)
    | intro _
    | with_reducible apply ck_ite
    | split
    | (refine ck_of (by assumption) ?_ ?_ ?_ <;> rfl)
theorem ck_setSqc {k s : State} (hk : Ck k s) (a : Nat) (b : List Nat) : Ck k (setSqc a b s) := by
  unfold setSqc

  repeat' first
    | assumption
    | with_reducible apply ck_modStok | with_reducible apply ck_modNet | with_reducible apply ck_modTrunk | with_reducible apply ck_storeEvent | with_reducible apply ck_enqueueEgress | with_reducible apply ck_sendEvCredit | with_reducible apply ck_sendCredit | with_reducible apply ck_pushItem | with_reducible apply ck_replayCheck | with_reducible apply ck_setQueue | with_reducible apply ck_pump | with_reducible apply ck_putQueue | with_reducible apply ck_postQueue | with_reducible apply ck_postTo | with_reducible apply ck_post
    | (apply ck_modHost _ _ _ (fun _ => rfl))
    | (with_reducible apply ck_foldS; intro _ _ _)
    | (with_reducible apply ck_foldL; intro _ _ _)
    | (with_reducible apply ck_foldP; intro _ _ _)
    | intro _
    | with_reducible apply ck_ite
    | split
    | (refine ck_of (by assumption) ?_ ?_ ?_ <;> rfl)
theorem ck_raise {k s : State} (hk : Ck k s) (a b : Nat) : Ck k (raise a b s) := by
  unfold raise

  repeat' first
    | assumption
    | with_reducible apply ck_setSqc | with_reducible apply ck_modStok | with_reducible apply ck_modNet | with_reducible apply ck_modTrunk | with_reducible apply ck_storeEvent | with_reducible apply ck_enqueueEgress | with_reducible apply ck_sendEvCredit | with_reducible apply ck_sendCredit | with_reducible apply ck_pushItem | with_reducible apply ck_replayCheck | with_reducible apply ck_setQueue | with_reducible apply ck_pump | with_reducible apply ck_putQueue | with_reducible apply ck_postQueue | with_reducible apply ck_postTo | with_reducible apply ck_post
    | (apply ck_modHost _ _ _ (fun _ => rfl))
    | (with_reducible apply ck_foldS; intro _ _ _)
    | (with_reducible apply ck_foldL; intro _ _ _)
    | (with_reducible apply ck_foldP; intro _ _ _)
    | intro _
    | with_reducible apply ck_ite
    | split
    | (refine ck_of (by assumption) ?_ ?_ ?_ <;> rfl)
theorem ck_sendPlain {k s : State} (hk : Ck k s) (n : Nat) (b : List Byte) : Ck k (sendPlain n b s) := by
  unfold sendPlain

  repeat' first
    | assumption
    | with_reducible apply ck_raise | with_reducible apply ck_setSqc | with_reducible apply ck_modStok | with_reducible apply ck_modNet | with_reducible apply ck_modTrunk | with_reducible apply ck_storeEvent | with_reducible apply ck_enqueueEgress | with_reducible apply ck_sendEvCredit | with_reducible apply ck_sendCredit | with_reducible apply ck_pushItem | with_reducible apply ck_replayCheck | with_reducible apply ck_setQueue | with_reducible apply ck_pump | with_reducible apply ck_putQueue | with_reducible apply ck_postQueue | with_reducible apply ck_postTo | with_reducible apply ck_post
    | (apply ck_modHost _ _ _ (fun _ => rfl))
    | (with_reducible apply ck_foldS; intro _ _ _)
    | (with_reducible apply ck_foldL; intro _ _ _)
    | (with_reducible apply ck_foldP; intro _ _ _)
    | intro _
    | with_reducible apply ck_ite
    | split
    | (refine ck_of (by assumption) ?_ ?_ ?_ <;> rfl)
theorem ck_sendKa {k s : State} (hk : Ck k s) (n : Nat) : Ck k (sendKa n s) := by
  unfold sendKa

  repeat' first
    | assumption
    | with_reducible apply ck_sendPlain | with_reducible apply ck_raise | with_reducible apply ck_setSqc | with_reducible apply ck_modStok | with_reducible apply ck_modNet | with_reducible apply ck_modTrunk | with_reducible apply ck_storeEvent | with_reducible apply ck_enqueueEgress | with_reducible apply ck_sendEvCredit | with_reducible apply ck_sendCredit | with_reducible apply ck_pushItem | with_reducible apply ck_replayCheck | with_reducible apply ck_setQueue | with_reducible apply ck_pump | with_reducible apply ck_putQueue | with_reducible apply ck_postQueue | with_reducible apply ck_postTo | with_reducible apply ck_post
    | (apply ck_modHost _ _ _ (fun _ => rfl))
    | (with_reducible apply ck_foldS; intro _ _ _)
    | (with_reducible apply ck_foldL; intro _ _ _)
    | (with_reducible apply ck_foldP; intro _ _ _)
    | intro _
    | with_reducible apply ck_ite
    | split
    | (refine ck_of (by assumption) ?_ ?_ ?_ <;> rfl)
theorem ck_floodRec {k s : State} (hk : Ck k s) (e : Option Nat) (m : Nat) (r : Topo) : Ck k (floodRec e m r s) := by
  unfold floodRec

  repeat' first
    | assumption
    | with_reducible apply ck_sendKa | with_reducible apply ck_sendPlain | with_reducible apply ck_raise | with_reducible apply ck_setSqc | with_reducible apply ck_modStok | with_reducible apply ck_modNet | with_reducible apply ck_modTrunk | with_reducible apply ck_storeEvent | with_reducible apply ck_enqueueEgress | with_reducible apply ck_sendEvCredit | with_reducible apply ck_sendCredit | with_reducible apply ck_pushItem | with_reducible apply ck_replayCheck | with_reducible apply ck_setQueue | with_reducible apply ck_pump | with_reducible apply ck_putQueue | with_reducible apply ck_postQueue | with_reducible apply ck_postTo | with_reducible apply ck_post
    | (apply ck_modHost _ _ _ (fun _ => rfl))
    | (with_reducible apply ck_foldS; intro _ _ _)
    | (with_reducible apply ck_foldL; intro _ _ _)
    | (with_reducible apply ck_foldP; intro _ _ _)
    | intro _
    | with_reducible apply ck_ite
    | split
    | (refine ck_of (by assumption) ?_ ?_ ?_ <;> rfl)
theorem ck_flood {k s : State} (hk : Ck k s)  : Ck k (flood s) := by
  unfold flood

  repeat' first
    | assumption
    | with_reducible apply ck_floodRec | with_reducible apply ck_sendKa | with_reducible apply ck_sendPlain | with_reducible apply ck_raise | with_reducible apply ck_setSqc | with_reducible apply ck_modStok | with_reducible apply ck_modNet | with_reducible apply ck_modTrunk | with_reducible apply ck_storeEvent | with_reducible apply ck_enqueueEgress | with_reducible apply ck_sendEvCredit | with_reducible apply ck_sendCredit | with_reducible apply ck_pushItem | with_reducible apply ck_replayCheck | with_reducible apply ck_setQueue | with_reducible apply ck_pump | with_reducible apply ck_putQueue | with_reducible apply ck_postQueue | with_reducible apply ck_postTo | with_reducible apply ck_post
    | (apply ck_modHost _ _ _ (fun _ => rfl))
    | (with_reducible apply ck_foldS; intro _ _ _)
    | (with_reducible apply ck_foldL; intro _ _ _)
    | (with_reducible apply ck_foldP; intro _ _ _)
    | intro _
    | with_reducible apply ck_ite
    | split
    | (refine ck_of (by assumption) ?_ ?_ ?_ <;> rfl)
theorem ck_linkEvent {k s : State} (hk : Ck k s) (n c a : Nat) : Ck k (linkEvent n c a s) := by
  unfold linkEvent

  repeat' first
    | assumption
    | with_reducible apply ck_flood | with_reducible apply ck_floodRec | with_reducible apply ck_sendKa | with_reducible apply ck_sendPlain | with_reducible apply ck_raise | with_reducible apply ck_setSqc | with_reducible apply ck_modStok | with_reducible apply ck_modNet | with_reducible apply ck_modTrunk | with_reducible apply ck_storeEvent | with_reducible apply ck_enqueueEgress | with_reducible apply ck_sendEvCredit | with_reducible apply ck_sendCredit | with_reducible apply ck_pushItem | with_reducible apply ck_replayCheck | with_reducible apply ck_setQueue | with_reducible apply ck_pump | with_reducible apply ck_putQueue | with_reducible apply ck_postQueue | with_reducible apply ck_postTo | with_reducible apply ck_post
    | (apply ck_modHost _ _ _ (fun _ => rfl))
    | (with_reducible apply ck_foldS; intro _ _ _)
    | (with_reducible apply ck_foldL; intro _ _ _)
    | (with_reducible apply ck_foldP; intro _ _ _)
    | intro _
    | with_reducible apply ck_ite
    | split
    | (refine ck_of (by assumption) ?_ ?_ ?_ <;> rfl)
theorem ck_setNb {k s : State} (hk : Ck k s) (n : Nat) (b : Nb) : Ck k (setNb n b s) := by
  unfold setNb

  repeat' first
    | assumption
    | with_reducible apply ck_linkEvent | with_reducible apply ck_flood | with_reducible apply ck_floodRec | with_reducible apply ck_sendKa | with_reducible apply ck_sendPlain | with_reducible apply ck_raise | with_reducible apply ck_setSqc | with_reducible apply ck_modStok | with_reducible apply ck_modNet | with_reducible apply ck_modTrunk | with_reducible apply ck_storeEvent | with_reducible apply ck_enqueueEgress | with_reducible apply ck_sendEvCredit | with_reducible apply ck_sendCredit | with_reducible apply ck_pushItem | with_reducible apply ck_replayCheck | with_reducible apply ck_setQueue | with_reducible apply ck_pump | with_reducible apply ck_putQueue | with_reducible apply ck_postQueue | with_reducible apply ck_postTo | with_reducible apply ck_post
    | (apply ck_modHost _ _ _ (fun _ => rfl))
    | (with_reducible apply ck_foldS; intro _ _ _)
    | (with_reducible apply ck_foldL; intro _ _ _)
    | (with_reducible apply ck_foldP; intro _ _ _)
    | intro _
    | with_reducible apply ck_ite
    | split
    | (refine ck_of (by assumption) ?_ ?_ ?_ <;> rfl)
theorem ck_unblock {k s : State} (hk : Ck k s) (n : Nat) : Ck k (unblock n s) := by
  unfold unblock

  repeat' first
    | assumption
    | with_reducible apply ck_startEgress | with_reducible apply ck_setNb | with_reducible apply ck_linkEvent | with_reducible apply ck_flood | with_reducible apply ck_floodRec | with_reducible apply ck_sendKa | with_reducible apply ck_sendPlain | with_reducible apply ck_raise | with_reducible apply ck_setSqc | with_reducible apply ck_modStok | with_reducible apply ck_modNet | with_reducible apply ck_modTrunk | with_reducible apply ck_storeEvent | with_reducible apply ck_enqueueEgress | with_reducible apply ck_sendEvCredit | with_reducible apply ck_sendCredit | with_reducible apply ck_pushItem | with_reducible apply ck_replayCheck | with_reducible apply ck_setQueue | with_reducible apply ck_pump | with_reducible apply ck_putQueue | with_reducible apply ck_postQueue | with_reducible apply ck_postTo | with_reducible apply ck_post
    | (apply ck_modHost _ _ _ (fun _ => rfl))
    | (with_reducible apply ck_foldS; intro _ _ _)
    | (with_reducible apply ck_foldL; intro _ _ _)
    | (with_reducible apply ck_foldP; intro _ _ _)
    | intro _
    | with_reducible apply ck_ite
    | split
    | (refine ck_of (by assumption) ?_ ?_ ?_ <;> rfl)
theorem ck_followPeer {k s : State} (hk : Ck k s) (n : Nat) : Ck k (followPeer n s) := by
  unfold followPeer

  repeat' first
    | assumption
    | with_reducible apply ck_unblock | with_reducible apply ck_setNb | with_reducible apply ck_linkEvent | with_reducible apply ck_flood | with_reducible apply ck_floodRec | with_reducible apply ck_sendKa | with_reducible apply ck_sendPlain | with_reducible apply ck_raise | with_reducible apply ck_setSqc | with_reducible apply ck_modStok | with_reducible apply ck_modNet | with_reducible apply ck_modTrunk | with_reducible apply ck_storeEvent | with_reducible apply ck_enqueueEgress | with_reducible apply ck_sendEvCredit | with_reducible apply ck_sendCredit | with_reducible apply ck_pushItem | with_reducible apply ck_replayCheck | with_reducible apply ck_setQueue | with_reducible apply ck_pump | with_reducible apply ck_putQueue | with_reducible apply ck_postQueue | with_reducible apply ck_postTo | with_reducible apply ck_post
    | (apply ck_modHost _ _ _ (fun _ => rfl))
    | (with_reducible apply ck_foldS; intro _ _ _)
    | (with_reducible apply ck_foldL; intro _ _ _)
    | (with_reducible apply ck_foldP; intro _ _ _)
    | intro _
    | with_reducible apply ck_ite
    | split
    | (refine ck_of (by assumption) ?_ ?_ ?_ <;> rfl)
theorem ck_checkFlags {k s : State} (hk : Ck k s) (n : Nat) : Ck k (checkFlags n s) := by
  unfold checkFlags

  repeat' first
    | assumption
    | with_reducible apply ck_followPeer | with_reducible apply ck_unblock | with_reducible apply ck_setNb | with_reducible apply ck_linkEvent | with_reducible apply ck_flood | with_reducible apply ck_floodRec | with_reducible apply ck_sendKa | with_reducible apply ck_sendPlain | with_reducible apply ck_raise | with_reducible apply ck_setSqc | with_reducible apply ck_modStok | with_reducible apply ck_modNet | with_reducible apply ck_modTrunk | with_reducible apply ck_storeEvent | with_reducible apply ck_enqueueEgress | with_reducible apply ck_sendEvCredit | with_reducible apply ck_sendCredit | with_reducible apply ck_pushItem | with_reducible apply ck_replayCheck | with_reducible apply ck_setQueue | with_reducible apply ck_pump | with_reducible apply ck_putQueue | with_reducible apply ck_postQueue | with_reducible apply ck_postTo | with_reducible apply ck_post
    | (apply ck_modHost _ _ _ (fun _ => rfl))
    | (with_reducible apply ck_foldS; intro _ _ _)
    | (with_reducible apply ck_foldL; intro _ _ _)
    | (with_reducible apply ck_foldP; intro _ _ _)
    | intro _
    | with_reducible apply ck_ite
    | split
    | (refine ck_of (by assumption) ?_ ?_ ?_ <;> rfl)
theorem ck_blockLoop {k s : State} (hk : Ck k s) (e : Edge) : Ck k (blockLoop e s) := by
  unfold blockLoop
  dsimp only
  repeat' first
    | assumption
    | with_reducible apply ck_checkFlags | with_reducible apply ck_followPeer | with_reducible apply ck_unblock | with_reducible apply ck_setNb | with_reducible apply ck_linkEvent | with_reducible apply ck_flood | with_reducible apply ck_floodRec | with_reducible apply ck_sendKa | with_reducible apply ck_sendPlain | with_reducible apply ck_raise | with_reducible apply ck_setSqc | with_reducible apply ck_modStok | with_reducible apply ck_modNet | with_reducible apply ck_modTrunk | with_reducible apply ck_storeEvent | with_reducible apply ck_enqueueEgress | with_reducible apply ck_sendEvCredit | with_reducible apply ck_sendCredit | with_reducible apply ck_pushItem | with_reducible apply ck_replayCheck | with_reducible apply ck_setQueue | with_reducible apply ck_pump | with_reducible apply ck_putQueue | with_reducible apply ck_postQueue | with_reducible apply ck_postTo | with_reducible apply ck_post
    | (apply ck_modHost _ _ _ (fun _ => rfl))
    | (with_reducible apply ck_foldS; intro _ _ _)
    | (with_reducible apply ck_foldL; intro _ _ _)
    | (with_reducible apply ck_foldP; intro _ _ _)
    | intro _
    | with_reducible apply ck_ite
    | split
    | (refine ck_of (by assumption) ?_ ?_ ?_ <;> rfl)
theorem ck_breakCycle {k s : State} (hk : Ck k s)  : Ck k (breakCycle s) := by
  unfold breakCycle
  dsimp only
  repeat' first
    | assumption
    | with_reducible apply ck_blockLoop | with_reducible apply ck_checkFlags | with_reducible apply ck_followPeer | with_reducible apply ck_unblock | with_reducible apply ck_setNb | with_reducible apply ck_linkEvent | with_reducible apply ck_flood | with_reducible apply ck_floodRec | with_reducible apply ck_sendKa | with_reducible apply ck_sendPlain | with_reducible apply ck_raise | with_reducible apply ck_setSqc | with_reducible apply ck_modStok | with_reducible apply ck_modNet | with_reducible apply ck_modTrunk | with_reducible apply ck_storeEvent | with_reducible apply ck_enqueueEgress | with_reducible apply ck_sendEvCredit | with_reducible apply ck_sendCredit | with_reducible apply ck_pushItem | with_reducible apply ck_replayCheck | with_reducible apply ck_setQueue | with_reducible apply ck_pump | with_reducible apply ck_putQueue | with_reducible apply ck_postQueue | with_reducible apply ck_postTo | with_reducible apply ck_post
    | (apply ck_modHost _ _ _ (fun _ => rfl))
    | (with_reducible apply ck_foldS; intro _ _ _)
    | (with_reducible apply ck_foldL; intro _ _ _)
    | (with_reducible apply ck_foldP; intro _ _ _)
    | intro _
    | with_reducible apply ck_ite
    | split
    | (refine ck_of (by assumption) ?_ ?_ ?_ <;> rfl)
theorem ck_enterFlight {k s : State} (hk : Ck k s) (q : Nat) : Ck k (enterFlight q s) := by
  unfold enterFlight
  dsimp only
  repeat' first
    | assumption
    | with_reducible apply ck_breakCycle | with_reducible apply ck_checkFlags | with_reducible apply ck_followPeer | with_reducible apply ck_unblock | with_reducible apply ck_setNb | with_reducible apply ck_linkEvent | with_reducible apply ck_flood | with_reducible apply ck_floodRec | with_reducible apply ck_sendKa | with_reducible apply ck_sendPlain | with_reducible apply ck_raise | with_reducible apply ck_setSqc | with_reducible apply ck_modStok | with_reducible apply ck_modNet | with_reducible apply ck_modTrunk | with_reducible apply ck_storeEvent | with_reducible apply ck_enqueueEgress | with_reducible apply ck_sendEvCredit | with_reducible apply ck_sendCredit | with_reducible apply ck_pushItem | with_reducible apply ck_replayCheck | with_reducible apply ck_setQueue | with_reducible apply ck_pump | with_reducible apply ck_putQueue | with_reducible apply ck_postQueue | with_reducible apply ck_postTo | with_reducible apply ck_post
    | (apply ck_modHost _ _ _ (fun _ => rfl))
    | (with_reducible apply ck_foldS; intro _ _ _)
    | (with_reducible apply ck_foldL; intro _ _ _)
    | (with_reducible apply ck_foldP; intro _ _ _)
    | intro _
    | with_reducible apply ck_ite
    | split
    | (refine ck_of (by assumption) ?_ ?_ ?_ <;> rfl)
theorem ck_restoreRoute {k s : State} (hk : Ck k s) (q : Nat) : Ck k (restoreRoute q s) := by
  unfold restoreRoute

  repeat' first
    | assumption
    | with_reducible apply ck_enterFlight | with_reducible apply ck_breakCycle | with_reducible apply ck_checkFlags | with_reducible apply ck_followPeer | with_reducible apply ck_unblock | with_reducible apply ck_setNb | with_reducible apply ck_linkEvent | with_reducible apply ck_flood | with_reducible apply ck_floodRec | with_reducible apply ck_sendKa | with_reducible apply ck_sendPlain | with_reducible apply ck_raise | with_reducible apply ck_setSqc | with_reducible apply ck_modStok | with_reducible apply ck_modNet | with_reducible apply ck_modTrunk | with_reducible apply ck_storeEvent | with_reducible apply ck_enqueueEgress | with_reducible apply ck_sendEvCredit | with_reducible apply ck_sendCredit | with_reducible apply ck_pushItem | with_reducible apply ck_replayCheck | with_reducible apply ck_setQueue | with_reducible apply ck_pump | with_reducible apply ck_putQueue | with_reducible apply ck_postQueue | with_reducible apply ck_postTo | with_reducible apply ck_post
    | (apply ck_modHost _ _ _ (fun _ => rfl))
    | (with_reducible apply ck_foldS; intro _ _ _)
    | (with_reducible apply ck_foldL; intro _ _ _)
    | (with_reducible apply ck_foldP; intro _ _ _)
    | intro _
    | with_reducible apply ck_ite
    | split
    | (refine ck_of (by assumption) ?_ ?_ ?_ <;> rfl)
theorem ck_flightHost {k s : State} (hk : Ck k s) (h : HostId) : Ck k (flightHost h s) := by
  unfold flightHost

  repeat' first
    | assumption
    | with_reducible apply ck_restoreRoute | with_reducible apply ck_enterFlight | with_reducible apply ck_breakCycle | with_reducible apply ck_checkFlags | with_reducible apply ck_followPeer | with_reducible apply ck_unblock | with_reducible apply ck_setNb | with_reducible apply ck_linkEvent | with_reducible apply ck_flood | with_reducible apply ck_floodRec | with_reducible apply ck_sendKa | with_reducible apply ck_sendPlain | with_reducible apply ck_raise | with_reducible apply ck_setSqc | with_reducible apply ck_modStok | with_reducible apply ck_modNet | with_reducible apply ck_modTrunk | with_reducible apply ck_storeEvent | with_reducible apply ck_enqueueEgress | with_reducible apply ck_sendEvCredit | with_reducible apply ck_sendCredit | with_reducible apply ck_pushItem | with_reducible apply ck_replayCheck | with_reducible apply ck_setQueue | with_reducible apply ck_pump | with_reducible apply ck_putQueue | with_reducible apply ck_postQueue | with_reducible apply ck_postTo | with_reducible apply ck_post
    | (apply ck_modHost _ _ _ (fun _ => rfl))
    | (with_reducible apply ck_foldS; intro _ _ _)
    | (with_reducible apply ck_foldL; intro _ _ _)
    | (with_reducible apply ck_foldP; intro _ _ _)
    | intro _
    | with_reducible apply ck_ite
    | split
    | (refine ck_of (by assumption) ?_ ?_ ?_ <;> rfl)
theorem ck_restoreHost {k s : State} (hk : Ck k s) (h : HostId) : Ck k (restoreHost h s) := by
  unfold restoreHost

  repeat' first
    | assumption
    | with_reducible apply ck_flightHost | with_reducible apply ck_restoreRoute | with_reducible apply ck_enterFlight | with_reducible apply ck_breakCycle | with_reducible apply ck_checkFlags | with_reducible apply ck_followPeer | with_reducible apply ck_unblock | with_reducible apply ck_setNb | with_reducible apply ck_linkEvent | with_reducible apply ck_flood | with_reducible apply ck_floodRec | with_reducible apply ck_sendKa | with_reducible apply ck_sendPlain | with_reducible apply ck_raise | with_reducible apply ck_setSqc | with_reducible apply ck_modStok | with_reducible apply ck_modNet | with_reducible apply ck_modTrunk | with_reducible apply ck_storeEvent | with_reducible apply ck_enqueueEgress | with_reducible apply ck_sendEvCredit | with_reducible apply ck_sendCredit | with_reducible apply ck_pushItem | with_reducible apply ck_replayCheck | with_reducible apply ck_setQueue | with_reducible apply ck_pump | with_reducible apply ck_putQueue | with_reducible apply ck_postQueue | with_reducible apply ck_postTo | with_reducible apply ck_post
    | (apply ck_modHost _ _ _ (fun _ => rfl))
    | (with_reducible apply ck_foldS; intro _ _ _)
    | (with_reducible apply ck_foldL; intro _ _ _)
    | (with_reducible apply ck_foldP; intro _ _ _)
    | intro _
    | with_reducible apply ck_ite
    | split
    | (refine ck_of (by assumption) ?_ ?_ ?_ <;> rfl)
theorem ck_updateChoice {k s : State} (hk : Ck k s)  : Ck k (updateChoice s) := by
  unfold updateChoice

  repeat' first
    | assumption
    | with_reducible apply ck_restoreHost | with_reducible apply ck_flightHost | with_reducible apply ck_restoreRoute | with_reducible apply ck_enterFlight | with_reducible apply ck_breakCycle | with_reducible apply ck_checkFlags | with_reducible apply ck_followPeer | with_reducible apply ck_unblock | with_reducible apply ck_setNb | with_reducible apply ck_linkEvent | with_reducible apply ck_flood | with_reducible apply ck_floodRec | with_reducible apply ck_sendKa | with_reducible apply ck_sendPlain | with_reducible apply ck_raise | with_reducible apply ck_setSqc | with_reducible apply ck_modStok | with_reducible apply ck_modNet | with_reducible apply ck_modTrunk | with_reducible apply ck_storeEvent | with_reducible apply ck_enqueueEgress | with_reducible apply ck_sendEvCredit | with_reducible apply ck_sendCredit | with_reducible apply ck_pushItem | with_reducible apply ck_replayCheck | with_reducible apply ck_setQueue | with_reducible apply ck_pump | with_reducible apply ck_putQueue | with_reducible apply ck_postQueue | with_reducible apply ck_postTo | with_reducible apply ck_post
    | (apply ck_modHost _ _ _ (fun _ => rfl))
    | (with_reducible apply ck_foldS; intro _ _ _)
    | (with_reducible apply ck_foldL; intro _ _ _)
    | (with_reducible apply ck_foldP; intro _ _ _)
    | intro _
    | with_reducible apply ck_ite
    | split
    | (refine ck_of (by assumption) ?_ ?_ ?_ <;> rfl)
theorem ck_resend {k s : State} (hk : Ck k s) (q : Nat) : Ck k (resend q s) := by
  unfold resend

  repeat' first
    | assumption
    | with_reducible apply ck_updateChoice | with_reducible apply ck_restoreHost | with_reducible apply ck_flightHost | with_reducible apply ck_restoreRoute | with_reducible apply ck_enterFlight | with_reducible apply ck_breakCycle | with_reducible apply ck_checkFlags | with_reducible apply ck_followPeer | with_reducible apply ck_unblock | with_reducible apply ck_setNb | with_reducible apply ck_linkEvent | with_reducible apply ck_flood | with_reducible apply ck_floodRec | with_reducible apply ck_sendKa | with_reducible apply ck_sendPlain | with_reducible apply ck_raise | with_reducible apply ck_setSqc | with_reducible apply ck_modStok | with_reducible apply ck_modNet | with_reducible apply ck_modTrunk | with_reducible apply ck_storeEvent | with_reducible apply ck_enqueueEgress | with_reducible apply ck_sendEvCredit | with_reducible apply ck_sendCredit | with_reducible apply ck_pushItem | with_reducible apply ck_replayCheck | with_reducible apply ck_setQueue | with_reducible apply ck_pump | with_reducible apply ck_putQueue | with_reducible apply ck_postQueue | with_reducible apply ck_postTo | with_reducible apply ck_post
    | (apply ck_modHost _ _ _ (fun _ => rfl))
    | (with_reducible apply ck_foldS; intro _ _ _)
    | (with_reducible apply ck_foldL; intro _ _ _)
    | (with_reducible apply ck_foldP; intro _ _ _)
    | intro _
    | with_reducible apply ck_ite
    | split
    | (refine ck_of (by assumption) ?_ ?_ ?_ <;> rfl)
theorem ck_followRoutes {k s : State} (hk : Ck k s) : Ck k (followRoutes s) := by
  have one : ∀ (h : HostId) (t : State), Ck k t → Ck k (match (t.host h).bound with
    | some (.trunk _ o) => if t.unreachable o then flightHost h t else restoreHost h t
    | _ => t) := by
    intro h t ht; split
    · exact ck_ite (ck_flightHost ht _) (ck_restoreHost ht _)
    · exact ht
  exact ck_updateChoice (one .b _ (one .a _ hk))
theorem ck_repair {k : State} (b : List Edge) : ∀ (n : Nat) {s : State}, Ck k s → Ck k (repair b n s)
  | 0, _, h => h
  | n + 1, s, h => by
    unfold repair
    dsimp only
    split
    · exact h
    · rename_i e _
      have h1 : Ck k (modNet (fun t => { t with recs := markUp e t.recs }) s) := ck_modNet h _
      split
      · exact ck_repair b n (ck_unblock h1 _)
      · exact ck_repair b n h1
theorem ck_afterTopology {k s : State} (hk : Ck k s) (before : State) : Ck k (afterTopology before s) := by
  unfold afterTopology
  dsimp only
  apply ck_foldS
  · intro e t ht; exact ck_ite (ck_sendEvCredit ht _ _) ht
  apply ck_foldS
  · intro q t ht; exact ck_ite (ck_sendCredit ht _) ht
  apply ck_foldS
  · intro q t ht; refine ck_ite ?_ ht; split
    · exact ck_ite (ck_resend ht _) ht
    · exact ht
  apply ck_followRoutes
  apply ck_foldS
  · intro n t ht; exact ck_checkFlags ht _
  apply ck_breakCycle
  apply ck_foldS
  · intro n t ht; exact ck_followPeer ht _
  exact ck_repair _ _ hk
theorem ck_setDeviceId {k s : State} (hk : Ck k s) (id : Half) : Ck k (setDeviceId id s) := by
  unfold setDeviceId withTopology
  dsimp only
  have h1 : Ck k (modLich (fun l => { l with storedId := some id }) (modDev (fun d => { d with id := id, withdrawn := false }) s)) :=
    ck_of hk rfl rfl rfl
  apply ck_ite h1
  apply ck_afterTopology
  apply ck_flood
  apply ck_floodRec
  apply ck_foldS
  · intro n t ht; exact ck_sendKa ht _
  apply ck_setSqc
  exact ck_of h1 rfl rfl rfl
theorem ck_bindHost {k s : State} (hk : Ck k s) (h : HostId) (v : Via) (wd : Nat) : Ck k (bindHost h v wd s) := by
  unfold bindHost
  dsimp only
  apply ck_updateChoice
  apply ck_restoreHost
  have h1 := ck_modHost hk h (fun r => { r with bound := some v, wdMs := wd, semTimer := false }) (fun _ => rfl)
  exact ck_ite (ck_postTo h1 _ _ _) h1
theorem beside_begun (op : Nat) (h : HostId) (p : Packet) (s : State) : Safety.Beside (Safety.begun op h p s) s :=
  ⟨rfl, fun g => by cases g <;> rfl, fun _ => rfl, fun i => by cases i <;> rfl, rfl⟩
theorem compl_to {i : Instr} {op : Nat} {h : HostId} {p : Packet} {st : Nat} {r : List Byte} {s a b : State}
    (hc : Safety.Completes i op h p st r s a) (hb : Safety.Beside a b) : Safety.Completes i op h p st r s b := by
  obtain ⟨t, h1, h2, h3⟩ := hc; exact ⟨t, h1, h2, Beside.trans h3 hb⟩
theorem start_to {i : Instr} {h : HostId} {p : Packet} {u : Nat} {r : List Nat} {s a b : State}
    (hc : Safety.Starts i h p u r s a) (hb : Safety.Beside a b) : Safety.Starts i h p u r s b := by
  obtain ⟨t, h1, h2, h3⟩ := hc; exact ⟨t, h1, h2, Beside.trans h3 hb⟩
/-- A command that changes nothing. -/
theorem reads {op : Nat} {i : Instr} {c : CmdSpec} {h : HostId} {p : Packet} {s : State} {st : Nat} {r : List Byte}
    (hop : op < 65536) (hi : exec i s = .next (command op c p s)) (hz : s.dev.power ≠ .doze ∨ dozeLocked.contains op = false)
    (ha : Safety.Accepted op c h p s)
    (hr : c.run (Safety.cmdOf op h p) (Safety.begun op h p s) = (Safety.begun op h p s, .final st r)) :
    Safety.Completes i op h p st r s s :=
  compl_to (completes0 hop hi hz ha hr rfl rfl) (beside_begun op h p s)
theorem foldS_ops {α : Type} (l : List α) (f : α → State → State) (hf : ∀ a s, (f a s).ops = s.ops) (s : State) : (foldS l f s).ops = s.ops := by
  unfold foldS
  induction l generalizing s with
  | nil => rfl
  | cons a r ih => rw [List.foldl_cons, ih, hf]
/-- Weaker: no command is dropped and no sequence advances. -/
def Cw (k s : State) : Prop := (∀ h tag, k.opOf h tag ≠ none → s.opOf h tag ≠ none) ∧ ∀ h, (s.host h).cseq = (k.host h).cseq
theorem cw_ck {k s t : State} (h : Cw k s) (g : Ck s t) : Cw k t :=
  ⟨fun a b c => by have := h.1 a b c; unfold State.opOf at *; rw [g.1]; exact this, fun a => (g.host a).trans (h.2 a)⟩
theorem cw_map {k s t : State} (h : Cw k s) (f : Op → Op) (hh : ∀ x, (f x).host = x.host) (ht : ∀ x, (f x).tag = x.tag)
    (ho : t.ops = s.ops.map f) (hc : ∀ g, (t.host g).cseq = (s.host g).cseq) : Cw k t := by
  refine ⟨fun a b c => ?_, fun a => (hc a).trans (h.2 a)⟩
  have := h.1 a b c
  obtain ⟨x, hx⟩ := Option.ne_none_iff_exists'.1 this
  unfold State.opOf at *
  rw [ho, find_map_key hh ht hx]; simp
theorem cw_setOwner {k s : State} (h : Cw k s) (n o : Nat) : Cw k (setOwner n o s) := by
  unfold setOwner
  split
  · exact h
  · dsimp only; split
    · refine cw_map h (fun o => { o with counts := false }) (fun _ => rfl) (fun _ => rfl) rfl (fun g => by cases g <;> rfl)
    · exact cw_ck h ⟨rfl, rfl, rfl⟩
theorem cw_foldS {α : Type} {k : State} {f : α → State → State} (hf : ∀ a t, Cw k t → Cw k (f a t)) :
    ∀ (l : List α) {s : State}, Cw k s → Cw k (foldS l f s)
  | [], _, h => h
  | a :: l, s, h => cw_foldS hf l (hf a s h)
theorem cw_refl (s : State) : Cw s s := ⟨fun _ _ h => h, fun _ => rfl⟩
theorem ck_refl (s : State) : Ck s s := ⟨rfl, rfl, rfl⟩
theorem cw_releaseSems {k s : State} (hk : Cw k s) (h : HostId) : Cw k (releaseSems h s) := by
  unfold releaseSems; dsimp only
  have h1 : Cw k (modHost h (fun r => { r with semTimer := false }) s) := cw_ck hk (ck_modHost (ck_refl s) h _ (fun _ => rfl))
  have h2 : Cw k (foldS (upTo 32) (fun n t => if bitOf (s.semMask h) n then setOwner n 0 t else t) (modHost h (fun r => { r with semTimer := false }) s)) := by
    apply cw_foldS
    · intro n t ht; split
      · exact cw_setOwner ht _ _
      · exact ht
    · exact h1
  split
  · exact h2
  · exact cw_ck h2 (ck_postTo (ck_refl _) _ _ _)
theorem cw_loseBinding {k s : State} (hk : Cw k s) (h : HostId) (hw : ∀ o ∈ s.ops, o.host = h → o.started = true) : Cw k (loseBinding h 2 s) := by
  unfold loseBinding unbindHost
  split
  · exact hk
  · simp only [if_true, Bool.false_eq_true, if_false]
    refine cw_ck ?_ (ck_updateChoice (ck_refl _))
    apply cw_releaseSems
    have base : Ck s (flightHost h (if (s.host (hOther h)).bound.isSome then postTo 2 (hOther h) (ev8 0x0051 (hCode h) 2 (s.host h).cseq.toNat)
        (setSqc (aHostBind h) [17] (modHost h (fun r => { r with bound := none, lostCause := 2 }) s))
        else (setSqc (aHostBind h) [17] (modHost h (fun r => { r with bound := none, lostCause := 2 }) s)))) := by
      apply ck_flightHost
      have h1 : Ck s (setSqc (aHostBind h) [17] (modHost h (fun r => { r with bound := none, lostCause := 2 }) s)) :=
        ck_setSqc (ck_modHost (ck_refl s) h (fun r => { r with bound := none, lostCause := 2 }) (fun _ => rfl)) _ _
      exact ck_ite (ck_postTo h1 _ _ _) h1
    have own : ∀ (u : State), u.ops = s.ops → Ck (ownReplies h false u) (endWaiting h (ownReplies h false u)) := by
      intro u hu
      unfold endWaiting
      have : (ownReplies h false u).ops.filter (fun o => o.host == h && !o.started) = [] := by
        apply List.filter_eq_nil_iff.2
        intro o ho
        simp only [ownReplies, List.mem_map] at ho
        obtain ⟨x, hx, rfl⟩ := ho
        rw [hu] at hx
        have hst : ∀ y : Op, y.host = h → y ∈ s.ops → y.started = true := fun y e m => hw y m e
        split
        · rename_i c
          simp only [Bool.and_eq_true, beq_iff_eq] at c
          simp [hst x c.1 hx]
        · by_cases e : x.host = h
          · simp [hst x e hx]
          · simp [e]
      rw [this]; exact ck_refl _
    refine cw_ck ?_ (own _ base.1)
    refine cw_map (cw_ck hk base) (fun x => if x.host == h && (x.started || !false) then { x with bound := true } else x)
      (fun x => ?_) (fun x => ?_) rfl (fun g => by cases g <;> rfl)
    all_goals split <;> rfl
theorem begun_host (op : Nat) (h : HostId) (p : Packet) (s : State) (g : HostId) : (Safety.begun op h p s).host g = s.host g := by cases g <;> rfl
theorem ended_done (o x : Op) (st : Nat) (r : List Byte) (s : State) :
    ((ended o x st r s).host o.host).done =
      keepRecords ({ tag := o.tag, opcode := BitVec.ofNat 16 o.opcode.toNat, status := BitVec.ofNat 16 st,
                     cseq := (s.host o.host).cseq + 1, result := some (pad4 r) } :: (s.host o.host).done) := by
  have hd : (dropOp o.host o.tag s).host o.host = s.host o.host := by unfold dropOp State.host; split <;> rfl
  have hc : ((countForced x (dropOp o.host o.tag s)).host o.host).cseq = (s.host o.host).cseq ∧
      ((countForced x (dropOp o.host o.tag s)).host o.host).done = (s.host o.host).done := by
    unfold countForced
    split
    · rcases hx : x.host with _ | _ <;> rcases ho : o.host with _ | _ <;> exact ⟨rfl, rfl⟩
    · rw [hd]; exact ⟨rfl, rfl⟩
  unfold ended record
  simp [host_modHost, hc.1, hc.2]
theorem find_filter_other {l : List Op} {h : HostId} {tag u : Half} (hne : tag ≠ u) :
    (l.filter (fun o => !(o.host == h && o.tag == tag))).find? (fun o => o.host == h && o.tag == u) =
      l.find? (fun o => o.host == h && o.tag == u) := by
  induction l with
  | nil => rfl
  | cons a r ih =>
    rw [List.filter_cons]
    split
    · rw [List.find?_cons, List.find?_cons, ih]
    · rename_i hk
      have hk' : a.host = h ∧ a.tag = tag := by simpa using hk
      rw [ih, List.find?_cons]
      have : (a.host == h && a.tag == u) = false := by rw [hk'.2]; simp [hne]
      rw [this]
theorem keep_two (a : DoneRec) (b : DoneRec) (l : List DoneRec) : (keepRecords (a :: keepRecords (b :: l))).take 2 = [a, b] := by
  simp [keepRecords]
theorem opOf_host {s : State} {h : HostId} {tag : Half} {o : Op} (ho : s.opOf h tag = some o) : o.host = h ∧ o.tag = tag := by
  unfold State.opOf at ho
  have := List.find?_some ho
  simpa using this
theorem posted_takeItem {k s : State} (hk : Posted k s) (o : Op) : Posted k (takeItem o s) := by
  unfold takeItem; dsimp only
  have drop : ∀ (q : Nat) (t : State), Posted k t → Posted k (let r := t.queue q
    if r.items.any (fun i => field i.payload 2 2 == o.tag.toNat) then
      putQueue q ((r.ofPlaced (r.placed.filter fun x => field x.2.payload 2 2 != o.tag.toNat)).settle false) none t
    else t) := by
    intro q t ht; dsimp only; split
    · exact posted_putQueue ht _ _ _
    · exact ht
  exact drop _ _ (drop _ _ hk)
theorem answers {op : Nat} {i : Instr} {c : CmdSpec} {h : HostId} {p : Packet} {s s1 : State} {a : Ans}
    (hop : op < 65536) (hi : exec i s = .next (command op c p s)) (hz : s.dev.power ≠ .doze ∨ dozeLocked.contains op = false)
    (ha : Safety.Accepted op c h p s)
    (hr : c.run (Safety.cmdOf op h p) (Safety.begun op h p s) = (s1, a)) :
    Safety.Answers i op h p s a s1 := by
  unfold Safety.Answers
  rw [hi]; unfold command
  rw [serve_accepted hop (accepted_inDoze ha), run_inDoze (s := Safety.begun op h p s) hz, hr]
section
variable (op : Nat) (h : HostId) (p : Packet) (s : State)
@[simp] theorem bg_port (k : Nat) : (Safety.begun op h p s).port k = s.port k := rfl
@[simp] theorem bg_pgIsolated (k : Nat) : (Safety.begun op h p s).pgIsolated k = s.pgIsolated k := rfl
@[simp] theorem bg_enumerating (k : Nat) (l : At) : (Safety.begun op h p s).enumerating k l = s.enumerating k l := rfl
@[simp] theorem bg_pdOf (k : Nat) : (Safety.begun op h p s).pdOf k = s.pdOf k := rfl
@[simp] theorem bg_role (k : Nat) : (Safety.begun op h p s).role k = s.role k := rfl
@[simp] theorem bg_swapAnswer (k : Nat) : (Safety.begun op h p s).swapAnswer k = s.swapAnswer k := rfl
@[simp] theorem bg_vdmReady (k : Nat) : (Safety.begun op h p s).vdmReady k = s.vdmReady k := rfl
@[simp] theorem bg_svc : (Safety.begun op h p s).svc = s.svc := rfl
@[simp] theorem bg_part : (Safety.begun op h p s).part = s.part := rfl
@[simp] theorem bg_otp : (Safety.begun op h p s).otp = s.otp := rfl
@[simp] theorem bg_params : (Safety.cmdOf op h p).params = p.params := rfl
@[simp] theorem bg_chost : (Safety.cmdOf op h p).host = h := rfl
@[simp] theorem bg_ctag : (Safety.cmdOf op h p).tag = p.tag := rfl
theorem bg_busy {k : Nat} (hk : k ≠ 0) : (Safety.begun op h p s).busyKey k = s.busyKey k := by
  unfold State.busyKey Safety.begun
  rw [List.any_append]
  have : (0 == k) = false := by simpa using hk.symm
  simp [newOp, this]
@[simp] theorem bg_busyPort (k : Nat) : (Safety.begun op h p s).busyPort k = s.busyPort k := by
  unfold State.busyPort
  rw [bg_busy op h p s (by unfold keyPort; omega)]
  unfold Safety.begun
  simp [newOp, keyCal, keyDev]
end

end Sys2Proof.Machine
end

