-- ==== Sys2Proof/Laws/PerInstr.lean ====
section
/-!
SUPPORT. No statement is made per constructor of Instr: LAWS.json names no family.
-/
end

