-- ==== Sys2Proof/WellFormed.lean ====
section
/-!
DEFINITION. Well-formed commands: each number names a unit that some variant has.
-/
namespace Sys2Proof

/-- The checks of a unit number, by the widest variant (R1, R2): ports and PD ports (32 is the service port), engines, CAN
channels and their objects (R418), trunks, queues (R172), semaphores (R257), instances (R243), banks, slots and words. -/
def WellFormed.port (p : Nat) : Bool := p < 32
def WellFormed.pdPort (p : Nat) : Bool := p ≤ 32
def WellFormed.engine (e : Nat) : Bool := e < 12
def WellFormed.can (c : Nat) : Bool := c < 8
def WellFormed.obj (k : Nat) : Bool := k < 128
def WellFormed.trunk (n : Nat) : Bool := n < 4
def WellFormed.queue (q : Nat) : Bool := q < 64
def WellFormed.sem (n : Nat) : Bool := n < 32
def WellFormed.inst (i : Nat) : Bool := i ≤ 32
def WellFormed.bank (b : Nat) : Bool := b < 16
def WellFormed.unit (u : TUnit) : Bool := match u with | .engine e => e < 12 | .payload b => b < 16 | .control b => b < 8
/-- A host address is a 20-bit word address (R515). -/
def WellFormed.addr (a : Nat) : Bool := a < 0x100000

/-- Whether each operand of a command names something the block can have. -/
def Instr.wf (i : Instr) : Bool :=
  match i with
  | .devIdentify _ => true
  | .devStatus _ => true
  | .devSetId _ => true
  | .devEcho _ => true
  | .opAbort _ => true
  | .opQuery _ => true
  | .devWarmRestart _ => true
  | .hostBind _ => true
  | .semTake _ => true
  | .semGive _ => true
  | .devPowerState _ => true
  | .portEnable _ => true
  | .portDisable _ => true
  | .portStatus _ => true
  | .portBusReset _ => true
  | .portSuspend _ => true
  | .portResume _ => true
  | .portPowerCycle _ => true
  | .portSetPolicy _ => true
  | .treeList _ => true
  | .epList _ => true
  | .epBind _ => true
  | .epUnbind _ => true
  | .epControl _ => true
  | .epWrite _ => true
  | .epRead _ => true
  | .epState _ => true
  | .qConfig _ => true
  | .qStatus _ => true
  | .qFlush _ => true
  | .qReplay _ => true
  | .budgetSet _ => true
  | .budgetStatus _ => true
  | .placeHint _ => true
  | .placePin _ => true
  | .placeReport _ => true
  | .pdSetCaps _ => true
  | .pdStatus _ => true
  | .pdDrSwap _ => true
  | .pdHardReset _ => true
  | .pdDiscover _ => true
  | .pdAltmode _ => true
  | .canConfig _ => true
  | .canObjConfig _ => true
  | .canFilterSet _ => true
  | .canSend _ => true
  | .canStatus _ => true
  | .canTimeMaster _ => true
  | .trkConfig _ => true
  | .trkStatus _ => true
  | .trkRoute _ => true
  | .trkDiscover _ => true
  | .timeSet _ => true
  | .timeGet _ => true
  | .timeStatus _ => true
  | .fltRead _ => true
  | .fltAck _ => true
  | .fltForce _ => true
  | .ashRead _ => true
  | .testRun _ => true
  | .calRun _ => true
  | .testStatus _ => true
  | .fwStage _ => true
  | .fwActivate _ => true
  | .fwStatus _ => true
  | .secLifecycle _ => true
  | .secKey _ => true
  | .secProvision _ => true
  | .quePopHdr0Read _ q _ => WellFormed.queue q
  | .quePopDataRead _ q _ => WellFormed.queue q
  | .quePushHdrWrite _ q _ => WellFormed.queue q
  | .quePushDataWrite _ q _ => WellFormed.queue q
  | .hostxDoorbellWrite _ _ _ => true
  | .hostxHeartbeatWrite _ _ _ => true
  | .hostxCtrlWrite _ _ _ => true
  | .semTakenRead _ _ n _ _ => WellFormed.sem n
  | .semTakenWrite _ _ n _ => WellFormed.sem n
  | .statusSqcWrite _ addr _ => WellFormed.addr addr
  | .fltForcekWrite _ _ _ => true
  | .fltPulseWrite _ _ => true
  | .fltAckwWrite _ _ => true
  | .stokCtrlReplan _ _ => true
  | .memcCtrlScrubNow _ _ => true
  | .canCtrlAbortAll _ ch _ => WellFormed.can ch
  | .canSendRequestWrite _ ch obj => WellFormed.can ch && WellFormed.obj obj
  | .canAbortRequestWrite _ ch obj => WellFormed.can ch && WellFormed.obj obj
  | .canObjectLockRead _ ch obj => WellFormed.can ch && WellFormed.obj obj
  | .canReleaseWordRead _ ch obj => WellFormed.can ch && WellFormed.obj obj
  | .lichConfigWrite _ _ _ => true
  | .lichWriteApplied => true
  | .mailboxAccess _ => true
  | .xspiUnknownCommand _ _ => true
  | .registerWrite _ addr _ => WellFormed.addr addr
  | .ccRdSeen p _ => WellFormed.port p
  | .ccRdLost p => WellFormed.port p
  | .tccdebounceExpires p => WellFormed.port p
  | .tpddebounceExpires p => WellFormed.port p
  | .powerGood p => WellFormed.port p
  | .powerGoodLost p _ => WellFormed.port p
  | .pullupSeen p => WellFormed.port p
  | .pullupLost p => WellFormed.port p
  | .tconnectExpires p => WellFormed.port p
  | .tattdbExpires p _ _ => WellFormed.port p
  | .chirpKDetected p _ => WellFormed.port p
  | .trstrootExpires p => WellFormed.port p
  | .trstrcyExpires p _ _ => WellFormed.port p
  | .tsetaddrExpires p _ => WellFormed.port p
  | .tctrlExpires p _ => WellFormed.port p
  | .tenumRetryExpires p _ => WellFormed.port p
  | .taddrQuietExpires p _ => WellFormed.port p
  | .rootBabble p => WellFormed.port p
  | .remoteWakeK p => WellFormed.port p
  | .tresumeExpires p => WellFormed.port p
  | .trsmrcyExpires p _ _ => WellFormed.port p
  | .hubPortConnectChange p _ _ => WellFormed.port p
  | .hubPortDisconnectChange p _ _ _ => WellFormed.port p
  | .microframeBoundary => true
  | .sublistCommit te p _ => WellFormed.engine te && WellFormed.port p
  | .transactionResult _ => true
  | .queueRefillDone q _ => WellFormed.queue q
  | .stokerReplan _ => true
  | .migrationReady p _ => WellFormed.port p
  | .migrationDrainMarker p _ => WellFormed.port p
  | .coldTakeoverReady p _ => WellFormed.port p
  | .engineNoAck te => WellFormed.engine te
  | .ledgerRecompute _ => true
  | .ledgerMeasurementElapsed => true
  | .trelaxExpires => true
  | .tshedExpires => true
  | .feedLimitShedTick => true
  | .trestoreExpires => true
  | .shedRestoreTick => true
  | .evacuationRetryTick => true
  | .evacuationTimeout => true
  | .rotationTick u port => WellFormed.port port && (match u with | some x => WellFormed.unit x | none => true)
  | .testComplete _ => true
  | .payloadBankIdleOff b => WellFormed.bank b
  | .activeSetShrink => true
  | .peatScrub _ => true
  | .ctrlSramScrub _ => true
  | .thostwdExpires _ => true
  | .tsemlossExpires _ => true
  | .svcCommandSetup inst _ => WellFormed.inst inst
  | .svcCommandStatusStage inst _ => WellFormed.inst inst
  | .svcStandardRequest inst _ => WellFormed.inst inst
  | .svcBusReset inst => WellFormed.inst inst
  | .svcBulkOutRecord inst _ => WellFormed.inst inst
  | .svcBulkInAck inst => WellFormed.inst inst
  | .svcInterruptInPoll inst => WellFormed.inst inst
  | .svcSuspend inst => WellFormed.inst inst
  | .trunkPhyLinkUp n => WellFormed.trunk n
  | .trunkPhyLinkDown d => WellFormed.trunk d.trunk
  | .tphyrstExpires n _ => WellFormed.trunk n
  | .trunkPhyLinkTimeout n => WellFormed.trunk n
  | .tkeepaliveTick => true
  | .keepaliveReceived n _ => WellFormed.trunk n
  | .keepaliveTimeout n => WellFormed.trunk n
  | .tlinkHoldExpires n => WellFormed.trunk n
  | .tsettleExpires n => WellFormed.trunk n
  | .topologyReceived n _ => WellFormed.trunk n
  | .ttopoRefreshTick => true
  | .ttopoAgeExpires _ => true
  | .commandFrameReceived n _ _ => WellFormed.trunk n
  | .replyFrameReceived n _ _ => WellFormed.trunk n
  | .eventFrameReceived n _ _ => WellFormed.trunk n
  | .deliveryFrameReceived n _ _ => WellFormed.trunk n
  | .creditRecordReceived n _ _ _ _ => WellFormed.trunk n
  | .timeFrameReceived n _ _ _ _ => WellFormed.trunk n
  | .te2eRetryExpires q => WellFormed.queue q
  | .tcreditExpires q => WellFormed.queue q
  | .oldMacWindowEnd => true
  | .tcapsRepeatExpires p => WellFormed.pdPort p
  | .goodcrcReceived p _ => WellFormed.pdPort p
  | .tsenderExpires p => WellFormed.pdPort p
  | .requestReceived p _ => WellFormed.pdPort p
  | .tsrcTransExpires p => WellFormed.pdPort p
  | .gapDelayExpires p => WellFormed.pdPort p
  | .vsnsStepdownReached p => WellFormed.pdPort p
  | .tstepdownExpires p => WellFormed.pdPort p
  | .ccNoRdInTransition p => WellFormed.pdPort p
  | .softResetReceived p => WellFormed.pdPort p
  | .hardResetReceived p => WellFormed.pdPort p
  | .tpsHardresetExpires p => WellFormed.pdPort p
  | .vsnsSafe0vReached p => WellFormed.pdPort p
  | .tsafe0vExpires p => WellFormed.pdPort p
  | .tsrcRecoverExpires p => WellFormed.pdPort p
  | .getSourceCapReceived p => WellFormed.pdPort p
  | .getSinkCapReceived p => WellFormed.pdPort p
  | .drSwapReceived p => WellFormed.pdPort p
  | .prSwapReceived p _ => WellFormed.pdPort p
  | .pdUnsupportedMessage p => WellFormed.pdPort p
  | .pdResponseReceived p _ => WellFormed.pdPort p
  | .twaitExpires p => WellFormed.pdPort p
  | .sourceCapabilitiesReceived p _ => WellFormed.pdPort p
  | .psRdyReceived p => WellFormed.pdPort p
  | .swapPartnerSourceSeen p => WellFormed.pdPort p
  | .tswapAttachExpires p => WellFormed.pdPort p
  | .swappedVbusLost p => WellFormed.pdPort p
  | .swappedHrRdTimeout p => WellFormed.pdPort p
  | .tsvcDfpExpires => true
  | .vdmRequestReceived p _ => WellFormed.pdPort p
  | .vdmResponseReceived p _ _ => WellFormed.pdPort p
  | .tvdmExpires p => WellFormed.pdPort p
  | .tvdmEnterExpires p => WellFormed.pdPort p
  | .exitModeReceived p => WellFormed.pdPort p
  | .prail15Low => true
  | .prail15Restored => true
  | .svcVbusPresent _ => true
  | .svcCapsWaitExpires => true
  | .svcGateOverload => true
  | .svcGateReclose => true
  | .tfaultReached p => WellFormed.port p
  | .trampPgExpires p _ => WellFormed.port p
  | .tfetCheckExpires p _ => WellFormed.port p
  | .prail5Low _ => true
  | .prail5Restored _ => true
  | .feedVoltagePresent _ _ => true
  | .feedVoltageLost _ _ => true
  | .seatDebounceComplete => true
  | .seatPinHigh _ _ => true
  | .bulkPrecharged _ => true
  | .feedGateOn _ _ => true
  | .tprechargeExpires _ _ => true
  | .feedLimitReached _ _ => true
  | .feedLimitLeft _ _ => true
  | .tfaultFeedExpires _ _ => true
  | .reverseCurrentDetected _ _ => true
  | .tretryFeedExpires _ => true
  | .logicDieReset _ => true
  | .tholdExpires => true
  | .canIntegrationComplete ch => WellFormed.can ch
  | .canFrameReceived ch _ => WellFormed.can ch
  | .canReferenceMessageReceived ch _ _ => WellFormed.can ch
  | .canErrorDetected ch _ => WellFormed.can ch
  | .canBusOffRecovery ch => WellFormed.can ch
  | .canSendComplete ch obj _ _ _ => WellFormed.can ch && decide (obj ≤ 128)
  | .tlockExpires ch obj => WellFormed.can ch && WellFormed.obj obj
  | .canCycleStart ch => WellFormed.can ch
  | .ppsEdge _ => true
  | .tppsMissExpires => true
  | .tholdoverTimeout => true
  | .tfSaveTick => true
  | .plantSecondCrossing => true
  | .refClockFailure => true
  | .xtal32Failure => true
  | .islandEntryAnswer _ => true
  | .entryDelayExpires => true
  | .tentryExpires => true
  | .wakeTrigger _ => true
  | .wakeAfterExpires => true
  | .wakeStepReady _ _ => true
  | .wakeStepLimitExpires _ _ => true
  | .wakeRetryTick => true
  | .supplyRailLost _ => true
  | .supplyRailStable _ => true
  | .lockstepMismatch => true
  | .mboterWatchdogExpires => true
  | .sensorDivergence _ => true
  | .dieLinkCheckFailure => true
  | .ashLogDrain => true
  | .coldStart _ => true
  | .cfgParityCheck _ => true
  | .mboterReady _ => true
  | .mboterStartTimeout => true
  | .warmRestartTimeout => true
  | .bootCounterClear => true
  | .resetNLongHold => true
  | .flashEraseComplete _ => true
  | .flashVerifyComplete _ _ _ _ => true
  | .otpWriteComplete => true
  | .tamperNLow => true
  | .zeroisationReadback _ => true
  | .offTimeExpires p => WellFormed.port p
  | .pwron2pwrgoodWaitExpires p _ => WellFormed.port p
  | .portAtLimit p => WellFormed.port p
  | .portLimitLeft p => WellFormed.port p
  | .servicePortDetach => true
  | .svcResume inst => WellFormed.inst inst
  | .tamperNReleased => true
  | .canProtocolException ch => WellFormed.can ch
  | .newVoltageNotGood p => WellFormed.port p
  | .eventMergeIntervalEnd _ => true
  | .receivedFrameDiscarded n _ => WellFormed.trunk n
  | .egressFrameEnd n => WellFormed.trunk n
  | .powerDiePowerOn => true
  | .lossOfAllSources => true
  | .unhandledCoreException => true
  | .evacuationCopyComplete => true

end Sys2Proof
end

