-- ==== Sys2Proof/Tests/Slice0.lean ====
section
/-!
SUPPORT. The model's own tests: terms that WellFormed refuses, for every statement with hypotheses a state and operands that meet
them (a clause at a time, at the boundary of its range), and single steps whose results the spec gives.
-/
set_option linter.all false
set_option maxRecDepth 100000
set_option Elab.async false
namespace Sys2Proof.Tests
open Machine

/-! ### Well-formed commands: a term that each check refuses, beside one at the boundary that it takes -/

theorem test_wf_port : ((Instr.tccdebounceExpires 31).wf, (Instr.tccdebounceExpires 32).wf) = (true, false) := by decide
theorem test_wf_pd_port : ((Instr.tcapsRepeatExpires 32).wf, (Instr.tcapsRepeatExpires 33).wf) = (true, false) := by decide
theorem test_wf_engine : ((Instr.engineNoAck 11).wf, (Instr.engineNoAck 12).wf) = (true, false) := by decide
theorem test_wf_can : ((Instr.canCycleStart 7).wf, (Instr.canCycleStart 8).wf) = (true, false) := by decide
theorem test_wf_obj : ((Instr.tlockExpires 0 127).wf, (Instr.tlockExpires 0 128).wf) = (true, false) := by decide
theorem test_wf_send : ((Instr.canSendComplete 0 128 1 0 none).wf, (Instr.canSendComplete 0 129 1 0 none).wf) = (true, false) := by decide
theorem test_wf_trunk : ((Instr.egressFrameEnd 3).wf, (Instr.egressFrameEnd 4).wf) = (true, false) := by decide
theorem test_wf_queue : ((Instr.te2eRetryExpires 63).wf, (Instr.te2eRetryExpires 64).wf) = (true, false) := by decide
theorem test_wf_sem : ((Instr.semTakenWrite .a .a 31 0).wf, (Instr.semTakenWrite .a .a 32 0).wf) = (true, false) := by decide
theorem test_wf_inst : ((Instr.svcBusReset 32).wf, (Instr.svcBusReset 33).wf) = (true, false) := by decide
theorem test_wf_bank : ((Instr.payloadBankIdleOff 15).wf, (Instr.payloadBankIdleOff 16).wf) = (true, false) := by decide
theorem test_wf_unit : ((Instr.rotationTick (some (.engine 11)) 0).wf, (Instr.rotationTick (some (.engine 12)) 0).wf, (Instr.rotationTick none 32).wf) =
    (true, false, false) := by decide
theorem test_wf_addr : ((Instr.registerWrite .a 0xFFFFF ⟨[0], true⟩).wf, (Instr.registerWrite .a 0x100000 ⟨[0], true⟩).wf) = (true, false) := by decide

/-! ### States the witnesses start from -/

/-- Both port_enable bits, written beside other CONFIG registers. -/
def ports : List (Nat × Word) := [(aHostCtrl .a, 0x10000), (aHostCtrl .b, 0x10000)]
/-- Mboter ready, both hosts bound to their own ports with their rings enabled, nothing due. -/
def up : State :=
  { State.reset with
    dev := { phase := .ready, id := 1 }
    cfg := ports
    hostA := { bound := some (.localPort .a) }
    hostB := { bound := some (.localPort .b) } }
/-- Port 31 with a record. -/
def P (r : Port) : State := setPort 31 r up
/-- Port 31 running with a contract layer. -/
def D (d : PdRec) : State := P { bus := .running, pd := d }

theorem test_reset_queue : State.reset.pending = [] := by decide

/-- Reset leaves the life cycle at 0 and OTP unwritten. -/
theorem test_reset_otp : State.reset.otp = {} := by decide

/-! ### Witnesses: the step, registers and windows -/

theorem witness_StepRunsFront : ({ up with pending := [.lichWriteApplied, .tkeepaliveTick] } : State).pending =
    .lichWriteApplied :: [.tkeepaliveTick] := rfl

theorem goesOn (s : State) (h : (Safety.answer s).isSome = true) : ∃ t, step s = .next t := by
  unfold Safety.answer at h
  split at h
  · exact ⟨_, by assumption⟩
  · cases h

def otpRun : State := { up with pending := [.otpWriteComplete], otp := { writing := some (.field 1 0x1234) } }
theorem test_otp_write : (Safety.answer otpRun).map (fun t => (t.otp.fields.usbVid, t.otp.writing, t.pending)) =
    some (some 0x1234, none, []) := by decide +kernel
theorem witness_StepKeepsLegal : Safety.Legal otpRun ∧ ∃ t, step otpRun = .next t := ⟨by unfold Safety.Legal; decide, goesOn _ (by decide +kernel)⟩
theorem witness_StepTakesOneCommand : Safety.Legal otpRun ∧ ∃ t, step otpRun = .next t := witness_StepKeepsLegal
theorem witness_OtpMovesForward : Safety.Legal otpRun ∧ ∃ t, step otpRun = .next t := witness_StepKeepsLegal

theorem up_settled : Safety.Settled up := by
  refine ⟨by decide, by decide, rfl, by decide, by decide, fun _ _ => nofun, rfl, by decide, ?_, ?_, by decide +kernel, ?_, ?_, ?_, rfl, ?_⟩
  · intro p _; exact .inr rfl
  · decide
  · intro _; decide +kernel
  · intro h; exact absurd h (by decide)
  · decide +kernel
  · decide +kernel
theorem witness_FinishAtRest : Safety.Settled up := up_settled
theorem witness_IdleStepPassesTime : up.pending = [] ∧ up.arrivals = [] ∧ up.ops = [] ∧ up.dev.phase = .ready ∧ Safety.Settled up ∧
    (∀ h, (up.host h).heldEvents = [] ∧ (up.host h).paused = false ∧ (up.host h).prodN = (up.host h).consN ∧
      (up.host h).prodU = (up.host h).consU ∧ (up.host h).heldN = false ∧ (up.host h).heldU = false) ∧
    (∀ i, (up.inst i).attached = false) :=
  ⟨rfl, rfl, rfl, rfl, up_settled, fun h => by cases h <;> decide, fun _ => rfl⟩
theorem test_idle_step : (Safety.answer up).map (fun t => (t.dev.monoNs, t.pending)) = some (4, []) := by decide +kernel

theorem witness_CapabilityFields : Safety.Legal up ∧ ∃ t, step up = .next t := ⟨by unfold Safety.Legal; decide, goesOn _ (by decide +kernel)⟩
theorem witness_CapabilityValues : ({ variant := .hk32f } : Part).variant = .hk32f ∧ ({ variant := .hk32b } : Part).variant = .hk32b ∧
    ({ variant := .hk16f } : Part).variant = .hk16f ∧ ({ variant := .hk16l } : Part).variant = .hk16l := by decide
theorem witness_SetSequenceFields : (0x05000 : Nat) ≠ 0x05004 := by decide
theorem witness_StatusWriteClearsShownEvents : up.portOn .a = true ∧ up.portOn .b = true ∧
    0x0B000 ∈ [0x00000, 0x00004, 0x0000C, 0x00024, 0x04000, 0x04004, 0x05000, 0x05004, 0x05048, 0x0504C, 0x06000, 0x07008, 0x08000,
        0x08008, 0x09000, 0x0A000, 0x0A010, 0x0B000] ∧ ∃ q, q < 64 ∧ 0x10040 + 0x100 * 63 = 0x10040 + 0x100 * q :=
  ⟨by decide, by decide, by decide, 63, by decide, rfl⟩

def locked : State := { up with cfg := (0x04008, 0x80000000) :: ports }
theorem witness_ConfigWriteIsWhole : locked.portOn .a = true ∧ locked.cfgLocked 0x04008 = true ∧
    rangeOk (0x03000 + 4 * 255) 5 = false ∧ (P { owner := 2 }).cfgOwner .a (0x18100 + 0x200 * 31) = false ∧
    (P { owner := 2 }).hasPort 31 = true ∧ (P { owner := 2 }).islandOff (0x10 + 31 / 8) = false ∧
    up.cfgLocked 0x04008 = false ∧ rangeOk 0x04008 0x80000000 = true ∧ up.cfgOwner .a 0x04008 = true ∧
    rangeOk (0x03000 + 4 * 255) 4 = true ∧ (P { owner := 1 }).cfgOwner .a (0x18100 + 0x200 * 31) = true := by decide

def lite : State := { up with part := { variant := .hk16l } }
theorem witness_DecodeFaults : up.portOn .a = true ∧ 0x60000 ≤ 0x60000 ∧ (0x30000 ≤ 0x3FFFF ∧ 0x3FFFF < 0x40000) ∧
    (0x1FFFF % 4 ≠ 0 ∧ ¬ (0x20000 ≤ 0x1FFFF ∧ 0x1FFFF < 0x30000)) ∧ (0xA4#8 ≠ 0xA5#8 ∧ 0xA4#8 ≠ 0xB4#8) ∧
    lite.portOn .a = true ∧ lite.hasPort 16 = false ∧ lite.hasPort 31 = false ∧ (0x1FC < 0x200 ∧ 0x1FC % 4 = 0) ∧
    State.reset.portOn .a = false ∧ (List.replicate 63 (0 : Word)).length < 64 ∧ (0xFFFC < 0x10000 ∨ 0x14000 ≤ 0xFFFC) := by decide

/-- A semaphore held by an owner. -/
def semHeld (o : Nat) : State := setSem 31 { owner := o } up
def unboundA : State := { up with hostA := {} }
theorem witness_SemTake : 31 < 32 ∧ up.portOn .a = true ∧ (up.host .a).bound = some (.localPort .a) ∧ (up.sem 31).owner = 0 ∧
    ((semHeld 1).sem 31).owner = hOwner .a ∧ ((semHeld 2).sem 31).owner = hOwner (hOther .a) ∧ (semHeld 2).portOn .a = true ∧
    ((semHeld 2).host .a).bound = some (.localPort .a) ∧ (unboundA.host .a).bound ≠ some (.localPort .a) ∧ unboundA.portOn .a = true ∧
    ((semHeld 2).sem 31).owner ≠ hOwner .a := by decide

theorem witness_MailboxAccess : Safety.Legal up ∧ 0x20000 ≤ 0x20000 ∧ 0x2DFFF < 0x2E000 ∧ 0x2DFFC % 4 = 0 ∧ up.portOn .a = true ∧
    up.portOn .b = true ∧ 0x2A002 - 0x2A002 % 4 = 0x2A001 - 0x2A001 % 4 := by unfold Safety.Legal; decide

/-- Queue 63 with a record. -/
def Q (r : Queue) : State := setQueue 63 r up
def anItem : Item := { typ := 1, flags := 0, source := 0, stamp := 0, payload := [1, 2, 3], banks := [], via := none }
theorem witness_QueuePopAndPush :
    let spilt : State := setQueue 63 { owner := .a, st := .flow, spillMib := 1, mid := [anItem] } { up with peat := { st := 2, mib := 4096 } }
    63 < 64 ∧ (List.replicate 62 (0 : Word)).length < 63 ∧ (Q {}).portOn .a = true ∧
    (Q { owner := .b }).popsQueue .a 63 = false ∧ (Q { owner := .a }).popsQueue .a 63 = true ∧ 63 ≠ 6 + hCode .a ∧
    ((Q { owner := .a, head := [anItem] }).queue 63).items = anItem :: [] ∧ ((Q { owner := .a, head := [anItem] }).queue 63).head ≠ [] ∧
    ((Q { mid := [anItem] }).queue 63).items = anItem :: [] ∧ (Q { mid := [anItem] }).spills ((Q { mid := [anItem] }).queue 63) = false ∧
    (spilt.queue 63).head = [] ∧ (spilt.queue 63).mid ≠ [] ∧ spilt.spills (spilt.queue 63) = true ∧ spilt.popsQueue .a 63 = true ∧ ((Q {}).queue 63).mid = [] ∧ ((Q {}).queue 63).tail = [] ∧
    (Q {}).pushesQueue .a 63 = false ∧ (Q { out := true }).pushesQueue .a 63 = true ∧
    ((Q { out := true, full := true }).queue 63).full = true ∧ ((Q { out := true }).queue 63).st = .disabled ∧
    (0x20000#32).toNat / 65536 % 16 ≠ 1 ∧ 4080 < (0x10FF1#32).toNat % 65536 ∧
    ((Q { out := true, st := .flow }).queue 63).full = false ∧ ((Q { out := true, st := .flow }).queue 63).st ≠ .disabled ∧
    (0x10FF0#32).toNat / 65536 % 16 = 1 ∧ 0 < (0x10FF0#32).toNat % 65536 ∧ (0x10FF0#32).toNat % 65536 ≤ 4080 ∧
    (0x10000#32).toNat % 65536 = 0 ∧ ((Q { out := true }).queue 63).push = none ∧
    ((Q { out := true, push := some { len := 5, data := [] } }).queue 63).push = some { len := 5, data := [] } ∧
    ((Q { out := true, push := some { len := 4, data := [] } }).queue 63).push = some { len := 4, data := [] } := by decide

def boundAway : State := { up with hostA := { bound := some (.svc 0) } }
/-- Host A bound through its port, whose port_enable is 0. -/
def unread : State := { up with cfg := [] }
def applied (q : List (Nat × Word)) : State := { up with lich := { writeQ := q } }
theorem witness_HostBlockAndLichenWrites : boundAway.portOn .a = true ∧ (boundAway.host .a).bound.isSome = true ∧
    (boundAway.host .a).bound ≠ some (.localPort .a) ∧ (unread.host .a).bound = some (.localPort .a) ∧ unread.portEnable .a = false ∧ (unboundA.host .a).bound = none ∧
    ({ unboundA with cfg := [] } : State).portEnable .a = false ∧
    (0x10040#32).getLsbD 16 = true ∧ ((0x10040#32).setWidth 8 - (unread.host .a).consN).toNat ≤ 64 ∧ (0x10040#32).getLsbD 17 = false ∧
    64 < ((0x10041#32).setWidth 8 - (unread.host .a).consN : BitVec 8).toNat ∧ (0x00041#32).getLsbD 16 = false ∧
    (up.host .a).bound = some (.localPort .a) ∧ (boundAway.host .a).bound ≠ some (.localPort .a) ∧
    State.reset.dev.phase ≠ .ready ∧ ({ up with dev := { phase := .starting } } : State).portOn .a = true ∧
    (({ up with hostA := { bound := some (.svc 0), prodN := 1 } } : State).host .a).consN ≠
      (({ up with hostA := { bound := some (.svc 0), prodN := 1 } } : State).host .a).prodN ∧ (0x10000#32).getLsbD 16 = true ∧
    (applied [(0, 0), (0, 0), (0, 0)]).lich.writeQ.length < 4 ∧ 4 ≤ (applied [(0, 0), (0, 0), (0, 0), (0, 0)]).lich.writeQ.length ∧
    (applied [(3, 9), (0, 1)]).lich.writeQ = (3, 9) :: [(0, 1)] ∧ up.lich.writeQ = [] ∧ 3 < 4 := by decide

def unack31 : State := { up with flts := [(31, { unack := true })] }
theorem witness_FaultControlsAndRequests : up.portOn .a = true ∧ (0x9F#32).toNat % 256 < 160 ∧ up.srcPresent 0x9F = true ∧
    160 ≤ (0xA0#32).toNat % 256 ∧ lite.srcPresent 31 = false ∧ 4 < 5 ∧ 31 < 32 ∧ up.srcPresent (32 * 4 + 31) = true ∧
    (unack31.flt 31).unack = true ∧ (0x1F#32).getLsbD 8 = false ∧ (1#32).getLsbD 0 = true ∧ (0#32).getLsbD 0 = false ∧
    ({ up with peat := { st := 2 } } : State).peat.st = 2 ∧ up.peat.st ≠ 2 := by decide

/-- CAN channel 7 with object 127, and the channel's other fields. -/
def C (c : Can) (o : CanObj) : State := setCan 7 { c with objs := [(127, o)] } up
theorem witness_CanObjectAccess : (C {} {}).portOn .a = true ∧ (C {} {}).hasCan 7 = true ∧ 127 < 128 ∧ (C {} {}).canGated = false ∧
    ((C { owner := 1 } { dir := 2 }).can 7).owner = hOwner .a ∧ (((C { owner := 1 } { dir := 2 }).can 7).obj 127).dir = 2 ∧
    (((C { owner := 1 } { dir := 2 }).can 7).obj 127).busy = false ∧ ((C { owner := 1 } { dir := 2 }).can 7).classicOnly = false ∧
    ((C { owner := 2 } {}).can 7).owner ≠ hOwner .a ∧
    (((C { owner := 1, st := 2, mode := 1 } { dir := 2, busy := true }).can 7).obj 127).busy = true ∧
    ((C { owner := 1, st := 2, mode := 1 } { dir := 2, busy := true }).can 7).onBus = true ∧
    ((C { owner := 1, st := 2, mode := 1 } { dir := 2, busy := true }).can 7).listens = false ∧
    ((C { owner := 1, st := 0 } { dir := 2, busy := true }).can 7).onBus = false ∧ (1#32).getLsbD 0 = true ∧
    (((C {} { dir := 1 }).can 7).obj 127).dir = 1 ∧ (((C {} { dir := 1 }).can 7).obj 127).lock = none ∧
    (((C {} { dir := 1, lock := some .a }).can 7).obj 127).lock = some .a ∧
    (((C {} { dir := 1, lock := some .a }).can 7).obj 127).hold = none := by decide

/-! ### Witnesses: ports and contracts -/

theorem witness_SinkAttach : (P {}).hasPort 31 = true ∧ (P {}).busRuns = true ∧ ((P { bus := .unattached }).port 31).bus = .unattached ∧
    ((P { bus := .unattached }).port 31).pd.sub ≠ .swHrWaitRd ∧ ((P { bus := .unattached }).port 31).pd.sub ≠ .goneSafe0 ∧ CcSeen.cc2 ≠ .both ∧
    ((P { bus := .unattached }).port 31).accessory = false ∧ ((P { bus := .attachWait }).port 31).bus = .attachWait ∧
    ((P { bus := .unattached }).port 31).bus ≠ .attachWait ∧ ((P { bus := .attachWait }).port 31).sw = .off ∧
    (P { bus := .attachWait }).board.rail5 = true ∧ ((P { bus := .powering, sw := .loRamp }).port 31).bus = .powering ∧
    ((P { bus := .powering, sw := .loRamp }).port 31).sw = .loRamp ∧
    ((P { bus := .powering, sw := .loRamp }).port 31).pd.st = .noContract := by decide

/-- A job below the hub at address 1, at the root, in a phase. -/
def job (l : At) (ph : JobPhase) : Job := { loc := l, speed := 1, depth := 1, phase := ph }
theorem witness_PullupDebounce : let z : State := { P { bus := .connectWait } with dev := { phase := .ready, power := .doze } }
    (P {}).pluGated 31 = false ∧ z.pluGated 31 = true ∧ z.busRuns = true ∧ z.hasPort 31 = true ∧ (z.port 31).bus = .connectWait ∧
    (P {}).hasPort 31 = true ∧ (P {}).busRuns = true ∧
    ((P { bus := .connectWait }).port 31).bus = .connectWait ∧ ((P { bus := .powerOnly }).port 31).bus = .powerOnly ∧
    ((P { bus := .connectDebounce }).port 31).bus = .connectDebounce ∧
    (P { jobs := [job (.hub 1 4) .debounce] }).jobAt 31 (.hub 1 4) = some (job (.hub 1 4) .debounce) ∧
    (job (.hub 1 4) .debounce).phase = .debounce := by decide

theorem witness_RootReset : let s (c : Bool) (v : Nat) : State := P { bus := .resetting, chirped := c, speed := v, jobs := [job .root .reset] }
    (s false 1).hasPort 31 = true ∧ (s false 1).busRuns = true ∧ (s false 1).jobAt 31 .root = some (job .root .reset) ∧
    (job .root .reset).phase = .reset ∧ ((s false 1).port 31).bus = .resetting ∧ 1000 ≤ 1000 ∧
    ((s false 1).port 31).policy.hsEnable = true ∧ ((s false 1).port 31).speed ≠ 0 ∧ ((s false 1).port 31).chirped = false ∧
    999 < 1000 ∧ ((s true 1).port 31).chirped = true ∧ ((s false 1).port 31).speed < 2 ∧ ((s false 0).port 31).speed = 0 := by decide

theorem witness_EnumerationWaits :
    let s (j : Job) : State := P { bus := .enumerating, jobs := [j] }
    let sets : Job := { job .root .setAddrWait with step := 3 }
    let failed (n : Nat) : Job := { job .root .request with fails := n }
    (s (job .root .recovery)).hasPort 31 = true ∧ (s (job .root .recovery)).busRuns = true ∧
    (s (job .root .recovery)).jobAt 31 .root = some (job .root .recovery) ∧
    (s (job .root .recovery)).resetAborted 31 (job .root .recovery) = false ∧ (job .root .recovery).phase = .recovery ∧
    (job .root .recovery).loc = .root ∧ (job (.hub 1 4) .recovery).loc = .hub 1 4 ∧
    (s (job (.hub 1 4) .recovery)).jobAt 31 (.hub 1 4) = some (job (.hub 1 4) .recovery) ∧
    (s sets).jobAt 31 .root = some sets ∧ sets.phase = .setAddrWait ∧ sets.step = 3 ∧
    (s (job .root .retryWait)).jobAt 31 .root = some (job .root .retryWait) ∧
    (s (job (.hub 1 4) .retryWait)).jobAt 31 (.hub 1 4) = some (job (.hub 1 4) .retryWait) ∧
    (s (failed 1)).jobAt 31 .root = some (failed 1) ∧ (failed 1).phase = .request ∧ (s (failed 1)).resetAborted 31 (failed 1) = false ∧
    (failed 1).addr = 0 ∧ ((s (failed 1)).port 31).bus = .enumerating ∧ (failed 1).fails < 2 ∧
    (s (failed 2)).jobAt 31 .root = some (failed 2) ∧ (s (failed 2)).resetAborted 31 (failed 2) = false ∧ (failed 2).fails = 2 := by decide

theorem witness_BabbleAndResume :
    let at_ (t : Option Nat) : State := { P { bus := .running, babbleAt := t } with dev := { phase := .ready, monoNs := 10000000005 } }
    let w (k : Bool) : Resume := { loc := .root, byHost := true, byInst := false, kDone := k }
    let r (k : Bool) : State := P { bus := .resuming, resume := some (w k) }
    let gone : State := { r false with dev := { phase := .ready, power := .doze, islandsOff := 0x80000 } }
    let wi (k : Bool) : Resume := { w k with byHost := false, byInst := true }
    let wh : Resume := { loc := .hub 1 4, byHost := true, byInst := false, kDone := true }
    let k : Scan := { w := wh, hubs := [], insts := [5], changed := [], waking := [] }
    (P {}).dev.power ≠ .doze ∧ bitOf ({ gone with power := { wakeEnable := 2 } } : State).power.wakeEnable 1 = true ∧ gone.dev.power = .doze ∧
    (at_ none).hasPort 31 = true ∧ (at_ none).busRuns = true ∧ ((at_ none).port 31).bus = .running ∧
    ((at_ (some 6)).port 31).babbleAt = some 6 ∧ (at_ (some 6)).dev.monoNs < 6 + 10000000000 ∧ ((at_ none).port 31).babbleAt = none ∧
    ((at_ (some 5)).port 31).babbleAt = some 5 ∧ 5 + 10000000000 ≤ (at_ (some 5)).dev.monoNs ∧
    ((P { bus := .suspended }).port 31).bus = .suspended ∧ ((r false).port 31).bus = .resuming ∧
    ((r false).port 31).resume = some (w false) ∧ (w false).kDone = false ∧ (w false).recovery = false ∧ (r false).busRuns = true ∧
    ((r true).port 31).resume = some (w true) ∧ (w true).kDone = true ∧ ((P { suspHub := [(1, 4)] }).port 31).resume = none ∧
    ((P { suspHub := [(1, 4)] }).port 31).suspHub.contains (1, 4) = true ∧ ((P { suspHub := [(1, 4)] }).port 31).resumeAt (.hub 1 4) = none ∧
    (r false).islandOff (0x10 + 31 / 8) = false ∧ gone.islandOff (0x10 + 31 / 8) = true ∧ gone.busRuns = true ∧ gone.hasPort 31 = true ∧
    (r true).islandOff (0x10 + 31 / 8) = false ∧ (w true).byInst = false ∧ (wi true).byInst = true ∧
    ((P { bus := .resuming, resume := some (wi true) }).port 31).resume = some (wi true) ∧
    (1 : Nat) ≠ 0 ∧ ((P { hubResumes := [wh] }).port 31).resumeAt (.hub 1 4) = some wh ∧ wh.kDone = true ∧
    ((P { scans := [k] }).port 31).scans = [k] ∧ k.hubs = [] ∧ k.insts = [5] ∧ k.changed = [] ∧ k.waking = [] ∧
    ((P { suspHub := [(1, 4)] }).port 31).scans = [] := by decide

def aHub : Inst := { addr := 1, parent := 0, parentPort := 0, depth := 1, speed := 2, hub := true, hubPorts := 4 }
/-- A hub whose configuration has one interface with an interrupt IN endpoint. -/
def hubCfg : List Byte := [9, 2, 25, 0, 1, 1, 0, 0xE0, 50, 9, 4, 0, 0, 1, 9, 0, 0, 0, 7, 5, 0x81, 3, 1, 0, 12]
def hubJob : Job := { loc := .root, speed := 2, depth := 1, phase := .request, step := 10, addr := 1, configs := [hubCfg], chosen := some 0 }
theorem witness_HubPorts : let s : State := P { bus := .running, tree := [aHub], jobs := [hubJob] }
    s.hasPort 31 = true ∧ s.busRuns = true ∧ (s.port 31).inst 1 = some aHub ∧ s.jobAt 31 (.hub 1 4) = none ∧ aHub.hub = true ∧
    ((s.port 31).jobs.find? fun j => j.addr == 1 && j.step == 10) = some hubJob ∧
    (parseCfg (hubJob.configs.getD (hubJob.chosen.getD 0) [])).isSome = true ∧ aHub.alts = [] := by decide

/-- An outstanding command of host A that runs on a key. -/
def running (op : Half) (key : Nat) : Op :=
  { host := .a, via := .localPort .a, tag := 9, opcode := op, flags := 0, params := [], bound := true, started := true, unit := key }
theorem witness_PortLeaves : (P { bus := .running }).hasPort 31 = true ∧ (P { bus := .running }).busRuns = true ∧
    ((P { bus := .running }).port 31).bus.powered = true ∧
    ((P { bus := .running }).port 31).pd.sub ≠ .gone ∧ ((D { sub := .gone }).port 31).pd.sub = .gone ∧ ((P { bus := .running, pd := { sub := .gone }, fetArmed := false }).port 31).fetArmed = false ∧
    ((D { sub := .gone }).port 31).bus.powered = true ∧
    ({ P { bus := .latchedOff } with ops := [running 0x0106 (keyPort 31)] } : State).opAt (keyPort 31) =
      some (running 0x0106 (keyPort 31)) ∧ (running 0x0106 (keyPort 31)).opcode = 0x0106#16 := by decide

def offers (d : PdRec) : State := D { d with sent5 := some 0, sent15 := true, caps := { amp5 := 0, en15 := true } }
theorem witness_OffersRequestsAndMessages :
    let rich (s : State) : State := { s with feedA := { st := .on }, ledger := { portW := 240 } }
    let poor (s : State) : State := { s with ledger := { portW := 0 } }
    let n := offers { st := .negotiating, tSender := true }
    31 < 32 ∧ (D {}).hasPort 31 = true ∧ (D {}).busRuns = true ∧ ((D { sends := 49 }).port 31).pd.st = .noContract ∧
    ((D { sends := 49 }).port 31).pd.quiet = false ∧ 0 < ((D { sends := 1 }).port 31).pd.sends ∧ ((D { sends := 49 }).port 31).pd.sends < 50 ∧
    50 ≤ ((D { sends := 50 }).port 31).pd.sends ∧ ((D { st := .transition, sub := .accepted }).port 31).pd.st = .transition ∧
    ((D { st := .transition, sub := .accepted }).port 31).pd.sub = .accepted ∧ (n.port 31).pd.st = .negotiating ∧
    (n.port 31).pd.tSender = true ∧ n.requestBad 31 3 100 100 false = some 1 ∧ n.requestBad 31 1 1023 1000 false = some 2 ∧
    n.requestBad 31 1 100 100 false = none ∧ volts 1 * 100 ≤ ((setPort 31 { n.port 31 with weight := 500 } n).port 31).weight ∧
    (rich n).refusing = false ∧ ((rich n).committed + (volts 1 * 100 - (((rich n).port 31).weight : Int)) : Int) ≤ (rich n).funds ∧
    (n.port 31).weight < volts 1 * 100 ∧ (poor n).funds < ((poor n).committed + (volts 1 * 100 - (((poor n).port 31).weight : Int)) : Int) ∧
    ((P {}).port 31).bus.powered = false ∧ ((D { st := .transition }).port 31).bus.powered = true ∧ ((D { st := .transition }).port 31).pd.st = .transition ∧
    ((D { st := .contract }).port 31).bus.powered = true ∧ ((D { st := .contract }).port 31).pd.st = .contract ∧
    ((D {}).port 31).pd.st ≠ .contract ∧ ((P { bus := .ufpSwapped }).port 31).bus = .ufpSwapped ∧ ((D {}).port 31).bus ≠ .ufpSwapped ∧
    ({ up with svc := { vbus := true } } : State).svc.vbus = true := by decide +kernel

theorem witness_TransitionsAndHardResets :
    let m (d : PdRec) (sw : Sw) (pg : Bool) : State := P { bus := .running, pd := d, sw := sw, pg := pg, rd := some .cc1 }
    31 < 32 ∧ (D {}).hasPort 31 = true ∧ (D {}).busRuns = true ∧
    (let r := (m { st := .transition, sub := .timing, newVolt := 1 } .loOn true).port 31
     r.pd.st = .transition ∧ r.pd.sub = .timing ∧ r.sw.volt = r.pd.newVolt ∧ r.pg = true) ∧
    (let r := (m { st := .transition, sub := .timing, newVolt := 2 } .loOn true).port 31
     r.pd.st = .transition ∧ r.pd.sub = .timing ∧ r.pd.newVolt = 2 ∧ r.sw = .loOn) ∧
    (let r := (m { st := .transition, sub := .timing, newVolt := 1 } .hiOn true).port 31
     r.pd.st = .transition ∧ r.pd.sub = .timing ∧ r.pd.newVolt = 1 ∧ r.sw = .hiOn) ∧
    ((m {} .gap false).port 31).sw = .gap ∧ ((m {} .stepdown false).port 31).sw = .stepdown ∧ (m {} .stepdown false).board.rail5 = true ∧
    (let r := (m { st := .transition, sub := .moving, newVolt := 2 } .hiRamp false).port 31
     r.bus ≠ .recovering ∧ r.pd.st = .transition ∧ r.pd.sub = .moving ∧ r.sw = .hiRamp ∧ r.pd.newVolt = 2 ∧ r.pg = false) ∧
    ((m {} .off false).port 31).bus ≠ .ufpSwapped ∧
    (let r := (m { st := .negotiating, tSender := true, resets := 2 } .loOn true).port 31; 2 ≤ r.pd.resets ∧ r.pd.st = .negotiating ∧ r.pd.tSender = true) ∧
    (let r := (m { st := .hardReset, sub := .hrWaitOpen } .loOn true).port 31; r.pd.st = .hardReset ∧ r.pd.sub = .hrWaitOpen) ∧
    (let r := (m { st := .hardReset, sub := .hrWaitSafe0 } .off false).port 31; r.sw.active = false ∧ r.pd.sub = .hrWaitSafe0) ∧
    (let s := P { bus := .powering, rd := some .cc1, pd := { st := .hardReset, sub := .hrRecover } }
     (s.port 31).rd.isSome = true ∧ (s.port 31).pd.sub = .hrRecover ∧ (s.port 31).sw = .off ∧ s.board.rail5 = true ∧
       (s.port 31).bus = .powering) := by decide

/-- A device whose OTP gives an identity. -/
def withId (s : State) : State := { s with otp := { live := { usbVid := some 1, usbPid := some 2, timebaseSvid := some 3 } } }
theorem witness_DataRoleSwaps :
    let c := withId (D { st := .contract })
    let u (d : PdRec) : State := withId (P { bus := .ufpSwapped, pd := d })
    let w : State := { D { st := .contract, ask := some .swap, askSent := true, swapTries := 9 } with ops := [running 0x0502 (keyPort 31)] }
    31 < 32 ∧ c.hasPort 31 = true ∧ c.busRuns = true ∧ (c.port 31).pd.st = .contract ∧ (c.port 31).pd.sub ≠ .swapDone ∧
    c.provisioned = true ∧ (c.port 31).pd.alt = false ∧ (c.port 31).renegRun = false ∧
    ((P { renegRun := true }).port 31).renegRun = true ∧ (D {}).provisioned = false ∧ ((D {}).port 31).pd.st ≠ .contract ∧
    (w.port 31).pd.ask = some .swap ∧ (w.port 31).pd.askSent = true ∧ (w.port 31).pd.sub ≠ .swapDone ∧
    w.opAt (keyPort 31) = some (running 0x0502 (keyPort 31)) ∧ w.abortAsked .a 9 = false ∧ (w.port 31).pd.swapTries < 10 ∧
    ((D { ask := some .swap }).port 31).pd.askSent = false ∧ ((u { st := .swapped, sub := .swapWaitSource }).port 31).bus = .ufpSwapped ∧
    ((u { st := .swapped, sub := .swapWaitSource }).port 31).pd.sub = .swapWaitSource ∧
    (u { st := .swapped, sub := .swapWaitSource }).provisioned = true ∧ (u { st := .swapped, sub := .swapWaitSource }).phyRails = true ∧ ((u { sub := .swapWaitCaps }).port 31).pd.sub = .swapWaitCaps ∧
    ((u { st := .swapped, sub := .swapDone }).port 31).pd.st ≠ .hardReset ∧ ((u { st := .swapped, sub := .swapDone }).port 31).pd.sub = .swapDone ∧
    ((u { st := .swapped, sub := .swapDone }).port 31).pd.ask = none ∧ ((u { sub := .swHrWaitRd }).port 31).pd.sub = .swHrWaitRd := by decide

theorem witness_ModesAndDiscovery :
    let a (x : PdAsk) : State := withId (D { st := .contract, ask := some x, askSent := true })
    let o := running 0x0505 (keyPort 31)
    let q (l : List Op) : State := { a .altSvids with ops := o :: l }
    let abort : Op := { running 0x0005 0 with tag := 10, args := [9] }
    ((D { alt := true }).port 31).pd.alt = true ∧ (q []).opAt (keyPort 31) = some o ∧ (q []).abortAsked .a 9 = false ∧
    (q [abort]).opAt (keyPort 31) = some o ∧ (q [abort]).abortAsked .a 9 = true ∧
    31 < 32 ∧ (a .enter).hasPort 31 = true ∧ (a .enter).busRuns = true ∧ (a .enter).provisioned = true ∧ VdmReq.svids ≠ .attention ∧
    VdmReq.svids ≠ .identity ∧ (D {}).provisioned = false ∧ ((a (.discover 1)).port 31).pd.ask = some (.discover 1) ∧ 1 ≠ 2 ∧
    ((a .altSvids).port 31).pd.ask = some .altSvids ∧ (svidsOf [0xFF010000, 0x00030000]).contains (a .altSvids).timebaseSvid = true ∧
    ((a .enter).port 31).pd.ask = some .enter ∧ ((a .exit).port 31).pd.ask = some .exit := by decide

theorem witness_ServicePower :
    let s (v : Svc) : State := { up with svc := v }
    let lost : State := { up with board := { rail15 := false } }
    State.reset.powered = true ∧ State.reset.svc.vbus = false ∧ State.reset.posting = false ∧ up.powered = true ∧ (s { vbus := true }).svc.vbus = true ∧
    ({ s { vbus := true } with feedA := { st := .on } } : State).feedPresent = true ∧
    (s { vbus := true, pd := { ufp := true, st := .negotiating } }).svc.pd.st = .negotiating ∧ (s { vbus := true }).svc.caps = false ∧
    (s { vbus := true }).svc.pd.st = .noContract ∧ (s { vbus := true, rp := 1 }).svc.rp ≠ sat 2 2 ∧ (s { vbus := true }).svc.waited = false ∧
    (s { vbus := true, waited := true, pd := { ufp := true, st := .contract } }).svc.pd.st ≠ .noContract ∧ (s { vbus := true, gate := true }).svc.gate = true ∧
    (s { vbus := true, gate := true }).dev.power ≠ .service ∧ (s { vbus := true, pause := true }).svc.pause = true ∧
    (s { vbus := true, pd := { ufp := false } }).svc.pd.ufp = false ∧ (s { vbus := true, pd := { ufp := false } }).svc.pd.ask = none ∧
    up.board.rail15 = true ∧ up.busRuns = true ∧ lost.board.rail15 = false ∧ lost.powered = true := by decide

/-! ### Witnesses: traffic, placement, the Ledger, the service function and trunks -/

theorem witness_Microframes :
    let k (h : Int) : State := { up with time := { gridOn := true, gridHalf := h }, stok := { place := [(8 * 31 + 7, 11)] } }
    let l : Sublist := { group := 8 * 31 + 7, te := 11, periodic := [], acyclic := [] }
    let t : State := { k 0 with stok := { place := [(8 * 31 + 7, 11)], lists := [l] } }
    up.dev.phase = .ready ∧ up.time.gridOn = false ∧ (k 26).dev.phase = .ready ∧ (k 26).time.gridOn = true ∧ (k 26).time.stepped = false ∧
    0 ≤ (k 26).time.gridHalf ∧ (k (-26)).time.gridHalf ≤ 0 ∧ -25 ≤ (k (-25)).time.gridHalf ∧ (k 25).time.gridHalf ≤ 25 ∧
    (k 0).hasPort 31 = true ∧ 7 < 8 ∧ (k 0).available 11 = true ∧ (k 0).engineOf (8 * 31 + 7) = some 11 ∧
    ((k 0).stok.lists.any fun l => l.group == 8 * 31 + 7 && l.te == 11) = false ∧
    { (k 0) with time := { gridOn := true, stepped := true, stepBy := -3700 } }.time.stepped = true ∧
    ({ gridOn := true, stepped := true, stepBy := -3700 } : Time).boundaryHalf = 242600 ∧
    ((k 0).stok.colds.any fun c => c.group == 8 * 31 + 7) = false ∧
    (t.stok.lists.any fun l => l.group == 8 * 31 + 7 && l.te == 11) = true := by decide

/-- Endpoint context 5 of port 31. -/
def aCtx (dirIn : Bool) (cls : Nat) (errs : Nat) : Ctx :=
  { addr := 1, ep := 1, dirIn := dirIn, type := if cls = 1 then 3 else 2, speed := 2, maxPacket := 512, bound := true, cls := cls, errCount := errs }
def K (c : Ctx) : State := setCtx (31 * 256 + 5) c up
theorem witness_TransactionResults :
    up.dev.phase = .ready ∧ (K (aCtx true 2 0)).ctx (31 * 256 + 5) = some (aCtx true 2 0) ∧ (aCtx true 2 0).bound = true ∧
    (aCtx true 2 0).cls ≤ 2 ∧ (aCtx false 0 0).dirIn = false ∧ (aCtx true 2 0).dirIn = true ∧
    (List.replicate 512 (0 : Byte)).length ≤ (aCtx true 2 0).maxPacket ∧ 2 ≤ (aCtx true 2 2).errCount ∧
    (aCtx true 1 0).periodic = true ∧ (∀ x ∈ (K (aCtx true 2 0)).xfers, x.epid ≠ 31 * 256 + 5) ∧ (aCtx true 2 0).devOwned = false ∧
    ((K (aCtx true 2 0)).stok.migs.any fun m => m.group == epGroup (31 * 256 + 5) && m.handed && !m.late) = false ∧
    (aCtx true 2 0).errCount ≠ 2 ∧ (aCtx true 1 2).cls ≠ 2 ∧ (aCtx true 1 2).errCount = 2 ∧ (aCtx true 1 1).errCount < 2 ∧
    2 ≤ ({ aCtx true 1 1 with exp := 1 } : Ctx).period ∧ (aCtx true 1 1).retryAt ≠ some up.txnG ∧ 0 < 4 ∧ 3 < 4 := by decide +kernel

theorem witness_PlacementAndMemories :
    let m : Mig := { group := 8 * 31 + 7, src := 1, dst := 2, handed := true }
    let s : State := { up with stok := { migs := [m] } }
    let spilt : State := setQueue 63 { st := .flow, spillMib := 1, mid := [anItem], head := List.replicate 8 anItem }
      { up with peat := { st := 2, mib := 4096 } }
    peatRegion 0x007FFFFF ≠ .spill ∧ peatRegion 0x04800000 = .spill ∧ peatRegion 0x00800000 = .trees ∧ peatRegion 0x00BFFFFF = .trees ∧
    peatRegion 0x03900000 = .recovery ∧ peatRegion 0x039FFFFF = .recovery ∧ spilt.peat.st = 2 ∧
    up.dev.phase = .ready ∧ up.hasPort 31 = true ∧ 7 < 8 ∧ (s.stok.migs.find? fun m => m.group == 8 * 31 + 7 && m.handed) = some m ∧
    up.available 11 = true ∧ 63 < 64 ∧ spilt.spills (spilt.queue 63) = true ∧ spilt.peat.st = 2 ∧ (spilt.queue 63).head.length ≤ 8 ∧
    (spilt.queue 63).mid ≠ [] ∧ 15 < 16 ∧ (up.pbank 15).st = 0 ∧ up.heldIn 15 = 0 ∧ 4 < up.pool.k ∧
    2 * up.poolUsed ≤ 6143 * (up.pool.k - 1) ∧
    (let seven : List (Nat × Nat) := List.replicate 7 (72 * 7 + 71, 0)
     let old : List (Nat × Nat) := List.replicate 15 (7, 0)
     logCount (72 * 7 + 71) (logSecond 0 (72 * 7 + 71, 0) []) < 8 ∧ 8 ≤ logCount (72 * 7 + 71) (logSecond 999999999 (72 * 7 + 71, 0) seven) ∧
     logCount (72 * 7 + 71) (logSecond 1000000000 (72 * 7 + 71, 0) seven) < 8 ∧ up.unitIsolated (.control 7) = false ∧
     up.testing (.control 7) = false ∧ logCount 7 (logSecond 1000000000 (7, 0) old) < 16 ∧ 16 ≤ logCount 7 (logSecond 999999999 (7, 0) old)) := by decide

theorem witness_LedgerStepsAndUnitTests :
    let l (r : Ledger) : State := { up with ledger := r }
    let t (u : TUnit) (w : TestFor) (n : Nat) : Test := { unit := u, who := w, stage := n }
    let s (x : Test) : State := { up with test := some x }
    let queued : State := { s (t (.engine 11) (.run .a 9) 1) with testQ := [t (.engine 3) (.run .b 8) 0] }
    let rot (n : Nat) : State := { up with stok := { rotNext := n } }
    up.dev.phase = .ready ∧ (115 : Int) * 10 ≤ 1150 ∧ (1150 : Int) < 1151 ∧ -300 < (l { pHeat := -299, heat := 1 }).ledger.pHeat ∧
    (l {}).ledger.heat = 0 ∧ (l { pHeat := -300, heat := 2 }).ledger.pHeat ≤ -300 ∧ (l { pHeat := -300, heat := 2 }).ledger.heat ≠ 0 ∧
    (l { pHeat := -300, heat := 2 }).ledger.heat ≠ 3 ∧ (l { tShedRun := true }).ledger.tShedRun = true ∧
    (l { feedLimit := true }).ledger.feedLimit = true ∧
    ((P { weight := 500 }).shedOrder.find? fun p => decide (0 < ((P { weight := 500 }).port p).weight)) = some 31 ∧
    (l { feedMoved := true, dMw := -20000 }).ledger.feedMoved = true ∧
    (let s : State := l { feedMoved := true, overheadW := 0 }
     s.feedPressure + sumBy (fun p => if (s.port p).shed then (s.port p).prior else 0) (upTo s.nPorts) ≤ 0) ∧
    (l { restoring := true }).ledger.restoring = true ∧
    ((P { shed := true }).shedOrder.reverse.find? fun p => ((P { shed := true }).port p).shed || ((P { shed := true }).port p).reneg) = some 31 ∧
    ((P { shed := true }).port 31).shed = true ∧ ((P { shed := true, bus := .disabled }).port 31).bus = .disabled ∧
    ((P { shed := true, bus := .latchedOff }).port 31).bus ≠ .disabled ∧ (rot 27).lostBank = none ∧
    ({ up with pool := { banks := [(15, { lost := true })] } } : State).lostBank = some (.payload 15) ∧ (up.shedOrder.reverse.find? fun p => (up.port p).shed || (up.port p).reneg) = none ∧
    (s (t (.engine 11) (.run .a 9) 0)).test = some (t (.engine 11) (.run .a 9) 0) ∧
    (s (t (.engine 11) (.run .a 9) 0)).canEvacuate (t (.engine 11) (.run .a 9) 0) = true ∧
    (t (.engine 11) (.run .a 9) 0).who = .run .a 9 ∧ queued.test = some (t (.engine 11) (.run .a 9) 1) ∧
    queued.testQ = [t (.engine 3) (.run .b 8) 0] ∧ (t (.engine 11) (.run .a 9) 1).stage ≠ 0 ∧
    TestFor.update 5 = .update 5 ∧ (rot 27).stok.rotNext = (rot 27).nEngines + 15 ∧ 15 < 16 ∧
    (rot 27).unitIsolated (.payload 15) = false ∧ (rot 27).testing (.payload 15) = false ∧ (rot 67).hasPort 31 = true ∧
    (rot 67).stok.rotNext = (rot 67).nEngines + (16 + (8 + 31)) ∧ (rot 67).cal = none ∧ (t (.control 7) .rotation 1).unit = .control 7 ∧
    (t (.control 7) .rotation 1).stage = 1 ∧ (t (.payload 15) .rotation 2).stage = 2 := by decide +kernel

theorem witness_ServiceFunctionAndHostTimers :
    let I (x : Instance) : State := { modInst 32 (fun _ => x) { up with hostA := { bound := some (.svc 32), semTimer := true } } with queues := [(63, { st := .flow, out := true })] }
    let cmd : List Byte := packetBytes 4 { via := .svc 32, delivered := 16, tag := 7, paramLen := 0, destId := 1, srcHost := 0x000A, flags := 0, crc := 0, params := [] }
    let s := I { attached := true, config := 1, setupLen := some 16, sending := some (64, anItem) }
    (s.inst 32).attached = true ∧ 16 ≤ 256 ∧ 15 < 16 ∧ 256 < 257 ∧ (s.inst 32).setupLen = some 16 ∧ s.hears (.svc 32) = true ∧
    s.cmdRoom (cmdQueue (s.senderOf (parsePacket (.svc 32) cmd).2) ((parsePacket (.svc 32) cmd).2.flags.getLsbD 2)) = true ∧
    s.replySlot (s.senderOf (parsePacket (.svc 32) cmd).2) = true ∧ s.svcReplies 32 < 16 ∧ (s.boundTo (.svc 32)).isSome = true ∧
    (setQueue 4 { depth := 4096, reserve := 4096 } s).replySlot .a = false ∧
    4 ≤ byteAt [0x41, 2] 0 % 128 ∧ ¬ (byteAt [0x41, 2] 0 = 0x41 ∧ byteAt [0x41, 2] 1 = 1) ∧ byteAt [0, 5, 127, 0] 1 = 5 ∧
    field [0, 5, 127, 0] 2 2 < 128 ∧ (s.inst 32).config ≠ 0 ∧ (s.inst 32).halts.contains 0x01 = false ∧ s.boundTo (.svc 32) = some .a ∧
    byteAt [63, 0, 2, 0, 8, 9] 0 < 64 ∧ s.pushesQueue .a 62 = false ∧ s.pushesQueue .a 63 = true ∧ s.pushRefused 63 1 4081 = true ∧
    s.pushRefused 63 1 2 = false ∧ (([63, 0, 2, 0, 8, 9].drop 4).take 2).length = 2 ∧
    ((I { attached := true }).inst 32).sending = none ∧ (s.inst 32).sending = some (64, anItem) ∧ (s.inst 32).suspended = false ∧
    (s.inst 32).halts.contains 0x83 = false ∧ s.svcReport 32 = (s.inst 32).report ∧
    (I { attached := true, config := 1, report := [1, 0, 0, 0] }).svcReport 32 ≠ ((I { attached := true, config := 1, report := [1, 0, 0, 0] }).inst 32).report ∧
    s.dev.phase = .ready ∧ s.dev.phase ≠ .warm ∧ ({ s with dev := { phase := .warm } } : State).dev.phase = .warm ∧ (s.host .a).semTimer = true ∧ (s.host .b).semTimer = false ∧
    ({ s with svc := { vbus := true } } : State).svc.vbus = true ∧ ({ s with svc := { vbus := true } } : State).svc.pd.ask = none ∧
    s.dev.power ≠ .service := by decide +kernel

/-- Trunk 3 with a record; the neighbour is device 2. -/
def T (t : Trunk) : State := setTrunk 3 t up
def aTopo (id : Half) (nb : List Half) : Topo :=
  { id := id, seqn := 0, uid := 9, withdrawn := false, kindling := false, links := nb.map fun n => { nbId := n, state := 3, ring := false } }
def aHdr (dst : Half) (n : Half) : FrameHdr := { cls := 2, replay := false, src := 2, dst := dst, hops := 1, queue := 6, seqn := n }
theorem witness_TrunkLinksAndFrames :
    let ka : KeepAlive := { id := 2, trunk := 0, ring := false, blocked := false, kindling := false, accepts := true, locked := false, uid := 5, freedA := 0, freedB := 0, freedC := 0, topoSeq := 0 }
    let b : State := { T { st := .blocked, nbId := 2 } with net := { recs := [aTopo 2 [1]] } }
    let e : Edge := { lo := 1, port := 3, hi := 2, ring := false }
    let u := T { st := .up, nbId := 2, nbUid := 5, sending := some { cls := 0, units := 1, body := [] } }
    let q (p : Pair) : State := setQueue 63 { st := .flow, srcDev := 2, srcQ := 6, pair := p } u
    let ev : State := { u with net := { evPairs := [{ dev := 2, host := .a }] } }
    up.dev.phase = .ready ∧ up.hasTrunk 3 = true ∧ ((T { st := .down }).trunk 3).st ≠ .off ∧ ((T { st := .down }).trunk 3).st = .down ∧
    ((T { st := .down }).trunk 3).phyBad = false ∧ 2 ≤ ((T { st := .probing }).trunk 3).st.code ∧
    ((T { st := .probing, run := 2 }).trunk 3).st = .probing ∧ ((T { st := .probing, run := 2 }).trunk 3).run < 3 ∧
    3 ≤ ((T { st := .probing, run := 3 }).trunk 3).run ∧ (u.trunk 3).st = .up ∧ (u.trunk 3).nbUid = ka.uid ∧ (u.trunk 3).nbId = ka.id ∧
    (u.trunk 3).st.linked = true ∧ ((T { st := .lost }).trunk 3).st = .lost ∧ b.net.recs.any (fun r => r.id == 2) = true ∧
    (b.trunk 3).st = .blocked ∧ b.dev.id.toNat < (b.trunk 3).nbId.toNat ∧
    pickKey true ((edges b.allTopo 3).filter fun e => (hopsTo (edges b.allTopo 4) e.lo e.hi).isNone) = some e ∧ e.lo = b.dev.id ∧ e.port = 3 ∧
    ({ aTopo 2 [] with uid := 0 } : Topo).uid = u.part.uid ∧ u.forMe (aHdr 4 0) = false ∧ u.forMe (aHdr 1 0) = true ∧
    field [1, 0, 7, 0] 0 2 ≠ 0x0008 ∧
    (({ u with hostA := { fwd := [(7, 2)] } } : State).hostA.fwd.contains (BitVec.ofNat 16 (field [1, 0, 7, 0] 2 2), (aHdr 1 0).src)) = true ∧
    (q { granted := 32, since := 30 }).pairQueue 2 6 = some 63 ∧ (aHdr 1 1).seqn = ((q { granted := 32, since := 30 }).queue 63).pair.inAdm + 1 ∧
    ((q { granted := 32, since := 30 }).queue 63).pair.since < ((q { granted := 32, since := 30 }).queue 63).pair.granted ∧
    ((q { granted := 32, since := 30 }).queue 63).pair.since + 1 < 32 ∧ (aHdr 1 5).seqn ≠ ((q {}).queue 63).pair.inAdm + 1 ∧
    ((q {}).queue 63).pair.granted ≤ ((q {}).queue 63).pair.since ∧ (aHdr 1 0).queue = 6 ∧
    ev.net.evPairs.find? (fun e => e.dev == (aHdr 1 0).src && e.host == .a) = some { dev := 2, host := .a } ∧
    ({ dev := 2, host := .a } : EvPair).pair.admits (aHdr 1 0) = false ∧ u.time.pps ≠ .locked ∧
    ({ u with time := { pps := .locked } } : State).time.pps = .locked ∧ (1000000000#64).toNat / 1000000000 ≠ u.time.now.toNat / 1000000000 ∧
    (u.trunk 3).sending = some { cls := 0, units := 1, body := [] } ∧ 0 < ((q { sent := 1 }).queue 63).pair.sent ∧
    63 ≠ 6 ∧ 63 ≠ 7 ∧ 0 < ((q { since := 1 }).queue 63).pair.since := by decide +kernel

/-- The links' failures, records that go on, and frames that end here or cut through. -/
theorem witness_TrunkLinksAndFrames2 :
    let u := T { st := .up, nbId := 2, nbUid := 5 }
    let adm : State := { u with net := { evPairs := [{ dev := 2, host := .a, pair := { granted := 32, since := 30 } }] } }
    let far : State := { u with hostA := { bound := some (.trunk 3 2) }, queues := [(8, { owner := .a, st := .flow })] }
    let x : Passing := { type := 3, credit := false, hdr := { aHdr 4 0 with cls := 0, hops := 254 }, payload := [1] }
    let cut : State := setTrunk 2 { st := .up, nbId := 4, grant := [17, 1, 1] } { u with net := { routes := [(2, 4, 7)] } }
    let v : State := frameError 3 2 (modTrunk 3 (fun t => { t with fcsErrs := t.fcsErrs + 1, discards := t.discards + 1 }) cut)
    ((T { st := .down, phyBad := true }).trunk 3).phyBad = true ∧ (u.trunk 3).st ≠ .down ∧ ((T { st := .probing }).trunk 3).st.code = 2 ∧
    (aTopo 2 []).uid ≠ u.part.uid ∧ (aTopo 2 []).withdrawn = false ∧ 254 < 255 ∧
    u.net.recs.find? (fun x => x.id == (aTopo 2 []).id && x.uid == (aTopo 2 []).uid) = none ∧
    u.macOk { aHdr 1 0 with mac := some 7 } = false ∧ u.macOk (aHdr 1 0) = true ∧ u.macOk { aHdr 1 0 with mac := some 1 } = true ∧
    adm.net.evPairs.find? (fun e => e.dev == (aHdr 1 1).src && e.host == .a) = some { dev := 2, host := .a, pair := { granted := 32, since := 30 } } ∧
    ({ granted := 32, since := 30 } : Pair).admits (aHdr 1 1) = true ∧ ({ granted := 32, since := 30 } : Pair).since + 1 < 32 ∧
    8 ≤ ({ aHdr 1 0 with queue := 8 } : FrameHdr).queue ∧ ({ aHdr 1 0 with queue := 8 } : FrameHdr).queue < 64 ∧
    far.pairDest (far.queue 8) = some ({ aHdr 1 0 with queue := 8 } : FrameHdr).src ∧ (cut.trunk 3).st.linked = true ∧
    cut.forMe x.hdr = false ∧ cut.macOk x.hdr = true ∧ x.hdr.hops < 255 ∧ v.route x.hdr.dst x.hdr.cls = some 2 ∧
    v.cutsThrough 2 x.hdr.cls = true := by decide +kernel

/-! ### Witnesses: the power die, CAN, time, power states, faults and starts -/

theorem witness_PathProtection : let s (sw : Sw) (l g : Bool) : State := P { bus := .running, sw := sw, atLimit := l, pg := g }
    (s .loOn true true).hasPort 31 = true ∧ (s .loOn true true).powered = true ∧ ((s .loOn true true).port 31).sw = .loOn ∧
    ((s .hiRamp false false).port 31).sw = .hiRamp ∧ ((s .off false false).port 31).atLimit = false ∧
    ((s .hiOn true true).port 31).atLimit = true ∧ ((s .hiOn true true).port 31).sw.isOn = true ∧
    ((s .loRamp true false).port 31).atLimit = true ∧ ((s .loRamp true false).port 31).sw.ramps = true ∧
    ((s .hiOn true true).port 31).sw = .hiOn ∧ ((s .hiOn false true).port 31).atLimit = false ∧ (139 : Nat) < 140 ∧ (8 : Nat) < 9 ∧ (100 : Nat) ≤ 100 ∧
    ((P { sw := .off, fetArmed := true }).port 31).fetArmed = true ∧ ((P { sw := .latched }).port 31).sw = .latched ∧
    ((P { sw := .off, fetArmed := true }).port 31).bus ≠ .ufpSwapped ∧
    ((s .loOn true true).port 31).sw.ramps = false ∧ 60 < 61 ∧ 60 ≤ 60 ∧ ((s .loOn true true).port 31).pg = true ∧
    ((s .loOn true true).port 31).sw.isOn = true := by decide

def F (f : Feed) (seated : Bool) : State := { up with feedB := f, board := { seated := seated } }
theorem witness_FeedsAndSeating :
    let s (f : Feed) : State := F f true
    let svc : State := { s { st := .precharge, ramping := true } with dev := { phase := .reset, power := .service } }
    (F {} false).powered = true ∧ ((F {} false).feed .b).st = .absent ∧ (F {} false).board.seated = false ∧ (s {}).board.seated = true ∧
    ((s {}).feed .b).retry = false ∧ ((s {}).feed .b).isolated = false ∧ ((s { retry := true }).feed .b).retry = true ∧
    ((s { isolated := true }).feed .b).isolated = true ∧ ((s { st := .on }).feed .b).st ≠ .absent ∧ ((s { st := .on }).feed .b).st = .on ∧
    ((s { st := .waiting }).feed .b).st = .waiting ∧ ((s { st := .retry, isolated := true }).feed .b).isolated = true ∧
    ((s { st := .precharge, ramping := true }).feed .b).st = .precharge ∧ ((s { st := .precharge, ramping := true }).feed .b).ramping = true ∧
    (s { st := .precharge, ramping := true }).dev.power ≠ .service ∧ svc.dev.power = .service ∧ svc.power.wake = none ∧ svc.powered = true ∧
    ((s { st := .limit }).feed .b).st = .limit ∧ ((s { st := .limit }).feed .b).gives = true ∧
    ((s { st := .retry, retry := true }).feed .b).retry = true ∧ ((s { st := .retry, retry := true }).feed .b).st = .retry ∧
    ((s { st := .retry, retry := true }).feed .b).isolated = false := by decide

theorem witness_RailsAndHold : up.powered = true ∧ up.board.rail5 = true ∧ ({ up with board := { rail5 := false } } : State).board.rail5 = false ∧
    up.board.tHold = false ∧ ({ up with board := { tHold := true } } : State).board.tHold = true := by decide

def aFrame : CanFrame := { ide := false, id := 5, rtr := false, fdf := false, brs := false, esi := false, dlc := 1, data := [7], ago := 0 }
theorem witness_CanChannels :
    let c : Can := { st := 2, mode := 1 }
    let m (on : Bool) (n : Nat) : TimeMaster := { ident := 0x10, prio := 2, cycle := 1000, active := on, quietCycles := n }
    let s (c : Can) (o : CanObj) : State := C c o
    let ref := s { c with master := some { m true 0 with due := some 9 } } {}
    up.dev.phase = .ready ∧ (s c {}).hasCan 7 = true ∧ ((s { c with st := 1 } {}).can 7).st = 1 ∧ ((s c {}).can 7).st ≠ 1 ∧
    ((s { c with st := 5, mode := 3 } {}).can 7).st = 5 ∧ ((s c {}).can 7).st ≠ 5 ∧
    ((s { c with mode := 4 } {}).can 7).mode = 4 ∧ ((s { c with mode := 4, st := 5, heard := true } {}).can 7).hears = true ∧
    ((s { c with mode := 2 } {}).can 7).mode = 2 ∧ ((s { c with mode := 2 } {}).can 7).onBus = true ∧ ((s c {}).can 7).hears = true ∧
    ((s c {}).can 7).mode = 1 ∧ aFrame.lost = none ∧ 127 < 128 ∧
    (((s c { lock := some .a }).can 7).obj 127).lock.isSome = true ∧ (((s c { lock := some .a }).can 7).obj 127).hold = none ∧
    (((s c {}).can 7).obj 127).lock = none ∧ ((s { c with st := 4 } {}).can 7).st = 4 ∧ ((s { c with st := 4 } {}).can 7).offHeld = false ∧
    ((s { c with st := 4, offHeld := true } {}).can 7).offHeld = true ∧ ((s c {}).can 7).st = 2 ∧ ((s c {}).can 7).listens = false ∧
    (((s c { busy := true, dir := 2 }).can 7).obj 127).busy = true ∧ (((s c { busy := true, dir := 2 }).can 7).obj 127).dir = 2 ∧
    (let e : CanErr := { sending := none }
     e.sending = none ∧ e.lost = none ∧ e.dataPhase = false) ∧
    (let e : CanErr := { sending := some 128, ackError := true }
     e.sending = some 128 ∧ e.dataPhase = false ∧ e.ackError = true ∧ e.stuffArb = false) ∧
    (ref.can 7).refDue = some (0x12, 9) ∧ (ref.can 7).st = 2 ∧ (ref.can 7).listens = false ∧
    ((s { c with master := some (m true 0) } {}).can 7).master = some (m true 0) ∧ (m true 0).active = true ∧ (m false 2).active = false ∧
    2 ≤ (m false 2).quietCycles ∧ (m false 1).quietCycles < 2 ∧ (m true 0).ident.getLsbD 31 = false ∧
    (0x11 : BitVec 29).toNat / 8 = (m true 0).ident.toNat % 2 ^ 29 / 8 ∧ (0x11 : BitVec 29).toNat % 8 < (m true 0).prio := by decide

/-- The frame clause: a filter element that passes the frame and a receive object for its identifier, locked or not; and none. -/
theorem witness_CanFrame : let s (l : Option HostId) := C { st := 2, mode := 1, filters := [(3, (0xC0000005, 0x1FFFFFFF))] } { dir := 1, ident := 5, lock := l }
    let g (l : Option HostId) := (receiveOk 7 false (s l)).can 7
    (∃ i e, filterOf ((g none).filtersFor 0) aFrame = some (i, e) ∧ e.2.getLsbD 31 = false ∧ (g none).objFor aFrame = some 127) ∧
      ((g none).obj 127).lock = none ∧ ((g (some .a)).obj 127).lock.isSome = true ∧
      filterOf (((receiveOk 7 false (C { st := 2, mode := 1 } {})).can 7).filtersFor 0) aFrame = none :=
  ⟨⟨3, (0xC0000005, 0x1FFFFFFF), by decide⟩, by decide⟩

theorem witness_PlantTime : let s (t : Time) : State := { up with time := t }
    up.timeOn = true ∧ up.ppsDrives = true ∧ up.time.lastPulse = none ∧ up.time.second + 1 = up.time.now.toNat / 1000000000 + 1 ∧ up.time.lastEdge = none ∧
    (s { lastEdge := some 0, glitchOpen := true }).edgeValid (((1000500001#64 : DWord).toNat : Int) - (s { lastEdge := some 0 }).ppsDelay) = false ∧
    (s { lastEdge := some 0, glitchOpen := true }).time.glitchOpen = true ∧ (s { pps := .locked }).time.pps = .locked ∧
    (s { pps := .acquiring }).time.pps = .acquiring ∧ (s { pps := .free }).time.pps = .free ∧ (s { pps := .holdover }).time.pps = .holdover ∧
    (s { pps := .free }).time.pps ≠ .holdover ∧ (s { pps := .free }).time.pps ≠ .locked ∧
    (s { now := 0x7FFFFFFFFFFFFFFF }).time.now.toNat + 1000000000 < 2 ^ 64 ∧ (s {}).time.alt = false ∧ (s { alt := true }).time.alt = true ∧
    up.powered = true ∧ up.lich.slowFallback = false ∧ ({ up with lich := { slowFallback := true } } : State).lich.slowFallback = true := by decide

theorem witness_EntryAndWakeSteps :
    let e (t n : Nat) : Entry := { target := t, wakeEnable := 0xF, wakeAfter := 9, host := .a, tag := 9, asked := n }
    let s (t n : Nat) : State := { up with power := { entry := some (e t n) } }
    let agreed (t n : Nat) (code : Nat) : State := modPower (fun w =>
      { w with entry := w.entry.map fun x => { x with asked := x.asked + 1, agreed := x.agreed ++ [code] } }) (entryAction t code (s t n))
    let z (p : PowerState) (en : Nat) : State := { up with dev := { phase := .ready, power := p }, power := { wakeEnable := en, wakeAfter := 5 } }
    let busyPort : State := setPort 31 { bus := .enumerating } (s 2 0)
    let slow : State := setPort 31 { bus := .resuming } (s 2 0)
    let w (n : Nat) (l : PowerState) (a : Bool) : Wake := { step := n, left := l, cause := 1, alt := a }
    let v (n : Nat) (l : PowerState) (a : Bool) : State := { up with power := { wake := some (w n l a) } }
    up.powered = true ∧ up.power.entry = none ∧ (s 2 0).power.entry = some (e 2 0) ∧ (e 2 0).delayed = false ∧
    (askOrder 2 .run)[0]? = some 0x10 ∧ (askOrder 2 .run)[3]? = some 0x13 ∧ slow.entryAnswer 0x13 false = .delay 4 ∧
    busyPort.entryAnswer 0x13 false = .refuse 3 ∧ (s 2 0).entryAnswer 0x10 false = .agree ∧ (agreed 2 0 0x10).power.entry.isSome = true ∧
    1 < (askOrder 2 .run).length ∧ (askOrder 2 .run)[15]? = some 11 ∧ (s 2 15).entryAnswer 11 false = .agree ∧ ¬ 16 < (askOrder 2 .run).length ∧
    (askOrder 3 .run)[22]? = some 0x25 ∧ (s 3 22).entryAnswer 0x25 false = .agree ∧ ¬ 23 < (askOrder 3 .run).length ∧
    (z .doze 0xF).power.entry = none ∧ (z .doze 0xF).power.wake = none ∧ (z .doze 0xF).dev.power = .doze ∧ (z .hibernate 0).dev.power = .hibernate ∧
    8 ∈ [2, 3, 4, 5, 8] ∧ triggerOn .doze 0xF 3 = true ∧ triggerOn .hibernate 0 2 = false ∧ (z .doze 0).power.wakeAfter ≠ 0 ∧
    up.power.wakeAfter = 0 ∧ (v 1 .run false).power.wake.isSome = true ∧ up.power.wake = none ∧ up.power.retry = false ∧
    (v 1 .run false).power.wake = some (w 1 .run false) ∧ (v 1 .run false).coreRails = true ∧ (w 3 .hibernate false).left = .hibernate ∧
    (w 3 .run false).left ≠ .hibernate ∧ (w 4 .hibernate false).step = 4 ∧ (w 5 .doze false).left = .doze ∧ (w 5 .run false).left ≠ .doze ∧
    (w 2 .hibernate true).left = .hibernate ∧ (w 2 .run true).left ≠ .hibernate ∧ (w 5 .service false).left = .service ∧
    (w 5 .run false).left ≠ .service ∧
    (stepTimeout 1 0xFF 1000 (railLost 7 (v 1 .run false))).coreRails = true ∧
    (stepTimeout 1 0xFF 1000 (railLost 1 (v 1 .run false))).coreRails = false ∧ (w 2 .run true).alt = true ∧ 0x24 ≠ 0x25 ∧
    (0x23 : Nat) ≠ 0x24 ∧ ({ v 1 .run false with power := { wake := some (w 1 .run false), retry := true } } : State).power.retry = true := by decide +kernel

/-- The triggers while an entry or a wake runs and while RESET_N is low, and the steps of islands whose rail came back. -/
theorem witness_EntryAndWakeSteps2 :
    let e (t n : Nat) : Entry := { target := t, wakeEnable := 0xF, wakeAfter := 9, host := .a, tag := 9, asked := n }
    let s (t n : Nat) : State := { up with power := { entry := some (e t n) } }
    let w (n : Nat) (l : PowerState) : Wake := { step := n, left := l, cause := 1 }
    let dz (en : Nat) : State := { s 3 0 with dev := { phase := .ready, power := .doze }, power := { entry := some (e 3 0), wakeEnable := en } }
    let low : State := { State.reset with dev := { resetLow := true } }
    let rs (n : Nat) : State := { up with power := { railStep := n } }
    let woken (en : Nat) : State := { up with dev := { phase := .ready, power := .doze }, power := { wakeEnable := en, wake := some (w 1 .doze) } }
    low.powered = true ∧ low.dev.phase = .reset ∧ low.dev.resetLow = true ∧ State.reset.dev.resetLow = false ∧ up.dev.phase ≠ .reset ∧
    (dz 2).power.entry = some (e 3 0) ∧ (dz 2).dev.power = .doze ∧ triggerOn .doze (dz 2).power.wakeEnable 3 = true ∧ (s 2 0).dev.power ≠ .hibernate ∧
    triggerOn .doze (dz 0).power.wakeEnable 3 = false ∧ (s 2 0).dev.power ≠ .doze ∧ triggerOn .doze (e 2 0).wakeEnable 3 = true ∧
    triggerOn .hibernate (e 3 0).wakeEnable 3 = false ∧ (rs 0).power.railStep = 0 ∧ (rs 3).power.railStep = 3 ∧ (rs 5).power.railStep = 5 ∧
    (woken 2).power.wake.isSome = true ∧ (woken 2).dev.power = .doze ∧ triggerOn .doze (woken 2).power.wakeEnable 3 = true ∧
    triggerOn .doze (woken 0).power.wakeEnable 3 = false ∧ ({ w 3 .run with cold := true } : Wake).cold = true ∧ (w 5 .doze).cold = false := by decide +kernel

theorem witness_SupplyRails :
    let m (x : BitVec 8) : State := { up with power := { missing := x } }
    up.powered = true ∧ 1 ≤ 1 ∧ 8 ≤ 8 ∧ ({ up with dev := { power := .hibernate } } : State).dev.power = .hibernate ∧ up.power.wake = none ∧
    up.railOut 8 = false ∧ 1 ∈ [1, 3, 5, 6] ∧ 8 ∈ [2, 4, 7, 8] ∧ State.reset.dev.phase = .reset ∧ ({ up with dev := { phase := .waking } } : State).dev.phase = .waking ∧
    (m 0x80).railOut 8 = true ∧ up.dev.power ≠ .hibernate ∧ up.dev.phase ≠ .reset ∧ up.railOut 1 = false ∧ up.railOut 3 = false ∧
    up.railOut 5 = false ∧ (m 0x01).railOut 1 = true ∧ (m 0x20).railOut 6 = true ∧ (m 0x40).railOut 7 = true := by decide

theorem witness_FaultsParityAndMergedEvents :
    let bad : State := { up with cfg := (0x04008, 0x80000001) :: ports, cfgBad := [0x04008], cfgCopy := [(0x04008, 0x80000000)] }
    let e : AshEntry := { time := 0, source := 1, sub := 1, level := 1, injected := false, escalated := false, kind := 0, detail := 0 }
    let full : State := { up with lich := { ash := { writeOffset := 12272, buffer := [e] } } }
    let g (t : Trunk) : State := T t
    up.powered = true ∧ up.coresRun = true ∧ up.dev.phase ≠ .waking ∧ State.reset.coresRun = false ∧ up.dev.phase = .ready ∧ 11 < 12 ∧
    up.ledger.sensorsOut.contains 11 = false ∧ (repairLocks bad).isConfig 0x033FC = true ∧ (repairLocks bad).cfgGated 0x033FC = false ∧
    (repairLocks bad).isConfig 0x03400 = false ∧ up.lich.ash.buffer = [] ∧ full.lich.ash.buffer = e :: [] ∧ full.peat.st ≠ 2 ∧
    12272 ≤ full.lich.ash.writeOffset ∧ (P {}).hasPort 31 = true ∧ ((P {}).port 31).svcEps = [] ∧ ((P { svcEps := [5] }).port 31).svcEps ≠ [] ∧
    up.hasCan 7 = true ∧ ((C {} {}).can 7).evObjs = [] ∧ ((C { evObjs := [127] } {}).can 7).evObjs ≠ [] ∧ up.hasTrunk 3 = true ∧
    ((g { errOpen := true }).trunk 3).errOpen = true ∧ ((g {}).trunk 3).errOpen = false ∧
    ({ up with net := { tcWait := true } } : State).net.tcWait = true ∧ up.net.tcWait = false ∧ up.time.glitches = 0 ∧
    ({ up with time := { glitches := 1 } } : State).time.glitches ≠ 0 ∧
    ({ up with flts := [(159, { limited := true, pendingRep := true })] } : State).flt 159 = { limited := true, pendingRep := true } := by decide

def env (x c o : Bool) (a b : SlotFound) : StartEnv := { otpOk := o, xtal := x, clkAlt := c, peatOk := true, slot0 := a, slot1 := b, badRecords := [] }
theorem witness_ColdStarts :
    let ready (v : StartEnv) (s : State) : State := startSteps v (startClock v.xtal (modPower (fun w => { w with retry := false })
      (startRecords v (modDev (fun d => { d with resetLow := false }) { s with otp := { s.otp with live := s.otp.fields } }))))
    let old : State := { State.reset with otp := { lifeCycle := 3 } }
    let ok := env true false true (.valid 1 1) .empty
    let none_ := env false true true .noAnswer .noAnswer
    let bad := env true true true .badFormat .badSignature
    State.reset.powered = true ∧ State.reset.dev.phase = .reset ∧ State.reset.coreRails = true ∧
    ({ State.reset with dev := { power := .service }, svc := { gate := true } } : State).svc.gate = true ∧
    (env false false true .empty .empty).xtal = false ∧ ok.xtal = true ∧ none_.clkAlt = true ∧ 0x24 ∈ ({ ok with islands := [0x24] } : StartEnv).islands ∧ 0x24 ∉ ok.islands ∧ 0x25 ∉ ok.islands ∧ (ready ok old).otp.lifeCycle = 3 ∧
    (ready ok State.reset).otp.lifeCycle ≠ 3 ∧ (env true false false .empty .empty).otpOk = false ∧
    (ready ok { State.reset with lich := { bootCount := 255 } }).bootThreshold ≤ (ready ok { State.reset with lich := { bootCount := 255 } }).lich.bootCount ∧
    (ready ok State.reset).lich.bootCount < (ready ok State.reset).bootThreshold ∧
    (trySlots ok 0).find? (fun x => slotValid x.2) = some (0, .valid 1 1) ∧ (trySlots none_ 0).find? (fun x => slotValid x.2) = none ∧
    (trySlots none_ 0).all (fun x => x.2 == .noAnswer) = true ∧ (trySlots bad 0).find? (fun x => slotValid x.2) = none ∧
    (trySlots bad 0).all (fun x => x.2 == .noAnswer) = false := by decide +kernel

theorem witness_StartsAndRestarts :
    let ph (p : Phase) : State := { up with dev := { phase := p } }
    let wk (l : PowerState) : Wake := { step := 6, left := l, cause := 1 }
    let wake (l : PowerState) : State := { ph .waking with power := { wake := some (wk l) } }
    let wr (f u : Bool) : Warm := { slot := 1, before := 0, fellBack := f, update := u }
    let warm (f u : Bool) : State := { ph .warm with warm := some (wr f u) }
    (ph .off).dev.phase = .off ∧ (ph .starting).powered = true ∧ (ph .starting).dev.phase = .starting ∧ (warm false true).dev.phase = .warm ∧
    (warm false true).warm = some (wr false true) ∧ (wake .hibernate).dev.phase = .waking ∧ (wake .hibernate).power.wake = some (wk .hibernate) ∧
    (wk .service).left = .service ∧ (wk .doze).left = .doze ∧ (wk .hibernate).left ≠ .doze ∧ (wk .hibernate).left ≠ .service ∧ up.dev.phase = .ready ∧ up.warm = none ∧ (wr true false).fellBack = true ∧
    (wr false true).update = true ∧ (wr false false).update = false ∧ up.ready = true ∧ State.reset.ready = false ∧
    ({ up with dev := { resetLow := true } } : State).dev.resetLow = true ∧ up.dev.resetLow = false := by decide

theorem witness_FlashOtpAndTamper :
    let s (b : FwBusy) (x : Slot) : State := { up with fw := { busy := b, slot1 := x } }
    let o (w : OtpWrite) : State := { up with otp := { writing := some w } }
    up.powered = true ∧ (s (.erasing 1 .a 9) {}).fw.busy = .erasing 1 .a 9 ∧ (s (.verifying 1 .a 9) {}).fw.busy = .verifying 1 .a 9 ∧
    ((s (.verifying 1 .a 9) {}).slot 1).spoilt = false ∧ ((s (.verifying 1 .a 9) { spoilt := true }).slot 1).spoilt = true ∧
    ((s (.verifying 1 .a 9) {}).slot 1).known = false ∧ ((s (.verifying 1 .a 9) { known := true }).slot 1).known = true ∧
    headerOk (((s (.verifying 1 .a 9) { known := true }).slot 1).read 0 256) = false ∧
    up.fw.busy = .idle ∧ up.otp.writing = none ∧ (o (.field 9 7)).otp.writing = some (.field 9 7) ∧
    (o (.lifeCycle 3)).otp.writing = some (.lifeCycle 3) ∧ ({ up with sec := { tamperLow := true } } : State).sec.tamperLow = true ∧
    up.sec.tamperLow = false ∧ ({ up with sec := { zeroising := true } } : State).sec.zeroising = true ∧ up.sec.zeroising = false := by decide

/-! ### Witnesses: host commands that pass acceptance -/

/-- A packet of host A through its own port, with force where the command needs it. -/
def pk (op : Nat) (ps : List Byte) : Packet :=
  let p : Packet := { via := .localPort .a, delivered := 16 + ps.length, tag := 7, paramLen := BitVec.ofNat 16 ps.length, destId := 1,
                      srcHost := 0x000A, flags := if needsForce op then 8 else 0, crc := 0, params := ps }
  { p with crc := crc32c (head12 op p ++ ps) }
/-- The state in which host A holds SEM0. -/
def sem0A (s : State) : State := { s with sems := [(0, { owner := 1 })] }
/-- The command passes acceptance in a state where host A holds SEM0. -/
def acc (op : Nat) (c : CmdSpec) (ps : List Byte) (s0 : State) : Bool :=
  let s := sem0A s0
  let p := pk op ps
  s.dev.phase == .ready && s.hears p.via && s.senderOf p == .a && s.replySlot .a && Safety.intact op p && p.destId != 0 &&
  (p.destId == 0xFFFF#16 || p.destId == s.dev.id) && s.acceptStatus op (some c) .a p == none && !p.flags.getLsbD 1 &&
  Safety.noItem s .a p.tag && s.cmdRoom (cmdQueue .a (p.flags.getLsbD 2)) && !s.behind p.via (p.flags.getLsbD 2) && s.noneWaits
theorem acc_accepted {op : Nat} {c : CmdSpec} {ps : List Byte} {s : State} (h : acc op c ps s = true) :
    Safety.Accepted op c .a (pk op ps) (sem0A s) := by
  simpa [acc, Safety.Accepted, and_assoc] using h
/-- Host A has the outstanding command with tag 9, started or not. -/
def withOp (o : Op) (s : State) : State := { s with ops := s.ops ++ [o] }
/-- An ordered command that waits for another ordered one. -/
def waiting : Op := { running 0x0204 0 with started := false, flags := 2 }
def withWaiting (s : State) : State := withOp waiting (withOp { running 0x0106 (keyPort 31) with tag := 8, flags := 2 } s)
def doneRec : DoneRec := { tag := 9, opcode := 4, status := 0, cseq := 1, result := some [] }

theorem witness_DeviceAndOperationCommands :
    let u := up
    let doze : State := { up with dev := { phase := .ready, id := 1, power := .doze } }
    let entering : State := { up with power := { entry := some { target := 2, wakeEnable := 0, wakeAfter := 0, host := .a, tag := 9 } } }
    let unbound : State := { up with hostA := {} }
    let held : State := { up with sems := [(0, { owner := 1 }), (31, { owner := 2 })] }
    let recd : State := { up with hostA := { bound := some (.localPort .a), done := [doneRec] } }
    acc 0x0001 devIdentifyCmd [] u ∧ acc 0x0002 devStatusCmd [] u ∧ acc 0x0003 devSetIdCmd [2, 0, 0, 0] u ∧
    acc 0x0003 devSetIdCmd [1, 0, 0, 0] { u with lich := { storedId := some 1 } } ∧ acc 0x0004 devEchoCmd [1, 2, 3, 4] u ∧
    acc 0x0007 devWarmRestartCmd [0, 0, 0, 0] u ∧ u.stageRuns = false ∧
    acc 0x0007 devWarmRestartCmd [0, 0, 0, 0] { u with fw := { busy := .erasing 0 .a 9 } } ∧
    ({ u with fw := { busy := .erasing 0 .a 9 } } : State).stageRuns = true ∧
    acc 0x000B devPowerStateCmd [0, 0, 0, 0, 0, 0, 0, 0] entering ∧
    (wakeTrigger 1 (Safety.begun 0x000B .a (pk 0x000B [0, 0, 0, 0, 0, 0, 0, 0]) (sem0A entering))).power.wake = none ∧
    acc 0x000B devPowerStateCmd [2, 15, 0, 0, 0x80, 0x51, 1, 0] entering ∧ entering.power.entry.isSome = true ∧
    acc 0x000B devPowerStateCmd [0, 0, 0, 0, 0, 0, 0, 0] u ∧ u.power.entry = none ∧ u.power.wake = none ∧ u.dev.power = .run ∧
    acc 0x000B devPowerStateCmd [2, 0, 0, 0, 0, 0, 0, 0] { u with cfg := (aPwrmGuard, 1) :: ports } ∧
    (({ u with cfg := (aPwrmGuard, 1) :: ports } : State).cfgAt aPwrmGuard).getLsbD 0 = true ∧
    acc 0x000B devPowerStateCmd [3, 0, 0, 0, 0, 0, 0, 0] u ∧ (u.cfgAt aPwrmGuard).getLsbD 1 = false ∧
    acc 0x000B devPowerStateCmd [0, 0, 0, 0, 0, 0, 0, 0] doze ∧ doze.dev.power = .doze ∧
    acc 0x0008 hostBindCmd [10, 0, 0, 0] u ∧ (u.host .a).bound.isSome = true ∧ acc 0x0008 hostBindCmd [0xE8, 3, 0, 0] unbound ∧
    (unbound.host .a).bound = none ∧ acc 0x0008 hostBindCmd [0, 0, 1, 0] unbound ∧ acc 0x0008 hostBindCmd [0, 0, 1, 0] u ∧
    (∀ o ∈ u.ops, o.host = .a → o.started = true) ∧ acc 0x0009 semTakeCmd [0, 0, 0, 0x80] u ∧
    (held.sem 31).owner = hOwner (hOther .a) ∧ acc 0x000A semGiveCmd [1, 0, 0, 0] u ∧
    acc 0x0006 opQueryCmd [0, 0, 9, 0] (withWaiting u) ∧ (withWaiting u).opOf .a 9 = some waiting ∧
    acc 0x0006 opQueryCmd [0, 0, 9, 0] recd ∧ recd.opOf .a 9 = none ∧
    (recd.host .a).done.find? (fun d => d.tag == 9) = some doneRec ∧ acc 0x0005 opAbortCmd [9, 0, 0, 0] recd ∧
    acc 0x0005 opAbortCmd [9, 0, 0, 0] u ∧ acc 0x0005 opAbortCmd [9, 0, 0, 0] (withWaiting u) ∧
    (withWaiting u).aborters .a 9 = [] ∧ acc 0x0005 opAbortCmd [9, 0, 0, 0] (withOp (running 0x0106 (keyPort 31)) u) ∧
    (abortNow (running 0x0106 (keyPort 31)) (withOp (running 0x0106 (keyPort 31)) u)).isNone = true := by
  decide +kernel

theorem witness_AnswersComplete : (withOp (running 0x0106 1) up).opOf .a 9 = some (running 0x0106 1) ∧
    (withOp (running 0x0106 1) up).aborters .a 9 = [] ∧ (running 0x0106 1).started = true := by decide

theorem witness_PortCommands :
    let s (r : Port) : State := P r
    let w : Resume := { loc := .root, byHost := false, byInst := true }
    let wh : Resume := { loc := .root, byHost := true, byInst := false }
    let taken (r : Port) : State := withOp (running 0x0106 (keyPort 31)) (P r)
    let pol : List Byte := [31, 15, 3, 0, 1, 2, 3, 4, 1, 0, 5, 0, 2, 0, 0, 0]
    acc 0x0100 portEnableCmd [0, 0, 0, 0x80] (s { shed := true }) ∧ acc 0x0100 portEnableCmd [0, 0, 0, 0x80] (s { sw := .isolated }) ∧
    acc 0x0100 portEnableCmd [0, 0, 0, 0x80] (s { bus := .running }) ∧ acc 0x0100 portEnableCmd [0, 0, 0, 0x80] (s {}) ∧
    acc 0x0101 portDisableCmd [0, 0, 0, 0x80] (s {}) ∧ acc 0x0101 portDisableCmd [0, 0, 0, 0x80] (s { bus := .running }) ∧
    acc 0x0102 portStatusCmd [31, 0, 0, 0] (s {}) ∧ acc 0x0108 treeListCmd [31, 0, 0, 0] (s { tree := [aHub] }) ∧
    acc 0x0103 portBusResetCmd [31, 0, 0, 0] (s {}) ∧ (s {}).dev.power ≠ .doze ∧
    acc 0x0103 portBusResetCmd [31, 0, 0, 0] (s { bus := .running }) ∧ (s { bus := .running }).busyPort 31 = false ∧
    (s { bus := .running }).pgIsolated 31 = false ∧ ((s { bus := .running }).port 31).pd.st ≠ .hardReset ∧
    acc 0x0104 portSuspendCmd [31, 0, 0, 0] (s { bus := .suspended }) ∧ acc 0x0104 portSuspendCmd [31, 0, 0, 0] (s { bus := .running }) ∧
    (s { bus := .enumerating, jobs := [job .root .request] }).enumerating 31 .root = true ∧
    acc 0x0104 portSuspendCmd [31, 0, 0, 0] (s { bus := .enumerating, jobs := [job .root .request] }) ∧
    (s { bus := .running }).enumerating 31 .root = false ∧ acc 0x0105 portResumeCmd [31, 0, 0, 0] (s { bus := .running }) ∧
    acc 0x0105 portResumeCmd [31, 0, 0, 0] (s { bus := .suspended }) ∧ acc 0x0105 portResumeCmd [31, 0, 0, 0] (s { bus := .resuming, resume := some w }) ∧
    ((s { bus := .running }).port 31).resumeAt (suspLoc [31, 0, 0, 0]) = none ∧ ((s { bus := .suspended }).port 31).resumeAt (suspLoc [31, 0, 0, 0]) = none ∧
    acc 0x0105 portResumeCmd [31, 0, 0, 0] (taken { bus := .suspended }) ∧ (taken { bus := .suspended }).busyPort 31 = true ∧
    ((s { bus := .resuming, resume := some w }).port 31).resumeAt (suspLoc [31, 0, 0, 0]) = some w ∧ w.byInst = true ∧
    (s { bus := .resuming, resume := some w }).busyPort 31 = false ∧ acc 0x0105 portResumeCmd [31, 0, 0, 0] (s { bus := .resuming, resume := some wh }) ∧
    ((s { bus := .resuming, resume := some wh }).port 31).resumeAt (suspLoc [31, 0, 0, 0]) = some wh ∧ wh.byInst = false ∧ acc 0x0106 portPowerCycleCmd [31, 100, 0, 0] (s {}) ∧
    acc 0x0106 portPowerCycleCmd [31, 100, 0, 0] (s { bus := .running, sw := .latched }) ∧ acc 0x0107 portSetPolicyCmd (pol.set 1 14) (s {}) := by
  decide +kernel

theorem witness_PdCommands :
    let set_ : List Byte := [31, 2, 1, 2, 50, 0, 0, 0]
    let c := withId (D { st := .contract })
    let e : State := withId (D { st := .contract, alt := true })
    let o (d : PdRec) : State := withId (D d)
    acc 0x0500 pdSetCapsCmd [32, 0, 0, 0, 5, 0, 0, 0] up ∧ acc 0x0500 pdSetCapsCmd set_ (P { reneg := true }) ∧ acc 0x0500 pdSetCapsCmd set_ (P {}) ∧
    ((P {}).port 31).bus.powered = false ∧ acc 0x0500 pdSetCapsCmd set_ (D {}) ∧ ((D {}).port 31).bus.powered = true ∧
    ((D {}).port 31).reneg = false ∧ acc 0x0501 pdStatusCmd [32, 0, 0, 0] up ∧ acc 0x0501 pdStatusCmd [31, 0, 0, 0] up ∧
    acc 0x0502 pdDrSwapCmd [31, 0, 0, 0] (withOp (running 0x0106 (keyPort 31)) (D {})) ∧ (withOp (running 0x0106 (keyPort 31)) (D {})).busyPort 31 = true ∧
    acc 0x0502 pdDrSwapCmd [31, 0, 0, 0] c ∧ c.swapAnswer 31 = .accept ∧ (c.pdOf 31).ask.isNone = true ∧ (D {}).swapAnswer 31 ≠ .accept ∧
    acc 0x0502 pdDrSwapCmd [31, 0, 0, 0] (D {}) ∧ acc 0x0503 pdHardResetCmd [31, 0, 0, 0] { D {} with flts := [(79, { isolated := true })] } ∧
    ({ D {} with flts := [(79, { isolated := true })] } : State).pgIsolated 31 = true ∧ acc 0x0503 pdHardResetCmd [31, 0, 0, 0] (D {}) ∧
    (D {}).pgIsolated 31 = false ∧ (hrPreempt 31 (Safety.begun 0x0503 .a (pk 0x0503 [31, 0, 0, 0]) (D {}))).busyPort 31 = false ∧
    acc 0x0503 pdHardResetCmd [31, 0, 0, 0] (P {}) ∧ ((D {}).port 31).pd.sub ≠ .gone ∧ (D {}).hrSpent 31 = false ∧ (D { resets := 2 }).hrSpent 31 = true ∧
    acc 0x0503 pdHardResetCmd [31, 0, 0, 0] (D { resets := 2 }) ∧ acc 0x0503 pdHardResetCmd [31, 0, 0, 0] (D { sub := .gone }) ∧ acc 0x0504 pdDiscoverCmd [31, 0, 0, 0] (withOp (running 0x0106 (keyPort 31)) (D {})) ∧
    acc 0x0504 pdDiscoverCmd [31, 0, 0, 0] (D {}) ∧ (D {}).vdmReady 31 = false ∧ acc 0x0504 pdDiscoverCmd [31, 2, 3, 0] c ∧ c.vdmReady 31 = true ∧
    acc 0x0505 pdAltmodeCmd [31, 1, 0, 0] (D { st := .contract }) ∧ (D {}).otp.live.timebaseSvid.isSome = false ∧
    (Variant.timebase c.part.variant && c.otp.live.timebaseSvid.isSome) = true ∧ acc 0x0505 pdAltmodeCmd [31, 0, 0, 0] c ∧
    (c.port 31).pd.alt = (byteAt [31, 0, 0, 0] 1 == 1) ∧ acc 0x0505 pdAltmodeCmd [31, 1, 0, 0] (o {}) ∧ (o {}).vdmReady 31 = false ∧
    acc 0x0505 pdAltmodeCmd [31, 0, 0, 0] e ∧ (e.port 31).pd.alt ≠ (byteAt [31, 0, 0, 0] 1 == 1) ∧ acc 0x0505 pdAltmodeCmd [31, 1, 0, 0] c ∧
    (c.port 31).pd.modesNew = false ∧ acc 0x0505 pdAltmodeCmd [31, 1, 0, 0] (o { st := .contract, modesNew := true, altObj := some 5 }) ∧
    acc 0x0505 pdAltmodeCmd [31, 1, 0, 0] (o { st := .contract, modesNew := true }) := by
  decide +kernel

/-- A context of port 31 that is not bound, with an enabled queue 63 of host A. -/
def ep (c : Ctx) (q : Queue) : State := setQueue 63 q (setCtx 126981 c up)
def free_ (type : Nat) (dirIn : Bool) : Ctx := { addr := 1, ep := 1, dirIn := dirIn, type := type, speed := 2, maxPacket := 64, bInterval := 4, derived := 3 }
def inQ : Queue := { st := .flow }
def epid : List Byte := [5, 0xF0, 1, 0]
/-- A class L queue too small for a bulk IN context. -/
def narrow : State := ep (free_ 2 true) { st := .flow, isL := true, depth := 16 }
theorem witness_EndpointCommands :
    let bind (cls flag : Byte) : List Byte := epid ++ [63, cls, 0xFF, flag, 0xFF, 0xFF, 0, 0]
    let bulk := ep (free_ 2 true) inQ
    let intr := ep (free_ 3 true) inQ
    let iso := ep (free_ 1 true) inQ
    let bound := ep { free_ 2 true with bound := true, cls := 2, queue := 63 } inQ
    let waits := ep { free_ 3 true with wait := some { queue := 63, cls := 0, exp := 3, phase := 0, host := .a, tag := 9 } } inQ
    let bg (ps : List Byte) (s : State) : State := Safety.begun 0x0201 .a (pk 0x0201 ps) (sem0A s)
    let x : Xfer := { handle := 0, kind := .read, epid := 126981, host := .b, tag := 1, setup := [], out := [], got := [], left := 1, moved := 0,
                      queue := 0, stage := 0, flag := false, nakMs := 0, nakAt := none, gaps := 0, errs := 0, started := false }
    let busyIn : State := { bulk with xfers := List.replicate 8 x }
    let one : State := { bulk with xfers := [x] }
    let busyOut : State := { ep (free_ 2 false) inQ with xfers := List.replicate 8 x }
    acc 0x0200 epListCmd (epid ++ [0, 0, 0, 0]) bulk ∧ acc 0x0206 epStateCmd epid bulk ∧ bulk.ctx 126981 = some (free_ 2 true) ∧
    acc 0x0201 epBindCmd (bind 2 0) iso ∧ acc 0x0201 epBindCmd (bind 2 0) bound ∧ acc 0x0201 epBindCmd (bind 2 1) bound ∧
    acc 0x0201 epBindCmd (bind 2 0) bulk ∧ bulk.overReserve 126981 (free_ 2 true) 63 2 ((free_ 2 true).askedExp 0xFF) 0 = false ∧
    acc 0x0201 epBindCmd (bind 1 0) intr ∧ acc 0x0201 epBindCmd (bind 1 1) intr ∧
    acc 0x0202 epUnbindCmd epid bound ∧ acc 0x0202 epUnbindCmd epid waits ∧ acc 0x0202 epUnbindCmd epid bulk ∧
    acc 0x0201 epBindCmd (bind 1 0) waits ∧ (free_ 3 true).bound = false ∧ acc 0x0201 epBindCmd (bind 2 0) narrow ∧
    (bg (bind 2 0) bulk).overReserve 126981 (free_ 2 true) 63 2 ((free_ 2 true).askedExp 0xFF) 0 = false ∧
    acc 0x0204 epWriteCmd (epid ++ [4, 0, 0, 0, 0, 1, 0, 0, 1, 2, 3, 4]) busyOut ∧ busyOut.xferRoom 126981 0 = some stLocked ∧
    acc 0x0205 epReadCmd (epid ++ [0, 0, 0, 0, 0, 0, 0, 0]) busyIn ∧ busyIn.xferRoom 126981 0 = some stLocked ∧
    one.xferRoom 126981 0 = none ∧ one.xfers.all (fun y => y.epid != 126981) = false ∧ bulk.xfers.all (fun y => y.epid != 126981) = true ∧
    acc 0x0205 epReadCmd (epid ++ [0, 0, 0, 0, 0, 0, 0, 0]) one ∧
    ({ bulk with xfers := [{ x with epid := 126982, queue := 63 }] } : State).xferRoom 126981 63 = some stLocked ∧
    acc 0x0204 epWriteCmd (epid ++ [0, 0, 0, 0, 0, 1, 0, 0]) (ep (free_ 2 false) inQ) ∧ bitOf (byteAt (epid ++ [0, 0, 0, 0, 0, 1, 0, 0]) 9) 0 = true ∧
    acc 0x0203 epControlCmd (epid ++ [0x80, 6, 0, 1, 0, 0, 18, 0, 0, 0, 0, 0]) (ep (free_ 0 false) inQ) ∧
    (ep (free_ 0 false) inQ).xferRoom 126981 0 = none ∧ acc 0x0204 epWriteCmd (epid ++ [0, 0, 0, 0, 0, 0, 0, 0]) (ep (free_ 2 false) inQ) ∧
    acc 0x0204 epWriteCmd (epid ++ [4, 0, 0, 0, 0, 1, 0, 0, 1, 2, 3, 4]) (ep (free_ 2 false) inQ) ∧ (ep (free_ 2 false) inQ).xferRoom 126981 0 = none ∧
    acc 0x0205 epReadCmd (epid ++ [0, 0, 0, 0, 0, 0, 0, 0]) bulk ∧ acc 0x0205 epReadCmd (epid ++ [220, 0, 0, 0, 0, 0, 0, 0]) bulk ∧
    bulk.xferRoom 126981 0 = none ∧ bulk.dev.power ≠ .doze := by
  decide +kernel

/-- The reserve clause of EP_BIND. -/
theorem witness_overReserve : (Safety.begun 0x0201 .a (pk 0x0201 (epid ++ [63, 2, 0xFF, 0, 0xFF, 0xFF, 0, 0])) (sem0A narrow)).overReserve
    126981 (free_ 2 true) 63 2 ((free_ 2 true).askedExp 0xFF) 0 = true := by
  generalize hs : Safety.begun 0x0201 .a _ (sem0A narrow) = s
  have hq : (s.queue 63).isL = true ∧ (s.queue 63).depth = 16 := by subst hs; decide +kernel
  have hb : ((setCtx 126981 (bindAs (free_ 2 true) 63 2 ((free_ 2 true).askedExp 0xFF) 0) s).ctxs.filter fun e =>
      e.2.bound && e.2.queue == 63 && e.2.cls == 2 && e.2.dirIn).length = 1 := by subst hs; decide +kernel
  have hq' : (setCtx 126981 (bindAs (free_ 2 true) 63 2 ((free_ 2 true).askedExp 0xFF) 0) s).queue 63 = s.queue 63 := rfl
  simp only [State.overReserve, State.reserveOf, hq', hq.1, hq.2, hb, Bool.not_true, Bool.true_and, decide_eq_true_eq]
  simp only [Bool.false_eq_true, if_false]
  omega

/-- An admission that finds a phase. -/
def isOk : Except Refused Nat → Bool | .ok _ => true | .error _ => false
/-- The admission clauses of EP_BIND: a low-speed interrupt context is admitted, and none while control SRAM is rebuilt. -/
def bindState (c : Ctx) (s : State) : State :=
  Safety.begun 0x0201 .a (pk 0x0201 (epid ++ [63, 1, 0xFF, 0, 0xFF, 0xFF, 0, 0])) (sem0A (setQueue 63 inQ (setCtx 126981 c s)))
theorem witness_admission_ok : let c : Ctx := { free_ 3 true with speed := 0, bInterval := 10 }
    isOk ((bindState c up).admission 126981 c 63 1 13 0) = true := by decide +kernel
theorem witness_admission_error :
    isOk ((bindState (free_ 3 true) { up with ctrl := { rebuild := true } }).admission 126981 (free_ 3 true) 63 1 3 0) = false := by
  decide +kernel

/-- The last group fits an engine where no context is bound, wherever it is now. -/
theorem witness_fits (g : List (Nat × Nat)) (h : g = [] ∨ g = [(255, 3)]) : ({ up with stok := { place := g } } : State).fits 255 11 = true := by
  rcases h with rfl | rfl <;> exact List.all_eq_true.2 fun _ _ => rfl

theorem witness_QueueAndPlacementCommands :
    let s (r : Queue) : State := Q r
    let cfg (spill : Byte) : List Byte := [63, 1, 0, 0, 16, 0, 0, 0, spill, 0, 0, 0, 0, 0, 0, 0, 0, 0, 0, 0]
    let busy := ep { free_ 2 true with bound := true, cls := 2, queue := 63 } inQ
    let peat (r : Queue) : State := { s r with peat := { st := 2, mib := 16 } }
    let aff (n : Nat) : State := { up with stok := { affs := List.replicate n { kind := 1, weight := 1, opA := 0, opB := 0 } } }
    let hint (k w : Byte) : List Byte := [k, w, 0, 0, 1, 0, 0, 0, 0, 0, 0, 0]
    let pin : Pin := { group := 255, eng := 11, allow := true }
    let placed (g : Option Nat) (ps : List Pin) : State := { up with stok := { place := match g with | some e => [(255, e)] | none => [], pins := ps } }
    let budget : List Byte := [0xFF, 7, 0, 0, 0xD0, 7, 0xD0, 7, 1, 200, 0xE8, 3, 100, 0, 200, 0, 60, 100, 168, 0] ++ List.replicate 32 7
    acc 0x0300 qConfigCmd (cfg 0) busy ∧ (busy.queue 63).st ≠ .disabled ∧ busy.boundTo' 63 = true ∧ acc 0x0300 qConfigCmd (cfg 0) (s {}) ∧
    ((s {}).queue 63).st = .disabled ∧ ¬ (s {}).spillRegion < (s {}).spillTaken 63 + 0 ∧ acc 0x0300 qConfigCmd (cfg 255) (peat {}) ∧
    (peat {}).spillRegion < (peat {}).spillTaken 63 + 255 ∧ acc 0x0301 qStatusCmd [63, 0, 0, 0] (s {}) ∧ acc 0x0302 qFlushCmd [8, 0, 0, 0] up ∧
    acc 0x0303 qReplayCmd [63, 1, 0, 0, 0, 0, 0, 0] (s { st := .held }) ∧ acc 0x0303 qReplayCmd [63, 0, 0, 0, 0x40, 0x42, 15, 0] (s { st := .held }) ∧
    acc 0x0303 qReplayCmd [63, 0, 0, 0, 0, 0, 0, 0] (s { st := .flight }) ∧ acc 0x0303 qReplayCmd [63, 0, 0, 0, 0, 0, 0, 0] (s { st := .flow }) ∧
    acc 0x0400 budgetSetCmd budget up ∧ acc 0x0401 budgetStatusCmd [] up ∧ acc 0x0402 placeHintCmd (hint 1 0) (aff 1) ∧
    acc 0x0402 placeHintCmd (hint 1 15) (aff 2) ∧ acc 0x0402 placeHintCmd (hint 6 15) up ∧ acc 0x0402 placeHintCmd (hint 6 0) up ∧ acc 0x0402 placeHintCmd [4, 15, 0, 0, 5, 0xF0, 1, 0, 0, 0, 0, 0] (ep (free_ 3 true) inQ) ∧
    (modStok (fun k => { k with affs := [{ kind := 4, weight := 15, opA := 126981, opB := 0 }] }) up).kept2048.contains 126981 = true ∧ acc 0x0403 placePinCmd [255, 0xFF, 0, 0] up ∧
    up.dev.power ≠ .doze ∧ up.busyKey (keyUnit (0x1000 + 255)) = false ∧ up.pinOf 255 = none ∧
    acc 0x0403 placePinCmd [255, 0xFF, 0, 0] (placed none [pin]) ∧ ((placed none [pin]).pinOf 255).isSome = true ∧
    acc 0x0403 placePinCmd [255, 11, 1, 0] (placed none [pin]) ∧ (placed none [pin]).pinOf 255 = some pin ∧
    acc 0x0403 placePinCmd [255, 11, 1, 0] (placed none []) ∧ (placed none []).stok.pins.length < 64 ∧ (placed none []).spareRule 255 11 = true ∧ (placed none []).engineOf 255 = none ∧ (placed (some 3) []).engineOf 255 = some 3 ∧
    (placed (some 3) []).takes 11 = true ∧ (placed (some 3) []).spareRule 255 11 = true ∧
    acc 0x0404 placeReportCmd [0, 0, 0, 0] up ∧ acc 0x0404 placeReportCmd [1, 31, 0, 0] up ∧ acc 0x0404 placeReportCmd [2, 0, 0, 0] up := by decide +kernel
/-- The capacity clause of PLACE_HINT: 1024 other affinities. -/
theorem witness_affinities : 1024 ≤ (((List.replicate 1024 ({ kind := 1, weight := 1, opA := 0, opB := 0 } : Aff)).filter fun x =>
    !(x.kind == 1 && x.opA == 1 && x.opB == 0))).length := by decide +kernel

theorem witness_CanCommands :
    let c (x : Can) (o : CanObj) : State := C x o
    let cfg (m : Byte) : List Byte := [7, m, 0, 0, 1, 0, 63, 16, 16, 2, 31, 8, 8, 0, 8, 96]
    let iso : State := { up with cans := [(7, { isolated := true })], flts := [(115, { isolated := true })] }
    let tm (on : Byte) : List Byte := [7, on, 7, 0, 0x10, 0, 0, 0, 0xF4, 1, 0, 0]
    let send (n fl : Byte) : List Byte := [7, 127, fl, n, 0xFF, 7, 0, 0] ++ List.replicate n.toNat 1
    iso.canIsolated 7 = true ∧ acc 0x0600 canConfigCmd (cfg 1) iso ∧ acc 0x0600 canConfigCmd (cfg 0) (c {} {}) ∧ (c {} {}).canIsolated 7 = false ∧
    (((c {} {}).can 7).configure (cfg 0)).mode = 0 ∧ acc 0x0600 canConfigCmd (cfg 1) (c { mode := 1, st := 2 } {}) ∧
    (((c { mode := 1, st := 2 } {}).can 7).configure (cfg 1)).mode ≠ 0 ∧ ((c { mode := 1, st := 2 } {}).can 7).st ≠ 0 ∧
    ((c { mode := 1, st := 2 } {}).can 7).sameBus (((c { mode := 1, st := 2 } {}).can 7).configure (cfg 1)) = true ∧
    ((c { mode := 1, st := 2 } {}).can 7).sameBus (((c { mode := 1, st := 2 } {}).can 7).configure (cfg 3)) = false ∧
    acc 0x0601 canObjConfigCmd [7, 127, 1, 0, 0, 0, 0, 0, 0xFF, 7, 0, 0] (c {} { op := some (.a, 9) }) ∧
    acc 0x0601 canObjConfigCmd [7, 127, 2, 1, 0, 255, 0, 0, 0xFF, 7, 0, 0] (c {} {}) ∧ (((c {} {}).can 7).obj 127).op = none ∧
    acc 0x0602 canFilterSetCmd [7, 0, 255, 0, 1, 0, 0, 0, 1, 0, 0, 0, 2, 0, 0, 0] (c {} {}) ∧
    acc 0x0603 canSendCmd (send 8 0) (c { mode := 1 } { dir := 2, busy := true }) ∧ (((c { mode := 1 } { dir := 2, busy := true }).can 7).obj 127).busy = true ∧
    acc 0x0603 canSendCmd (send 64 1) (c { mode := 1 } { dir := 2 }) ∧ ((c { mode := 1 } { dir := 2 }).can 7).classicOnly = false ∧
    acc 0x0603 canSendCmd (send 64 1) (c { mode := 1, fallen := true } { dir := 2 }) ∧
    ({ dir := 2, ident := 0x400007FF, frame := 0x2F0040 } : CanObj).tooLong = true ∧ acc 0x0604 canStatusCmd [7, 0, 0, 0] (c {} {}) ∧
    acc 0x0605 canTimeMasterCmd (tm 1) iso ∧ acc 0x0605 canTimeMasterCmd (tm 0) (c {} {}) ∧ acc 0x0605 canTimeMasterCmd (tm 1) (c {} {}) ∧
    ((c {} {}).can 7).mode = 0 ∧ acc 0x0605 canTimeMasterCmd (tm 1) (c { mode := 1 } {}) ∧ ((c { mode := 1 } {}).can 7).mode ≠ 0 ∧
    ((c { mode := 1 } {}).can 7).listens = false ∧
    acc 0x0605 canTimeMasterCmd (tm 1) (c { mode := 3 } {}) ∧ ((c { mode := 3 } {}).can 7).listens = true := by decide +kernel

theorem witness_TrunkAndTimeCommands :
    let rts : State := { up with net := { routes := List.replicate 256 (3, 9, 1) } }
    let full : State := { up with net := { routes := (upTo 256).map fun k => (3, BitVec.ofNat 16 (1000 + k), 1) } }
    acc 0x0700 trkConfigCmd [3, 1, 0, 0, 0, 0, 0, 0, 17, 17, 17, 0] (T { isolated := true }) ∧ ((T { isolated := true }).trunk 3).isolated = true ∧
    acc 0x0700 trkConfigCmd [3, 1, 0, 0, 0, 0, 0, 0, 17, 17, 17, 0] (T {}) ∧ ((T {}).trunk 3).isolated = false ∧ ((T {}).flt 81).isolated = false ∧
    acc 0x0701 trkStatusCmd [3, 0, 0, 0] (T {}) ∧ acc 0x0702 trkRouteCmd [0, 3, 2, 0, 7, 0, 0, 0] full ∧
    256 < (addRoute 3 2 7 full.net.routes).length ∧ acc 0x0702 trkRouteCmd [1, 3, 9, 0, 1, 0, 0, 0] rts ∧
    (removeRoute 3 9 1 rts.net.routes).length ≤ 256 ∧ acc 0x0702 trkRouteCmd [2, 0, 0, 0, 0, 0, 0, 0] up ∧ acc 0x0703 trkDiscoverCmd [0, 0, 0, 0] up ∧
    acc 0x0800 timeSetCmd [0, 0, 0, 0, 5, 0, 0, 0, 0, 0, 0, 0, 100, 0, 0, 0] up ∧
    up.timeTarget [0, 0, 0, 0, 5, 0, 0, 0, 0, 0, 0, 0, 100, 0, 0, 0] = some 5 ∧
    up.timeTarget [1, 0, 0, 0, 5, 0, 0, 0, 0, 0, 0, 0, 0, 0, 0, 0] = some 5 ∧ acc 0x0801 timeGetCmd [] up ∧ acc 0x0802 timeStatusCmd [] up := by decide +kernel

theorem witness_FaultAndTestCommands :
    let l4 : State := { up with flts := [(75, { level := 4, isolated := true, unack := true })] }
    let iso : State := { up with pool := { banks := [(15, { st := 3 })] } }
    acc 0x0900 fltReadCmd [159, 0, 19, 1] up ∧ acc 0x0901 fltAckCmd [75, 0, 0, 0] l4 ∧ acc 0x0901 fltAckCmd [75, 0, 1, 0] l4 ∧
    (ackFlt 75 false (Safety.begun 0x0901 .a (pk 0x0901 [75, 0, 0, 0]) l4)).2.2 = false ∧
    (ackFlt 75 true (Safety.begun 0x0901 .a (pk 0x0901 [75, 0, 1, 0]) { l4 with stok := { engines := [(11, { isolated := true })] } })).2.2 = true ∧
    acc 0x0902 fltForceCmd [159, 0, 0, 0] up ∧ acc 0x0902 fltForceCmd [159, 0, 1, 0] up ∧ acc 0x0902 fltForceCmd [159, 0, 2, 0] up ∧
    acc 0x0903 ashReadCmd [0x20, 0x2F, 0, 0, 224, 0, 0, 0] up ∧ acc 0x0A00 testRunCmd [1, 15, 0, 0] iso ∧ iso.unitIsolated (unitOf 1 15) = true ∧
    acc 0x0A00 testRunCmd [0, 11, 0, 0] up ∧ up.unitIsolated (unitOf 0 11) = false ∧ up.testing (unitOf 0 11) = false ∧ up.dev.power ≠ .doze ∧
    acc 0x0A01 calRunCmd [0, 0, 0, 0x80] (withOp (running 0x0106 (keyPort 31)) up) ∧ bitsOf 32 0x80000000 = [31] ∧
    (withOp (running 0x0106 (keyPort 31)) up).busyPort 31 = true ∧ up.busyPort 31 = false ∧ bitsOf 32 0 = [] ∧
    acc 0x0A01 calRunCmd [0, 0, 0, 0] up ∧ acc 0x0A01 calRunCmd [0, 0, 0, 0x80] up ∧ acc 0x0A02 testStatusCmd [0, 0, 0, 0] up ∧
    acc 0x0A02 testStatusCmd [1, 0, 0, 0] up ∧ acc 0x0A02 testStatusCmd [2, 0, 0, 0] up ∧ acc 0x0A02 testStatusCmd [3, 3, 0, 0] up := by decide +kernel

theorem witness_FirmwareAndSecurityCommands :
    let s (f : Fw) (lc : Nat) : State := { up with fw := f, otp := { lifeCycle := lc } }
    let g : Slot := { st := 2 }
    let eng (f : Fw) : State := { s f 1 with stok := { engines := (upTo 12).map fun k => (k, { newCode := true }) } }
    let busy : State := s { busy := .erasing 1 .a 9 } 1
    let key : List Byte := [1, 63, 0, 0]
    let x : List Byte := [0x6B, 0x17, 0xD1, 0xF2, 0xE1, 0x2C, 0x42, 0x47, 0xF8, 0xBC, 0xE6, 0xE5, 0x63, 0xA4, 0x40, 0xF2, 0x77, 0x03, 0x7D, 0x81, 0x2D, 0xEB, 0x33, 0xA0, 0xF4, 0xA1, 0x39, 0x45, 0xD8, 0x98, 0xC2, 0x96]
    let y : List Byte := [0x4F, 0xE3, 0x42, 0xE2, 0xFE, 0x1A, 0x7F, 0x9B, 0x8E, 0xE7, 0xEB, 0x4A, 0x7C, 0x0F, 0x9E, 0x16, 0x2B, 0xCE, 0x33, 0x57, 0x6B, 0x31, 0x5E, 0xCE, 0xCB, 0xB6, 0x40, 0x68, 0x37, 0xBF, 0x51, 0xF5]
    acc 0x0B00 fwStageCmd [0, 0, 0, 0, 0, 0, 0, 0] (s {} 3) ∧ acc 0x0B00 fwStageCmd [1, 0, 0, 0, 0, 0, 0, 0] busy ∧ busy.slotHeld 1 = true ∧
    acc 0x0B00 fwStageCmd [1, 0, 0, 0, 0, 0, 0, 0] (s {} 1) ∧ (s {} 1).slotHeld 1 = false ∧
    acc 0x0B00 fwStageCmd [1, 1, 0, 0, 0xFC, 0xFF, 0x3F, 0, 1, 2, 3, 4] (s {} 1) ∧ acc 0x0B00 fwStageCmd [1, 2, 0, 0, 0, 0, 0, 0] (s {} 1) ∧
    acc 0x0B01 fwActivateCmd [1, 0, 0, 0] (s {} 3) ∧ acc 0x0B01 fwActivateCmd [1, 0, 0, 0] busy ∧ busy.fwRuns = true ∧
    acc 0x0B01 fwActivateCmd [1, 0, 0, 0] (s {} 1) ∧ (s {} 1).fwRuns = false ∧ ((s {} 1).slot 1).st ≠ 2 ∧
    acc 0x0B01 fwActivateCmd [1, 1, 0, 0] (s { slot1 := g } 1) ∧ ((s { slot1 := g } 1).slot 1).st = 2 ∧
    acc 0x0B01 fwActivateCmd [0, 0, 0, 0] (s { slot0 := g } 1) ∧ (s { slot0 := g } 1).oldEngines = [] ∧
    acc 0x0B01 fwActivateCmd [0, 0, 0, 0] (s { slot0 := g, ucode := 2 } 1) ∧ (s { slot0 := g, ucode := 2 } 1).oldEngines ≠ [] ∧
    acc 0x0B01 fwActivateCmd [1, 0, 0, 0] (s { slot1 := { g with compat := 3 }, ucode := 2 } 1) ∧
    acc 0x0B01 fwActivateCmd [1, 0, 0, 0] (s { slot1 := { g with compat := 2 }, ucode := 2 } 1) ∧ acc 0x0B02 fwStatusCmd [] up ∧
    acc 0x0B03 secLifecycleCmd [1, 0, 0, 0, 1, 0, 0x5A, 0x5A] up ∧ up.otp.writing = none ∧ up.mayMove 1 = true ∧
    acc 0x0B04 secKeyCmd key { up with sec := { tamperLow := true } } ∧ acc 0x0B04 secKeyCmd key up ∧ acc 0x0B04 secKeyCmd [2, 63, 0, 0] up ∧
    acc 0x0B04 secKeyCmd ([0, 63, 1, 0] ++ x ++ y) up ∧ up.otp.lifeCycle = 0 ∧ acc 0x0B04 secKeyCmd ([0, 63, 1, 0] ++ x ++ y) (s {} 1) ∧
    acc 0x0B05 secProvisionCmd [9, 0, 0, 0, 0xFE, 0xFF, 0, 0] up ∧ acc 0x0B05 secProvisionCmd [9, 0, 0, 0, 1, 0, 0, 0] (s {} 2) ∧
    up.otp.fields.written 9 = false ∧ (up.cfgAt aSecGuard).getLsbD 0 = false := by decide +kernel

/-! ### Every command -/

theorem witness_EveryCommandCompletes : Safety.Legal State.reset := by unfold Safety.Legal; decide

/-! ### Worked examples of the spec -/

/-- The packet of *Table — DEV_IDENTIFY packet* and its CRC (06_command_transports.md). -/
def identify : Packet :=
  { via := .localPort .a, delivered := 16, tag := 0x0041, paramLen := 0, destId := 0xFFFF, srcHost := 0x000A, flags := 1,
    crc := 0xA71A37D5, params := [] }
theorem test_identify_crc : crc32c (head12 1 identify) = 0xA71A37D5#32 := by decide +kernel
theorem test_identify_parses : parsePacket (.localPort .a)
    [0x01, 0x00, 0x41, 0x00, 0x00, 0x00, 0xFF, 0xFF, 0x0A, 0x00, 0x01, 0x00, 0xD5, 0x37, 0x1A, 0xA7] = (1, identify) := by decide +kernel
theorem test_identify_replies : (Safety.answer { up with pending := [.devIdentify identify] }).map (fun t =>
    (t.hostA.cseq, (t.queue 4).items.map fun i => (i.typ, field i.payload 2 2, field i.payload 4 2))) = some (1, [(4, 0x0041, 0)]) := by
  decide +kernel

/-- The mailbox word of the example of 17_memories.md: AA BB CC DD at 0x2_A000, and host A's write of 0x4433_2211 to 0x2_A002. -/
def mailWord0 : State := { up with mail := [(0x2A000, 0xAA), (0x2A001, 0xBB), (0x2A002, 0xCC), (0x2A003, 0xDD)] }
def mailWrite : State :=
  { mailWord0 with pending := [.mailboxAccess { portA := some (.write 0x2A002 0x44332211), portB := none, ring := none, later := .a }] }
theorem test_mailbox_word : mailWord0.mailWord 0x2A000 = 0xDDCCBBAA#32 := by decide +kernel
theorem test_mailbox_write : (Safety.answer mailWrite).map (fun t => (t.mailWord 0x2A000, t.mailWord 0x2A002)) =
    some (0x2211BBAA#32, 0xBBAA2211#32) := by decide +kernel

/-- Q21 of the sequence-clear example of 16_registers.md: class S, IN, host A, FLOW, empty, with a sequence. -/
def q21 (seqn : BitVec 8) (bits : List (Nat × BitVec 8)) : State :=
  { setQueue 21 { st := .flow } up with sqc := [(aQueStatus 21, { seqn := seqn, bits := bits })] }
theorem test_sqc_pop : (Safety.answer { q21 0x16 [] with pending := [.quePopHdr0Read .a 21 ⟨1, true⟩] }).map (fun t =>
    t.regValue .a (aQueStatus 21)) = some 0x17208815#32 := by decide +kernel
theorem test_sqc_kept : (Safety.answer { q21 0x18 [(11, 0x18)] with pending := [.statusSqcWrite .a (aQueStatus 21) 0x17208815] }).map (fun t =>
    t.regValue .a (aQueStatus 21)) = some 0x18208815#32 := by decide +kernel
theorem test_sqc_cleared : (Safety.answer { q21 0x18 [(11, 0x18)] with pending := [.statusSqcWrite .a (aQueStatus 21) 0x18208815] }).map (fun t =>
    t.regValue .a (aQueStatus 21)) = some 0x18208015#32 := by decide +kernel

/-- The port funds of the example of 09_port_contracts.md, in mW. -/
theorem test_funds : ({ up with feedA := { st := .on }, feedB := { st := .on }, ledger := { dMw := 5500 } } : State).funds = 234500 := by
  decide
/-- EPID 0x0_5012 is context index 0x012 of port 5, in endpoint group 0 (01_architecture.md). -/
theorem test_epid : (epPort 0x05012, epGroup 0x05012) = (5, 40) := by decide
/-- The aliases of 16_registers.md: 0x0_E340 is the TE3 window, 0x1_C604 the P3 window. -/
theorem test_alias : (aliasOf 0x0E340, aliasOf 0x1C604) = (0x0D000 + 0x340, 0x18000 + 0x604) := by decide

end Sys2Proof.Tests
end

section
/-!
The capability registers of 00_scope.md: what a read of the DEV block shows, and that no step changes the part.
-/
namespace Sys2Proof.Machine

/-! ### The registers of the DEV block (R515, R516, R529) -/

theorem isMail_of_devBlock {a : Nat} (ha : a < 0x1000) : isMail a = false := by
  simp only [isMail, decide_eq_false_iff_not]
  omega

theorem isObj_of_devBlock {a : Nat} (ha : a < 0x1000) : isObj a = false := by
  simp only [isObj, decide_eq_false_iff_not]
  omega

theorem aliasOf_devBlock {a : Nat} (ha : a < 0x1000) : aliasOf a = a % 0x100 := by
  have hblock : a / 0x1000 = 0 := by omega
  simp [aliasOf, hblock, show a < 0x10000 by omega]

theorem absentReg_devBlock (s : State) {a : Nat} (ha : a < 0x1000) : s.absentReg a = false := by
  unfold State.absentReg
  repeat rw [if_neg (by omega)]

theorem blockReg_devBlock (s : State) (h : HostId) {a : Nat} (ha : a < 0x1000) : s.blockReg h a = s.devReg a := by
  unfold State.blockReg State.liveReg
  rw [if_pos (Or.inl (by omega)), if_pos ha]

/-- Both ports show the same word of the DEV block, which belongs to no unit that can be absent and is never captured. -/
theorem regValue_devBlock (s : State) (h : HostId) {a : Nat} (ha : a < 0x1000) (h4 : a % 4 = 0) :
    s.regValue h a = BitVec.ofNat 32 (s.devReg (a % 0x100)) := by
  have hoff : a % 0x100 < 0x1000 := by omega
  simp [State.regValue, isMail_of_devBlock ha, isObj_of_devBlock ha, h4, show ¬ 0x20000 ≤ a by omega, aliasOf_devBlock ha,
    absentReg_devBlock s hoff, blockReg_devBlock s h hoff]

/-! ### DEV_CAP0 and DEV_CAP1 (R5, R6) -/

@[simp] theorem regValue_devCap0 (s : State) (h : HostId) : s.regValue h 0x10 = Variant.cap0 s.part.variant := by
  rw [regValue_devBlock s h (by decide) (by decide)]
  exact BitVec.ofNat_toNat 32 _

@[simp] theorem regValue_devCap1 (s : State) (h : HostId) : s.regValue h 0x14 = Variant.cap1 s.part.variant := by
  rw [regValue_devBlock s h (by decide) (by decide)]
  exact BitVec.ofNat_toNat 32 _

/-- The part is among what every step from a legal state keeps (`kept_step`). -/
theorem step_part {s t : State} (hl : Safety.Legal s) (h : step s = .next t) : t.part = s.part := by
  obtain ⟨-, hpart, -, -⟩ := kept_step hl h
  exact hpart

end Sys2Proof.Machine

namespace Sys2Proof
open Machine

/-- Settles O9: the fields are those of the variant's two words, variant by variant, and a step keeps the part. -/
theorem capabilityFields : Obligations.CapabilityFields := by
  intro s h v
  refine ⟨?_, ?_, fun t g hl ht => ?_⟩
  · rw [regValue_devCap0]
    show (Variant.cap0 v).toNat = _
    cases v <;> rfl
  · rw [regValue_devCap1]
    show (Variant.cap1 v).toNat = _
    cases v <;> rfl
  · simp only [regValue_devCap0, regValue_devCap1, step_part hl ht, and_self]

/-- Settles O10: each value is the variant's word in the table of R6. -/
theorem capabilityValues : Obligations.CapabilityValues := by
  intro s h
  simp only [regValue_devCap0, regValue_devCap1]
  refine ⟨?_, ?_, ?_, ?_⟩ <;>
  · intro hv
    rw [hv]
    exact ⟨rfl, rfl⟩

end Sys2Proof
end

section
/-!
The mailbox RAM of 17_memories.md: what one mailbox cycle does when one port reaches it alone, and when both do.
-/
namespace Sys2Proof.Machine

/-! ### Addresses of the mailbox RAM (R237, R543, R553) -/

theorem isMail_of_ram {a : Nat} (hlo : 0x20000 ≤ a) (hhi : a < 0x2E000) : isMail a = true := by
  simp only [isMail, decide_eq_true_eq]
  omega

/-- The RAM is whole words, so it holds every byte from an address of it to the end of its aligned word. -/
theorem mailRam_of_lane {a j : Nat} (hlo : 0x20000 ≤ a) (hhi : a < 0x2E000) (haj : a ≤ j) (hj : j < a - a % 4 + 4) :
    mailRam j = true := by
  simp only [mailRam, decide_eq_true_eq]
  omega

/-! ### Reads of a word -/

@[simp] theorem mailByte_emit (o : Out) (s : State) (j : Nat) : (emit o s).mailByte j = s.mailByte j := rfl
@[simp] theorem mailByte_useFree (s : State) (j : Nat) : (useFree s).mailByte j = s.mailByte j := rfl

theorem leNat_four (b₀ b₁ b₂ b₃ : Byte) :
    leNat [b₀, b₁, b₂, b₃] = b₀.toNat + 256 * b₁.toNat + 65536 * b₂.toNat + 16777216 * b₃.toNat := by
  simp only [leNat]
  omega

/-- Lane k of the word read is byte (k + a mod 4) mod 4 of the aligned word: the rotation of R553. -/
theorem toNat_mailWord (s : State) (a : Nat) :
    (s.mailWord a).toNat =
      (s.mailByte (a - a % 4 + (a % 4) % 4)).toNat + 256 * (s.mailByte (a - a % 4 + (1 + a % 4) % 4)).toNat +
      65536 * (s.mailByte (a - a % 4 + (2 + a % 4) % 4)).toNat + 16777216 * (s.mailByte (a - a % 4 + (3 + a % 4) % 4)).toNat := by
  have hword : s.mailWord a = BitVec.ofNat 32 (leNat
      [s.mailByte (a - a % 4 + (0 + a % 4) % 4), s.mailByte (a - a % 4 + (1 + a % 4) % 4),
        s.mailByte (a - a % 4 + (2 + a % 4) % 4), s.mailByte (a - a % 4 + (3 + a % 4) % 4)]) := rfl
  rw [hword, BitVec.toNat_ofNat, leNat_four, Nat.zero_add]
  exact Nat.mod_eq_of_lt (by omega)

/-! ### The write of one port -/

@[simp] theorem portWrite_none (s : State) : portWrite none s = s := rfl
@[simp] theorem portWrite_read (a : Nat) (s : State) : portWrite (some (.read a)) s = s := rfl

/-- The word of `a` counts as defined again: a write has given it a value. -/
def untear (a : Nat) (s : State) : State :=
  { s with mbx := { s.mbx with torn := s.mbx.torn.filter (· != a - a % 4 - 0x20000) } }

theorem portWrite_write (a : Nat) (v : Word) (s : State) :
    portWrite (some (.write a v)) s = writeMail a v (untear a s) := rfl
@[simp] theorem untear_mbx (a : Nat) (s : State) :
    (untear a s).mbx = { s.mbx with torn := s.mbx.torn.filter (· != a - a % 4 - 0x20000) } := rfl
@[simp] theorem mailByte_untear (a : Nat) (s : State) (j : Nat) : (untear a s).mailByte j = s.mailByte j := rfl

section
variable {s : State} (hw : Memory.wf s.mail = true)
include hw

theorem portWrite_wf (a : Nat) (v : Word) : Memory.wf (portWrite (some (.write a v)) s).mail = true :=
  writeMail_wf a v (untear a s) hw

theorem mailByte_portWrite {a : Nat} (v : Word) (hlo : 0x20000 ≤ a) (hhi : a < 0x2E000) (j : Nat) :
    (portWrite (some (.write a v)) s).mailByte j =
      if a ≤ j ∧ j < a - a % 4 + 4 then BitVec.ofNat 8 (v.toNat / 256 ^ (j - a)) else s.mailByte j := by
  have hlane : (a ≤ j ∧ j < a - a % 4 + 4 ∧ mailRam j = true) ↔ (a ≤ j ∧ j < a - a % 4 + 4) :=
    ⟨fun ⟨haj, hj, _⟩ => ⟨haj, hj⟩, fun ⟨haj, hj⟩ => ⟨haj, hj, mailRam_of_lane hlo hhi haj hj⟩⟩
  rw [portWrite_write, mailByte_writeMail a v (untear a s) hw, mailByte_untear]
  simp only [hlane]

/-- Beside the RAM a write touches only the list of words whose ring read was undefined. -/
theorem portWrite_rest (a : Nat) (v : Word) (m : List Host.Cell) :
    ({ portWrite (some (.write a v)) s with mail := m } : State) =
      { untear a s with mail := m } :=
  writeMail_rest a v (untear a s) hw m

theorem portWrite_frame (a : Nat) (v : Word) (m : List Host.Cell) (x : Mbx) :
    ({ portWrite (some (.write a v)) s with mail := m, mbx := x } : State) = { s with mail := m, mbx := x } :=
  congrArg (fun t : State => { t with mbx := x }) (portWrite_rest hw a v m)

theorem portWrite_wire (a : Nat) (v : Word) : (portWrite (some (.write a v)) s).wire = s.wire :=
  (congrArg State.wire (portWrite_rest hw a v s.mail) :)

theorem portWrite_fltIn (a : Nat) (v : Word) : (portWrite (some (.write a v)) s).fltIn = s.fltIn :=
  (congrArg State.fltIn (portWrite_rest hw a v s.mail) :)

theorem portWrite_mbx (a : Nat) (v : Word) : (portWrite (some (.write a v)) s).mbx = (untear a s).mbx :=
  (congrArg State.mbx (portWrite_rest hw a v s.mail) :)

end

/-! ### A port's access beside the other's (R551) -/

@[simp] theorem portAccess_none (h later : HostId) (other : Option MbxOp) (s : State) :
    portAccess h none other later s = s := rfl
@[simp] theorem portAccess_write (h later : HostId) (a : Nat) (v : Word) (other : Option MbxOp) (s : State) :
    portAccess h (some (.write a v)) other later s = s := rfl
@[simp] theorem portAccess_read_alone (h later : HostId) (a : Nat) (s : State) :
    portAccess h (some (.read a)) none later s = emit (.readData h a (s.mailWord a) false) s := rfl

theorem writesWord_write {a : Nat} (v : Word) (hlo : 0x20000 ≤ a) (hhi : a < 0x2E000) :
    writesWord (some (.write a v)) = some (a - a % 4) := by
  have hram : mailRam a = true := mailRam_of_lane hlo hhi (Nat.le_refl a) (by omega)
  simp only [writesWord, hram, if_true]

/-- The conflict falls on the aligned word, wherever in it the two addresses lie (R553). -/
theorem portAccess_read_conflict (h later : HostId) {a b : Nat} (v : Word) (s : State) (hlo : 0x20000 ≤ b) (hhi : b < 0x2E000)
    (hab : a - a % 4 = b - b % 4) :
    portAccess h (some (.read a)) (some (.write b v)) later s =
      conflict h later (a - a % 4) (emit (.readData h a (Config.freeWord s.free) false) (useFree s)) := by
  simp only [portAccess, writesWord_write v hlo hhi, hab, beq_self_eq_true, if_true]

@[simp] theorem conflict_mail (reader pulsed : HostId) (w : Nat) (s : State) : (conflict reader pulsed w s).mail = s.mail := rfl
@[simp] theorem mailByte_conflict (reader pulsed : HostId) (w : Nat) (s : State) (j : Nat) :
    (conflict reader pulsed w s).mailByte j = s.mailByte j := rfl
@[simp] theorem conflict_wire (reader pulsed : HostId) (w : Nat) (s : State) :
    (conflict reader pulsed w s).wire = .busyPulse pulsed :: s.wire := rfl
@[simp] theorem conflict_fltIn (reader pulsed : HostId) (w : Nat) (s : State) :
    (conflict reader pulsed w s).fltIn = s.fltIn ++ [.raise 142 1 0 false] := rfl
@[simp] theorem conflict_mbx (reader pulsed : HostId) (w : Nat) (s : State) :
    (conflict reader pulsed w s).mbx =
      { s.mbx with reader := reader, pulsed := pulsed, offset := w - 0x20000, count := satAdd s.mbx.count 1 } := rfl

/-! ### One mailbox cycle without a ring read -/

@[simp] theorem mbxOp_none (s : State) (h : HostId) : s.mbxOp h none = none := rfl

theorem mbxOp_some {s : State} {h : HostId} (hon : s.portOn h = true) {x : MbxOp} (hx : isMail (mbxAddr x) = true) :
    s.mbxOp h (some x) = some x := by
  simp only [State.mbxOp, hon, hx, Bool.and_self, if_true]

/-- The array takes the two accesses as they are. -/
theorem mailboxCycle_taken (s : State) (g : HostId) {oa ob : Option MbxOp} (ha : s.mbxOp .a oa = oa) (hb : s.mbxOp .b ob = ob) :
    mailboxCycle { portA := oa, portB := ob, ring := none, later := g } s =
      portWrite ob (portWrite oa (portAccess .b ob oa g (portAccess .a oa ob g s))) := by
  simp only [mailboxCycle, ringAccess, ha, hb]

theorem mailboxCycle_write {s : State} {h : HostId} (g : HostId) {a : Nat} (v : Word) (hon : s.portOn h = true)
    (ha : isMail a = true) :
    mailboxCycle { portA := if h = .a then some (.write a v) else none,
                   portB := if h = .b then some (.write a v) else none, ring := none, later := g } s =
      portWrite (some (.write a v)) s := by
  have htaken : s.mbxOp h (some (.write a v)) = some (.write a v) := mbxOp_some hon ha
  cases h with
  | a => simpa using mailboxCycle_taken s g htaken (mbxOp_none s .b)
  | b => simpa using mailboxCycle_taken s g (mbxOp_none s .a) htaken

theorem mailboxCycle_read {s : State} {h : HostId} (g : HostId) {a : Nat} (hon : s.portOn h = true) (ha : isMail a = true) :
    mailboxCycle { portA := if h = .a then some (.read a) else none,
                   portB := if h = .b then some (.read a) else none, ring := none, later := g } s =
      emit (.readData h a (s.mailWord a) false) s := by
  have htaken : s.mbxOp h (some (.read a)) = some (.read a) := mbxOp_some hon ha
  cases h with
  | a => simpa using mailboxCycle_taken s g htaken (mbxOp_none s .b)
  | b => simpa using mailboxCycle_taken s g (mbxOp_none s .a) htaken

/-- Host A reads a word that host B writes (R551). -/
theorem mailboxCycle_read_write {s : State} (g : HostId) {a b : Nat} (v : Word) (hlo : 0x20000 ≤ b) (hhi : b < 0x2E000)
    (hab : a - a % 4 = b - b % 4) (honA : s.portOn .a = true) (honB : s.portOn .b = true) :
    mailboxCycle { portA := some (.read a), portB := some (.write b v), ring := none, later := g } s =
      portWrite (some (.write b v))
        (conflict .a g (a - a % 4) (emit (.readData .a a (Config.freeWord s.free) false) (useFree s))) := by
  have hA : s.mbxOp .a (some (.read a)) = some (.read a) := mbxOp_some honA (isMail_of_ram (a := a) (by omega) (by omega))
  have hB : s.mbxOp .b (some (.write b v)) = some (.write b v) := mbxOp_some honB (isMail_of_ram (a := b) hlo hhi)
  rw [mailboxCycle_taken s g hA hB, portAccess_read_conflict .a g v s hlo hhi hab, portAccess_write, portWrite_read]

/-- Both hosts write: port B's write comes on top of port A's (R552). -/
theorem mailboxCycle_write_write {s : State} (g : HostId) {a b : Nat} (w v : Word) (ha : isMail a = true) (hb : isMail b = true)
    (honA : s.portOn .a = true) (honB : s.portOn .b = true) :
    mailboxCycle { portA := some (.write a w), portB := some (.write b v), ring := none, later := g } s =
      portWrite (some (.write b v)) (portWrite (some (.write a w)) s) :=
  mailboxCycle_taken s g (mbxOp_some honA ha) (mbxOp_some honB hb)

theorem exec_mailboxAccess (c : MbxCycle) (s : State) : exec (.mailboxAccess c) s = .next (finish (mailboxCycle c s)) := rfl

end Sys2Proof.Machine

namespace Sys2Proof
open Machine

/-- Settles O16: each cycle is a chain of port writes over a conflict record or an answer, and each link has its lemma. -/
theorem mailboxAccess : Obligations.MailboxAccess := by
  refine ⟨?alone, ?readWrite, ?writeWrite⟩
  case alone =>
    intro s h g a v ⟨hw, _, _⟩ hlo hhi hon
    have hmail : isMail a = true := isMail_of_ram hlo hhi
    rw [exec_mailboxAccess, exec_mailboxAccess, mailboxCycle_write g v hon hmail, mailboxCycle_read g hon hmail]
    exact ⟨⟨_, rfl, mailByte_portWrite hw v hlo hhi, portWrite_frame hw a v s.mail s.mbx⟩, rfl, toNat_mailWord s a⟩
  case readWrite =>
    intro s g a v ⟨hw, _, _⟩ hlo hhi h4 honA honB
    have hword : a - a % 4 = a := by omega
    have hr : Memory.wf
        (conflict .a g a (emit (.readData .a a (Config.freeWord s.free) false) (useFree s))).mail = true := by simpa using hw
    rw [exec_mailboxAccess, mailboxCycle_read_write g v hlo hhi rfl honA honB, hword]
    refine ⟨_, rfl, fun j => ?bytes, ?wire, ?fault, ?record⟩
    case bytes => rw [mailByte_portWrite hr v hlo hhi, hword, mailByte_conflict, mailByte_emit, mailByte_useFree]
    case wire => rw [portWrite_wire hr, conflict_wire, emit_wire, useFree_wire]
    case fault => rw [portWrite_fltIn hr, conflict_fltIn, emit_fltIn, useFree_fltIn]
    case record => simp only [portWrite_mbx hr, untear_mbx, conflict_mbx, emit_mbx, useFree_mbx, and_self]
  case writeWrite =>
    intro s g a b v w ⟨hw, _, _⟩ hlo hhi hab honA honB
    have hloB : 0x20000 ≤ b := by omega
    have hhiB : b < 0x2E000 := by omega
    have hwA := portWrite_wf hw a w
    rw [exec_mailboxAccess,
      mailboxCycle_write_write g w v (isMail_of_ram hlo hhi) (isMail_of_ram hloB hhiB) honA honB]
    refine ⟨_, rfl, fun k => ?bytes, ?count, ?frame⟩
    case bytes => rw [mailByte_portWrite hwA v hloB hhiB, mailByte_portWrite hw w hlo hhi]
    case count => simp only [portWrite_mbx hwA, portWrite_mbx hw, untear_mbx]
    case frame => rw [portWrite_frame hwA, portWrite_frame hw]

end Sys2Proof
end

section
/-!
What every step keeps and what every command answers: the shape of a step, its legal next state, and OTP that only moves forward.
-/
namespace Sys2Proof.Machine

/-- No row of the table stops the machine. -/
theorem exec_next (c : Instr) (s : State) : ∃ t, exec c s = .next t := by
  cases c <;> exact ⟨_, rfl⟩

theorem step_next (s : State) : ∃ t, step s = .next t := by
  cases hp : s.pending with
  | nil => exact ⟨_, step_nil hp⟩
  | cons c rest =>
    rw [step_cons hp]
    exact exec_next c _

theorem kept_self {s : State} (hl : Safety.Legal s) : Kept s s :=
  ⟨rfl, rfl, ⟨Nat.le_refl _, fun _ _ h => h⟩, hl⟩

theorem legal_reset : Safety.Legal State.reset := ⟨rfl, rfl, rfl⟩

end Sys2Proof.Machine

namespace Sys2Proof
open Machine

/-- Settles O1. -/
theorem stepRunsFront : Obligations.StepRunsFront := fun _ _ _ hp => step_cons hp

/-- Settles O2. -/
theorem everyStepGoesOn : Obligations.EveryStepGoesOn := step_next

/-- Settles O3: the queue is among what a step from a legal state keeps (`kept_step`). -/
theorem stepTakesOneCommand : Obligations.StepTakesOneCommand := by
  intro s t hl h
  obtain ⟨hpending, -, -, -⟩ := kept_step hl h
  exact hpending

/-- Settles O4: a step from a legal state leads to a kept state, and a kept state is legal. -/
theorem stepKeepsLegal : Obligations.StepKeepsLegal := by
  intro s t hl h
  obtain ⟨-, -, -, hlegal⟩ := kept_step hl h
  exact hlegal

/-- Settles O5. -/
theorem resetIsLegal : Obligations.ResetIsLegal := legal_reset

/-- Settles O6: OTP of a kept state comes after the one that it is kept against. -/
theorem otpMovesForward : Obligations.OtpMovesForward := by
  intro s t hl h
  obtain ⟨-, -, hotp, -⟩ := kept_step hl h
  exact hotp

/-- Settles O60: every command goes on, and leads from a kept state to a kept state. -/
theorem everyCommandCompletes : Obligations.EveryCommandCompletes := by
  intro c s hl
  obtain ⟨t, ht⟩ := exec_next c s
  obtain ⟨hpending, -, hotp, hlegal⟩ := kept_exec (kept_self hl) c ht
  exact ⟨t, ht, hlegal, hpending, hotp⟩

end Sys2Proof
end

section
/-!
The end of a command at rest: each part of `finish` changes nothing where what it waits for is not there.
-/
namespace Sys2Proof.Machine

theorem followMarks_same (s : State) : followMarks s s = s :=
  foldS_same _ s _ fun k _ => by rw [if_pos rfl, if_pos rfl]

theorem collectRounds_none {n : Nat} {s : State} (h : s.fltIn = []) : collectRounds n s = s := by
  cases n with
  | zero => rfl
  | succ n => simp only [collectRounds, h, sortBy, List.foldl_nil]

theorem endConditions_none {s : State} (h : ∀ e ∈ s.flts, ∀ sub ∈ e.2.active, s.holds e.1 sub = true ∨ s.kept e.1 sub = true) :
    endConditions s = s :=
  foldS_same _ s _ fun e he => foldS_same _ s _ fun sub hsub => if_pos (by simpa using h e he sub hsub)

theorem collect_none {s : State} (hoff : s.dev.phase ≠ .off) (hwaking : s.dev.phase ≠ .waking) (hin : s.fltIn = [])
    (hends : ∀ e ∈ s.flts, ∀ sub ∈ e.2.active, s.holds e.1 sub = true ∨ s.kept e.1 sub = true) : collect s = s := by
  have hrounds : followMarks s (endConditions (collectRounds 32 s)) = s := by
    rw [collectRounds_none hin, endConditions_none hends, followMarks_same]
  unfold collect
  split
  · exact absurd ‹_› hoff
  · rfl
  · exact absurd ‹_› hwaking
  · exact hrounds

theorem refreshFull_none {s : State} (h : ∀ e ∈ s.queues, (s.queue e.1).full = s.fullNow e.1 (s.queue e.1)) :
    refreshFull s = s := by
  refine foldS_same _ s _ fun q hq => ?_
  obtain ⟨e, he, rfl⟩ := List.mem_map.1 hq
  exact if_pos (h e he)

theorem updateNext_none {s : State} (h : ∀ g tag, s.fw.busy ≠ .updating g tag) : updateNext s = s := by
  unfold updateNext
  split
  · exact absurd ‹_› (h _ _)
  · rfl

theorem noteService_none {s : State} (h : ∀ e ∈ s.ctxs, ∀ c, s.ctx e.1 = some c → s.service e.1 c = c.seen) :
    noteService s = s := by
  refine foldS_same _ s _ fun e he => ?_
  split
  · rfl
  · exact if_pos (h e he _ ‹_›)

theorem flushService_none {s : State} (h : ∀ p, p < s.nPorts → (s.port p).svcOpen = true ∨ (s.port p).svcEps = []) :
    flushService s = s := by
  unfold flushService
  split
  · refine foldS_same _ s _ fun p hp => ?_
    rcases h p (List.mem_range.1 hp) with hopen | hnone
    · exact if_pos hopen
    · split
      · rfl
      · simp only [postService, hnone, List.isEmpty_nil, if_true]
  · rfl

theorem followBanks_none {s : State} (hbanks : ∀ b, b < 16 → (s.pbank b).st = 1 → s.heldIn b = 0)
    (hroom : ¬ (s.pool.k < s.servicePool.length ∧ 7 * (6143 * s.pool.k) < 8 * s.poolUsed)) : followBanks s = s := by
  have hnone : (upTo 16).filter (fun b => (s.pbank b).st == 1 && s.heldIn b != 0) = [] := by
    refine List.filter_eq_nil_iff.2 fun b hb => ?_
    have hzero := hbanks b (List.mem_range.1 hb)
    simp only [Bool.and_eq_true, beq_iff_eq, bne_iff_ne, not_and, Decidable.not_not]
    exact hzero
  unfold followBanks
  rw [hnone]
  exact if_neg hroom

theorem followTrim_none {s : State} (hrun : s.dev.power = .run → s.trims = false) (htrim : s.dev.power = .trim → s.trims = true) :
    followTrim s = s := by
  unfold followTrim
  split
  · rw [hrun ‹_›]
    rfl
  · rw [htrim ‹_›]
    rfl
  · rfl

theorem followIslands_none {s : State} (h : s.dev.islandsOff = BitVec.ofNat 21 s.offMask) : followIslands s = s := if_pos h.symm

theorem applyHeld_none {s : State} (h : s.cfgHeld = []) : applyHeld s = s := by
  simp only [applyHeld, h, List.isEmpty_nil, if_true]

theorem followLoads_none {s : State} (h : s.loadShape = s.stok.shape) : followLoads s = s := by
  unfold followLoads
  rw [h]
  exact if_pos (beq_self_eq_true _)

theorem ppsFall_none {s : State}
    (h : s.time.high = true → s.ppsDrives = true ∧ ∃ t, s.time.lastPulse = some t ∧ s.dev.monoNs < t + 100000000) :
    ppsFall s = s := by
  refine if_neg fun hfalls => ?_
  simp only [Bool.and_eq_true] at hfalls
  obtain ⟨hhigh, hpast⟩ := hfalls
  obtain ⟨hdrives, t, hpulse, hlate⟩ := h hhigh
  simp only [hdrives, hpulse] at hpast
  simp only [Bool.not_true, Bool.or_false, decide_eq_true_eq] at hpast
  omega

theorem followSecond_none {s : State} (hsecond : s.timeOn = true → s.time.now.toNat / 1000000000 ≤ s.time.second)
    (hpulse : s.time.high = true → s.ppsDrives = true ∧ ∃ t, s.time.lastPulse = some t ∧ s.dev.monoNs < t + 100000000) :
    followSecond s = s := by
  unfold followSecond
  split
  · exact ppsFall_none hpulse
  · rename_i hon
    have hseconds : s.time.now.toNat / 1000000000 - s.time.second = 0 := Nat.sub_eq_zero_of_le (hsecond (by simpa using hon))
    rw [hseconds]
    exact ppsFall_none hpulse

/-- A settled state is a fixed point of every part of `finish`. -/
theorem finish_settled {s : State} (hs : Safety.Settled s) : finish s = s := by
  obtain ⟨hoff, hwaking, hin, hends, hfull, hbusy, hcold, hseen, hports, hbanks, hroom, hrun, htrim, hislands, hheld, hshape,
    hsecond, hpulse⟩ := hs
  unfold finish
  rw [if_neg (by simpa using hoff)]
  dsimp only
  rw [refreshFull_none hfull, collect_none hoff hwaking hin hends, updateNext_none hbusy, noteService_none hseen,
    flushService_none hports, followBanks_none hbanks hroom, followTrim_none hrun htrim, followIslands_none hislands,
    applyHeld_none hheld, followLoads_none hshape, followSecond_none hsecond hpulse, hcold]
  rfl

end Sys2Proof.Machine

namespace Sys2Proof
open Machine

/-- Settles O8. -/
theorem finishAtRest : Obligations.FinishAtRest := fun _ hs => finish_settled hs

end Sys2Proof
end

section
/-!
An idle step with nothing to do, and the sequence of a STATUS register.
-/
namespace Sys2Proof.Machine

/-! ### What an idle step finds nothing to do for (R198, R224, R238, R247) -/

theorem drainHeld_none {h : HostId} {s : State} (hheld : (s.host h).heldEvents = []) (hpaused : (s.host h).paused = false) (n : Nat) :
    drainHeld h n s = s := by
  cases n with
  | zero => rfl
  | succ n => simp only [drainHeld, hheld, hpaused, Bool.not_false, true_or, if_true]

theorem modHost_same {h : HostId} {f : HostRec → HostRec} {s : State} (hf : f (s.host h) = s.host h) : modHost h f s = s := by
  unfold modHost
  rw [hf]
  cases h <;> rfl

theorem setHeld_same {h : HostId} {urgent v : Bool} {s : State} (hN : (s.host h).heldN = v) (hU : (s.host h).heldU = v) :
    setHeld h urgent v s = s := by
  refine modHost_same ?_
  cases urgent
  · exact congrArg (fun x => { s.host h with heldN := x }) hN.symm
  · exact congrArg (fun x => { s.host h with heldU := x }) hU.symm

theorem readRing_empty {h : HostId} {urgent : Bool} {s : State} (hN : (s.host h).consN = (s.host h).prodN)
    (hU : (s.host h).consU = (s.host h).prodU) (hhN : (s.host h).heldN = false) (hhU : (s.host h).heldU = false) (n : Nat) :
    readRing h urgent n s = s := by
  cases n with
  | zero => rfl
  | succ n => cases urgent <;> simp [readRing, hN, hU, setHeld_same hhN hhU]

theorem readRings_empty {h : HostId} {s : State} (hN : (s.host h).consN = (s.host h).prodN)
    (hU : (s.host h).consU = (s.host h).prodU) (hhN : (s.host h).heldN = false) (hhU : (s.host h).heldU = false) :
    readRings h s = s := by
  unfold readRings
  rw [readRing_empty hN hU hhN hhU, readRing_empty hN hU hhN hhU]
  exact ite_self s

theorem takeArrivals_none {s : State} (h : s.arrivals = []) : takeArrivals s = s := by
  have hs : ({ s with arrivals := [] } : State) = s := by rw [← h]
  unfold takeArrivals
  rw [h, hs]
  rfl

theorem nextIn_none {s : State} (h : s.ops = []) (q : Nat) : s.nextIn q = none := by
  simp only [State.nextIn, h, List.find?_nil]

theorem startNext_none {s : State} (h : s.ops = []) : startNext s = s := by
  have hnext : s.nextOp = none := by
    simp only [State.nextOp, nextIn_none h, Option.map_none, List.findSome?_eq_none_iff, implies_true]
  simp only [startNext, hnext, ite_self]

theorem svcFeedAll_none {s : State} (h : ∀ i, (s.inst i).attached = false) : svcFeedAll s = s := by
  refine foldS_same _ s _ fun i _ => ?_
  simp only [svcFeed, h i, Bool.not_false, Bool.true_or, if_true]

/-- A clock of 250 MHz outside a reset. -/
theorem passClock_passes {s : State} (hoff : s.dev.phase ≠ .off) (hreset : s.dev.phase ≠ .reset) :
    Timed { s with dev := { s.dev with monoNs := s.dev.monoNs + 4, upNs := s.dev.upNs + 4 } } (passClock s) := by
  unfold passClock
  simp only [beq_iff_eq, hoff, hreset, if_false]
  refine timed_followSecond ?_
  split <;> exact timed_refl _

/-! ### Setting SQC fields (R519) -/

theorem sq_setSqc_other {a b : Nat} (h : b ≠ a) (bits : List Nat) (s : State) : (setSqc a bits s).sq b = s.sq b :=
  tget_tset_other _ _ _ h

theorem mem_sqcSet (bits : List Nat) (r : Sqc) (i : Nat) (q : BitVec 8) :
    (i, q) ∈ (sqcSet bits r).bits ↔ (i ∈ bits ∧ q = r.seqn + 1) ∨ (i ∉ bits ∧ (i, q) ∈ r.bits) := by
  simp only [sqcSet, List.mem_append, List.mem_map, List.mem_filter, Prod.mk.injEq, List.contains_iff_mem, Bool.not_eq_true',
    ← Bool.not_eq_true]
  constructor
  · rintro (⟨b, hb, rfl, rfl⟩ | ⟨hmem, hnot⟩)
    · exact .inl ⟨hb, rfl⟩
    · exact .inr ⟨hnot, hmem⟩
  · rintro (⟨hb, rfl⟩ | ⟨hnot, hmem⟩)
    · exact .inl ⟨i, hb, rfl, rfl⟩
    · exact .inr ⟨hmem, hnot⟩

/-- A field is set when some entry of the register names it. -/
theorem sqBit_iff (s : State) (a i : Nat) : s.sqBit a i = true ↔ ∃ q, (i, q) ∈ (s.sq a).bits := by
  simp [State.sqBit]

theorem sqBit_setSqc (a : Nat) (bits : List Nat) (s : State) (i : Nat) :
    (setSqc a bits s).sqBit a i = (bits.contains i || s.sqBit a i) := by
  rw [Bool.eq_iff_iff]
  simp only [sqBit_iff, sq_setSqc, mem_sqcSet, Bool.or_eq_true, List.contains_iff_mem]
  by_cases hi : i ∈ bits <;> simp [hi]

end Sys2Proof.Machine

namespace Sys2Proof
open Machine

/-- Settles O7: every part of the idle step but the clock changes nothing, and a clock changes only what `Timed` lets it. -/
theorem idleStepPassesTime : Obligations.IdleStepPassesTime := by
  intro s hpending harrivals hops hphase hsettled hhosts hinst
  have hon : s.dev.phase ≠ .off ∧ s.dev.phase ≠ .reset := by rcases hphase with h | h <;> rw [h] <;> decide
  have hdrain (h : HostId) : drainHeld h 2000 s = s := drainHeld_none (hhosts h).1 (hhosts h).2.1 2000
  have hrings (h : HostId) : readRings h s = s := by
    obtain ⟨-, -, hN, hU, hhN, hhU⟩ := hhosts h
    exact readRings_empty hN.symm hU.symm hhN hhU
  have hidle : idle s = passClock s := by
    unfold idle
    dsimp only
    rw [hdrain, hdrain, hrings, hrings, takeArrivals_none harrivals, startNext_none hops, svcFeedAll_none hinst,
      finish_settled hsettled]
  obtain ⟨hdev, hmail, hports, hqueues, hsems, hcfg⟩ := passClock_passes hon.1 hon.2
  refine ⟨_, step_nil hpending, ?_⟩
  rw [hidle, hdev]
  exact ⟨rfl, rfl, hmail, hports, hqueues, hsems, hcfg⟩

/-- Settles O11. -/
theorem setSequenceFields : Obligations.SetSequenceFields := by
  intro s a bits
  have hsq := sq_setSqc a bits s
  refine ⟨by rw [hsq]; rfl, sqBit_setSqc a bits s, fun i q => ?_, fun b hb => sq_setSqc_other hb bits s, rfl⟩
  rw [hsq, mem_sqcSet]

end Sys2Proof
end

section
/-!
Writes through a host port: where a word goes (R514 to R518), bursts (R235), STATUS registers (R520) and CONFIG registers (R524).
-/
namespace Sys2Proof.Machine

/-! ### The address map (R514 to R517) -/

theorem isMail_below {a : Nat} (h : a < 0x20000) : isMail a = false := by
  simp only [isMail, decide_eq_false_iff_not]
  omega

theorem isObj_below {a : Nat} (h : a < 0x40000) : isObj a = false := by
  simp only [isObj, decide_eq_false_iff_not]
  omega

theorem aliasOf_queue {a : Nat} (hlo : 0x10000 ≤ a) (hhi : a < 0x14000) : aliasOf a = a := by
  unfold aliasOf
  rw [if_neg (by omega), if_pos hhi]

theorem aliasOf_port {a : Nat} (hlo : 0x18000 ≤ a) (hhi : a < 0x1C000) : aliasOf a = a := by
  unfold aliasOf
  rw [if_neg (by omega), if_neg (by omega), if_neg (by omega)]
  omega

theorem aliasOf_evt {a : Nat} (hlo : 0x3000 ≤ a) (hhi : a < 0x3800) : aliasOf a = a := by
  have hblock : a / 0x1000 = 3 := by omega
  unfold aliasOf
  rw [if_pos (by omega), hblock]
  show 0x3000 + a % 0x800 = a
  omega

theorem absentReg_shared (s : State) {a : Nat} (h : a < 0xC000 ∨ (0xE000 ≤ a ∧ a < 0x14000)) : s.absentReg a = false := by
  unfold State.absentReg
  rw [if_neg (by omega), if_neg (by omega), if_neg (by omega), if_neg (by omega)]

theorem absentReg_port (s : State) {a : Nat} (hlo : 0x18000 ≤ a) (hhi : a < 0x1C000) :
    s.absentReg a = !s.hasPort ((a - 0x18000) / 0x200) := by
  unfold State.absentReg
  rw [if_neg (by omega), if_neg (by omega), if_neg (by omega), if_pos ⟨hlo, hhi⟩]

theorem cfgPort_below {a : Nat} (h : a < 0x18000) : cfgPort a = none := if_neg (by omega)

theorem cfgPort_pwrCfg {p : Nat} (hp : p < 32) : cfgPort (0x18100 + 0x200 * p) = some p := by
  unfold cfgPort
  rw [if_pos (by omega)]
  congr 1
  omega

theorem scratchOf_other {a : Nat} (h : a < 0x6020 ∨ 0x6030 ≤ a) : scratchOf a = none := if_neg (by omega)

theorem hasPort_lt {s : State} {p : Nat} (h : s.hasPort p = true) : p < 32 := by
  have hlt : p < s.nPorts := by simpa [State.hasPort] using h
  have hmost : s.nPorts ≤ 32 := by
    unfold State.nPorts
    cases s.part.variant <;> decide
  omega

/-! ### One write and a burst of writes (R235, R236) -/

theorem decodeFault_eq (s : State) : decodeFault s = { s with fltIn := s.fltIn ++ [.raise 140 1 0 false] } := rfl

theorem hostWrite_off {s : State} {h : HostId} (hon : s.portOn h = false) (a : Nat) (v : Word) : hostWrite h a v s = s := by
  simp [hostWrite, hon]

theorem hostWrite_register {s : State} {h : HostId} {a : Nat} (hon : s.portOn h = true) (ha : a < 0x20000) (h4 : a % 4 = 0) (v : Word) :
    hostWrite h a v s = writeReg h (aliasOf a) v s := by
  simp [hostWrite, hon, isMail_below ha, h4, isObj_below (show a < 0x40000 by omega), show ¬ 0x20000 ≤ a by omega]

theorem hostWrite_unmapped {s : State} {h : HostId} {a : Nat} (hon : s.portOn h = true)
    (ha : 0x60000 ≤ a ∨ (0x30000 ≤ a ∧ a < 0x40000) ∨ (a % 4 ≠ 0 ∧ ¬ (0x20000 ≤ a ∧ a < 0x30000))) (v : Word) :
    hostWrite h a v s = decodeFault s := by
  have hmail : isMail a = false := by
    simp only [isMail, decide_eq_false_iff_not]
    omega
  by_cases h4 : a % 4 = 0
  · have hobj : isObj a = false := by
      simp only [isObj, decide_eq_false_iff_not]
      omega
    simp [hostWrite, hon, hmail, h4, hobj, show 0x20000 ≤ a by omega]
  · simp [hostWrite, hon, hmail, h4]

@[simp] theorem burstAddr_zero (a : Nat) : burstAddr a 0 = a := ite_self a

theorem burstAddr_rises {a : Nat} (h : a < 0x10004 ∨ 0x14000 ≤ a) (k : Nat) : burstAddr a k = a + 4 * k := by
  refine if_neg ?_
  rintro ⟨hlo, hhi, hoff⟩
  rw [aliasOf_queue hlo hhi] at hoff
  omega

@[simp] theorem writeBurst_nil (h : HostId) (a : Nat) (s : State) : writeBurst h a [] s = s := rfl
@[simp] theorem writeBurst_one (h : HostId) (a : Nat) (v : Word) (s : State) : writeBurst h a [v] s = hostWrite h a v s := by
  simp [writeBurst]

theorem hostBurst_one (h : HostId) (a : Nat) (v : Word) (s : State) : hostBurst h a [v] true s = hostWrite h a v s :=
  writeBurst_one h a v s

/-- The words of a burst go one after the other; the addresses count on from any start. -/
theorem foldl_hostWrite_shift (h : HostId) {f g : Nat → Nat} {i j : Nat} (hfg : ∀ k, f (i + k) = g (j + k)) (vs : List Word) (s : State) :
    (vs.foldl (fun (acc : State × Nat) v => (hostWrite h (f acc.2) v acc.1, acc.2 + 1)) (s, i)).1 =
      (vs.foldl (fun (acc : State × Nat) v => (hostWrite h (g acc.2) v acc.1, acc.2 + 1)) (s, j)).1 := by
  induction vs generalizing s i j with
  | nil => rfl
  | cons v vs ih =>
    have hhead : f i = g j := hfg 0
    simp only [List.foldl_cons, hhead]
    exact ih (i := i + 1) (j := j + 1) (fun k => by rw [Nat.add_assoc, hfg, Nat.add_assoc]) _

theorem writeBurst_cons {h : HostId} {a b : Nat} (hab : ∀ k, burstAddr a (1 + k) = burstAddr b k) (v : Word) {vs : List Word}
    (hlen : vs.length < 64) (s : State) : writeBurst h a (v :: vs) s = writeBurst h b vs (hostWrite h a v s) := by
  unfold writeBurst
  rw [List.take_of_length_le (by rw [List.length_cons]; omega), List.take_of_length_le (by omega), List.foldl_cons]
  simp only [burstAddr_zero, Nat.zero_add]
  exact foldl_hostWrite_shift h (fun k => by rw [hab, Nat.zero_add]) vs _

theorem writeBurst_off {s : State} {h : HostId} (hon : s.portOn h = false) (a : Nat) (vs : List Word) : writeBurst h a vs s = s := by
  have hfold (l : List Word) (i : Nat) :
      (l.foldl (fun (acc : State × Nat) v => (hostWrite h (burstAddr a acc.2) v acc.1, acc.2 + 1)) (s, i)).1 = s := by
    induction l generalizing i with
    | nil => rfl
    | cons v l ih =>
      rw [List.foldl_cons, hostWrite_off hon]
      exact ih _
  exact hfold _ 0

theorem exec_registerWrite (h : HostId) (a : Nat) (b : WriteBurst) (s : State) :
    exec (.registerWrite h a b) s = .next (finish (hostBurst h a b.words b.room s)) := rfl

theorem exec_statusSqcWrite (h : HostId) (a : Nat) (v : Word) (s : State) :
    exec (.statusSqcWrite h a v) s = .next (finish (hostWrite h a v s)) := rfl

theorem exec_xspiUnknownCommand (h : HostId) (cmd : Byte) (s : State) :
    exec (.xspiUnknownCommand h cmd) s =
      .next (if s.portOn h ∧ cmd ≠ 0xA5#8 ∧ cmd ≠ 0xB4#8 then finish (decodeFault s) else s) := rfl

/-! ### STATUS registers (R518, R520) -/

/-- The STATUS registers with a sequence of the blocks that no unit has to itself. -/
def isStatusReg (a : Nat) : Prop :=
  a ∈ [0x00000, 0x00004, 0x0000C, 0x00024, 0x04000, 0x04004, 0x05000, 0x05004, 0x05048, 0x0504C, 0x06000, 0x07008, 0x08000,
    0x08008, 0x09000, 0x0A000, 0x0A010, 0x0B000] ∨ (∃ q, q < 64 ∧ a = 0x10040 + 0x100 * q)

/-- What the address map and the CONFIG registers say of such an address. -/
structure PlainStatus (a : Nat) : Prop where
  unaliased : aliasOf a = a
  aligned : a % 4 = 0
  below : a < 0x14000
  shared : a < 0xC000 ∨ 0xE000 ≤ a
  noHost : ¬ (0x1000 ≤ a ∧ a < 0x3000)
  noEvt : ¬ (0x3000 ≤ a ∧ a < 0x3400)
  noScratch : a < 0x6020 ∨ 0x6030 ≤ a
  noConfig : a ∉ [aFltPolicy, aPwrmGuard, aSecGuard, aPpsCfg, aFeedCfg .a, aFeedCfg .b, aHostCtrl .a, aHostCtrl .b]
  noFlt : ¬ (0x4010 ≤ a ∧ a < 0x402C)
  noReplan : a ≠ 0x8040
  noScrub : a ≠ 0x9040
  noPush : 0x10000 ≤ a → a % 0x100 ≠ 0x20 ∧ a % 0x100 ≠ 0x24

theorem plainStatus {a : Nat} (h : isStatusReg a) : PlainStatus a := by
  rcases h with h | ⟨q, hq, rfl⟩
  · have hall : ∀ a ∈ [0x00000, 0x00004, 0x0000C, 0x00024, 0x04000, 0x04004, 0x05000, 0x05004, 0x05048, 0x0504C, 0x06000, 0x07008,
        0x08000, 0x08008, 0x09000, 0x0A000, 0x0A010, 0x0B000],
        aliasOf a = a ∧ a % 4 = 0 ∧ a < 0xC000 ∧ ¬ (0x1000 ≤ a ∧ a < 0x3000) ∧ ¬ (0x3000 ≤ a ∧ a < 0x3400) ∧
        (a < 0x6020 ∨ 0x6030 ≤ a) ∧
        a ∉ [aFltPolicy, aPwrmGuard, aSecGuard, aPpsCfg, aFeedCfg .a, aFeedCfg .b, aHostCtrl .a, aHostCtrl .b] ∧
        ¬ (0x4010 ≤ a ∧ a < 0x402C) ∧ a ≠ 0x8040 ∧ a ≠ 0x9040 := by decide
    obtain ⟨halias, h4, hlt, hhost, hevt, hscratch, hconfig, hflt, hreplan, hscrub⟩ := hall a h
    exact ⟨halias, h4, by omega, .inl hlt, hhost, hevt, hscratch, hconfig, hflt, hreplan, hscrub, by omega⟩
  · refine ⟨aliasOf_queue (by omega) (by omega), by omega, by omega, .inr (by omega), by omega, by omega, .inr (by omega), ?_,
      by omega, by omega, by omega, by omega⟩
    simp only [aFltPolicy, aPwrmGuard, aSecGuard, aPpsCfg, aFeedCfg, aHostCtrl, aHost, hCode, List.mem_cons, List.not_mem_nil, or_false]
    omega

theorem isConfig_plainStatus {a : Nat} (h : PlainStatus a) (s : State) : s.isConfig a = false := by
  have hcfg := h.noConfig
  simp only [List.mem_cons, List.not_mem_nil, or_false, not_or] at hcfg
  have hevt := h.noEvt
  simp [State.isConfig, hcfg, hevt, scratchOf_other h.noScratch, cfgPort_below (show a < 0x18000 by have := h.below; omega)]

theorem writeReg_plainStatus {a : Nat} (h : PlainStatus a) (g : HostId) (v : Word) (s : State) : writeReg g a v s = writeStatus a v s := by
  have hshared := h.shared
  have hbelow := h.below
  have hpush := h.noPush
  have habsent : s.absentReg a = false := absentReg_shared s (by omega)
  unfold writeReg
  rw [habsent, if_neg (by decide), if_neg h.noHost, scratchOf_other h.noScratch, if_neg (by decide), isConfig_plainStatus h s,
    if_neg (by decide), if_neg h.noFlt, if_neg h.noReplan, if_neg h.noScrub, if_neg (by omega), if_neg (by omega), if_neg (by omega)]

theorem hostWrite_plainStatus {a : Nat} (h : PlainStatus a) {g : HostId} {s : State} (hon : s.portOn g = true) (v : Word) :
    hostWrite g a v s = writeStatus a v s := by
  have hbelow := h.below
  rw [hostWrite_register hon (by omega) h.aligned, h.unaliased, writeReg_plainStatus h]

theorem sqcClear_empty (v : Word) : sqcClear v {} = {} := rfl

/-- A register that has no sequence yet has no field to clear. -/
theorem sq_writeStatus_same (a : Nat) (v : Word) (s : State) : (writeStatus a v s).sq a = sqcClear v (s.sq a) := by
  unfold writeStatus State.sq tget
  cases hfind : tfind a s.sqc with
  | none => simp only [hfind, Option.getD_none, sqcClear_empty]
  | some r => simp only [tfind_tset_same, Option.getD_some]

theorem sq_writeStatus_other {a b : Nat} (h : b ≠ a) (v : Word) (s : State) : (writeStatus a v s).sq b = s.sq b := by
  unfold writeStatus
  split
  · exact tget_tset_other _ _ _ h
  · rfl

theorem writeStatus_frame (a : Nat) (v : Word) (s : State) : ({ writeStatus a v s with sqc := s.sqc } : State) = s := by
  unfold writeStatus
  split <;> rfl

/-- The distance of two sequences modulo 256 (R520). -/
theorem seq_distance (v : Word) (q : BitVec 8) :
    (BitVec.setWidth 8 (v >>> 24) - q).toNat = (v.toNat / 2 ^ 24 + 256 - q.toNat) % 256 := by
  have hv := v.isLt
  have hq := q.isLt
  have htop : (BitVec.setWidth 8 (v >>> 24)).toNat = v.toNat / 2 ^ 24 := by
    rw [BitVec.toNat_setWidth, BitVec.toNat_ushiftRight, Nat.shiftRight_eq_div_pow]
    omega
  rw [BitVec.toNat_sub, htop]
  omega

theorem mem_sqcClear (v : Word) (r : Sqc) (i : Nat) (q : BitVec 8) :
    (i, q) ∈ (sqcClear v r).bits ↔
      (i, q) ∈ r.bits ∧ ¬ (v.getLsbD i = true ∧ (v.toNat / 2 ^ 24 + 256 - q.toNat) % 256 < 128) := by
  simp only [sqcClear, List.mem_filter, ← seq_distance, Bool.not_eq_true', ← Bool.not_eq_true, Bool.and_eq_true, decide_eq_true_eq]

/-! ### CONFIG registers (R403, R518, R524) -/

/-- The CONFIG registers that no host or trunk has to itself, and PORT_PWR_CFG of a present port whose island is on. -/
def isPlainConfig (s : State) (a : Nat) : Prop :=
  a ∈ [0x04008, 0x05010, 0x0B010, 0x05040, 0x05044] ∨ (∃ n, n < 256 ∧ a = 0x03000 + 4 * n) ∨
    (∃ p, s.hasPort p = true ∧ s.islandOff (0x10 + p / 8) = false ∧ a = 0x18100 + 0x200 * p)

/-- A write to such a register reaches it. -/
theorem hostWrite_plainConfig {s : State} {h : HostId} {a : Nat} (hon : s.portOn h = true) (ha : isPlainConfig s a) (v : Word) :
    hostWrite h a v s = writeCfg h a v s := by
  suffices hreg : a < 0x20000 ∧ a % 4 = 0 ∧ aliasOf a = a ∧ s.absentReg a = false ∧ ¬ (0x1000 ≤ a ∧ a < 0x3000) ∧
      scratchOf a = none ∧ s.isConfig a = true ∧ s.cfgGated a = false by
    obtain ⟨hlt, h4, halias, habsent, hhost, hscratch, hconfig, hgated⟩ := hreg
    rw [hostWrite_register hon hlt h4, halias]
    unfold writeReg holdOrWrite
    rw [habsent, if_neg (by decide), if_neg hhost, hscratch, if_neg (by decide), hconfig, if_pos rfl, hgated, if_neg (by decide)]
  have fixed {a : Nat} (hlt : a < 0xC000) (h4 : a % 4 = 0) (halias : aliasOf a = a) (hhost : ¬ (0x1000 ≤ a ∧ a < 0x3000))
      (hscratch : a < 0x6020 ∨ 0x6030 ≤ a) (hconfig : s.isConfig a = true) :
      a < 0x20000 ∧ a % 4 = 0 ∧ aliasOf a = a ∧ s.absentReg a = false ∧ ¬ (0x1000 ≤ a ∧ a < 0x3000) ∧
        scratchOf a = none ∧ s.isConfig a = true ∧ s.cfgGated a = false :=
    ⟨by omega, h4, halias, absentReg_shared s (.inl hlt), hhost, scratchOf_other hscratch, hconfig, by
      unfold State.cfgGated
      rw [cfgPort_below (by omega)]⟩
  rcases ha with ha | ⟨n, hn, rfl⟩ | ⟨p, hp, hisland, rfl⟩
  · simp only [List.mem_cons, List.not_mem_nil, or_false] at ha
    have hconfig : s.isConfig a = true := by
      rcases ha with rfl | rfl | rfl | rfl | rfl <;> rfl
    rcases ha with rfl | rfl | rfl | rfl | rfl <;>
      exact fixed (by decide) (by decide) (by decide) (by decide) (by decide) hconfig
  · refine fixed (by omega) (by omega) (aliasOf_evt (by omega) (by omega)) (by omega) (.inl (by omega)) ?_
    simp [State.isConfig, show 3072 * 4 + 4 * n < 13312 by omega, show (0x3000 + 4 * n) % 4 = 0 by omega]
  · have hp32 := hasPort_lt hp
    have hport : (0x18100 + 0x200 * p - 0x18000) / 0x200 = p := by omega
    refine ⟨by omega, by omega, aliasOf_port (by omega) (by omega), ?_, by omega, scratchOf_other (.inr (by omega)), ?_, ?_⟩
    · rw [absentReg_port s (by omega) (by omega), hport, hp]
      rfl
    · simp [State.isConfig, cfgPort_pwrCfg hp32, hp]
    · simp [State.cfgGated, cfgPort_pwrCfg hp32, hisland]

theorem writeCfg_rejected {s : State} {h : HostId} {a : Nat} {v : Word}
    (hbad : s.cfgLocked a = true ∨ rangeOk a v = false ∨ s.cfgOwner h a = false) : writeCfg h a v s = rejectCfg a s := by
  refine if_pos ?_
  rcases hbad with hb | hb | hb <;> simp [hb]

theorem writeCfg_taken {s : State} {h : HostId} {a : Nat} {v : Word} (hlock : s.cfgLocked a = false) (hrange : rangeOk a v = true)
    (howner : s.cfgOwner h a = true) : writeCfg h a v s = saveEvt a (v &&& cfgMask a) (setCfg a (v &&& cfgMask a) s) := by
  unfold writeCfg
  rw [hlock, hrange, howner]
  rfl

theorem rejectCfg_cfg (a : Nat) (s : State) : (rejectCfg a s).cfg = s.cfg := by
  unfold rejectCfg
  split
  · rfl
  · split <;> rfl

/-- A saved EVT_CFG record is the Lichen island's: the registers stand as they are. -/
theorem saveEvt_eq (a : Nat) (v : Word) (s : State) : ∃ l, saveEvt a v s = { s with lich := l } := by
  unfold saveEvt
  split
  · exact ⟨_, rfl⟩
  · exact ⟨s.lich, rfl⟩

theorem cfgAt_setCfg_other {a b : Nat} (h : b ≠ a) (v : Word) (s : State) : (setCfg a v s).cfgAt b = s.cfgAt b :=
  tget_tset_other _ _ _ h

theorem cfgCopy_setCfg {a : Nat} (h : hasLock a = true) (v : Word) (s : State) : tfind a (setCfg a v s).cfgCopy = some v := by
  unfold setCfg
  rw [h]
  exact tfind_tset_same _ _ _

end Sys2Proof.Machine

namespace Sys2Proof
open Machine

/-- Settles O12: both commands write the STATUS register of the address, which only clears fields of its sequence. -/
theorem statusWriteClearsShownEvents : Obligations.StatusWriteClearsShownEvents := by
  intro s h a v hon ha
  have hplain := plainStatus ha
  refine ⟨writeStatus a v s, ?_, ?_, ?_, fun i q => ?_, fun b hb => sq_writeStatus_other hb v s, writeStatus_frame a v s⟩
  · rw [exec_statusSqcWrite, hostWrite_plainStatus hplain hon]
  · rw [exec_registerWrite, hostBurst_one, hostWrite_plainStatus hplain hon]
  · rw [sq_writeStatus_same]
    rfl
  · rw [sq_writeStatus_same, mem_sqcClear]

/-- Settles O13: a write that reaches the register is `writeCfg`, which rejects it or stores it. -/
theorem configWriteIsWhole : Obligations.ConfigWriteIsWhole := by
  intro s h a v hon ha
  have hexec : exec (.registerWrite h a ⟨[v], true⟩) s = .next (finish (writeCfg h a v s)) := by
    rw [exec_registerWrite, hostBurst_one, hostWrite_plainConfig hon ha]
  refine ⟨fun hbad => ⟨?_, rejectCfg_cfg a s⟩, fun hlock hrange howner => ?_⟩
  · rw [hexec, writeCfg_rejected hbad]
  · obtain ⟨l, hsaved⟩ := saveEvt_eq a (v &&& cfgMask a) (setCfg a (v &&& cfgMask a) s)
    rw [hexec, writeCfg_taken hlock hrange howner, hsaved]
    exact ⟨_, rfl, cfgAt_setCfg a _ s, fun b hb => cfgAt_setCfg_other hb _ s, fun hl => cfgCopy_setCfg hl _ s, rfl, rfl, rfl⟩

/-- Settles O14. -/
theorem decodeFaults : Obligations.DecodeFaults := by
  intro s h a v cmd
  refine ⟨fun hon ha => ?_, fun hon hread hwrite => ?_, fun hon p off hoff h4 hp habsent => ?_, fun hoff vs room => ?_,
    fun hon vs => ?_, fun vs hlen ha => ?_⟩
  · rw [exec_registerWrite, hostBurst_one, hostWrite_unmapped hon ha, decodeFault_eq]
  · rw [exec_xspiUnknownCommand, if_pos ⟨hon, hread, hwrite⟩, decodeFault_eq]
  · have hport : (0x18000 + 0x200 * p + off - 0x18000) / 0x200 = p := by omega
    have hnone : s.absentReg (0x18000 + 0x200 * p + off) = true := by
      rw [absentReg_port s (by omega) (by omega), hport, habsent]
      rfl
    rw [exec_registerWrite, hostBurst_one, hostWrite_register hon (by omega) (by omega), aliasOf_port (by omega) (by omega)]
    unfold writeReg
    rw [hnone, if_pos rfl]
  · rw [exec_registerWrite]
    unfold hostBurst
    rw [writeBurst_off hoff, hoff]
    simp
  · rw [exec_registerWrite]
    simp [hostBurst, hon]
  · have hrises (k : Nat) : burstAddr a (1 + k) = burstAddr (a + 4) k := by
      rw [burstAddr_rises (by omega), burstAddr_rises (by omega)]
      omega
    refine ⟨hostWrite h a v s, writeBurst h (a + 4) vs (hostWrite h a v s), ?_, rfl, ?_⟩
    · rw [exec_registerWrite, hostBurst_one]
    · rw [← writeBurst_cons hrises v hlen]
      rfl

end Sys2Proof
end

section
/-!
The queue windows of 05_queues_and_peat_store.md: pops (R186, R187, R191), pushes (R188) and the words of a burst (R235).
-/
namespace Sys2Proof.Machine

/-! ### Items keep their order (R180 to R182) -/

theorem items_fill (r : Queue) : r.fill.items = r.items := by
  unfold Queue.fill
  split
  · rename_i hmid
    simp [Queue.items, List.isEmpty_iff.1 hmid]
  · rfl

theorem items_refill (r : Queue) : r.refill.items = r.items := by
  unfold Queue.refill
  split
  · rw [items_fill]
    simp only [Queue.items, List.append_assoc]
    rw [← List.append_assoc (r.mid.take _), List.take_append_drop]
  · rfl

theorem items_settle (b : Bool) (r : Queue) : (r.settle b).items = r.items := by
  unfold Queue.settle
  split
  · exact items_fill r
  · rw [items_fill, items_refill]

/-- What settling leaves of a queue's record. -/
theorem settle_eq (b : Bool) (r : Queue) : ∃ hd md tl, r.settle b = { r with head := hd, mid := md, tail := tl } := by
  have hfill (r : Queue) : ∃ hd tl, r.fill = { r with head := hd, tail := tl } := by
    unfold Queue.fill
    split
    · exact ⟨_, _, rfl⟩
    · exact ⟨r.head, r.tail, rfl⟩
  have hrefill : ∃ hd md tl, r.refill = { r with head := hd, mid := md, tail := tl } := by
    unfold Queue.refill
    split
    · obtain ⟨hd, tl, h⟩ := hfill { r with head := r.head ++ r.mid.take (16 - r.head.length), mid := r.mid.drop (16 - r.head.length) }
      exact ⟨hd, _, tl, h⟩
    · exact ⟨r.head, r.mid, r.tail, rfl⟩
  unfold Queue.settle
  split
  · obtain ⟨hd, tl, h⟩ := hfill r
    exact ⟨hd, r.mid, tl, h⟩
  · obtain ⟨hd, md, tl, h⟩ := hrefill
    obtain ⟨hd', tl', h'⟩ := hfill r.refill
    exact ⟨hd', md, tl', by rw [h', h]⟩

@[simp] theorem settle_claimed (b : Bool) (r : Queue) : (r.settle b).claimed = r.claimed := by
  obtain ⟨hd, md, tl, h⟩ := settle_eq b r
  rw [h]

@[simp] theorem settle_readPos (b : Bool) (r : Queue) : (r.settle b).readPos = r.readPos := by
  obtain ⟨hd, md, tl, h⟩ := settle_eq b r
  rw [h]

@[simp] theorem settle_spills (b : Bool) (s : State) (r : Queue) : s.spills (r.settle b) = s.spills r := by
  obtain ⟨hd, md, tl, h⟩ := settle_eq b r
  rw [h]
  rfl

theorem head_fill_ne_nil {r : Queue} (h : r.head ≠ [] ∨ (r.mid = [] ∧ r.tail ≠ [])) : r.fill.head ≠ [] := by
  unfold Queue.fill
  rcases h with h | ⟨hmid, htail⟩
  · split <;> simp [h]
  · by_cases hhead : r.head = []
    · simp [hmid, hhead, htail]
    · simp [hmid, hhead]

/-- A middle in payload SRAM refills at once, so that a head with items behind it is never found empty (R182). -/
theorem head_settle_ne_nil {r : Queue} (h : r.items ≠ []) : (r.settle false).head ≠ [] := by
  have hrefill : r.refill.head ≠ [] ∨ (r.refill.mid = [] ∧ r.refill.tail ≠ []) := by
    by_cases hhead : r.head = []
    · refine .inl ?_
      unfold Queue.refill
      rw [if_pos (by simp [hhead])]
      refine head_fill_ne_nil ?_
      by_cases hmid : r.mid = []
      · exact .inr ⟨by simp [hmid], by simpa [Queue.items, hhead, hmid] using h⟩
      · exact .inl (by simp [hhead, hmid])
    · refine .inl ?_
      unfold Queue.refill
      split
      · exact head_fill_ne_nil (.inl (by simp [hhead]))
      · exact hhead
  exact head_fill_ne_nil hrefill

theorem settle_empty {r : Queue} (hhead : r.head = []) (hmid : r.mid = []) (htail : r.tail = []) : r.settle false = r := by
  cases r
  simp_all [Queue.settle, Queue.refill, Queue.fill]

/-! ### What a pop finds (R186, R187, R191) -/

/-- The head holds the front item where the middle is in payload SRAM or the head is not empty. -/
theorem popFrom_item {s : State} {r : Queue} {i : Item} {rest : List Item} (hr : r.head ≠ [] ∨ s.spills r = false)
    (hi : r.items = i :: rest) :
    (s.popFrom r).shown = i ∧ (s.popFrom r).underrun = false ∧ (s.popFrom r).q.claimed = i ∧ (s.popFrom r).q.readPos = 0 ∧
      (s.popFrom r).q.items = rest := by
  let r1 : Queue := if s.spills r then r else r.settle false
  have hitems : r1.items = i :: rest := by
    show (if s.spills r then r else r.settle false).items = _
    split
    · exact hi
    · rw [items_settle, hi]
  have hhead : r1.head ≠ [] := by
    show (if s.spills r then r else r.settle false).head ≠ []
    split
    · rename_i hspills
      exact hr.resolve_right (by simp [hspills])
    · exact head_settle_ne_nil (by simp [hi])
  obtain ⟨j, hd, hcons⟩ := List.exists_cons_of_ne_nil hhead
  have hj : j = i ∧ hd ++ r1.mid ++ r1.tail = rest := by
    simpa [Queue.items, hcons] using hitems
  obtain ⟨rfl, hrest⟩ := hj
  have hpop : s.popFrom r = (match r1.head with
      | i :: rest =>
        let r2 : Queue := { r1.opened with head := rest, claimed := i, readPos := 0,
                                           replayed := if r1.opened.st = .replay then r1.replayed + 1 else r1.replayed }
        { q := r2.settle (s.spills r1), shown := i, took := some i, underrun := false }
      | [] =>
        if !r1.mid.isEmpty then
          { q := r1.opened, shown := { noneItem with flags := 4 }, took := none, underrun := false }
        else
          { q := { r1.opened with readPos := 0 }, shown := { r1.claimed with flags := r1.claimed.flags ||| 8 }, took := none,
            underrun := true }) := rfl
  rw [hpop, hcons]
  refine ⟨rfl, rfl, settle_claimed _ _, settle_readPos _ _, ?_⟩
  rw [items_settle]
  exact hrest

theorem popFrom_spilled {s : State} {r : Queue} (hhead : r.head = []) (hmid : r.mid ≠ []) (hspills : s.spills r = true) :
    s.popFrom r = { q := r.opened, shown := { noneItem with flags := 4 }, took := none, underrun := false } := by
  unfold State.popFrom
  simp [hspills, hhead, hmid]

theorem hdr0_retry : ({ noneItem with flags := 4 } : Item).hdr0 = 0x04000000#32 := by decide

theorem popFrom_empty {s : State} {r : Queue} (hhead : r.head = []) (hmid : r.mid = []) (htail : r.tail = []) :
    s.popFrom r = { q := { r.opened with readPos := 0 }, shown := { r.claimed with flags := r.claimed.flags ||| 8 }, took := none,
                    underrun := true } := by
  unfold State.popFrom
  simp [settle_empty hhead hmid htail, hhead, hmid]

section
variable {s : State} {h : HostId} {q : Nat}

theorem popHeader_notOwner (hpops : s.popsQueue h q = false) (ready : Bool) :
    popHeader h q ready s = emit (.readData h (aQue q) 0 false) (setSqc (aQueStatus q) [8] s) := by
  simp [popHeader, hpops]

theorem popHeader_busy (hpops : s.popsQueue h q = true) :
    popHeader h q false s = emit (.readData h (aQue q) 0xFFFFFFFF#32 true) s := by
  simp [popHeader, hpops]

/-- A pop of a queue other than the host's own event queue, for which held events wait. -/
theorem popHeader_pops (hpops : s.popsQueue h q = true) (hq : q ≠ 6 + hCode h) :
    popHeader h q true s =
      let p := s.popFrom (s.queue q)
      emit (.readData h (aQue q) p.shown.hdr0 false)
        (replayCheck q (if p.underrun then markUnderrun q (putQueue q p.q none s) else putQueue q p.q none s)) := by
  simp [popHeader, hpops, popQueue, hq]

theorem popData_notOwner (hpops : s.popsQueue h q = false) (ready : Bool) :
    popData h q ready s = emit (.readData h (aQue q + 0x10) 0 false) (setSqc (aQueStatus q) [8] s) := by
  simp [popData, hpops]

theorem popData_busy (hpops : s.popsQueue h q = true) :
    popData h q false s = emit (.readData h (aQue q + 0x10) 0xFFFFFFFF#32 true) s := by
  simp [popData, hpops]

theorem popData_word (hpops : s.popsQueue h q = true) :
    popData h q true s =
      emit (.readData h (aQue q + 0x10) (BitVec.ofNat 32 (field (s.queue q).claimed.payload (4 * (s.queue q).readPos) 4)) false)
        (setQueue q { s.queue q with readPos := (s.queue q).readPos + 1 } s) := by
  simp [popData, hpops]

/-- A read of the payload leaves the port on. -/
theorem portOn_popData (ready : Bool) (g : HostId) : (popData h q ready s).portOn g = s.portOn g := by
  cases hpops : s.popsQueue h q with
  | false => rw [popData_notOwner hpops]; rfl
  | true =>
    cases ready with
    | false => rw [popData_busy hpops]; rfl
    | true => rw [popData_word hpops]; rfl

/-! ### The words of a READ (R186, R189, R235) -/

theorem exec_quePopHdr0Read (hq : q < 64) (hon : s.portOn h = true) (b : ReadBurst) :
    exec (.quePopHdr0Read h q b) s = .next (finish (readBurst h q 0 b.words b.ready s)) :=
  congrArg Host.Outcome.next (if_pos ⟨hq, hon⟩)

theorem exec_quePopDataRead (hq : q < 64) (hon : s.portOn h = true) (b : ReadBurst) :
    exec (.quePopDataRead h q b) s = .next (finish (readBurst h q 0x10 b.words b.ready s)) :=
  congrArg Host.Outcome.next (if_pos ⟨hq, hon⟩)

theorem aliasOf_aQue (hq : q < 64) {off : Nat} (hoff : off < 0x100) : aliasOf (aQue q + off) = aQue q + off :=
  aliasOf_queue (by unfold aQue; omega) (by unfold aQue; omega)

/-- QUE_POP_DATA answers the same address again; the header words follow one another. -/
theorem burstAddr_popData (hq : q < 64) (k : Nat) : burstAddr (aQue q + 0x10) k - aQue q = 0x10 := by
  have hoff : (aQue q + 0x10) % 0x100 = 0x10 := by unfold aQue; omega
  have hin : 0x10000 ≤ aQue q + 0x10 ∧ aQue q + 0x10 < 0x14000 := by unfold aQue; omega
  unfold burstAddr
  simp only [aliasOf_aQue hq (show 0x10 < 0x100 by decide), hoff, hin, and_self, true_or, if_true]
  omega

theorem burstAddr_popHdr0 (hq : q < 64) (k : Nat) : burstAddr (aQue q + 0) k - aQue q = 4 * k := by
  have hoff : (aQue q + 0) % 0x100 = 0 := by unfold aQue; omega
  unfold burstAddr
  simp only [aliasOf_aQue hq (show 0 < 0x100 by decide), hoff]
  rw [if_neg (by omega)]
  omega

theorem readBurst_popHdr0 (hq : q < 64) {n : Nat} (hn : n < 64) (ready : Bool) :
    readBurst h q 0 n ready s = foldS (upTo n) (fun k => readQueue h q (4 * k) ready) s := by
  unfold readBurst sat
  simp only [burstAddr_popHdr0 hq, hn, if_true]

theorem readBurst_popHdr0_one (hq : q < 64) (ready : Bool) : readBurst h q 0 1 ready s = popHeader h q ready s :=
  readBurst_popHdr0 hq (by decide) ready

/-- The same operation `n + 1` times: once, and then `n` times. -/
theorem foldS_again {σ : Type} (f : σ → σ) (n : Nat) (s : σ) :
    foldS (upTo (n + 1)) (fun _ => f) s = foldS (upTo n) (fun _ => f) (f s) := by
  unfold foldS upTo
  rw [List.range_succ_eq_map, List.foldl_cons, List.foldl_map]

theorem readBurst_popData (hq : q < 64) {n : Nat} (hn : n ≤ 64) (ready : Bool) :
    readBurst h q 0x10 n ready s = foldS (upTo n) (fun _ => popData h q ready) s := by
  have hsat : sat 64 n = n := by
    unfold sat
    split <;> omega
  unfold readBurst
  rw [hsat]
  simp only [burstAddr_popData hq]
  rfl

theorem readBurst_popData_succ (hq : q < 64) {n : Nat} (hn : n < 64) (ready : Bool) :
    readBurst h q 0x10 (n + 1) ready s = readBurst h q 0x10 n ready (popData h q ready s) := by
  rw [readBurst_popData hq (by omega), readBurst_popData hq (by omega), foldS_again]

theorem regValue_queue (hq : q < 64) {off : Nat} (hoff : off < 0x100) (h4 : off % 4 = 0) :
    s.regValue h (aQue q + off) = BitVec.ofNat 32 (s.queReg h q off) := by
  have hin : 0x10000 ≤ aQue q + off ∧ aQue q + off < 0x14000 := by unfold aQue; omega
  have hal : (aQue q + off) % 4 = 0 := by unfold aQue; omega
  have hwin : (aQue q + off - 0x10000) / 0x100 = q ∧ (aQue q + off) % 0x100 = off := by unfold aQue; omega
  have hlive : s.blockReg h (aQue q + off) = s.queReg h q off := by
    unfold State.blockReg State.liveReg
    rw [if_pos (.inr hin)]
    simp only [show ¬ aQue q + off < 0x1000 by omega, show ¬ aQue q + off < 0x3000 by omega, show ¬ aQue q + off < 0x4000 by omega,
      show ¬ aQue q + off < 0x5000 by omega, show ¬ aQue q + off < 0x6000 by omega, show ¬ aQue q + off < 0x7000 by omega,
      show ¬ aQue q + off < 0x8000 by omega, show ¬ aQue q + off < 0x9000 by omega, show ¬ aQue q + off < 0xA000 by omega,
      show ¬ aQue q + off < 0xB000 by omega, show ¬ aQue q + off < 0xC000 by omega, show ¬ aQue q + off < 0xD000 by omega,
      show ¬ aQue q + off < 0x10000 by omega, hin.2, hwin, if_true, if_false]
  simp [State.regValue, isMail_below (show aQue q + off < 0x20000 by omega), hal,
    isObj_below (show aQue q + off < 0x40000 by omega), show ¬ 0x20000 ≤ aQue q + off by omega, aliasOf_aQue hq hoff,
    absentReg_shared s (.inr (show 0xE000 ≤ aQue q + off ∧ aQue q + off < 0x14000 by omega)), hlive]

theorem queReg_source (s : State) (h : HostId) (q : Nat) :
    s.queReg h q 4 = if s.popsQueue h q then (s.queue q).claimed.source.toNat else 0 := rfl
theorem queReg_stampLow (s : State) (h : HostId) (q : Nat) :
    s.queReg h q 8 = if s.popsQueue h q then low32 (s.queue q).claimed.stamp.toNat else 0 := rfl
theorem queReg_stampHigh (s : State) (h : HostId) (q : Nat) :
    s.queReg h q 0x0C = if s.popsQueue h q then high32 (s.queue q).claimed.stamp.toNat else 0 := rfl

/-- A header word behind QUE_POP_HDR0, to the host that pops the queue. -/
theorem readQueue_header (hq : q < 64) (hpops : s.popsQueue h q = true) {off : Nat} (hoff : off = 4 ∨ off = 8 ∨ off = 0x0C) :
    readQueue h q off true s = emit (.readData h (aQue q + off) (BitVec.ofNat 32 (s.queReg h q off)) false) s := by
  unfold readQueue
  rw [if_neg (by omega), if_neg (by omega), hpops]
  dsimp only
  rw [regValue_queue hq (by omega) (by omega), if_neg (by decide), if_neg (by simp)]

theorem readQueue_header_notOwner (hq : q < 64) (hpops : s.popsQueue h q = false) :
    readQueue h q 4 true s = emit (.readData h (aQue q + 4) 0 false) (setSqc (aQueStatus q) [8] s) := by
  have hzero : s.queReg h q 4 = 0 := (queReg_source s h q).trans (by rw [hpops]; rfl)
  unfold readQueue
  rw [if_neg (by decide), if_neg (by decide), hpops]
  dsimp only
  rw [regValue_queue hq (by decide) (by decide), hzero, if_neg (by decide), if_pos (by simp)]
  rfl

/-! ### Pushes (R188, R189) -/

/-- A write to the two push registers of a window. -/
theorem writeReg_push (hq : q < 64) {off : Nat} (hoff : off = 0x20 ∨ off = 0x24) (v : Word) :
    writeReg h (aQue q + off) v s = if off = 0x20 then pushHeader h q v s else pushData h q v s := by
  have hin : 0x10000 ≤ aQue q + off ∧ aQue q + off < 0x14000 := by unfold aQue; omega
  have hwin : (aQue q + off - 0x10000) / 0x100 = q ∧ (aQue q + off) % 0x100 = off := by unfold aQue; omega
  have hconfig : s.isConfig (aQue q + off) = false := by
    simp only [State.isConfig, cfgPort_below (show aQue q + off < 0x18000 by omega), scratchOf_other (.inr (show 0x6030 ≤ aQue q + off by omega)),
      aFltPolicy, aPwrmGuard, aSecGuard, aPpsCfg, aFeedCfg, aHostCtrl, aHost, hCode, Option.isSome_none, Bool.or_false,
      Bool.or_eq_false_iff, Bool.and_eq_false_iff, decide_eq_false_iff_not, beq_eq_false_iff_ne]
    omega
  unfold writeReg
  rw [absentReg_shared s (.inr (show 0xE000 ≤ aQue q + off ∧ aQue q + off < 0x14000 by omega)), if_neg (by decide),
    if_neg (by omega), scratchOf_other (.inr (show 0x6030 ≤ aQue q + off by omega)), if_neg (by decide), hconfig,
    if_neg (by decide), if_neg (by omega), if_neg (by omega), if_neg (by omega), hwin.1, hwin.2]
  rcases hoff with rfl | rfl
  · rw [if_pos ⟨hin.1, hin.2, rfl⟩, if_pos rfl]
  · rw [if_neg (by omega), if_pos ⟨hin.1, hin.2, rfl⟩, if_neg (by decide)]

theorem hostWrite_push (hq : q < 64) (hon : s.portOn h = true) {off : Nat} (hoff : off = 0x20 ∨ off = 0x24) (v : Word) :
    hostWrite h (aQue q + off) v s = if off = 0x20 then pushHeader h q v s else pushData h q v s := by
  have hin : aQue q + off < 0x20000 ∧ (aQue q + off) % 4 = 0 := by unfold aQue; omega
  rw [hostWrite_register hon hin.1 hin.2, aliasOf_aQue hq (by omega), writeReg_push hq hoff]

theorem exec_quePushHdrWrite (hq : q < 64) (hon : s.portOn h = true) (v : Word) :
    exec (.quePushHdrWrite h q v) s = .next (finish (pushHeader h q v s)) :=
  (congrArg Host.Outcome.next (if_pos hq)).trans (by rw [hostWrite_push hq hon (.inl rfl), if_pos rfl])

theorem exec_quePushDataBurst (hq : q < 64) (vs : List Word) :
    exec (.quePushDataWrite h q vs) s = .next (finish (writeBurst h (aQue q + 0x24) vs s)) :=
  congrArg Host.Outcome.next (if_pos hq)

theorem exec_quePushDataWrite (hq : q < 64) (hon : s.portOn h = true) (v : Word) :
    exec (.quePushDataWrite h q [v]) s = .next (finish (pushData h q v s)) := by
  rw [exec_quePushDataBurst hq, writeBurst_one, hostWrite_push hq hon (.inr rfl), if_neg (by decide)]

theorem burstAddr_pushData (hq : q < 64) (k : Nat) : burstAddr (aQue q + 0x24) k = aQue q + 0x24 := by
  have hoff : (aQue q + 0x24) % 0x100 = 0x24 := by unfold aQue; omega
  have hin : 0x10000 ≤ aQue q + 0x24 ∧ aQue q + 0x24 < 0x14000 := by unfold aQue; omega
  unfold burstAddr
  simp only [aliasOf_aQue hq (show 0x24 < 0x100 by decide), hoff, hin, and_self, or_true, if_true]

theorem pushHeader_refused (hpush : s.pushesQueue h q = true) {v : Word}
    (hbad : s.pushRefused q (v.toNat / 65536 % 16) (v.toNat % 65536) = true) :
    pushHeader h q v s = setSqc (aQueStatus q) [9] (setQueue q { s.queue q with push := none } s) := by
  simp [pushHeader, hpush, hbad, modQueue]

theorem pushRefused_iff {typ len : Nat} :
    s.pushRefused q typ len = true ↔ (s.queue q).full = true ∨ (s.queue q).st = .disabled ∨ typ ≠ 1 ∨ 4080 < len := by
  simp [State.pushRefused, or_assoc]

theorem pushData_none (hpush : s.pushesQueue h q = true) (hnone : (s.queue q).push = none) (v : Word) : pushData h q v s = s := by
  simp [pushData, hpush, hnone]

theorem length_u32 (v : Nat) : (u32 v).length = 4 := rfl

theorem pushData_more (hpush : s.pushesQueue h q = true) {p : Push} (hp : (s.queue q).push = some p) {v : Word}
    (hmore : p.data.length + 4 < p.len) :
    pushData h q v s = setQueue q { s.queue q with push := some { p with data := p.data ++ u32 v.toNat } } s := by
  simp [pushData, hpush, hp, length_u32, show ¬ p.len ≤ p.data.length + 4 by omega, modQueue]

theorem pushData_last (hpush : s.pushesQueue h q = true) {p : Push} (hp : (s.queue q).push = some p) {v : Word}
    (hlast : p.len ≤ p.data.length + 4) : pushData h q v s = commitPush h q ((p.data ++ u32 v.toNat).take p.len) s := by
  simp [pushData, hpush, hp, length_u32, hlast]

theorem pushHeader_starts (hpush : s.pushesQueue h q = true) {v : Word}
    (hgood : s.pushRefused q (v.toNat / 65536 % 16) (v.toNat % 65536) = false) :
    pushHeader h q v s =
      if v.toNat % 65536 = 0 then commitPush h q [] s
      else setQueue q { s.queue q with push := some { len := v.toNat % 65536, data := [] } } s := by
  simp [pushHeader, hpush, hgood, modQueue]

end

end Sys2Proof.Machine

namespace Sys2Proof
open Machine

/-- Settles O17: each access is a pop, a payload read or a push of its window, and each of these has its lemma. -/
theorem queuePopAndPush : Obligations.QueuePopAndPush := by
  constructor
  · intro s h q hq hon
    have hdr0 (ready : Bool) : exec (.quePopHdr0Read h q ⟨1, ready⟩) s = .next (finish (popHeader h q ready s)) := by
      rw [exec_quePopHdr0Read hq hon, readBurst_popHdr0_one hq]
    have data (ready : Bool) : exec (.quePopDataRead h q ⟨1, ready⟩) s = .next (finish (popData h q ready s)) := by
      rw [exec_quePopDataRead hq hon, readBurst_popData hq (show 1 ≤ 64 by decide)]
      rfl
    refine ⟨fun hpops ready => ?_, fun hpops => ?_, fun hpops hown hr i rest hi => ?_, fun hpops hown hhead hmid hspills => ?_,
      fun hpops hown hhead hmid htail => ?_, fun hpops => ?_, fun n ready hn => ?_, popHeader h q true s, hdr0 true, fun hpops => ?_,
      fun hpops => ?_⟩
    · rw [hdr0, data, popHeader_notOwner hpops, popData_notOwner hpops]
      exact ⟨rfl, rfl⟩
    · rw [hdr0, data, popHeader_busy hpops, popData_busy hpops]
      exact ⟨rfl, rfl⟩
    · obtain ⟨hshown, hunder, hclaimed, hpos, hitems⟩ := popFrom_item hr hi
      rw [hdr0, popHeader_pops hpops hown]
      simp only [hshown, hunder]
      exact ⟨rfl, hclaimed, hpos, hitems⟩
    · rw [hdr0, popHeader_pops hpops hown, popFrom_spilled hhead hmid hspills]
      simp only [hdr0_retry, Bool.false_eq_true, if_false]
    · rw [hdr0, popHeader_pops hpops hown, popFrom_empty hhead hmid htail]
      rfl
    · rw [data, popData_word hpops]
    · refine ⟨popData h q ready s, _, data ready, exec_quePopDataRead hq ((portOn_popData ready h).trans hon) _, ?_⟩
      rw [exec_quePopDataRead hq hon, readBurst_popData_succ hq hn]
    · rw [exec_quePopHdr0Read hq hon, readBurst_popHdr0 hq (show 4 < 64 by decide)]
      show Host.Outcome.next (finish (readQueue h q 0x0C true (readQueue h q 8 true (readQueue h q 4 true (popHeader h q true s))))) = _
      generalize popHeader h q true s = t at hpops ⊢
      have hpops' (o : Out) : (emit o t).popsQueue h q = true := hpops
      have hpops'' (o o' : Out) : (emit o (emit o' t)).popsQueue h q = true := hpops
      rw [readQueue_header hq hpops (.inl rfl), readQueue_header hq (hpops' _) (.inr (.inl rfl)),
        readQueue_header hq (hpops'' _ _) (.inr (.inr rfl)), queReg_source, queReg_stampLow, queReg_stampHigh, hpops, hpops', hpops'']
      simp only [if_true, BitVec.ofNat_toNat, BitVec.setWidth_eq]
      rfl
    · rw [exec_quePopHdr0Read hq hon, readBurst_popHdr0 hq (show 2 < 64 by decide)]
      show Host.Outcome.next (finish (readQueue h q 4 true (popHeader h q true s))) = _
      rw [readQueue_header_notOwner hq hpops]
  · intro s h q v hq hon
    have hdr := exec_quePushHdrWrite hq hon v
    have data := exec_quePushDataWrite hq hon v
    refine ⟨fun hpush => ?_, fun hpush hbad => ?_, fun hpush hfull hst htyp hlen hle => ?_, fun hpush hfull hst htyp hlen => ?_,
      fun w vs hvs => ?_, fun hpush hnone => ?_, fun hpush p hp hmore => ?_, fun hpush p hp hlast => ?_⟩
    · simp [hdr, data, pushHeader, pushData, hpush]
    · rw [hdr, pushHeader_refused hpush (pushRefused_iff.2 hbad)]
    · have hgood : s.pushRefused q (v.toNat / 65536 % 16) (v.toNat % 65536) = false := by
        simp [State.pushRefused, hfull, hst, htyp, hle]
      rw [hdr, pushHeader_starts hpush hgood, if_neg (by omega)]
    · have hgood : s.pushRefused q (v.toNat / 65536 % 16) (v.toNat % 65536) = false := by
        simp [State.pushRefused, hfull, hst, htyp, hlen]
      rw [hdr, pushHeader_starts hpush hgood, if_pos hlen]
      rfl
    · refine ⟨pushData h q v s, _, data, exec_quePushDataBurst hq _, ?_⟩
      have hcons := writeBurst_cons (h := h) (a := aQue q + 0x24) (b := aQue q + 0x24) (vs := w :: vs)
        (fun k => by rw [burstAddr_pushData hq, burstAddr_pushData hq]) v (by simpa using by omega) s
      rw [exec_quePushDataBurst hq, hcons, hostWrite_push hq hon (.inr rfl), if_neg (by decide)]
    · rw [data, pushData_none hpush hnone]
    · rw [data, pushData_more hpush hp (by omega)]
    · rw [data, pushData_last hpush hp hlast]
      rfl

end Sys2Proof
end

section
/-!
Writes to a HOST block and to LICH_SCRATCH (06_command_transports.md, 16_registers.md), and the loss of a binding (R230, R231).
-/
namespace Sys2Proof.Machine

/-! ### The loss of a binding -/

theorem posted_ite {k a b : State} {c : Prop} [Decidable c] (ha : Posted k a) (hb : Posted k b) : Posted k (if c then a else b) := by
  split
  · exact ha
  · exact hb

theorem posted_enterFlight {k s : State} (hk : Posted k s) (q : Nat) : Posted k (enterFlight q s) := by
  have hroute (r : Queue) (evs : List (Nat × Nat × Nat)) : Posted k (postQueue q evs (setQueue q r s)) :=
    posted_postQueue (posted_setQueue hk q r) q evs
  unfold enterFlight
  dsimp only
  split
  · exact hk
  · exact posted_ite (posted_putQueue (posted_setSqc (hroute _ _) _ _) _ _ _) (posted_putQueue (hroute _ _) _ _ _)

theorem posted_flightHost {k s : State} (hk : Posted k s) (h : HostId) : Posted k (flightHost h s) :=
  posted_foldS (fun q _ ht => posted_enterFlight ht q) _ hk

/-- The choice of R125 is a field of the Stoker. -/
theorem updateChoice_eq (s : State) : ∃ k, updateChoice s = { s with stok := k } := by
  unfold updateChoice
  split
  · exact ⟨_, rfl⟩
  · exact ⟨s.stok, rfl⟩

/-- The state of a host and its commands once its local port has ended the binding: commands that wait are kept (R237). -/
theorem unbindHost_port {h : HostId} {s : State} {v : Via} (hv : (s.host h).bound = some v) :
    let t := unbindHost h 3 true s
    (t.host h).bound = none ∧ (t.host h).lostCause = 3 ∧ (t.host h).semTimer = true ∧ t.cfg = s.cfg ∧
      t.ops = (s.ops.map fun o => if o.host == h && o.started then { o with bound := true } else o) ∧
      t.arrivals = s.arrivals ∧ t.mail = s.mail ∧ t.ports = s.ports := by
  let s2 := raise 141 1 (setSqc (aHostBind h) [17] (modHost h (fun r => { r with bound := none, lostCause := 3 }) s))
  have hs2 : s2.ops = s.ops ∧ s2.arrivals = s.arrivals ∧ s2.mail = s.mail ∧ s2.ports = s.ports ∧ s2.cfg = s.cfg := by
    cases h <;> exact ⟨rfl, rfl, rfl, rfl, rfl⟩
  have hlost : (s2.host h).bound = none ∧ (s2.host h).lostCause = 3 := by cases h <;> exact ⟨rfl, rfl⟩
  obtain ⟨s3, hs3, hp⟩ : ∃ s3, Posted s2 s3 ∧ unbindHost h 3 true s =
      updateChoice (modHost h (fun r => { r with semTimer := true }) (ownReplies h true s3)) := by
    unfold unbindHost
    simp only [hv]
    refine ⟨_, posted_flightHost ?_ h, rfl⟩
    split
    · exact posted_postTo (Posted.refl _) _ _ _
    · exact Posted.refl _
  obtain ⟨k, hk⟩ := updateChoice_eq (modHost h (fun r => { r with semTimer := true }) (ownReplies h true s3))
  have hhost := hs3.hosts h
  have hbound : (s3.host h).bound = none := (congrArg HostRec.bound hhost).trans hlost.1
  have hcause : (s3.host h).lostCause = 3 := (congrArg HostRec.lostCause hhost).trans hlost.2
  obtain ⟨hops, harrivals, hmail, hports, hcfg⟩ := hs2
  show (let t := unbindHost h 3 true s; _)
  rw [hp, hk]
  have hownOps : (ownReplies h true s3).ops = s.ops.map fun o => if o.host == h && o.started then { o with bound := true } else o := by
    simp [ownReplies, hs3.ops, hops]
  have hown : (ownReplies h true s3).host h = s3.host h := by cases h <;> rfl
  cases h <;>
    exact ⟨hbound, hcause, rfl, hs3.cfg.trans hcfg, hownOps, hs3.arrivals.trans harrivals, hs3.mail.trans hmail,
      hs3.ports.trans hports⟩

/-! ### The address of a HOST register (R239, R515) -/

section
variable {s : State} {h : HostId}

theorem hostWrite_hostBlock (hon : s.portOn h = true) (blk : HostId) {off : Nat} (hoff : off < 0x100) (h4 : off % 4 = 0) (v : Word) :
    hostWrite h (aHost blk + off) v s = if blk = h then writeHostBlock h off v s else decodeFault s := by
  have hin : 0x1000 ≤ aHost blk + off ∧ aHost blk + off < 0x3000 := by cases blk <;> simp only [aHost, hCode] <;> omega
  have hblk : (aHost blk + off - 0x1000) / 0x1000 = hCode blk := by cases blk <;> simp only [aHost, hCode] <;> omega
  have hlow : (aHost blk + off) % 0x1000 = off := by cases blk <;> simp only [aHost, hCode] <;> omega
  have halign : (aHost blk + off) % 4 = 0 := by cases blk <;> simp only [aHost, hCode] <;> omega
  have halias : aliasOf (aHost blk + off) = aHost blk + off := by
    have hdiv : (aHost blk + off) / 0x1000 = 1 + hCode blk := by cases blk <;> simp only [aHost, hCode] <;> omega
    unfold aliasOf
    rw [if_pos (by omega), hdiv]
    cases blk <;> simp only [aHost, hCode] <;> omega
  have hsame : hCode blk = hCode h ↔ blk = h := by cases blk <;> cases h <;> decide
  rw [hostWrite_register hon (by omega) halign, halias]
  unfold writeReg
  rw [absentReg_shared s (by omega), if_neg (by decide), if_pos hin, hblk, hlow]
  simp only [hsame]

theorem hOther_ne (h : HostId) : hOther h ≠ h := by cases h <;> decide

theorem exec_hostxDoorbellWrite (hon : s.portOn h = true) (blk : HostId) (v : Word) :
    exec (.hostxDoorbellWrite h blk v) s = .next (finish (if blk = h then doorbell h v s else decodeFault s)) := by
  show Host.Outcome.next (finish (hostWrite h (aHost blk + 0x10) v s)) = _
  rw [hostWrite_hostBlock hon blk (by decide) (by decide)]
  rfl

theorem exec_hostxHeartbeatWrite (hon : s.portOn h = true) (blk : HostId) (v : Word) :
    exec (.hostxHeartbeatWrite h blk v) s = .next (finish (if blk = h then s else decodeFault s)) := by
  show Host.Outcome.next (finish (hostWrite h (aHost blk + 0x0C) v s)) = _
  rw [hostWrite_hostBlock hon blk (by decide) (by decide)]
  rfl

theorem exec_hostxCtrlWrite (hon : s.portOn h = true) (blk : HostId) (v : Word) :
    exec (.hostxCtrlWrite h blk v) s = .next (finish (if blk = h then hostCtrl h v s else decodeFault s)) := by
  show Host.Outcome.next (finish (hostWrite h (aHost blk + 8) v s)) = _
  rw [hostWrite_hostBlock hon blk (by decide) (by decide)]
  rfl

/-! ### Doorbell and control (R229, R230, R237, R238) -/

theorem boundElsewhere_iff : s.boundElsewhere h = true ↔ (s.host h).bound.isSome = true ∧ (s.host h).bound ≠ some (.localPort h) := by
  simp [State.boundElsewhere, State.bellRefused]

theorem boundElsewhere_false (hb : (s.host h).bound = none ∨ (s.host h).bound = some (.localPort h)) : s.boundElsewhere h = false := by
  rcases hb with hb | hb <;> simp [State.boundElsewhere, State.bellRefused, hb]

theorem readRings_unready (hphase : s.dev.phase ≠ .ready) : readRings h s = s := by
  refine if_neg ?_
  simp [State.readsRings, hphase]

/-- With port_enable 0 no slot of the host's rings is read. -/
theorem readRings_disabled (hoff : s.portEnable h = false) : readRings h s = s := by
  refine if_neg fun hreads => ?_
  simp only [State.readsRings, State.hears, Bool.and_eq_true, beq_iff_eq] at hreads
  obtain ⟨⟨hready, hhears⟩, -⟩ := hreads
  simp [hready, hoff] at hhears

theorem doorbell_elsewhere (hb : s.boundElsewhere h = true) (v : Word) : doorbell h v s = setSqc (aRing h) [3] s := if_pos hb

theorem doorbell_disabled (hb : s.boundElsewhere h = false) (hoff : s.portEnable h = false) (v : Word) :
    doorbell h v s =
      let n : BitVec 8 := v.setWidth 8
      let u : BitVec 8 := (v >>> 8).setWidth 8
      let badN := v.getLsbD 16 && decide (64 < (n - (s.host h).consN).toNat)
      let badU := v.getLsbD 17 && decide (16 < (u - (s.host h).consU).toNat)
      let s1 := modHost h (fun r => { r with prodN := if v.getLsbD 16 && !badN then n else r.prodN,
                                             prodU := if v.getLsbD 17 && !badU then u else r.prodU }) s
      if badN || badU then setSqc (aRing h) [2] s1 else s1 := by
  unfold doorbell
  rw [if_neg (by simp [hb])]
  refine readRings_disabled ?_
  have hcfg (f : HostRec → HostRec) : (modHost h f s).portEnable h = s.portEnable h := by cases h <;> rfl
  split
  · exact (hcfg _).trans hoff
  · exact (hcfg _).trans hoff

/-- The control register stores bit 16 of the value. -/
theorem and_portEnable (v : Word) : v &&& 0x10000#32 = if v.getLsbD 16 then 0x10000#32 else 0#32 := by
  have hone : (0x10000#32 : Word) = BitVec.twoPow 32 16 := by decide
  rw [hone, BitVec.and_twoPow]

theorem hostCtrl_eq (v : Word) :
    hostCtrl h v s =
      let s1 := setCfg (aHostCtrl h) (if v.getLsbD 16 then 0x10000#32 else 0#32) s
      if !v.getLsbD 16 then (if (s.host h).bound = some (.localPort h) then unbindHost h 3 true s1 else s1)
      else if s.boundElsewhere h && s.unread h then setSqc (aRing h) [3] s1
      else readRings h s1 := by
  unfold hostCtrl
  rw [and_portEnable]

end

/-! ### LICH_SCRATCH (R526, R533) -/

theorem hostWrite_scratch {s : State} {h : HostId} (hon : s.portOn h = true) {k : Nat} (hk : k < 4) (v : Word) :
    hostWrite h (aScratch k) v s = queueLich k v s := by
  have halias : aliasOf (aScratch k) = aScratch k := by
    have hdiv : aScratch k / 0x1000 = 6 := by unfold aScratch; omega
    unfold aliasOf
    rw [if_pos (by unfold aScratch; omega), hdiv]
    show 0x1000 * 6 + aScratch k % 0x100 = aScratch k
    unfold aScratch
    omega
  have hscratch : scratchOf (aScratch k) = some k := by
    unfold scratchOf aScratch
    rw [if_pos (by omega)]
    congr 1
    omega
  have hindex : (aScratch k - 0x6020) / 4 = k := by unfold aScratch; omega
  rw [hostWrite_register hon (by unfold aScratch; omega) (by unfold aScratch; omega), halias]
  unfold writeReg
  rw [absentReg_shared s (.inl (by unfold aScratch; omega)), if_neg (by decide), if_neg (by unfold aScratch; omega), hscratch,
    Option.isSome_some, if_pos rfl, hindex]

theorem exec_lichConfigWrite {s : State} {h : HostId} (hon : s.portOn h = true) {k : Nat} (hk : k < 4) (v : Word) :
    exec (.lichConfigWrite h k v) s = .next (finish (queueLich k v s)) :=
  (congrArg Host.Outcome.next (if_pos hk)).trans (by rw [hostWrite_scratch hon hk])

theorem exec_lichWriteApplied (s : State) : exec .lichWriteApplied s = .next (finish (lichApplied s)) := rfl

end Sys2Proof.Machine

namespace Sys2Proof
open Machine

/-- Settles O18. -/
theorem hostBlockAndLichenWrites : Obligations.HostBlockAndLichenWrites := by
  constructor
  · intro s h v hon
    have bell := exec_hostxDoorbellWrite hon h v
    have ctrl := exec_hostxCtrlWrite hon h v
    rw [if_pos rfl] at bell ctrl
    rw [hostCtrl_eq] at ctrl
    refine ⟨fun hsome hother => ?_, fun hb hoff hN hU => ?_, fun hb hoff h16 h17 hfull => ?_, ?_, fun h16 hother => ?_,
      fun h16 hlocal => ?_, fun h16 hb hphase => ?_, fun h16 hsome hother hunread => ?_, ?_⟩
    · rw [bell, doorbell_elsewhere (boundElsewhere_iff.2 ⟨hsome, hother⟩)]
    · rw [bell, doorbell_disabled (boundElsewhere_false hb) hoff]
      have hgoodN : (v.getLsbD 16 && decide (64 < ((v.setWidth 8 : BitVec 8) - (s.host h).consN).toNat)) = false := by
        simpa using hN
      have hgoodU : (v.getLsbD 17 && decide (16 < (((v >>> 8).setWidth 8 : BitVec 8) - (s.host h).consU).toNat)) = false := by
        simpa using hU
      simp only [hgoodN, hgoodU, Bool.not_false, Bool.and_true, Bool.or_false, Bool.false_eq_true, if_false]
    · rw [bell, doorbell_disabled (boundElsewhere_false hb) hoff]
      have hsame : modHost h (fun r => { r with prodN := r.prodN, prodU := r.prodU }) s = s := modHost_same rfl
      simp only [h16, h17, hfull, decide_true, Bool.true_and, Bool.and_false, Bool.false_and, Bool.not_true, Bool.or_false,
        Bool.false_eq_true, if_false, if_true, hsame]
    · rw [exec_hostxHeartbeatWrite hon, if_pos rfl]
    · rw [ctrl, h16]
      simp only [Bool.not_false, if_true, Bool.false_eq_true, if_false, hother]
      rfl
    · have hlocal' : ((setCfg (aHostCtrl h) 0#32 s).host h).bound = some (.localPort h) := by
        rw [← hlocal]
        cases h <;> rfl
      obtain ⟨hbound, hcause, htimer, hcfg, hops, harrivals, hmail, hports⟩ := unbindHost_port hlocal'
      rw [ctrl, h16]
      simp only [Bool.not_false, if_true, Bool.false_eq_true, if_false, hlocal]
      refine ⟨_, rfl, hbound, hcause, htimer, ?_, hops, harrivals, hmail, hports⟩
      have hzero : (setCfg (aHostCtrl h) 0#32 s).portEnable h = false := by simp [State.portEnable]
      rw [← hzero]
      unfold State.portEnable State.cfgAt
      rw [hcfg]
    · have hunready : (setCfg (aHostCtrl h) 0x10000#32 s).dev.phase ≠ .ready := hphase
      rw [ctrl, h16, boundElsewhere_false hb]
      simp only [Bool.not_true, Bool.false_eq_true, if_false, if_true, Bool.false_and, readRings_unready hunready]
    · have hun : s.unread h = true := by simpa [State.unread] using hunread
      rw [ctrl, h16, boundElsewhere_iff.2 ⟨hsome, hother⟩, hun]
      rfl
    · rw [exec_hostxDoorbellWrite hon, exec_hostxHeartbeatWrite hon, exec_hostxCtrlWrite hon, if_neg (hOther_ne h), if_neg (hOther_ne h),
        if_neg (hOther_ne h), decodeFault_eq]
      exact ⟨rfl, rfl, rfl⟩
  · intro s h k v hk
    refine ⟨fun hon hroom => ?_, fun hon hfull => ?_, fun rest hq => ?_, fun hq => ?_⟩
    · rw [exec_lichConfigWrite hon hk]
      unfold queueLich
      rw [if_neg (by omega)]
      rfl
    · rw [exec_lichConfigWrite hon hk]
      unfold queueLich
      rw [if_pos hfull]
      rfl
    · rw [exec_lichWriteApplied]
      unfold lichApplied
      rw [hq]
      exact ⟨_, rfl, tget_tset_same _ _ _ _, rfl, fun j hj => tget_tset_other _ _ _ hj, rfl⟩
    · rw [exec_lichWriteApplied]
      unfold lichApplied
      rw [hq]

end Sys2Proof
end

section
/-!
The control words of CAN message RAM (R255, R420, R426).
-/
namespace Sys2Proof.Machine

theorem hasCan_lt {s : State} {ch : Nat} (h : s.hasCan ch = true) : ch < 8 := by
  have hlt : ch < s.nCans := by simpa [State.hasCan] using h
  have hmost : s.nCans ≤ 8 := by
    unfold State.nCans
    cases s.part.variant <;> decide
  omega

section
variable {s : State} {h : HostId} {ch k : Nat}

/-- A write to word 0 of an object reaches it while the CN island is on. -/
theorem hostWrite_control (hon : s.portOn h = true) (hch : s.hasCan ch = true) (hk : k < 128) (hgate : s.canGated = false) (v : Word) :
    hostWrite h (aObj ch k 0) v s = writeObject h ch k 0 v s := by
  have hch8 := hasCan_lt hch
  have hin : 0x40000 ≤ aObj ch k 0 ∧ aObj ch k 0 < 0x60000 := by unfold aObj; omega
  have hmail : isMail (aObj ch k 0) = false := by
    simp only [isMail, decide_eq_false_iff_not]
    omega
  have hobj : isObj (aObj ch k 0) = true := by
    simp only [isObj, decide_eq_true_eq]
    omega
  have h4 : aObj ch k 0 % 4 = 0 := by unfold aObj; omega
  have hunit : (aObj ch k 0 - 0x40000) / 0x4000 = ch := by unfold aObj; omega
  have hobject : (aObj ch k 0 - 0x40000) % 0x4000 / 128 = k := by unfold aObj; omega
  have hword : (aObj ch k 0 - 0x40000) % 0x4000 % 128 / 4 = 0 := by unfold aObj; omega
  unfold hostWrite
  rw [if_neg (by simp [hon]), if_neg (by simp [hmail]), if_neg (by simp [h4]), if_pos hobj]
  unfold writeObj
  dsimp only
  rw [hunit, hobject, hword, if_neg (by simp [hch]), if_neg (by simp [hgate])]

theorem hostWrite_abortAll (hon : s.portOn h = true) (hch : s.hasCan ch = true) (hgate : s.canGated = false) (v : Word) :
    hostWrite h (aCan ch + 0x40) v s = abortAll h ch v s := by
  have hch8 := hasCan_lt hch
  have hin : 0x14000 ≤ aCan ch + 0x40 ∧ aCan ch + 0x40 < 0x16000 ∧ (aCan ch + 0x40) % 0x400 = 0x40 := by unfold aCan; omega
  have hunit : (aCan ch + 0x40 - 0x14000) / 0x400 = ch := by unfold aCan; omega
  have halias : aliasOf (aCan ch + 0x40) = aCan ch + 0x40 := by
    unfold aliasOf
    rw [if_neg (by omega), if_neg (by omega), if_pos (by omega)]
    omega
  have habsent : s.absentReg (aCan ch + 0x40) = false := by
    unfold State.absentReg
    rw [if_neg (by omega), if_neg (by omega), if_pos (by omega), hunit, hch]
    rfl
  have hconfig : s.isConfig (aCan ch + 0x40) = false := by
    simp only [State.isConfig, cfgPort_below (show aCan ch + 0x40 < 0x18000 by omega),
      scratchOf_other (.inr (show 0x6030 ≤ aCan ch + 0x40 by omega)), aFltPolicy, aPwrmGuard, aSecGuard, aPpsCfg, aFeedCfg, aHostCtrl,
      aHost, hCode, Option.isSome_none, Bool.or_false, Bool.or_eq_false_iff, Bool.and_eq_false_iff, decide_eq_false_iff_not,
      beq_eq_false_iff_ne]
    omega
  rw [hostWrite_register hon (by omega) (by omega), halias]
  unfold writeReg
  rw [habsent, if_neg (by decide), if_neg (by omega), scratchOf_other (.inr (by omega)), if_neg (by decide), hconfig,
    if_neg (by decide), if_neg (by omega), if_neg (by omega), if_neg (by omega), if_neg (by omega), if_neg (by omega), if_pos hin,
    if_neg (by simp [hgate]), hunit]

theorem exec_canSendRequestWrite (hon : s.portOn h = true) (hch : s.hasCan ch = true) (hk : k < 128) (hgate : s.canGated = false) :
    exec (.canSendRequestWrite h ch k) s = .next (finish (writeObject h ch k 0 0x80#32 s)) :=
  (congrArg Host.Outcome.next (if_pos ⟨hasCan_lt hch, hk⟩)).trans (by rw [hostWrite_control hon hch hk hgate])

theorem exec_canAbortRequestWrite (hon : s.portOn h = true) (hch : s.hasCan ch = true) (hk : k < 128) (hgate : s.canGated = false) :
    exec (.canAbortRequestWrite h ch k) s = .next (finish (writeObject h ch k 0 0x40#32 s)) :=
  (congrArg Host.Outcome.next (if_pos ⟨hasCan_lt hch, hk⟩)).trans (by rw [hostWrite_control hon hch hk hgate])

theorem exec_canCtrlAbortAll (hon : s.portOn h = true) (hch : s.hasCan ch = true) (hgate : s.canGated = false) (v : Word) :
    exec (.canCtrlAbortAll h ch v) s = .next (finish (abortAll h ch v s)) :=
  (congrArg Host.Outcome.next (if_pos (hasCan_lt hch))).trans (by rw [hostWrite_abortAll hon hch hgate])

/-- A read of an object word that has an effect takes place. -/
theorem readObj_live (hon : s.portOn h = true) (hch : s.hasCan ch = true) (hk : k < 128) (hgate : s.canGated = false) (w : Nat)
    (f : State → State) : readObj h ch k w f s = f s := by
  simp [readObj, hon, hch, show ¬ 128 ≤ k by omega, hgate]

theorem exec_canObjectLockRead (hon : s.portOn h = true) (hch : s.hasCan ch = true) (hk : k < 128) (hgate : s.canGated = false) :
    exec (.canObjectLockRead h ch k) s = .next (finish (readControl h ch k s)) := by
  show Host.Outcome.next (finish (readObj h ch k 0 (readControl h ch k) s)) = _
  rw [readObj_live hon hch hk hgate]

theorem exec_canReleaseWordRead (hon : s.portOn h = true) (hch : s.hasCan ch = true) (hk : k < 128) (hgate : s.canGated = false) :
    exec (.canReleaseWordRead h ch k) s = .next (finish (readRelease h ch k s)) := by
  show Host.Outcome.next (finish (readObj h ch k _ (readRelease h ch k) s)) = _
  rw [readObj_live hon hch hk hgate]

/-! ### Requests of a control word (R255, R426) -/

theorem ownsCan_iff : s.ownsCan h ch = true ↔ (s.can ch).owner = hOwner h := by simp [State.ownsCan]

theorem ownsCan_false (hown : (s.can ch).owner ≠ hOwner h) : s.ownsCan h ch = false := by simp [State.ownsCan, hown]

theorem writeObject_notOwner (hown : (s.can ch).owner ≠ hOwner h) (w : Nat) (v : Word) : writeObject h ch k w v s = s := by
  simp [writeObject, ownsCan_false hown]

theorem abortAll_notOwner (hown : (s.can ch).owner ≠ hOwner h) (v : Word) : abortAll h ch v s = s := by
  simp [abortAll, ownsCan_false hown]

theorem abortAll_owner (hown : (s.can ch).owner = hOwner h) {v : Word} (hv : v.getLsbD 0 = true) :
    abortAll h ch v s = foldS (s.can ch).pending (fun e t => requestAbort ch e.1 t) s := by
  simp [abortAll, ownsCan_iff.2 hown, hv]

theorem writeObject_send (hown : (s.can ch).owner = hOwner h) (hdir : ((s.can ch).obj k).dir = 2) (hidle : ((s.can ch).obj k).busy = false) :
    writeObject h ch k 0 0x80#32 s = requestSend ch k none s := by
  simp [writeObject, writeSend, ownsCan_iff.2 hown, hdir, hidle]

theorem writeObject_abort (hown : (s.can ch).owner = hOwner h) (hdir : ((s.can ch).obj k).dir = 2) :
    writeObject h ch k 0 0x40#32 s = requestAbort ch k s := by
  simp [writeObject, writeAbort, ownsCan_iff.2 hown, hdir]

/-- A send that the channel can make is offered for arbitration. -/
theorem requestSend_offer (hfit : (s.can ch).classicOnly = false ∨ ((s.can ch).obj k).tooLong = false) (op : Option (HostId × Half)) :
    requestSend ch k op s = offer ch (modObj ch k (fun o => { o with busy := true, abort := false, attempts := 0, errored := 0,
                                                                     op := op, sofAt := none }) s) := by
  let s1 := modObj ch k (fun o => { o with busy := true, abort := false, attempts := 0, errored := 0, op := op, sofAt := none }) s
  have hchannel : (s1.can ch).classicOnly = (s.can ch).classicOnly := by
    show ((modObj ch k _ s).can ch).classicOnly = _
    unfold modObj
    rw [can_modCan]
    rfl
  have hobject : ((s1.can ch).obj k).tooLong = ((s.can ch).obj k).tooLong := by
    show (((modObj ch k _ s).can ch).obj k).tooLong = _
    rw [obj_modObj]
    rfl
  refine if_neg ?_
  rw [hchannel, hobject]
  rcases hfit with hfit | hfit <;> simp [hfit]

theorem requestAbort_onBus (hbusy : ((s.can ch).obj k).busy = true) (hbus : (s.can ch).onBus = true) (hlistens : (s.can ch).listens = false) :
    requestAbort ch k s = modObj ch k (fun o => { o with abort := true }) s := by
  simp [requestAbort, hbusy, hbus, hlistens]

theorem requestAbort_offBus (hbusy : ((s.can ch).obj k).busy = true) (hbus : (s.can ch).onBus = false) :
    requestAbort ch k s = endSend ch k 4 s := by
  simp [requestAbort, hbusy, hbus]

/-! ### Reads that lock and release (R420) -/

theorem readControl_receive (hdir : ((s.can ch).obj k).dir = 1) (hlock : ((s.can ch).obj k).lock = none) :
    readControl h ch k s = modObj ch k (fun o => { o with lock := some h, expired := false })
      (emit (.readData h (aObj ch k 0) ((s.can ch).obj k).control false) s) := by
  simp [readControl, hdir, hlock]

theorem readControl_send (hdir : ((s.can ch).obj k).dir = 2) :
    readControl h ch k s = modObj ch k (fun o => { o with newData := false })
      (emit (.readData h (aObj ch k 0) ((s.can ch).obj k).control false) s) := by
  simp [readControl, hdir]

theorem unlock_free (hhold : ((s.can ch).obj k).hold = none) : unlock ch k s = modObj ch k (fun o => { o with lock := none }) s := by
  simp [unlock, hhold]

theorem readRelease_holder (hlock : ((s.can ch).obj k).lock = some h) (hhold : ((s.can ch).obj k).hold = none) :
    readRelease h ch k s = modObj ch k (fun o => { o with lock := none })
      (modObj ch k (fun o => { o with newData := false, overrun := false })
        (emit (.readData h (aObj ch k ((s.can ch).obj k).releaseWord) (((s.can ch).obj k).word ((s.can ch).obj k).releaseWord) false) s)) := by
  unfold readRelease
  rw [if_pos (by simp [hlock])]
  refine unlock_free ?_
  rw [obj_modObj]
  exact hhold

end

end Sys2Proof.Machine

namespace Sys2Proof
open Machine

/-- Settles O20. -/
theorem canObjectAccess : Obligations.CanObjectAccess := by
  intro s h ch k v hon hch hk hgate
  have send := exec_canSendRequestWrite hon hch hk hgate
  have abort := exec_canAbortRequestWrite hon hch hk hgate
  have lock := exec_canObjectLockRead hon hch hk hgate
  refine ⟨fun hown hdir hidle hfit => ?_, fun hown => ?_, fun hown hdir hbusy hbus hlistens => ?_, fun hown hdir hbusy hbus => ?_,
    fun hown hv => ?_, fun hdir hlock => ?_, fun hdir => ?_, fun hlock hhold => ?_⟩
  · rw [send, writeObject_send hown hdir hidle, requestSend_offer hfit]
  · rw [send, abort, exec_canCtrlAbortAll hon hch hgate, writeObject_notOwner hown, writeObject_notOwner hown, abortAll_notOwner hown]
    exact ⟨rfl, rfl, rfl⟩
  · rw [abort, writeObject_abort hown hdir, requestAbort_onBus hbusy hbus hlistens]
  · rw [abort, writeObject_abort hown hdir, requestAbort_offBus hbusy hbus]
  · rw [exec_canCtrlAbortAll hon hch hgate, abortAll_owner hown hv]
  · rw [lock, readControl_receive hdir hlock]
  · rw [lock, readControl_send hdir]
  · rw [exec_canReleaseWordRead hon hch hk hgate, readRelease_holder hlock hhold]

end Sys2Proof
end

section
/-!
The attach of a sink, the debounce of its pull-up and the root reset (R42 to R51).
-/
namespace Sys2Proof.Machine

section
variable {s : State} {p : Nat}

/-! ### Rd on CC (R42, R44) -/

/-- Only a port that waits for Rd after a Hard Reset in UFP_SWAPPED takes it as the end of the swap. -/
theorem swappedRd_other (h : (s.port p).pd.sub ≠ .swHrWaitRd) : swappedRd p s = s := by
  simp [swappedRd, h]

theorem ccSeen_unattached (hb : s.busRuns = true) (hu : (s.port p).bus = .unattached) (hg : (s.port p).pd.sub ≠ .goneSafe0)
    (cc : CcSeen) : ccSeen p cc s = seeRd p (modPort p (fun r => { r with rd := some cc }) s) := by
  simp [ccSeen, hb, hu, hg]

theorem seeRd_one {cc : CcSeen} (hcc : cc ≠ .both) (hr : (s.port p).rd = some cc) :
    seeRd p s = modPort p (fun r => { r with bus := .attachWait, cc2 := cc == .cc2 }) s := by
  cases cc <;> simp_all [seeRd]

theorem seeRd_both (hr : (s.port p).rd = some .both) (ha : (s.port p).accessory = false) :
    seeRd p s = portEvent p 0x010A 0 0 0 [] (modPort p (fun r => { r with accessory := true }) s) := by
  simp [seeRd, hr, ha]

theorem ccLost_attachWait (h : (s.port p).bus = .attachWait) :
    ccLost p s = modPort p (fun r => { r with cc2 := false })
      (modPort p (fun r => { r with rd := none, accessory := false, bus := .unattached }) s) := by
  unfold ccLost
  dsimp only
  rw [if_pos (by simp [h])]
  exact congrArg _ (modPort_congr (by simp [h]))

theorem ccLost_other (h : (s.port p).bus ≠ .attachWait) :
    ccLost p s = modPort p (fun r => { r with rd := none, accessory := false }) s := by
  unfold ccLost
  dsimp only
  rw [if_neg (by simp [h])]
  exact modPort_congr (by simp [h])

/-- The debounce of Rd closes the low path of a port whose paths are open, and its Rp weight counts (R42, R151). -/
theorem ccDebounced_closes (hb : s.busRuns = true) (hw : (s.port p).bus = .attachWait) (hs : (s.port p).sw = .off)
    (hr : s.board.rail5 = true) :
    ccDebounced p s = modPort p (fun r => { r with weight := r.rpWeight })
      (modPort p (fun r => { r with sw := .loRamp, pg := false, fetArmed := false })
        (modPort p (fun r => { r with bus := .powering }) s)) := by
  have hclose : closeLow p (modPort p (fun r => { r with bus := .powering }) s) =
      modPort p (fun r => { r with sw := .loRamp, pg := false, fetArmed := false }) (modPort p (fun r => { r with bus := .powering }) s) := by
    simp [closeLow, State.rail5Low, hs, hr]
  simp [ccDebounced, hb, hw, hclose]

/-- Power-good on the low path of a port in POWERING without a contract: it waits for the pull-up and sends its offer (R346). -/
theorem powerGood_powering (hw : (s.port p).bus = .powering) (hs : (s.port p).sw = .loRamp) (hc : (s.port p).pd.st = .noContract) :
    powerGood p s = startCaps p (modPort p (fun r => { r with bus := .connectWait })
      (modPort p (fun r => { r with sw := .loOn, pg := true, atLimit := false }) s)) := by
  simp [powerGood, hw, hs, hc]

/-! ### The pull-up (R42, R46, R49, R459) -/

theorem pullup_ungated (hb : s.busRuns = true) (hg : s.pluGated p = false) (hw : (s.port p).bus = .connectWait ∨ (s.port p).bus = .powerOnly) :
    pullup p s = modPort p (fun r => { r with bus := .connectDebounce }) s := by
  unfold pullup
  dsimp only
  rw [if_pos (by simpa [hb] using hw)]
  exact modPort_congr (by simp [hg])

theorem pullup_gated (hb : s.busRuns = true) (hg : s.pluGated p = true) (hw : (s.port p).bus = .connectWait ∨ (s.port p).bus = .powerOnly) :
    pullup p s = modPort p (fun r => { r with pullUp := true }) s := by
  unfold pullup
  dsimp only
  rw [if_pos (by simpa [hb] using hw)]
  exact modPort_congr (by simp [hg])

theorem pullupGone_debounce (hb : s.busRuns = true) (hd : (s.port p).bus = .connectDebounce) :
    pullupGone p s = modPort p (fun r => { r with bus := .connectWait }) (modPort p (fun r => { r with pullUp := false }) s) := by
  simp [pullupGone, hb, hd]

theorem connectTimeout_wait (hb : s.busRuns = true) (hw : (s.port p).bus = .connectWait) :
    connectTimeout p s = portEvent p 0x0105 0 0 0 [] (modPort p (fun r => { r with bus := .powerOnly }) s) := by
  simp [connectTimeout, hb, hw]

theorem debounced_root (hb : s.busRuns = true) (hg : s.pluGated p = false) (hd : (s.port p).bus = .connectDebounce) (dplus : Bool) :
    debounced p .root dplus s = startReset p (modPort p (fun r => { r with found := b2n dplus, fails := 0 }) s) := by
  simp [debounced, hb, hg, hd]

theorem debounced_hub {hub hport : Nat} {j : Job} (hj : s.jobAt p (.hub hub hport) = some j) (hd : j.phase = .debounce) (dplus : Bool) :
    debounced p (.hub hub hport) dplus s = resetBelow p hub hport j s := by
  simp [debounced, hj, hd]

/-! ### The root reset (R42, R47) -/

theorem startReset_port (p : Nat) (s : State) : (startReset p s).port p =
    { s.port p with bus := .resetting, jobs := [{ loc := .root, speed := (s.port p).found, depth := 0, phase := .reset }],
                    chirped := false, speed := (s.port p).found } := by
  simp [startReset]

theorem startReset_port_other {q : Nat} (h : q ≠ p) : (startReset p s).port q = s.port q := by
  simp [startReset, port_modPort_other, h]

theorem startReset_wire (p : Nat) (s : State) : (startReset p s).wire = .busReset p :: s.wire := rfl

theorem rootReset_of_job {j : Job} (hj : s.jobAt p .root = some j) (hr : j.phase = .reset)
    (hb : (s.port p).bus = .resetting ∨ (s.port p).bus = .enumerating) : s.rootReset p = true := by
  simpa [State.rootReset, hj, hr] using hb

theorem chirpK_answered {us : Nat} (hr : s.rootReset p = true) (hus : 1000 ≤ us) (hs : (s.port p).policy.hsEnable = true)
    (hf : (s.port p).speed ≠ 0) (hc : (s.port p).chirped = false) :
    chirpK p us s = emit (.chirpKJ p) (modPort p (fun r => { r with chirped := true }) s) := by
  simp [chirpK, hr, hus, hs, hf, hc]

theorem chirpK_unanswered {us : Nat} (h : us < 1000 ∨ (s.port p).policy.hsEnable = false ∨ (s.port p).speed = 0) : chirpK p us s = s := by
  unfold chirpK
  dsimp only
  refine if_neg ?_
  rcases h with h | h | h
  · simp [show ¬ 1000 ≤ us by omega]
  · simp [h]
  · simp [h]

theorem rootResetEnds_chirped {j : Job} (hj : s.jobAt p .root = some j) (hr : s.rootReset p = true) (hc : (s.port p).chirped = true) :
    rootResetEnds p s = setJob p { j with phase := .recovery } (emit (.sofStart p)
      (modPort p (fun r => { r with bus := .enumerating, speed := 2 }) s)) := by
  simp only [rootResetEnds, hj, hr, if_true]
  exact congrArg (fun t => setJob p { j with phase := .recovery } (emit (.sofStart p) t)) (modPort_congr (by simp [hc]))

theorem rootResetEnds_unchirped {j : Job} (hj : s.jobAt p .root = some j) (hr : s.rootReset p = true) (hc : (s.port p).chirped = false) :
    rootResetEnds p s = setJob p { j with phase := .recovery } (emit (.sofStart p)
      (modPort p (fun r => { r with bus := .enumerating, speed := r.found }) s)) := by
  simp only [rootResetEnds, hj, hr, if_true]
  exact congrArg (fun t => setJob p { j with phase := .recovery } (emit (.sofStart p) t)) (modPort_congr (by simp [hc]))

/-! ### The waits of an enumeration (R50, R51) -/

theorem jobStep_ok {l : At} {j : Job} {ok : JobPhase → Bool} (hj : s.jobAt p l = some j) (hok : ok j.phase = true)
    (hr : s.resetAborted p j = false) (f : Job → State → State) : jobStep p l ok f s = f j s := by
  simp [jobStep, hj, hok, hr]

theorem ctrlTimeout_job {l : At} {j : Job} (hj : s.jobAt p l = some j) (hq : j.phase = .request) (hr : s.resetAborted p j = false) :
    ctrlTimeout p l s = attemptFails p j 1 s := by
  simp [ctrlTimeout, hj, hq, hr]

theorem freeAttempt_none {j : Job} (h : j.addr = 0) : freeAttempt p j s = s := by
  simp [freeAttempt, h]

theorem attemptFails_root_again {j : Job} (hl : j.loc = .root) (ha : j.addr = 0) (hb : (s.port p).bus = .enumerating) (hf : j.fails < 2) :
    attemptFails p j 1 s = setJob p { loc := .root, speed := j.speed, depth := j.depth, ttAddr := j.ttAddr, ttPort := j.ttPort,
                                      phase := .retryWait, fails := j.fails + 1 }
      (modPort p (fun r => { r with fails := j.fails + 1 }) s) := by
  unfold attemptFails
  dsimp only
  rw [freeAttempt_none ha, if_neg (show ¬ (1 = 5 ∨ 3 ≤ j.fails + 1) by omega), if_pos (show (j.loc == .root) = true by simp [hl]), hl]
  exact congrArg _ (modPort_congr (by simp [hb]))

theorem attemptFails_root_third {j : Job} (hl : j.loc = .root) (ha : j.addr = 0) (hb : (s.port p).bus = .enumerating) (hf : j.fails = 2) :
    attemptFails p j 1 s = endJob p .root (rootEnds p .error (portEvent p 0x0103 0 j.step 1 []
      (modPort p (fun r => { r with partials := sat 65535 (r.partials + 1) })
        (modPort p (fun r => { r with fails := 3 }) s)))) := by
  have hfails : modPort p (fun r => { r with fails := j.fails + 1, bus := if r.bus == .running then .enumerating else r.bus }) s =
      modPort p (fun r => { r with fails := 3 }) s := modPort_congr (by simp [hb, hf])
  unfold attemptFails
  dsimp only
  rw [freeAttempt_none ha, if_pos (show 1 = 5 ∨ 3 ≤ j.fails + 1 by omega), if_pos (show (j.loc == .root) = true by simp [hl]), hfails]
  cases (s.port p).inst j.addr <;> simp [enumFailed, hl, ha]

end
end Sys2Proof.Machine

namespace Sys2Proof
open Machine

/-- Settles O21: the guards of the CC side taken one after the other, and what each step of the attach leaves. -/
theorem sinkAttach : Obligations.SinkAttach := by
  intro s p hp hb r
  refine ⟨?_, ?_, ?_, ?_, ?_, ?_⟩
  · intro cc hu hcc hw hg
    refine execP hp ?_
    rw [ccSeen_unattached hb hu hg, seeRd_one hcc (by simp), swappedRd_other (by simpa using hw)]
  · intro hu ha hw hg
    refine execP hp ?_
    rw [ccSeen_unattached hb hu hg, seeRd_both (by simp) (by simpa using ha), swappedRd_other (by simpa using hw)]
  · exact fun h => execP hp (ccLost_attachWait h)
  · exact fun h => execP hp (ccLost_other h)
  · exact fun h hs hr => execP hp (ccDebounced_closes hb h hs hr)
  · intro h hs hc
    refine execP hp ?_
    rw [if_neg (by simp [show (s.port p).bus = .powering from h]), powerGood_powering h hs hc]

/-- Settles O22: the pull-up's steps by the bus state that they start from. -/
theorem pullupDebounce : Obligations.PullupDebounce := by
  intro s p hp hb r
  refine ⟨?_, ?_, ?_, ?_, ?_, ?_⟩
  · exact fun hg hw => execP hp (pullup_ungated hb hg hw)
  · exact fun hg hw => execP hp (pullup_gated hb hg hw)
  · exact fun hd => execP hp (pullupGone_debounce hb hd)
  · exact fun hw => execP hp (connectTimeout_wait hb hw)
  · intro dplus hg hd
    refine ⟨_, execB hp hb (debounced_root hb hg hd dplus), ?_, ?_, ?_, ?_, ?_, startReset_wire _ _, ?_⟩
    iterate 5 simp [startReset_port]
    intro q hq
    rw [startReset_port_other hq, port_modPort_other hq]
  · exact fun hub hport j dplus hj hd => execB hp hb (debounced_hub hj hd dplus)

/-- Settles O23: a chirp is answered once, and the end of the reset starts SOF at the speed found. -/
theorem rootReset : Obligations.RootReset := by
  intro s p j hp hb hj hr hbus r
  have hreset := rootReset_of_job hj hr hbus
  refine ⟨?_, ?_, ?_, ?_⟩
  · exact fun us hus hs hf hc => execB hp hb (chirpK_answered hreset hus hs hf hc)
  · exact fun us h => execB hp hb (chirpK_unanswered h)
  · exact fun hc => execB hp hb (rootResetEnds_chirped hj hreset hc)
  · exact fun hc => execB hp hb (rootResetEnds_unchirped hj hreset hc)

/-- Settles O24: each wait leads its job one step on, and the third failure of an attempt is the last. -/
theorem enumerationWaits : Obligations.EnumerationWaits := by
  constructor
  · intro s p l j hp hb hj hr
    refine ⟨?_, ?_, ?_, ?_, ?_⟩
    · intro hs hrec speed w hl
      refine execB hp hb ((jobStep_ok hj (by simp [hrec]) hr _).trans ?_)
      cases l <;> simp [firstRequest, hl, speed, w]
    · intro hw h3
      refine execB hp hb ((jobStep_ok hj (by simp [hw]) hr _).trans ?_)
      exact if_pos h3
    · intro hw hroot hl
      refine execB hp hb ((jobStep_ok hj (by simp [hw]) hr _).trans ?_)
      simp [resetAgain, hl, hroot]
    · intro a h hw hhub hl
      refine execB hp hb ((jobStep_ok hj (by simp [hw]) hr _).trans ?_)
      simp [resetAgain, resetBelow, hl, hhub]
    · exact fun hq => execB hp hb (ctrlTimeout_job hj hq hr)
  · intro s p j hp hb hj hl hq hr ha hbus
    refine ⟨fun hf => execB hp hb ?_, fun hf => execB hp hb ?_⟩
    · rw [ctrlTimeout_job hj hq hr, attemptFails_root_again hl ha hbus hf]
    · rw [ctrlTimeout_job hj hq hr, attemptFails_root_third hl ha hbus hf]

end Sys2Proof
end

section
/-!
Babble, resume, hub ports and the end of a port's powered states (R42, R53 to R78, R385).
-/
namespace Sys2Proof.Machine

section
variable {s : State} {p : Nat}

theorem execC (h : s.dev.phase = .ready ∨ s.dev.phase = .warm) {f : State → State} {b : State} (hf : f s = b) :
    (Host.Outcome.next (atCore f s) : Res) = .next (finish b) := by
  have hon : atCore f s = finish (f s) := if_pos (by simpa using h)
  rw [hon, hf]

theorem core_of_busRuns (hb : s.busRuns = true) : s.dev.phase = .ready ∨ s.dev.phase = .warm := by
  simp only [State.busRuns, Bool.and_eq_true, Bool.or_eq_true, beq_iff_eq] at hb
  exact hb.1.1

/-! ### Babble (R42) -/

theorem babble_again (hr : (s.port p).bus = .running) {t : Nat} (ht : (s.port p).babbleAt = some t) (hsoon : s.dev.monoNs < t + 10000000000) :
    babble p s = deferredSuspend p (rootEnds p .error
      (portEvent p 0x0109 0 1 0 [] (modPort p (fun r => { r with babbleAt := some s.dev.monoNs }) s))) := by
  simp [babble, hr, ht, hsoon]

theorem babble_first (hr : (s.port p).bus = .running)
    (h : (s.port p).babbleAt = none ∨ ∃ t, (s.port p).babbleAt = some t ∧ t + 10000000000 ≤ s.dev.monoNs) :
    babble p s = startReset p (freeTree p 1 (preempt p
      (portEvent p 0x0109 0 1 0 [] (modPort p (fun r => { r with babbleAt := some s.dev.monoNs }) s)))) := by
  rcases h with h | ⟨t, h, hlate⟩
  · simp [babble, hr, h]
  · simp [babble, hr, h, show ¬ s.dev.monoNs < t + 10000000000 by omega]

/-! ### Resume (R70 to R73) -/

/-- A remote wake counts outside DOZE, and in DOZE where trigger 3 is enabled. -/
theorem wakes_iff : (s.dev.power == .doze && !bitOf s.power.wakeEnable 1) = false ↔
    (s.dev.power ≠ .doze ∨ bitOf s.power.wakeEnable 1 = true) := by
  simp only [Bool.and_eq_false_iff, beq_eq_false_iff_ne, Bool.not_eq_false']

theorem remoteWake_suspended (hw : s.dev.power ≠ .doze ∨ bitOf s.power.wakeEnable 1 = true) (hs : (s.port p).bus = .suspended) :
    remoteWake p s = emit (.busK p) (modPort p (fun r =>
      { r with bus := .resuming, resume := some { loc := .root, byHost := false, byInst := true } }) s) := by
  simp [remoteWake, wakes_iff.mpr hw, hs, startResume]

theorem remoteWake_resuming {w : Resume} (hw : s.dev.power ≠ .doze ∨ bitOf s.power.wakeEnable 1 = true) (hs : (s.port p).bus = .resuming)
    (hr : (s.port p).resume = some w) (hk : w.kDone = false) (hn : w.recovery = false) :
    remoteWake p s = modPort p (fun r => { r with resume := some { w with byInst := true } }) s := by
  simp [remoteWake, wakes_iff.mpr hw, hs, hr, hk, hn]

theorem resumeElapsed_gated (h : s.islandOff (0x10 + p / 8) = true) : resumeElapsed p s = s := if_pos h

theorem resumeElapsed_resuming {w : Resume} (h : s.islandOff (0x10 + p / 8) = false) (hs : (s.port p).bus = .resuming)
    (hr : (s.port p).resume = some w) (hk : w.kDone = false) :
    resumeElapsed p s = emit (.sofStart p) (emit (.lsEop p) (modPort p (fun r => { r with resume := some { w with kDone := true } }) s)) := by
  simp [resumeElapsed, h, resumeKEnds, hs, hr, hk]

theorem recoveryEnds_root {w : Resume} (hs : (s.port p).bus = .resuming) (hr : (s.port p).resume = some w) (hk : w.kDone = true)
    (hn : w.recovery = false) :
    recoveryEnds p .root s = runsAgain p w (modPort p (fun r => { r with bus := .running, resume := none }) s) := by
  simp [recoveryEnds, Port.resumeAt, hs, hr, hk, hn]

theorem recoveryEnds_hub {a h : Nat} {w : Resume} (hr : (s.port p).resumeAt (.hub a h) = some w) (hk : w.kDone = true) :
    recoveryEnds p (.hub a h) s = runsAgain p w (modPort p (fun r =>
      { r with suspHub := r.suspHub.filter (· != (a, h)), hubResumes := r.hubResumes.filter (fun x => x.loc != .hub a h) }) s) := by
  simp [recoveryEnds, hr, hk]

theorem runsAgain_host {w : Resume} (h : w.byInst = false) : runsAgain p w s = resumed p w 0 (freshDue p w.loc s) := by
  simp [runsAgain, h]

theorem runsAgain_inst {w : Resume} (h : w.byInst = true) : runsAgain p w s = startScan p w (freshDue p w.loc s) := by
  simp [runsAgain, h]

/-- A scan that found no change names the first instrument that answered as waking (R72). -/
theorem waker_answered {k : Scan} {a : Nat} {l : List Nat} (hc : k.changed = []) (hw : k.waking = a :: l) (tree : List Inst) :
    k.waker tree = a := by
  have hnone : tree.filter (fun i => k.changed.contains (i.parent, i.parentPort)) = [] := by
    rw [hc]
    exact List.filter_eq_nil_iff.mpr fun _ _ => nofun
  unfold Scan.waker
  dsimp only
  rw [hnone, hw]
  rfl

/-- A scan that waits for no answer is over. -/
theorem scanOn_over {k : Scan} (hh : k.hubs = []) (hi : k.insts = []) : scanOn p k true s =
    resumed p k.w (k.waker (s.port p).tree)
      (modPort p (fun r => { r with scans := r.scans.filter (fun x => x.w.loc != k.w.loc) ++ [] }) s) :=
  (if_neg (by rw [hh]; exact nofun)).trans (if_pos (by rw [if_pos rfl, hi]; rfl))

/-- The last answer of a scan in which one instrument says that it wakes: RESUMED names it (R72). -/
theorem devStatusRead_last {k : Scan} {a : Nat} (hs : (s.port p).scans = [k]) (hh : k.hubs = []) (hi : k.insts = [a])
    (hc : k.changed = []) (hw : k.waking = []) :
    devStatusRead p a true s = resumed p k.w a (modPort p (fun r => { r with scans := [] }) s) := by
  have hput : modPort p (fun r => { r with scans := r.scans.filter (fun x => x.w.loc != k.w.loc) ++ [] }) s =
      modPort p (fun r => { r with scans := [] }) s := modPort_congr (by simp [hs])
  have hfind : (s.port p).scans.find? (fun k => k.insts.contains a) = some k := by
    rw [hs]
    exact List.find?_cons_of_pos (by simp [hi])
  unfold devStatusRead
  rw [hfind]
  exact (scanOn_over (k := { k with insts := k.insts.filter (· != a), waking := k.waking ++ [a] }) hh (by simp [hi])).trans
    (congr (congrArg (resumed p k.w) (waker_answered (k := { k with insts := k.insts.filter (· != a), waking := k.waking ++ [a] }) (l := [])
      hc (by simp [hw]) _)) hput)

theorem portStatusRead_resumed {a h : Nat} (hs : (s.port p).scans = []) (hr : (s.port p).resumeAt (.hub a h) = none)
    (hm : (s.port p).suspHub.contains (a, h) = true) :
    portStatusRead p a h true s = modPort p (fun r => { r with
      hubResumes := r.hubResumes ++ [{ loc := .hub a h, byHost := false, byInst := true, kDone := true }] }) s := by
  unfold portStatusRead hubResumed
  simp only [hs, List.find?_nil, if_true, hr, hm]

/-! ### Hub ports (R60, R61) -/

theorem connectBelow_hub {hub hport : Nat} {i : Inst} (hi : (s.port p).inst hub = some i) (hj : s.jobAt p (.hub hub hport) = none)
    (hh : i.hub = true) :
    connectBelow p hub hport s = nextJob p (.hub hub hport) (modPort p (fun r =>
      { r with jobs := r.jobs ++ [{ loc := .hub hub hport, speed := 1, depth := i.depth + 1, phase := .queued }] }) s) := by
  simp [connectBelow, queueBelow, hi, hj, hh]

theorem hubReady_first {hub : Nat} {i : Inst} {j : Job} {c : CfgDesc} (hi : (s.port p).inst hub = some i)
    (hj : ((s.port p).jobs.find? fun j => j.addr == hub && j.step == 10) = some j)
    (hc : parseCfg (j.configs.getD (j.chosen.getD 0) []) = some c) (ha : i.alts = []) :
    hubReady p hub s = endJob p j.loc (addCtxs p (i.firstIdx + 1) ((c.ctxs i).map (s.hubCtx p (i.firstIdx + 1) 0)) s) := by
  simp only [hubReady, hj, hi, hc, ha, List.find?_nil]

/-! ### A port leaves its powered states (R42, R75, R385) -/

/-- A port that holds no contract, no mode and no weight, and whose paths are open. -/
structure AtRest (r : Port) : Prop where
  contract : r.pd.st = .noContract
  volt : r.pd.volt = 0
  mode : r.pd.alt = false
  weight : r.weight = 0
  paths : r.sw.active = false

theorem AtRest.seen {r : Port} (h : AtRest r) (rd : Option CcSeen) (acc : Bool) : AtRest { r with rd := rd, accessory := acc } :=
  ⟨h.contract, h.volt, h.mode, h.weight, h.paths⟩

theorem AtRest.moved {r : Port} (h : AtRest r) (bus : Bus) (cc2 : Bool) : AtRest { r with bus := bus, cc2 := cc2 } :=
  ⟨h.contract, h.volt, h.mode, h.weight, h.paths⟩

theorem AtRest.waits {r : Port} (h : AtRest r) (bus : Bus) (cc2 : Bool) (sub : PdSub) :
    AtRest { r with bus := bus, cc2 := cc2, pd := { r.pd with sub := sub } } :=
  ⟨h.contract, h.volt, h.mode, h.weight, h.paths⟩

/-- After the bus has been left, the contract layer holds only its capabilities, and the weight is 0. -/
theorem leaveBus_port (p code : Nat) (s : State) :
    ∃ r : Port, (leaveBus p code s).port p = { r with pd := { caps := r.pd.caps }, weight := 0, pullUp := false } := by
  refine ⟨(altExit p 4 (endInstance (1 + p) (freeTree p code (preempt p s)))).port p, ?_⟩
  simp [leaveBus, releasePd, setWeight, modPd]

theorem openPaths_port (p : Nat) (s : State) :
    (openPaths p s).port p = if (s.port p).sw.active then
      { s.port p with sw := .off, pg := false, atLimit := false, fetArmed := false } else s.port p := by
  unfold openPaths
  split <;> simp_all

theorem openPaths_inactive (p : Nat) (s : State) : ((openPaths p s).port p).sw.active = false := by
  rw [openPaths_port]
  split
  · rfl
  · simp_all

/-- Leaving the bus and opening both paths brings a port to rest. -/
theorem atRest_openPaths_leaveBus (p code : Nat) (s : State) : AtRest ((openPaths p (leaveBus p code s)).port p) := by
  obtain ⟨r, hr⟩ := leaveBus_port p code s
  have hopen := openPaths_inactive p (leaveBus p code s)
  rw [openPaths_port] at hopen ⊢
  split <;> simp_all <;> exact ⟨rfl, rfl, rfl, rfl, by simp_all⟩

theorem atRest_seeRd (h : AtRest (s.port p)) : AtRest ((seeRd p s).port p) := by
  unfold seeRd
  dsimp only
  split
  · split
    · exact h
    · rw [portEvent_port, port_modPort]
      exact h.seen _ _
  · rw [port_modPort]
    exact h.moved _ _
  · exact h

theorem atRest_toUnattached (h : AtRest (s.port p)) : AtRest ((toUnattached p s).port p) :=
  atRest_seeRd (by
    rw [port_emit, port_modPort]
    exact h.moved _ _)

theorem toUnattached_none (h : (s.port p).rd = none) :
    toUnattached p s = emit (.cc p 1) (modPort p (fun r => { r with bus := .unattached, cc2 := false }) s) := by
  unfold toUnattached seeRd
  simp [h]

/-- The port after the paths are open and the bus is left, as a detach goes on from it. -/
def left (p : Nat) (s : State) : State :=
  modPort p (fun x => { x with rd := if (s.port p).pd.sub == .gone then x.rd else none, accessory := false }) (openPaths p (leaveBus p 0 s))

theorem atRest_left (p : Nat) (s : State) : AtRest ((left p s).port p) := by
  rw [left, port_modPort]
  exact (atRest_openPaths_leaveBus p 0 s).seen _ _

theorem detachPort_gone (hg : (s.port p).pd.sub = .gone) (hf : (s.port p).fetArmed = false) :
    detachPort p s = emit (.cc p 1) (modPort p (fun x =>
      { x with bus := .unattached, cc2 := false, pd := { x.pd with sub := .goneSafe0 } }) (left p s)) := by
  unfold detachPort left
  dsimp only
  rw [if_pos (by simp [hg, hf])]

theorem detachPort_other (h : (s.port p).pd.sub ≠ .gone ∨ (s.port p).fetArmed = true) : detachPort p s = toUnattached p (left p s) := by
  unfold detachPort left
  dsimp only
  rw [if_neg (by rcases h with h | h <;> simp [h])]

theorem atRest_detachPort (p : Nat) (s : State) : AtRest ((detachPort p s).port p) := by
  by_cases h : (s.port p).pd.sub ≠ .gone ∨ (s.port p).fetArmed = true
  · rw [detachPort_other h]
    exact atRest_toUnattached (atRest_left p s)
  · obtain ⟨hgone, harmed⟩ := not_or.mp h
    rw [detachPort_gone (Decidable.not_not.mp hgone) (Bool.eq_false_iff.mpr harmed), port_emit, port_modPort]
    exact (atRest_left p s).waits _ _ _

/-- Without a detach in a transition no termination is seen, and the port waits for a sink. -/
theorem detachPort_unattached (h : (s.port p).pd.sub ≠ .gone) :
    ((detachPort p s).port p).bus = .unattached ∧ ((detachPort p s).port p).rd = none := by
  have hrd : ((left p s).port p).rd = none := by simp [left, h]
  rw [detachPort_other (.inl h), toUnattached_none hrd]
  simp [hrd]

theorem ccDetached_powered (hb : s.busRuns = true) (hw : (s.port p).bus.powered = true) : ccDetached p s = detachPort p s := by
  have hu : (s.port p).bus ≠ .ufpSwapped := by
    intro hu
    simp [hu, Bus.powered] at hw
  simp [ccDetached, hb, hw, hu]

theorem offTimeEnds_cycle {o : Op} (ho : s.opAt (keyPort p) = some o) (hc : o.opcode = 0x0106#16) :
    offTimeEnds p s = toUnattached p (finishOp o.host o.tag stOk (u8 1) s) := by
  simp [offTimeEnds, finishPort, ho, hc]

end
end Sys2Proof.Machine

namespace Sys2Proof
open Machine

/-- Settles O25: babble by the time since the last, and a resume step by step from its K to the answer that names the waker. -/
theorem babbleAndResume : Obligations.BabbleAndResume := by
  constructor
  · intro s p hp hb hr r noted
    exact ⟨fun t ht hsoon => execB hp hb (babble_again hr ht hsoon), fun h => execB hp hb (babble_first hr h)⟩
  · intro s p hp hb r
    refine ⟨?_, ?_, ?_, ?_, ?_, ?_, ?_, ?_⟩
    · exact fun hw hs => execB hp hb (remoteWake_suspended hw hs)
    · exact fun w hw hs hr hk hn => execB hp hb (remoteWake_resuming hw hs hr hk hn)
    · exact fun h => execB hp hb (resumeElapsed_gated h)
    · exact fun w h hs hr hk => execB hp hb (resumeElapsed_resuming h hs hr hk)
    · intro w hs hr hk hn u
      exact ⟨fun hi => execB hp hb ((recoveryEnds_root hs hr hk hn).trans (runsAgain_host hi)),
        fun hi => execB hp hb ((recoveryEnds_root hs hr hk hn).trans (runsAgain_inst hi))⟩
    · intro a h w ha hr hk u
      have hat : atOf a h = .hub a h := if_neg ha
      refine ⟨fun hi => execB hp hb ?_, fun hi => execB hp hb ?_⟩
      · rw [hat, recoveryEnds_hub hr hk, runsAgain_host hi]
      · rw [hat, recoveryEnds_hub hr hk, runsAgain_inst hi]
    · exact fun k a hs hh hi hc hw => execC (core_of_busRuns hb) (devStatusRead_last hs hh hi hc hw)
    · exact fun a h hs hr hm => execC (core_of_busRuns hb) (portStatusRead_resumed hs hr hm)

/-- Settles O26: the changes that a hub reports for one of its ports, and the end of its set-up. -/
theorem hubPorts : Obligations.HubPorts := by
  intro s p hub hport i hp hb hi
  refine ⟨?_, execB hp hb rfl, execB hp hb rfl, execB hp hb rfl, ?_⟩
  · exact fun hj hh => execB hp hb (connectBelow_hub hi hj hh)
  · exact fun j c hj hc ha => execB hp hb (hubReady_first hi hj hc ha)

/-- Settles O27: a detach brings the port to rest, whatever the tree and the contract were. -/
theorem portLeaves : Obligations.PortLeaves := by
  intro s p hp
  refine ⟨?_, ?_, ?_⟩
  · intro hb hw
    refine ⟨execP hp (ccDetached_powered hb hw), ?_⟩
    intro r
    obtain ⟨hst, hvolt, halt, hweight, hpaths⟩ := atRest_detachPort p s
    refine ⟨hst, hvolt, halt, hweight, hpaths, detachPort_unattached, ?_⟩
    intro hg hf
    simp [r, detachPort_gone hg hf]
  · exact fun o ho hc => execP hp (offTimeEnds_cycle ho hc)
  · exact fun a => ⟨execP hp rfl, execP hp rfl⟩

end Sys2Proof
end

section
/-!
The contract layer of a downstream port (R340 to R370) and the service port as a sink (R365, R371 to R373).
-/
namespace Sys2Proof.Machine

section
variable {s : State} {p : Nat}

theorem execD (h32 : p < 32) (hp : s.hasPort p = true) (hb : s.busRuns = true) {f : State → State} {b : State} (h : f s = b) :
    (Host.Outcome.next (atDown p f s) : Res) = .next (finish b) := by
  have hdown : atDown p f s = atBus p f s := if_pos h32
  rw [hdown]
  exact execB hp hb h

theorem execPd (h32 : p < 32) (hp : s.hasPort p = true) (hb : s.busRuns = true) {f : State → State} {b : State} (h : f s = b) :
    (Host.Outcome.next (atPd p f s) : Res) = .next (finish b) := by
  have hdown : atPd p f s = atBus p f s := if_neg (by omega)
  rw [hdown]
  exact execB hp hb h

/-- A PD step of the service port while it is attached. -/
theorem execSvc (hv : s.svc.vbus = true) {f : State → State} {b : State} (h : f s = b) :
    (Host.Outcome.next (atPd 32 f s) : Res) = .next (finish b) := by
  simp [atPd, hv, h]

theorem pdOf_down (h32 : p < 32) (s : State) : s.pdOf p = (s.port p).pd := if_neg (by omega)

theorem modPdOf_down (h32 : p < 32) (f : PdRec → PdRec) (s : State) : modPdOf p f s = modPd p f s := if_neg (by omega)

@[simp] theorem port_pdSend (p : Nat) (m : PdMsg) (ws : List Nat) (s : State) (k : Nat) : (pdSend p m ws s).port k = s.port k := by
  unfold pdSend
  split <;> rfl

@[simp] theorem port_modPd (p : Nat) (f : PdRec → PdRec) (s : State) : (modPd p f s).port p = { s.port p with pd := f (s.port p).pd } := by
  simp [modPd]

theorem modPd_congr {f g : PdRec → PdRec} (h : f (s.port p).pd = g (s.port p).pd) : modPd p f s = modPd p g s :=
  modPort_congr (by rw [h])

/-! ### Offers and Requests (R346 to R353) -/

theorem capsRepeat_again (hs : (s.port p).pd.st = .noContract) (hq : (s.port p).pd.quiet = false) (h0 : 0 < (s.port p).pd.sends)
    (h50 : (s.port p).pd.sends < 50) :
    capsRepeat p s = sendCaps p (modPd p (fun d => { d with sends := d.sends + 1 }) s) := by
  simp [capsRepeat, hs, hq, show (s.port p).pd.sends ≠ 0 by omega, show ¬ 50 ≤ (s.port p).pd.sends by omega]

theorem capsRepeat_last (hs : (s.port p).pd.st = .noContract) (hq : (s.port p).pd.quiet = false) (h50 : 50 ≤ (s.port p).pd.sends) :
    capsRepeat p s = pdEvent p 0x0509 1 0 (modPd p (fun d => { d with quiet := true }) s) := by
  simp [capsRepeat, hs, hq, show (s.port p).pd.sends ≠ 0 by omega, h50]

theorem goodCrc_sourceCaps (h32 : p < 32) (hs : (s.port p).pd.st = .noContract) (hq : (s.port p).pd.quiet = false)
    (h0 : 0 < (s.port p).pd.sends) :
    goodCrc p .sourceCaps s = modPd p (fun d => { d with st := .negotiating, tSender := true }) s := by
  simp [goodCrc, pdOf_down h32, hs, hq, show (s.port p).pd.sends ≠ 0 by omega, show p ≠ 32 by omega]

theorem goodCrc_accept (h32 : p < 32) (hs : (s.port p).pd.st = .transition) (ha : (s.port p).pd.sub = .accepted) :
    goodCrc p .accept s = modPd p (fun d => { d with sub := .timing }) s := by
  simp [goodCrc, pdOf_down h32, modPdOf_down h32, hs, ha]

theorem senderTimeout_negotiating (h32 : p < 32) (hs : (s.port p).pd.st = .negotiating) (ht : (s.port p).pd.tSender = true) :
    senderTimeout p s = hardReset p true 2 s := by
  simp [senderTimeout, pdOf_down h32, hs, ht, show p ≠ 32 by omega]

/-- The Request that a word asks for: its object position, its operating current and its maximum, in mA (R349). -/
def rdoPos (rdo : Word) : Nat := rdo.toNat / 2 ^ 28
def rdoOp (rdo : Word) : Nat := rdo.toNat / 2 ^ 10 % 1024 * 10
def rdoMax (rdo : Word) : Nat := rdo.toNat % 1024 * 10

/-- The weight that a Request asks for, in mW. -/
def rdoWeight (rdo : Word) : Nat := volts (posVolt (rdoPos rdo)) * rdoOp rdo

/-- Why the port rejects a Request, if it does. -/
def rdoBad (s : State) (p : Nat) (rdo : Word) : Option Nat := s.requestBad p (rdoPos rdo) (rdoOp rdo) (rdoMax rdo) (bitOf rdo.toNat 26)

/-- The port as it judges a Request: the wait for one is over. -/
def asked (p : Nat) (s : State) : State := modPd p (fun d => { d with tSender := false }) s

theorem request_rejected {rdo : Word} {why : Nat} (hs : (s.port p).pd.st = .negotiating ∨ (s.port p).pd.st = .contract)
    (hbad : rdoBad s p rdo = some why) :
    request p rdo s = pdEvent p 0x0502 why (posVolt (rdoPos rdo)) (setSqc (aPortPd p) [9]
      (modPd p (fun d => { d with wait := false, rejected := true, ams := false }) (pdSend p .reject [] (asked p s)))) := by
  simp only [rdoBad, rdoPos, rdoOp, rdoMax] at hbad
  unfold request
  dsimp only
  rw [if_neg (by rcases hs with h | h <;> simp [h]), hbad]
  rfl

theorem request_accepted {rdo : Word} (hs : (s.port p).pd.st = .negotiating ∨ (s.port p).pd.st = .contract) (hbad : rdoBad s p rdo = none)
    (hf : rdoWeight rdo ≤ (s.port p).weight ∨
      (s.refusing = false ∧ (s.committed + (rdoWeight rdo - (s.port p).weight : Int) : Int) ≤ s.funds)) :
    request p rdo s = setWeight p (if (s.port p).weight < rdoWeight rdo then rdoWeight rdo else (s.port p).weight)
      (modPd p (fun d => { d with st := .transition, sub := .accepted, newVolt := posVolt (rdoPos rdo), newMa := rdoOp rdo,
                                  wait := false, rejected := false }) (pdSend p .accept [] (asked p s))) := by
  simp only [rdoBad, rdoWeight, rdoPos, rdoOp, rdoMax] at hbad hf
  unfold request
  dsimp only
  rw [if_neg (by rcases hs with h | h <;> simp [h]), hbad]
  exact if_pos (by simpa using hf)

theorem request_waits {rdo : Word} (hs : (s.port p).pd.st = .negotiating ∨ (s.port p).pd.st = .contract) (hbad : rdoBad s p rdo = none)
    (hw : (s.port p).weight < rdoWeight rdo)
    (hf : s.refusing = true ∨ s.funds < (s.committed + (rdoWeight rdo - (s.port p).weight : Int) : Int)) :
    let waits := modPd p (fun d => { d with wait := true, rejected := false, ams := false }) (pdSend p .wait [] (asked p s))
    request p rdo s = if (s.port p).pd.wait then waits
      else pdEvent p 0x0501 (if heatHas s.ledger 5 then 1 else 2) (posVolt (rdoPos rdo)) waits := by
  simp only [rdoBad, rdoWeight, rdoPos, rdoOp, rdoMax] at hbad hf hw
  unfold request
  dsimp only
  rw [if_neg (by rcases hs with h | h <;> simp [h]), hbad]
  refine if_neg ?_
  simp only [Bool.or_eq_true, decide_eq_true_eq, Bool.and_eq_true, Bool.not_eq_true', not_or, not_and]
  refine ⟨by omega, fun hr => ?_⟩
  rcases hf with hf | hf
  · simp [hr] at hf
  · omega

/-! ### Messages answered at any time (R340) -/

theorem powered_not_swapped (h : (s.port p).bus.powered = true) : (s.port p).bus ≠ .ufpSwapped := by
  intro hu
  simp [hu, Bus.powered] at h

theorem softReset_offers (h32 : p < 32) (hw : (s.port p).bus.powered = true)
    (hs : (s.port p).pd.st = .contract ∨ (s.port p).pd.st = .negotiating) :
    softReset p s = sendCaps p (modPd p (fun d => { d with st := .negotiating, tSender := false }) (pdSend p .accept [] s)) := by
  unfold softReset
  rw [if_neg (show p ≠ 32 by omega)]
  rcases hs with hs | hs <;>
    · simp only [hw, hs]
      exact congrArg (sendCaps p) (modPd_congr (by simp [hs]))

theorem softReset_transition (h32 : p < 32) (hw : (s.port p).bus.powered = true) (hs : (s.port p).pd.st = .transition) :
    softReset p s = modPd p (fun d => { d with offerDue := true }) (pdSend p .accept [] s) := by
  simp [softReset, hw, hs, show p ≠ 32 by omega]

theorem softReset_unpowered (h32 : p < 32) (hw : (s.port p).bus.powered = false) : softReset p s = pdSend p .accept [] s := by
  simp [softReset, hw, show p ≠ 32 by omega]

theorem getSourceCap_contract (h32 : p < 32) (hw : (s.port p).bus.powered = true) (hs : (s.port p).pd.st = .contract) :
    getSourceCap p s = sendCaps p (modPd p (fun d => { d with st := .negotiating }) s) := by
  simp [getSourceCap, newOffer, hw, hs, powered_not_swapped hw, show p ≠ 32 by omega]

theorem getSourceCap_powered (h32 : p < 32) (hw : (s.port p).bus.powered = true) (hs : (s.port p).pd.st ≠ .contract) :
    getSourceCap p s = sendCaps p s := by
  simp [getSourceCap, hw, hs, powered_not_swapped hw, show p ≠ 32 by omega]

theorem getSourceCap_sink (h : p = 32 ∨ (s.port p).bus = .ufpSwapped) : getSourceCap p s = pdSend p .notSupported [] s := if_pos h

theorem getSinkCap_swapped (h32 : p < 32) (hu : (s.port p).bus = .ufpSwapped) : getSinkCap p s = pdSend p .sinkCaps [0x0001900A] s := by
  simp [getSinkCap, hu, show p ≠ 32 by omega]

theorem getSinkCap_source (h32 : p < 32) (hu : (s.port p).bus ≠ .ufpSwapped) : getSinkCap p s = pdSend p .notSupported [] s := by
  simp [getSinkCap, hu, show p ≠ 32 by omega]

/-! ### Transitions (R354 to R357, R383, R591) -/

theorem transStart_stays (hs : (s.port p).pd.st = .transition) (ht : (s.port p).pd.sub = .timing)
    (hv : (s.port p).sw.volt = (s.port p).pd.newVolt) (hg : (s.port p).pg = true) :
    transStart p s = psReady p (modPd p (fun d => { d with sub := .moving }) s) := by
  simp [transStart, hs, ht, hv, hg]

theorem transStart_up (hs : (s.port p).pd.st = .transition) (ht : (s.port p).pd.sub = .timing) (hv : (s.port p).pd.newVolt = 2)
    (hw : (s.port p).sw = .loOn) :
    transStart p s = modPort p (fun r => { r with sw := .gap, pg := false, atLimit := false })
      (modPd p (fun d => { d with sub := .moving }) s) := by
  simp [transStart, hs, ht, hv, hw, Sw.volt]

theorem transStart_down (hs : (s.port p).pd.st = .transition) (ht : (s.port p).pd.sub = .timing) (hv : (s.port p).pd.newVolt = 1)
    (hw : (s.port p).sw = .hiOn) :
    transStart p s = modPort p (fun r => { r with sw := .stepdown, pg := false, atLimit := false })
      (modPd p (fun d => { d with sub := .moving }) s) := by
  simp [transStart, hs, ht, hv, hw, Sw.volt]

/-- An order to close the low path of a port whose paths are open, while the 5 V rail is there (R386). -/
theorem closeLow_ramps (hw : (s.port p).sw = .off) (hr : s.board.rail5 = true) :
    closeLow p s = modPort p (fun r => { r with sw := .loRamp, pg := false, fetArmed := false }) s := by
  simp [closeLow, State.rail5Low, hw, hr]

theorem stepdownDone_closes (hw : (s.port p).sw = .stepdown) (hr : s.board.rail5 = true) :
    stepdownDone p s = modPort p (fun r => { r with sw := .loRamp, pg := false, fetArmed := false })
      (modPort p (fun r => { r with sw := .off }) s) := by
  rw [stepdownDone, if_pos hw]
  exact closeLow_ramps (by simp) hr

theorem stepdownLate_resets (hb : s.busRuns = true) (hw : (s.port p).sw = .stepdown) :
    stepdownLate p s = hardReset p true 3 (raise (srcPd p) 2 (modPort p (fun r => { r with sw := .off, fetArmed := false }) s)) := by
  have hon := core_of_busRuns hb
  rw [stepdownLate, if_pos hw]
  exact if_pos (by simpa using hon)

theorem powerGood_high (hs : (s.port p).pd.st = .transition) (hm : (s.port p).pd.sub = .moving) (hw : (s.port p).sw = .hiRamp)
    (hv : (s.port p).pd.newVolt = 2) :
    powerGood p s = psReady p (modPort p (fun r => { r with sw := .hiOn, pg := true, atLimit := false }) s) := by
  simp [powerGood, hs, hm, hw, hv, Sw.volt]

theorem voltageLate_resets (hs : (s.port p).pd.st = .transition) (hm : (s.port p).pd.sub = .moving) (hg : (s.port p).pg = false) :
    voltageLate p s = hardReset p true 3 s := by
  simp [voltageLate, hs, hm, hg]

theorem transDetach_leaves (hs : (s.port p).pd.st = .transition) :
    transDetach p s = modPd p (fun d => { d with sub := .gone }) (releasePd p (openPaths p (modPort p (fun r => { r with rd := none })
      (raise (srcPd p) 1 (pdEvent p 0x0506 (if (s.port p).pd.volt = 0 then 1 else (s.port p).pd.volt) (s.port p).pd.newVolt s))))) := by
  simp [transDetach, hs]

/-! ### Hard Reset (R347, R358, R359) -/

theorem anyHardReset_source (h : (s.port p).bus ≠ .ufpSwapped) (sent : Bool) (cause : Nat) :
    anyHardReset p sent cause s = hardReset p sent cause s := by
  simp [anyHardReset, h]

/-- A third Hard Reset without a contract in between is not sent (R347). -/
theorem hardReset_spent (h : 2 ≤ (s.port p).pd.resets) (cause : Nat) : hardReset p true cause s = s := by
  simp [hardReset, State.hrSpent, h]

theorem hrOpen_waits (hs : (s.port p).pd.st = .hardReset) (hw : (s.port p).pd.sub = .hrWaitOpen) :
    hrOpen p s = modPd p (fun d => { d with sub := .hrWaitSafe0, ufp := false, volt := 0, opMa := 0 }) (openPaths p s) := by
  simp [hrOpen, hs, hw]

theorem safe0_hardReset (ha : (s.port p).sw.active = false) (hw : (s.port p).pd.sub = .hrWaitSafe0) :
    safe0 p s = setWeight p 0 (modPd p (fun d => { d with sub := .hrRecover }) (modPort p (fun r => { r with fetArmed := true }) s)) := by
  simp [safe0, ha, hw]

theorem safe0Late_hardReset (ha : (s.port p).sw.active = false) (hw : (s.port p).pd.sub = .hrWaitSafe0) :
    safe0Late p s = raise (srcPd p) 2 (modPort p (fun r => { r with fetArmed := true }) s) := by
  simp [safe0Late, ha, hw]

theorem srcRecovered_closes (hrd : (s.port p).rd.isSome = true) (hw : (s.port p).pd.sub = .hrRecover) (hs : (s.port p).sw = .off)
    (hr : s.board.rail5 = true) (hb : (s.port p).bus = .powering) :
    srcRecovered p s = modPort p (fun r => { r with sw := .loRamp, pg := false, fetArmed := false })
      (modPd p (fun d => { d with st := .hardReset, sub := .hrClosing, ufp := false })
        (modPort p (fun r => { r with weight := r.rpWeight }) s)) := by
  have hweight : modPort p (fun r => { r with bus := if r.bus == .recovering then .recovering else .powering, weight := r.rpWeight }) s =
      modPort p (fun r => { r with weight := r.rpWeight }) s := modPort_congr (by simp [hb])
  unfold srcRecovered
  dsimp only
  rw [if_pos (by simp [hrd, hw]), hweight]
  exact closeLow_ramps (by simp [hs]) hr

/-! ### Data role swaps (R361 to R364) -/

theorem swapAnswer_contract (hs : (s.port p).pd.st = .contract) (hd : (s.port p).pd.sub ≠ .swapDone) (hv : s.provisioned = true)
    (ha : (s.port p).pd.alt = false) : s.swapAnswer p = if (s.port p).renegRun then .wait else .accept := by
  simp [State.swapAnswer, hs, hd, hv, ha]

theorem swapAnswer_reject (hd : (s.port p).pd.sub ≠ .swapDone)
    (h : (s.port p).pd.st ≠ .contract ∨ s.provisioned = false ∨ (s.port p).pd.alt = true) : s.swapAnswer p = .reject := by
  unfold State.swapAnswer
  dsimp only
  rw [if_neg (by simp [hd]), if_pos (by rcases h with h | h | h <;> simp [h])]

/-- The partner's DR_Swap on a downstream port is answered as the port's conditions say. -/
theorem drSwap_down (h32 : p < 32) (s : State) : drSwap p s =
    match s.swapAnswer p with
    | .accept => pdSend p .accept [] s
    | .wait => pdSend p .wait [] s
    | .reject => pdSend p .reject [] s := if_neg (by omega)

theorem pdResponse_accept (h32 : p < 32) (ha : (s.port p).pd.ask = some .swap) (hsent : (s.port p).pd.askSent = true)
    (hd : (s.port p).pd.sub ≠ .swapDone) : pdResponse p .accept s = enterSwapped p s := by
  simp [pdResponse, pdOf_down h32, ha, hsent, hd, show p ≠ 32 by omega]

theorem pdResponse_reject (h32 : p < 32) (ha : (s.port p).pd.ask = some .swap) (hsent : (s.port p).pd.askSent = true) :
    pdResponse p .reject s = swapOutcome p 1 s := by
  simp [pdResponse, pdOf_down h32, ha, hsent]

theorem pdResponse_wait (h32 : p < 32) (ha : (s.port p).pd.ask = some .swap) (hsent : (s.port p).pd.askSent = true) {o : Op}
    (ho : s.opAt (keyPort p) = some o) (hab : s.abortAsked o.host o.tag = false) (ht : (s.port p).pd.swapTries < 10) :
    pdResponse p .wait s = modPdOf p (fun d => { d with askSent := false, swapTries := d.swapTries + 1 }) s := by
  simp [pdResponse, pdOf_down h32, ha, hsent, ho, hab, show ¬ 10 ≤ (s.port p).pd.swapTries by omega]

theorem waitEnds_swap (h32 : p < 32) (ha : (s.port p).pd.ask = some .swap) (hsent : (s.port p).pd.askSent = false) :
    waitEnds p s = pdSend p .drSwap [] (modPdOf p (fun d => { d with askSent := true }) s) := by
  simp [waitEnds, pdOf_down h32, ha, hsent]

theorem swapSource_attaches (hu : (s.port p).bus = .ufpSwapped) (hw : (s.port p).pd.sub = .swapWaitSource) (hv : s.provisioned = true)
    (hr : s.phyRails = true) :
    swapSource p s = modInst (1 + p) (fun i => { attached := true, replies := i.replies }) (modPd p (fun d => { d with sub := .swapWaitCaps }) s) := by
  simp [swapSource, State.svcUp, hu, hw, hv, hr]

theorem capsReceived_swap (h32 : p < 32) (hw : (s.port p).pd.sub = .swapWaitCaps) (pdo : Word) :
    capsReceived p pdo s = swapOutcome p 0 (pdEvent p 0x0503 1 (b2n ((s.port p).pd.ask == some .swap))
      (pdSend p .request [2 ^ 28 + 2 ^ 25 + 10 * 1024 + 10] (modPd p (fun d => { d with sub := .swapDone }) s))) := by
  unfold capsReceived
  rw [if_neg (show p ≠ 32 by omega)]
  exact if_pos (by simp [hw])

theorem swappedDetach_done (hu : (s.port p).bus = .ufpSwapped) (hs : (s.port p).pd.st ≠ .hardReset) (hd : (s.port p).pd.sub = .swapDone)
    (ha : (s.port p).pd.ask = none) : swappedDetach p s = swappedToUnattached p s := by
  simp [swappedDetach, hu, hs, hd, ha]

theorem swappedDetach_waits (hu : (s.port p).bus = .ufpSwapped) (hs : (s.port p).pd.st ≠ .hardReset)
    (hd : (s.port p).pd.sub = .swapWaitSource) : swappedDetach p s = swappedToUnattached p (swapOutcome p 3 s) := by
  simp [swappedDetach, hu, hs, hd]

theorem swapNoSource_ends (hu : (s.port p).bus = .ufpSwapped) (hs : (s.port p).pd.st ≠ .hardReset)
    (hd : (s.port p).pd.sub = .swapWaitSource) :
    swapNoSource p s = swappedToUnattached p (swapOutcome p 3 (pdEvent p 0x050B 0 0 s)) := by
  rw [swapNoSource, if_pos (by simp [hu, hd])]
  exact swappedDetach_waits (by simpa using hu) (by simpa using hs) (by simpa using hd)

theorem swappedNoRd_ends (hd : (s.port p).pd.sub = .swHrWaitRd) : swappedNoRd p s = swappedToUnattached p s := by
  simp [swappedNoRd, hd]

/-! ### VDMs and the Timebase mode (R366 to R370) -/

theorem vdmRequest_identity (hv : s.provisioned = true) :
    vdmRequest p .identity s = pdSend p .vdmAck (vdmHead 0xFF00 1 0 1 :: s.identity p) s := if_pos hv

theorem vdmRequest_nak {req : VdmReq} (ha : req ≠ .attention) (h : req ≠ .identity ∨ s.provisioned = false) :
    vdmRequest p req s = pdSend p .vdmNak [vdmHead (vdmReqCode req).1 2 0 (vdmReqCode req).2] s := by
  cases req with
  | identity => simp [vdmRequest, h.resolve_left (by simp)]
  | svids => rfl
  | modes v => rfl
  | enterMode v => rfl
  | attention => exact absurd rfl ha

theorem exitMode_entered (h32 : p < 32) (ha : (s.port p).pd.alt = true) :
    exitMode p s = altExit p 2 (pdSend p .vdmNak [vdmHead s.timebaseSvid 2 0 5] (useFree s)) := by
  simp [exitMode, pdOf_down h32, ha, show p ≠ 32 by omega]

theorem vdmResponse_discover {req : Nat} (ha : (s.port p).pd.ask = some (.discover req)) (h2 : req ≠ 2) (a : VdmAns) (vdos : List Word) :
    let got := if a = .ack then vdos.take 6 else []
    vdmResponse p a vdos s = vdmEnd p stOk (u8 (vdmCode a) ++ u8 got.length ++ [0, 0] ++ got.flatMap fun v => u32 v.toNat) s := by
  simp [vdmResponse, ha, h2]

theorem vdmResponse_svids {vdos : List Word} (ha : (s.port p).pd.ask = some .altSvids)
    (hv : (svidsOf vdos).contains s.timebaseSvid = true) :
    vdmResponse p .ack vdos s = unlessAborted p (fun t => pdSend p .discModes [vdmHead t.timebaseSvid 0 0 3]
      (modPd p (fun d => { d with ask := some .altModes }) t)) s := by
  unfold vdmResponse
  simp only [ha, hv, beq_self_eq_true, Bool.and_self, if_true]

theorem unlessAborted_goes {o : Op} (ho : s.opAt (keyPort p) = some o) (hab : s.abortAsked o.host o.tag = false) (f : State → State) :
    unlessAborted p f s = f s := by
  simp [unlessAborted, ho, hab]

theorem unlessAborted_ends {o : Op} (ho : s.opAt (keyPort p) = some o) (hab : s.abortAsked o.host o.tag = true) (f : State → State) :
    unlessAborted p f s = abortOp o.host o.tag [] (modPd p (fun d => { d with ask := none, askSent := false }) s) := by
  simp [unlessAborted, ho, hab]

theorem vdmResponse_enter (ha : (s.port p).pd.ask = some .enter) (vdos : List Word) :
    vdmResponse p .ack vdos s = vdmEnd p stOk (u8 0) (pdEvent p 0x0507 0 0 (modPd p (fun d => { d with alt := true }) s)) := by
  simp [vdmResponse, ha]

theorem vdmTimeout_discover {req : Nat} (ha : (s.port p).pd.ask = some (.discover req)) : vdmTimeout p s = vdmEnd p stTimeout [] s := by
  simp [vdmTimeout, ha]

theorem vdmTimeout_exit (ha : (s.port p).pd.ask = some .exit) : vdmTimeout p s = vdmEnd p stTimeout [] (altExit p 1 s) := by
  simp [vdmTimeout, ha]

theorem enterTimeout_enter (ha : (s.port p).pd.ask = some .enter) : enterTimeout p s = vdmEnd p stTimeout [] s := by
  simp [enterTimeout, ha]

/-! ### The service port as a sink (R365, R371 to R373) -/

theorem svcRequest_feed (hf : s.feedPresent = true) (pdo : Word) :
    svcRequest pdo s = pdSend 32 .request [2 ^ 28 + 2 ^ 25 + 10 * 1024 + 10]
      (modSvc (fun v => { v with caps := true, offerMa := 100, mismatch := false, pd := { v.pd with st := .negotiating } }) s) := by
  simp [svcRequest, hf, b2n]

theorem svcVbusSeen_unposting (h : s.posting = false) (rp : Nat) :
    svcVbusSeen rp s = servicePower (sat 2 rp) (rpMa rp) (modSvc (fun v => { v with vbus := true, rp := sat 2 rp }) s) := by
  unfold svcVbusSeen servicePower
  exact if_neg (by simpa [State.posting] using h)

theorem svcRpChanged_reports (h : s.svc.waited = false ∨ s.svc.pd.st ≠ .noContract) (rp : Nat) :
    svcRpChanged rp s = servicePower (sat 2 rp) (rpMa rp) (modSvc (fun v => { v with rp := sat 2 rp }) s) :=
  if_neg (by rcases h with h | h <;> simp [h])

theorem svcCapsWaitEnds_decides (hc : s.svc.caps = false) (hs : s.svc.pd.st = .noContract) :
    svcCapsWaitEnds s = closeSvcGate (modSvc (fun v => { v with waited := true }) s) := by
  simp [svcCapsWaitEnds, hc, hs]

theorem svcOverload_opens (hg : s.svc.gate = true) (hw : s.dev.power ≠ .service) :
    svcOverload s = ashRecord 3 s.svc.limitMa (modSvc (fun v => { v with gate := false, pause := true }) s) := by
  unfold svcOverload
  rw [if_neg (by simp [hg])]
  exact if_neg (by simp [ashRecord, ashPut, hw])

theorem svcDfpEnds_asks (hu : s.svc.pd.ufp = false) (ha : s.svc.pd.ask = none) :
    svcDfpEnds s = pdSend 32 .drSwap [] (modPdOf 32 (fun d => { d with ask := some .swap, askSent := true, swapTries := 0 }) s) := by
  simp [svcDfpEnds, hu, ha]

end
end Sys2Proof.Machine

namespace Sys2Proof
open Machine

/-- Settles O28: offers, Requests by what they ask and what the budget funds, and the messages of any time by the port's role. -/
theorem offersRequestsAndMessages : Obligations.OffersRequestsAndMessages := by
  constructor
  · intro s p h32 hp hb d
    refine ⟨?_, ?_, ?_, ?_, ?_, ?_⟩
    · exact fun hs hq h0 h50 => execD h32 hp hb (capsRepeat_again hs hq h0 h50)
    · exact fun hs hq h50 => execD h32 hp hb (capsRepeat_last hs hq h50)
    · exact fun hs hq h0 => execPd h32 hp hb (goodCrc_sourceCaps h32 hs hq h0)
    · exact fun hs ha => execPd h32 hp hb (goodCrc_accept h32 hs ha)
    · exact fun hs ht => execPd h32 hp hb (senderTimeout_negotiating h32 hs ht)
    · intro hs rdo pos op mx got w now
      refine ⟨fun why hbad => execD h32 hp hb (request_rejected hs hbad), fun hbad => ⟨fun hf => ?_, fun hw hf => ?_⟩⟩
      · exact execD h32 hp hb (request_accepted hs hbad hf)
      · exact execD h32 hp hb (request_waits hs hbad hw hf)
  · intro s
    refine ⟨fun p h32 hp hb => ?_, fun hv => ?_⟩
    · refine ⟨?_, ?_, ?_, ?_, ?_, ?_, ?_, fun kind => execPd h32 hp hb rfl, execPd h32 hp hb rfl⟩
      · exact fun hw hs => execPd h32 hp hb (softReset_offers h32 hw hs)
      · exact fun hw => execPd h32 hp hb (softReset_unpowered h32 hw)
      · exact fun hw hs => execPd h32 hp hb (softReset_transition h32 hw hs)
      · exact fun hw hs => execPd h32 hp hb (getSourceCap_contract h32 hw hs)
      · exact fun hw hs => execPd h32 hp hb (getSourceCap_powered h32 hw hs)
      · exact fun hu => ⟨execPd h32 hp hb (getSourceCap_sink (.inr hu)), execPd h32 hp hb (getSinkCap_swapped h32 hu)⟩
      · exact fun hu => execPd h32 hp hb (getSinkCap_source h32 hu)
    · exact ⟨execSvc hv rfl, execSvc hv (getSourceCap_sink (.inl rfl)), execSvc hv rfl, fun kind => execSvc hv rfl, execSvc hv rfl⟩

/-- Settles O29: a transition and a Hard Reset step by step, each from the state of the contract layer and of the switch. -/
theorem transitionsAndHardResets : Obligations.TransitionsAndHardResets := by
  intro s p h32 hp hb r moving
  refine ⟨?_, ?_, ?_, ?_, ?_, ?_, ?_, ?_, ?_, ?_, ?_, ?_, ?_, ?_⟩
  · exact fun hs ht hv hg => execD h32 hp hb (transStart_stays hs ht hv hg)
  · exact fun hs ht hv hw => execD h32 hp hb (transStart_up hs ht hv hw)
  · exact fun hs ht hv hw => execD h32 hp hb (transStart_down hs ht hv hw)
  · exact fun hw => execP hp (if_pos hw)
  · exact fun hw hr => execP hp (stepdownDone_closes hw hr)
  · exact fun hw => execP hp (stepdownLate_resets hb hw)
  · intro hrec hs hm hw hv
    refine execP hp ?_
    rw [if_neg (by simpa using hrec), powerGood_high hs hm hw hv]
  · exact fun hs hm hg => execD h32 hp hb (voltageLate_resets hs hm hg)
  · exact fun hs => execD h32 hp hb (transDetach_leaves hs)
  · intro hu
    refine (congrArg Host.Outcome.next (if_neg (show p ≠ 32 by omega))).trans (execP hp ?_)
    rw [if_pos hb, anyHardReset_source hu]
  · exact fun hr hs ht => execPd h32 hp hb ((senderTimeout_negotiating h32 hs ht).trans (hardReset_spent hr 2))
  · exact fun hs hw => execP hp (hrOpen_waits hs hw)
  · exact fun ha hw => ⟨execP hp (safe0_hardReset ha hw), execP hp (safe0Late_hardReset ha hw)⟩
  · exact fun hrd hw hs hr hbus => execP hp (srcRecovered_closes hrd hw hs hr hbus)

/-- Settles O30: the answers to the partner's swap, the outcomes of the HK32's own, and what ends UFP_SWAPPED. -/
theorem dataRoleSwaps : Obligations.DataRoleSwaps := by
  intro s p h32 hp hb r d
  refine ⟨?_, ?_, ?_, ?_, ?_, ?_, ?_, ?_, ?_, ?_⟩
  · intro hs hd hv ha hn
    refine execPd h32 hp hb ?_
    rw [drSwap_down h32, swapAnswer_contract hs hd hv ha, show (s.port p).renegRun = false from hn]
    rfl
  · intro hs hd hv ha hn
    refine execPd h32 hp hb ?_
    rw [drSwap_down h32, swapAnswer_contract hs hd hv ha, show (s.port p).renegRun = true from hn]
    rfl
  · intro hd h
    refine execPd h32 hp hb ?_
    rw [drSwap_down h32, swapAnswer_reject hd h]
  · intro ha hsent hd
    refine ⟨execPd h32 hp hb (pdResponse_accept h32 ha hsent hd), execPd h32 hp hb (pdResponse_reject h32 ha hsent), ?_⟩
    exact fun o ho hab ht => execPd h32 hp hb (pdResponse_wait h32 ha hsent ho hab ht)
  · exact fun ha hsent => execPd h32 hp hb (waitEnds_swap h32 ha hsent)
  · exact fun hu hw hv hr => execD h32 hp hb (swapSource_attaches hu hw hv hr)
  · exact fun pdo hw => execPd h32 hp hb (capsReceived_swap h32 hw pdo)
  · exact fun hu hs hd ha => execD h32 hp hb (swappedDetach_done hu hs hd ha)
  · exact fun hu hs hd => execD h32 hp hb (swapNoSource_ends hu hs hd)
  · exact fun hd => execD h32 hp hb (swappedNoRd_ends hd)

/-- Settles O31: requests of a partner by what they ask, and the HK32's own by the command that waits for the answer. -/
theorem modesAndDiscovery : Obligations.ModesAndDiscovery := by
  intro s p h32 hp hb d
  refine ⟨?_, ?_, ?_, ?_, ?_, ?_, ?_, ?_, ?_⟩
  · exact fun hv => execPd h32 hp hb (vdmRequest_identity hv)
  · exact fun req ha h => execPd h32 hp hb (vdmRequest_nak ha h)
  · exact fun ha => execPd h32 hp hb (exitMode_entered h32 ha)
  · exact fun req a vdos ha h2 => execD h32 hp hb (vdmResponse_discover ha h2 a vdos)
  · intro vdos o ha hv ho
    exact ⟨fun hab => execD h32 hp hb ((vdmResponse_svids ha hv).trans (unlessAborted_goes ho hab _)),
      fun hab => execD h32 hp hb ((vdmResponse_svids ha hv).trans (unlessAborted_ends ho hab _))⟩
  · exact fun vdos ha => execD h32 hp hb (vdmResponse_enter ha vdos)
  · exact fun req ha => execD h32 hp hb (vdmTimeout_discover ha)
  · exact fun ha => execD h32 hp hb (vdmTimeout_exit ha)
  · exact fun ha => execD h32 hp hb (enterTimeout_enter ha)

/-- Settles O32: what the source of SVC_VBUS shows, what follows for SVC_GATE, and the 15 V rail port by port. -/
theorem servicePower : Obligations.ServicePower := by
  intro s
  refine ⟨?_, ?_, ?_, ?_, ?_, ?_, ?_, ?_, ?_, ?_⟩
  · intro rp hp hv hpost
    refine congrArg Host.Outcome.next ?_
    rw [if_neg (by simp [hp]), if_pos (by simp [hv]), svcVbusSeen_unposting hpost]
  · intro rp hp hv hrp h
    refine congrArg Host.Outcome.next ?_
    rw [if_neg (by simp [hp]), if_neg (by simp [hv]), if_pos (by simpa using hrp), svcRpChanged_reports h]
  · exact fun pdo hv hf => execSvc hv ((if_pos hv).trans (svcRequest_feed hf pdo))
  · exact fun hv hs => execSvc hv (if_pos ⟨rfl, hs⟩)
  · exact fun hv hc hs => execSvc hv (svcCapsWaitEnds_decides hc hs)
  · exact fun hv hg hw => execSvc hv (svcOverload_opens hg hw)
  · exact fun hv hp => execSvc hv (if_pos hp)
  · exact fun hv hu ha => execSvc hv (svcDfpEnds_asks hu ha)
  · intro hr hp hb low
    refine congrArg Host.Outcome.next ?_
    rw [if_pos (by simp [hr, hp]), if_pos hb]
    rfl
  · intro hr hp back
    refine congrArg Host.Outcome.next ?_
    rw [if_pos (by simp [hr, hp])]
    rfl

end Sys2Proof
end

section
/-!
The microframe and the results of its transactions (R28 to R31, R85 to R91, R107 to R116).
-/
namespace Sys2Proof.Machine

section
variable {s : State}

/-! ### The grid boundary (R85, R89, R91) -/

theorem boundary_off (h : s.time.gridOn = false) : boundary s = s := by simp [boundary, h]

theorem boundary_plain (hon : s.time.gridOn = true) (hst : s.time.stepped = false) :
    boundary s = (let s1 := nextBoundary (keepStamp s)
      let s3 := issueOrders 64 (modStok (fun k => { k with lists := [] })
        (missSlots (foldS (upTo (migBoundary s1).nPorts) runPort (migBoundary s1))))
      engineEmpty (if s3.ready then gateEmpty s3 else s3)) := by
  simp only [boundary, hon, hst, Bool.not_true, Bool.false_eq_true, if_false]

theorem boundary_stepped (hon : s.time.gridOn = true) (hst : s.time.stepped = true) :
    boundary s = (let s1 := renumber (keepStamp s)
      let s3 := issueOrders 64 (modStok (fun k => { k with lists := [] })
        (passSlots (foldS (upTo (migBoundary s1).nPorts) runPort (migBoundary s1))))
      engineEmpty (if s3.ready then gateEmpty s3 else s3)) := by
  simp only [boundary, hon, hst, Bool.not_true, Bool.false_eq_true, if_false, if_true]

theorem nextBoundary_time (s : State) : ∃ now, (nextBoundary s).time =
    { s.time with now := now, m := s.time.m + 1, g := s.time.g + 1, gridHalf := slewed s.time.gridHalf } := ⟨_, rfl⟩

/-- A microframe's slew takes 12.5 ns off the offset, and a smaller offset whole. -/
theorem slewed_cases (h : Int) : (25 < h ∧ slewed h = h - 25) ∨ (h < -25 ∧ slewed h = h + 25) ∨ (-25 ≤ h ∧ h ≤ 25 ∧ slewed h = 0) := by
  unfold slewed
  split
  · next hp => exact .inl ⟨hp, rfl⟩
  · next hp =>
    split
    · next hn => exact .inr (.inl ⟨hn, rfl⟩)
    · next hn => exact .inr (.inr ⟨by omega, by omega, rfl⟩)

theorem slewed_pos {h : Int} (h0 : 0 ≤ h) : 0 ≤ slewed h ∧ slewed h ≤ h := by
  rcases slewed_cases h with ⟨h1, h2⟩ | ⟨h1, h2⟩ | ⟨h1, h2, h3⟩ <;> omega

theorem slewed_neg {h : Int} (h0 : h ≤ 0) : slewed h ≤ 0 ∧ h ≤ slewed h := by
  rcases slewed_cases h with ⟨h1, h2⟩ | ⟨h1, h2⟩ | ⟨h1, h2, h3⟩ <;> omega

theorem slewed_near {h : Int} (hl : -25 ≤ h) (hu : h ≤ 25) : slewed h = 0 := by
  rcases slewed_cases h with ⟨h1, h2⟩ | ⟨h1, h2⟩ | ⟨h1, h2, h3⟩ <;> omega

/-- The grid point nearest to a moment in half ns, and the offset from it. -/
def nearestGrid (at_ : Int) : Int × Int :=
  if at_ % 250000 < 125000 then (at_ % 250000, at_ / 250000) else (at_ % 250000 - 250000, at_ / 250000 + 1)

theorem nearestGrid_bounds (a : Int) : -125000 ≤ (nearestGrid a).1 ∧ (nearestGrid a).1 < 125000 := by
  unfold nearestGrid; split <;> dsimp only <;> omega

theorem nearestGrid_sum {a : Int} (ha : 0 ≤ a) : 250000 * ((nearestGrid a).2.toNat : Int) + (nearestGrid a).1 = a := by
  unfold nearestGrid; split <;> dsimp only <;> omega

theorem renumber_time (s : State) : ∃ now, (renumber s).time =
    { s.time with now := now, m := (nearestGrid s.time.boundaryHalf).2.toNat,
                  g := BitVec.ofNat 32 (nearestGrid s.time.boundaryHalf).2.toNat,
                  gridHalf := (nearestGrid s.time.boundaryHalf).1, stepped := false, stepBy := 0 } := ⟨_, rfl⟩

/-! ### The commit of a sublist (R28, R107, R146) -/

theorem commitEntries_lists (te g : Nat) (acyclic : List Nat) (b : State × List Nat) :
    ∃ l ∈ (commitEntries te g acyclic b).stok.lists, l.group = g ∧ l.te = te :=
  ⟨_, List.mem_append_right _ (List.mem_singleton_self _), rfl, rfl⟩

theorem commitList_commits {te g : Nat} (ha : s.available te = true) (he : s.engineOf g = some te)
    (hl : (s.stok.lists.any fun l => l.group == g && l.te == te) = false) (hc : (s.stok.colds.any fun c => c.group == g) = false) :
    ∃ l ∈ (commitList te g s).stok.lists, l.group = g ∧ l.te = te := by
  unfold commitList
  dsimp only
  rw [if_neg (by simp [ha, he, hl, hc])]
  split
  · exact commitEntries_lists _ _ _ _
  · exact commitEntries_lists _ _ _ _

theorem commitList_once {te g : Nat} (h : (s.stok.lists.any fun l => l.group == g && l.te == te) = true ∨
    (s.stok.colds.any fun c => c.group == g) = true) : commitList te g s = s := by
  unfold commitList
  exact if_pos (by rcases h with h | h <;> simp only [h, Bool.or_true, Bool.true_or])

theorem execGroup {p g : Nat} (hp : s.hasPort p = true) (hg : g < 8) (hr : s.dev.phase = .ready) {f : State → State} {b : State}
    (h : f s = b) : (Host.Outcome.next (atGroup p g f s) : Res) = .next (finish b) := by
  have hin : atGroup p g f s = atCore f s := if_pos (by simp [hp, hg])
  rw [hin]
  exact execC (.inl hr) h

/-! ### What a result leaves where no transfer uses the context (R110, R111, R114) -/

section
variable {e : Nat} (hx : ∀ x ∈ s.xfers, x.epid ≠ e)
include hx

theorem xferAt_unused : s.xferAt e = none := by
  simpa [State.xferAt] using hx

theorem endBare_unused : endBare e s = s := by
  have hnone : (s.xfers.filter fun x => x.epid == e) = [] := by simpa using hx
  simp [endBare, hnone, foldS]

theorem onWire_unused (b : Bool) : onWire e b s = s := by simp [onWire, xferAt_unused hx]

/-- A result that leaves the transfers alone is the whole of its step. -/
theorem afterTxn_unused {f : State → State} (hf : (f s).xfers = s.xfers) : afterTxn e f s = f s := by
  have ht : ∀ x ∈ (f s).xfers, x.epid ≠ e := by simpa [hf] using hx
  simp only [afterTxn, onWire_unused hx, endBare_unused ht, xferAt_unused ht]

end

theorem ctxResult_bound {e : Nat} {c : Ctx} (hc : s.ctx e = some c) (hb : c.bound = true) (h2 : c.cls ≤ 2) (r : Txn) (retries : Bool) :
    ctxResult e r retries s = boundResult e c r retries s := by
  simp [ctxResult, hc, hb, h2]

theorem deliver_pushes {q e : Nat} {bs : List Byte} (h : (s.stok.migs.any fun m => m.group == epGroup e && m.handed && !m.late) = false) :
    deliver q e bs s = pushItem q (s.usbItem e bs) s := by
  simp [deliver, h]

theorem boundError_setCtx {e : Nat} {c : Ctx} (h : c.cls ≠ 2 ∨ c.errCount ≠ 2) (retries : Bool) :
    boundError e c retries s = setCtx e (c.error retries s.txnG) s := by
  unfold boundError
  exact if_neg (by omega)

theorem sat_le (lim n : Nat) : sat lim n ≤ lim := by unfold sat; split <;> omega

/-- The third error in a row defers the context, and no retry follows (R111). -/
theorem error_third {c : Ctx} (h : 2 ≤ c.errCount) (retries : Bool) (g : Word) :
    (c.error retries g).xerr = true ∧ (c.error retries g).retry = 0 := by
  have h3 : sat 3 (c.errCount + 1) = 3 := by unfold sat; split <;> omega
  simp [Ctx.error, h3]

theorem error_retry {c : Ctx} (h : c.errCount < 2) (hc : c.cls ≠ 2) (hp : 2 ≤ c.period) {g : Word} (hr : c.retryAt ≠ some g) :
    (c.error true g).retry = c.retry + 1 := by
  have h3 : sat 3 (c.errCount + 1) < 3 := by unfold sat; split <;> omega
  simp [Ctx.error, hc, hp, hr, show ¬ 3 ≤ sat 3 (c.errCount + 1) by omega]

end
end Sys2Proof.Machine

namespace Sys2Proof
open Machine

/-- Settles O33: the boundary by whether TIME has stepped, the figures of the grid after it, and the commit of a sublist. -/
theorem microframes : Obligations.Microframes := by
  intro s hr
  refine ⟨?_, ?_, ?_, ?_, ?_⟩
  · exact fun hoff => execC (.inl hr) (boundary_off hoff)
  · intro hon hst s1
    obtain ⟨now, ht⟩ := nextBoundary_time (keepStamp s)
    refine ⟨execC (.inl hr) (boundary_plain hon hst), ?_⟩
    rw [show s1.time = _ from ht]
    exact ⟨rfl, rfl, rfl, slewed_pos, slewed_neg, slewed_near⟩
  · intro hon hst s1
    obtain ⟨now, ht⟩ := renumber_time (keepStamp s)
    have hbounds := nearestGrid_bounds s.time.boundaryHalf
    refine ⟨execC (.inl hr) (boundary_stepped hon hst), ?_⟩
    rw [show s1.time = _ from ht]
    exact ⟨rfl, rfl, hbounds.1, hbounds.2, nearestGrid_sum⟩
  · intro te p g hp hg ha he hl hc
    obtain ⟨l, hl, hgroup, hte⟩ := commitList_commits ha he hl hc
    exact ⟨_, l, execGroup hp hg hr rfl, hl, hgroup, hte⟩
  · exact fun te p g hp hg h => execGroup hp hg hr (commitList_once h)

/-- Settles O34: with no transfer on the context the result is the whole step, and each kind of result sets the context. -/
theorem transactionResults : Obligations.TransactionResults := by
  intro s e c hr hc hb h2 hx
  have hstep {r : TxnRes} {f : State → State} {b : State} (hr' : txnResult r s = afterTxn e f s) (hf : f s = b)
      (hkeep : b.xfers = s.xfers) : exec (.transactionResult r) s = .next (finish b) :=
    execC (.inl hr) (by rw [hr', afterTxn_unused hx (by rw [hf, hkeep]), hf])
  have hres {r : Txn} {b : State} (hf : boundResult e c r true s = b) (hkeep : b.xfers = s.xfers) :
      exec (.transactionResult (.ctx e r)) s = .next (finish b) :=
    hstep (f := ctxResult e r true) rfl ((ctxResult_bound hc hb h2 r true).trans hf) hkeep
  refine ⟨hres rfl rfl, hres rfl rfl, ?_, ?_, ?_, ?_, ?_, ?_, ?_⟩
  · exact fun hin => hres (if_neg (by simp [hin])) rfl
  · intro bs hin hlen
    have hok : ¬ (!c.dirIn || decide (c.maxPacket < bs.length)) = true := by simp [hin, hlen]
    refine ⟨fun hown hmig => hres ?_ (posted_pushItem (Posted.refl _) _ _).xfers, hres ?_ rfl⟩
    · have hdeliver := deliver_pushes (s := setCtx e (c.success s.txnG) s) (q := c.queue) (e := e) (bs := bs) hmig
      exact (if_neg hok).trans ((if_pos rfl).trans ((if_neg (by simp [hown])).trans hdeliver))
    · exact (if_neg hok).trans (if_neg (by simp))
  · intro h
    refine ⟨c.error true s.txnG, hres (boundError_setCtx h true) rfl, rfl, rfl, rfl, rfl, rfl, rfl, ?_, ?_⟩
    · exact fun h3 => error_third h3 true _
    · exact fun h3 hcls hper hretry => error_retry h3 hcls hper hretry
  · intro hp
    refine hstep (f := notRun e) rfl ?_ rfl
    simp [notRun, modCtx, hc, hp]
  · refine hstep (f := startSplit e .ack) rfl ?_ rfl
    simp [startSplit, modCtx, hc]
  · intro off hoff
    refine hstep (f := completeSplit e off .nyet) rfl ?_ rfl
    simp [completeSplit, hc, hoff]
  · intro off
    refine hstep (f := completeSplit e off .nak) rfl ?_ rfl
    have hsplit := ctxResult_bound (s := setCtx e { c with split := 0 } s) (c := { c with split := 0 })
      (ctx_setCtx e _ s) hb h2 .nak false
    simpa [completeSplit, hc, boundResult, Ctx.nak] using hsplit

end Sys2Proof
end

section
/-!
Placement and the memories (R126 to R146, R181, R205, R454, R546 to R550).
-/
namespace Sys2Proof.Machine

section
variable {s : State}

theorem execChip (hr : s.dev.phase = .ready) {f : State → State} {b : State} (h : f s = b) :
    (Host.Outcome.next (atChip f s) : Res) = .next (finish b) := by
  have hon : atChip f s = finish (f s) := if_neg (by simp [hr])
  rw [hon, h]

theorem execMboter (hr : s.dev.phase = .ready) {f : State → State} {b : State} (h : f s = b) :
    (Host.Outcome.next (atMboter f s) : Res) = .next (finish b) := by
  have hon : atMboter f s = finish (f s) := if_pos (by simp [State.ready, hr])
  rw [hon, h]

theorem migDrained_ends {p g : Nat} {m : Mig} (hm : (s.stok.migs.find? fun m => m.group == 8 * p + g && m.handed) = some m) :
    migDrained p g s = issueOrders 64 (engineEmpty (foldS m.pushes (fun x t => pushItem x.1 x.2 t) (dropMig (8 * p + g) s))) := by
  simp only [migDrained, hm]

theorem noAck_raises {te : Nat} (ha : s.available te = true) : noAck te s = raise (srcTe te) 3 (setSqc (aTe te) [16] s) := if_pos ha

/-! ### The refill of a head (R181, R216) -/

theorem satAdd_zero (c : Word) : satAdd c 0 = c := by
  unfold satAdd
  rw [if_pos (by simpa using c.isLt)]
  simp

/-- A refill whose headers all pass their check takes the middle as it is. -/
theorem checkMid_good (flags : BitVec 8) (n pos : Nat) (mid : List Item) : checkMid flags [] n pos mid = (mid, []) := by
  induction n generalizing pos mid with
  | zero => rfl
  | succ n ih =>
    cases mid with
    | nil => rfl
    | cons i rest => simp [checkMid, ih]

theorem refillHead_good {q : Nat} (hs : s.spills (s.queue q) = true) (hp : s.peat.st = 2) (hh : (s.queue q).head.length ≤ 8)
    (hm : (s.queue q).mid ≠ []) :
    refillHead q [] s = putQueue q
      ({ s.queue q with head := (s.queue q).head ++ ((s.queue q).mid.take (16 - (s.queue q).head.length)).map (s.placeItem q),
                        mid := (s.queue q).mid.drop (16 - (s.queue q).head.length) } : Queue).fill none s := by
  have hlost : lostItems (fun _ => true) [] = 0 := rfl
  unfold refillHead
  dsimp only
  rw [if_neg (by simp [hs, hp, hm, hh]), checkMid_good, hlost, satAdd_zero]
  exact if_pos rfl

/-! ### Banks and the active set (R454, R546) -/

theorem bankIdleOff_empty {b : Nat} (hb : b < 16) (hst : (s.pbank b).st = 0) (hh : s.heldIn b = 0) :
    bankIdleOff b s = modPbank b (fun r => { r with st := 1 }) s := if_pos ⟨hb, hst, hh⟩

theorem shrinkSet_shrinks (hk : 4 < s.pool.k) (hu : 2 * s.poolUsed ≤ 6143 * (s.pool.k - 1)) :
    shrinkSet s = { s with pool := { s.pool with k := s.pool.k - 1 } } := if_pos ⟨hk, hu⟩

/-! ### Scrubs (R205, R549, R550) -/

section
variable (hp : s.peat.st = 2)
include hp

theorem peatScrub_passDone : peatScrub .passDone s =
    setSqc aMemc [11] (modPeat (fun m => { m with scrubbing := false, recBad := false }) s) := by
  unfold peatScrub
  exact if_neg (by simp [hp])

theorem peatScrub_corrected {a : Nat} (ha : peatRegion a ≠ .spill) : peatScrub (.corrected a) s =
    raise 150 1 (setSqc aMemc [14] (modPeat (fun m => { m with corr := satAdd m.corr 1, recBad := false }) s)) := by
  unfold peatScrub
  exact (if_neg (by simp [hp])).trans (if_neg ha)

/-- What an uncorrectable block leaves before its content is lost: the count, the address and the fault. -/
def peatBad (a : Nat) (s : State) : State :=
  raiseAt 151 1 (BitVec.ofNat 32 a) (setSqc aMemc [13]
    (modPeat (fun m => { m with uncorr := satAdd m.uncorr 1, eccAddr := BitVec.ofNat 32 a, recBad := false }) s))

theorem peatScrub_trees {a : Nat} (ha : peatRegion a = .trees) : peatScrub (.uncorrectable a) s = peatBad a s := by
  unfold peatScrub
  refine (if_neg (by simp [hp])).trans ?_
  dsimp only
  rw [ha]
  rfl

theorem peatScrub_recovery {a : Nat} (ha : peatRegion a = .recovery) :
    peatScrub (.uncorrectable a) s = modPeat (fun m => { m with recBad := true }) (peatBad a s) := by
  unfold peatScrub
  refine (if_neg (by simp [hp])).trans ?_
  dsimp only
  rw [ha]
  rfl

end

theorem ctrlCorrected_few {b column : Nat}
    (h : logCount (72 * b + column) (logSecond s.dev.monoNs (72 * b + column, s.dev.monoNs) s.ctrl.columns) < 8) :
    ctrlCorrected b column s = raise (srcCbank b) 4 (setSqc aSram [0]
      { s with ctrl := { s.ctrl with corr := satAdd s.ctrl.corr 1,
                                     columns := logSecond s.dev.monoNs (72 * b + column, s.dev.monoNs) s.ctrl.columns } }) :=
  if_neg (by simp [Nat.not_le.mpr h])

theorem ctrlCorrected_eighth {b column : Nat}
    (h : 8 ≤ logCount (72 * b + column) (logSecond s.dev.monoNs (72 * b + column, s.dev.monoNs) s.ctrl.columns))
    (hi : s.unitIsolated (.control b) = false) (ht : s.testing (.control b) = false) :
    ctrlCorrected b column s = askTest { unit := .control b, who := .column } (raise (srcCbank b) 4 (setSqc aSram [0]
      { s with ctrl := { s.ctrl with corr := satAdd s.ctrl.corr 1,
                                     columns := logSecond s.dev.monoNs (72 * b + column, s.dev.monoNs) s.ctrl.columns } })) :=
  if_pos (by simp [h, hi, ht])

theorem ctrlUncorrectable_few {a b : Nat} {c : CtrlContent}
    (h : logCount b (logSecond s.dev.monoNs (b, s.dev.monoNs) s.ctrl.words) < 16) :
    ctrlUncorrectable b a c s = loseContent b c (setSqc aSram [1]
      { s with ctrl := { s.ctrl with uncorr := satAdd s.ctrl.uncorr 1, addr := a,
                                     words := logSecond s.dev.monoNs (b, s.dev.monoNs) s.ctrl.words } }) :=
  if_neg (by simp [Nat.not_le.mpr h])

theorem ctrlUncorrectable_sixteenth {a b : Nat} {c : CtrlContent}
    (h : 16 ≤ logCount b (logSecond s.dev.monoNs (b, s.dev.monoNs) s.ctrl.words)) (hi : s.unitIsolated (.control b) = false) :
    ctrlUncorrectable b a c s = raise (srcCbank b) 1 (loseContent b c (setSqc aSram [1]
      { s with ctrl := { s.ctrl with uncorr := satAdd s.ctrl.uncorr 1, addr := a,
                                     words := logSecond s.dev.monoNs (b, s.dev.monoNs) s.ctrl.words } })) :=
  if_pos (by simp [h, hi])

end
end Sys2Proof.Machine

namespace Sys2Proof
open Machine

/-- Settles O35: what each command of the placement and of the memories does under its guard. -/
theorem placementAndMemories : Obligations.PlacementAndMemories := by
  intro s hr
  refine ⟨fun why => execMboter hr rfl, ?_, ?_, ?_, ?_, ?_, ?_, ?_, ?_⟩
  · intro p g hp hg
    exact ⟨execGroup hp hg hr rfl, fun m hm => execGroup hp hg hr (migDrained_ends hm), execGroup hp hg hr rfl⟩
  · exact fun te ha => execC (.inl hr) (noAck_raises ha)
  · intro q hq hs hp hh hm r m
    exact (congrArg Host.Outcome.next (if_pos hq)).trans (execChip hr (refillHead_good hs hp hh hm))
  · exact fun b hb hst hh => execChip hr (bankIdleOff_empty hb hst hh)
  · exact fun hk hu => execChip hr (shrinkSet_shrinks hk hu)
  · intro hp
    exact ⟨execChip hr (peatScrub_passDone hp), fun a ha => execChip hr (peatScrub_corrected hp ha),
      fun a ha => execChip hr (peatScrub_trees hp ha), fun a ha => execChip hr (peatScrub_recovery hp ha)⟩
  · intro a column b log s1
    exact ⟨fun h => execChip hr (ctrlCorrected_few h), fun h hi ht => execChip hr (ctrlCorrected_eighth h hi ht)⟩
  · intro a b log s1 s2
    exact ⟨fun h => execChip hr (ctrlUncorrectable_few h), fun h hi => execChip hr (ctrlUncorrectable_sixteenth h hi)⟩

end Sys2Proof
end

section
/-!
The Ledger's steps, evacuations, tests and calibrations (R148 to R171).
-/
namespace Sys2Proof.Machine

section
variable {s : State}

/-! ### The Ledger (R153 to R162) -/

theorem measureLedger_pHeat (m : LedgerMeas) (s : State) :
    (measureLedger m s).ledger.pHeat =
      if 1150 < (measureLedger m s).ledger.tHot ∧
          m.dMw - (measureLedger m s).ledger.hMw < 5 * ((measureLedger m s).ledger.tHot - 1150) then
        5 * ((measureLedger m s).ledger.tHot - 1150)
      else m.dMw - (measureLedger m s).ledger.hMw := rfl

/-- Up to 115.0 °C the heat pressure is the power above what the enclosure takes away. -/
theorem measureLedger_pHeat_cool {m : LedgerMeas} (h : (measureLedger m s).ledger.tHot ≤ 1150) :
    (measureLedger m s).ledger.pHeat = m.dMw - (measureLedger m s).ledger.hMw := by
  rw [measureLedger_pHeat, if_neg (by omega)]

/-- Above it, the heat pressure is at least 5 mW for each 0.1 °C. -/
theorem measureLedger_pHeat_hot {m : LedgerMeas} (h : 1150 < (measureLedger m s).ledger.tHot) :
    (measureLedger m s).ledger.pHeat =
      max (m.dMw - (measureLedger m s).ledger.hMw) (5 * ((measureLedger m s).ledger.tHot - 1150)) := by
  rw [measureLedger_pHeat]
  split <;> omega

theorem relax_none (h : -300 < s.ledger.pHeat ∨ s.ledger.heat = 0) : relax s = s := if_pos h

theorem relax_undoes (hp : s.ledger.pHeat ≤ -300) (h0 : s.ledger.heat ≠ 0) (h3 : s.ledger.heat ≠ 3) :
    relax s = ledgerStep s.ledger (undoStep s.ledger.heat (modLedger (fun l => { l with heat := l.heat - 1 }) s)) := by
  unfold relax
  dsimp only
  rw [if_neg (by omega), if_neg h3]

theorem shedDue_runs (h : s.ledger.tShedRun = true) : shedDue s = freshStep s.ledger (shedNow s) := if_pos h

theorem limitShed_sheds {p : Nat} (hl : s.ledger.feedLimit = true)
    (hp : (s.shedOrder.find? fun p => decide (0 < (s.port p).weight)) = some p) :
    limitShed s = freshStep s.ledger (shedPort p
      (modLedger (fun l => { l with feedStep := if l.feedStep < 3 then 3 else l.feedStep, tShedRun := false }) s)) := by
  simp only [limitShed, hl, hp, Bool.not_true, Bool.false_eq_true, if_false]

theorem restoreStart_starts (hm : s.ledger.feedMoved = true) (hp : s.restoredPressure ≤ 0) :
    restoreStart s = modLedger (fun l => { l with feedMoved := false, restoring := true }) s := by
  simp [restoreStart, hm, hp]

section
variable (hl : s.ledger.restoring = true) (hr : s.dev.phase = .ready)
include hl hr

theorem restoreOne_none (hp : (s.shedOrder.reverse.find? fun p => (s.port p).shed || (s.port p).reneg) = none) :
    restoreOne s = modLedger (fun l => { l with restoring := false }) s := by
  simp only [restoreOne, State.ready, hl, hr, hp, beq_self_eq_true, Bool.not_true, Bool.or_self, Bool.false_eq_true, if_false]

variable {p : Nat} (hp : (s.shedOrder.reverse.find? fun p => (s.port p).shed || (s.port p).reneg) = some p)
  (hs : (s.port p).shed = true)
include hp hs

theorem restoreOne_disabled (hb : (s.port p).bus = .disabled) :
    restoreOne s = pathEvent p 0x0321 0 0 (toUnattached p
      (modPort p (fun r => { r with shed := false, reneg := false, renegRun := false, prior := 0 }) s)) := by
  simp only [restoreOne, State.ready, hl, hr, hp, hs, hb, beq_self_eq_true, bne_self_eq_false, Bool.not_true, Bool.or_self, Bool.and_false,
    Bool.false_eq_true, if_false, if_true]

theorem restoreOne_other (hb : (s.port p).bus ≠ .disabled) :
    restoreOne s = modPort p (fun r => { r with shed := false, reneg := false, renegRun := false, prior := 0 }) s := by
  unfold restoreOne
  rw [if_neg (by simp [State.ready, hl, hr]), hp]
  exact if_pos (by simp [hs, hb])

end

/-! ### Evacuations (R166 to R168) -/

theorem evacRetry_starts {t : Test} (ht : s.test = some t) (h0 : t.stage = 0) (hc : s.canEvacuate t = true) :
    evacRetry s = startEvac t s := by
  simp [evacRetry, ht, h0, hc]

theorem evacTimeout_front {t : Test} {h : HostId} {tag : Half} (ht : s.test = some t) (h0 : t.stage = 0) (hw : t.who = .run h tag) :
    evacTimeout s = finishOp h tag stTimeout [] (endTest s) := by
  simp [evacTimeout, ht, h0, hw]

/-- A request of TEST_RUN that waits alone behind one that has started, or behind an update, ends (R168). -/
theorem evacTimeout_behind {t w : Test} {h : HostId} {tag : Half} (ht : s.test = some t) (hq : s.testQ = [w])
    (hstands : t.stage ≠ 0 ∨ ∃ u, t.who = .update u) (hw : w.who = .run h tag) :
    evacTimeout s = finishOp h tag stTimeout [] { s with testQ := [] } := by
  rcases hstands with h0 | ⟨u, hu⟩
  · simp [evacTimeout, ht, hq, hw, h0]
  · simp [evacTimeout, ht, hq, hw, hu]

theorem evacCopied_control {t : Test} {b : Nat} (ht : s.test = some t) (h1 : t.stage = 1) (hu : t.unit = .control b) :
    evacCopied s = beginTest t s := by
  simp [evacCopied, ht, h1, hu]

theorem testEnds_pass {t : Test} (ht : s.test = some t) (h2 : t.stage = 2) (us : Nat) : testEnds (.pass us) s = testPasses t us s := by
  simp [testEnds, ht, h2]

theorem testEnds_fail {t : Test} (ht : s.test = some t) (h2 : t.stage = 2) (us : Nat) :
    testEnds (.fail us) s = testFails t us (match t.unit with | .engine _ => 2 | _ => 1) s := by
  unfold testEnds
  rw [ht]
  exact if_pos h2

/-! ### The rotation (R169 to R171) -/

theorem length_rotUnits (s : State) : s.rotUnits.length = s.nEngines + (16 + (8 + s.nPorts)) := by
  simp [State.rotUnits, upTo]

theorem rotUnits_payload (s : State) {b : Nat} (hb : b < 16) : s.rotUnits[s.nEngines + b]? = some (some (.payload b), 0) := by
  simp [State.rotUnits, upTo, List.getElem?_append, hb, show ¬ s.nEngines + b < s.nEngines by omega]

theorem rotUnits_port (s : State) {p : Nat} (hp : p < s.nPorts) : s.rotUnits[s.nEngines + (16 + (8 + p))]? = some (none, p) := by
  simp [State.rotUnits, upTo, hp]

/-- The rotation after a turn that came to its unit. -/
def rotated (s : State) : State :=
  modStok (fun k => { k with rotNext := (k.rotNext + 1) % (s.nEngines + (16 + (8 + s.nPorts))) }) s

theorem rotation_lost {u : TUnit} (hl : s.lostBank = some u) (port : Nat) :
    rotation (some u) port s = askTest { unit := u, who := .rotation } s := by
  simp [rotation, hl, foldS]

theorem rotation_payload {b : Nat} (hb : b < 16) (hl : s.lostBank = none) (hn : s.stok.rotNext = s.nEngines + b)
    (hi : s.unitIsolated (.payload b) = false) (ht : s.testing (.payload b) = false) (port : Nat) :
    rotation (some (.payload b)) port s = askTest { unit := .payload b, who := .rotation } (rotated s) := by
  unfold rotation
  rw [if_neg (by simp [hl]), hn, rotUnits_payload s hb, length_rotUnits]
  simp [hi, ht, rotated]

theorem rotation_port {p : Nat} (hp : s.hasPort p = true) (hl : s.lostBank = none) (hn : s.stok.rotNext = s.nEngines + (16 + (8 + p)))
    (hc : s.cal = none) :
    rotation none p s = modPort p (fun r => { r with calibrating := true }) { rotated s with cal := some { ports := [p], who := none } } := by
  have hlt : p < s.nPorts := by simpa [State.hasPort] using hp
  unfold rotation
  rw [if_neg (by simp [hl]), hn, rotUnits_port s hlt, length_rotUnits]
  simp [rotateCal, calStart, calMark, rotated, hc]

end
end Sys2Proof.Machine

namespace Sys2Proof
open Machine

/-- Settles O36: the Ledger's figures and its single steps, then evacuations, the rotation and the ends of tests. -/
theorem ledgerStepsAndUnitTests : Obligations.LedgerStepsAndUnitTests := by
  constructor
  · intro s hr l
    refine ⟨?_, execC (.inl hr) rfl, ?_, ?_, ?_, ?_, ?_, ?_, ?_, ?_⟩
    · exact fun m => ⟨execC (.inl hr) rfl, rfl, rfl, rfl, rfl, measureLedger_pHeat_cool, measureLedger_pHeat_hot⟩
    · exact fun h => execC (.inl hr) (relax_none h)
    · exact fun hp h0 h3 => execC (.inl hr) (relax_undoes hp h0 h3)
    · exact fun h => execMboter hr (shedDue_runs h)
    · exact fun p hl hp => execC (.inl hr) (limitShed_sheds hl hp)
    · exact fun hm hp => execC (.inl hr) (restoreStart_starts hm hp)
    · exact fun p hl hp hs hb => execC (.inl hr) (restoreOne_disabled hl hr hp hs hb)
    · exact fun p hl hp hs hb => execC (.inl hr) (restoreOne_other hl hr hp hs hb)
    · exact fun hl hp => execC (.inl hr) (restoreOne_none hl hr hp)
  · intro s hr
    refine ⟨?_, ?_, ?_, ⟨?_, ?_, ?_⟩, ?_, ?_, fun cc isns => execC (.inl hr) rfl⟩
    · exact fun t ht h0 hc => execMboter hr (evacRetry_starts ht h0 hc)
    · exact fun t h tag ht h0 hw => execMboter hr (evacTimeout_front ht h0 hw)
    · exact fun t w h tag ht hq hstands hw => execMboter hr (evacTimeout_behind ht hq hstands hw)
    · exact fun u port hl => execMboter hr (rotation_lost hl port)
    · exact fun b hb hl hn hi ht port => execMboter hr (rotation_payload hb hl hn hi ht port)
    · exact fun p hp hl hn hc => execMboter hr (rotation_port hp hl hn hc)
    · exact fun t b ht h1 hu => execC (.inl hr) (evacCopied_control ht h1 hu)
    · exact fun t us ht h2 => ⟨execC (.inl hr) (testEnds_pass ht h2 us), execC (.inl hr) (testEnds_fail ht h2 us)⟩

end Sys2Proof
end

section
/-!
The service function's instances and the host timers (R227 to R231, R243 to R250, R261).
-/
namespace Sys2Proof.Machine

section
variable {s : State} {i : Nat}

theorem modInst_congr {f g : Instance → Instance} (h : f (s.inst i) = g (s.inst i)) : modInst i f s = modInst i g s := by
  unfold modInst
  rw [h]

section
variable (ha : (s.inst i).attached = true)
include ha

/-- A step on an attached service function. -/
theorem execInst {f : State → State} {b : State} (h : f s = b) : (Host.Outcome.next (atInst i f s) : Res) = .next (finish b) := by
  have hon : atInst i f s = finish (f s) := if_pos ha
  rw [hon, h]

/-! ### Control requests (R244, R245) -/

theorem svcSetup_taken {len : Nat} (hl : 16 ≤ len ∧ len ≤ 256) : svcSetup i len s = modInst i (fun r => { r with setupLen := some len }) s := by
  simp [svcSetup, ha, hl]

theorem svcSetup_stalls {len : Nat} (hl : len < 16 ∨ 256 < len) :
    svcSetup i len s = emit (.svcStall i) (modInst i (fun r => { r with setupLen := none }) s) := by
  simp [svcSetup, ha, show ¬ (16 ≤ len ∧ len ≤ 256) by omega]

theorem svcCommit_naks {len : Nat} {bytes : List Byte} (hl : (s.inst i).setupLen = some len)
    (hr : s.replySlot (s.senderOf (parsePacket (.svc i) bytes).2) = false) : svcCommit i bytes s = emit (.svcNak i) s := by
  unfold svcCommit
  dsimp only
  rw [if_neg (by simp [ha, hl]), if_pos (by simp [hr])]

theorem svcCommit_enters {len : Nat} {bytes : List Byte} (hl : (s.inst i).setupLen = some len) (hh : s.hears (.svc i) = true)
    (hc : s.cmdRoom (cmdQueue (s.senderOf (parsePacket (.svc i) bytes).2) ((parsePacket (.svc i) bytes).2.flags.getLsbD 2)) = true)
    (hr : s.replySlot (s.senderOf (parsePacket (.svc i) bytes).2) = true)
    (hb : (s.boundTo (.svc i)).isSome = true ∨ s.svcReplies i < 16) :
    svcCommit i bytes s = enter (parsePacket (.svc i) bytes).1 (cmdOf (parsePacket (.svc i) bytes).1)
      (some (cmdQueue (s.senderOf (parsePacket (.svc i) bytes).2) ((parsePacket (.svc i) bytes).2.flags.getLsbD 2)))
      (parsePacket (.svc i) bytes).2 (emit (.svcAck i) (modInst i (fun r => { r with setupLen := none }) s)) := by
  have hroom : ((s.boundTo (.svc i)).isNone && decide (16 ≤ s.svcReplies i)) = false := by
    rcases hb with hb | hb
    · simp [Option.isNone_eq_false_iff.mpr hb]
    · simp [show ¬ 16 ≤ s.svcReplies i by omega]
  unfold svcCommit
  dsimp only
  rw [if_neg (by simp [ha, hl]), if_neg (by simpa [hr, hroom, hh] using hc)]

/-- Every vendor request but COMMAND stalls (R244). -/
theorem svcRequestOf_vendor {su : List Byte} (h4 : 4 ≤ byteAt su 0 % 128)
    (hc : ¬ (byteAt su 0 = 0x41 ∧ byteAt su 1 = 1 ∧ field su 2 2 = 0 ∧ field su 4 2 = 0)) :
    svcRequestOf i su s = emit (.svcStall i) s := by
  unfold svcRequestOf
  dsimp only
  rw [if_neg (by simp [ha]), if_neg hc, if_pos h4]

theorem svcRequestOf_setAddress {su : List Byte} (h0 : byteAt su 0 = 0) (h5 : byteAt su 1 = 5) (hv : field su 2 2 < 128) :
    svcRequestOf i su s = emit (.svcAck i) (modInst i (fun r => { r with addr := field su 2 2 }) s) := by
  unfold svcRequestOf
  dsimp only
  rw [if_neg (by simp [ha]), if_neg (by omega), if_neg (by omega), h5]
  exact if_pos ⟨h0, hv⟩

theorem svcReset_discards : svcReset i s = modInst i (fun r =>
    { r with addr := 0, config := 0, suspended := false, rwEnable := false, setupLen := none, sending := none, sent := 0, halts := [] }) s :=
  modInst_congr (if_pos ha)

theorem svcSuspend_remembers : svcSuspend i s = modInst i (fun r => { r with suspended := true }) s := modInst_congr (if_pos ha)

/-! ### The push and item streams and the pending report (R246 to R248) -/

/-- A record of a configured service function reaches the queue that it names, where its host may push and the queue takes it (R188). -/
theorem svcPush_bound {rec : List Byte} {h : HostId} (hc : (s.inst i).config ≠ 0) (hh : (s.inst i).halts.contains 0x01 = false)
    (hb : s.boundTo (.svc i) = some h) (hq : byteAt rec 0 < 64) :
    svcPush i rec s =
      if !s.pushesQueue h (byteAt rec 0) then setSqc (aQueStatus (byteAt rec 0)) [8] s
      else if s.pushRefused (byteAt rec 0) 1 (field rec 2 2) || ((rec.drop 4).take (field rec 2 2)).length != field rec 2 2 then
        setSqc (aQueStatus (byteAt rec 0)) [9] s
      else commitPush h (byteAt rec 0) ((rec.drop 4).take (field rec 2 2)) s := by
  unfold svcPush
  dsimp only
  rw [if_neg (by simp [ha, hc]), if_neg (Bool.eq_false_iff.mp hh), hb]
  exact if_neg (by omega)

theorem svcPoll_running (hc : (s.inst i).config ≠ 0) (hs : (s.inst i).suspended = false) (hh : (s.inst i).halts.contains 0x83 = false) :
    svcPoll i s = if s.svcReport i = (s.inst i).report then emit (.pendingReport i none) s
      else emit (.pendingReport i (some (s.svcReport i))) (modInst i (fun r => { r with report := s.svcReport i }) s) := by
  unfold svcPoll
  dsimp only
  rw [if_neg (by simp [ha, hc, hs]), if_neg (Bool.eq_false_iff.mp hh)]

end

theorem svcAcked_none (hs : (s.inst i).sending = none) : svcAcked i s = s := by
  simp only [svcAcked, hs]

theorem svcAcked_reply {it : Item} (hs : (s.inst i).sending = some (64, it)) :
    svcAcked i s = svcFeed i (modInst i (fun r => { r with replies := r.replies.drop 1 }) (modInst i (fun r => { r with sending := none }) s)) := by
  simp only [svcAcked, hs, if_true]

theorem svcDetach_leaves (ha : s.svc.pd.ask = none) (hp : s.dev.power ≠ .service) :
    svcDetach s = modSvc (fun v => { pd := { ufp := true, caps := v.pd.caps } }) (endInstance 0 s) := by
  simp [svcDetach, ha, hp]

end
end Sys2Proof.Machine

namespace Sys2Proof
open Machine

/-- Settles O37: each event of an attached service function by what it carries, and the timers of a host. -/
theorem serviceFunctionAndHostTimers : Obligations.ServiceFunctionAndHostTimers := by
  constructor
  · intro s i ha x
    refine ⟨?_, ?_, ?_, ?_, ?_, ?_, execInst ha (svcReset_discards ha), ?_, ?_, ?_, ?_, execInst ha (svcSuspend_remembers ha),
      execInst ha rfl⟩
    · exact fun len h16 h256 => execInst ha (svcSetup_taken ha ⟨h16, h256⟩)
    · exact fun len hl => execInst ha (svcSetup_stalls ha hl)
    · exact fun bytes len hl hr => execInst ha (svcCommit_naks ha hl hr)
    · exact fun bytes len hl hh hc hr hb => execInst ha (svcCommit_enters ha hl hh hc hr hb)
    · exact fun su h4 hc => execInst ha (svcRequestOf_vendor ha h4 hc)
    · exact fun su h0 h5 hv => execInst ha (svcRequestOf_setAddress ha h0 h5 hv)
    · intro rec h hc hh hb hq q len
      have hpush := svcPush_bound ha hc hh hb hq
      refine ⟨fun hp => execInst ha ?_, fun hp hr => execInst ha ?_, fun hp hr hlen => execInst ha ?_⟩
      · rw [hpush, if_pos (by simpa using hp)]
      · rw [hpush, if_neg (by simpa using hp), if_pos (Bool.or_eq_true_iff.mpr (.inl hr))]
      · have hwhole : ¬ (s.pushRefused q 1 len || ((rec.drop 4).take len).length != len) = true := by simp [hr, hlen]
        rw [hpush, if_neg (by simpa using hp), if_neg hwhole]
    · exact fun hs => execInst ha (svcAcked_none hs)
    · exact fun it hs => execInst ha (svcAcked_reply hs)
    · intro hc hs hh
      have hpoll := svcPoll_running ha hc hs hh
      exact ⟨fun h => execInst ha (hpoll.trans (if_pos h)), fun h => execInst ha (hpoll.trans (if_neg h))⟩
  · intro s h
    refine ⟨fun hw => nf (if_neg (by simpa using hw)), fun hw => nf (if_pos (by simp [hw])), fun ht => nf (if_pos ht),
      fun ht => nf (if_neg (by simp [ht])), ?_⟩
    intro hv ha hp
    refine congrArg Host.Outcome.next ((if_pos hv).trans ?_)
    rw [svcDetach_leaves ha hp]

end Sys2Proof
end

section
/-!
Links of a trunk and the frames received on them (R240, R242, R301 to R337).
-/
namespace Sys2Proof.Machine

section
variable {s : State} {n : Nat}

/-- A step on a trunk that is present and not held in reset. -/
theorem execTrunk (hr : s.dev.phase = .ready) (hn : s.hasTrunk n = true) (ho : (s.trunk n).st ≠ .off) {f : State → State} {b : State}
    (h : f s = b) : (Host.Outcome.next (atTrunk n f s) : Res) = .next (finish b) := by
  have hon : atTrunk n f s = atChip f s := if_pos (by simp [hn, ho])
  rw [hon]
  exact execChip hr h

theorem linked_not_off (h : (s.trunk n).st.linked = true) : (s.trunk n).st ≠ .off := by
  intro ho
  simp [ho, Nb.linked] at h

@[simp] theorem hasTrunk_modTrunk (m : Nat) (f : Trunk → Trunk) (s : State) (k : Nat) : (modTrunk m f s).hasTrunk k = s.hasTrunk k := rfl

/-! ### What the receive path leaves alone -/

/-- `t` differs from `s` in the trunks and the wire only. -/
def OnTrunks (s t : State) : Prop := ∃ ts w, t = { s with trunks := ts, wire := w }

theorem OnTrunks.refl (s : State) : OnTrunks s s := ⟨s.trunks, s.wire, rfl⟩

theorem OnTrunks.trans {a b c : State} (hab : OnTrunks a b) (hbc : OnTrunks b c) : OnTrunks a c := by
  obtain ⟨ts, w, rfl⟩ := hab
  obtain ⟨us, v, rfl⟩ := hbc
  exact ⟨us, v, rfl⟩

theorem onTrunks_modTrunk (n : Nat) (f : Trunk → Trunk) (s : State) : OnTrunks s (modTrunk n f s) := ⟨_, s.wire, rfl⟩

theorem onTrunks_beginFrame (n : Nat) (e : Egress) (s : State) : OnTrunks s (beginFrame n e s) := ⟨_, _, rfl⟩

theorem onTrunks_startEgress (n : Nat) (s : State) : OnTrunks s (startEgress n s) := by
  unfold startEgress
  split
  · exact (onTrunks_modTrunk n _ s).trans (onTrunks_beginFrame _ _ _)
  · exact .refl s

theorem onTrunks_sendKa (n : Nat) (s : State) : OnTrunks s (sendKa n s) :=
  ((onTrunks_modTrunk n _ s).trans (onTrunks_modTrunk n _ _)).trans (onTrunks_startEgress n _)

theorem onTrunks_freeCredit (n cls units : Nat) (s : State) : OnTrunks s (freeCredit n cls units s) := by
  have hset (r : Trunk) : OnTrunks s (setTrunk n r s) := ⟨_, s.wire, rfl⟩
  unfold freeCredit
  dsimp only
  split
  · exact (hset _).trans (onTrunks_sendKa n _)
  · exact hset _

theorem onTrunks_takeFrame (n : Nat) (f : FrameHdr) (len : Nat) (s : State) : OnTrunks s (takeFrame n f len s) :=
  (onTrunks_modTrunk n _ s).trans (onTrunks_freeCredit n _ _ _)

theorem pairDest_takeFrame (n : Nat) (f : FrameHdr) (len : Nat) (s : State) (r : Queue) :
    (takeFrame n f len s).pairDest r = s.pairDest r := by
  obtain ⟨ts, w, h⟩ := onTrunks_takeFrame n f len s
  rw [h]
  rfl

theorem queue_takeFrame (n : Nat) (f : FrameHdr) (len : Nat) (s : State) (q : Nat) : (takeFrame n f len s).queue q = s.queue q := by
  obtain ⟨ts, w, h⟩ := onTrunks_takeFrame n f len s
  rw [h]
  rfl

theorem host_takeFrame (n : Nat) (f : FrameHdr) (len : Nat) (s : State) (h : HostId) : (takeFrame n f len s).host h = s.host h := by
  obtain ⟨ts, w, he⟩ := onTrunks_takeFrame n f len s
  rw [he]
  rfl

theorem net_takeFrame (n : Nat) (f : FrameHdr) (len : Nat) (s : State) : (takeFrame n f len s).net = s.net := by
  obtain ⟨ts, w, h⟩ := onTrunks_takeFrame n f len s
  rw [h]

theorem pairQueue_takeFrame (n : Nat) (f : FrameHdr) (len : Nat) (s : State) (d : Half) (q : Nat) :
    (takeFrame n f len s).pairQueue d q = s.pairQueue d q := by
  obtain ⟨ts, w, h⟩ := onTrunks_takeFrame n f len s
  rw [h]
  rfl

/-! ### Links (R300, R301, R313 to R322) -/

/-- A received frame counts before it is looked at. -/
def counted (n : Nat) (s : State) : State := modTrunk n (fun t => { t with rx := t.rx + 1 }) s

section
variable (hn : s.hasTrunk n = true)
include hn

theorem trunkPhyLinkUp_down (hd : (s.trunk n).st = .down) (hb : (s.trunk n).phyBad = false) :
    trunkPhyLinkUp n s =
      withTopology (fun s => setNb n .probing (modTrunk n (fun t => { t with run := 0, missed := 0 }) s)) s := by
  simp [trunkPhyLinkUp, hn, hd, hb]

theorem trunkPhyLinkUp_other (h : (s.trunk n).st ≠ .down ∨ (s.trunk n).phyBad = true) : trunkPhyLinkUp n s = s :=
  if_neg (by rcases h with h | h <;> simp [hn, h])

theorem trunkPhyLinkDown_on (ho : (s.trunk n).st ≠ .off) (why : PhyDown) :
    trunkPhyLinkDown n why s =
      (let lost := if 2 ≤ (s.trunk n).st.code then withTopology (loseLink n 2 .down) s else s
       match why with
       | .noLink => lost
       | .mode => trkPhy n lost
       | .noAnswer => phyFails n lost) := by
  unfold trunkPhyLinkDown
  exact if_neg (by simp [hn, ho])

theorem tphyrstExpires_on (ho : (s.trunk n).st ≠ .off) (answers : Bool) :
    tphyrstExpires n answers s =
      (let first := emit (.mdio n 1 none) (emit (.mdio n 0 (some 0x9200#16)) s)
       if answers then modTrunk n (fun t => { t with phyBad := false }) first
       else phyFails n (emit (.mdio n 1 none) (emit (.mdio n 1 none) first))) := by
  unfold tphyrstExpires
  exact if_pos (by simp [hn, ho])

theorem trunkPhyLinkTimeout_down (hd : (s.trunk n).st = .down) : trunkPhyLinkTimeout n s = phyFails n s := by
  simp [trunkPhyLinkTimeout, hn, hd]

theorem keepaliveReceived_probing (hp : (s.trunk n).st = .probing) (ka : KeepAlive) :
    keepaliveReceived n ka s =
      if (s.trunk n).run + 1 < 4 then modTrunk n (fun t => { t with run := t.run + 1, heard := true }) (counted n s)
      else withTopology (establish n ka) (counted n s) := by
  simp [keepaliveReceived, counted, hn, hp]

/-- A KEEPALIVE of the neighbour that the trunk knows, under the ID that it knows. -/
theorem keepaliveReceived_up (hu : (s.trunk n).st = .up) {ka : KeepAlive} (huid : (s.trunk n).nbUid = ka.uid)
    (hid : (s.trunk n).nbId = ka.id) :
    keepaliveReceived n ka s = returnCredit n ka (modTrunk n (fun t =>
      { t with missed := 0, heard := true, nbRing := ka.ring, nbBlocked := ka.blocked, nbAccepts := ka.accepts }) (counted n s)) := by
  simp [keepaliveReceived, counted, hn, hu, huid, hid]

theorem keepaliveTimeout_linked (hl : (s.trunk n).st.linked = true) :
    keepaliveTimeout n s = withTopology (fun s => loseLink n 1 .lost (raise (116 + n) 2 s)) s := by
  simp [keepaliveTimeout, hn, hl]

theorem tlinkHoldExpires_lost (hl : (s.trunk n).st = .lost) : tlinkHoldExpires n s = modTrunk n (fun t => { t with holdOver := true }) s := by
  simp [tlinkHoldExpires, hn, hl]

theorem tsettleExpires_picks {e : Edge} (hb : (s.trunk n).st = .blocked) (hlow : s.dev.id.toNat < (s.trunk n).nbId.toNat)
    (hpick : pickKey true ((edges s.allTopo 3).filter fun e => (hopsTo (edges s.allTopo 4) e.lo e.hi).isNone) = some e)
    (he : e.lo = s.dev.id) (hport : e.port = n) : tsettleExpires n s = withTopology (unblock n) s := by
  unfold tsettleExpires
  dsimp only
  rw [if_pos (by simp [hn, hb, hlow]), hpick]
  exact if_pos (by simp [he, hport])

/-! ### TOPOLOGY records (R312, R316) -/

/-- The device's own record that comes back ends here. -/
theorem topologyReceived_own (hl : (s.trunk n).st.linked = true) {rec : Topo} (hu : rec.uid = s.part.uid) (hops : Nat) :
    topologyReceived n hops rec s = counted n s := by
  unfold topologyReceived
  exact (if_neg (by simp [hn, hl])).trans (if_pos (by simp [hu]))

/-- A record of a device of which none was held goes on with one hop more and is stored. -/
theorem topologyReceived_new (hl : (s.trunk n).st.linked = true) {rec : Topo} (hu : rec.uid ≠ s.part.uid) (hw : rec.withdrawn = false)
    {hops : Nat} (hh : hops < 255) (hnone : s.net.recs.find? (fun x => x.id == rec.id && x.uid == rec.uid) = none) :
    topologyReceived n hops rec s = topologyChanged (withTopology (fun s =>
      storeRec rec (checkConflict rec (floodRec (some n) (hops + 1) rec s))) (counted n s)) := by
  have hnewer : (counted n s).newer rec = true := by
    show (match s.net.recs.find? (fun x => x.id == rec.id && x.uid == rec.uid) with
      | some x => decide (1 ≤ (rec.seqn - x.seqn).toNat) && decide ((rec.seqn - x.seqn).toNat ≤ 32767)
      | none => !rec.withdrawn) = true
    rw [hnone]
    simp [hw]
  have hsame : (s.net.recs.any fun x =>
      x.id == rec.id && x.uid == rec.uid && x.links == rec.links && x.kindling == rec.kindling && !rec.withdrawn) = false := by
    simp only [List.any_eq_false]
    intro x hx
    have hother := List.find?_eq_none.mp hnone x hx
    simp only [Bool.not_eq_true] at hother
    simp [hother]
  unfold topologyReceived
  refine (if_neg (by simp [hn, hl])).trans ((if_neg ?_).trans ?_)
  · simpa [hu, counted] using hnewer
  · exact (if_neg (Bool.eq_false_iff.mp hsame)).trans (by simp [hh, counted])

/-! ### Discarded frames (R304, R307) -/

theorem receivedFrameDiscarded_on (why : Discard) :
    receivedFrameDiscarded n why s =
      match why with
      | .headerCrc => frameError n 1 (raise (116 + n) 1 (modTrunk n (fun t => { t with hdrErrs := t.hdrErrs + 1 }) s))
      | .fcs x =>
        let s1 := frameError n 2 (modTrunk n (fun t => { t with fcsErrs := t.fcsErrs + 1, discards := t.discards + 1 }) s)
        (match x with
         | some x => if (s.trunk n).st.linked && !s.forMe x.hdr && s.macOk x.hdr then passBad n x s1 else s1
         | none => s1)
      | _ => modTrunk n (fun t => { t with discards := t.discards + 1 }) s := by
  unfold receivedFrameDiscarded
  exact if_neg (by simp [hn])

end

theorem passBad_started {x : Passing} {m : Nat} (hroute : s.route x.hdr.dst x.hdr.cls = some m) (hh : x.hdr.hops < 255)
    (hc : s.cutsThrough m x.hdr.cls = true) :
    passBad n x s = beginFrame m { cls := x.hdr.cls, units := frameUnits (16 + x.payload.length),
                                   body := onward x.type x.credit x.hdr x.payload, back := some n, bad := true } s := by
  simp [passBad, hroute, hh, hc]

/-! ### Frames on a link in BLOCKED or UP -/

theorem atMac_other (hn : s.hasTrunk n = true) {f : FrameHdr} (hm : s.macOk f = false) (g : State → State) :
    atMac n f g s = modTrunk n (fun t => { t with discards := t.discards + 1 }) s := by
  have hdiscard : atMac n f g s = receivedFrameDiscarded n .dest s := if_pos (by simp [hn, hm])
  rw [hdiscard, receivedFrameDiscarded_on hn]

theorem atMac_own {f : FrameHdr} (hm : s.macOk f = true) (g : State → State) : atMac n f g s = g s := if_neg (by simp [hm])

section
variable (hn : s.hasTrunk n = true) (hl : (s.trunk n).st.linked = true)
include hn hl

section
variable {f : FrameHdr} (hf : s.forMe f = false)
include hf

theorem commandFrame_forward (bytes : List Byte) : commandFrame n f bytes s = forwardFrame n 1 false f bytes s := by
  simp [commandFrame, hn, hl, hf]

theorem replyFrameReceived_forward (bytes : List Byte) : replyFrameReceived n f bytes s = forwardFrame n 2 false f bytes s := by
  simp [replyFrameReceived, hn, hl, hf]

theorem eventFrameReceived_forward (item : Item) :
    eventFrameReceived n f item s = forwardFrame n 3 false f (item.header ++ item.payload) s := by
  simp [eventFrameReceived, hn, hl, hf]

theorem deliveryFrameReceived_forward (item : Item) :
    deliveryFrameReceived n f item s = forwardFrame n 4 false f (item.header ++ item.payload) s := by
  simp [deliveryFrameReceived, hn, hl, hf]

theorem creditRecordReceived_forward (adm : Half) (w : Nat) (r : Bool) :
    creditRecordReceived n f adm w r s = forwardFrame n 4 true f (creditBody adm w r) s := by
  simp [creditRecordReceived, hn, hl, hf]

end

section
variable {f : FrameHdr} (hf : s.forMe f = true)
include hf

theorem commandFrame_enters (bytes : List Byte) : commandFrame n f bytes s = enterFrame n f bytes s := by
  simp [commandFrame, hn, hl, hf]

/-- A reply for a command of host A enters its reply queue, and the host's record of the command goes. -/
theorem replyFrameReceived_a {bytes : List Byte} (hop : field bytes 0 2 ≠ 0x0008)
    (hh : s.hostA.fwd.contains (BitVec.ofNat 16 (field bytes 2 2), f.src) = true) :
    replyFrameReceived n f bytes s =
      replyQueue .a (f.cls == 1) bytes (modHost .a (fun r =>
        { r with fwd := r.fwd.erase (BitVec.ofNat 16 (field bytes 2 2), f.src) }) (takeFrame n f bytes.length s)) := by
  have hfwd : ((takeFrame n f bytes.length s).host .a).fwd.contains (BitVec.ofNat 16 (field bytes 2 2), f.src) = true := by
    rw [host_takeFrame]
    exact hh
  unfold replyFrameReceived
  refine (if_neg (by simp [hn, hl])).trans ((if_neg (by simp [hf])).trans ?_)
  dsimp only
  rw [if_pos hfwd, if_neg (fun h => hop h.1)]

theorem deliveryFrameReceived_pair {item : Item} {q : Nat} (hq : s.pairQueue f.src f.queue = some q) :
    deliveryFrameReceived n f item s =
      (let t := takeFrame n f (16 + item.payload.length) s
       let r := s.queue q
       if r.pair.admits f then
         let s1 := pushItem q { item with source := trunkSource n f } (setQueue q { r with pair := r.pair.takeOne } t)
         if 32 ≤ r.pair.since + 1 then sendCredit q s1 else s1
       else frameError n 3 t) := by
  unfold deliveryFrameReceived
  refine (if_neg (by simp [hn, hl])).trans ((if_neg (by simp [hf])).trans ?_)
  dsimp only
  rw [pairQueue_takeFrame, hq]
  dsimp only
  rw [queue_takeFrame]

theorem eventFrameReceived_pair {item : Item} {e : EvPair} (hq : f.queue = 6)
    (he : s.net.evPairs.find? (fun e => e.dev == f.src && e.host == .a) = some e) :
    eventFrameReceived n f item s =
      (let t := takeFrame n f (16 + item.payload.length) s
       if e.pair.admits f then
         let s2 := pushKept 6 { item with source := trunkSource n f } (modNet (fun t => { t with evPairs := t.evPairs.map fun x =>
           if x.dev == f.src && x.host == .a then { x with pair := x.pair.takeOne } else x }) t)
         if 32 ≤ e.pair.since + 1 then sendEvCredit .a f.src s2 else s2
       else frameError n 3 t) := by
  have hhost : hostOf (6 % 2) = .a := rfl
  unfold eventFrameReceived
  refine (if_neg (by simp [hn, hl])).trans ((if_neg (by simp [hf])).trans ?_)
  dsimp only
  rw [hq, hhost, net_takeFrame, he]
  simp only [beq_self_eq_true, Bool.true_or, Bool.and_true]
  rfl

theorem creditRecordReceived_takes {adm : Half} {w : Nat} {r : Bool} (h8 : 8 ≤ f.queue) (h64 : f.queue < 64)
    (hd : s.pairDest (s.queue f.queue) = some f.src) :
    creditRecordReceived n f adm w r s = takeCredit f.queue adm w r (takeFrame n f 8 s) := by
  have hdest : (takeFrame n f 8 s).pairDest ((takeFrame n f 8 s).queue f.queue) = some f.src := by
    rw [pairDest_takeFrame, queue_takeFrame, hd]
  unfold creditRecordReceived
  refine (if_neg (by simp [hn, hl])).trans ((if_neg (by simp [hf])).trans ((if_pos ⟨by omega, h64, hdest⟩).trans ?_))
  exact if_neg (by omega)

end

theorem timeFrameReceived_linked (ns : DWord) (locked : Bool) :
    timeFrameReceived n ns locked s =
      if s.time.pps == .locked && locked && ((s.time.now.toNat / 1000000000 : Nat) : Int) != ((ns.toNat / 1000000000 : Nat) : Int) then
        post 12 (ev8 0x0708 n n (s32 (((ns.toNat / 1000000000 : Nat) : Int) - ((s.time.now.toNat / 1000000000 : Nat) : Int)))) (counted n s)
      else counted n s := by
  unfold timeFrameReceived
  exact if_neg (by simp [hn, hl])

end

theorem egressFrameEnd_sent {e : Egress} (he : (s.trunk n).sending = some e) :
    egressFrameEnd n s =
      (let done := modTrunk n (fun t => { t with sending := none, grant := t.grant.set e.cls (t.grant.getD e.cls 0 - e.units) }) s
       let freed := match e.back with | some m => freeCredit m e.cls e.units done | none => done
       startEgress n (if e.units = 0 then freed else bumpSeq (aTrk n + 12) freed)) := by
  simp only [egressFrameEnd, he] <;> rfl

theorem te2eRetryExpires_resends {q : Nat} (h64 : q < 64) (h6 : 6 ≤ q) (hs : 0 < (s.queue q).pair.sent) : te2eRetryExpires q s = resend q s :=
  if_pos ⟨h64, h6, hs⟩

theorem tcreditExpires_reports {q : Nat} (h64 : q < 64) (h6 : q ≠ 6) (h7 : q ≠ 7) (hs : 0 < (s.queue q).pair.since) :
    tcreditExpires q s = sendCredit q s :=
  (if_neg (by omega)).trans (if_pos ⟨h64, hs⟩)

end
end Sys2Proof.Machine

namespace Sys2Proof
open Machine

/-- Settles O38: links and their timers from the state of the neighbour, then each kind of frame by its destination. -/
theorem trunkLinksAndFrames : Obligations.TrunkLinksAndFrames := by
  constructor
  · intro s n hr hn ho t
    refine ⟨?_, ?_, ?_, ?_, ?_, ?_, ?_, ?_, execChip hr rfl, execChip hr rfl, ?_, ?_, ?_, ?_, ?_, ?_, ?_, rfl⟩
    · exact fun hd hb => execTrunk hr hn ho (trunkPhyLinkUp_down hn hd hb)
    · exact fun h => execTrunk hr hn ho (trunkPhyLinkUp_other hn h)
    · exact ⟨execTrunk hr hn ho (trunkPhyLinkDown_on hn ho _), execTrunk hr hn ho (trunkPhyLinkDown_on hn ho _),
        execTrunk hr hn ho (trunkPhyLinkDown_on hn ho _)⟩
    · exact ⟨execTrunk hr hn ho (tphyrstExpires_on hn ho true), execTrunk hr hn ho (tphyrstExpires_on hn ho false)⟩
    · exact fun hd => execTrunk hr hn ho (trunkPhyLinkTimeout_down hn hd)
    · intro ka got
      refine ⟨fun hp h3 => ?_, fun hp h3 => ?_, fun hu huid hid => execTrunk hr hn ho (keepaliveReceived_up hn hu huid hid)⟩
      · exact execTrunk hr hn ho ((keepaliveReceived_probing hn hp ka).trans (if_pos (show t.run + 1 < 4 by omega)))
      · exact execTrunk hr hn ho ((keepaliveReceived_probing hn hp ka).trans (if_neg (show ¬ t.run + 1 < 4 by omega)))
    · exact fun hl => execTrunk hr hn ho (keepaliveTimeout_linked hn hl)
    · exact fun hl => execTrunk hr hn ho (tlinkHoldExpires_lost hn hl)
    · exact fun id hid => execChip hr (if_pos hid)
    · exact fun e hb hlow hpick he hport => execTrunk hr hn ho (tsettleExpires_picks hn hb hlow hpick he hport)
    · exact fun rec hops hl hu => execTrunk hr hn ho (topologyReceived_own hn hl hu hops)
    · exact fun rec hops hl hu hw hh hnone => execTrunk hr hn ho (topologyReceived_new hn hl hu hw hh hnone)
    · exact execTrunk hr hn ho (receivedFrameDiscarded_on hn .headerCrc)
    · exact execTrunk hr hn ho (receivedFrameDiscarded_on hn (.fcs none))
    · intro u x m hl hf hm hroute hh hc
      refine execTrunk hr hn ho ((receivedFrameDiscarded_on hn (.fcs (some x))).trans ((if_pos ?_).trans ?_))
      · simp [show (s.trunk n).st.linked = true from hl, hf, hm]
      · exact passBad_started hroute hh hc
  · intro s n hr hn hl
    have ho := linked_not_off hl
    refine ⟨?_, ?_, ?_, ?_, ?_, ?_, ?_, ?_, ?_, ?_, ?_, ?_, ?_⟩
    · intro f bytes item adm w r hm other
      exact ⟨execTrunk hr hn ho (atMac_other hn hm _), execTrunk hr hn ho (atMac_other hn hm _), execTrunk hr hn ho (atMac_other hn hm _),
        execTrunk hr hn ho (atMac_other hn hm _), execTrunk hr hn ho (atMac_other hn hm _)⟩
    · intro f bytes hm hf
      exact ⟨execTrunk hr hn ho ((atMac_own hm _).trans (commandFrame_forward hn hl hf bytes)),
        execTrunk hr hn ho ((atMac_own hm _).trans (replyFrameReceived_forward hn hl hf bytes))⟩
    · intro f item hm hf
      exact ⟨execTrunk hr hn ho ((atMac_own hm _).trans (eventFrameReceived_forward hn hl hf item)),
        execTrunk hr hn ho ((atMac_own hm _).trans (deliveryFrameReceived_forward hn hl hf item))⟩
    · exact fun f adm w r hm hf => execTrunk hr hn ho ((atMac_own hm _).trans (creditRecordReceived_forward hn hl hf adm w r))
    · exact fun f bytes hm hf hop hh => execTrunk hr hn ho ((atMac_own hm _).trans (replyFrameReceived_a hn hl hf hop hh))
    · intro f item q hm hf hq t p
      have hpair := (atMac_own (n := n) hm _).trans (deliveryFrameReceived_pair hn hl hf (item := item) hq)
      refine ⟨fun hseq hgrant hmore => execTrunk hr hn ho (hpair.trans ((if_pos ?_).trans (if_neg ?_))),
        fun h => execTrunk hr hn ho (hpair.trans (if_neg ?_))⟩
      · simp [Pair.admits, p] at hseq hgrant ⊢
        exact ⟨hseq, hgrant⟩
      · exact Nat.not_le.mpr hmore
      · simp only [Pair.admits, Bool.and_eq_true, beq_iff_eq, decide_eq_true_eq, not_and]
        exact fun hseq => Nat.not_lt.mpr (h.resolve_left (fun hne => hne hseq))
    · intro f item e hm hf hq he t
      have hpair := (atMac_own (n := n) hm _).trans (eventFrameReceived_pair hn hl hf (item := item) hq he)
      exact ⟨fun ha => execTrunk hr hn ho (hpair.trans (if_neg (Bool.eq_false_iff.mp ha))),
        fun ha hmore => execTrunk hr hn ho (hpair.trans ((if_pos ha).trans (if_neg (Nat.not_le.mpr hmore))))⟩
    · exact fun f adm w r hm hf h8 h64 hd => execTrunk hr hn ho ((atMac_own hm _).trans (creditRecordReceived_takes hn hl hf h8 h64 hd))
    · exact fun f bytes hm hf => execTrunk hr hn ho ((atMac_own hm _).trans (commandFrame_enters hn hl hf bytes))
    · intro src ns locked aligned got
      have htime := timeFrameReceived_linked hn hl ns locked
      refine ⟨fun h => execTrunk hr hn ho (htime.trans (if_neg ?_)), fun hlk hp hne => execTrunk hr hn ho (htime.trans (if_pos ?_))⟩
      · rcases h with h | h | h <;> simp [h]
      · simp only [hp, hlk, beq_self_eq_true, Bool.and_true, Bool.true_and, bne_iff_ne, ne_eq, Int.natCast_inj]
        exact fun h => hne h.symm
    · exact fun e he => execTrunk hr hn ho (egressFrameEnd_sent he)
    · exact fun q h64 h6 hs => execChip hr (te2eRetryExpires_resends h64 h6 hs)
    · exact fun q h64 h6 h7 hs => execChip hr (tcreditExpires_reports h64 h6 h7 hs)

end Sys2Proof
end

section
/-!
The power die (R378 to R400): protection of the ports' paths, feeds and seating, the 5 V rail and the hold.
-/
namespace Sys2Proof.Machine

section
variable {s : State} {p : Nat}

theorem atPower_powered (hw : s.powered = true) {f : State → State} {b : State} (h : f s = b) : atPower f s = finish b :=
  (if_pos hw).trans (congrArg finish h)

theorem execPower (hw : s.powered = true) {f : State → State} {b : State} (h : f s = b) :
    (Host.Outcome.next (atPower f s) : Res) = .next (finish b) :=
  congrArg Host.Outcome.next (atPower_powered hw h)

theorem execSwitch (hp : s.hasPort p = true) (hw : s.powered = true) {f : State → State} {b : State} (h : f s = b) :
    (Host.Outcome.next (atSwitch p f s) : Res) = .next (finish b) :=
  congrArg Host.Outcome.next ((if_pos hp).trans (atPower_powered hw h))

/-! ### The paths (R378 to R387) -/

theorem ramps_not_on {w : Sw} (h : w.ramps = true) : w.isOn = false := by
  cases w <;> first | rfl | cases h

theorem on_not_ramps {w : Sw} (h : w.isOn = true) : w.ramps = false := by
  cases w <;> first | rfl | cases h

theorem atLimit_marks (h : (s.port p).sw = .loOn ∨ (s.port p).sw = .hiOn ∨ (s.port p).sw = .loRamp ∨ (s.port p).sw = .hiRamp) :
    atLimit p s = modPort p (fun r => { r with atLimit := true }) s :=
  if_pos (by rcases h with h | h | h | h <;> rw [h] <;> rfl)

theorem faultTime_below (h : (s.port p).atLimit = false) : faultTime p s = s := if_pos (by simp [h])

theorem faultTime_ramps (h : (s.port p).atLimit = true) (hr : (s.port p).sw.ramps = true) :
    faultTime p s = protect p .latched 2 0x0323 2 (s.port p).sw.path (s.ilim p) s := by
  simp [faultTime, h, hr]

theorem faultTime_on (h : (s.port p).atLimit = true) (ho : (s.port p).sw.isOn = true) :
    faultTime p s = protect p .latched 1 0x0322 1 (s.port p).sw.path (s.ilim p) s := by
  simp [faultTime, h, ho, on_not_ramps ho]

theorem rampTime_ramps (hr : (s.port p).sw.ramps = true) (v : Nat) :
    rampTime p v s = protect p .latched 1 0x0325 3 (s.port p).sw.path v s := if_pos hr

theorem rampTime_still (hr : (s.port p).sw.ramps = false) (v : Nat) : rampTime p v s = s := if_neg (by simp [hr])

theorem pgLost_on (hg : (s.port p).pg = true) (ho : (s.port p).sw.isOn = true) (v : Nat) :
    pgLost p v s = pathEvent p 0x0326 (s.port p).sw.path v (setSqc (aPwrStatus p) [11] (modPort p (fun r => { r with pg := false }) s)) :=
  if_pos (by simp [hg, ho])

theorem fetCheck_fails {v : FetSense} {path : Nat} (h : s.fetFails p v = some path) :
    fetCheck p v s = protect p .isolated 3 0x0324 4 path v.vsns s := by
  unfold fetCheck; rw [h]

theorem fetCheck_passes {v : FetSense} (h : s.fetFails p v = none) : fetCheck p v s = s := by
  unfold fetCheck; rw [h]

theorem fetFails_low (v : FetSense) (h : (s.port p).sw = .loOn) : s.fetFails p v = if 60 < v.vsns then some 2 else none := by
  simp only [State.fetFails, h]

theorem fetFails_high (v : FetSense) (h : (s.port p).sw = .hiOn) :
    s.fetFails p v = if v.vsns < 140 ∧ v.good15 = true ∧ (s.port p).atLimit = false then some 1 else none := by
  simp only [State.fetFails, h]

theorem fetFails_open (v : FetSense) (h : (s.port p).sw = .off ∨ (s.port p).sw = .latched) :
    s.fetFails p v = if (s.port p).fetArmed = true ∧ (s.port p).bus ≠ .ufpSwapped ∧ 8 < v.vsns
      then some (if 100 ≤ v.vsns then 2 else 1) else none := by
  rcases h with h | h <;> simp [State.fetFails, h, and_assoc]

theorem latchOff_port (p : Nat) (sw : Sw) (last : Nat) (rail : Bool) (s : State) :
    ∃ r : Port, (latchOff p sw last rail s).port p =
      { r with bus := .latchedOff, sw := sw, pg := false, pd := { caps := r.pd.caps }, weight := 0, pullUp := false, atLimit := false,
               fetArmed := r.fetArmed && !r.sw.active, lastFault := if last = 0 then r.lastFault else last, latchRail := rail,
               held := false } := by
  obtain ⟨r, hr⟩ := leaveBus_port p 2 s
  exact ⟨r, by simp only [latchOff, port_modPort, hr]⟩

theorem rampTime_latches (hr : (s.port p).sw.ramps = true) (v : Nat) :
    ((rampTime p v s).port p).sw = .latched ∧ ((rampTime p v s).port p).bus = .latchedOff ∧ ((rampTime p v s).port p).pg = false ∧
      ((rampTime p v s).port p).lastFault = 1 ∧ ((rampTime p v s).port p).pd.st = .noContract ∧ ((rampTime p v s).port p).weight = 0 := by
  obtain ⟨r, h⟩ := latchOff_port p .latched 1 false s
  have hport : (rampTime p v s).port p = (latchOff p .latched 1 false s).port p := by
    rw [rampTime_ramps hr]; exact pathEvent_port ..
  rw [hport, h]
  exact ⟨rfl, rfl, rfl, rfl, rfl, rfl⟩

/-! ### Feeds (R392 to R394) -/

theorem feed_modFeed_other {f g : HostId} (h : g ≠ f) (k : Feed → Feed) (s : State) : (modFeed f k s).feed g = s.feed g := by
  cases f <;> cases g <;> first | rfl | exact absurd rfl h

/-- What the Ledger's, the sharing's and the Ash log's part of a feed's new state leave alone. -/
structure SameFeeds (s t : State) : Prop where
  feedA : t.feedA = s.feedA
  feedB : t.feedB = s.feedB
  ports : t.ports = s.ports
  svc : t.svc = s.svc
  dev : t.dev = s.dev
  power : t.power = s.power
  part : t.part = s.part
  seated : t.board.seated = s.board.seated
  pin1 : t.board.pin1 = s.board.pin1
  pin2 : t.board.pin2 = s.board.pin2

theorem SameFeeds.trans {s t u : State} (h : SameFeeds s t) (k : SameFeeds t u) : SameFeeds s u :=
  ⟨k.feedA.trans h.feedA, k.feedB.trans h.feedB, k.ports.trans h.ports, k.svc.trans h.svc, k.dev.trans h.dev, k.power.trans h.power,
    k.part.trans h.part, k.seated.trans h.seated, k.pin1.trans h.pin1, k.pin2.trans h.pin2⟩

theorem SameFeeds.of_posted {s t : State} (h : Posted s t) : SameFeeds s t :=
  ⟨h.feedA, h.feedB, h.ports, h.svc, h.dev, h.power, h.part, congrArg _ h.board, congrArg _ h.board, congrArg _ h.board⟩

theorem SameFeeds.refl (s : State) : SameFeeds s s := .of_posted (Posted.refl s)

theorem SameFeeds.feed {s t : State} (h : SameFeeds s t) (g : HostId) : t.feed g = s.feed g := by
  cases g
  · exact h.feedA
  · exact h.feedB

theorem sameFeeds_board (f : Board → Board) (h : ∀ b, (f b).seated = b.seated ∧ (f b).pin1 = b.pin1 ∧ (f b).pin2 = b.pin2) (s : State) :
    SameFeeds s (modBoard f s) :=
  ⟨rfl, rfl, rfl, rfl, rfl, rfl, rfl, (h _).1, (h _).2.1, (h _).2.2⟩

theorem sameFeeds_shareLimit (s : State) : SameFeeds s (shareLimit s) := by
  have hb (on : Bool) := sameFeeds_board (fun b => { b with share := on }) (fun _ => ⟨rfl, rfl, rfl⟩) s
  unfold shareLimit
  dsimp only
  split
  · exact (hb _).trans (.of_posted (posted_boardEvent' ..))
  · exact hb _

theorem sameFeeds_feedChanged (s t : State) : SameFeeds t (feedChanged s t) := by
  unfold feedChanged
  split <;> exact ⟨rfl, rfl, rfl, rfl, rfl, rfl, rfl, rfl, rfl, rfl⟩

theorem sameFeeds_recordFeed (f : HostId) (st : FeedState) (s : State) : SameFeeds s (recordFeed f st s) := by
  unfold recordFeed
  split <;> exact ⟨rfl, rfl, rfl, rfl, rfl, rfl, rfl, rfl, rfl, rfl⟩

/-- A feed's new state leaves everything listed but that feed. -/
theorem sameFeeds_setFeedSt (f : HostId) (st : FeedState) (s : State) :
    SameFeeds (modFeed f (fun r => { r with st := st, ramping := false }) s) (setFeedSt f st s) := by
  have hn (t : State) : SameFeeds t (noteLimit t) := ⟨rfl, rfl, rfl, rfl, rfl, rfl, rfl, rfl, rfl, rfl⟩
  have hb (t : State) := sameFeeds_board (fun k => { k with bulkMv := 0 }) (fun _ => ⟨rfl, rfl, rfl⟩) t
  unfold setFeedSt
  dsimp only
  have hmoved (u : State) : SameFeeds u (feedChanged s (shareLimit u)) := (sameFeeds_shareLimit u).trans (sameFeeds_feedChanged _ _)
  split <;> split
  · exact ((hn _).trans (hb _)).trans (hmoved _)
  · exact (hn _).trans (hmoved _)
  · exact (((hn _).trans (hb _)).trans (hmoved _)).trans (sameFeeds_recordFeed ..)
  · exact ((hn _).trans (hmoved _)).trans (sameFeeds_recordFeed ..)

theorem feed_setFeedSt (f : HostId) (st : FeedState) (s : State) :
    (setFeedSt f st s).feed f = { s.feed f with st := st, ramping := false } :=
  ((sameFeeds_setFeedSt f st s).feed f).trans (feed_modFeed ..)

theorem feed_setFeedSt_other {f g : HostId} (h : g ≠ f) (st : FeedState) (s : State) : (setFeedSt f st s).feed g = s.feed g :=
  ((sameFeeds_setFeedSt f st s).feed g).trans (feed_modFeed_other h ..)

theorem board_modFeed (f : HostId) (k : Feed → Feed) (s : State) : (modFeed f k s).board = s.board := by cases f <;> rfl

theorem seated_setFeedSt (f : HostId) (st : FeedState) (s : State) : (setFeedSt f st s).board.seated = s.board.seated :=
  (sameFeeds_setFeedSt f st s).seated.trans (congrArg _ (board_modFeed ..))

theorem tryFeed_starts {f : HostId} (hs : (s.feed f).st = .waiting) (hb : s.board.seated = true) (hr : (s.feed f).retry = false)
    (hi : (s.feed f).isolated = false) : tryFeed f s = setFeedSt f .precharge s :=
  if_pos (by simp [hs, hb, hr, hi])

theorem tryFeed_stays {f : HostId} (h : s.board.seated = false ∨ (s.feed f).retry = true ∨ (s.feed f).isolated = true) : tryFeed f s = s :=
  if_neg (by rcases h with h | h | h <;> simp [h])

/-- The feed with the voltage that its pin shows. -/
def shown (f : HostId) (mv : Nat) (s : State) : State := modFeed f (fun r => { r with mv := mv, present := true }) s

theorem feedPresent_starts {f : HostId} (ha : (s.feed f).st = .absent) (hb : s.board.seated = true) (hr : (s.feed f).retry = false)
    (hi : (s.feed f).isolated = false) (mv : Nat) :
    feedPresentNow f mv s = setFeedSt f .precharge (setFeedSt f .waiting (shown f mv s)) := by
  refine (if_pos (by simp [ha])).trans (tryFeed_starts ?_ ?_ ?_ ?_)
  · rw [feed_setFeedSt]
  · rw [seated_setFeedSt, board_modFeed, hb]
  · simp only [feed_setFeedSt, feed_modFeed, hr]
  · simp only [feed_setFeedSt, feed_modFeed, hi]

theorem feedPresent_waits {f : HostId} (ha : (s.feed f).st = .absent)
    (h : s.board.seated = false ∨ (s.feed f).retry = true ∨ (s.feed f).isolated = true) (mv : Nat) :
    feedPresentNow f mv s = setFeedSt f .waiting (shown f mv s) := by
  refine (if_pos (by simp [ha])).trans (tryFeed_stays ?_)
  rw [seated_setFeedSt, board_modFeed]
  simpa only [feed_setFeedSt, feed_modFeed] using h

theorem feedPresent_there {f : HostId} (ha : (s.feed f).st ≠ .absent) (mv : Nat) : feedPresentNow f mv s = shareLimit (shown f mv s) :=
  if_neg (by simpa using ha)

/-- The feed with the voltage that its pin lost. -/
def gone (f : HostId) (mv : Nat) (s : State) : State := modFeed f (fun r => { r with mv := mv, present := false }) s

theorem gives_iff {r : Feed} : r.gives = true ↔ r.st = .on ∨ r.st = .limit := by
  cases h : r.st <;> simp [Feed.gives, h]

theorem feedLost_absent {f : HostId} (h : (s.feed f).st = .absent) (mv : Nat) : feedLost f mv s = gone f mv s := by
  simp [feedLost, gone, h, Feed.gives]

theorem feedLost_waits {f : HostId} (h : (s.feed f).st = .waiting ∨ (s.feed f).st = .retry) (mv : Nat) :
    feedLost f mv s = if (s.feed f).isolated then gone f mv s else setFeedSt f .absent (gone f mv s) := by
  rcases h with h | h <;> simp [feedLost, gone, h, Feed.gives]

theorem feedLost_faults {f : HostId} (h : (s.feed f).st = .precharge ∨ (s.feed f).st = .on ∨ (s.feed f).st = .limit) (mv : Nat) :
    feedLost f mv s = raise (srcFeed f) 1 (feedEvent f 0x0331 0 mv
      (if (s.feed f).isolated then gone f mv s else setFeedSt f .absent (gone f mv s))) := by
  rcases h with h | h | h <;> simp [feedLost, gone, h, Feed.gives]

theorem retryEnds_tries {f : HostId} (hs : (s.feed f).st = .retry) (hi : (s.feed f).isolated = false) :
    retryEnds f s = tryFeed f (setFeedSt f .waiting (modFeed f (fun r => { r with retry := false }) s)) :=
  if_pos (by simp [hs, hi])

/-- The state after a feed's main gate is on. -/
def gateOn (f : HostId) (mv : Nat) (s : State) : State :=
  modSvc (fun v => { v with gate := false }) (feedEvent f 0x0330 0 mv (setFeedSt f .on (modFeed f (fun r => { r with mv := mv }) s)))

theorem feedOn_ramping {f : HostId} (hs : (s.feed f).st = .precharge) (hr : (s.feed f).ramping = true) (mv : Nat) :
    feedOn f mv s =
      clearFlt (srcFeed f) 1 (clearFlt (srcFeed f) 2 (clearFlt (srcFeed f) 3 (clearFlt (srcFeed f) 4 (gateOn f mv s)))) :=
  if_pos (by simp [hs, hr])

theorem sameFeeds_gateOn (f : HostId) (mv : Nat) (s : State) :
    SameFeeds (setFeedSt f .on (modFeed f (fun r => { r with mv := mv }) s))
      (feedEvent f 0x0330 0 mv (setFeedSt f .on (modFeed f (fun r => { r with mv := mv }) s))) :=
  .of_posted (posted_feedEvent' ..)

theorem feed_gateOn (f : HostId) (mv : Nat) (s : State) : (gateOn f mv s).feed f = { s.feed f with mv := mv, st := .on, ramping := false } := by
  have h := (sameFeeds_gateOn f mv s).feed f
  rw [feed_setFeedSt, feed_modFeed] at h
  cases f <;> exact h

theorem feedPresent_of_gives {f : HostId} (h : (s.feed f).gives = true) : s.feedPresent = true := by
  cases f
  · exact Bool.or_eq_true_iff.mpr (.inl h)
  · exact Bool.or_eq_true_iff.mpr (.inr h)

theorem ports_modFeed (f : HostId) (k : Feed → Feed) (s : State) : (modFeed f k s).ports = s.ports := by cases f <;> rfl
theorem dev_modFeed (f : HostId) (k : Feed → Feed) (s : State) : (modFeed f k s).dev = s.dev := by cases f <;> rfl
theorem power_modFeed (f : HostId) (k : Feed → Feed) (s : State) : (modFeed f k s).power = s.power := by cases f <;> rfl

theorem gateOn_keeps (f : HostId) (mv : Nat) (s : State) :
    (gateOn f mv s).ports = s.ports ∧ (gateOn f mv s).dev = s.dev ∧ (gateOn f mv s).power = s.power := by
  have h := (sameFeeds_setFeedSt f .on (modFeed f (fun r => { r with mv := mv }) s)).trans (sameFeeds_gateOn f mv s)
  exact ⟨h.ports.trans (by simp only [ports_modFeed]), h.dev.trans (by simp only [dev_modFeed]),
    h.power.trans (by simp only [power_modFeed])⟩

/-- The gate that is on, with the conditions of the feed's faults over. -/
def gateCleared (f : HostId) (mv : Nat) (s : State) : State :=
  clearFlt (srcFeed f) 1 (clearFlt (srcFeed f) 2 (clearFlt (srcFeed f) 3 (clearFlt (srcFeed f) 4 (gateOn f mv s))))

theorem sameFeeds_clearFlt (source sub : Nat) (s : State) : SameFeeds s (clearFlt source sub s) :=
  ⟨rfl, rfl, rfl, rfl, rfl, rfl, rfl, rfl, rfl, rfl⟩

theorem sameFeeds_gateCleared (f : HostId) (mv : Nat) (s : State) : SameFeeds (gateOn f mv s) (gateCleared f mv s) :=
  (((sameFeeds_clearFlt ..).trans (sameFeeds_clearFlt ..)).trans (sameFeeds_clearFlt ..)).trans (sameFeeds_clearFlt ..)

theorem cleared_gateOn (f : HostId) (mv : Nat) (s : State) :
    let on := gateCleared f mv s
    (on.feed f).st = .on ∧ (on.feed f).mv = mv ∧ on.svc.gate = false ∧ on.ports = s.ports ∧ on.dev = s.dev ∧ on.power = s.power ∧
      on.feedPresent = true := by
  have hk := sameFeeds_gateCleared f mv s
  have hf := (hk.feed f).trans (feed_gateOn f mv s)
  obtain ⟨hports, hdev, hpow⟩ := gateOn_keeps f mv s
  have hgives : ((gateCleared f mv s).feed f).gives = true := by rw [hf]; rfl
  exact ⟨by rw [hf], by rw [hf], congrArg Svc.gate hk.svc, hk.ports.trans hports, hk.dev.trans hdev, hk.power.trans hpow,
    feedPresent_of_gives hgives⟩

theorem feedGateOn_stays {f : HostId} (hs : (s.feed f).st = .precharge) (hr : (s.feed f).ramping = true) (mv : Nat)
    (h : s.dev.power ≠ .service) : feedGateOn f mv s = gateCleared f mv s := by
  obtain ⟨-, -, -, -, hdev, -, -⟩ := cleared_gateOn f mv s
  have hon : feedOn f mv s = gateCleared f mv s := feedOn_ramping hs hr mv
  simp [feedGateOn, hon, hdev, h]

theorem feedGateOn_wakes {f : HostId} (hs : (s.feed f).st = .precharge) (hr : (s.feed f).ramping = true) (mv : Nat)
    (h : s.dev.power = .service) (hn : s.power.wake = none) : feedGateOn f mv s = startWake .service 0 (gateCleared f mv s) := by
  obtain ⟨-, -, -, -, hdev, hpow, hpres⟩ := cleared_gateOn f mv s
  have hon : feedOn f mv s = gateCleared f mv s := feedOn_ramping hs hr mv
  simp [feedGateOn, hon, hdev, hpow, hpres, h, hn]

/-! ### Seating (R396) -/

/-- A feed's gate opens and its retry time runs. -/
def stopFeed (f : HostId) (t : State) : State :=
  let t1 := modFeed f (fun r => { r with retry := true }) t
  if (t.feed f).st == .precharge || (t.feed f).gives then setFeedSt f .waiting t1 else t1

/-- The levels that the seating pins show. -/
def pinsShown (one two : Bool) (s : State) : State :=
  modBoard (fun b => { b with seated := b.seated && !one && !two, pin1 := !one, pin2 := !two }) s

theorem stopFeed_feed (f : HostId) (s : State) :
    ((stopFeed f s).feed f).retry = true ∧ ((stopFeed f s).feed f).gives = false ∧ ((stopFeed f s).feed f).st ≠ .precharge := by
  unfold stopFeed
  dsimp only
  split
  case isTrue => rw [feed_setFeedSt, feed_modFeed]; exact ⟨rfl, rfl, nofun⟩
  case isFalse h =>
    simp only [Bool.or_eq_true, beq_iff_eq, not_or, Bool.not_eq_true] at h
    rw [feed_modFeed]
    exact ⟨rfl, h.2, h.1⟩

theorem stopFeed_other {f g : HostId} (h : g ≠ f) (s : State) : (stopFeed f s).feed g = s.feed g := by
  unfold stopFeed
  dsimp only
  split
  · rw [feed_setFeedSt_other h, feed_modFeed_other h]
  · rw [feed_modFeed_other h]

theorem stopFeed_board (f : HostId) (s : State) : (stopFeed f s).board.seated = s.board.seated ∧
    (stopFeed f s).board.pin1 = s.board.pin1 ∧ (stopFeed f s).board.pin2 = s.board.pin2 := by
  unfold stopFeed
  dsimp only
  split
  · have h := sameFeeds_setFeedSt f .waiting (modFeed f (fun r => { r with retry := true }) s)
    refine ⟨h.seated.trans ?_, h.pin1.trans ?_, h.pin2.trans ?_⟩ <;> simp only [board_modFeed]
  · simp only [board_modFeed, and_self]

theorem seatHigh_low (s : State) : seatHigh false false s = modBoard (fun b => { b with pin1 := true, pin2 := true }) s := by
  unfold seatHigh modBoard
  simp

theorem seatHigh_removed {one two : Bool} (h : one = true ∨ two = true) (s : State) :
    seatHigh one two s = raise 155 1 (boardEvent 0x0338 (b2n one + 2 * b2n two) (pinsShown one two s).lich.insertions.toNat
      (setSqc aSeat [3] (stopFeed .b (stopFeed .a (pinsShown one two s))))) :=
  if_pos (by simpa using h)

theorem sameFeeds_seatHigh {one two : Bool} (h : one = true ∨ two = true) (s : State) :
    SameFeeds (stopFeed .b (stopFeed .a (pinsShown one two s))) (seatHigh one two s) := by
  have hp := SameFeeds.of_posted (posted_boardEvent' 0x0338 (b2n one + 2 * b2n two) (pinsShown one two s).lich.insertions.toNat
    (setSqc aSeat [3] (stopFeed .b (stopFeed .a (pinsShown one two s)))))
  rw [seatHigh_removed h]
  exact (SameFeeds.of_posted (posted_setSqc (Posted.refl _) _ _)).trans
    (hp.trans ⟨rfl, rfl, rfl, rfl, rfl, rfl, rfl, rfl, rfl, rfl⟩)

/-! ### The 5 V rail (R390) -/

theorem nPorts_boardEvent (c a w : Nat) (s : State) : (boardEvent c a w s).nPorts = s.nPorts := by
  unfold State.nPorts; rw [boardEvent_part]

theorem rail5Lost_latches (mv : Nat) (s : State) : rail5Lost mv s = foldS (upTo s.nPorts) (fun p t =>
    if (t.port p).sw = .loRamp ∨ (t.port p).sw = .loOn ∨ (t.port p).sw = .stepdown then latchOff p .latched 0 true t else t)
    (raise 145 1 (boardEvent 0x0339 0 mv (modBoard (fun b => { b with rail5 := false }) s))) := by
  have hn : (raise 145 1 (boardEvent 0x0339 0 mv (modBoard (fun b => { b with rail5 := false }) s))).nPorts = s.nPorts :=
    nPorts_boardEvent ..
  unfold rail5Lost
  dsimp only
  rw [hn]
  congr 1
  funext p t
  split <;> simp_all

theorem rail5Back_restores (hr : s.board.rail5 = false) (mv : Nat) : rail5Back mv s = foldS (upTo s.nPorts) (fun p t =>
    if (t.port p).sw = .latched ∧ (t.port p).latchRail = true then
      toUnattached p (modPort p (fun r => { r with sw := .off, latchRail := false }) (pathEvent p 0x0327 3 0 t))
    else t)
    (clearFlt 145 1 (boardEvent 0x033A 0 mv (modBoard (fun b => { b with rail5 := true }) s))) := by
  have hn : (clearFlt 145 1 (boardEvent 0x033A 0 mv (modBoard (fun b => { b with rail5 := true }) s))).nPorts = s.nPorts :=
    nPorts_boardEvent ..
  refine (if_neg (by simp [hr])).trans ?_
  dsimp only
  rw [hn]
  congr 1
  funext p t
  simp only [Bool.and_eq_true, beq_iff_eq]

end
end Sys2Proof.Machine

namespace Sys2Proof
open Machine

/-- Settles O39: each event of a port's path by its switch; a latch follows from what every departure leaves. -/
theorem pathProtection : Obligations.PathProtection := by
  unfold Obligations.PathProtection
  refine ⟨fun s p hp hw => ⟨fun h => execP hp (atLimit_marks h), execP hp rfl, fun h => execSwitch hp hw (faultTime_below h),
    fun h ho => execSwitch hp hw (faultTime_on h ho), fun h hr => execSwitch hp hw (faultTime_ramps h hr),
    fun v hr => execSwitch hp hw (rampTime_ramps hr v), fun v hr => execSwitch hp hw (rampTime_still hr v),
    fun v => ⟨?_, ?_, ?_, ?_, ?_, ?_⟩, fun v hg ho => execP hp (pgLost_on hg ho v)⟩, fun s p v hp hw hr => ?_⟩
  · exact fun h hv => execSwitch hp hw (fetCheck_fails ((fetFails_low v h).trans (if_pos hv)))
  · exact fun h hv => execSwitch hp hw (fetCheck_passes ((fetFails_low v h).trans (if_neg (by omega))))
  · exact fun h hv hg hl => execSwitch hp hw (fetCheck_fails ((fetFails_high v h).trans (if_pos ⟨hv, hg, hl⟩)))
  · intro h hv
    refine execSwitch hp hw (fetCheck_passes ((fetFails_high v h).trans (if_neg ?_)))
    rintro ⟨hlow, hg, hl⟩
    rcases hv with hv | hv | hv
    · omega
    · rw [hv] at hg; cases hg
    · rw [hl] at hv; cases hv
  · exact fun h ha hb hv => execSwitch hp hw (fetCheck_fails ((fetFails_open v h).trans (if_pos ⟨ha, hb, hv⟩)))
  · intro h hv
    refine execSwitch hp hw (fetCheck_passes ((fetFails_open v h).trans (if_neg ?_)))
    rintro ⟨ha, hb, hhigh⟩
    rcases hv with hv | hv | hv
    · rw [ha] at hv; cases hv
    · exact hb hv
    · omega
  · exact ⟨_, execSwitch hp hw rfl, rampTime_latches hr v⟩

/-- Settles O40: the feeds' moves, by what a feed's new state leaves alone. -/
theorem feedsAndSeating : Obligations.FeedsAndSeating := by
  unfold Obligations.FeedsAndSeating
  refine fun s f hw => ⟨fun mv ha hb hr hi => execPower hw (feedPresent_starts ha hb hr hi mv),
    fun mv ha h => execPower hw (feedPresent_waits ha h mv), fun mv ha => execPower hw (feedPresent_there ha mv),
    fun mv => ⟨fun h => execPower hw (feedLost_absent h mv), fun h hi => execPower hw ((feedLost_waits h mv).trans (if_neg (by simp [hi]))),
      fun h hi => execPower hw ((feedLost_waits h mv).trans (if_pos hi)), fun h => execPower hw (feedLost_faults h mv)⟩,
    ⟨fun h => ⟨execPower hw (if_pos (by simp [h])), fun mv => execPower hw (if_pos (by simp [h]))⟩,
      fun ma h => execPower hw (if_pos (by simp [h])), fun ma h => execPower hw (if_pos h)⟩,
    ?_, fun ma h => execPower hw (if_pos (by simp [h])), fun ma h => execPower hw (if_pos (by simp [h])),
    fun ht hs hi => congrArg Host.Outcome.next ((if_pos ht).trans (atPower_powered hw (retryEnds_tries hs hi))),
    fun h => congrArg Host.Outcome.next ((if_neg (by simp [h])).trans (atPower_powered hw rfl)), fun one two h => ?_,
    execPower hw (seatHigh_low s)⟩
  · intro mv hs hr
    obtain ⟨hst, hmv, hsvc, hports, hdev, hpow, hpres⟩ := cleared_gateOn f mv s
    refine ⟨hst, hmv, hsvc, hports, fun h => execPower hw (feedGateOn_stays hs hr mv h), fun h hn => execPower hw (feedGateOn_wakes hs hr mv h hn)⟩
  · have hsame := sameFeeds_seatHigh h s
    obtain ⟨hb, hb1, hb2⟩ := stopFeed_board .b (stopFeed .a (pinsShown one two s))
    obtain ⟨ha, ha1, ha2⟩ := stopFeed_board .a (pinsShown one two s)
    refine ⟨_, execPower hw rfl, ?_, hsame.pin1.trans (hb1.trans ha1), hsame.pin2.trans (hb2.trans ha2), fun g => ?_⟩
    · rw [hsame.seated, hb, ha]
      rcases h with h | h <;> simp [pinsShown, modBoard, h]
    · rw [hsame.feed g]
      cases g with
      | a => rw [stopFeed_other (by decide)]; exact stopFeed_feed .a _
      | b => exact stopFeed_feed .b _

/-- Settles O41: the rail's loss and return port by port, the die's reset, and the end of the hold. -/
theorem railsAndHold : Obligations.RailsAndHold := by
  unfold Obligations.RailsAndHold
  refine fun s hw => ⟨fun mv hr => ?_, fun mv hr => execPower hw (if_pos hr), fun mv hr => ?_, fun cause => execPower hw rfl,
    fun h => execPower hw (if_pos (by simp [h])), fun h => execPower hw (if_neg (by simp [h]))⟩
  · refine congrArg Host.Outcome.next ((if_pos hr).trans (atPower_powered hw (rail5Lost_latches mv s)))
  · exact execPower hw (rail5Back_restores hr mv)

end Sys2Proof
end

section
/-!
CAN channels (R404 to R433): states, frames, locks, errors, sends and the time master.
-/
namespace Sys2Proof.Machine

section
variable {s : State} {ch k : Nat}

theorem execCan (hr : s.dev.phase = .ready) (hc : s.hasCan ch = true) {f : State → State} {b : State} (h : f s = b) :
    (Host.Outcome.next (atCan ch f s) : Res) = .next (finish b) :=
  (congrArg Host.Outcome.next (if_pos hc)).trans (execC (.inl hr) h)

theorem execSend (hk : k ≤ 128) (hr : s.dev.phase = .ready) (hc : s.hasCan ch = true) {f : State → State} {b : State} (h : f s = b) :
    (Host.Outcome.next (atSend ch k f s) : Res) = .next (finish b) :=
  (congrArg Host.Outcome.next (if_pos hk)).trans (execCan hr hc h)

theorem execObj (hk : k < 128) (hr : s.dev.phase = .ready) (hc : s.hasCan ch = true) {f : State → State} {b : State} (h : f s = b) :
    (Host.Outcome.next (atObj ch k f s) : Res) = .next (finish b) :=
  (congrArg Host.Outcome.next (if_pos hk)).trans (execCan hr hc h)

theorem modCan_congr {f g : Can → Can} (h : f (s.can ch) = g (s.can ch)) : modCan ch f s = modCan ch g s :=
  congrArg (fun r => setCan ch r s) h

/-! ### States (R406, R408) -/

theorem integrated_active (h : (s.can ch).st = 1) :
    integrated ch s = offer ch (followCounters ch (canStateEvent ch (modCan ch (fun r => { r with st := 2 }) s))) := if_pos h

theorem integrated_listening (h : (s.can ch).st = 5) : integrated ch s = modCan ch (fun r => { r with heard := true }) s :=
  (if_neg (by omega)).trans (if_pos h)

theorem integrated_other (h1 : (s.can ch).st ≠ 1) (h5 : (s.can ch).st ≠ 5) : integrated ch s = s := (if_neg h1).trans (if_neg h5)

theorem protocolException_classic (hm : (s.can ch).mode = 2) (ho : (s.can ch).onBus = true) :
    protocolException ch s = modCan ch (fun r => { r with st := 1 }) s := if_pos ⟨hm, ho⟩

theorem protocolException_listening (hm : (s.can ch).mode = 4) (hh : (s.can ch).hears = true) :
    protocolException ch s = modCan ch (fun r => { r with heard := false }) s :=
  (if_neg (fun h => by omega)).trans (if_pos ⟨hm, hh⟩)

theorem busOffRecovers_free (h4 : (s.can ch).st = 4) (hh : (s.can ch).offHeld = false) :
    busOffRecovers ch s = offer ch (updateWarning ch (canStateEvent ch (clearFlt (srcCan ch) 2
      (modCan ch (fun r => { r with st := 2, txc := 0, rxc := 0 }) s)))) := if_pos ⟨h4, hh⟩

theorem busOffRecovers_held (hh : (s.can ch).offHeld = true) : busOffRecovers ch s = s :=
  if_neg (by simp [hh])

/-! ### Frames and locks (R420 to R425) -/

/-- The element that decides about a frame in the state in which it was counted. -/
def frameHit (ch : Nat) (f : CanFrame) (got : State) : Option (Nat × Word × Word) :=
  filterOf ((got.can ch).filtersFor ((got.dev.monoNs : Int) - f.ago)) f

/-- What a frame that object `k` takes sends to the queue that the object names. -/
def queueFrame (ch k : Nat) (f : CanFrame) (got t : State) : State :=
  if ((got.can ch).obj k).queue = 0 then t else pushItem ((got.can ch).obj k).queue (canItem ch k f (got.stampAt f.ago)) t

theorem storeFrame_none {f : CanFrame} (h : frameHit ch f s = none) : storeFrame ch f s = s := by
  unfold frameHit at h
  unfold storeFrame
  dsimp only
  rw [h]

section
variable {f : CanFrame} {i : Nat} {e : Word × Word}

theorem storeFrame_free (h : frameHit ch f s = some (i, e)) (hrej : e.2.getLsbD 31 = false) (hk : (s.can ch).objFor f = some k)
    (hl : ((s.can ch).obj k).lock = none) :
    storeFrame ch f s =
      queueFrame ch k f s (noteObject ch k (modObj ch k (fun _ => ((s.can ch).obj k).take f (s.stampAt f.ago) i) s)) := by
  unfold frameHit at h
  unfold storeFrame queueFrame
  dsimp only
  rw [h]
  dsimp only
  rw [hrej, hk]
  simp [hl]

theorem storeFrame_locked (h : frameHit ch f s = some (i, e)) (hrej : e.2.getLsbD 31 = false) (hk : (s.can ch).objFor f = some k)
    (hl : ((s.can ch).obj k).lock.isSome = true) :
    storeFrame ch f s = queueFrame ch k f s (modObj ch k (fun _ =>
      { (s.can ch).obj k with hold := some (f, s.stampAt f.ago, i),
                              overrun := ((s.can ch).obj k).overrun || ((s.can ch).obj k).hold.isSome }) s) := by
  unfold frameHit at h
  unfold storeFrame queueFrame
  dsimp only
  rw [h]
  dsimp only
  rw [hrej, hk]
  simp [hl]

theorem canReceive_kept (hh : (s.can ch).hears = true) (hm : (s.can ch).mode = 1) (hl : f.lost = none) :
    canReceive ch f s = modCan ch (fun r => { r with oldFilters := [] }) (storeFrame ch f (receiveOk ch (f.fdf && f.brs) s)) := by
  simp [canReceive, hh, hm, hl]

end

theorem lockExpires_free (h : ((s.can ch).obj k).lock = none) : lockExpires ch k s = s := if_neg (by simp [h])

theorem lockExpires_plain (h : ((s.can ch).obj k).lock.isSome = true) (hn : ((s.can ch).obj k).hold = none) :
    lockExpires ch k s = modObj ch k (fun o => { o with lock := none }) (modObj ch k (fun o => { o with expired := true }) s) := by
  refine (if_pos h).trans ?_
  unfold unlock
  dsimp only
  simp only [obj_modObj, hn]

/-! ### Errors (R430, R431) -/

theorem hears_active (h : (s.can ch).st = 2) : (s.can ch).hears = true := by simp [Can.hears, Can.onBus, h]

theorem canError_receiver {e : CanErr} (hs : e.sending = none) (hl : e.lost = none) (hd : e.dataPhase = false)
    (h2 : (s.can ch).st = 2) (hn : (s.can ch).listens = false) :
    canError ch e s = offer ch (followCounters ch (modCan ch (fun r =>
      { r with errFr := if e.errorFrame then r.errFr + 1 else r.errFr, oldFilters := [], rxc := r.rxc + 1 + 8 * e.flags }) s)) := by
  have hcount : modCan ch (fun r => { r.count e false with errFr := if e.errorFrame then r.errFr + 1 else r.errFr, oldFilters := [] }) s =
      modCan ch (fun r =>
        { r with errFr := if e.errorFrame then r.errFr + 1 else r.errFr, oldFilters := [], rxc := r.rxc + 1 + 8 * e.flags }) s :=
    modCan_congr (by simp [Can.count, hn])
  rw [← hcount]
  simp [canError, hears_active h2, hn, Can.sends, hs, hd, hl, lostArb]

theorem canError_reference {e : CanErr} {w : Word} {n : Nat} (hs : e.sending = some 128) (hd : e.dataPhase = false)
    (h2 : (s.can ch).st = 2) (hn : (s.can ch).listens = false) (ha : e.ackError = true) (hb : e.stuffArb = false)
    (hr : (s.can ch).refDue = some (w, n)) :
    canError ch e s = offer ch (followCounters ch (ackError ch w (modCan ch (fun r =>
      { r with errFr := if e.errorFrame then r.errFr + 1 else r.errFr, oldFilters := [], txc := r.txc + 8 + 8 * e.flags }) s))) := by
  have hcount : modCan ch (fun r => { r.count e true with errFr := if e.errorFrame then r.errFr + 1 else r.errFr, oldFilters := [] }) s =
      modCan ch (fun r =>
        { r with errFr := if e.errorFrame then r.errFr + 1 else r.errFr, oldFilters := [], txc := r.txc + 8 + 8 * e.flags }) s :=
    modCan_congr (by simp [Can.count, hn, h2, hb])
  rw [← hcount]
  simp [canError, hears_active h2, hn, Can.sends, hs, hd, ha, hr]

/-! ### The end of a send (R426) -/

section
variable (hk : k < 128) (hb : ((s.can ch).obj k).busy = true) (hd : ((s.can ch).obj k).dir = 2) (ago : Nat)
include hk hb hd

theorem sendEnds_acknowledged : sendEnds ch k 1 ago none s = offer ch (endSend ch k 1 (followCounters ch (frameSent ch
    (((s.can ch).obj k).ident.getLsbD 30 && ((s.can ch).obj k).ident.getLsbD 29 && !(s.can ch).classicOnly) (attempt ch k ago s)))) := by
  simp [sendEnds, show k ≠ 128 by omega, hb, hd, tdcFrame]

theorem sendEnds_failed : sendEnds ch k 3 ago none s = offer ch (endSend ch k 3 (followCounters ch (attempt ch k ago s))) := by
  simp [sendEnds, show k ≠ 128 by omega, hb, hd, tdcFrame]

theorem sendEnds_aborted : sendEnds ch k 4 ago none s = offer ch (endSend ch k 4 (followCounters ch s)) := by
  simp [sendEnds, show k ≠ 128 by omega, hb, hd]

end

/-! ### The time master (R428, R429) -/

section
variable {m : TimeMaster}

/-- The active master with the reference message of the cycle that starts. -/
def queueReference (ch : Nat) (m : TimeMaster) (count : Nat) (t : State) : State :=
  offer ch (modCan ch (fun r => { r with master := some { m with active := true, quietCycles := 0, due := some count } }) t)

/-- The count of the cycle that starts. -/
def cycleCount (m : TimeMaster) (s : State) : Nat := s.time.now.toNat % 1000000000 / 1000 / m.cycle % 64

theorem cycleStart_eq (hm : (s.can ch).master = some m) : cycleStart ch s =
    if m.active then queueReference ch m (cycleCount m s) s
    else if 2 ≤ m.quietCycles then queueReference ch m (cycleCount m s) (canEvent ch 0x0607 1 0 s)
    else modCan ch (fun r => { r with master := some { m with quietCycles := m.quietCycles + 1 } }) s := by
  unfold cycleStart
  dsimp only
  rw [hm]
  rfl

theorem referenceSeen_higher {ide : Bool} {id : BitVec 29} (hm : (s.can ch).master = some m) (ha : m.active = true)
    (hi : m.ident.getLsbD 31 = ide) (hsame : id.toNat / 8 = m.ident.toNat % 2 ^ 29 / 8) (hp : id.toNat % 8 < m.prio) :
    referenceSeen ch ide id s = canEvent ch 0x0607 0 id.toNat
      (modCan ch (fun r => { r with master := some { m with active := false, quietCycles := 0, due := none } }) s) := by
  unfold referenceSeen
  rw [hm]
  dsimp only
  rw [if_pos (by rw [hi, hsame]; simp [hp]), if_pos ha]

end
end
end Sys2Proof.Machine

namespace Sys2Proof
open Machine

/-- Settles O42: each event of a channel by the equation of its step. -/
theorem canChannels : Obligations.CanChannels := by
  unfold Obligations.CanChannels
  refine fun s ch hr hc => ⟨fun h => execCan hr hc (integrated_active h), fun h => execCan hr hc (integrated_listening h),
    fun h1 h5 => execCan hr hc (integrated_other h1 h5), fun hm ho => execCan hr hc (protocolException_classic hm ho),
    fun hm hh => execCan hr hc (protocolException_listening hm hh), fun f hh hm hl => ⟨fun h => ?_, fun i e k h hrej hk => ⟨fun hlk => ?_, fun hlk => ?_⟩⟩,
    fun k hk h hn => execObj hk hr hc (lockExpires_plain h hn), fun k hk h => execObj hk hr hc (lockExpires_free h),
    fun h4 hh => execCan hr hc (busOffRecovers_free h4 hh), fun _ hh => execCan hr hc (busOffRecovers_held hh),
    fun e hs hl hd h2 hn => ?_, fun e w n hs hd h2 hn ha hb hdue => ?_,
    fun k ago hk hb hd => ⟨execSend (by omega) hr hc (sendEnds_acknowledged hk hb hd ago),
      execSend (by omega) hr hc (sendEnds_failed hk hb hd ago), execSend (by omega) hr hc (sendEnds_aborted hk hb hd ago)⟩,
    fun m hm => ⟨fun ha => ?_, fun ha hq => ?_, fun ha hq => ?_⟩,
    fun m ide id hm ha hi hsame hp => execCan hr hc (referenceSeen_higher hm ha hi hsame hp)⟩
  · exact execCan hr hc ((canReceive_kept hh hm hl).trans (congrArg _ (storeFrame_none h)))
  · exact execCan hr hc ((canReceive_kept hh hm hl).trans (congrArg _ (storeFrame_free h hrej hk hlk)))
  · exact execCan hr hc ((canReceive_kept hh hm hl).trans (congrArg _ (storeFrame_locked h hrej hk hlk)))
  · exact execSend (by simp [hs]) hr hc (canError_receiver hs hl hd h2 hn)
  · exact execSend (by simp [hs]) hr hc (canError_reference hs hd h2 hn ha hb hdue)
  · exact execCan hr hc ((cycleStart_eq hm).trans (if_pos ha))
  · exact execCan hr hc ((cycleStart_eq hm).trans ((if_neg (by simp [ha])).trans (if_pos hq)))
  · exact execCan hr hc ((cycleStart_eq hm).trans ((if_neg (by simp [ha])).trans (if_neg (by omega))))

end Sys2Proof
end

section
/-!
Plant time and the clock inputs (R434 to R450, R586).
-/
namespace Sys2Proof.Machine

section
variable {s : State}

theorem execTime (h : s.timeOn = true) {f : State → State} {b : State} (hf : f s = b) :
    (Host.Outcome.next (atTime f s) : Res) = .next (finish b) :=
  congrArg Host.Outcome.next ((if_pos h).trans (congrArg finish hf))

theorem modTime_congr {f g : Time → Time} (h : f s.time = g s.time) : modTime f s = modTime g s :=
  congrArg (fun t : Time => { s with time := t }) h

/-! ### Edges of PPS (R440 to R443) -/

theorem edge_first (ho : s.timeOn = true) (hl : s.time.lastEdge = none) (c : DWord) :
    edge c s = validEdge ((c.toNat : Int) - s.ppsDelay) (passTo c.toNat s) := by
  have hv : s.edgeValid ((c.toNat : Int) - s.ppsDelay) = true := by unfold State.edgeValid; rw [hl]
  refine (if_neg (by simp [ho])).trans ?_
  dsimp only
  rw [hv]
  rfl

theorem edge_glitch (ho : s.timeOn = true) {c : DWord} (hv : s.edgeValid ((c.toNat : Int) - s.ppsDelay) = false)
    (hg : s.time.glitchOpen = true) :
    edge c s = setSqc aTimeState [3] (modTime (fun t => { t with glitches := t.glitches + 1 }) (passTo c.toNat s)) := by
  refine (if_neg (by simp [ho])).trans ?_
  dsimp only
  rw [hv]
  exact if_pos hg

theorem ppsMissed_locked (h : s.time.pps = .locked) :
    ppsMissed s = toPps .holdover (raise 157 1 (modTime (fun t => { t with r := t.f })
      (modTime (fun t => { t with lastEdge := none, moved := 0, good := 0 }) s))) := by
  unfold ppsMissed; simp only [h]

theorem ppsMissed_acquiring (h : s.time.pps = .acquiring) :
    ppsMissed s = toPps .free (modTime (fun t => { t with r := t.f })
      (modTime (fun t => { t with lastEdge := none, moved := 0, good := 0 }) s)) := by
  unfold ppsMissed; simp only [h]

theorem ppsMissed_other (h : s.time.pps = .free ∨ s.time.pps = .holdover) :
    ppsMissed s = modTime (fun t => { t with lastEdge := none, moved := 0, good := 0 }) s := by
  rcases h with h | h <;> (unfold ppsMissed; simp only [h])

/-! ### The second (R333, R369, R448, R449) -/

theorem posted_sendPlain {k : State} (h : Posted k s) (n : Nat) (b : List Byte) : Posted k (sendPlain n b s) := by
  unfold sendPlain enqueueEgress
  exact posted_startEgress (posted_modTrunk h n (fun t => { t with egress := t.egress ++ [_] }) fun _ => rfl) n

theorem posted_timeFrames (n : Nat) (s : State) : Posted s (timeFrames n s) := by
  unfold timeFrames
  split
  · refine posted_foldS (fun a t ht => ?_) _ (Posted.refl s)
    split
    · exact posted_sendPlain ht ..
    · exact ht
  · exact Posted.refl s

theorem posted_sbuFrames (n : Nat) (s : State) : Posted s (sbuFrames n s) := by
  unfold sbuFrames
  refine posted_foldS (fun a t ht => ?_) _ (Posted.refl s)
  split
  · exact posted_emit ht _
  · exact ht

theorem time_crossSecond (n : Nat) (s : State) : (crossSecond n s).time =
    (ppsOut (s.dev.monoNs - (s.time.now.toNat - n * 1000000000)) (modTime (fun t => { t with second := n }) s)).time :=
  (posted_sbuFrames n _).time.trans (posted_timeFrames n _).time

theorem second_ppsOut (a : Nat) (s : State) : (ppsOut a s).time.second = s.time.second := by
  unfold ppsOut
  dsimp only
  split <;> split <;> rfl

theorem time_ppsOut_pulse (hd : s.ppsDrives = true) (hl : s.time.lastPulse = none) (a : Nat) :
    (ppsOut a s).time.high = true ∧ (ppsOut a s).time.lastPulse = some a := by
  unfold ppsOut
  dsimp only
  rw [hl, hd]
  exact ⟨rfl, rfl⟩

theorem crossSecond_starts {n : Nat} (hn : s.time.now.toNat = n * 1000000000) :
    (crossSecond n s).lich.timeCopy = some s.time.now ∧ (crossSecond n s).time.second = n ∧
      (s.ppsDrives = true → s.time.lastPulse = none →
        (crossSecond n s).time.high = true ∧ (crossSecond n s).time.lastPulse = some s.dev.monoNs) := by
  refine ⟨rfl, ?_, fun hd hl => ?_⟩
  · rw [time_crossSecond, second_ppsOut]; rfl
  · rw [time_crossSecond, hn, Nat.sub_self, Nat.sub_zero]
    exact time_ppsOut_pulse (s := modTime (fun t => { t with second := n }) s) hd hl _

theorem followSecond_once (ho : s.timeOn = true) {n : Nat} (hn : s.time.now.toNat = n * 1000000000) (hs : s.time.second + 1 = n) :
    followSecond s = ppsFall (crossSecond n s) := by
  have hone : s.time.now.toNat / 1000000000 - s.time.second = 1 := by omega
  refine (if_neg (by simp [ho])).trans ?_
  rw [hone, ← hs]
  rfl

theorem passTo_now {ns : Nat} (h : s.time.now.toNat < ns) : (passTo ns s).time.now = BitVec.ofNat 64 ns := if_pos h

theorem passTo_toNat {ns : Nat} (h : s.time.now.toNat < ns) (hs : ns < 2 ^ 64) : (passTo ns s).time.now.toNat = ns := by
  rw [passTo_now h, BitVec.toNat_ofNat, Nat.mod_eq_of_lt hs]

theorem timeOn_passTo (ns : Nat) (s : State) : (passTo ns s).timeOn = s.timeOn := rfl

theorem second_passTo (ns : Nat) (s : State) : (passTo ns s).time.second = s.time.second := rfl

theorem lastPulse_passTo (ns : Nat) (s : State) : (passTo ns s).time.lastPulse = s.time.lastPulse := rfl

theorem monoNs_passTo (ns : Nat) (s : State) : (passTo ns s).dev.monoNs = s.dev.monoNs + (ns - s.time.now.toNat) := rfl

theorem secondCrossing_on (h : s.timeOn = true) :
    secondCrossing s = passTo ((s.time.now.toNat / 1000000000 + 1) * 1000000000) s := if_neg (by simp [h])

/-- TIME at the whole second `n` that it reaches next. -/
structure SecondReached (s : State) (n : Nat) (t : State) : Prop where
  now : t.time.now = BitVec.ofNat 64 (n * 1000000000)
  mono : t.dev.monoNs = s.dev.monoNs + (n * 1000000000 - s.time.now.toNat)
  next : s.time.second + 1 = n →
    followSecond t = ppsFall (crossSecond n t) ∧ (crossSecond n t).lich.timeCopy = some t.time.now ∧
      (crossSecond n t).time.second = n ∧
      (t.ppsDrives = true → s.time.lastPulse = none →
        (crossSecond n t).time.high = true ∧ (crossSecond n t).time.lastPulse = some t.dev.monoNs)

theorem secondReached_passTo (ho : s.timeOn = true) {n : Nat} (hb : s.time.now.toNat < n * 1000000000) (ha : n * 1000000000 < 2 ^ 64) :
    SecondReached s n (passTo (n * 1000000000) s) := by
  have hnow := passTo_toNat hb ha
  refine ⟨passTo_now hb, monoNs_passTo _ s, fun hs => ?_⟩
  obtain ⟨hcopy, hsecond, hpulse⟩ := crossSecond_starts hnow
  rw [lastPulse_passTo] at hpulse
  exact ⟨followSecond_once ((timeOn_passTo _ s).trans ho) hnow (by rw [second_passTo, hs]), hcopy, hsecond, hpulse⟩

/-! ### Clock inputs (R439, R586) -/

theorem refFails_steady (ha : s.time.alt = false) (hp : s.time.pps = .free ∨ s.time.pps = .holdover) :
    refFails s = raise 159 1 (timeEvent 0x0803 1 0 0
      (modTime (fun t => { t with alt := true, f := s.savedF true, r := s.savedF true }) s)) := by
  refine (if_neg (by simp [ha])).trans ?_
  unfold refSwitch
  rcases hp with hp | hp <;>
    exact (if_neg (by simp [hp])).trans (congrArg (fun t => raise 159 1 (timeEvent 0x0803 1 0 0 t)) (modTime_congr (by simp [hp])))

theorem refFails_acquiring (ha : s.time.alt = false) (hp : s.time.pps = .acquiring) :
    refFails s = raise 159 1 (timeEvent 0x0803 1 0 0 (modTime (fun t => { t with alt := true, f := s.savedF true }) s)) := by
  refine (if_neg (by simp [ha])).trans ?_
  unfold refSwitch
  exact (if_neg (by simp [hp])).trans (congrArg (fun t => raise 159 1 (timeEvent 0x0803 1 0 0 t)) (modTime_congr (by simp [hp])))

theorem refFails_alt (ha : s.time.alt = true) : refFails s = clocksLost s := if_pos ha

end
end Sys2Proof.Machine

namespace Sys2Proof
open Machine

/-- Settles O43: edges and absences by the PPS state, the second from the moment TIME reaches it, and the clock inputs. -/
theorem plantTime : Obligations.PlantTime := by
  unfold Obligations.PlantTime
  refine fun s ho => ⟨fun c hl => execTime ho (edge_first ho hl c), fun c hv hg => execTime ho (edge_glitch ho hv hg),
    ⟨fun h => execTime ho (ppsMissed_locked h), fun h => execTime ho (ppsMissed_acquiring h), fun h => execTime ho (ppsMissed_other h)⟩,
    fun h => execTime ho (if_pos (by simp [h])), fun h => execTime ho (if_neg (by simpa using h)),
    fun h => execTime ho (if_pos (by simp [h])), fun h => execTime ho (if_neg (by simpa using h)), ?_,
    fun ha hp => execTime ho (refFails_steady ha hp), fun ha hp => execTime ho (refFails_acquiring ha hp),
    fun ha => execTime ho (refFails_alt ha), fun hw h => execPower hw (if_neg (by simp [h])), fun hw h => execPower hw (if_pos h)⟩
  intro hlt
  obtain ⟨hnow, hmono, hnext⟩ := secondReached_passTo (n := s.time.now.toNat / 1000000000 + 1) ho (by omega) (by omega)
  exact ⟨execTime ho (secondCrossing_on ho), hnow, hmono, hnext⟩

end Sys2Proof
end

section
/-!
The entry handshake, the wake triggers and the steps of a wake (R455 to R470).
-/
namespace Sys2Proof.Machine

section
variable {s : State}

/-! ### The entry handshake (R456 to R459) -/

theorem entryEnds_none (h : s.power.entry = none) (status island reason : Nat) : entryEnds status island reason s = s := by
  unfold entryEnds; rw [h]

theorem entryEnds_some {e : Entry} (h : s.power.entry = some e) (status island reason : Nat) :
    entryEnds status island reason s = finishOp e.host e.tag status (powerResult s.dev.power island reason 0) (dropEntry s) := by
  unfold entryEnds; rw [h]

theorem modPower_congr {f g : Power → Power} (h : f s.power = g s.power) : modPower f s = modPower g s :=
  congrArg (fun w : Power => { s with power := w }) h

theorem delayEnds_none (h : s.power.entry = none) : delayEnds s = s :=
  (modPower_congr (g := fun w => w) (by rw [h]; exact congrArg (fun e => { s.power with entry := e }) h.symm)).trans rfl

theorem delayEnds_some {e : Entry} (h : s.power.entry = some e) :
    delayEnds s = modPower (fun w => { w with entry := some { e with delayed := false } }) s :=
  modPower_congr (by rw [h]; rfl)

theorem islandAnswers_none (h : s.power.entry = none) (busy : Bool) : islandAnswers busy s = s := by
  unfold islandAnswers; rw [h]

/-- The state after an island has agreed. -/
def agreed (target code : Nat) (s : State) : State :=
  modPower (fun w => { w with entry := w.entry.map fun x => { x with asked := x.asked + 1, agreed := x.agreed ++ [code] } })
    (entryAction target code s)

section
variable {e : Entry} {code : Nat} {busy : Bool}

/-- The answer of the island that is asked decides. -/
theorem islandAnswers_asked (h : s.power.entry = some e) (hd : e.delayed = false)
    (hc : (askOrder e.target s.dev.power)[e.asked]? = some code) :
    islandAnswers busy s = match s.entryAnswer code busy with
      | .delay _ => modPower (fun w => { w with entry := some { e with delayed := true } }) s
      | .refuse r => setSqc aPwrmState [7] (powerEvent 0x0061 code r e.target (entryEnds stLocked code r s))
      | .agree => match (agreed e.target code s).power.entry with
        | some x => if (askOrder e.target s.dev.power).length ≤ x.asked then
            (if x.target = 2 then enterDoze x (agreed e.target code s) else enterHibernate x (agreed e.target code s))
          else agreed e.target code s
        | none => agreed e.target code s := by
  unfold islandAnswers
  rw [h]
  dsimp only
  rw [hd, hc]
  rfl

theorem islandAnswers_delay (h : s.power.entry = some e) (hd : e.delayed = false)
    (hc : (askOrder e.target s.dev.power)[e.asked]? = some code) {r : Nat} (ha : s.entryAnswer code busy = .delay r) :
    islandAnswers busy s = modPower (fun w => { w with entry := some { e with delayed := true } }) s := by
  rw [islandAnswers_asked h hd hc, ha]

theorem islandAnswers_refuse (h : s.power.entry = some e) (hd : e.delayed = false)
    (hc : (askOrder e.target s.dev.power)[e.asked]? = some code) {r : Nat} (ha : s.entryAnswer code busy = .refuse r) :
    islandAnswers busy s = setSqc aPwrmState [7] (powerEvent 0x0061 code r e.target
      (finishOp e.host e.tag stLocked (powerResult s.dev.power code r 0) (dropEntry s))) := by
  rw [islandAnswers_asked h hd hc, ha, ← entryEnds_some h]

theorem islandAnswers_agree (h : s.power.entry = some e) (hd : e.delayed = false)
    (hc : (askOrder e.target s.dev.power)[e.asked]? = some code) (ha : s.entryAnswer code busy = .agree) {x : Entry}
    (hx : (agreed e.target code s).power.entry = some x) :
    islandAnswers busy s = if (askOrder e.target s.dev.power).length ≤ x.asked then
        (if x.target = 2 then enterDoze x (agreed e.target code s) else enterHibernate x (agreed e.target code s))
      else agreed e.target code s := by
  rw [islandAnswers_asked h hd hc, ha]
  dsimp only
  rw [hx]

end

/-! ### Wake triggers (R457, R464, R466, R577) -/

/-- The triggers that come from outside. -/
theorem outside_of_mem {code : Nat} (h : code ∈ [2, 3, 4, 5, 8]) : outside code = true ∧ code ≠ 1 := by
  simp only [List.mem_cons, List.not_mem_nil, or_false] at h
  rcases h with rfl | rfl | rfl | rfl | rfl <;> decide

theorem execTrigger (hw : s.powered = true) {code : Nat} (hm : code ∈ [2, 3, 4, 5, 8]) {b : State} (h : wakeTrigger code s = b) :
    exec (.wakeTrigger code) s = .next (finish b) :=
  congrArg Host.Outcome.next ((if_pos (outside_of_mem hm).1).trans (atPower_powered hw h))

theorem wakeTrigger_reset (hp : s.dev.phase = .reset) (hl : s.dev.resetLow = true) (code : Nat) :
    wakeTrigger code s = ashRecord 4 code s := if_pos (by simp [hp, hl])

theorem wakes_eq (h : s.dev.power = .doze ∨ s.dev.power = .hibernate) (code : Nat) :
    s.wakes code = triggerOn s.dev.power s.power.wakeEnable code := by
  rcases h with h | h <;> simp [State.wakes, h]

theorem wakes_running (h : s.dev.power ≠ .doze) (h' : s.dev.power ≠ .hibernate) (code : Nat) : s.wakes code = false := by
  simp [State.wakes, h, h']

theorem wakes_not {code : Nat} (hz : s.dev.power = .doze → triggerOn .doze s.power.wakeEnable code = false)
    (hh : s.dev.power ≠ .hibernate) : s.wakes code = false := by
  by_cases h : s.dev.power = .doze
  · rw [wakes_eq (.inl h), h, hz h]
  · exact wakes_running h hh code

section
variable (hr : s.dev.phase = .reset → s.dev.resetLow = false)
include hr

theorem reset_not_low : ¬ (s.dev.phase == .reset && s.dev.resetLow) = true := by
  simpa using hr

theorem wakeTrigger_asleep (he : s.power.entry = none) (hn : s.power.wake = none) (h : s.dev.power = .doze ∨ s.dev.power = .hibernate)
    (code : Nat) : wakeTrigger code s =
      if triggerOn s.dev.power s.power.wakeEnable code then startWake s.dev.power code s else ashRecord 4 code s := by
  have hsleeps : (s.dev.power == .doze || s.dev.power == .hibernate) = true := by simpa using h
  refine (if_neg (reset_not_low hr)).trans ?_
  rw [he, hn]
  dsimp only
  rw [wakes_eq h, hsleeps]
  rfl

theorem wakeTrigger_entry {e : Entry} (he : s.power.entry = some e) {code : Nat} (h1 : code ≠ 1) : wakeTrigger code s =
    if s.wakes code || triggerOn (if e.target = 3 then .hibernate else .doze) e.wakeEnable code then
      (if s.wakes code then startWake s.dev.power code (entryEnds stAborted 0xFF 0 s) else entryEnds stAborted 0xFF 0 s)
    else ashRecord 4 code s := by
  have hcode : (code == 1) = false := by simpa using h1
  refine (if_neg (reset_not_low hr)).trans ?_
  rw [he]
  dsimp only
  rw [hcode, Bool.or_false]

theorem wakeTrigger_waking (he : s.power.entry = none) (hn : s.power.wake.isSome = true) (code : Nat) : wakeTrigger code s =
    if (s.dev.power == .doze || s.dev.power == .hibernate) && !s.wakes code then ashRecord 4 code s else s := by
  obtain ⟨w, hw⟩ := Option.isSome_iff_exists.mp hn
  refine (if_neg (reset_not_low hr)).trans ?_
  rw [he, hw]

end

theorem wakeAfterEnds_runs (ha : s.power.wakeAfter ≠ 0) (h : s.dev.power = .doze ∨ s.dev.power = .hibernate) :
    wakeAfterEnds s = wakeTrigger 6 s := if_pos (by simpa [ha] using h)

theorem wakeAfterEnds_other (h : s.power.wakeAfter = 0 ∨ (s.dev.power ≠ .doze ∧ s.dev.power ≠ .hibernate)) : wakeAfterEnds s = s :=
  if_neg (by rcases h with h | ⟨h, h'⟩ <;> simp [*])

/-! ### The steps of a wake (R465 to R470) -/

theorem stepReady_none (hn : s.power.wake = none) (a : List (Nat × Nat × Word)) (b : List (Nat × CtrlContent)) :
    stepReady a b s = railReady s := if_neg (by simp [hn])

theorem wakeStepLate_rails (hn : s.power.wake = none) (h0 : s.power.railStep = 0) (u us : Nat) : wakeStepLate u us s = s := by
  unfold wakeStepLate railLate
  simp only [hn, h0]

/-- The step of the islands whose rail came back. -/
def railTo (n : Nat) (s : State) : State := modPower (fun x => { x with railStep := n }) s
/-- The next step of a wake. -/
def onTo (n : Nat) (s : State) : State := modPower (fun x => { x with wake := x.wake.map fun k => { k with step := n } }) s

theorem railReady_eq (s : State) : railReady s = match s.power.railStep with
    | 1 => railTo 2 s | 2 => railTo 3 s | 3 => railTo 5 (peatReturns s) | 5 => railsUp s | _ => s := rfl

section
variable {w : Wake} (hw : s.power.wake = some w) {a : List (Nat × Nat × Word)} {b : List (Nat × CtrlContent)}
include hw

theorem stepReady_wake : stepReady a b s = wakeReady a b s := if_pos (by simp [hw])

theorem wakeReady_1 (h : w.step = 1) (hc : s.coreRails = true) : stepReady a b s = onTo 2 s := by
  rw [stepReady_wake hw]
  simp only [wakeReady, hw, h, hc]
  rfl

theorem wakeReady_2 (h : w.step = 2) :
    stepReady a b s = onTo 3 (if w.left == .hibernate || w.cold then modTime (fun t => { t with alt := w.alt }) s else s) := by
  rw [stepReady_wake hw]
  simp only [wakeReady, hw, h]
  rfl

theorem wakeReady_3 (h : w.step = 3) : stepReady a b s =
    if w.left == .hibernate || w.cold then onTo 4 (peatReturns (peatActive s)) else onTo 5 (peatReturns (peatActive s)) := by
  rw [stepReady_wake hw]
  simp only [wakeReady, hw, h]
  rfl

theorem wakeReady_4 (h : w.step = 4) : stepReady a b s = onTo 5 (retention a b s) := by
  rw [stepReady_wake hw]
  simp only [wakeReady, hw, h]
  rfl

theorem wakeReady_5 (h : w.step = 5) : stepReady a b s =
    if w.left == .doze && !w.cold then railsUp (dozeOver w s)
    else onTo 6 (if w.left == .service && !w.cold then modDev (fun d => { d with phase := .waking }) s
      else timeStart s.time.alt (modDev (fun d => { d with phase := .waking }) s)) := by
  rw [stepReady_wake hw]
  simp only [wakeReady, hw, h]
  rfl

variable {u us : Nat}

theorem wakeStepLate_1 (h : w.step = 1) : wakeStepLate u us s =
    if (stepTimeout 1 0xFF us (railLost u s)).coreRails then onTo 2 (stepTimeout 1 0xFF us (railLost u s))
    else stepTimeout 1 0xFF us (railLost u s) := by
  simp only [wakeStepLate, hw, h]
  rfl

theorem wakeStepLate_2 (h : w.step = 2) : wakeStepLate u us s =
    if w.alt then wakeFails (stepTimeout 2 0xFF us s)
    else modPower (fun x => { x with wake := x.wake.map fun k => { k with alt := true } }) (stepTimeout 2 0xFF us (refSwitch s)) := by
  simp only [wakeStepLate, hw, h]

theorem wakeStepLate_3 (h : w.step = 3) : wakeStepLate u us s = stepTimeout 3 0xFF us (bankFails u s) := by
  simp only [wakeStepLate, hw, h]

theorem wakeStepLate_5 (h : w.step = 5) : wakeStepLate u us s =
    if u = 0x24 ∨ u = 0x25 then wakeFails (stepTimeout 5 u us s) else stepTimeout 5 u us (raise (islandSrc u) 4 s) := by
  simp only [wakeStepLate, hw, h]

theorem wakeRetry_starts (hr : s.power.retry = true) :
    wakeRetry s = modPower (fun x => { x with retry := false, wake := some { w with step := 1 } }) s :=
  (if_pos hr).trans (modPower_congr (by rw [hw]; rfl))

end

/-- A wake from HIBERNATE, or one after a failed wake. -/
theorem whole_iff {w : Wake} : (w.left == .hibernate || w.cold) = true ↔ w.left = .hibernate ∨ w.cold = true := by
  simp

end
end Sys2Proof.Machine

namespace Sys2Proof
open Machine

/-- Settles O44: the handshake by the island's answer, the triggers by what the device does, the steps by the wake's step. -/
theorem entryAndWakeSteps : Obligations.EntryAndWakeSteps := by
  unfold Obligations.EntryAndWakeSteps
  refine ⟨fun s hw => ⟨fun h => ⟨execPower hw (entryEnds_none h ..), execPower hw (delayEnds_none h),
      fun busy => execPower hw (islandAnswers_none h busy)⟩, fun e h => ⟨execPower hw (delayEnds_some h), execPower hw (entryEnds_some h ..),
      fun busy code hd hc => ⟨fun r ha => execPower hw (islandAnswers_delay h hd hc ha),
        fun r ha => execPower hw (islandAnswers_refuse h hd hc ha), ?_⟩⟩,
      fun code hm hp hl => execTrigger hw hm (wakeTrigger_reset hp hl code), fun hr => ⟨?_, ?_, ?_⟩,
      fun h => execPower hw (wakeAfterEnds_other h)⟩,
    fun s hw => ⟨fun hn a b => ⟨?_, ?_, ?_, ?_, ?_⟩, fun hr => execPower hw (if_neg (by simp [hr])), fun w hk => ⟨fun a b => ?_, fun u us => ?_,
      fun hr => execPower hw (wakeRetry_starts hk hr)⟩⟩⟩
  · intro agrees ha x hx
    have hans := islandAnswers_agree h hd hc ha hx
    exact ⟨fun hl => execPower hw (hans.trans (if_neg (by omega))),
      fun hl ht => execPower hw (hans.trans ((if_pos (by omega)).trans (if_pos ht))),
      fun hl ht => execPower hw (hans.trans ((if_pos (by omega)).trans (if_neg ht)))⟩
  · intro he hn hs
    have htrig := wakeTrigger_asleep hr he hn hs
    exact ⟨fun code hm ht => execTrigger hw hm ((htrig code).trans (if_pos ht)),
      fun code hm ht => execTrigger hw hm ((htrig code).trans (if_neg (by simp [ht]))),
      fun ha => execPower hw ((wakeAfterEnds_runs ha hs).trans ((htrig 6).trans (if_pos rfl)))⟩
  · intro e he hh code hm aims ended
    have htrig := wakeTrigger_entry hr he (outside_of_mem hm).2
    have hended : entryEnds stAborted 0xFF 0 s = ended := entryEnds_some he ..
    rw [hended] at htrig
    refine ⟨fun hz ht => execTrigger hw hm (htrig.trans ?_), fun hz => ⟨fun ht => execTrigger hw hm (htrig.trans ?_),
      fun ht => execTrigger hw hm (htrig.trans ?_)⟩⟩
    · have hwakes : s.wakes code = true := by rw [wakes_eq (.inl hz), hz, ht]
      rw [hwakes, hz]
      rfl
    · rw [wakes_not hz hh, Bool.false_or]
      exact if_pos ht
    · rw [wakes_not hz hh, Bool.false_or]
      exact if_neg (by simp only [aims] at ht; simp [ht])
  · intro he hn
    have htrig := wakeTrigger_waking hr he hn
    refine fun code hm => ⟨fun hz hh => execTrigger hw hm ((htrig code).trans (if_neg (by simp [hz, hh]))), fun hs =>
      ⟨fun ht => execTrigger hw hm ((htrig code).trans (if_neg ?_)), fun ht => execTrigger hw hm ((htrig code).trans (if_pos ?_))⟩⟩
    · simp [wakes_eq hs, ht]
    · simpa [wakes_eq hs, ht] using hs
  · exact fun h0 => ⟨execPower hw ((stepReady_none hn a b).trans ((railReady_eq s).trans (by rw [h0]; rfl))),
      fun u us => execPower hw (wakeStepLate_rails hn h0 u us)⟩
  · exact fun h => execPower hw ((stepReady_none hn a b).trans ((railReady_eq s).trans (by rw [h]; rfl)))
  · exact fun h => execPower hw ((stepReady_none hn a b).trans ((railReady_eq s).trans (by rw [h]; rfl)))
  · exact fun h => execPower hw ((stepReady_none hn a b).trans ((railReady_eq s).trans (by rw [h]; rfl)))
  · exact fun h => execPower hw ((stepReady_none hn a b).trans ((railReady_eq s).trans (by rw [h]; rfl)))
  · exact ⟨fun h hc => execPower hw (wakeReady_1 hk h hc),
      fun h hp => execPower hw ((wakeReady_2 hk h).trans (congrArg _ (if_neg (mt whole_iff.mp hp)))),
      fun h hp => execPower hw ((wakeReady_2 hk h).trans (congrArg _ (if_pos (whole_iff.mpr hp)))),
      fun h hp => execPower hw ((wakeReady_3 hk h).trans (if_pos (whole_iff.mpr hp))),
      fun h hp => execPower hw ((wakeReady_3 hk h).trans (if_neg (mt whole_iff.mp hp))),
      fun h => execPower hw (wakeReady_4 hk h), fun h hl hc => execPower hw ((wakeReady_5 hk h).trans (if_pos (by simp [hl, hc]))),
      fun h hl hc => execPower hw ((wakeReady_5 hk h).trans ((if_neg (by simp [hl])).trans (congrArg _ (if_pos (by simp [hl, hc]))))),
      fun h ho => execPower hw ((wakeReady_5 hk h).trans ((if_neg (by rcases ho with ho | ho <;> simp [ho])).trans
        (congrArg _ (if_neg (by rcases ho with ho | ho <;> simp [ho])))))⟩
  · exact ⟨fun h => ⟨fun hc => execPower hw ((wakeStepLate_1 hk h).trans (if_pos hc)),
        fun hc => execPower hw ((wakeStepLate_1 hk h).trans (if_neg (by simp [hc])))⟩,
      fun h ha => execPower hw ((wakeStepLate_2 hk h).trans (if_neg (by simp [ha]))),
      fun h ha => execPower hw ((wakeStepLate_2 hk h).trans (if_pos ha)), fun h => execPower hw (wakeStepLate_3 hk h),
      fun h hu => execPower hw ((wakeStepLate_5 hk h).trans (if_pos hu)),
      fun h h24 h25 => execPower hw ((wakeStepLate_5 hk h).trans (if_neg (by simp [h24, h25])))⟩

end Sys2Proof
end

section
/-!
The supply rails (R472), the faults that come as commands, the Ash log's drain and the intervals of merged events
(R33, R122, R336, R433, R440, R474, R485, R489, R522).
-/
namespace Sys2Proof.Machine

section
variable {s : State} {code : Nat}

/-! ### Supply rails (R472) -/

theorem execRail (hw : s.powered = true) (h1 : 1 ≤ code) (h8 : code ≤ 8) {f : State → State} {b : State} (h : f s = b) :
    (Host.Outcome.next (if 1 ≤ code ∧ code ≤ 8 then atPower f s else s) : Res) = .next (finish b) :=
  congrArg Host.Outcome.next ((if_pos ⟨h1, h8⟩).trans (atPower_powered hw h))

/-- The rails that RAIL_EN removes. -/
def switched (code : Nat) : Bool := code == 1 || code == 3 || code == 5 || code == 6
/-- The rails that the logic die needs. -/
def coreRail (code : Nat) : Bool := code == 1 || code == 2 || code == 4

theorem switched_iff : switched code = true ↔ code ∈ [1, 3, 5, 6] := by simp [switched, or_assoc]

theorem coreRail_iff : coreRail code = true ↔ code ∈ [1, 2, 4] := by simp [coreRail, or_assoc]

theorem switched_not (h1 : 1 ≤ code) (h8 : code ≤ 8) (h : code ∈ [2, 4, 7, 8]) : switched code = false := by
  simp only [List.mem_cons, List.not_mem_nil, or_false] at h
  rcases h with rfl | rfl | rfl | rfl <;> rfl

theorem supplyLost_eq (code : Nat) (s : State) : supplyLost code s =
    if s.dev.power == .hibernate && s.power.wake.isNone && switched code then s
    else if coreRail code && s.dev.phase != .reset && !s.railOut code then railLost code (dieReset false s)
    else railLost code s := rfl

theorem supplyLost_switched (hh : s.dev.power = .hibernate) (hn : s.power.wake = none) (hc : code ∈ [1, 3, 5, 6]) :
    supplyLost code s = s :=
  (supplyLost_eq ..).trans (if_pos (by simp [hh, hn, switched_iff.mpr hc]))

theorem railLost_again (h : s.railOut code = true) : railLost code s = s := if_pos h

theorem railBack_again (h : s.railOut code = false) : railBack code s = s := if_pos (by simp [h])

section
variable (hs : s.dev.power ≠ .hibernate ∨ switched code = false)
include hs

theorem supplyLost_counts : supplyLost code s =
    if coreRail code && s.dev.phase != .reset && !s.railOut code then railLost code (dieReset false s) else railLost code s :=
  (supplyLost_eq ..).trans (if_neg (by rcases hs with h | h <;> simp [h]))

theorem supplyLost_again (h : s.railOut code = true) : supplyLost code s = s :=
  (supplyLost_counts hs).trans ((if_neg (by simp [h])).trans (railLost_again h))

theorem supplyLost_core (hc : coreRail code = true) (hp : s.dev.phase ≠ .reset) (ho : s.railOut code = false) :
    supplyLost code s = railLost code (dieReset false s) :=
  (supplyLost_counts hs).trans (if_pos (by simp [hc, hp, ho]))

theorem supplyLost_plain (h : coreRail code = false ∨ s.dev.phase = .reset) : supplyLost code s = railLost code s :=
  (supplyLost_counts hs).trans (if_neg (by rcases h with h | h <;> simp [h]))

end

/-- The rail is recorded as missing. -/
def railMissing (code : Nat) (s : State) : State :=
  modPower (fun w => { w with missing := w.missing ||| BitVec.ofNat 8 (2 ^ (code - 1)),
                              rising := w.rising &&& ~~~BitVec.ofNat 8 (2 ^ (code - 1)),
                              railStep := if w.rising &&& ~~~BitVec.ofNat 8 (2 ^ (code - 1)) = 0 then 0 else w.railStep }) s

/-- The loss of a rail is told. -/
def toldLost (code : Nat) (t : State) : State := setSqc aPwrmRails [16] (raise 147 1 (powerEvent 0x0064 code 0 t.offMask t))

theorem railLost_none (hc : coreRail code = true) (ho : s.railOut code = false) :
    railLost code s = toldLost code (railMissing code s) := by
  have hcode : code = 1 ∨ code = 2 ∨ code = 4 := by simpa using coreRail_iff.mp hc
  refine (if_neg (by simp [ho])).trans ?_
  rcases hcode with rfl | rfl | rfl <;> rfl

theorem railLost_3 (ho : s.railOut 3 = false) :
    railLost 3 s = toldLost 3 (tkOff (portLost .b (portLost .a (railMissing 3 s)))) := if_neg (by simp [ho])

theorem railLost_phy (ho : s.railOut code = false) (hc : code = 5 ∨ code = 6) :
    railLost code s = toldLost code (foldS (upTo (s.nPorts / 8)) pgOff (endInstance 0 (railMissing code s))) := by
  refine (if_neg (by simp [ho])).trans ?_
  rcases hc with rfl | rfl <;> rfl

theorem railLost_peat (ho : s.railOut code = false) (hc : code = 7 ∨ code = 8) :
    railLost code s = toldLost code (peatLost 0 (railMissing code s)) := by
  refine (if_neg (by simp [ho])).trans ?_
  rcases hc with rfl | rfl <;> rfl

/-- The return of a rail is told. -/
def toldBack (code : Nat) (t : State) : State :=
  setSqc aPwrmRails [16] (powerEvent 0x0065 code 0 0 (if t.power.missing = 0 then clearFlt 147 1 t else t))

/-- The logic die runs, so the islands of a rail that returns are woken at once. -/
def upPhase (s : State) : Bool := s.dev.phase == .ready || s.dev.phase == .warm || s.dev.phase == .kindling

/-- The return of a rail wakes its islands. -/
def railWakes (code : Nat) (s : State) : Bool := (code == 3 || decide (5 ≤ code)) && (upPhase s || s.dev.phase == .waking)

theorem railBack_eq (ho : s.railOut code = true) : railBack code s = toldBack code (modPower (fun w =>
    { w with missing := w.missing &&& ~~~BitVec.ofNat 8 (2 ^ (code - 1)),
             rising := if railWakes code s then w.rising ||| BitVec.ofNat 8 (2 ^ (code - 1)) else w.rising,
             railStep := if railWakes code s && upPhase s && w.wake.isNone then 1 else w.railStep }) s) :=
  if_neg (by simp [ho])

theorem railWakes_not (h1 : 1 ≤ code) (h : code ∈ [1, 2, 4] ∨ s.dev.phase = .reset ∨ s.dev.phase = .starting) :
    railWakes code s = false := by
  simp only [List.mem_cons, List.not_mem_nil, or_false] at h
  rcases h with (rfl | rfl | rfl) | h | h <;> simp [railWakes, upPhase, *]

theorem wakable (hc : code ∈ [3, 5, 6, 7, 8]) : (code == 3 || decide (5 ≤ code)) = true := by
  simp only [List.mem_cons, List.not_mem_nil, or_false] at hc
  rcases hc with rfl | rfl | rfl | rfl | rfl <;> rfl

theorem railBack_still (ho : s.railOut code = true) (hw : railWakes code s = false) :
    railBack code s = toldBack code (modPower (fun w => { w with missing := w.missing &&& ~~~BitVec.ofNat 8 (2 ^ (code - 1)) }) s) := by
  rw [railBack_eq ho, hw]
  rfl

theorem railBack_waking (ho : s.railOut code = true) (hc : code ∈ [3, 5, 6, 7, 8]) (hp : s.dev.phase = .waking) :
    railBack code s = toldBack code (modPower (fun w =>
      { w with missing := w.missing &&& ~~~BitVec.ofNat 8 (2 ^ (code - 1)),
               rising := w.rising ||| BitVec.ofNat 8 (2 ^ (code - 1)) }) s) := by
  have hup : upPhase s = false := by simp [upPhase, hp]
  have hwakes : railWakes code s = true := by simp [railWakes, wakable hc, hp]
  rw [railBack_eq ho, hup, hwakes]
  rfl

theorem railBack_up (ho : s.railOut code = true) (hc : code ∈ [3, 5, 6, 7, 8])
    (hp : s.dev.phase = .ready ∨ s.dev.phase = .warm ∨ s.dev.phase = .kindling) :
    railBack code s = toldBack code (modPower (fun w =>
      { w with missing := w.missing &&& ~~~BitVec.ofNat 8 (2 ^ (code - 1)),
               rising := w.rising ||| BitVec.ofNat 8 (2 ^ (code - 1)),
               railStep := if w.wake.isNone then 1 else w.railStep }) s) := by
  have hup : upPhase s = true := by simpa [upPhase, or_assoc] using hp
  have hwakes : railWakes code s = true := by simp [railWakes, wakable hc, hup]
  rw [railBack_eq ho, hup, hwakes]
  rfl

/-! ### Faults of their own (R33, R474, R522) -/

theorem execChipOn (h : s.dev.phase = .ready ∨ s.dev.phase = .warm) {f : State → State} {b : State} (hf : f s = b) :
    (Host.Outcome.next (atChip f s) : Res) = .next (finish b) := by
  have hon : atChip f s = finish (f s) := if_neg (by rcases h with h | h <;> simp [h])
  rw [hon, hf]

theorem coreFault_runs (hc : s.coresRun = true) (hp : s.dev.phase ≠ .waking) (src : Nat) : coreFault src s = raise src 1 s :=
  (if_neg (by simp [hc])).trans (if_neg (by simpa using hp))

theorem coreFault_stands (hc : s.coresRun = false) (src : Nat) : coreFault src s = s := if_pos (by simp [hc])

theorem sensorDiverges_first {k : Nat} (hk : k < 12) (h : s.ledger.sensorsOut.contains k = false) :
    sensorDiverges k s = raise (122 + k) 1 (setSqc aDevTemp [16] (modLedger (fun l => { l with sensorsOut := l.sensorsOut ++ [k] }) s)) :=
  if_neg (fun hor => hor.elim (by omega) (by rw [h]; exact nofun))

theorem ashDrain_empty (h : s.lich.ash.buffer = []) : ashDrain s = s := by
  unfold ashDrain; dsimp only; rw [h]

theorem ashDrain_writes {e : AshEntry} {rest : List AshEntry} (h : s.lich.ash.buffer = e :: rest) (hp : s.peat.st ≠ 2) :
    ashDrain s = modLich (fun l => { l with ash :=
      { l.ash with buffer := rest, ring := tset l.ash.ring ((l.ash.writeOffset - 64) / 16) e,
                   writeOffset := if decide (12272 ≤ s.lich.ash.writeOffset) then 64 else l.ash.writeOffset + 16,
                   wraps := if decide (12272 ≤ s.lich.ash.writeOffset) then l.ash.wraps + 1 else l.ash.wraps } }) s := by
  unfold ashDrain; dsimp only; rw [h]; exact if_neg hp

/-! ### Merged events (R122, R336, R433, R440, R485) -/

theorem serviceEnd_over {p : Nat} (h : (s.port p).svcEps = []) : serviceEnd p s = modPort p (fun r => { r with svcOpen := false }) s :=
  if_pos (by simp [h])

theorem serviceEnd_posts {p : Nat} (h : (s.port p).svcEps ≠ []) : serviceEnd p s = postService p s := if_neg (by simpa using h)

theorem objectsEnd_over {c : Nat} (h : (s.can c).evObjs = []) : objectsEnd c s = modCan c (fun r => { r with evOpen := false }) s :=
  if_pos (by simp [h])

theorem objectsEnd_posts {c : Nat} (h : (s.can c).evObjs ≠ []) : objectsEnd c s = postObjects c s := if_neg (by simpa using h)

end
end Sys2Proof.Machine

namespace Sys2Proof
open Machine

/-- Settles O45: the loss and the return of a rail by its code and the die's phase. -/
theorem supplyRails : Obligations.SupplyRails := by
  unfold Obligations.SupplyRails
  refine fun s code hw h1 h8 => ⟨fun hh hn hc => execRail hw h1 h8 (supplyLost_switched hh hn hc),
    fun ho => execRail hw h1 h8 (railBack_again ho), fun hsw => ?_, fun ho => ⟨fun h => execRail hw h1 h8 (railBack_still ho (railWakes_not h1 h)),
      fun hc hp => execRail hw h1 h8 (railBack_waking ho hc hp), fun hc hp => execRail hw h1 h8 (railBack_up ho hc hp)⟩⟩
  have hs := hsw.imp_right (switched_not h1 h8)
  refine ⟨fun ho => execRail hw h1 h8 (supplyLost_again hs ho),
    fun hc hp ho => execRail hw h1 h8 (supplyLost_core hs (coreRail_iff.mpr hc) hp ho), fun ho => ⟨fun hc hp => ?_, ?_, fun hc => ?_, fun hc => ?_⟩⟩
  · exact execRail hw h1 h8 ((supplyLost_plain hs (.inr hp)).trans (railLost_none (coreRail_iff.mpr hc) ho))
  · rintro rfl
    exact execRail hw h1 h8 ((supplyLost_plain hs (.inl rfl)).trans (railLost_3 ho))
  · exact execRail hw h1 h8 ((supplyLost_plain hs (.inl (by rcases hc with rfl | rfl <;> rfl))).trans (railLost_phy ho hc))
  · exact execRail hw h1 h8 ((supplyLost_plain hs (.inl (by rcases hc with rfl | rfl <;> rfl))).trans (railLost_peat ho hc))

/-- Settles O46: each fault by its guard, each interval's end by what was merged. -/
theorem faultsParityAndMergedEvents : Obligations.FaultsParityAndMergedEvents := by
  unfold Obligations.FaultsParityAndMergedEvents
  refine ⟨fun s hw => ⟨fun hc hp => ⟨execPower hw (coreFault_runs hc hp _), execPower hw (coreFault_runs hc hp _)⟩,
    fun hc => ⟨execPower hw (coreFault_stands hc _), execPower hw (coreFault_stands hc _)⟩,
    fun hr => ⟨fun k hk hn => execC hr (sensorDiverges_first hk hn), execChipOn hr rfl, execChipOn hr rfl,
      fun a v hc hg => execChipOn hr (if_pos (by simp [hc, hg])), fun a v h => execChipOn hr (if_neg (by rcases h with h | h <;> simp [h]))⟩,
    fun h => execPower hw (ashDrain_empty h), fun e rest h hp => execPower hw (ashDrain_writes h hp)⟩, fun s hr => ⟨?_, ?_, ?_, ?_, ?_, ?_, ?_, ?_⟩⟩
  · exact fun p hp => ⟨fun h => execChipOn hr ((if_pos hp).trans (serviceEnd_over h)), fun h => execChipOn hr ((if_pos hp).trans (serviceEnd_posts h))⟩
  · exact fun c hc => ⟨fun h => execChipOn hr ((if_pos hc).trans (objectsEnd_over h)), fun h => execChipOn hr ((if_pos hc).trans (objectsEnd_posts h))⟩
  · exact fun n hn => ⟨fun h => execChipOn hr ((if_pos hn).trans (if_pos h)), fun h => execChipOn hr ((if_pos hn).trans (if_neg (by simp [h])))⟩
  · exact fun h => execChipOn hr (if_pos h)
  · exact fun h => execChipOn hr (if_neg (by simp [h]))
  · exact fun h => execChipOn hr (if_pos h)
  · exact fun h => execChipOn hr (if_neg h)
  · exact fun src hsrc hl => ⟨fun hp => execChipOn hr ((if_pos hsrc).trans ((if_neg (by simp [hl])).trans (if_pos hp))),
      fun hp => execChipOn hr ((if_pos hsrc).trans ((if_neg (by simp [hl])).trans (if_neg (by simp [hp]))))⟩

end Sys2Proof
end

section
/-!
Cold starts, starts and restarts, flash, OTP and the key store (R18, R496 to R513, R554).
-/
namespace Sys2Proof.Machine

section
variable {s : State} {env : StartEnv}

/-! ### Cold starts (R497, R498, R556) -/

/-- The Lichen island's records as a cold start reads them. -/
def recordsRead (env : StartEnv) (s : State) : State :=
  startRecords env (modDev (fun d => { d with resetLow := false }) { s with otp := { s.otp with live := s.otp.fields } })

/-- The units of a cold start after its memory and logic steps. -/
def unitsReady (env : StartEnv) (s : State) : State :=
  startSteps env (startClock env.xtal (modPower (fun w => { w with retry := false }) (recordsRead env s)))

/-- The slots as the ROM has tried them. -/
def slotsSeen (env : StartEnv) (s : State) : State :=
  foldS (trySlots env s.lich.preferred) (fun x t =>
    if slotFails x.2 then raise 138 1 (modSlot x.1 (slotState x.2) t) else modSlot x.1 (slotState x.2) t) s

section
variable (hp : s.dev.phase = .reset) (hc : s.coreRails = true) (hg : s.dev.power = .service → s.svc.gate = true)
include hp hc hg

theorem coldStart_eq (env : StartEnv) : coldStart env s =
    if (!env.xtal && !env.clkAlt) || env.islands.contains 0x24 || env.islands.contains 0x25 then
      modPower (fun w => { w with retry := true }) (recordsRead env s)
    else tryStart env (unitsReady env s) :=
  if_neg (by simpa [hp, hc] using hg)

theorem coldStart_waits (h : (env.xtal = false ∧ env.clkAlt = false) ∨ 0x24 ∈ env.islands ∨ 0x25 ∈ env.islands) :
    coldStart env s = modPower (fun w => { w with retry := true }) (recordsRead env s) :=
  (coldStart_eq hp hc hg env).trans (if_pos (by simpa [or_assoc] using h))

theorem coldStart_tries (hx : env.xtal = true ∨ env.clkAlt = true) (h24 : 0x24 ∉ env.islands) (h25 : 0x25 ∉ env.islands) :
    coldStart env s = tryStart env (unitsReady env s) :=
  (coldStart_eq hp hc hg env).trans (if_neg (by rcases hx with hx | hx <;> simp [hx, h24, h25]))

end

theorem tryStart_retired (h : s.otp.lifeCycle = 3) : tryStart env s = kinStart 5 s := if_pos h

theorem tryStart_unreadable (h : s.otp.lifeCycle ≠ 3) (ho : env.otpOk = false) : tryStart env s = kinStart 6 s :=
  (if_neg h).trans (if_pos (by simp [ho]))

theorem tryStart_worn (h : s.otp.lifeCycle ≠ 3) (ho : env.otpOk = true) (hb : s.bootThreshold ≤ s.lich.bootCount) :
    tryStart env s = kinStart 1 s :=
  (if_neg h).trans ((if_neg (by simp [ho])).trans (if_pos hb))

section
variable (h : s.otp.lifeCycle ≠ 3) (ho : env.otpOk = true) (hb : s.lich.bootCount < s.bootThreshold)
include h ho hb

theorem tryStart_slots : tryStart env s = match (trySlots env s.lich.preferred).find? fun x => slotValid x.2 with
    | some x => startMboter x.1 (startId (startPeat (env.peatOk && !env.banks.contains 24) (slotsSeen env s)))
    | none => kinStart (if (trySlots env s.lich.preferred).all (fun x => x.2 == .noAnswer) then 3 else 2) (slotsSeen env s) :=
  (if_neg h).trans ((if_neg (by simp [ho])).trans (if_neg (by omega)))

theorem tryStart_found {x : Nat × SlotFound} (hf : (trySlots env s.lich.preferred).find? (fun x => slotValid x.2) = some x) :
    tryStart env s = startMboter x.1 (startId (startPeat (env.peatOk && !env.banks.contains 24) (slotsSeen env s))) := by
  rw [tryStart_slots h ho hb, hf]

theorem tryStart_none (hf : (trySlots env s.lich.preferred).find? (fun x => slotValid x.2) = none) : tryStart env s =
    kinStart (if (trySlots env s.lich.preferred).all (fun x => x.2 == .noAnswer) then 3 else 2) (slotsSeen env s) := by
  rw [tryStart_slots h ho hb, hf]

theorem tryStart_silent (hf : (trySlots env s.lich.preferred).find? (fun x => slotValid x.2) = none)
    (ha : (trySlots env s.lich.preferred).all (fun x => x.2 == .noAnswer) = true) : tryStart env s = kinStart 3 (slotsSeen env s) := by
  rw [tryStart_none h ho hb hf, if_pos ha]

theorem tryStart_invalid (hf : (trySlots env s.lich.preferred).find? (fun x => slotValid x.2) = none)
    (ha : (trySlots env s.lich.preferred).all (fun x => x.2 == .noAnswer) = false) : tryStart env s = kinStart 2 (slotsSeen env s) := by
  rw [tryStart_none h ho hb hf, if_neg (Bool.eq_false_iff.mp ha)]

end

/-! ### Starts and restarts (R32, R43, R500, R501, R505) -/

theorem powerOn_off (h : s.dev.phase = .off) : powerOn s = emit (.railEn true) (fromNothing .reset s) := if_pos (by simp [h])

theorem mboterReady_starting (h : s.dev.phase = .starting) (failed : List Nat) : mboterReady failed s =
    postHolds (deliverWaiting (startUnits failed (loadUcode (modDev (fun d => { d with phase := .ready }) s)))) := by
  unfold mboterReady; rw [h]

theorem mboterReady_warm {w : Warm} (h : s.dev.phase = .warm) (hw : s.warm = some w) (failed : List Nat) :
    mboterReady failed s = warmReady w s := by
  unfold mboterReady; rw [h, hw]

theorem mboterReady_ready (h : s.dev.phase = .ready) (failed : List Nat) : mboterReady failed s = s := by
  unfold mboterReady; rw [h]

/-- What rests is brought up as a wake ends. -/
def broughtUp (failed : List Nat) (w : Wake) (s : State) : State :=
  deliverWaiting (cnOn (tkOn (railsUp (startUnits failed (wakeDone w (wakeEngines (modDev (fun d => { d with phase := .ready }) s)))))))

theorem mboterReady_waking {w : Wake} (h : s.dev.phase = .waking) (hw : s.power.wake = some w) (h6 : w.step = 6) (failed : List Nat) :
    mboterReady failed s =
      if w.left == .doze then
        finishKey (keyDev 0xB) stOk (powerResult .run 0xFF 0 w.cause) (resumeTrees s.power.dozeTrees
          (modPower (fun x => { x with dozeTrees := [] }) (broughtUp failed w (if w.left == .service then peatInit true s else s))))
      else broughtUp failed w (if w.left == .service then peatInit true s else s) := by
  unfold mboterReady
  rw [h]
  dsimp only
  rw [hw]
  exact if_pos h6

theorem startLate_starting (h : s.dev.phase = .starting) : startLate s = dieReset false s := by
  unfold startLate; rw [h]; rfl

theorem startLate_ready (h : s.dev.phase = .ready) : startLate s = s := by
  unfold startLate; rw [h]

theorem startLate_waking {w : Wake} (h : s.dev.phase = .waking) (hw : s.power.wake = some w) (h6 : w.step = 6) :
    startLate s = stepTimeout 6 0xFF 300000 (dieReset false s) := by
  unfold startLate
  rw [h]
  dsimp only
  rw [hw]
  exact if_pos h6

theorem warmLate_none (h : s.warm = none) : warmLate s = s := by
  unfold warmLate; rw [h]; split <;> simp_all

theorem warmLate_warm {w : Warm} (h : s.dev.phase = .warm) (hw : s.warm = some w) : warmLate s =
    if w.fellBack then failedStart s
    else if w.update then endTrial (countBoot { s with warm := some { w with slot := w.before, fellBack := true } })
    else countBoot { s with warm := some { w with slot := w.before, fellBack := true } } := by
  unfold warmLate; rw [h, hw]

/-- What an exception that no core handles fails: the warm restart in progress, or the start. -/
def exception (s : State) : State := if s.warm.isSome then warmLate s else startLate s

theorem exec_exception (s : State) : exec .unhandledCoreException s = .next (atPower exception s) := rfl

/-! ### Flash, OTP and the key store (R494 to R496, R509 to R511, R554) -/

theorem eraseEnds_erasing {k : Nat} {h : HostId} {tag : Half} (hb : s.fw.busy = .erasing k h tag) (inTime : Bool) :
    eraseEnds inTime s =
      if inTime then finishOp h tag stOk [] (modSlot k (fun _ => { known := true }) (modFw (fun f => { f with busy := .idle }) s))
      else finishOp h tag stTimeout [] (modSlot k (fun x => { x with st := 3, known := false, passed := false })
        (modFw (fun f => { f with busy := .idle }) s)) := by
  unfold eraseEnds; rw [hb]

theorem eraseEnds_idle (hb : s.fw.busy = .idle) (inTime : Bool) : eraseEnds inTime s = s := by
  unfold eraseEnds; rw [hb]

theorem verifyEnds_idle (hb : s.fw.busy = .idle) (r : VerifyEnd) (version ucode compat : Word) : verifyEnds r version ucode compat s = s := by
  unfold verifyEnds; rw [hb]

/-- A verify of slot `k` ends with a result code. -/
def verifyOver (k : Nat) (h : HostId) (tag : Half) (version ucode compat : Word) (code st : Nat) (s : State) : State :=
  let x := s.slot k
  let ver := if x.known then BitVec.ofNat 32 (field (x.read 8 4) 0 4) else version
  let com := if x.known then BitVec.ofNat 32 (field (x.read 36 4) 0 4) else compat
  finishOp h tag stOk (u8 code ++ [0, 0, 0] ++ u32 ver.toNat)
    (modSlot k (fun x => { x with st := st, version := ver, ucode := ucode, compat := com }) (modFw (fun f => { f with busy := .idle }) s))

theorem verifyEnds_verifying {k : Nat} {h : HostId} {tag : Half} (hb : s.fw.busy = .verifying k h tag) {r : VerifyEnd} {code : Nat}
    (hc : s.verifyCode k r = code) (version ucode compat : Word) :
    verifyEnds r version ucode compat s = verifyOver k h tag version ucode compat code (if code = 0 then 2 else 3) s := by
  unfold verifyEnds; rw [hb, ← hc]; rfl

section
variable {k : Nat} {r : VerifyEnd}

theorem verifyCode_valid (hr : r = .valid) (hs : (s.slot k).spoilt = false)
    (h : (s.slot k).known = false ∨ (headerOk ((s.slot k).read 0 256) = true ∧ s.counterOk ((s.slot k).read 0 256) = true)) :
    s.verifyCode k r = 0 := by
  rcases h with h | ⟨h, h'⟩ <;> simp [State.verifyCode, *]

theorem verifyCode_unknown (hk : (s.slot k).known = false) (hf : r ≠ .badFormat) (h : r = .badSignature ∨ (s.slot k).spoilt = true) :
    s.verifyCode k r = 1 := by
  rcases h with h | h <;> simp [State.verifyCode, *]

theorem verifyCode_known (hk : (s.slot k).known = true) (hh : headerOk ((s.slot k).read 0 256) = true)
    (h : r ≠ .valid ∨ (s.slot k).spoilt = true ∨ s.counterOk ((s.slot k).read 0 256) = false) : s.verifyCode k r = 1 := by
  rcases h with h | h | h <;> simp [State.verifyCode, *]

theorem verifyCode_format
    (h : ((s.slot k).known = false ∧ r = .badFormat) ∨ ((s.slot k).known = true ∧ headerOk ((s.slot k).read 0 256) = false)) :
    s.verifyCode k r = 2 := by
  rcases h with ⟨h, h'⟩ | ⟨h, h'⟩ <;> simp [State.verifyCode, *]

end

theorem otpWritten_none (h : s.otp.writing = none) : otpWritten s = s := by
  unfold otpWritten; rw [h]

theorem otpWritten_field {f : Nat} {v : Word} (h : s.otp.writing = some (.field f v)) : otpWritten s =
    finishKey (keyDev 0xB05) stOk [] { s with otp := { s.otp with writing := none, fields := s.otp.fields.write f v } } := by
  unfold otpWritten; rw [h]

theorem otpWritten_lifeCycle {c : Nat} (h : s.otp.writing = some (.lifeCycle c)) : otpWritten s =
    finishKey (keyDev 0xB03) stOk (u8 c)
      { s with otp := { s.otp with writing := none, lifeCycle := c }, sec := { s.sec with keys := [], zeroising := true } } := by
  unfold otpWritten; rw [h]; rfl

theorem readBack_zeroising (h : s.sec.zeroising = true) (zero : Bool) : readBack zero s =
    if zero then setSqc aSec [12] { s with sec := { s.sec with zeroising := false } } else setSqc aSec [11] (zeroise s) :=
  if_neg (by simp [h])

end
end Sys2Proof.Machine

namespace Sys2Proof
open Machine

/-- Settles O47: the ROM's choice, by what it finds. -/
theorem coldStarts : Obligations.ColdStarts := by
  unfold Obligations.ColdStarts
  refine fun s env hw hp hc hg => ⟨fun h => execPower hw (coldStart_waits hp hc hg h), fun hx h24 h25 => ?_⟩
  have htries := coldStart_tries hp hc hg hx h24 h25
  refine ⟨fun h => execPower hw (htries.trans (tryStart_retired h)), fun h ho => execPower hw (htries.trans (tryStart_unreadable h ho)),
    fun h ho hb => execPower hw (htries.trans (tryStart_worn h ho hb)), fun h ho hb => ?_⟩
  exact ⟨fun x hf => execPower hw (htries.trans (tryStart_found h ho hb hf)), fun hf ha => execPower hw (htries.trans (tryStart_silent h ho hb hf ha)),
    fun hf ha => execPower hw (htries.trans (tryStart_invalid h ho hb hf ha))⟩

/-- Settles O48: each event of a start by the die's phase. -/
theorem startsAndRestarts : Obligations.StartsAndRestarts := by
  unfold Obligations.StartsAndRestarts
  refine fun s => ⟨fun h => congrArg Host.Outcome.next (powerOn_off h), fun hw =>
    ⟨fun failed h => execPower hw (mboterReady_starting h failed), fun failed w h hk => execPower hw (mboterReady_warm h hk failed),
    fun failed w h hk h6 => ?_, fun h failed => ⟨execPower hw (mboterReady_ready h failed), execPower hw (startLate_ready h)⟩,
    fun h => execPower hw (startLate_starting h), fun w h hk h6 => execPower hw (startLate_waking h hk h6),
    fun h => ⟨execPower hw (warmLate_none h), ?_⟩, fun w h hk => ⟨?_, fun hb => ?_, fun hb => ⟨fun hu => ?_, fun hu => ?_⟩⟩,
    fun h => execPower hw (if_pos h), fun h => execPower hw (if_neg (by simp [h])), fun h => execPower hw (if_pos h),
    fun h => execPower hw (if_neg (by simp [h])), rfl⟩⟩
  · have hup := mboterReady_waking h hk h6 failed
    exact ⟨fun hs hd => execPower hw (hup.trans (by simp [hs, hd]; rfl)), fun hs => execPower hw (hup.trans (by simp [hs]; rfl)),
      fun hd => execPower hw (hup.trans (by simp [hd]; rfl))⟩
  · exact (execPower hw (f := exception) (if_neg (by simp [h]))).trans (execPower hw (f := startLate) rfl).symm
  · exact (execPower hw (f := exception) (if_pos (by simp [hk]))).trans (execPower hw (f := warmLate) rfl).symm
  · exact execPower hw ((warmLate_warm h hk).trans (if_pos hb))
  · exact execPower hw ((warmLate_warm h hk).trans ((if_neg (by simp [hb])).trans (if_pos hu)))
  · exact execPower hw ((warmLate_warm h hk).trans ((if_neg (by simp [hb])).trans (if_neg (by simp [hu]))))

/-- Settles O49: each operation's end by what runs; a verify by its result code. -/
theorem flashOtpAndTamper : Obligations.FlashOtpAndTamper := by
  unfold Obligations.FlashOtpAndTamper
  refine fun s hw => ⟨fun k h tag hb => ⟨execPower hw (eraseEnds_erasing hb true), execPower hw (eraseEnds_erasing hb false)⟩,
    fun k h tag r version ucode compat hb => ?_,
    fun hb => ⟨fun b => execPower hw (eraseEnds_idle hb b), fun r v u c => execPower hw (verifyEnds_idle hb r v u c)⟩,
    fun h => execPower hw (otpWritten_none h), fun f v h => execPower hw (otpWritten_field h), fun c h => execPower hw (otpWritten_lifeCycle h),
    execPower hw rfl, fun h => execPower hw (if_pos h), fun h => execPower hw (if_neg (by simp [h])),
    fun h => ⟨execPower hw (readBack_zeroising h true), execPower hw (readBack_zeroising h false)⟩,
    fun h zero => execPower hw (if_pos (by simp [h]))⟩
  exact ⟨fun hr hs hk => execPower hw (verifyEnds_verifying hb (verifyCode_valid hr hs hk) version ucode compat),
    fun hk hf hr => execPower hw (verifyEnds_verifying hb (verifyCode_unknown hk hf hr) version ucode compat),
    fun hk hh hr => execPower hw (verifyEnds_verifying hb (verifyCode_known hk hh hr) version ucode compat),
    fun hk => execPower hw (verifyEnds_verifying hb (verifyCode_format hk) version ucode compat)⟩

end Sys2Proof
end

section
/-!
What answers leave, and the device, binding, semaphore and operation commands (R220 to R233, R256 to R273, R456, R505).
-/
namespace Sys2Proof.Machine

/-! ### Commands with an effect -/

section
variable {op : Nat} {i : Instr} {c : CmdSpec} {h : HostId} {p : Packet} {s s1 : State}

theorem opOf_posted {k t : State} (hk : Posted k t) (g : HostId) (tag : Half) : t.opOf g tag = k.opOf g tag := by
  unfold State.opOf; rw [hk.ops]

/-- A command whose effect drops no command and advances no completion sequence. -/
theorem completesCw {st : Nat} {r : List Byte} (hop : op < 65536) (hi : exec i s = .next (command op c p s))
    (hz : s.dev.power ≠ .doze ∨ dozeLocked.contains op = false) (ha : Safety.Accepted op c h p s)
    (hr : c.run (Safety.cmdOf op h p) (Safety.begun op h p s) = (s1, .final st r)) (hk : Cw (Safety.begun op h p s) s1) :
    Safety.Completes i op h p st r s s1 :=
  completes hop hi hz ha hr (hk.1 h p.tag (by rw [begun_opOf ha]; exact nofun)) ((hk.2 h).trans (congrArg _ (begun_host op h p s h)))

/-- A command whose effect leaves the outstanding commands and the completion sequences. -/
theorem completesCk {st : Nat} {r : List Byte} (hop : op < 65536) (hi : exec i s = .next (command op c p s))
    (hz : s.dev.power ≠ .doze ∨ dozeLocked.contains op = false) (ha : Safety.Accepted op c h p s)
    (hr : c.run (Safety.cmdOf op h p) (Safety.begun op h p s) = (s1, .final st r)) (hk : Ck (Safety.begun op h p s) s1) :
    Safety.Completes i op h p st r s s1 :=
  completes0 hop hi hz ha hr hk.1 (hk.host h)

/-- A command that starts and changes nothing else yet. -/
theorem startsCk {st unit : Nat} {args : List Nat} (hop : op < 65536) (hi : exec i s = .next (command op c p s))
    (hz : s.dev.power ≠ .doze ∨ dozeLocked.contains op = false) (ha : Safety.Accepted op c h p s)
    (hr : c.run (Safety.cmdOf op h p) (Safety.begun op h p s) = (s1, .running st unit args)) (hk : Ck (Safety.begun op h p s) s1) :
    Safety.Starts i h p unit args s s1 :=
  starts hop hi hz ha hr hk.1

end

/-! ### Answers (R220, R223) -/

section
variable {o x : Op} {s : State}

theorem opOf_running (hx : s.opOf o.host o.tag = some x) (st unit : Nat) (args : List Nat) :
    (answer o (.running st unit args) s).opOf o.host o.tag = some { x with unit := unit, args := args } := by
  obtain ⟨hh, ht⟩ := opOf_host hx
  rw [opOf_posted (posted_running st unit args)]
  refine (find_map_key (fun y => ?_) (fun y => ?_) hx).trans ?_
  · split <;> rfl
  · split <;> rfl
  · simp [hh, ht]

theorem beside_running (st unit : Nat) (args : List Nat) : Safety.Beside (answer o (.running st unit args) s) s :=
  Beside.trans (beside_of_posted (posted_running st unit args))
    ⟨rfl, fun g => by cases g <;> rfl, fun _ => rfl, fun i => by cases i <;> rfl, rfl⟩

theorem cseq_running (st unit : Nat) (args : List Nat) (g : HostId) :
    ((answer o (.running st unit args) s).host g).cseq = (s.host g).cseq :=
  ((posted_running st unit args).cseq g).trans (by cases g <;> rfl)

/-- A started command ends with an event and its record. -/
theorem posted_endOp (hs : x.started = true) (st : Nat) (r : List Byte) (s : State) : Posted (ended x x st r s) (endOp x st r s) := by
  have hev : endOp x st r s = postTo 1 x.host (cmdDone x.opcode.toNat x.tag st ((ended x x st r s).host x.host).cseq r) (ended x x st r s) :=
    if_pos hs
  rw [hev]
  exact posted_postTo (Posted.refl _) ..

theorem finishOp_alone {h : HostId} {tag : Half} (hx : s.opOf h tag = some x) (ha : s.aborters h tag = []) (st : Nat) (r : List Byte) :
    finishOp h tag st r s = endOp x st r s := by
  unfold finishOp; rw [hx, ha]; rfl

/-- An event answer ends the command as one whose reply has been sent. -/
theorem posted_event (hx : s.opOf o.host o.tag = some x) (ha : s.aborters o.host o.tag = []) (hs : x.started = true)
    (st : Nat) (r : List Byte) :
    ∃ u, Posted s u ∧ Posted (ended x x st r u) (answer o (.event st r) s) := by
  have hu := posted_reply (Posted.refl s) o.via o.host o.bound o.opcode.toNat o.tag o.flags stAccepted 0 []
  refine ⟨_, hu, ?_⟩
  have hau : (reply o.via o.host o.bound o.opcode.toNat o.tag o.flags stAccepted 0 [] s).aborters o.host o.tag = [] := by
    unfold State.aborters at *; rw [hu.ops]; exact ha
  have hfin := finishOp_alone ((opOf_posted hu o.host o.tag).trans hx) hau st r
  exact (show answer o (.event st r) s = _ from hfin) ▸ posted_endOp hs st r _

end

/-! ### Migrations that a warm restart abandons (R145, R505) -/

section
variable {k s : State}

theorem ck_same {t : State} (hk : Ck k s) (ho : t.ops = s.ops) (ha : t.hostA = s.hostA) (hb : t.hostB = s.hostB) : Ck k t :=
  ck_of hk ho (congrArg _ ha) (congrArg _ hb)

theorem ck_bumpSeq (hk : Ck k s) (a : Nat) : Ck k (bumpSeq a s) := ck_same hk rfl rfl rfl

theorem ck_changeEngine (hk : Ck k s) (e : Nat) (f : Engine → Engine) : Ck k (changeEngine e f s) := by
  have hmod : Ck k (modEngine e f s) := ck_same hk rfl rfl rfl
  exact ck_ite hmod (ck_bumpSeq hmod _)

theorem ck_pinMoved (hk : Ck k s) (g e : Nat) : Ck k (pinMoved g e s) := by
  unfold pinMoved
  split
  · exact ck_ite (ck_setSqc (ck_post hk ..) ..) hk
  · exact hk

theorem ck_settle (hk : Ck k s) (g : Nat) : Ck k (settle g s) := by
  unfold settle
  refine ck_foldS (fun x t ht => ?_) _ hk
  exact ck_ite (ck_same ht rfl rfl rfl) ht

theorem ck_putGroup (hk : Ck k s) (g e : Nat) : Ck k (putGroup g e s) :=
  ck_settle (ck_modStok (ck_changeEngine (ck_pinMoved hk g e) ..) _) g

theorem ck_dropMig (hk : Ck k s) (g : Nat) : Ck k (dropMig g s) := by
  unfold dropMig
  split
  · exact hk
  · exact ck_ite (ck_modStok hk _) (ck_bumpSeq (ck_bumpSeq (ck_modStok hk _) _) _)

theorem ck_capacityLost (hk : Ck k s) : Ck k (capacityLost s) := ck_setSqc (ck_raise hk ..) ..

theorem ck_takeover (hk : Ck k s) (src g : Nat) : Ck k (takeover src g s) := by
  unfold takeover
  dsimp only
  split
  · exact ck_putGroup (ck_modStok (ck_modStok hk _) _) ..
  · exact ck_ite (ck_modStok (ck_modStok hk _) _) (ck_modStok hk _)

theorem ck_abandonMig (hk : Ck k s) (g : Nat) : Ck k (abandonMig g s) := by
  unfold abandonMig
  split
  · exact hk
  · next m _ =>
    have hdrop := ck_setSqc (ck_post (ck_dropMig hk g) 10 (ev8 0x0401 m.src m.dst (s.firstEpid g))) aStok [11]
    exact ck_ite hdrop (ck_ite (ck_capacityLost (ck_takeover hdrop ..)) (ck_takeover hdrop ..))

end

/-! ### Bindings and semaphores (R226, R231, R259) -/

section
variable {op : Nat} {c : CmdSpec} {h : HostId} {p : Packet} {s : State}

/-- A command of a local port has come while the port is enabled. -/
theorem portEnable_accepted (ha : Safety.Accepted op c h p s) : ¬ (p.via = .localPort h ∧ s.portEnable h = false) := by
  obtain ⟨hr, hh, -⟩ := ha
  rintro ⟨hv, hp⟩
  rw [hv] at hh
  simp [State.hears, hr, hp] at hh

theorem bound_setOwner (n o : Nat) (s : State) (g : HostId) : ((setOwner n o s).host g).bound = (s.host g).bound := by
  unfold setOwner
  split
  · rfl
  · dsimp only
    split <;> cases g <;> rfl

theorem bound_takes (l : List Nat) (o : Nat) (g : HostId) : ∀ s : State, ((foldS l (fun n => setOwner n o) s).host g).bound = (s.host g).bound := by
  induction l with
  | nil => exact fun _ => rfl
  | cons n l ih => exact fun s => (ih (setOwner n o s)).trans (bound_setOwner n o s g)

/-- A host that may not hold semaphores without a binding has its time started. -/
def armed (h : HostId) (s : State) : State := if (s.host h).bound.isNone then modHost h (fun r => { r with semTimer := true }) s else s

theorem ck_armed (s : State) (h : HostId) : Ck s (armed h s) := by
  unfold armed
  exact ck_ite (ck_modHost (ck_refl s) h _ fun _ => rfl) (ck_refl s)

/-- The commands of a host that a packet starts have all started where those before it had. -/
theorem begun_started (hs : ∀ o ∈ s.ops, o.host = h → o.started = true) :
    ∀ o ∈ (Safety.begun op h p s).ops, o.host = h → o.started = true := by
  intro o ho hh
  rcases List.mem_append.mp ho with ho | ho
  · exact hs o ho hh
  · rw [List.mem_singleton.mp ho]

/-- The command's own reply goes where it came from, whatever its host is bound to. -/
def unboundReply (h : HostId) (tag : Half) (s : State) : State :=
  { s with ops := s.ops.map fun o => if o.host == h && o.tag == tag then { o with bound := false } else o }

theorem cw_unboundReply {k : State} (hk : Cw k s) (h : HostId) (tag : Half) : Cw k (unboundReply h tag s) :=
  cw_map hk (fun o => if o.host == h && o.tag == tag then { o with bound := false } else o)
    (fun x => by split <;> rfl) (fun x => by split <;> rfl) rfl (fun g => by cases g <;> rfl)

theorem beside_unboundReply (h : HostId) (tag : Half) (s : State) : Safety.Beside (unboundReply h tag s) s :=
  ⟨rfl, fun g => by cases g <;> rfl, fun _ => rfl, fun i => by cases i <;> rfl, rfl⟩

end

/-! ### Power states (R456, R532) -/

/-- The device is in the power state that DEV_POWER_STATE asks for. -/
def powerAlready (t : Nat) (s : State) : Prop := (t = 0 ∧ (s.dev.power = .run ∨ s.dev.power = .trim)) ∨ (t = 2 ∧ s.dev.power = .doze)

/-- PWRM_GUARD forbids the power state that DEV_POWER_STATE asks for. -/
def powerGuarded (t : Nat) (s : State) : Prop :=
  (t = 2 ∧ (s.cfgAt aPwrmGuard).getLsbD 0 = true) ∨ (t = 3 ∧ (s.cfgAt aPwrmGuard).getLsbD 1 = true)

theorem powerGuarded_iff {t : Nat} {s : State} : powerGuarded t s ↔
    (t == 2 && (s.cfgAt aPwrmGuard).getLsbD 0 || t == 3 && (s.cfgAt aPwrmGuard).getLsbD 1) = true := by
  simp [powerGuarded]

/-- The entry that DEV_POWER_STATE asks for. -/
def entryOf (x : Cmd) : Entry :=
  { target := byteAt x.params 0, wakeEnable := byteAt x.params 1, wakeAfter := field x.params 4 4, host := x.host, tag := x.tag }

section
variable (x : Cmd) (s : State)

theorem powerState_entry (ht : byteAt x.params 0 = 0) (he : s.power.entry.isSome = true) :
    devPowerStateCmd.run x s =
      if (wakeTrigger 1 s).power.wake.isSome then (wakeTrigger 1 s, .running stAccepted (keyDev 0xB) [])
      else (wakeTrigger 1 s, .final stAlready (powerResult s.dev.power 0xFF 0 0)) :=
  if_pos (by simp [ht, he])

theorem powerState_locked (h : (byteAt x.params 0 ≠ 0 ∧ s.power.entry.isSome = true) ∨ (s.power.entry = none ∧ s.power.wake.isSome = true)) :
    devPowerStateCmd.run x s = (s, .final stLocked (powerResult s.dev.power 0xFF 0 0)) := by
  rcases h with ⟨h, h'⟩ | ⟨h, h'⟩
  · exact (if_neg (by simp [h])).trans (if_pos (by simp [h']))
  · exact (if_neg (by simp [h])).trans (if_pos (by simp [h']))

variable (he : s.power.entry = none) (hw : s.power.wake = none)
include he hw

theorem powerState_already (h : powerAlready (byteAt x.params 0) s) :
    devPowerStateCmd.run x s = (s, .final stAlready (powerResult s.dev.power 0xFF 0 0)) :=
  (if_neg (by simp [he])).trans ((if_neg (by simp [he, hw])).trans (if_pos (by simpa [powerAlready] using h)))

theorem powerState_new (h : ¬ powerAlready (byteAt x.params 0) s) : devPowerStateCmd.run x s =
    if byteAt x.params 0 == 2 && (s.cfgAt aPwrmGuard).getLsbD 0 || byteAt x.params 0 == 3 && (s.cfgAt aPwrmGuard).getLsbD 1 then
      (s, .final stLocked (powerResult s.dev.power 0xFF 0 0))
    else if byteAt x.params 0 = 0 then (startWake .doze 1 s, .running stAccepted (keyDev 0xB) [])
    else (modPower (fun w => { w with entry := some (entryOf x) }) s, .running stAccepted (keyDev 0xB) []) :=
  (if_neg (by simp [he])).trans ((if_neg (by simp [he, hw])).trans (if_neg (by simpa [powerAlready] using h)))

theorem powerState_guarded (h : ¬ powerAlready (byteAt x.params 0) s) (hg : powerGuarded (byteAt x.params 0) s) :
    devPowerStateCmd.run x s = (s, .final stLocked (powerResult s.dev.power 0xFF 0 0)) :=
  (powerState_new x s he hw h).trans (if_pos (powerGuarded_iff.mp hg))

theorem powerState_wakes (h : ¬ powerAlready (byteAt x.params 0) s) (ht : byteAt x.params 0 = 0) :
    devPowerStateCmd.run x s = (startWake .doze 1 s, .running stAccepted (keyDev 0xB) []) :=
  (powerState_new x s he hw h).trans ((if_neg (by simp [ht])).trans (if_pos ht))

theorem powerState_enters (h : ¬ powerAlready (byteAt x.params 0) s) (hg : ¬ powerGuarded (byteAt x.params 0) s)
    (ht : byteAt x.params 0 = 2 ∨ byteAt x.params 0 = 3) :
    devPowerStateCmd.run x s = (modPower (fun w => { w with entry := some (entryOf x) }) s, .running stAccepted (keyDev 0xB) []) :=
  (powerState_new x s he hw h).trans ((if_neg (mt powerGuarded_iff.mpr hg)).trans (if_neg (by omega)))

end

section
variable {h : HostId} {p : Packet} {s : State}

/-- A state made from the one in which a command runs, where only the power record is new. -/
theorem beside_begun_power (op : Nat) (f : Power → Power) :
    Safety.Beside (modPower f (Safety.begun op h p s)) { s with power := f s.power } :=
  ⟨rfl, fun g => by cases g <;> rfl, fun _ => rfl, fun i => by cases i <;> rfl, rfl⟩

variable (ha : Safety.Accepted 0x000B devPowerStateCmd h p s)
include ha

theorem devPowerState_ends (ht : byteAt p.params 0 = 0) (he : s.power.entry.isSome = true) :
    ((wakeTrigger 1 (Safety.begun 0x000B h p s)).power.wake.isSome = true →
      Safety.Answers (.devPowerState p) 0x000B h p s (.running stAccepted (keyDev 0xB) []) (wakeTrigger 1 (Safety.begun 0x000B h p s))) ∧
    ((wakeTrigger 1 (Safety.begun 0x000B h p s)).power.wake = none →
      Safety.Answers (.devPowerState p) 0x000B h p s (.final stAlready (powerResult s.dev.power 0xFF 0 0))
        (wakeTrigger 1 (Safety.begun 0x000B h p s))) := by
  have hrun := powerState_entry (Safety.cmdOf 0x000B h p) (Safety.begun 0x000B h p s) ht he
  exact ⟨fun hk => answers (by decide) rfl (.inr rfl) ha (hrun.trans (if_pos hk)),
    fun hk => answers (by decide) rfl (.inr rfl) ha (hrun.trans (if_neg (by rw [hk]; exact nofun)))⟩

theorem devPowerState_reads {st : Nat} {r : List Byte}
    (hr : devPowerStateCmd.run (Safety.cmdOf 0x000B h p) (Safety.begun 0x000B h p s) = (Safety.begun 0x000B h p s, .final st r)) :
    Safety.Completes (.devPowerState p) 0x000B h p st r s s :=
  reads (by decide) rfl (.inr rfl) ha hr

theorem devPowerState_wakes (he : s.power.entry = none) (hw : s.power.wake = none) (hn : ¬ powerAlready (byteAt p.params 0) s)
    (ht : byteAt p.params 0 = 0) :
    Safety.Starts (.devPowerState p) h p (keyDev 0xB) [] s (startWake .doze 1 (Safety.begun 0x000B h p s)) :=
  startsCk (by decide) rfl (.inr rfl) ha (powerState_wakes (Safety.cmdOf 0x000B h p) (Safety.begun 0x000B h p s) he hw hn ht)
    (ck_same (ck_refl _) rfl rfl rfl)

theorem devPowerState_enters (he : s.power.entry = none) (hw : s.power.wake = none) (hn : ¬ powerAlready (byteAt p.params 0) s)
    (hg : ¬ powerGuarded (byteAt p.params 0) s) (ht : byteAt p.params 0 = 2 ∨ byteAt p.params 0 = 3) :
    Safety.Starts (.devPowerState p) h p (keyDev 0xB) [] s
      { s with power := { s.power with entry := some (entryOf (Safety.cmdOf 0x000B h p)) } } :=
  start_to (startsCk (by decide) rfl (.inr rfl) ha
    (powerState_enters (Safety.cmdOf 0x000B h p) (Safety.begun 0x000B h p s) he hw hn hg ht) (ck_same (ck_refl _) rfl rfl rfl))
    (beside_begun_power 0x000B _)

end

/-! ### Device commands (R271 to R273) -/

section
variable {h : HostId} {p : Packet} {s : State}

theorem devStatus_answers (ha : Safety.Accepted 0x0002 devStatusCmd h p s) :
    Safety.Completes (.devStatus p) 0x0002 h p stOk
      (u8 s.dev.power.code ++ u8 0 ++ u8 s.lich.bootCount ++ u8 s.maxUnack ++ u16 s.dev.id.toNat ++ u16 s.activeSrcs.length ++
        u32 s.uptime.toNat ++ sBytes 2 s.ledger.tHot ++ u8 (b2n s.feedA.present + 2 * b2n s.feedB.present + 4 * b2n s.svc.vbus) ++
        u8 (b2n s.board.seated + 2 * b2n (s.feedA.retry || s.feedB.retry)) ++ u32 s.offMask ++ u32 s.lich.insertions.toNat) s s := by
  have hphase : (if s.dev.phase == .kindling then s.lich.kindling else 0) = 0 := if_neg (by rw [ha.1]; decide)
  rw [← hphase]
  exact reads (by decide) rfl (.inr rfl) ha rfl

theorem devWarmRestart_starts (ha : Safety.Accepted 0x0007 devWarmRestartCmd h p s) (hs : s.stageRuns = false) :
    let b := foldS s.moving (fun m => abandonMig m.group) (Safety.begun 0x0007 h p s)
    Safety.Starts (.devWarmRestart p) h p (keyDev 0x7) [] s
      { b with dev := { b.dev with phase := .warm },
               warm := some { slot := s.fw.running, before := s.fw.running, update := false } } :=
  startsCk (by decide) rfl (.inr rfl) ha (if_neg (show ¬ s.stageRuns = true by simp [hs]))
    (ck_same (ck_foldS (fun m _ ht => ck_abandonMig ht m.group) _ (ck_refl _)) rfl rfl rfl)

end

/-! ### HOST_BIND (R226, R231) -/

section
variable {h : HostId} {p : Packet} {s : State}

/-- The watchdog time that HOST_BIND gives. -/
def watchdogOf (p : Packet) : Nat := if field p.params 0 2 = 0 then 100 else field p.params 0 2

theorem not_bound_begun (hb : (s.host h).bound = none) : ¬ ((Safety.begun 0x0008 h p s).host h).bound.isSome = true := by
  rw [begun_host, hb]; exact nofun

variable (ha : Safety.Accepted 0x0008 hostBindCmd h p s)
include ha

theorem hostBind_again (hk : byteAt p.params 2 = 0) (hb : (s.host h).bound.isSome = true) :
    let b1 := modHost h (fun r => { r with wdMs := watchdogOf p }) (Safety.begun 0x0008 h p s)
    Safety.Completes (.hostBind p) 0x0008 h p stAlready (b1.bindAnswer h) s b1 :=
  completesCk (by decide) rfl (.inr rfl) ha
    ((if_pos hk).trans ((if_neg (portEnable_accepted ha)).trans (if_pos (by rw [begun_host]; exact hb))))
    (ck_modHost (ck_refl _) h _ fun _ => rfl)

theorem hostBind_binds (hk : byteAt p.params 2 = 0) (hb : (s.host h).bound = none) :
    let b1 := bindHost h p.via (watchdogOf p) (Safety.begun 0x0008 h p s)
    Safety.Completes (.hostBind p) 0x0008 h p stOk (b1.bindAnswer h) s b1 :=
  completesCk (by decide) rfl (.inr rfl) ha
    ((if_pos hk).trans ((if_neg (portEnable_accepted ha)).trans (if_neg (not_bound_begun hb))))
    (ck_bindHost (ck_refl _) ..)

theorem hostBind_unbound (hk : byteAt p.params 2 ≠ 0) (hb : (s.host h).bound = none) :
    Safety.Completes (.hostBind p) 0x0008 h p stAlready ((Safety.begun 0x0008 h p s).bindAnswer h) s s :=
  reads (by decide) rfl (.inr rfl) ha ((if_neg hk).trans (if_neg (not_bound_begun hb)))

theorem hostBind_gives_up (hk : byteAt p.params 2 ≠ 0) (hb : (s.host h).bound.isSome = true)
    (hs : ∀ o ∈ s.ops, o.host = h → o.started = true) :
    let b1 := loseBinding h 2 (Safety.begun 0x0008 h p s)
    Safety.Completes (.hostBind p) 0x0008 h p stOk (b1.bindAnswer h) s b1 :=
  compl_to (completesCw (s1 := unboundReply h p.tag (loseBinding h 2 (Safety.begun 0x0008 h p s))) (by decide) rfl (.inr rfl) ha
      ((if_neg hk).trans (if_pos (by rw [begun_host]; exact hb)))
      (cw_unboundReply (cw_loseBinding (cw_refl _) h (begun_started hs)) h p.tag))
    (beside_unboundReply ..)

end

/-! ### SEM_TAKE and SEM_GIVE (R259) -/

section
variable {h : HostId} {p : Packet} {s : State}

theorem semTake_busy (ha : Safety.Accepted 0x0009 semTakeCmd h p s)
    (hb : (bitsOf 32 (field p.params 0 4)).any (fun n => (s.sem n).owner == hOwner (hOther h)) = true) :
    Safety.Completes (.semTake p) 0x0009 h p stSemBusy (s.semAnswer h) s s :=
  reads (by decide) rfl (.inr rfl) ha (if_pos hb)

theorem semTake_takes (ha : Safety.Accepted 0x0009 semTakeCmd h p s)
    (hb : (bitsOf 32 (field p.params 0 4)).any (fun n => (s.sem n).owner == hOwner (hOther h)) = false) :
    let b1 := armed h (foldS (bitsOf 32 (field p.params 0 4)) (fun n => setOwner n (hOwner h)) (Safety.begun 0x0009 h p s))
    Safety.Completes (.semTake p) 0x0009 h p stOk (b1.semAnswer h) s b1 := by
  have hbound := bound_takes (bitsOf 32 (field p.params 0 4)) (hOwner h) h (Safety.begun 0x0009 h p s)
  refine completesCw (by decide) rfl (.inr rfl) ha ((if_neg (Bool.eq_false_iff.mp hb)).trans ?_)
    (cw_ck (cw_foldS (fun n t ht => cw_setOwner ht n _) _ (cw_refl _)) (ck_armed _ h))
  unfold armed
  rw [hbound]
  rfl

theorem semGive_gives (ha : Safety.Accepted 0x000A semGiveCmd h p s) :
    let b1 := foldS ((bitsOf 32 (field p.params 0 4)).filter fun n => (s.sem n).owner == hOwner h) (fun n => setOwner n 0)
      (Safety.begun 0x000A h p s)
    Safety.Completes (.semGive p) 0x000A h p stOk (b1.semAnswer h) s b1 :=
  completesCw (by decide) rfl (.inr rfl) ha rfl (cw_foldS (fun n t ht => cw_setOwner ht n 0) _ (cw_refl _))

end

/-! ### OP_QUERY and OP_ABORT (R223, R263, R264) -/

section
variable (x : Cmd) (s : State)

theorem opQuery_outstanding {o : Op} (ho : s.opOf (hostOf (byteAt x.params 0)) (BitVec.ofNat 16 (field x.params 2 2)) = some o) :
    opQueryCmd.run x s = (s, .final stOk ([0, 0] ++ u16 o.opcode.toNat ++ List.replicate 8 0)) := by
  unfold opQueryCmd; dsimp only; rw [ho]

theorem opQuery_recorded {d : DoneRec} (ho : s.opOf (hostOf (byteAt x.params 0)) (BitVec.ofNat 16 (field x.params 2 2)) = none)
    (hd : (s.host (hostOf (byteAt x.params 0))).done.find? (fun d => d.tag == BitVec.ofNat 16 (field x.params 2 2)) = some d) :
    opQueryCmd.run x s = (s, .final stOk (u8 (if d.result.isSome then 1 else 2) ++ [0] ++ u16 d.opcode.toNat ++ u16 d.status.toNat ++
      u16 (d.result.getD []).length ++ u32 d.cseq.toNat ++ (d.result.getD []).take 228)) := by
  unfold opQueryCmd; dsimp only; rw [ho, hd]

/-- The tag that OP_ABORT names. -/
def abortTag (params : List Byte) : Half := BitVec.ofNat 16 (field params 0 2)

variable (hne : abortTag x.params ≠ x.tag)
include hne

theorem runAbort_recorded {d : DoneRec} (ho : s.opOf x.host (abortTag x.params) = none)
    (hd : (s.host x.host).done.find? (fun d => d.tag == abortTag x.params) = some d) :
    runAbort x s = (s, .final stAlready (u16 d.status.toNat ++ [0, 0] ++ u32 d.cseq.toNat)) := by
  unfold abortTag at *; unfold runAbort; dsimp only; rw [if_neg hne, ho, hd]

theorem runAbort_unknown (ho : s.opOf x.host (abortTag x.params) = none)
    (hd : (s.host x.host).done.find? (fun d => d.tag == abortTag x.params) = none) :
    runAbort x s = (s, .final stBadParam []) := by
  unfold abortTag at *; unfold runAbort; dsimp only; rw [if_neg hne, ho, hd]

theorem runAbort_waits {o : Op} (ho : s.opOf x.host (abortTag x.params) = some o) (hs : o.started = true) (hn : abortNow o s = none) :
    runAbort x s = (s, .running stAccepted 0 [(abortTag x.params).toNat]) := by
  unfold abortTag at *; unfold runAbort; dsimp only; rw [if_neg hne, ho]; dsimp only; rw [hs, hn]; rfl

theorem runAbort_notStarted {o : Op} (ho : s.opOf x.host (abortTag x.params) = some o) (hs : o.started = false) :
    runAbort x s = (abortOp x.host (abortTag x.params) [] s, .final stOk []) := by
  unfold abortTag at *; unfold runAbort; dsimp only; rw [if_neg hne, ho]; dsimp only; rw [hs]; rfl

end

/-- An abort of a command that has not started leaves what its end leaves. -/
theorem posted_abortOp {h : HostId} {tag : Half} {o : Op} {s : State} (ho : s.opOf h tag = some o) (hs : o.started = false)
    (ha : s.aborters h tag = []) : Posted (ended o o stAborted [] s) (abortOp h tag [] s) := by
  have hend : endOp o stAborted [] s = reply o.via o.host o.bound o.opcode.toNat o.tag o.flags stAborted
      ((ended o o stAborted [] s).host o.host).cseq [] (takeItem o (ended o o stAborted [] s)) := if_neg (by simp [hs])
  have heq : abortOp h tag [] s = endOp o stAborted [] s := by
    unfold abortOp; rw [ho]; dsimp only; rw [ha]
  rw [heq, hend]
  exact posted_reply (posted_takeItem (Posted.refl _) o) ..

theorem ended_ops (o x : Op) (st : Nat) (r : List Byte) (s : State) : (ended o x st r s).ops = (dropOp o.host o.tag s).ops := by
  unfold ended record countForced
  split <;> simp

/-- The end of one command leaves the others outstanding. -/
theorem ended_opOf_other {o x : Op} {st : Nat} {r : List Byte} {s : State} {tag : Half} (hne : o.tag ≠ tag) :
    (ended o x st r s).opOf o.host tag = s.opOf o.host tag := by
  unfold State.opOf
  rw [ended_ops]
  exact find_filter_other hne

/-- Of a state with only the records of `h` and its outstanding commands: after the end of `o` and then of `y`, both of host `h`. -/
theorem ended_two {o y y' : Op} {u : State} {s : State} (hh : o.host = y.host) (hne : o.tag ≠ y.tag)
    (hu : Posted (ended o o stAborted [] s) u) (st : Nat) :
    (ended y y' st [] u).opOf y.host o.tag = none ∧ ((ended y y' st [] u).host y.host).done.take 2 =
      [{ tag := y.tag, opcode := BitVec.ofNat 16 y.opcode.toNat, status := BitVec.ofNat 16 st, cseq := (s.host y.host).cseq + 2,
         result := some [] },
       { tag := o.tag, opcode := BitVec.ofNat 16 o.opcode.toNat, status := BitVec.ofNat 16 stAborted, cseq := (s.host y.host).cseq + 1,
         result := some [] }] := by
  refine ⟨?_, ?_⟩
  · rw [ended_opOf_other hne.symm, opOf_posted hu, ← hh]
    exact ended_opOf ..
  · rw [ended_done, hu.done, hu.cseq, ← hh, ended_done, keep_two, (ended_host o o stAborted [] s).1, BitVec.add_assoc]
    rfl

section
variable {h : HostId} {p : Packet} {s : State}

theorem opAbort_notStarted (ha : Safety.Accepted 0x0005 opAbortCmd h p s) {o : Op} (hne : abortTag p.params ≠ p.tag)
    (ho : (Safety.begun 0x0005 h p s).opOf h (abortTag p.params) = some o) (hs : o.started = false)
    (hab : (Safety.begun 0x0005 h p s).aborters h (abortTag p.params) = []) :
    ∃ t, exec (.opAbort p) s = .next (finish t) ∧ t.opOf h (abortTag p.params) = none ∧ t.opOf h p.tag = none ∧
      (t.host h).done.take 2 =
        [{ tag := p.tag, opcode := 0x0005#16, status := BitVec.ofNat 16 stOk, cseq := (s.host h).cseq + 2, result := some [] },
         { tag := abortTag p.params, opcode := o.opcode, status := BitVec.ofNat 16 stAborted, cseq := (s.host h).cseq + 1,
           result := some [] }] := by
  obtain ⟨hh, ht⟩ := opOf_host ho
  have hu := posted_abortOp ho hs hab
  have hy : (abortOp h (abortTag p.params) [] (Safety.begun 0x0005 h p s)).opOf h p.tag ≠ none := by
    have hother := ended_opOf_other (x := o) (st := stAborted) (r := []) (s := Safety.begun 0x0005 h p s) (ht ▸ hne)
    rw [hh] at hother
    rw [opOf_posted hu, hother, begun_opOf ha]
    exact nofun
  obtain ⟨y, hy⟩ := Option.ne_none_iff_exists'.mp hy
  have hfin := answer_final (o := newOp 0x0005 h p s) hy stOk []
  have hexec := answers (i := .opAbort p) (by decide) rfl (.inr rfl) ha
    (runAbort_notStarted (Safety.cmdOf 0x0005 h p) (Safety.begun 0x0005 h p s) hne ho hs)
  obtain ⟨hgone, hdone⟩ := ended_two (y := newOp 0x0005 h p s) (y' := y) hh (ht ▸ hne) hu stOk
  refine ⟨_, hexec, ?_, ?_, ?_⟩
  · rw [ht] at hgone
    exact (opOf_posted hfin ..).trans hgone
  · exact (opOf_posted hfin ..).trans (ended_opOf (newOp 0x0005 h p s) ..)
  · refine (congrArg (List.take 2) (hfin.done h)).trans (hdone.trans ?_)
    rw [ht, BitVec.ofNat_toNat, BitVec.ofNat_toNat, BitVec.setWidth_eq, BitVec.setWidth_eq, ← begun_host 0x0005 h p s h]
    rfl

theorem opAbort_reads (ha : Safety.Accepted 0x0005 opAbortCmd h p s) {st : Nat} {r : List Byte}
    (hr : runAbort (Safety.cmdOf 0x0005 h p) (Safety.begun 0x0005 h p s) = (Safety.begun 0x0005 h p s, .final st r)) :
    Safety.Completes (.opAbort p) 0x0005 h p st r s s :=
  reads (by decide) rfl (.inr rfl) ha hr

theorem opAbort_waits (ha : Safety.Accepted 0x0005 opAbortCmd h p s) {o : Op} (hne : abortTag p.params ≠ p.tag)
    (ho : (Safety.begun 0x0005 h p s).opOf h (abortTag p.params) = some o) (hs : o.started = true)
    (hn : abortNow o (Safety.begun 0x0005 h p s) = none) :
    Safety.Starts (.opAbort p) h p 0 [(abortTag p.params).toNat] s s :=
  start_to (startsCk (by decide) rfl (.inr rfl) ha
    (runAbort_waits (Safety.cmdOf 0x0005 h p) (Safety.begun 0x0005 h p s) hne ho hs hn) (ck_refl _)) (beside_begun ..)

theorem opQuery_reads (ha : Safety.Accepted 0x0006 opQueryCmd h p s) {st : Nat} {r : List Byte}
    (hr : opQueryCmd.run (Safety.cmdOf 0x0006 h p) (Safety.begun 0x0006 h p s) = (Safety.begun 0x0006 h p s, .final st r)) :
    Safety.Completes (.opQuery p) 0x0006 h p st r s s :=
  reads (by decide) rfl (.inr rfl) ha hr

end

end Sys2Proof.Machine

namespace Sys2Proof
open Machine

/-- Settles O51: a final answer's record, a running one's command, an event's completion. -/
theorem answersComplete : Obligations.AnswersComplete := by
  unfold Obligations.AnswersComplete
  refine fun o x s hx => ⟨fun st r => ?_, fun st unit args => ⟨opOf_running hx st unit args, beside_running st unit args, cseq_running st unit args _⟩,
    fun st r ha hs => ?_⟩
  · have hp := answer_final hx st r
    obtain ⟨hc, hd⟩ := ended_host o x st r s
    refine ⟨(hp.cseq _).trans hc, ?_, (opOf_posted hp _ _).trans (ended_opOf o x st r s), beside_final hx st r⟩
    rw [hp.done, hd]
    simp
  · obtain ⟨u, hu, hp⟩ := posted_event hx ha hs st r
    obtain ⟨hh, ht⟩ := opOf_host hx
    obtain ⟨hc, hd⟩ := ended_host x x st r u
    have hdrop := ended_opOf x x st r u
    rw [hh] at hc hd
    rw [hh, ht] at hdrop
    refine ⟨(hp.cseq _).trans (hc.trans (by rw [hu.cseq])), ?_, (opOf_posted hp _ _).trans hdrop⟩
    rw [hp.done, hd, hu.cseq]
    simp

/-- Settles O50: each command by its handler's branch; an abort of a command that has not started by its two records. -/
theorem deviceAndOperationCommands : Obligations.DeviceAndOperationCommands := by
  unfold Obligations.DeviceAndOperationCommands
  refine ⟨fun s h p => ⟨fun ha => reads (by decide) rfl (.inr rfl) ha rfl, fun ha => devStatus_answers ha, ?_,
    fun ha => reads (by decide) rfl (.inr rfl) ha rfl,
    fun ha => ⟨fun hs => reads (by decide) rfl (.inr rfl) ha (if_pos hs), fun hs => devWarmRestart_starts ha hs⟩, ?_⟩,
    fun s h p => ⟨fun ha => ?_, fun ha => ⟨fun hb => semTake_busy ha hb, fun hb => semTake_takes ha hb⟩, fun ha => semGive_gives ha,
      fun ha => ?_, fun ha => ?_⟩⟩
  · intro id ha
    exact ⟨fun hsame => reads (by decide) rfl (.inr rfl) ha (if_pos hsame),
      fun hnew => completesCk (by decide) rfl (.inr rfl) ha (if_neg hnew) (ck_setDeviceId (ck_refl _) id)⟩
  · intro t result guard already ha
    exact ⟨fun ht he => devPowerState_ends ha ht he, fun hl => devPowerState_reads ha (powerState_locked _ _ hl),
      fun he hw => ⟨fun hr => devPowerState_reads ha (powerState_already _ _ he hw hr),
        fun hr hg => devPowerState_reads ha (powerState_guarded _ _ he hw hr hg), fun hr ht => devPowerState_wakes ha he hw hr ht,
        fun hr hg ht => devPowerState_enters ha he hw hr hg ht⟩⟩
  · exact ⟨fun hk hb => hostBind_again ha hk hb, fun hk hb => hostBind_binds ha hk hb, fun hk hb => hostBind_unbound ha hk hb,
      fun hk hb hs => hostBind_gives_up ha hk hb hs⟩
  · refine ⟨fun o ho => opQuery_reads ha (opQuery_outstanding (Safety.cmdOf 0x0006 h p) _ ho), fun d ho hd => ?_⟩
    exact opQuery_reads ha (opQuery_recorded (Safety.cmdOf 0x0006 h p) _ ho (by rw [begun_host]; exact hd))
  · refine ⟨fun d hne ho hd => ?_, fun hne ho hd => ?_, fun o hne ho hs hn => opAbort_waits ha hne ho hs hn,
      fun o hne ho hs hab => opAbort_notStarted ha hne ho hs hab⟩
    · exact opAbort_reads ha (runAbort_recorded (Safety.cmdOf 0x0005 h p) _ hne ho (by rw [begun_host]; exact hd))
    · exact opAbort_reads ha (runAbort_unknown (Safety.cmdOf 0x0005 h p) _ hne ho (by rw [begun_host]; exact hd))

end Sys2Proof
end

section
/-!
The port commands (R54, R70, R274 to R276, R385).
-/
namespace Sys2Proof.Machine

/-! ### The owner of what a command names (R221) -/

/-- Check 10 of acceptance: a command without force names only what nobody else owns. -/
theorem accepted_owners {op : Nat} {c : CmdSpec} {h : HostId} {p : Packet} {s : State} (ha : Safety.Accepted op c h p s)
    {o : Nat} (ho : o ∈ c.owners p.params s) : claimLost (Safety.cmdOf op h p) o = false := by
  obtain ⟨-, -, -, -, -, -, -, ha, -⟩ := ha
  unfold State.acceptStatus at ha
  simp only [ite_some_none] at ha
  obtain ⟨-, -, -, -, -, -, -, -, -, hown, -⟩ := ha
  unfold claimLost
  cases hf : p.flags.getLsbD 3 with
  | true => exact congrArg (fun b => !b && o != 0 && o != hOwner h) hf
  | false =>
    rw [hf] at hown
    have hone : ¬ (o != 0 && o != hOwner h) = true := fun he => hown (List.any_eq_true.mpr ⟨o, ho, he⟩)
    simpa [Safety.cmdOf] using fun _ => hone

section
variable {h : HostId} {p : Packet} {s : State}

/-! ### PORT_ENABLE and PORT_DISABLE (R276) -/

section
variable (ha : Safety.Accepted 0x0100 portEnableCmd h p s)
include ha

theorem portEnable_shed (hs : (bitsOf 32 (field p.params 0 4)).any (fun k => (s.port k).shed) = true) :
    Safety.Answers (.portEnable p) 0x0100 h p s (.final stBudget []) (Safety.begun 0x0100 h p s) :=
  answers (by decide) rfl (.inr rfl) ha (if_pos hs)

variable (hs : (bitsOf 32 (field p.params 0 4)).any (fun k => (s.port k).shed) = false)
include hs

theorem portEnable_isolated (hi : (bitsOf 32 (field p.params 0 4)).any (fun k => (s.port k).sw == .isolated || s.pgIsolated k) = true) :
    Safety.Answers (.portEnable p) 0x0100 h p s (.final stLocked []) (Safety.begun 0x0100 h p s) :=
  answers (by decide) rfl (.inr rfl) ha ((if_neg (Bool.eq_false_iff.mp hs)).trans (if_pos hi))

variable (hi : (bitsOf 32 (field p.params 0 4)).any (fun k => (s.port k).sw == .isolated || s.pgIsolated k) = false)
include hi

theorem portEnable_already (ht : ((bitsOf 32 (field p.params 0 4)).filter fun k => (s.port k).bus == .disabled) = []) :
    Safety.Answers (.portEnable p) 0x0100 h p s (.final stAlready (u32 0)) (Safety.begun 0x0100 h p s) :=
  answers (by decide) rfl (.inr rfl) ha
    ((if_neg (Bool.eq_false_iff.mp hs)).trans ((if_neg (Bool.eq_false_iff.mp hi)).trans (if_pos (List.isEmpty_iff.mpr ht))))

theorem portEnable_enables (ht : ((bitsOf 32 (field p.params 0 4)).filter fun k => (s.port k).bus == .disabled) ≠ []) :
    let todo := (bitsOf 32 (field p.params 0 4)).filter fun k => (s.port k).bus == .disabled
    Safety.Answers (.portEnable p) 0x0100 h p s (.final stOk (u32 (maskOf todo))) (foldS todo toUnattached (Safety.begun 0x0100 h p s)) :=
  answers (by decide) rfl (.inr rfl) ha
    ((if_neg (Bool.eq_false_iff.mp hs)).trans ((if_neg (Bool.eq_false_iff.mp hi)).trans (if_neg (mt List.isEmpty_iff.mp ht))))

end

section
variable (ha : Safety.Accepted 0x0101 portDisableCmd h p s)
include ha

theorem portDisable_already
    (ht : ((bitsOf 32 (field p.params 0 4)).filter fun k => (s.port k).bus != .disabled || (s.port k).shed) = []) :
    Safety.Answers (.portDisable p) 0x0101 h p s (.final stAlready (u32 0)) (Safety.begun 0x0101 h p s) :=
  answers (by decide) rfl (.inr rfl) ha (if_pos (List.isEmpty_iff.mpr ht))

theorem portDisable_disables
    (ht : ((bitsOf 32 (field p.params 0 4)).filter fun k => (s.port k).bus != .disabled || (s.port k).shed) ≠ []) :
    let todo := (bitsOf 32 (field p.params 0 4)).filter fun k => (s.port k).bus != .disabled || (s.port k).shed
    Safety.Answers (.portDisable p) 0x0101 h p s (.final stOk (u32 (maskOf todo))) (foldS todo disablePort (Safety.begun 0x0101 h p s)) :=
  answers (by decide) rfl (.inr rfl) ha (if_neg (mt List.isEmpty_iff.mp ht))

end

/-! ### PORT_BUS_RESET -/

section
variable (ha : Safety.Accepted 0x0103 portBusResetCmd h p s) (hz : s.dev.power ≠ .doze)
include ha hz

theorem portBusReset_locked (hr : (s.port (byteAt p.params 0)).bus ≠ .running) (he : (s.port (byteAt p.params 0)).bus ≠ .error) :
    Safety.Answers (.portBusReset p) 0x0103 h p s (.final stLocked []) (Safety.begun 0x0103 h p s) :=
  answers (by decide) rfl (.inl hz) ha (if_pos (by simp [hr, he]))

theorem portBusReset_starts (hr : (s.port (byteAt p.params 0)).bus = .running ∨ (s.port (byteAt p.params 0)).bus = .error)
    (hb : s.busyPort (byteAt p.params 0) = false) (hpd : (s.port (byteAt p.params 0)).pd.st ≠ .hardReset)
    (hi : s.pgIsolated (byteAt p.params 0) = false) :
    Safety.Answers (.portBusReset p) 0x0103 h p s (.running stAccepted (keyPort (byteAt p.params 0)) [])
      (startReset (byteAt p.params 0) (freeTree (byteAt p.params 0) 1 (Safety.begun 0x0103 h p s))) :=
  answers (by decide) rfl (.inl hz) ha (if_neg (by rcases hr with hr | hr <;> simp [hr, hb, hpd, hi]))

end

/-! ### PORT_SUSPEND and PORT_RESUME (R70, R73) -/

/-- What the port shows as suspended at a place of its tree. -/
def Port.suspendedAt (r : Port) : At → Bool
  | .root => r.bus == .suspended
  | .hub a g => r.suspHub.contains (a, g)

section
variable (x : Cmd) (s : State)

theorem portSuspend_run : portSuspendCmd.run x s =
    if (s.port (byteAt x.params 0)).suspendedAt (suspLoc x.params) then (s, .final stAlready [])
    else if ((s.port (byteAt x.params 0)).bus != .running && (s.port (byteAt x.params 0)).bus != .enumerating) ||
        s.busyPort (byteAt x.params 0) || (s.port (byteAt x.params 0)).pd.st == .hardReset then (s, .final stLocked [])
    else if s.enumerating (byteAt x.params 0) (suspLoc x.params) then
      (modPort (byteAt x.params 0) (fun r => { r with suspAsk := r.suspAsk ++ [suspLoc x.params] }) s,
        .running stAccepted (keyPort (byteAt x.params 0)) [])
    else (doSuspend (byteAt x.params 0) (suspLoc x.params) s, .final stOk []) := by
  unfold portSuspendCmd Port.suspendedAt
  dsimp only <;> cases suspLoc x.params <;> rfl

theorem portResume_idle (hn : (s.port (byteAt x.params 0)).resumeAt (suspLoc x.params) = none) : portResumeCmd.run x s =
    if !(s.port (byteAt x.params 0)).suspendedAt (suspLoc x.params) then (s, .final stAlready [])
    else if s.busyPort (byteAt x.params 0) then (s, .final stLocked [])
    else (startResume (byteAt x.params 0) { loc := suspLoc x.params, byHost := true, byInst := false } s,
      .running stAccepted (keyPort (byteAt x.params 0)) []) := by
  unfold portResumeCmd; dsimp only; rw [hn]
  unfold Port.suspendedAt
  cases suspLoc x.params <;> rfl

theorem portResume_joins {w : Resume} (hw : (s.port (byteAt x.params 0)).resumeAt (suspLoc x.params) = some w) : portResumeCmd.run x s =
    if w.byInst && !s.busyPort (byteAt x.params 0) then (setResume (byteAt x.params 0) { w with byHost := true } s, .final stOk [])
    else (s, .final stLocked []) := by
  unfold portResumeCmd; dsimp only; rw [hw]

end

section
variable (ha : Safety.Accepted 0x0104 portSuspendCmd h p s) (hz : s.dev.power ≠ .doze)
include ha hz

theorem portSuspend_already (hd : (s.port (byteAt p.params 0)).suspendedAt (suspLoc p.params) = true) :
    Safety.Answers (.portSuspend p) 0x0104 h p s (.final stAlready []) (Safety.begun 0x0104 h p s) :=
  answers (by decide) rfl (.inl hz) ha
    ((portSuspend_run (Safety.cmdOf 0x0104 h p) (Safety.begun 0x0104 h p s)).trans (if_pos hd))

variable (hd : (s.port (byteAt p.params 0)).suspendedAt (suspLoc p.params) = false)
  (hr : (s.port (byteAt p.params 0)).bus = .running ∨ (s.port (byteAt p.params 0)).bus = .enumerating)
  (hb : s.busyPort (byteAt p.params 0) = false) (hpd : (s.port (byteAt p.params 0)).pd.st ≠ .hardReset)
include hd hr hb hpd

omit ha hz in
theorem portSuspend_goes : portSuspendCmd.run (Safety.cmdOf 0x0104 h p) (Safety.begun 0x0104 h p s) =
    if s.enumerating (byteAt p.params 0) (suspLoc p.params) then
      (modPort (byteAt p.params 0) (fun r => { r with suspAsk := r.suspAsk ++ [suspLoc p.params] }) (Safety.begun 0x0104 h p s),
        .running stAccepted (keyPort (byteAt p.params 0)) [])
    else (doSuspend (byteAt p.params 0) (suspLoc p.params) (Safety.begun 0x0104 h p s), .final stOk []) :=
  (portSuspend_run _ _).trans ((if_neg (by simp [hd])).trans (if_neg (by rcases hr with hr | hr <;> simp [hr, hb, hpd])))

theorem portSuspend_asks (he : s.enumerating (byteAt p.params 0) (suspLoc p.params) = true) :
    Safety.Answers (.portSuspend p) 0x0104 h p s (.running stAccepted (keyPort (byteAt p.params 0)) [])
      (modPort (byteAt p.params 0) (fun r => { r with suspAsk := r.suspAsk ++ [suspLoc p.params] }) (Safety.begun 0x0104 h p s)) :=
  answers (by decide) rfl (.inl hz) ha ((portSuspend_goes hd hr hb hpd).trans (if_pos he))

theorem portSuspend_suspends (he : s.enumerating (byteAt p.params 0) (suspLoc p.params) = false) :
    Safety.Answers (.portSuspend p) 0x0104 h p s (.final stOk [])
      (doSuspend (byteAt p.params 0) (suspLoc p.params) (Safety.begun 0x0104 h p s)) :=
  answers (by decide) rfl (.inl hz) ha ((portSuspend_goes hd hr hb hpd).trans (if_neg (Bool.eq_false_iff.mp he)))

end

section
variable (ha : Safety.Accepted 0x0105 portResumeCmd h p s) (hz : s.dev.power ≠ .doze)
include ha hz

section
variable (hn : (s.port (byteAt p.params 0)).resumeAt (suspLoc p.params) = none)
include hn

theorem portResume_already (hs : (s.port (byteAt p.params 0)).suspendedAt (suspLoc p.params) = false) :
    Safety.Answers (.portResume p) 0x0105 h p s (.final stAlready []) (Safety.begun 0x0105 h p s) :=
  answers (by decide) rfl (.inl hz) ha
    ((portResume_idle (Safety.cmdOf 0x0105 h p) (Safety.begun 0x0105 h p s) hn).trans (if_pos (by simp [hs])))

variable (hs : (s.port (byteAt p.params 0)).suspendedAt (suspLoc p.params) = true)
include hs

theorem portResume_busy (hb : s.busyPort (byteAt p.params 0) = true) :
    Safety.Answers (.portResume p) 0x0105 h p s (.final stLocked []) (Safety.begun 0x0105 h p s) :=
  answers (by decide) rfl (.inl hz) ha ((portResume_idle (Safety.cmdOf 0x0105 h p) (Safety.begun 0x0105 h p s) hn).trans
    ((if_neg (by simp [hs])).trans (if_pos (by simp [hb]))))

theorem portResume_starts (hb : s.busyPort (byteAt p.params 0) = false) :
    Safety.Answers (.portResume p) 0x0105 h p s (.running stAccepted (keyPort (byteAt p.params 0)) [])
      (startResume (byteAt p.params 0) { loc := suspLoc p.params, byHost := true, byInst := false } (Safety.begun 0x0105 h p s)) :=
  answers (by decide) rfl (.inl hz) ha ((portResume_idle (Safety.cmdOf 0x0105 h p) (Safety.begun 0x0105 h p s) hn).trans
    ((if_neg (by simp [hs])).trans (if_neg (by simp [hb]))))

end

variable {w : Resume} (hw : (s.port (byteAt p.params 0)).resumeAt (suspLoc p.params) = some w)
include hw

theorem portResume_locked (hb : w.byInst = false ∨ s.busyPort (byteAt p.params 0) = true) :
    Safety.Answers (.portResume p) 0x0105 h p s (.final stLocked []) (Safety.begun 0x0105 h p s) :=
  answers (by decide) rfl (.inl hz) ha ((portResume_joins (Safety.cmdOf 0x0105 h p) (Safety.begun 0x0105 h p s) hw).trans
    (if_neg (by rcases hb with hb | hb <;> simp [hb])))

theorem portResume_adds_host (hi : w.byInst = true) (hb : s.busyPort (byteAt p.params 0) = false) :
    Safety.Answers (.portResume p) 0x0105 h p s (.final stOk [])
      (setResume (byteAt p.params 0) { w with byHost := true } (Safety.begun 0x0105 h p s)) :=
  answers (by decide) rfl (.inl hz) ha ((portResume_joins (Safety.cmdOf 0x0105 h p) (Safety.begun 0x0105 h p s) hw).trans
    (if_pos (by simp [hi, hb])))

end

/-! ### PORT_POWER_CYCLE (R385) and PORT_SET_POLICY (R54) -/

section
variable (ha : Safety.Accepted 0x0106 portPowerCycleCmd h p s)
include ha

theorem portPowerCycle_locked (hl : (s.port (byteAt p.params 0)).bus = .disabled ∨ (s.port (byteAt p.params 0)).sw = .isolated) :
    Safety.Answers (.portPowerCycle p) 0x0106 h p s (.final stLocked []) (Safety.begun 0x0106 h p s) :=
  answers (by decide) rfl (.inr rfl) ha (if_pos (by rcases hl with hl | hl <;> simp [hl]))

theorem portPowerCycle_starts (hd : (s.port (byteAt p.params 0)).bus ≠ .disabled) (hi : (s.port (byteAt p.params 0)).sw ≠ .isolated)
    (hb : s.busyPort (byteAt p.params 0) = false) (hg : s.pgIsolated (byteAt p.params 0) = false) :
    let k := byteAt p.params 0
    let off := openPaths k (leaveBus k 1 (Safety.begun 0x0106 h p s))
    let told := if (s.port k).sw = .latched then pathEvent k 0x0327 1 0 off else off
    Safety.Answers (.portPowerCycle p) 0x0106 h p s (.running stAccepted (keyPort k) [])
      (modPort k (fun r => { r with sw := .off, latchRail := false, bus := .latchedOff }) told) := by
  refine answers (by decide) rfl (.inr rfl) ha ((if_neg (by simp [hd, hi, hb, hg])).trans ?_)
  simp only [beq_iff_eq]
  rfl

end

/-- PORT_SET_POLICY writes `f` where its port has not gone to another host meanwhile, which no accepted command finds. -/
theorem portSetPolicy_sets (ha : Safety.Accepted 0x0107 portSetPolicyCmd h p s) (f : Port → Port)
    (hf : portSetPolicyCmd.run (Safety.cmdOf 0x0107 h p) (Safety.begun 0x0107 h p s) =
      if claimLost (Safety.cmdOf 0x0107 h p) (s.port (byteAt p.params 0)).owner then (Safety.begun 0x0107 h p s, .final stNotOwner [])
      else (modPort (byteAt p.params 0) f (Safety.begun 0x0107 h p s), .final stOk [])) :
    Safety.Answers (.portSetPolicy p) 0x0107 h p s (.final stOk []) (modPort (byteAt p.params 0) f (Safety.begun 0x0107 h p s)) :=
  answers (by decide) rfl (.inr rfl) ha
    (hf.trans (if_neg (Bool.eq_false_iff.mp (accepted_owners ha (List.mem_singleton.mpr rfl)))))

end

end Sys2Proof.Machine

namespace Sys2Proof
open Machine

/-- Settles O52: each command by the branch of its handler that its port takes. -/
theorem portCommands : Obligations.PortCommands := by
  unfold Obligations.PortCommands
  intro s h p
  refine ⟨fun ha => ⟨fun hs => portEnable_shed ha hs, fun hs hi => portEnable_isolated ha hs hi,
      fun hs hi => ⟨fun ht => portEnable_already ha hs hi ht, fun ht => portEnable_enables ha hs hi ht⟩⟩,
    fun ha => ⟨fun ht => portDisable_already ha ht, fun ht => portDisable_disables ha ht⟩,
    fun ha => answers (by decide) rfl (.inr rfl) ha rfl, fun ha => answers (by decide) rfl (.inr rfl) ha rfl,
    fun ha hz => ⟨fun hr he => portBusReset_locked ha hz hr he, fun hr hb hpd hi => portBusReset_starts ha hz hr hb hpd hi⟩,
    fun ha hz => ⟨fun hd => portSuspend_already ha hz hd,
      fun hd hr hb hpd => ⟨fun he => portSuspend_asks ha hz hd hr hb hpd he, fun he => portSuspend_suspends ha hz hd hr hb hpd he⟩⟩,
    fun ha hz => ⟨fun hn hs => portResume_already ha hz hn hs, fun hn hs hb => portResume_busy ha hz hn hs hb,
      fun hn hs hb => portResume_starts ha hz hn hs hb, fun w hw hb => portResume_locked ha hz hw hb,
      fun w hw hi hb => portResume_adds_host ha hz hw hi hb⟩,
    fun ha => ⟨fun hl => portPowerCycle_locked ha hl, fun hd hi hb hg => portPowerCycle_starts ha hd hi hb hg⟩,
    fun ha => portSetPolicy_sets ha _ rfl⟩

end Sys2Proof
end

section
/-!
The power contract commands (R287, R288, R358, R367, R368).
-/
namespace Sys2Proof.Machine

/-! ### PD_SET_CAPS -/

/-- What PD_SET_CAPS writes into the contract record of a port. -/
def capsWritten (ps : List Byte) (d : PdRec) : PdRec :=
  { d with caps := { amp5 := byteAt ps 1, en15 := byteAt ps 2 == 1, rp := byteAt ps 3,
                     tWait := if byteAt ps 4 = 0 then d.caps.tWait else 10 * byteAt ps 4 } }

section
variable (x : Cmd) (s : State) (hk : byteAt x.params 0 ≠ 32)
include hk

theorem pdSetCaps_run :
    let k := byteAt x.params 0
    let s1 := modPd k (capsWritten x.params) s
    let s2 := if (s.port k).bus.powered && (s.port k).pd.st == .noContract then setWeight k (s1.port k).rpWeight s1 else s1
    pdSetCapsCmd.run x s = (if (s.port k).reneg then s2 else newOffer k s2, .final stOk []) := by
  refine (if_neg hk).trans ?_
  simp only [port_modPd]
  rfl

theorem pdSetCaps_unpowered (hp : (s.port (byteAt x.params 0)).bus.powered = false) :
    pdSetCapsCmd.run x s = (if (s.port (byteAt x.params 0)).reneg then modPd (byteAt x.params 0) (capsWritten x.params) s
      else newOffer (byteAt x.params 0) (modPd (byteAt x.params 0) (capsWritten x.params) s), .final stOk []) :=
  (pdSetCaps_run x s hk).trans (by simp [hp])

theorem pdSetCaps_offers (hp : (s.port (byteAt x.params 0)).bus.powered = true) (hst : (s.port (byteAt x.params 0)).pd.st = .noContract)
    (hr : (s.port (byteAt x.params 0)).reneg = false) :
    let s1 := modPd (byteAt x.params 0) (capsWritten x.params) s
    pdSetCapsCmd.run x s =
      (newOffer (byteAt x.params 0) (setWeight (byteAt x.params 0) (s1.port (byteAt x.params 0)).rpWeight s1), .final stOk []) :=
  (pdSetCaps_run x s hk).trans (by simp [hp, hst, hr])

end

/-! ### PD_HARD_RESET, PD_DR_SWAP and PD_DISCOVER -/

/-- The port sends no Hard Reset now (R347, R357). -/
def State.hrShut (s : State) (k : Nat) : Prop :=
  ((s.port k).bus.powered = false ∧ (s.port k).bus ≠ .ufpSwapped) ∨ (s.port k).pd.sub = .gone ∨
    ((s.port k).bus.powered = true ∧ (s.port k).pd.st ≠ .hardReset ∧ s.hrSpent k = true)

/-- The port can send a Hard Reset, joins one that runs, or is in UFP_SWAPPED. -/
def State.hrOpen (s : State) (k : Nat) : Prop :=
  ((s.port k).bus.powered = true ∧ ((s.port k).pd.st = .hardReset ∨ s.hrSpent k = false)) ∨
    ((s.port k).bus.powered = false ∧ (s.port k).bus = .ufpSwapped)

section
variable (x : Cmd) (s : State)

section
variable (hi : s.pgIsolated (byteAt x.params 0) = false) (hb : (hrPreempt (byteAt x.params 0) s).busyPort (byteAt x.params 0) = false)
include hi hb

theorem pdHardReset_starts (hg : (s.port (byteAt x.params 0)).pd.sub ≠ .gone) (ho : s.hrOpen (byteAt x.params 0)) :
    pdHardResetCmd.run x s = (anyHardReset (byteAt x.params 0) true 1 (hrPreempt (byteAt x.params 0) s),
      .running stAccepted (keyPort (byteAt x.params 0)) []) := by
  refine (if_neg (by simp [hi, hb])).trans (if_neg ?_)
  rcases ho with ⟨hp, hst | hsp⟩ | ⟨hp, hu⟩
  · simp [hp, hst, hg]
  · simp [hp, hsp, hg]
  · rw [hu] at hp ⊢
    simp [hp, hg]

theorem pdHardReset_ends (hc : s.hrShut (byteAt x.params 0)) :
    pdHardResetCmd.run x s = (hrPreempt (byteAt x.params 0) s, .event stAborted []) := by
  refine (if_neg (by simp [hi, hb])).trans (if_pos ?_)
  rcases hc with ⟨hp, hu⟩ | hg | ⟨hp, hst, hsp⟩
  · simp [hp, hu]
  · simp [hg]
  · simp [hp, hst, hsp]

end

/-- What PD_DISCOVER asks for: the message and the SVID of its header. -/
def discoverMsg (ps : List Byte) : Nat → PdMsg × Nat
  | 0 => (.discIdentity, svidPd)
  | 1 => (.discSvids, svidPd)
  | _ => (.discModes, field ps 2 2)

theorem pdDiscover_asks (hb : s.busyPort (byteAt x.params 0) = false) (hv : s.vdmReady (byteAt x.params 0) = true)
    {req : Nat} {msg : PdMsg} {svid : Nat} (hr : byteAt x.params 1 = req)
    (hm : (req, msg, svid) ∈ [(0, PdMsg.discIdentity, svidPd), (1, PdMsg.discSvids, svidPd), (2, PdMsg.discModes, field x.params 2 2)]) :
    pdDiscoverCmd.run x s =
      (pdSend (byteAt x.params 0) msg [vdmHead svid 0 0 (req + 1)]
        (modPd (byteAt x.params 0) (fun d => { d with ask := some (.discover req), askSent := true }) s),
       .running stAccepted (keyPort (byteAt x.params 0)) []) := by
  refine (if_neg (by simp [hb])).trans ((if_neg (by simp [hv])).trans ?_)
  rw [hr]
  simp only [List.mem_cons, Prod.mk.injEq, List.not_mem_nil, or_false] at hm
  rcases hm with ⟨rfl, rfl, rfl⟩ | ⟨rfl, rfl, rfl⟩ | ⟨rfl, rfl, rfl⟩
  · rfl
  · rfl
  · rfl

end

/-! ### PD_ALTMODE (R368, R370) -/

/-- The part and its OTP know the Timebase mode. -/
def State.altCan (s : State) : Bool := Variant.timebase s.part.variant && s.otp.live.timebaseSvid.isSome

section
variable (x : Cmd) (s : State)

theorem pdAltmode_cannot (hc : s.altCan = false) : pdAltmodeCmd.run x s = (s, .final stUnsupp []) := by
  refine if_pos ?_
  unfold State.altCan at hc
  rw [← Option.not_isSome, ← Bool.not_and, hc]
  rfl

variable (hc : s.altCan = true)
include hc

theorem pdAltmode_known : ¬ (!Variant.timebase s.part.variant || s.otp.live.timebaseSvid.isNone) = true := by
  unfold State.altCan at hc
  rw [← Option.not_isSome, ← Bool.not_and, hc]
  exact nofun

theorem pdAltmode_already (ha : (s.port (byteAt x.params 0)).pd.alt = (byteAt x.params 1 == 1)) :
    pdAltmodeCmd.run x s = (s, .final stAlready []) :=
  (if_neg (pdAltmode_known s hc)).trans (if_pos (beq_iff_eq.mpr ha))

variable (ha : (s.port (byteAt x.params 0)).pd.alt ≠ (byteAt x.params 1 == 1)) (hb : s.busyPort (byteAt x.params 0) = false)
include ha hb

theorem pdAltmode_notReady (hv : s.vdmReady (byteAt x.params 0) = false) : pdAltmodeCmd.run x s = (s, .event stAborted []) :=
  (if_neg (pdAltmode_known s hc)).trans ((if_neg (mt beq_iff_eq.mp ha)).trans ((if_neg (by simp [hb])).trans (if_pos (by simp [hv]))))

variable (hv : s.vdmReady (byteAt x.params 0) = true)
include hv

theorem pdAltmode_exits (he : (byteAt x.params 1 == 1) = false) : pdAltmodeCmd.run x s =
    (pdSend (byteAt x.params 0) .exitMode [vdmHead s.timebaseSvid 0 ((s.port (byteAt x.params 0)).pd.altObj.getD 0) 5]
      (modPd (byteAt x.params 0) (fun d => { d with ask := some .exit, askSent := true }) s),
     .running stAccepted (keyPort (byteAt x.params 0)) []) :=
  (if_neg (pdAltmode_known s hc)).trans ((if_neg (mt beq_iff_eq.mp ha)).trans ((if_neg (by simp [hb])).trans
    ((if_neg (by simp [hv])).trans (if_pos (by simp [he])))))

variable (he : (byteAt x.params 1 == 1) = true)
include he

theorem pdAltmode_entering : pdAltmodeCmd.run x s =
    if (s.port (byteAt x.params 0)).pd.modesNew then
      (match (s.port (byteAt x.params 0)).pd.altObj with
       | some k => (enterAt (byteAt x.params 0) k s, .running stAccepted (keyPort (byteAt x.params 0)) [])
       | none => (s, .event stOk (u8 1)))
    else (pdSend (byteAt x.params 0) .discSvids [vdmHead svidPd 0 0 2]
      (modPd (byteAt x.params 0) (fun d => { d with ask := some .altSvids, askSent := true }) s),
     .running stAccepted (keyPort (byteAt x.params 0)) []) :=
  (if_neg (pdAltmode_known s hc)).trans ((if_neg (mt beq_iff_eq.mp ha)).trans ((if_neg (by simp [hb])).trans
    ((if_neg (by simp [hv])).trans (if_neg (by simp [he])))))

theorem pdAltmode_discovers (hm : (s.port (byteAt x.params 0)).pd.modesNew = false) : pdAltmodeCmd.run x s =
    (pdSend (byteAt x.params 0) .discSvids [vdmHead svidPd 0 0 2]
      (modPd (byteAt x.params 0) (fun d => { d with ask := some .altSvids, askSent := true }) s),
     .running stAccepted (keyPort (byteAt x.params 0)) []) :=
  (pdAltmode_entering x s hc ha hb hv he).trans (if_neg (by simp [hm]))

variable (hm : (s.port (byteAt x.params 0)).pd.modesNew = true)
include hm

theorem pdAltmode_enters {obj : Nat} (ho : (s.port (byteAt x.params 0)).pd.altObj = some obj) :
    pdAltmodeCmd.run x s = (enterAt (byteAt x.params 0) obj s, .running stAccepted (keyPort (byteAt x.params 0)) []) := by
  rw [pdAltmode_entering x s hc ha hb hv he, if_pos hm, ho]

theorem pdAltmode_noMode (ho : (s.port (byteAt x.params 0)).pd.altObj = none) : pdAltmodeCmd.run x s = (s, .event stOk (u8 1)) := by
  rw [pdAltmode_entering x s hc ha hb hv he, if_pos hm, ho]

end

/-! ### What an accepted command of the group answers -/

section
variable {h : HostId} {p : Packet} {s : State} {a : Ans} {s1 : State}

theorem pdSetCaps_answers (ha : Safety.Accepted 0x0500 pdSetCapsCmd h p s)
    (hr : pdSetCapsCmd.run (Safety.cmdOf 0x0500 h p) (Safety.begun 0x0500 h p s) = (s1, a)) :
    Safety.Answers (.pdSetCaps p) 0x0500 h p s a s1 := answers (by decide) rfl (.inr rfl) ha hr

theorem pdStatus_answers (ha : Safety.Accepted 0x0501 pdStatusCmd h p s)
    (hr : pdStatusCmd.run (Safety.cmdOf 0x0501 h p) (Safety.begun 0x0501 h p s) = (s1, a)) :
    Safety.Answers (.pdStatus p) 0x0501 h p s a s1 := answers (by decide) rfl (.inr rfl) ha hr

theorem pdDrSwap_answers (ha : Safety.Accepted 0x0502 pdDrSwapCmd h p s)
    (hr : pdDrSwapCmd.run (Safety.cmdOf 0x0502 h p) (Safety.begun 0x0502 h p s) = (s1, a)) :
    Safety.Answers (.pdDrSwap p) 0x0502 h p s a s1 := answers (by decide) rfl (.inr rfl) ha hr

theorem pdHardReset_answers (ha : Safety.Accepted 0x0503 pdHardResetCmd h p s)
    (hr : pdHardResetCmd.run (Safety.cmdOf 0x0503 h p) (Safety.begun 0x0503 h p s) = (s1, a)) :
    Safety.Answers (.pdHardReset p) 0x0503 h p s a s1 := answers (by decide) rfl (.inr rfl) ha hr

theorem pdDiscover_answers (ha : Safety.Accepted 0x0504 pdDiscoverCmd h p s)
    (hr : pdDiscoverCmd.run (Safety.cmdOf 0x0504 h p) (Safety.begun 0x0504 h p s) = (s1, a)) :
    Safety.Answers (.pdDiscover p) 0x0504 h p s a s1 := answers (by decide) rfl (.inr rfl) ha hr

theorem pdAltmode_answers (ha : Safety.Accepted 0x0505 pdAltmodeCmd h p s)
    (hr : pdAltmodeCmd.run (Safety.cmdOf 0x0505 h p) (Safety.begun 0x0505 h p s) = (s1, a)) :
    Safety.Answers (.pdAltmode p) 0x0505 h p s a s1 := answers (by decide) rfl (.inr rfl) ha hr

end

end Sys2Proof.Machine

namespace Sys2Proof
open Machine

/-- Settles O53: each command by the branch of its handler that the port and its contract take. -/
theorem pdCommands : Obligations.PdCommands := by
  unfold Obligations.PdCommands
  intro s h p k r b
  have hbusy (op : Nat) : (b op).busyPort k = s.busyPort k := bg_busyPort op h p s k
  refine ⟨fun ha => ⟨fun hk => pdSetCaps_answers ha (if_pos hk), fun hk hp hr => ?_, fun hk hp hr => ?_, fun hk hp hst hr => ?_⟩,
    fun ha => ⟨fun hk => pdStatus_answers ha (if_pos hk), fun hk => pdStatus_answers ha (if_neg hk)⟩,
    fun ha => ?_, fun ha => ?_, fun ha => ?_, fun ha => ?_⟩
  · exact pdSetCaps_answers ha ((pdSetCaps_unpowered (Safety.cmdOf 0x0500 h p) (b 0x0500) hk hp).trans (congrArg (·, _) (if_pos hr)))
  · exact pdSetCaps_answers ha ((pdSetCaps_unpowered (Safety.cmdOf 0x0500 h p) (b 0x0500) hk hp).trans
      (congrArg (·, _) (if_neg (Bool.eq_false_iff.mp hr))))
  · exact pdSetCaps_answers ha (pdSetCaps_offers (Safety.cmdOf 0x0500 h p) (b 0x0500) hk hp hst hr)
  · have hno (hb : s.busyPort k = false) : ¬ (b 0x0502).busyPort k = true := by rw [hbusy, hb]; exact nofun
    exact ⟨fun hb => pdDrSwap_answers ha (if_pos ((hbusy _).trans hb)),
      fun hb hok => pdDrSwap_answers ha ((if_neg (hno hb)).trans (if_pos hok)),
      fun hb hok => pdDrSwap_answers ha ((if_neg (hno hb)).trans (if_neg (Bool.eq_false_iff.mp hok)))⟩
  · exact ⟨fun hi => pdHardReset_answers ha (if_pos (Bool.or_eq_true_iff.mpr (.inl hi))),
      fun hi hb hg ho => pdHardReset_answers ha (pdHardReset_starts (Safety.cmdOf 0x0503 h p) (b 0x0503) hi hb hg ho),
      fun hi hb hc => pdHardReset_answers ha (pdHardReset_ends (Safety.cmdOf 0x0503 h p) (b 0x0503) hi hb hc)⟩
  · refine ⟨fun hb => pdDiscover_answers ha (if_pos ((hbusy _).trans hb)), fun hb hv => ?_, fun req msg svid hr hm hb hv => ?_⟩
    · exact pdDiscover_answers ha ((if_neg (by simpa using hb)).trans (if_pos (by simpa using hv)))
    · exact pdDiscover_answers ha (pdDiscover_asks (Safety.cmdOf 0x0504 h p) (b 0x0504) ((hbusy _).trans hb) hv hr hm)
  · refine ⟨fun hc => pdAltmode_answers ha (pdAltmode_cannot (Safety.cmdOf 0x0505 h p) (b 0x0505) hc),
      fun hc he => pdAltmode_answers ha (pdAltmode_already (Safety.cmdOf 0x0505 h p) (b 0x0505) hc he), fun hc hne hb => ?_⟩
    have hb' := (hbusy 0x0505).trans hb
    exact ⟨fun hv => pdAltmode_answers ha (pdAltmode_notReady (Safety.cmdOf 0x0505 h p) (b 0x0505) hc hne hb' hv),
      fun hv he => pdAltmode_answers ha (pdAltmode_exits (Safety.cmdOf 0x0505 h p) (b 0x0505) hc hne hb' hv he),
      fun hv he hm => pdAltmode_answers ha (pdAltmode_discovers (Safety.cmdOf 0x0505 h p) (b 0x0505) hc hne hb' hv he hm),
      fun obj hv he hm ho => pdAltmode_answers ha (pdAltmode_enters (Safety.cmdOf 0x0505 h p) (b 0x0505) hc hne hb' hv he hm ho),
      fun hv he hm ho => pdAltmode_answers ha (pdAltmode_noMode (Safety.cmdOf 0x0505 h p) (b 0x0505) hc hne hb' hv he hm ho)⟩

end Sys2Proof
end

section
/-!
The endpoint commands (R269, R277 to R280).
-/
namespace Sys2Proof.Machine

/-! ### EP_BIND (R119, R278) -/

/-- The result of an EP_BIND that is admitted at a phase: without a phase for a bulk context. -/
def bindShown (c : Ctx) (exp ph : Nat) : List Byte := if c.type = 2 then bindResult 0xFFFF 0xFF 0 0 else bindResult ph exp 0 0

/-- The context is bound as an EP_BIND asks. -/
def Ctx.boundSo (c : Ctx) (q cls exp phase : Nat) : Prop :=
  c.queue = q ∧ c.cls = cls ∧ c.exp = exp ∧ (phase = 0xFFFF ∨ phase = c.phase)

section
variable (x : Cmd) (s : State) {c : Ctx} (hc : s.ctx (epOf x.params) = some c)

/-- The exponent that the command's parameters ask for. -/
def expOf (c : Ctx) (ps : List Byte) : Nat := c.askedExp (field ps 6 1)

include hc

theorem runBind_run : runBind x s =
    if c.type = 1 then (s, .final stUnsupp [])
    else if c.bound then
      if c.queue = field x.params 4 1 ∧ c.cls = field x.params 5 1 ∧ c.exp = expOf c x.params ∧
          (field x.params 8 2 = 0xFFFF ∨ field x.params 8 2 = c.phase) then (s, .final stAlready (bindShown c (expOf c x.params) c.phase))
      else (s, .final stLocked [])
    else if c.wait.isSome then (s, .final stLocked [])
    else if field x.params 5 1 = 2 then
      if s.overReserve (epOf x.params) c (field x.params 4 1) 2 (expOf c x.params) 0 then (s, .final stBadParam [])
      else (quiet [epOf x.params] (commitBind (epOf x.params) (field x.params 4 1) 2 (expOf c x.params) 0 s),
        .final stOk (bindShown c (expOf c x.params) 0))
    else match if s.ready then
        s.admission (epOf x.params) c (field x.params 4 1) (field x.params 5 1) (expOf c x.params) (field x.params 8 2)
      else .error { status := stCapacity, reason := 3, residue := 0 } with
      | .ok ph =>
        if s.overReserve (epOf x.params) c (field x.params 4 1) (field x.params 5 1) (expOf c x.params) ph then (s, .final stBadParam [])
        else (quiet [epOf x.params] (issueOrders 64
          (commitBind (epOf x.params) (field x.params 4 1) (field x.params 5 1) (expOf c x.params) ph s)),
          .final stOk (bindShown c (expOf c x.params) ph))
      | .error r =>
        if bitOf (field x.params 7 1) 0 then
          let w : WaitBind := { queue := field x.params 4 1, cls := field x.params 5 1, exp := expOf c x.params,
                                phase := field x.params 8 2, host := x.host, tag := x.tag }
          (quiet [epOf x.params] (setCtx (epOf x.params) { c with wait := some w, refuse := r.reason } s),
            .running stAccepted (keyCtx (epOf x.params)) [epOf x.params])
        else (quiet [epOf x.params] (setCtx (epOf x.params) { c with refuse := r.reason } s),
          .final r.status (bindResult (field x.params 8 2) (expOf c x.params) r.reason r.residue)) := by
  unfold runBind
  dsimp only
  rw [hc]
  rfl

theorem runBind_control (ht : c.type = 1) : runBind x s = (s, .final stUnsupp []) := (runBind_run x s hc).trans (if_pos ht)

variable (ht : c.type ≠ 1)
include ht

theorem runBind_again (hb : c.bound = true) (hs : c.boundSo (field x.params 4 1) (field x.params 5 1) (expOf c x.params) (field x.params 8 2)) :
    runBind x s = (s, .final stAlready (bindShown c (expOf c x.params) c.phase)) :=
  (runBind_run x s hc).trans ((if_neg ht).trans ((if_pos hb).trans (if_pos hs)))

theorem runBind_other (hb : c.bound = true) (hs : ¬ c.boundSo (field x.params 4 1) (field x.params 5 1) (expOf c x.params) (field x.params 8 2)) :
    runBind x s = (s, .final stLocked []) :=
  (runBind_run x s hc).trans ((if_neg ht).trans ((if_pos hb).trans (if_neg hs)))

variable (hb : c.bound = false)
include hb

theorem runBind_waiting (hw : c.wait.isSome = true) : runBind x s = (s, .final stLocked []) :=
  (runBind_run x s hc).trans ((if_neg ht).trans ((if_neg (Bool.eq_false_iff.mp hb)).trans (if_pos hw)))

variable (hw : c.wait = none)
include hw

/-- An EP_BIND of class C, which is served without a phase. -/
theorem runBind_classC (hcl : field x.params 5 1 = 2) : runBind x s =
    if s.overReserve (epOf x.params) c (field x.params 4 1) 2 (expOf c x.params) 0 then (s, .final stBadParam [])
    else (quiet [epOf x.params] (commitBind (epOf x.params) (field x.params 4 1) 2 (expOf c x.params) 0 s),
      .final stOk (bindShown c (expOf c x.params) 0)) :=
  (runBind_run x s hc).trans ((if_neg ht).trans ((if_neg (Bool.eq_false_iff.mp hb)).trans ((if_neg (by simp [hw])).trans (if_pos hcl))))

variable (hcl : field x.params 5 1 ≠ 2) (hr : s.ready = true)
include hcl hr

theorem runBind_admitted {ph : Nat} (ha : s.admission (epOf x.params) c (field x.params 4 1) (field x.params 5 1) (expOf c x.params)
      (field x.params 8 2) = .ok ph)
    (ho : s.overReserve (epOf x.params) c (field x.params 4 1) (field x.params 5 1) (expOf c x.params) ph = false) :
    runBind x s = (quiet [epOf x.params] (issueOrders 64
        (commitBind (epOf x.params) (field x.params 4 1) (field x.params 5 1) (expOf c x.params) ph s)),
      .final stOk (bindShown c (expOf c x.params) ph)) := by
  rw [runBind_run x s hc, if_neg ht, if_neg (Bool.eq_false_iff.mp hb), if_neg (by simp [hw]), if_neg hcl, if_pos hr, ha]
  exact if_neg (Bool.eq_false_iff.mp ho)

variable {r : Refused} (ha : s.admission (epOf x.params) c (field x.params 4 1) (field x.params 5 1) (expOf c x.params)
      (field x.params 8 2) = .error r)
include ha

theorem runBind_waits (hf : bitOf (field x.params 7 1) 0 = true) :
    let w : WaitBind := { queue := field x.params 4 1, cls := field x.params 5 1, exp := expOf c x.params,
                          phase := field x.params 8 2, host := x.host, tag := x.tag }
    runBind x s = (quiet [epOf x.params] (setCtx (epOf x.params) { c with wait := some w, refuse := r.reason } s),
      .running stAccepted (keyCtx (epOf x.params)) [epOf x.params]) := by
  rw [runBind_run x s hc, if_neg ht, if_neg (Bool.eq_false_iff.mp hb), if_neg (by simp [hw]), if_neg hcl, if_pos hr, ha]
  exact if_pos hf

theorem runBind_refused (hf : bitOf (field x.params 7 1) 0 = false) :
    runBind x s = (quiet [epOf x.params] (setCtx (epOf x.params) { c with refuse := r.reason } s),
      .final r.status (bindResult (field x.params 8 2) (expOf c x.params) r.reason r.residue)) := by
  rw [runBind_run x s hc, if_neg ht, if_neg (Bool.eq_false_iff.mp hb), if_neg (by simp [hw]), if_neg hcl, if_pos hr, ha]
  exact if_neg (Bool.eq_false_iff.mp hf)

end

/-! ### EP_UNBIND -/

section
variable (x : Cmd) (s : State) {c : Ctx} (hc : s.ctx (epOf x.params) = some c)
include hc

theorem epUnbind_run : epUnbindCmd.run x s =
    if c.wait.isSome || c.bound then
      (quiet [epOf x.params] (unbind (epOf x.params) (if c.bound then endXfers (fun y => y.epid == epOf x.params) 6 s else s)), .final stOk [])
    else (s, .final stAlready []) := by
  unfold epUnbindCmd; dsimp only; rw [hc]

theorem epUnbind_bound (hb : c.bound = true) : epUnbindCmd.run x s =
    (quiet [epOf x.params] (unbind (epOf x.params) (endXfers (fun y => y.epid == epOf x.params) 6 s)), .final stOk []) := by
  rw [epUnbind_run x s hc, if_pos (by simp [hb]), if_pos hb]

theorem epUnbind_waiting (hb : c.bound = false) (hw : c.wait.isSome = true) : epUnbindCmd.run x s =
    (quiet [epOf x.params] (unbind (epOf x.params) s), .final stOk []) := by
  rw [epUnbind_run x s hc, if_pos (by simp [hw]), if_neg (Bool.eq_false_iff.mp hb)]

theorem epUnbind_already (hb : c.bound = false) (hw : c.wait = none) : epUnbindCmd.run x s = (s, .final stAlready []) :=
  (epUnbind_run x s hc).trans (if_neg (by simp [hb, hw]))

end

/-! ### Transfers (R269, R279, R280) -/

/-- A transfer as a command enters it. -/
def newXfer (x : Cmd) (kind : XferKind) (setup out : List Byte) (left queue : Nat) (flag : Bool) (nakMs : Nat) : Xfer :=
  { handle := 65536 * hOwner x.host + x.tag.toNat, epid := epOf x.params, kind := kind, host := x.host, tag := x.tag, setup := setup,
    out := out, got := [], left := left, moved := 0, queue := queue, stage := 0, flag := flag, nakMs := nakMs,
    nakAt := none, gaps := 0, errs := 0, started := false }

section
variable (x : Cmd) (kind : XferKind) (setup out : List Byte) (left queue : Nat) (flag : Bool) (nakMs : Nat) (s : State)

theorem newXfer_bare : (newXfer x kind setup out left queue flag nakMs).bare =
    ((kind == .read || (kind == .write && !flag)) && left == 0) := by
  simp [newXfer, Xfer.bare]

theorem startXfer_full {st : Nat} (hr : s.xferRoom (epOf x.params) queue = some st) :
    startXfer x kind setup out left queue flag nakMs s = (s, .final st []) := by
  unfold startXfer; dsimp only; rw [hr]

theorem startXfer_room (hr : s.xferRoom (epOf x.params) queue = none) :
    startXfer x kind setup out left queue flag nakMs s =
      if (newXfer x kind setup out left queue flag nakMs).bare && s.xfers.all (fun y => y.epid != epOf x.params) then
        (s, .event stOk (xferResult (newXfer x kind setup out left queue flag nakMs) 0))
      else ({ s with xfers := s.xfers ++ [newXfer x kind setup out left queue flag nakMs] },
        .running stAccepted (keyXfer (epOf x.params)) [epOf x.params]) := by
  unfold startXfer; dsimp only; rw [hr]
  rfl

variable (hr : s.xferRoom (epOf x.params) queue = none)
include hr

theorem startXfer_bare (hb : (newXfer x kind setup out left queue flag nakMs).bare = true)
    (ha : s.xfers.all (fun y => y.epid != epOf x.params) = true) :
    startXfer x kind setup out left queue flag nakMs s = (s, .event stOk (xferResult (newXfer x kind setup out left queue flag nakMs) 0)) :=
  (startXfer_room x kind setup out left queue flag nakMs s hr).trans (if_pos (by rw [hb, ha]; rfl))

theorem startXfer_enters (hb : (newXfer x kind setup out left queue flag nakMs).bare = false ∨
      s.xfers.all (fun y => y.epid != epOf x.params) = false) :
    startXfer x kind setup out left queue flag nakMs s =
      ({ s with xfers := s.xfers ++ [newXfer x kind setup out left queue flag nakMs] },
        .running stAccepted (keyXfer (epOf x.params)) [epOf x.params]) :=
  (startXfer_room x kind setup out left queue flag nakMs s hr).trans (if_neg (by rw [Bool.and_eq_true]; rcases hb with hb | hb <;> simp [hb]))

end

/-- What a transfer that moved nothing reports: eight zero bytes. -/
theorem xferResult_nothing (x : Cmd) (kind : XferKind) (hk : kind ≠ .control) (setup out : List Byte) (left queue : Nat) (flag : Bool)
    (nakMs : Nat) : xferResult (newXfer x kind setup out left queue flag nakMs) 0 = List.replicate 8 0 := by
  cases kind with
  | control => exact absurd rfl hk
  | write => exact (show u8 0 ++ u8 (sat 255 0) ++ u16 0 ++ u32 0 = List.replicate 8 0 by decide)
  | read =>
    have hgot : (if queue = 0 then ([] : List Byte) else []) = [] := ite_self _
    exact (congrArg (u8 0 ++ [0, 0, 0] ++ u32 0 ++ ·) hgot).trans (by decide)

/-! ### What an accepted command of the group answers -/

section
variable {h : HostId} {p : Packet} {s : State} {a : Ans} {s1 : State}

theorem epBind_answers (ha : Safety.Accepted 0x0201 epBindCmd h p s)
    (hr : runBind (Safety.cmdOf 0x0201 h p) (Safety.begun 0x0201 h p s) = (s1, a)) :
    Safety.Answers (.epBind p) 0x0201 h p s a s1 := answers (by decide) rfl (.inr rfl) ha hr

theorem epUnbind_answers (ha : Safety.Accepted 0x0202 epUnbindCmd h p s)
    (hr : epUnbindCmd.run (Safety.cmdOf 0x0202 h p) (Safety.begun 0x0202 h p s) = (s1, a)) :
    Safety.Answers (.epUnbind p) 0x0202 h p s a s1 := answers (by decide) rfl (.inr rfl) ha hr

theorem epState_answers (ha : Safety.Accepted 0x0206 epStateCmd h p s) {c : Ctx} (hc : s.ctx (epOf p.params) = some c) :
    Safety.Answers (.epState p) 0x0206 h p s (.final stOk (s.image (epOf p.params) c)) (Safety.begun 0x0206 h p s) := by
  refine answers (by decide) rfl (.inr rfl) ha ?_
  show (match (Safety.begun 0x0206 h p s).ctx (epOf p.params) with
    | some x => ((Safety.begun 0x0206 h p s, Ans.final stOk ((Safety.begun 0x0206 h p s).image (epOf p.params) x)) : State × Ans)
    | none => (Safety.begun 0x0206 h p s, .final stBadParam [])) = _
  rw [show (Safety.begun 0x0206 h p s).ctx (epOf p.params) = some c from hc]
  rfl

section
variable (hz : s.dev.power ≠ .doze)
include hz

theorem epControl_answers (ha : Safety.Accepted 0x0203 epControlCmd h p s)
    (hr : epControlCmd.run (Safety.cmdOf 0x0203 h p) (Safety.begun 0x0203 h p s) = (s1, a)) :
    Safety.Answers (.epControl p) 0x0203 h p s a s1 := answers (by decide) rfl (.inl hz) ha hr

theorem epWrite_answers (ha : Safety.Accepted 0x0204 epWriteCmd h p s)
    (hr : epWriteCmd.run (Safety.cmdOf 0x0204 h p) (Safety.begun 0x0204 h p s) = (s1, a)) :
    Safety.Answers (.epWrite p) 0x0204 h p s a s1 := answers (by decide) rfl (.inl hz) ha hr

theorem epRead_answers (ha : Safety.Accepted 0x0205 epReadCmd h p s)
    (hr : epReadCmd.run (Safety.cmdOf 0x0205 h p) (Safety.begun 0x0205 h p s) = (s1, a)) :
    Safety.Answers (.epRead p) 0x0205 h p s a s1 := answers (by decide) rfl (.inl hz) ha hr

end

/-- Where the command runs, Mboter is ready. -/
theorem ready_begun {op : Nat} {c : CmdSpec} (ha : Safety.Accepted op c h p s) : (Safety.begun op h p s).ready = true := by
  show (s.dev.phase == .ready) = true
  rw [ha.1]
  rfl

end

end Sys2Proof.Machine

namespace Sys2Proof
open Machine

/-- Settles O54: a bind by the branch of `runBind` that its context takes, a transfer by the room that there is. -/
theorem endpointCommands : Obligations.EndpointCommands := by
  unfold Obligations.EndpointCommands
  intro s h p e f b x
  refine ⟨fun ha => answers (by decide) rfl (.inr rfl) ha rfl, fun c hc ha => epState_answers ha hc, fun c hc ha => ?_, fun c hc ha => ?_,
    fun ha hz => ?_, fun ha hz => ?_, fun ha hz => ?_⟩
  · have hrdy := ready_begun ha
    refine ⟨fun ht => epBind_answers ha (runBind_control (Safety.cmdOf 0x0201 h p) (Safety.begun 0x0201 h p s) hc ht), fun ht hb => ⟨fun hs =>
        epBind_answers ha (runBind_again (Safety.cmdOf 0x0201 h p) (Safety.begun 0x0201 h p s) hc ht hb hs),
      fun hs => epBind_answers ha (runBind_other (Safety.cmdOf 0x0201 h p) (Safety.begun 0x0201 h p s) hc ht hb hs)⟩,
      fun ht hb hw => epBind_answers ha (runBind_waiting (Safety.cmdOf 0x0201 h p) (Safety.begun 0x0201 h p s) hc ht hb hw),
      fun ht hb hw => ⟨fun hcl ho => ?_, fun hcl ho => ?_, fun ph hcl had ho => ?_, fun r hcl had => ⟨fun hf => ?_, fun hf => ?_⟩⟩⟩
    · exact epBind_answers ha ((runBind_classC (Safety.cmdOf 0x0201 h p) (Safety.begun 0x0201 h p s) hc ht hb hw hcl).trans (if_pos ho))
    · exact epBind_answers ha ((runBind_classC (Safety.cmdOf 0x0201 h p) (Safety.begun 0x0201 h p s) hc ht hb hw hcl).trans
        (if_neg (Bool.eq_false_iff.mp ho)))
    · exact epBind_answers ha (runBind_admitted (Safety.cmdOf 0x0201 h p) (Safety.begun 0x0201 h p s) hc ht hb hw hcl hrdy had ho)
    · exact epBind_answers ha (runBind_waits (Safety.cmdOf 0x0201 h p) (Safety.begun 0x0201 h p s) hc ht hb hw hcl hrdy had hf)
    · exact epBind_answers ha (runBind_refused (Safety.cmdOf 0x0201 h p) (Safety.begun 0x0201 h p s) hc ht hb hw hcl hrdy had hf)
  · exact ⟨fun hb => epUnbind_answers ha (epUnbind_bound (Safety.cmdOf 0x0202 h p) (Safety.begun 0x0202 h p s) hc hb),
      fun hb hw => epUnbind_answers ha (epUnbind_waiting (Safety.cmdOf 0x0202 h p) (Safety.begun 0x0202 h p s) hc hb hw),
      fun hb hw => epUnbind_answers ha (epUnbind_already (Safety.cmdOf 0x0202 h p) (Safety.begun 0x0202 h p s) hc hb hw)⟩
  · exact ⟨fun st hr => epControl_answers hz ha (startXfer_full (Safety.cmdOf 0x0203 h p) _ _ _ _ _ _ _ (Safety.begun 0x0203 h p s) hr),
      fun hr => epControl_answers hz ha (startXfer_enters (Safety.cmdOf 0x0203 h p) _ _ _ _ _ _ _ (Safety.begun 0x0203 h p s) hr (.inl (newXfer_bare ..)))⟩
  · refine ⟨fun st hr => epWrite_answers hz ha (startXfer_full (Safety.cmdOf 0x0204 h p) _ _ _ _ _ _ _ (Safety.begun 0x0204 h p s) hr), fun hr hl hf hall => ?_,
      fun hr hn => epWrite_answers hz ha (startXfer_enters (Safety.cmdOf 0x0204 h p) _ _ _ _ _ _ _ (Safety.begun 0x0204 h p s) hr ?_)⟩
    · rw [← xferResult_nothing (Safety.cmdOf 0x0204 h p) .write nofun]
      exact epWrite_answers hz ha (startXfer_bare (Safety.cmdOf 0x0204 h p) _ _ _ _ _ _ _ (Safety.begun 0x0204 h p s) hr
        ((newXfer_bare ..).trans (by simp [hf, show field p.params 4 4 = 0 from hl])) hall)
    · rw [newXfer_bare]
      rcases hn with hn | hn | hn
      · exact .inl (by simpa using fun _ => hn)
      · exact .inl (by rw [show bitOf (byteAt (Safety.cmdOf 0x0204 h p).params 9) 0 = true from hn]; rfl)
      · exact .inr hn
  · refine ⟨fun st hr => epRead_answers hz ha (startXfer_full (Safety.cmdOf 0x0205 h p) _ _ _ _ _ _ _ (Safety.begun 0x0205 h p s) hr), fun hr hl hall => ?_,
      fun hr hn => epRead_answers hz ha (startXfer_enters (Safety.cmdOf 0x0205 h p) _ _ _ _ _ _ _ (Safety.begun 0x0205 h p s) hr ?_)⟩
    · rw [← xferResult_nothing (Safety.cmdOf 0x0205 h p) .read nofun]
      exact epRead_answers hz ha (startXfer_bare (Safety.cmdOf 0x0205 h p) _ _ _ _ _ _ _ (Safety.begun 0x0205 h p s) hr
        ((newXfer_bare ..).trans (by simp [show field p.params 4 4 = 0 from hl])) hall)
    · rw [newXfer_bare]
      rcases hn with hn | hn
      · exact .inl (by simpa using hn)
      · exact .inr hn

end Sys2Proof
end

section
/-!
The queue, budget and placement commands (R129 to R131, R200, R210, R281 to R286).
-/
namespace Sys2Proof.Machine

/-! ### Q_CONFIG and Q_REPLAY (R200, R210, R281, R282) -/

/-- The queue that Q_CONFIG asks for. -/
def askedQueue (ps : List Byte) : Queue :=
  { st := if bitOf (field ps 1 1) 0 then .flow else .disabled, isL := bitOf (field ps 1 1) 1, out := bitOf (field ps 1 1) 2,
    owner := hostOf (b2n (bitOf (field ps 1 1) 3)), auto := bitOf (field ps 1 1) 4, depth := field ps 4 4, spillMib := field ps 8 4,
    flight := field ps 12 4, srcDev := BitVec.ofNat 16 (field ps 16 2), srcQ := field ps 18 1, reserve := b2n (bitOf (field ps 1 1) 1) }

section
variable (x : Cmd) (s : State) (hown : claimLost x (queueOwner s (byteAt x.params 0)) = false)
include hown

theorem qConfig_run : qConfigCmd.run x s =
    if (s.queue (byteAt x.params 0)).st != .disabled && (s.boundTo' (byteAt x.params 0) || s.canNames (byteAt x.params 0)) then
      (s, .final stLocked [])
    else if s.spillRegion < s.spillTaken (byteAt x.params 0) + field x.params 8 4 then (s, .final stCapacity [])
    else
      let set_ := setQueue (byteAt x.params 0) (askedQueue x.params) (endQueueUsers (byteAt x.params 0) s)
      (if bitOf (field x.params 1 1) 0 && (askedQueue x.params).srcDev != 0 then sendCredit (byteAt x.params 0) set_ else set_,
        .final stOk (u32 (field x.params 4 4) ++ u32 (field x.params 8 4))) :=
  if_neg (Bool.eq_false_iff.mp hown)

theorem qConfig_inUse (hs : (s.queue (byteAt x.params 0)).st ≠ .disabled)
    (hu : s.boundTo' (byteAt x.params 0) = true ∨ s.canNames (byteAt x.params 0) = true) :
    qConfigCmd.run x s = (s, .final stLocked []) :=
  (qConfig_run x s hown).trans (if_pos (by simp [hs, hu]))

variable (hs : (s.queue (byteAt x.params 0)).st = .disabled ∨
    (s.boundTo' (byteAt x.params 0) = false ∧ s.canNames (byteAt x.params 0) = false))
include hs

omit hown in
theorem not_inUse : ¬ ((s.queue (byteAt x.params 0)).st != .disabled &&
    (s.boundTo' (byteAt x.params 0) || s.canNames (byteAt x.params 0))) = true := by
  rcases hs with hs | ⟨hb, hc⟩
  · simp [hs]
  · simp [hb, hc]

theorem qConfig_noRoom (hr : s.spillRegion < s.spillTaken (byteAt x.params 0) + field x.params 8 4) :
    qConfigCmd.run x s = (s, .final stCapacity []) :=
  (qConfig_run x s hown).trans ((if_neg (not_inUse x s hs)).trans (if_pos hr))

theorem qConfig_sets (hr : ¬ s.spillRegion < s.spillTaken (byteAt x.params 0) + field x.params 8 4) :
    let set_ := setQueue (byteAt x.params 0) (askedQueue x.params) (endQueueUsers (byteAt x.params 0) s)
    qConfigCmd.run x s =
      (if bitOf (field x.params 1 1) 0 && (askedQueue x.params).srcDev != 0 then sendCredit (byteAt x.params 0) set_ else set_,
        .final stOk (u32 (field x.params 4 4) ++ u32 (field x.params 8 4))) :=
  (qConfig_run x s hown).trans ((if_neg (not_inUse x s hs)).trans (if_neg hr))

end

section
variable (x : Cmd) (s : State)

theorem qReplay_held (hs : (s.queue (byteAt x.params 0)).st = .held) : qReplayCmd.run x s =
    if byteAt x.params 1 = 1 then (discardFlagged (byteAt x.params 0) s, .final stOk (u32 (s.queue (byteAt x.params 0)).flagged))
    else (replayCheck (byteAt x.params 0) (pump (byteAt x.params 0) (setQueue (byteAt x.params 0)
      { s.queue (byteAt x.params 0) with st := .replay, rate := field x.params 4 4, rateAt := s.dev.monoNs, replayed := 0 } s)),
      .final stOk (u32 (s.queue (byteAt x.params 0)).flagged)) := by
  unfold qReplayCmd; dsimp only; rw [hs]

theorem qReplay_flight (hs : (s.queue (byteAt x.params 0)).st = .flight) : qReplayCmd.run x s = (s, .final stUnreach []) := by
  unfold qReplayCmd; dsimp only; rw [hs]

theorem qReplay_already (hh : (s.queue (byteAt x.params 0)).st ≠ .held) (hf : (s.queue (byteAt x.params 0)).st ≠ .flight) :
    qReplayCmd.run x s = (s, .final stAlready []) := by
  unfold qReplayCmd; dsimp only
  split
  · next h => exact absurd h hh
  · next h => exact absurd h hf
  · rfl

end

/-! ### PLACE_HINT (R129) -/

/-- The affinity that PLACE_HINT names. -/
def affOf (ps : List Byte) : Aff :=
  { kind := byteAt ps 0, weight := byteAt ps 1, opA := BitVec.ofNat 32 (field ps 4 4), opB := BitVec.ofNat 32 (field ps 8 4) }

/-- The other affinities that are kept. -/
def State.otherAffs (s : State) (a : Aff) : List Aff := s.stok.affs.filter fun x => !(x.kind == a.kind && x.opA == a.opA && x.opB == a.opB)

/-- The affinities in force are those of a list. -/
def withAffs (l : List Aff) (s : State) : State := modStok (fun k => { k with affs := l }) s

section
variable (x : Cmd) (s : State)

theorem placeHint_run : placeHintCmd.run x s =
    if (affOf x.params).weight = 0 then
      let t := withAffs (s.otherAffs (affOf x.params)) s
      (if (affOf x.params).kind = 6 then followRoutes t else t, .final stOk (u16 (s.otherAffs (affOf x.params)).length))
    else if 1024 ≤ (s.otherAffs (affOf x.params)).length then (s, .final stCapacity (u16 s.stok.affs.length))
    else
      let t := withAffs (s.otherAffs (affOf x.params) ++ [affOf x.params]) s
      (if (affOf x.params).kind = 6 then followRoutes t
       else if (affOf x.params).kind = 4 ∧ t.kept2048.contains (affOf x.params).opA.toNat then fetchCtx (affOf x.params).opA.toNat t else t,
       .final stOk (u16 (s.otherAffs (affOf x.params) ++ [affOf x.params]).length)) := rfl

theorem placeHint_drops (hw : (affOf x.params).weight = 0) : placeHintCmd.run x s =
    (if (affOf x.params).kind = 6 then followRoutes (withAffs (s.otherAffs (affOf x.params)) s)
      else withAffs (s.otherAffs (affOf x.params)) s, .final stOk (u16 (s.otherAffs (affOf x.params)).length)) :=
  (placeHint_run x s).trans (if_pos hw)

variable (hw : (affOf x.params).weight ≠ 0)
include hw

theorem placeHint_full (hn : 1024 ≤ (s.otherAffs (affOf x.params)).length) :
    placeHintCmd.run x s = (s, .final stCapacity (u16 s.stok.affs.length)) :=
  (placeHint_run x s).trans ((if_neg hw).trans (if_pos hn))

variable (hn : (s.otherAffs (affOf x.params)).length < 1024)
include hn

theorem placeHint_adds :
    let t := withAffs (s.otherAffs (affOf x.params) ++ [affOf x.params]) s
    placeHintCmd.run x s =
    (if (affOf x.params).kind = 6 then followRoutes t
     else if (affOf x.params).kind = 4 ∧ t.kept2048.contains (affOf x.params).opA.toNat then fetchCtx (affOf x.params).opA.toNat t else t,
     .final stOk (u16 (s.otherAffs (affOf x.params) ++ [affOf x.params]).length)) :=
  (placeHint_run x s).trans ((if_neg hw).trans (if_neg (by omega)))

theorem placeHint_keeps (h6 : (affOf x.params).kind ≠ 6) (h4 : (affOf x.params).kind ≠ 4 ∨
      (withAffs (s.otherAffs (affOf x.params) ++ [affOf x.params]) s).kept2048.contains (affOf x.params).opA.toNat = false) :
    placeHintCmd.run x s = (withAffs (s.otherAffs (affOf x.params) ++ [affOf x.params]) s,
      .final stOk (u16 (s.otherAffs (affOf x.params) ++ [affOf x.params]).length)) := by
  refine (placeHint_adds x s hw hn).trans (congrArg (·, _) ((if_neg h6).trans (if_neg ?_)))
  rintro ⟨hk, hc⟩
  rcases h4 with h4 | h4
  · exact h4 hk
  · rw [h4] at hc; cases hc

theorem placeHint_fetches (h4 : (affOf x.params).kind = 4)
    (hc : (withAffs (s.otherAffs (affOf x.params) ++ [affOf x.params]) s).kept2048.contains (affOf x.params).opA.toNat = true) :
    placeHintCmd.run x s =
      (fetchCtx (affOf x.params).opA.toNat (withAffs (s.otherAffs (affOf x.params) ++ [affOf x.params]) s),
       .final stOk (u16 (s.otherAffs (affOf x.params) ++ [affOf x.params]).length)) :=
  (placeHint_adds x s hw hn).trans (congrArg (·, _) ((if_neg (by omega)).trans (if_pos ⟨h4, hc⟩)))

theorem placeHint_routes (h6 : (affOf x.params).kind = 6) : placeHintCmd.run x s =
    (followRoutes (withAffs (s.otherAffs (affOf x.params) ++ [affOf x.params]) s),
     .final stOk (u16 (s.otherAffs (affOf x.params) ++ [affOf x.params]).length)) :=
  (placeHint_adds x s hw hn).trans (congrArg (·, _) (if_pos h6))

end

/-! ### PLACE_PIN (R130) -/

/-- The pin that PLACE_PIN names. -/
def pinAsked (ps : List Byte) : Pin := { group := byteAt ps 0, eng := byteAt ps 1, allow := bitOf (byteAt ps 2) 0 }

/-- The orders for a group are withdrawn. -/
def noOrders (g : Nat) (s : State) : State := modStok (fun k => { k with orders := k.orders.filter fun o => o.group != g }) s

/-- A group is no longer pinned. -/
def unpin (g : Nat) (s : State) : State := modStok (fun k => { k with pins := k.pins.filter fun p => p.group != g }) s

section
variable (x : Cmd) (s : State) (hb : s.busyKey (keyUnit (0x1000 + byteAt x.params 0)) = false)
include hb

theorem placePin_unpinned (he : byteAt x.params 1 = 0xFF) (hp : s.pinOf (byteAt x.params 0) = none) :
    placePinCmd.run x s = (s, .final stAlready (u8 s.stok.pins.length)) := by
  refine (if_neg (Bool.eq_false_iff.mp hb)).trans ((if_pos he).trans ?_)
  rw [hp]

theorem placePin_unpins (he : byteAt x.params 1 = 0xFF) (hp : (s.pinOf (byteAt x.params 0)).isSome = true) :
    placePinCmd.run x s = (unpin (byteAt x.params 0) s, .final stOk (u8 (unpin (byteAt x.params 0) s).stok.pins.length)) := by
  obtain ⟨y, hy⟩ := Option.isSome_iff_exists.mp hp
  refine (if_neg (Bool.eq_false_iff.mp hb)).trans ((if_pos he).trans ?_)
  rw [hy]
  rfl

variable (he : byteAt x.params 1 ≠ 0xFF)
include he

theorem placePin_same (hp : s.pinOf (byteAt x.params 0) = some (pinAsked x.params)) :
    placePinCmd.run x s = (s, .final stAlready (u8 s.stok.pins.length)) :=
  (if_neg (Bool.eq_false_iff.mp hb)).trans ((if_neg he).trans (if_pos (beq_iff_eq.mpr hp)))

variable (hp : s.pinOf (byteAt x.params 0) ≠ some (pinAsked x.params))
  (hn : (s.pinOf (byteAt x.params 0)).isSome = true ∨ s.stok.pins.length < 64)
include hp hn

theorem placePin_new : placePinCmd.run x s =
    if !s.fits (byteAt x.params 0) (byteAt x.params 1) || !s.spareRule (byteAt x.params 0) (byteAt x.params 1) then
      (s, .final stCapacity (u8 s.stok.pins.length))
    else if (s.engineOf (byteAt x.params 0)).isNone || s.engineOf (byteAt x.params 0) == some (byteAt x.params 1) ||
        !s.takes (byteAt x.params 1) then
      let t := addPin (pinAsked x.params) (if s.takes (byteAt x.params 1) then stayPut (byteAt x.params 0) s else s)
      (t, .final stOk (u8 t.stok.pins.length))
    else (order 6 (byteAt x.params 0) (byteAt x.params 1) (noOrders (byteAt x.params 0) s),
      .running stAccepted (keyUnit (0x1000 + byteAt x.params 0)) [byteAt x.params 0, byteAt x.params 1, b2n (pinAsked x.params).allow]) := by
  refine (if_neg (Bool.eq_false_iff.mp hb)).trans ((if_neg he).trans ((if_neg (mt beq_iff_eq.mp hp)).trans (if_neg ?_)))
  rcases hn with hn | hn
  · simp [Option.isSome_iff_ne_none.mp hn]
  · simp [hn]

theorem placePin_noRoom (hf : s.fits (byteAt x.params 0) (byteAt x.params 1) = false ∨ s.spareRule (byteAt x.params 0) (byteAt x.params 1) = false) :
    placePinCmd.run x s = (s, .final stCapacity (u8 s.stok.pins.length)) :=
  (placePin_new x s hb he hp hn).trans (if_pos (by rcases hf with hf | hf <;> simp [hf]))

variable (hf : s.fits (byteAt x.params 0) (byteAt x.params 1) = true) (hr : s.spareRule (byteAt x.params 0) (byteAt x.params 1) = true)
include hf hr

theorem placePin_stays (hs : s.engineOf (byteAt x.params 0) = none ∨ s.engineOf (byteAt x.params 0) = some (byteAt x.params 1) ∨
      s.takes (byteAt x.params 1) = false) :
    let t := addPin (pinAsked x.params) (if s.takes (byteAt x.params 1) then stayPut (byteAt x.params 0) s else s)
    placePinCmd.run x s = (t, .final stOk (u8 t.stok.pins.length)) :=
  (placePin_new x s hb he hp hn).trans ((if_neg (by simp [hf, hr])).trans (if_pos (by rcases hs with hs | hs | hs <;> simp [hs])))

theorem placePin_moves {g : Nat} (hg : s.engineOf (byteAt x.params 0) = some g) (hne : g ≠ byteAt x.params 1)
    (ht : s.takes (byteAt x.params 1) = true) :
    placePinCmd.run x s = (order 6 (byteAt x.params 0) (byteAt x.params 1) (noOrders (byteAt x.params 0) s),
      .running stAccepted (keyUnit (0x1000 + byteAt x.params 0)) [byteAt x.params 0, byteAt x.params 1, b2n (pinAsked x.params).allow]) :=
  (placePin_new x s hb he hp hn).trans ((if_neg (by simp [hf, hr])).trans (if_neg (by simp [hg, hne, ht])))

end

/-! ### PLACE_REPORT (R131) -/

/-- The reply of PLACE_REPORT. -/
def reportAns (l : List (List Byte)) : Ans := .final stOk (u8 l.length ++ [0, 0, 0] ++ l.flatten)

theorem placeReport_run (x : Cmd) (s : State) : placeReportCmd.run x s =
    match byteAt x.params 0 with
    | 0 => (s, reportAns ((((upTo 12).drop (byteAt x.params 1)).take 14).map s.reportEngine))
    | 1 => (s, reportAns ((((upTo s.nPorts).drop (byteAt x.params 1)).take 29).map fun p =>
        (upTo 8).flatMap fun k => u8 ((s.engineOf (8 * p + k)).getD 0xFF)))
    | _ => (s, reportAns ((((s.stok.affs.filter s.honoured).drop (byteAt x.params 1)).take 19).map fun a =>
        u8 a.kind ++ u8 a.weight ++ [0, 0] ++ u32 a.opA.toNat ++ u32 a.opB.toNat)) := rfl

/-! ### What an accepted command of the group answers -/

section
variable {h : HostId} {p : Packet} {s : State} {a : Ans} {s1 : State}

theorem qConfig_answers (ha : Safety.Accepted 0x0300 qConfigCmd h p s)
    (hr : qConfigCmd.run (Safety.cmdOf 0x0300 h p) (Safety.begun 0x0300 h p s) = (s1, a)) :
    Safety.Answers (.qConfig p) 0x0300 h p s a s1 := answers (by decide) rfl (.inr rfl) ha hr

theorem qReplay_answers (ha : Safety.Accepted 0x0303 qReplayCmd h p s)
    (hr : qReplayCmd.run (Safety.cmdOf 0x0303 h p) (Safety.begun 0x0303 h p s) = (s1, a)) :
    Safety.Answers (.qReplay p) 0x0303 h p s a s1 := answers (by decide) rfl (.inr rfl) ha hr

theorem placeHint_answers (ha : Safety.Accepted 0x0402 placeHintCmd h p s)
    (hr : placeHintCmd.run (Safety.cmdOf 0x0402 h p) (Safety.begun 0x0402 h p s) = (s1, a)) :
    Safety.Answers (.placeHint p) 0x0402 h p s a s1 := answers (by decide) rfl (.inr rfl) ha hr

theorem placePin_answers (ha : Safety.Accepted 0x0403 placePinCmd h p s) (hz : s.dev.power ≠ .doze)
    (hr : placePinCmd.run (Safety.cmdOf 0x0403 h p) (Safety.begun 0x0403 h p s) = (s1, a)) :
    Safety.Answers (.placePin p) 0x0403 h p s a s1 := answers (by decide) rfl (.inl hz) ha hr

theorem placeReport_answers (ha : Safety.Accepted 0x0404 placeReportCmd h p s)
    (hr : placeReportCmd.run (Safety.cmdOf 0x0404 h p) (Safety.begun 0x0404 h p s) = (s1, a)) :
    Safety.Answers (.placeReport p) 0x0404 h p s a s1 := answers (by decide) rfl (.inr rfl) ha hr

theorem qConfig_owned (ha : Safety.Accepted 0x0300 qConfigCmd h p s) :
    claimLost (Safety.cmdOf 0x0300 h p) (queueOwner (Safety.begun 0x0300 h p s) (byteAt p.params 0)) = false :=
  accepted_owners ha (List.mem_singleton.mpr rfl)

end

end Sys2Proof.Machine

namespace Sys2Proof
open Machine

/-- Settles O55: each command by the branch of its handler. -/
theorem queueAndPlacementCommands : Obligations.QueueAndPlacementCommands := by
  unfold Obligations.QueueAndPlacementCommands
  intro s h p
  refine ⟨fun ha => ⟨fun hs hu => ?_, fun hs => ⟨fun hr => ?_, fun hr => ?_⟩⟩, fun ha => answers (by decide) rfl (.inr rfl) ha rfl,
    fun ha => answers (by decide) rfl (.inr rfl) ha rfl, fun ha => ⟨fun hs hm => ?_, fun hs hm => ?_, fun hs => ?_, fun hh hf => ?_⟩,
    fun ha => answers (by decide) rfl (.inr rfl) ha rfl, fun t => rfl, fun ha => answers (by decide) rfl (.inr rfl) ha rfl,
    fun ha => ⟨fun hw h6 => ?_, fun hw hn => ?_, fun hw hn h6 h4 => ?_, fun hw hn h4 hc => ?_, fun hw h6 => ?_, fun hw hn h6 => ?_⟩,
    fun ha hz hb => ?_, fun ha => ⟨fun hq => ?_, fun hq => ?_, fun hq => ?_⟩⟩
  · exact qConfig_answers ha (qConfig_inUse (Safety.cmdOf 0x0300 h p) (Safety.begun 0x0300 h p s) (qConfig_owned ha) hs hu)
  · exact qConfig_answers ha (qConfig_noRoom (Safety.cmdOf 0x0300 h p) (Safety.begun 0x0300 h p s) (qConfig_owned ha) hs hr)
  · exact qConfig_answers ha (qConfig_sets (Safety.cmdOf 0x0300 h p) (Safety.begun 0x0300 h p s) (qConfig_owned ha) hs hr)
  · exact qReplay_answers ha ((qReplay_held (Safety.cmdOf 0x0303 h p) (Safety.begun 0x0303 h p s) hs).trans (if_pos hm))
  · exact qReplay_answers ha ((qReplay_held (Safety.cmdOf 0x0303 h p) (Safety.begun 0x0303 h p s) hs).trans (if_neg hm))
  · exact qReplay_answers ha (qReplay_flight (Safety.cmdOf 0x0303 h p) (Safety.begun 0x0303 h p s) hs)
  · exact qReplay_answers ha (qReplay_already (Safety.cmdOf 0x0303 h p) (Safety.begun 0x0303 h p s) hh hf)
  · exact placeHint_answers ha ((placeHint_drops (Safety.cmdOf 0x0402 h p) (Safety.begun 0x0402 h p s) hw).trans
      (congrArg (·, _) (if_neg h6)))
  · exact placeHint_answers ha (placeHint_full (Safety.cmdOf 0x0402 h p) (Safety.begun 0x0402 h p s) hw hn)
  · exact placeHint_answers ha (placeHint_keeps (Safety.cmdOf 0x0402 h p) (Safety.begun 0x0402 h p s) hw hn h6 h4)
  · exact placeHint_answers ha (placeHint_fetches (Safety.cmdOf 0x0402 h p) (Safety.begun 0x0402 h p s) hw hn h4 hc)
  · exact placeHint_answers ha ((placeHint_drops (Safety.cmdOf 0x0402 h p) (Safety.begun 0x0402 h p s) hw).trans
      (congrArg (·, _) (if_pos h6)))
  · exact placeHint_answers ha (placeHint_routes (Safety.cmdOf 0x0402 h p) (Safety.begun 0x0402 h p s) hw hn h6)
  · have hfree : (Safety.begun 0x0403 h p s).busyKey (keyUnit (0x1000 + byteAt p.params 0)) = false :=
      (bg_busy 0x0403 h p s (by unfold keyUnit; omega)).trans hb
    exact ⟨fun he hp => placePin_answers ha hz (placePin_unpinned (Safety.cmdOf 0x0403 h p) (Safety.begun 0x0403 h p s) hfree he hp),
      fun he hp => placePin_answers ha hz (placePin_unpins (Safety.cmdOf 0x0403 h p) (Safety.begun 0x0403 h p s) hfree he hp),
      fun he hp => placePin_answers ha hz (placePin_same (Safety.cmdOf 0x0403 h p) (Safety.begun 0x0403 h p s) hfree he hp),
      fun he hp hn => ⟨fun hf => placePin_answers ha hz
          (placePin_noRoom (Safety.cmdOf 0x0403 h p) (Safety.begun 0x0403 h p s) hfree he hp hn hf),
        fun hf hr hs => placePin_answers ha hz (placePin_stays (Safety.cmdOf 0x0403 h p) (Safety.begun 0x0403 h p s) hfree he hp hn hf hr hs),
        fun g hf hr hg hne ht => placePin_answers ha hz
          (placePin_moves (Safety.cmdOf 0x0403 h p) (Safety.begun 0x0403 h p s) hfree he hp hn hf hr hg hne ht)⟩⟩
  all_goals
    refine placeReport_answers ha ((placeReport_run (Safety.cmdOf 0x0404 h p) (Safety.begun 0x0404 h p s)).trans ?_)
    rw [show byteAt (Safety.cmdOf 0x0404 h p).params 0 = _ from hq]
    rfl

end Sys2Proof
end

section
/-!
The CAN commands (R289, R290, R410, R426, R428).
-/
namespace Sys2Proof.Machine

/-! ### CAN_CONFIG (R289, R410) -/

section
variable (x : Cmd) (s : State) (hown : claimLost x (s.can (byteAt x.params 0)).owner = false)
include hown

theorem canConfig_isolated (hi : s.canIsolated (byteAt x.params 0) = true) : canConfigCmd.run x s = (s, .final stLocked []) :=
  (if_neg (Bool.eq_false_iff.mp hown)).trans (if_pos hi)

variable (hi : s.canIsolated (byteAt x.params 0) = false)
include hi

theorem canConfig_writes : canConfigCmd.run x s =
    (driveStb (byteAt x.params 0) (updateWarning (byteAt x.params 0)
      (if ((s.can (byteAt x.params 0)).configure x.params).mode = 0 then
        setCan (byteAt x.params 0) { ((canStop (byteAt x.params 0) s).can (byteAt x.params 0)).configure x.params with st := 0 }
          (canStop (byteAt x.params 0) s)
      else if (s.can (byteAt x.params 0)).st != 0 && (s.can (byteAt x.params 0)).sameBus ((s.can (byteAt x.params 0)).configure x.params) then
        setCan (byteAt x.params 0) ((s.can (byteAt x.params 0)).configure x.params) s
      else canStart (byteAt x.params 0) (setCan (byteAt x.params 0)
        (((endFall (byteAt x.params 0) (canOff (byteAt x.params 0) s)).can (byteAt x.params 0)).configure x.params)
        (endFall (byteAt x.params 0) (canOff (byteAt x.params 0) s))))), .final stOk []) :=
  (if_neg (Bool.eq_false_iff.mp hown)).trans (if_neg (Bool.eq_false_iff.mp hi))

/-- What a configuration leaves once the mode is judged: the warning and the standby pin follow. -/
def canConfigured (ch : Nat) (t : State) : State × Ans := (driveStb ch (updateWarning ch t), .final stOk [])

theorem canConfig_off (hm : ((s.can (byteAt x.params 0)).configure x.params).mode = 0) : canConfigCmd.run x s =
    canConfigured (byteAt x.params 0) (setCan (byteAt x.params 0)
      { ((canStop (byteAt x.params 0) s).can (byteAt x.params 0)).configure x.params with st := 0 } (canStop (byteAt x.params 0) s)) :=
  (canConfig_writes x s hown hi).trans (congrArg (canConfigured _) (if_pos hm))

variable (hm : ((s.can (byteAt x.params 0)).configure x.params).mode ≠ 0)
include hm

theorem canConfig_on (hs : (s.can (byteAt x.params 0)).st ≠ 0)
    (hb : (s.can (byteAt x.params 0)).sameBus ((s.can (byteAt x.params 0)).configure x.params) = true) : canConfigCmd.run x s =
    canConfigured (byteAt x.params 0) (setCan (byteAt x.params 0) ((s.can (byteAt x.params 0)).configure x.params) s) :=
  (canConfig_writes x s hown hi).trans (congrArg (canConfigured _) ((if_neg hm).trans (if_pos (by simp [hs, hb]))))

theorem canConfig_starts (hs : (s.can (byteAt x.params 0)).st = 0 ∨
      (s.can (byteAt x.params 0)).sameBus ((s.can (byteAt x.params 0)).configure x.params) = false) : canConfigCmd.run x s =
    canConfigured (byteAt x.params 0) (canStart (byteAt x.params 0) (setCan (byteAt x.params 0)
      (((endFall (byteAt x.params 0) (canOff (byteAt x.params 0) s)).can (byteAt x.params 0)).configure x.params)
      (endFall (byteAt x.params 0) (canOff (byteAt x.params 0) s)))) :=
  (canConfig_writes x s hown hi).trans (congrArg (canConfigured _) ((if_neg hm).trans (if_neg (by rcases hs with hs | hs <;> simp [hs]))))

end

/-! ### CAN_SEND (R289, R426) -/

/-- The send object of CAN_SEND with the frame that it names. -/
def sendFilled (ps : List Byte) (s : State) : State :=
  modObj (byteAt ps 0) (byteAt ps 1) (fun o =>
    { o with ident := BitVec.ofNat 32 (b2n (bitOf (byteAt ps 2) 2) * 2 ^ 31 + b2n (bitOf (byteAt ps 2) 0) * 2 ^ 30 +
               b2n (bitOf (byteAt ps 2) 1) * 2 ^ 29 + field ps 4 4),
             frame := BitVec.ofNat 32 (b2n (bitOf (byteAt ps 2) 0) * 2 ^ 21 + b2n (bitOf (byteAt ps 2) 1) * 2 ^ 20 +
               dlcOf (byteAt ps 3) * 2 ^ 16 + byteAt ps 3),
             data := dataWords ((ps.drop 8).take (byteAt ps 3)) }) s

/-- A send that its channel's mode cannot carry is over, with result 6. -/
def sendOver (ch k : Nat) (s : State) : State :=
  endSend ch k 6 (modObj ch k (fun o => { o with busy := true, attempts := 0, errored := 0, op := none, sofAt := none }) s)

section
variable (x : Cmd) (s : State)

theorem canSend_locked (h : s.canIsolated (byteAt x.params 0) = true ∨ ((s.can (byteAt x.params 0)).obj (byteAt x.params 1)).busy = true) :
    canSendCmd.run x s = (s, .final stLocked []) :=
  if_pos (Bool.or_eq_true_iff.mpr h)

variable (hi : s.canIsolated (byteAt x.params 0) = false) (hb : ((s.can (byteAt x.params 0)).obj (byteAt x.params 1)).busy = false)
include hi hb

theorem canSend_free : ¬ (s.canIsolated (byteAt x.params 0) || ((s.can (byteAt x.params 0)).obj (byteAt x.params 1)).busy) = true := by
  rw [hi, hb]; exact nofun

theorem canSend_requests (ht : ((s.can (byteAt x.params 0)).classicOnly &&
      (((sendFilled x.params s).can (byteAt x.params 0)).obj (byteAt x.params 1)).tooLong) = false) :
    canSendCmd.run x s = (requestSend (byteAt x.params 0) (byteAt x.params 1) (some (x.host, x.tag)) (sendFilled x.params s),
      .running stAccepted (keyObj (byteAt x.params 0) (byteAt x.params 1)) [byteAt x.params 0, byteAt x.params 1]) :=
  (if_neg (canSend_free x s hi hb)).trans (if_neg (Bool.eq_false_iff.mp ht))

theorem canSend_tooLong (ht : ((s.can (byteAt x.params 0)).classicOnly &&
      (((sendFilled x.params s).can (byteAt x.params 0)).obj (byteAt x.params 1)).tooLong) = true) :
    let sent := sendOver (byteAt x.params 0) (byteAt x.params 1) (sendFilled x.params s)
    canSendCmd.run x s =
      (sent, .event stAborted (u64 ((sent.can (byteAt x.params 0)).obj (byteAt x.params 1)).stamp.toNat ++ [0, 0, 0, 0])) :=
  (if_neg (canSend_free x s hi hb)).trans (if_pos ht)

end

/-! ### CAN_TIME_MASTER (R428) -/

section
variable (x : Cmd) (s : State)

theorem canTimeMaster_locked (h : s.canIsolated (byteAt x.params 0) = true ∨ (s.can (byteAt x.params 0)).listens = true) :
    canTimeMasterCmd.run x s = (s, .final stLocked []) :=
  if_pos (Bool.or_eq_true_iff.mpr h)

variable (hi : s.canIsolated (byteAt x.params 0) = false) (hl : (s.can (byteAt x.params 0)).listens = false)
include hi hl

theorem canTimeMaster_free : ¬ (s.canIsolated (byteAt x.params 0) || (s.can (byteAt x.params 0)).listens) = true := by
  rw [hi, hl]; exact nofun

theorem canTimeMaster_ends (he : field x.params 1 1 = 0) :
    canTimeMasterCmd.run x s = (modCan (byteAt x.params 0) (fun r => { r with master := none }) s, .final stOk []) :=
  (if_neg (canTimeMaster_free x s hi hl)).trans (if_pos he)

variable (he : field x.params 1 1 ≠ 0)
include he

theorem canTimeMaster_off (hm : (s.can (byteAt x.params 0)).mode = 0) : canTimeMasterCmd.run x s = (s, .final stLocked []) :=
  (if_neg (canTimeMaster_free x s hi hl)).trans ((if_neg he).trans (if_pos hm))

theorem canTimeMaster_sets (hm : (s.can (byteAt x.params 0)).mode ≠ 0) :
    let m : TimeMaster := { ident := BitVec.ofNat 32 (field x.params 4 4), prio := field x.params 2 1, cycle := field x.params 8 4 }
    canTimeMasterCmd.run x s = (modCan (byteAt x.params 0) (fun r => { r with master := some m }) s, .final stOk []) :=
  (if_neg (canTimeMaster_free x s hi hl)).trans ((if_neg he).trans (if_neg hm))

end

/-! ### What an accepted command of the group answers -/

section
variable {h : HostId} {p : Packet} {s : State} {a : Ans} {s1 : State}

theorem canConfig_answers (ha : Safety.Accepted 0x0600 canConfigCmd h p s)
    (hr : canConfigCmd.run (Safety.cmdOf 0x0600 h p) (Safety.begun 0x0600 h p s) = (s1, a)) :
    Safety.Answers (.canConfig p) 0x0600 h p s a s1 := answers (by decide) rfl (.inr rfl) ha hr

theorem canConfig_owned (ha : Safety.Accepted 0x0600 canConfigCmd h p s) :
    claimLost (Safety.cmdOf 0x0600 h p) ((Safety.begun 0x0600 h p s).can (byteAt p.params 0)).owner = false :=
  accepted_owners ha (List.mem_singleton.mpr rfl)

theorem canObjConfig_answers (ha : Safety.Accepted 0x0601 canObjConfigCmd h p s)
    (hr : canObjConfigCmd.run (Safety.cmdOf 0x0601 h p) (Safety.begun 0x0601 h p s) = (s1, a)) :
    Safety.Answers (.canObjConfig p) 0x0601 h p s a s1 := answers (by decide) rfl (.inr rfl) ha hr

theorem canSend_answers (ha : Safety.Accepted 0x0603 canSendCmd h p s)
    (hr : canSendCmd.run (Safety.cmdOf 0x0603 h p) (Safety.begun 0x0603 h p s) = (s1, a)) :
    Safety.Answers (.canSend p) 0x0603 h p s a s1 := answers (by decide) rfl (.inr rfl) ha hr

theorem canTimeMaster_answers (ha : Safety.Accepted 0x0605 canTimeMasterCmd h p s)
    (hr : canTimeMasterCmd.run (Safety.cmdOf 0x0605 h p) (Safety.begun 0x0605 h p s) = (s1, a)) :
    Safety.Answers (.canTimeMaster p) 0x0605 h p s a s1 := answers (by decide) rfl (.inr rfl) ha hr

end

end Sys2Proof.Machine

namespace Sys2Proof
open Machine

/-- Settles O56: each command by the branch of its handler that its channel takes. -/
theorem canCommands : Obligations.CanCommands := by
  unfold Obligations.CanCommands
  intro s h p
  refine ⟨fun ha => ⟨fun hi => ?_, fun hi hm => ?_, fun hi hm hs hb => ?_, fun hi hm hs => ?_⟩, fun ha => ⟨fun ho => ?_, fun ho => ?_⟩,
    fun ha => answers (by decide) rfl (.inr rfl) ha rfl, fun ha => ⟨fun hl => ?_, fun hi hb ht => ?_, fun hi hb ht => ?_⟩,
    fun ha => answers (by decide) rfl (.inr rfl) ha rfl,
    fun ha => ⟨fun hl => ?_, fun hi hl he => ?_, fun hi hl he hm => ?_, fun hi hl he hm => ?_⟩⟩
  · exact canConfig_answers ha (canConfig_isolated (Safety.cmdOf 0x0600 h p) (Safety.begun 0x0600 h p s) (canConfig_owned ha) hi)
  · exact canConfig_answers ha (canConfig_off (Safety.cmdOf 0x0600 h p) (Safety.begun 0x0600 h p s) (canConfig_owned ha) hi hm)
  · exact canConfig_answers ha (canConfig_on (Safety.cmdOf 0x0600 h p) (Safety.begun 0x0600 h p s) (canConfig_owned ha) hi hm hs hb)
  · exact canConfig_answers ha (canConfig_starts (Safety.cmdOf 0x0600 h p) (Safety.begun 0x0600 h p s) (canConfig_owned ha) hi hm hs)
  · exact canObjConfig_answers ha (if_pos ho)
  · exact canObjConfig_answers ha (if_neg (Option.not_isSome_iff_eq_none.mpr ho))
  · exact canSend_answers ha (canSend_locked (Safety.cmdOf 0x0603 h p) (Safety.begun 0x0603 h p s) hl)
  · exact canSend_answers ha (canSend_requests (Safety.cmdOf 0x0603 h p) (Safety.begun 0x0603 h p s) hi hb ht)
  · exact canSend_answers ha (canSend_tooLong (Safety.cmdOf 0x0603 h p) (Safety.begun 0x0603 h p s) hi hb ht)
  · exact canTimeMaster_answers ha (canTimeMaster_locked (Safety.cmdOf 0x0605 h p) (Safety.begun 0x0605 h p s) hl)
  · exact canTimeMaster_answers ha (canTimeMaster_ends (Safety.cmdOf 0x0605 h p) (Safety.begun 0x0605 h p s) hi hl he)
  · exact canTimeMaster_answers ha (canTimeMaster_off (Safety.cmdOf 0x0605 h p) (Safety.begun 0x0605 h p s) hi hl he hm)
  · exact canTimeMaster_answers ha (canTimeMaster_sets (Safety.cmdOf 0x0605 h p) (Safety.begun 0x0605 h p s) hi hl he hm)

end Sys2Proof
end

section
/-!
The trunk and time commands (R291 to R293, R302, R314, R317).
-/
namespace Sys2Proof.Machine

section
variable {h : HostId} {p : Packet} {s : State}

/-! ### TRK_CONFIG and TRK_ROUTE (R291, R302, R317) -/

theorem trkConfig_locked (ha : Safety.Accepted 0x0700 trkConfigCmd h p s)
    (hl : (s.trunk (byteAt p.params 0)).isolated = true ∨ (s.flt 81).isolated = true) :
    Safety.Answers (.trkConfig p) 0x0700 h p s (.final stLocked []) (Safety.begun 0x0700 h p s) :=
  answers (by decide) rfl (.inr rfl) ha (if_pos (Bool.or_eq_true_iff.mpr hl))

theorem trkConfig_applies (ha : Safety.Accepted 0x0700 trkConfigCmd h p s)
    (ht : (s.trunk (byteAt p.params 0)).isolated = false) (hf : (s.flt 81).isolated = false) :
    Safety.Answers (.trkConfig p) 0x0700 h p s (.final stOk [])
      (applyTrk (byteAt p.params 0) (trkCfgOf (s.trunk (byteAt p.params 0)).cfg p.params) (Safety.begun 0x0700 h p s)) :=
  answers (by decide) rfl (.inr rfl) ha
    (if_neg (show ¬ ((s.trunk (byteAt p.params 0)).isolated || (s.flt 81).isolated) = true by rw [ht, hf]; exact nofun))

/-- The static routes that TRK_ROUTE leaves. -/
def newRoutes (ps : List Byte) (l : List (Nat × Half × Nat)) : List (Nat × Half × Nat) :=
  match byteAt ps 0 with
  | 0 => addRoute (byteAt ps 1) (BitVec.ofNat 16 (field ps 2 2)) (byteAt ps 4) l
  | 1 => removeRoute (byteAt ps 1) (BitVec.ofNat 16 (field ps 2 2)) (byteAt ps 4) l
  | _ => []

theorem trkRoute_run (x : Cmd) (s : State) : trkRouteCmd.run x s =
    if 256 < (newRoutes x.params s.net.routes).length then (s, .final stCapacity (u16 s.net.routes.length))
    else (withTopology (modNet fun t => { t with routes := newRoutes x.params s.net.routes }) s,
      .final stOk (u16 (newRoutes x.params s.net.routes).length)) := rfl

theorem newRoutes_eq {ps : List Byte} {l new : List (Nat × Half × Nat)}
    (h0 : byteAt ps 0 = 0 → new = addRoute (byteAt ps 1) (BitVec.ofNat 16 (field ps 2 2)) (byteAt ps 4) l)
    (h1 : byteAt ps 0 = 1 → new = removeRoute (byteAt ps 1) (BitVec.ofNat 16 (field ps 2 2)) (byteAt ps 4) l)
    (h2 : byteAt ps 0 = 2 → new = []) (hn : byteAt ps 0 ≤ 2) : newRoutes ps l = new := by
  unfold newRoutes
  obtain hb | hb | hb : byteAt ps 0 = 0 ∨ byteAt ps 0 = 1 ∨ byteAt ps 0 = 2 := by omega
  · rw [hb]; exact (h0 hb).symm
  · rw [hb]; exact (h1 hb).symm
  · rw [hb]; exact (h2 hb).symm

section
variable (ha : Safety.Accepted 0x0702 trkRouteCmd h p s)
include ha

theorem trkRoute_full (hn : 256 < (newRoutes p.params s.net.routes).length) :
    Safety.Answers (.trkRoute p) 0x0702 h p s (.final stCapacity (u16 s.net.routes.length)) (Safety.begun 0x0702 h p s) :=
  answers (by decide) rfl (.inr rfl) ha ((trkRoute_run (Safety.cmdOf 0x0702 h p) (Safety.begun 0x0702 h p s)).trans (if_pos hn))

theorem trkRoute_changes (hn : (newRoutes p.params s.net.routes).length ≤ 256) :
    Safety.Answers (.trkRoute p) 0x0702 h p s (.final stOk (u16 (newRoutes p.params s.net.routes).length))
      (withTopology (modNet fun t => { t with routes := newRoutes p.params s.net.routes }) (Safety.begun 0x0702 h p s)) :=
  answers (by decide) rfl (.inr rfl) ha
    ((trkRoute_run (Safety.cmdOf 0x0702 h p) (Safety.begun 0x0702 h p s)).trans (if_neg (Nat.not_lt.mpr hn)))

end

/-! ### TIME_SET (R293) -/

theorem timeSet_run {x : Cmd} {s : State} {t : Int} (ht : s.timeTarget x.params = some t) : timeSetCmd.run x s =
    let set_ := if field x.params 12 4 = 0 then s else modTime (fun v => { v with threshold := field x.params 12 4 }) s
    let stepped := stepTime (t - s.time.now.toNat) 1 (setSqc aTimeState [2] set_)
    (stepped, .final stOk (u64 stepped.time.now.toNat)) := by
  unfold timeSetCmd; dsimp only; rw [ht]

theorem timeSet_steps (ha : Safety.Accepted 0x0800 timeSetCmd h p s) {t : Int} (ht : s.timeTarget p.params = some t) :
    let b := Safety.begun 0x0800 h p s
    let set_ := if field p.params 12 4 = 0 then b else modTime (fun v => { v with threshold := field p.params 12 4 }) b
    let stepped := stepTime (t - s.time.now.toNat) 1 (setSqc aTimeState [2] set_)
    Safety.Answers (.timeSet p) 0x0800 h p s (.final stOk (u64 stepped.time.now.toNat)) stepped :=
  answers (by decide) rfl (.inr rfl) ha (timeSet_run (x := Safety.cmdOf 0x0800 h p) (s := Safety.begun 0x0800 h p s) ht)

end

end Sys2Proof.Machine

namespace Sys2Proof
open Machine

/-- Settles O57: the reports from the state, the settings and TIME by the branch of their handler. -/
theorem trunkAndTimeCommands : Obligations.TrunkAndTimeCommands := by
  unfold Obligations.TrunkAndTimeCommands
  intro s h p
  refine ⟨fun ha => ⟨fun hl => trkConfig_locked ha hl, fun ht hf => trkConfig_applies ha ht hf⟩,
    fun ha => answers (by decide) rfl (.inr rfl) ha rfl, fun ha new h0 h1 h2 hn => ?_, fun ha => answers (by decide) rfl (.inr rfl) ha rfl,
    fun x hx ha => timeSet_steps ha hx, fun ha => answers (by decide) rfl (.inr rfl) ha rfl,
    fun ha => answers (by decide) rfl (.inr rfl) ha rfl⟩
  obtain rfl := newRoutes_eq h0 h1 h2 hn
  exact ⟨fun hl => trkRoute_full ha hl, fun hl => trkRoute_changes ha hl⟩

end Sys2Proof
end

section
/-!
The fault, Ash log and test commands (R166, R171, R294, R295, R481, R484, R488).
-/
namespace Sys2Proof.Machine

section
variable (x : Cmd) (s : State)

/-! ### FLT_ACK and FLT_FORCE (R481, R484) -/

/-- What FLT_ACK acknowledges, and whether the unit's test runs first. -/
def ackAsked (x : Cmd) (s : State) : State × Nat × Bool := ackFlt (field x.params 0 2) (bitOf (byteAt x.params 2) 0) s

theorem fltAck_waits (hw : (ackAsked x s).2.2 = true) :
    fltAckCmd.run x s = ((ackAsked x s).1, .running stAccepted (keyAck (field x.params 0 2)) [field x.params 0 2]) := if_pos hw

theorem fltAck_ends (hw : (ackAsked x s).2.2 = false) :
    fltAckCmd.run x s = ((ackAsked x s).1, .final (ackAsked x s).2.1 (u8 ((ackAsked x s).1.flt (field x.params 0 2)).level)) :=
  if_neg (Bool.eq_false_iff.mp hw)

/-- What FLT_FORCE does in each of its modes. -/
theorem fltForce_run : fltForceCmd.run x s =
    ((match byteAt x.params 2 with
      | 0 => releaseHold (field x.params 0 2) s
      | 1 => injectPulse (field x.params 0 2) s
      | _ => injectHold (field x.params 0 2) s), .final stOk []) := rfl

/-! ### TEST_RUN, CAL_RUN and TEST_STATUS (R166, R171, R295) -/

/-- The unit that TEST_RUN names. -/
def unitAsked (ps : List Byte) : TUnit := unitOf (byteAt ps 0) (byteAt ps 1)

/-- The test that TEST_RUN asks for. -/
def testAsked (x : Cmd) : Test := { unit := unitAsked x.params, who := .run x.host x.tag }

theorem testRun_locked (h : s.unitIsolated (unitAsked x.params) = true ∨ s.testing (unitAsked x.params) = true) :
    testRunCmd.run x s = (s, .final stLocked []) :=
  if_pos (Bool.or_eq_true_iff.mpr h)

theorem testRun_asks (hi : s.unitIsolated (unitAsked x.params) = false) (ht : s.testing (unitAsked x.params) = false) :
    testRunCmd.run x s = (askTest (testAsked x) s, .running (if s.testStarts (testAsked x) then stAccepted else stDeferred)
      (keyTest (unitAsked x.params)) [unitType (unitAsked x.params), unitNo (unitAsked x.params)]) :=
  if_neg (show ¬ (s.unitIsolated (unitAsked x.params) || s.testing (unitAsked x.params)) = true by rw [hi, ht]; exact nofun)

theorem calRun_none (h : bitsOf 32 (field x.params 0 4) = []) : calRunCmd.run x s = (s, .event stOk (List.replicate 8 0)) := by
  unfold calRunCmd; dsimp only; rw [h]

theorem calRun_some (h : bitsOf 32 (field x.params 0 4) ≠ []) : calRunCmd.run x s =
    if (bitsOf 32 (field x.params 0 4)).any s.busyPort then (s, .final stLocked [])
    else (calStart (bitsOf 32 (field x.params 0 4)) (some (x.host, x.tag)) s, .running stAccepted keyCal []) := by
  unfold calRunCmd; dsimp only
  split
  · next hn => exact absurd hn h
  · rfl

/-- What TEST_STATUS answers of the first `n` units of its type. -/
def testReport (ps : List Byte) (s : State) (n : Nat) : Ans :=
  .final stOk (u8 (((upTo n).drop (byteAt ps 1)).take 29).length ++ [0, 0, 0] ++
    (((upTo n).drop (byteAt ps 1)).take 29).flatMap (s.testEntry (byteAt ps 0)))

/-- The number of units of a type: engines, payload banks, control banks and ports. -/
def typeUnits : Nat → Nat
  | 0 => 12
  | 1 => 16
  | 2 => 8
  | _ => 32

theorem testStatus_run : testStatusCmd.run x s = (s, testReport x.params s (typeUnits (byteAt x.params 0))) := rfl

end

/-! ### FLT_READ (R294): the records and the entries of TEST_STATUS in the state in which the command runs -/

section
variable (op : Nat) (h : HostId) (p : Packet) (s : State)

theorem begun_feed (g : HostId) : (Safety.begun op h p s).feed g = s.feed g := by
  cases g <;> rfl

theorem begun_unitOff (src : Nat) : (Safety.begun op h p s).unitOff src = s.unitOff src := by
  unfold State.unitOff
  rw [begun_feed]
  rfl

theorem begun_fltRecord : (Safety.begun op h p s).fltRecord = s.fltRecord := by
  funext src
  unfold State.fltRecord
  rw [begun_unitOff]
  rfl

theorem begun_testEntry : (Safety.begun op h p s).testEntry = s.testEntry := by
  funext t i
  unfold State.testEntry
  rfl

/-- The sources that FLT_READ reports. -/
def readSources (ps : List Byte) (s : State) : List Nat :=
  (if bitOf (byteAt ps 3) 0 then ((upTo 160).drop (field ps 0 2)).filter fun k => !(s.flt k).active.isEmpty
   else (upTo 160).drop (field ps 0 2)).take (byteAt ps 2)

theorem fltRead_run (x : Cmd) : fltReadCmd.run x s = (s, .final stOk (u8 (readSources x.params s).length ++ [0, 0, 0] ++
    (readSources x.params s).flatMap s.fltRecord)) := rfl

variable {h p s}

theorem fltRead_reports (ha : Safety.Accepted 0x0900 fltReadCmd h p s) :
    Safety.Answers (.fltRead p) 0x0900 h p s (.final stOk (u8 (readSources p.params s).length ++ [0, 0, 0] ++
      (readSources p.params s).flatMap s.fltRecord)) (Safety.begun 0x0900 h p s) := by
  have hrun := fltRead_run (Safety.begun 0x0900 h p s) (Safety.cmdOf 0x0900 h p)
  rw [begun_fltRecord] at hrun
  exact answers (by decide) rfl (.inr rfl) ha hrun

end

/-! ### What an accepted command of the group answers -/

section
variable {h : HostId} {p : Packet} {s : State} {a : Ans} {s1 : State}

theorem fltAck_answers (ha : Safety.Accepted 0x0901 fltAckCmd h p s)
    (hr : fltAckCmd.run (Safety.cmdOf 0x0901 h p) (Safety.begun 0x0901 h p s) = (s1, a)) :
    Safety.Answers (.fltAck p) 0x0901 h p s a s1 := answers (by decide) rfl (.inr rfl) ha hr

theorem fltForce_answers (ha : Safety.Accepted 0x0902 fltForceCmd h p s) (hs : s1 =
      match byteAt p.params 2 with
      | 0 => releaseHold (field p.params 0 2) (Safety.begun 0x0902 h p s)
      | 1 => injectPulse (field p.params 0 2) (Safety.begun 0x0902 h p s)
      | _ => injectHold (field p.params 0 2) (Safety.begun 0x0902 h p s)) :
    Safety.Answers (.fltForce p) 0x0902 h p s (.final stOk []) s1 :=
  answers (by decide) rfl (.inr rfl) ha
    ((fltForce_run (Safety.cmdOf 0x0902 h p) (Safety.begun 0x0902 h p s)).trans (congrArg (·, _) hs.symm))

theorem testRun_answers (ha : Safety.Accepted 0x0A00 testRunCmd h p s) (hz : s.dev.power ≠ .doze)
    (hr : testRunCmd.run (Safety.cmdOf 0x0A00 h p) (Safety.begun 0x0A00 h p s) = (s1, a)) :
    Safety.Answers (.testRun p) 0x0A00 h p s a s1 := answers (by decide) rfl (.inl hz) ha hr

theorem calRun_answers (ha : Safety.Accepted 0x0A01 calRunCmd h p s)
    (hr : calRunCmd.run (Safety.cmdOf 0x0A01 h p) (Safety.begun 0x0A01 h p s) = (s1, a)) :
    Safety.Answers (.calRun p) 0x0A01 h p s a s1 := answers (by decide) rfl (.inr rfl) ha hr

theorem testStatus_answers (ha : Safety.Accepted 0x0A02 testStatusCmd h p s) {n : Nat} (hn : typeUnits (byteAt p.params 0) = n) :
    Safety.Answers (.testStatus p) 0x0A02 h p s (testReport p.params s n) (Safety.begun 0x0A02 h p s) := by
  subst hn
  have hrun := testStatus_run (Safety.cmdOf 0x0A02 h p) (Safety.begun 0x0A02 h p s)
  unfold testReport at hrun ⊢
  rw [begun_testEntry] at hrun
  exact answers (by decide) rfl (.inr rfl) ha hrun

/-- The packet's own command holds no port. -/
theorem begun_anyBusy (op : Nat) (l : List Nat) : l.any (Safety.begun op h p s).busyPort = l.any s.busyPort :=
  congrArg l.any (funext fun k => bg_busyPort op h p s k)

end

end Sys2Proof.Machine

namespace Sys2Proof
open Machine

/-- Settles O58: each command by the branch of its handler, a calibration by the ports that it names. -/
theorem faultAndTestCommands : Obligations.FaultAndTestCommands := by
  unfold Obligations.FaultAndTestCommands
  intro s h p
  refine ⟨fun ha => fltRead_reports ha, fun ha => ⟨fun hw => ?_, fun hw => ?_⟩,
    fun ha => ⟨fun hm => ?_, fun hm => ?_, fun hm => ?_⟩, fun ha => answers (by decide) rfl (.inr rfl) ha rfl,
    fun ha hz => ⟨fun hl => ?_, fun hi ht => ?_⟩, fun ha => ⟨fun hn => ?_, fun hn hb => ?_, fun hn hb => ?_⟩,
    fun ha => ⟨fun hk => ?_, fun hk => ?_, fun hk => ?_, fun hk => ?_⟩⟩
  · exact fltAck_answers ha (fltAck_waits (Safety.cmdOf 0x0901 h p) (Safety.begun 0x0901 h p s) hw)
  · exact fltAck_answers ha (fltAck_ends (Safety.cmdOf 0x0901 h p) (Safety.begun 0x0901 h p s) hw)
  · exact fltForce_answers ha (by rw [hm]; rfl)
  · exact fltForce_answers ha (by rw [hm]; rfl)
  · exact fltForce_answers ha (by rw [hm]; rfl)
  · exact testRun_answers ha hz (testRun_locked (Safety.cmdOf 0x0A00 h p) (Safety.begun 0x0A00 h p s) hl)
  · exact testRun_answers ha hz (testRun_asks (Safety.cmdOf 0x0A00 h p) (Safety.begun 0x0A00 h p s) hi ht)
  · exact calRun_answers ha (calRun_none (Safety.cmdOf 0x0A01 h p) (Safety.begun 0x0A01 h p s) hn)
  · exact calRun_answers ha ((calRun_some (Safety.cmdOf 0x0A01 h p) (Safety.begun 0x0A01 h p s) hn).trans
      (if_pos ((begun_anyBusy ..).trans hb)))
  · exact calRun_answers ha ((calRun_some (Safety.cmdOf 0x0A01 h p) (Safety.begun 0x0A01 h p s) hn).trans
      (if_neg (Bool.eq_false_iff.mp ((begun_anyBusy ..).trans hb))))
  · exact testStatus_answers ha (by rw [hk]; rfl)
  · exact testStatus_answers ha (by rw [hk]; rfl)
  · exact testStatus_answers ha (by rw [hk]; rfl)
  · exact testStatus_answers ha (by rw [hk]; rfl)

end Sys2Proof
end

section
/-!
The firmware and security commands (R296 to R299, R495, R506 to R511).
-/
namespace Sys2Proof.Machine

/-! ### FW_STAGE and FW_ACTIVATE (R296, R297) -/

section
variable (x : Cmd) (s : State)

theorem fwStage_locked (hl : s.otp.lifeCycle = 3 ∨ s.slotHeld (byteAt x.params 0) = true) :
    fwStageCmd.run x s = (s, .final stLocked []) := if_pos hl

section
variable (hc : s.otp.lifeCycle ≠ 3) (hf : s.slotHeld (byteAt x.params 0) = false)
include hc hf

theorem fwStage_run : fwStageCmd.run x s =
    match byteAt x.params 1 with
    | 0 => (modFw (fun f => { f with busy := .erasing (byteAt x.params 0) x.host x.tag }) s,
        .running stAccepted (keySlot (byteAt x.params 0)) [])
    | 1 => (modSlot (byteAt x.params 0) (program (field x.params 4 4) ((x.params.drop 8).take 224)) s, .final stOk [])
    | _ => (modFw (fun f => { f with busy := .verifying (byteAt x.params 0) x.host x.tag }) s,
        .running stAccepted (keySlot (byteAt x.params 0)) []) :=
  if_neg (by simp [hc, hf])

theorem fwStage_erases (hk : byteAt x.params 1 = 0) : fwStageCmd.run x s =
    (modFw (fun f => { f with busy := .erasing (byteAt x.params 0) x.host x.tag }) s, .running stAccepted (keySlot (byteAt x.params 0)) []) := by
  rw [fwStage_run x s hc hf, hk]; rfl

theorem fwStage_programs (hk : byteAt x.params 1 = 1) : fwStageCmd.run x s =
    (modSlot (byteAt x.params 0) (program (field x.params 4 4) ((x.params.drop 8).take 224)) s, .final stOk []) := by
  rw [fwStage_run x s hc hf, hk]; rfl

theorem fwStage_verifies (hk : byteAt x.params 1 = 2) : fwStageCmd.run x s =
    (modFw (fun f => { f with busy := .verifying (byteAt x.params 0) x.host x.tag }) s,
      .running stAccepted (keySlot (byteAt x.params 0)) []) := by
  rw [fwStage_run x s hc hf, hk]; rfl

end

theorem fwActivate_locked (hl : s.otp.lifeCycle = 3 ∨ s.fwRuns = true) : fwActivateCmd.run x s = (s, .final stLocked []) := by
  by_cases hc : s.otp.lifeCycle = 3
  · exact if_pos hc
  · exact (if_neg hc).trans (if_pos (hl.resolve_left hc))

section
variable (hc : s.otp.lifeCycle ≠ 3) (hf : s.fwRuns = false)
include hc hf

theorem fwActivate_invalid (hs : (s.slot (byteAt x.params 0)).st ≠ 2) : fwActivateCmd.run x s = (s, .final stBadParam []) :=
  (if_neg hc).trans ((if_neg (Bool.eq_false_iff.mp hf)).trans (if_pos (by simp [hs])))

variable (hs : (s.slot (byteAt x.params 0)).st = 2)
include hs

theorem fwActivate_cold (hm : byteAt x.params 1 = 1) : fwActivateCmd.run x s =
    (modFw (fun f => { f with coldDue := true }) (tryOut (byteAt x.params 0) (modLich (fun l => { l with bootCount := 0 }) s)),
      .event stOk [0, 3]) :=
  (if_neg hc).trans ((if_neg (Bool.eq_false_iff.mp hf)).trans ((if_neg (by simp [hs])).trans (if_pos hm)))

variable (hm : byteAt x.params 1 ≠ 1)
include hm

theorem fwActivate_warm : fwActivateCmd.run x s =
    if byteAt x.params 0 = s.fw.running then
      if s.oldEngines.isEmpty then (s, .final stAlready [])
      else (modFw (fun f => { f with busy := .updating x.host x.tag, updated := 0 })
        (if s.lich.preferred = byteAt x.params 0 then s else tryOut (byteAt x.params 0) s), .running stAccepted (keyDev 0xB01) [])
    else if s.fw.ucode.toNat < (s.slot (byteAt x.params 0)).compat.toNat then (s, .final stBadParam [])
    else
      (warmRestart (byteAt x.params 0) true (tryOut (byteAt x.params 0)
        (modFw (fun f => { f with busy := .restarting (byteAt x.params 0) x.host x.tag, updated := 0 }) s)),
       .running stAccepted (keyDev 0xB01) []) :=
  (if_neg hc).trans ((if_neg (Bool.eq_false_iff.mp hf)).trans ((if_neg (by simp [hs])).trans (if_neg hm)))

theorem fwActivate_already (hk : byteAt x.params 0 = s.fw.running) (ho : s.oldEngines = []) :
    fwActivateCmd.run x s = (s, .final stAlready []) :=
  (fwActivate_warm x s hc hf hs hm).trans ((if_pos hk).trans (if_pos (List.isEmpty_iff.mpr ho)))

theorem fwActivate_updates (hk : byteAt x.params 0 = s.fw.running) (ho : s.oldEngines ≠ []) : fwActivateCmd.run x s =
    (modFw (fun f => { f with busy := .updating x.host x.tag, updated := 0 })
      (if s.lich.preferred = byteAt x.params 0 then s else tryOut (byteAt x.params 0) s), .running stAccepted (keyDev 0xB01) []) :=
  (fwActivate_warm x s hc hf hs hm).trans ((if_pos hk).trans (if_neg (mt List.isEmpty_iff.mp ho)))

theorem fwActivate_incompatible (hk : byteAt x.params 0 ≠ s.fw.running)
    (hu : s.fw.ucode.toNat < (s.slot (byteAt x.params 0)).compat.toNat) : fwActivateCmd.run x s = (s, .final stBadParam []) :=
  (fwActivate_warm x s hc hf hs hm).trans ((if_neg hk).trans (if_pos hu))

theorem fwActivate_restarts (hk : byteAt x.params 0 ≠ s.fw.running)
    (hu : (s.slot (byteAt x.params 0)).compat.toNat ≤ s.fw.ucode.toNat) : fwActivateCmd.run x s =
    (warmRestart (byteAt x.params 0) true (tryOut (byteAt x.params 0)
      (modFw (fun f => { f with busy := .restarting (byteAt x.params 0) x.host x.tag, updated := 0 }) s)),
     .running stAccepted (keyDev 0xB01) []) :=
  (fwActivate_warm x s hc hf hs hm).trans ((if_neg hk).trans (if_neg (Nat.not_lt.mpr hu)))

end

/-! ### SEC_LIFECYCLE and SEC_PROVISION (R298, R299) -/

theorem secLifecycle_locked (hw : s.otp.writing.isSome = true) : secLifecycleCmd.run x s = (s, .final stLocked []) := if_pos hw

theorem secLifecycle_writes (hw : s.otp.writing = none) (hm : s.mayMove (byteAt x.params 0) = true) : secLifecycleCmd.run x s =
    ({ s with otp := { s.otp with writing := some (.lifeCycle (byteAt x.params 0)) } }, .running stAccepted (keyDev 0xB03) []) :=
  (if_neg (by simp [hw])).trans (if_neg (by simp [hm]))

/-- A provisioning field that may not be written now. -/
def State.provisionShut (s : State) (k : Nat) : Bool :=
  s.otp.fields.written k || decide (2 ≤ s.otp.lifeCycle) || (s.cfgAt aSecGuard).getLsbD 0 || s.otp.writing.isSome

theorem secProvision_locked (hs : s.provisionShut (byteAt x.params 0) = true) : secProvisionCmd.run x s = (s, .final stLocked []) :=
  if_pos hs

theorem secProvision_writes (hs : s.provisionShut (byteAt x.params 0) = false) : secProvisionCmd.run x s =
    ({ s with otp := { s.otp with writing := some (.field (byteAt x.params 0) (BitVec.ofNat 32 (field x.params 4 4))) } },
      .running stAccepted (keyDev 0xB05) []) :=
  if_neg (Bool.eq_false_iff.mp hs)

/-! ### SEC_KEY (R510, R511) -/

/-- The key store is being zeroised, or TAMPER_N is low. -/
def State.keysShut (s : State) : Bool := s.sec.zeroising || s.sec.tamperLow

theorem secKey_run : secKeyCmd.run x s =
    match byteAt x.params 0 with
    | 0 =>
      if s.keysShut || s.otp.lifeCycle = 0 || s.otp.lifeCycle = 3 then (s, .final stLocked [])
      else ({ s with sec := { s.sec with keys := tset s.sec.keys (byteAt x.params 1) ((x.params.drop 4).take 64) } }, .final stOk [])
    | 1 =>
      if s.keysShut then (s, .final stLocked [])
      else ({ s with sec := { s.sec with keys := tdel s.sec.keys (byteAt x.params 1) } }, .final stOk [])
    | _ =>
      if s.keysShut then (s, .final stLocked [])
      else (s, .final stOk (u64 (maskOf (s.sec.keys.map fun e => e.1)) ++
        u32 (crc32c ((tfind (byteAt x.params 1) s.sec.keys).getD (List.replicate 64 0))).toNat)) := rfl

theorem secKey_shut (hs : s.keysShut = true) : secKeyCmd.run x s = (s, .final stLocked []) := by
  rw [secKey_run]
  split
  · exact if_pos (by simp [hs])
  · exact if_pos hs
  · exact if_pos hs

theorem secKey_lifeCycle (hk : byteAt x.params 0 = 0) (hc : s.otp.lifeCycle = 0 ∨ s.otp.lifeCycle = 3) :
    secKeyCmd.run x s = (s, .final stLocked []) := by
  rw [secKey_run, hk]
  exact if_pos (by rcases hc with hc | hc <;> simp [hc])

section
variable (hs : s.keysShut = false)
include hs

theorem secKey_writes (hk : byteAt x.params 0 = 0) (h0 : s.otp.lifeCycle ≠ 0) (h3 : s.otp.lifeCycle ≠ 3) : secKeyCmd.run x s =
    ({ s with sec := { s.sec with keys := tset s.sec.keys (byteAt x.params 1) ((x.params.drop 4).take 64) } }, .final stOk []) := by
  rw [secKey_run, hk]
  exact if_neg (by simp [hs, h0, h3])

theorem secKey_erases (hk : byteAt x.params 0 = 1) : secKeyCmd.run x s =
    ({ s with sec := { s.sec with keys := tdel s.sec.keys (byteAt x.params 1) } }, .final stOk []) := by
  rw [secKey_run, hk]
  exact if_neg (Bool.eq_false_iff.mp hs)

theorem secKey_reports (hk : byteAt x.params 0 = 2) : secKeyCmd.run x s =
    (s, .final stOk (u64 (maskOf (s.sec.keys.map fun e => e.1)) ++
      u32 (crc32c ((tfind (byteAt x.params 1) s.sec.keys).getD (List.replicate 64 0))).toNat)) := by
  rw [secKey_run, hk]
  exact if_neg (Bool.eq_false_iff.mp hs)

end
end

/-! ### What an accepted command of the group answers -/

section
variable {h : HostId} {p : Packet} {s : State} {a : Ans} {s1 : State}

theorem fwStage_answers (ha : Safety.Accepted 0x0B00 fwStageCmd h p s)
    (hr : fwStageCmd.run (Safety.cmdOf 0x0B00 h p) (Safety.begun 0x0B00 h p s) = (s1, a)) :
    Safety.Answers (.fwStage p) 0x0B00 h p s a s1 := answers (by decide) rfl (.inr rfl) ha hr

theorem fwActivate_answers (ha : Safety.Accepted 0x0B01 fwActivateCmd h p s)
    (hr : fwActivateCmd.run (Safety.cmdOf 0x0B01 h p) (Safety.begun 0x0B01 h p s) = (s1, a)) :
    Safety.Answers (.fwActivate p) 0x0B01 h p s a s1 := answers (by decide) rfl (.inr rfl) ha hr

theorem secLifecycle_answers (ha : Safety.Accepted 0x0B03 secLifecycleCmd h p s)
    (hr : secLifecycleCmd.run (Safety.cmdOf 0x0B03 h p) (Safety.begun 0x0B03 h p s) = (s1, a)) :
    Safety.Answers (.secLifecycle p) 0x0B03 h p s a s1 := answers (by decide) rfl (.inr rfl) ha hr

theorem secKey_answers (ha : Safety.Accepted 0x0B04 secKeyCmd h p s)
    (hr : secKeyCmd.run (Safety.cmdOf 0x0B04 h p) (Safety.begun 0x0B04 h p s) = (s1, a)) :
    Safety.Answers (.secKey p) 0x0B04 h p s a s1 := answers (by decide) rfl (.inr rfl) ha hr

theorem secProvision_answers (ha : Safety.Accepted 0x0B05 secProvisionCmd h p s)
    (hr : secProvisionCmd.run (Safety.cmdOf 0x0B05 h p) (Safety.begun 0x0B05 h p s) = (s1, a)) :
    Safety.Answers (.secProvision p) 0x0B05 h p s a s1 := answers (by decide) rfl (.inr rfl) ha hr

end

end Sys2Proof.Machine

namespace Sys2Proof
open Machine

/-- Settles O59: each command by the branch of its handler that the slot, the life cycle or the key store takes. -/
theorem firmwareAndSecurityCommands : Obligations.FirmwareAndSecurityCommands := by
  unfold Obligations.FirmwareAndSecurityCommands
  intro s h p
  refine ⟨fun ha => ⟨fun hl => ?_, fun hc hf => ⟨fun hk => ?_, fun hk => ?_, fun hk => ?_⟩⟩,
    fun ha => ⟨fun hl => ?_, fun hc hf hs => ?_, fun hc hf hs => ⟨fun hm => ?_, fun hm hk ho => ?_, fun hm hk ho => ?_, fun hm hk hu => ?_,
      fun hm hk hu => ?_⟩⟩, fun ha => answers (by decide) rfl (.inr rfl) ha rfl, fun ha => ⟨fun hw => ?_, fun hw hm => ?_⟩,
    fun ha => ⟨fun hs => ?_, fun hk hc => ?_, fun hk hs h0 h3 => ?_, fun hk hs => ?_, fun hk hs => ?_⟩,
    fun ha => ⟨fun hs => ?_, fun hs => ?_⟩⟩
  · exact fwStage_answers ha (fwStage_locked (Safety.cmdOf 0x0B00 h p) (Safety.begun 0x0B00 h p s) hl)
  · exact fwStage_answers ha (fwStage_erases (Safety.cmdOf 0x0B00 h p) (Safety.begun 0x0B00 h p s) hc hf hk)
  · exact fwStage_answers ha (fwStage_programs (Safety.cmdOf 0x0B00 h p) (Safety.begun 0x0B00 h p s) hc hf hk)
  · exact fwStage_answers ha (fwStage_verifies (Safety.cmdOf 0x0B00 h p) (Safety.begun 0x0B00 h p s) hc hf hk)
  · exact fwActivate_answers ha (fwActivate_locked (Safety.cmdOf 0x0B01 h p) (Safety.begun 0x0B01 h p s) hl)
  · exact fwActivate_answers ha (fwActivate_invalid (Safety.cmdOf 0x0B01 h p) (Safety.begun 0x0B01 h p s) hc hf hs)
  · exact fwActivate_answers ha (fwActivate_cold (Safety.cmdOf 0x0B01 h p) (Safety.begun 0x0B01 h p s) hc hf hs hm)
  · exact fwActivate_answers ha (fwActivate_already (Safety.cmdOf 0x0B01 h p) (Safety.begun 0x0B01 h p s) hc hf hs hm hk ho)
  · exact fwActivate_answers ha (fwActivate_updates (Safety.cmdOf 0x0B01 h p) (Safety.begun 0x0B01 h p s) hc hf hs hm hk ho)
  · exact fwActivate_answers ha (fwActivate_incompatible (Safety.cmdOf 0x0B01 h p) (Safety.begun 0x0B01 h p s) hc hf hs hm hk hu)
  · exact fwActivate_answers ha (fwActivate_restarts (Safety.cmdOf 0x0B01 h p) (Safety.begun 0x0B01 h p s) hc hf hs hm hk hu)
  · exact secLifecycle_answers ha (secLifecycle_locked (Safety.cmdOf 0x0B03 h p) (Safety.begun 0x0B03 h p s) hw)
  · exact secLifecycle_answers ha (secLifecycle_writes (Safety.cmdOf 0x0B03 h p) (Safety.begun 0x0B03 h p s) hw hm)
  · exact secKey_answers ha (secKey_shut (Safety.cmdOf 0x0B04 h p) (Safety.begun 0x0B04 h p s) hs)
  · exact secKey_answers ha (secKey_lifeCycle (Safety.cmdOf 0x0B04 h p) (Safety.begun 0x0B04 h p s) hk hc)
  · exact secKey_answers ha (secKey_writes (Safety.cmdOf 0x0B04 h p) (Safety.begun 0x0B04 h p s) hs hk h0 h3)
  · exact secKey_answers ha (secKey_erases (Safety.cmdOf 0x0B04 h p) (Safety.begun 0x0B04 h p s) hs hk)
  · exact secKey_answers ha (secKey_reports (Safety.cmdOf 0x0B04 h p) (Safety.begun 0x0B04 h p s) hs hk)
  · exact secProvision_answers ha (secProvision_locked (Safety.cmdOf 0x0B05 h p) (Safety.begun 0x0B05 h p s) hs)
  · exact secProvision_answers ha (secProvision_writes (Safety.cmdOf 0x0B05 h p) (Safety.begun 0x0B05 h p s) hs)

end Sys2Proof
end
